-- ==== Sys2Proof/Word.lean ====
section
/-!
DEFINITION. The words of the GM7: bytes, 32-bit and 64-bit words, and the plainest arithmetic over them.
Bits are numbered from 0 at the least significant end and multi-byte values are little-endian (R2).
-/

namespace Sys2Proof

/-- One byte of memory. -/
abbrev Byte := BitVec 8
/-- A 32-bit word: an instruction word, or one element of a vector register (R112). -/
abbrev W32 := BitVec 32
/-- A 64-bit word: a scalar register, a mask, a global address (R22, R36). -/
abbrev W64 := BitVec 64
/-- A 7-bit register field of an instruction word (R62). -/
abbrev Fld := BitVec 7

/-- Bits `hi` down to `lo` of a natural number, inclusive (R2). -/
def bits (x hi lo : Nat) : Nat := (x >>> lo) % 2 ^ (hi + 1 - lo)

/-- Bit `i` of a natural number. -/
def bitAt (x i : Nat) : Bool := x.testBit i

/-- 1 for true and 0 for false. -/
def b2n (b : Bool) : Nat := if b then 1 else 0

/-- The two's complement value of the low `n` bits of `x`. -/
def sextNat (n x : Nat) : Int :=
  let y := x % 2 ^ n
  if y < 2 ^ (n - 1) then (y : Int) else (y : Int) - (2 ^ n : Nat)

end Sys2Proof
end

