-- ==== Sys2Proof/Syntax.lean ====
section
/-!
DEFINITION. The steps of the GM7 as syntax: one constructor for every row of the opcode table. The first 229 are the
instructions of a group, with the fields of their words as the manual lays them out (R61 to R73); `e` is the E bit,
`u` the once mark. The others are the steps of the rest of the device: what its engines, gate, placement unit, walkers
and fabric do, what its control cores and host write and call, and what reaches it from outside. Each of those names
what it acts on, and carries the data that comes from outside.
-/

namespace Sys2Proof

/-- The flag that a flag-carrying remote store names: in the rank's global space, or distributed (R162). -/
structure RemFlag where
  dist : Bool
  addr : BitVec 64
deriving DecidableEq, Repr

/-- What a remote packet asks of its target (R162, R165, R185). -/
inductive PktOp where
  /-- `xsend`: data of `size` bytes per thread, and the flag, if any. -/
  | send (size : Nat) (dist : Bool) (flag : Option RemFlag)
  /-- `xget`: read `size` bytes per thread. -/
  | get (size : Nat) (dist : Bool)
  /-- `xred`: the atomic of Table 4 of the memory chapter, on 4 or 8 bytes. -/
  | red (op size : Nat) (dist : Bool)
  /-- `xapp`: append a row of `size` bytes through the descriptor at the thread's address. -/
  | app (size : Nat)
  /-- The remote side of a bulk copy that writes: each pseudo-thread writes the data at its number, an offset in the copy. -/
  | bulkWrite
  /-- The remote side of a bulk copy that reads `n` bytes: each pseudo-thread reads from its number, an offset in the copy,
  to that of the next. -/
  | bulkRead (n : Nat)
deriving DecidableEq, Repr

/-- One thread's part of a packet: its index, the address at the rank, and the data it sends. -/
structure PktThread where
  t : Nat
  addr : BitVec 64
  data : List (BitVec 8)
deriving DecidableEq, Repr

/-- One fabric packet: its source (R59), its target, and the threads it carries (R163). `last` stands on the last packet
to a rank and holds that rank's packet count. -/
structure Packet where
  srcDev : Nat
  srcWorld : Nat
  epoch : BitVec 16
  seq : BitVec 32
  tgtDev : Nat
  tgtPart : Nat
  tgtCtx : Nat
  op : PktOp
  threads : List PktThread
  last : Option Nat
deriving DecidableEq, Repr

/-- What the target answers for one thread: a value, or a failure as cause code and detail (R168). -/
structure PktAnswer where
  t : Nat
  fail : Option (Nat × Nat)
  data : List (BitVec 8)
deriving DecidableEq, Repr

/-- Where an uncorrectable error is found (R296, R297): the structure class of the containment domain table, the core,
die or unit that holds it, the address or number of the entry inside that unit, whether its owner tag is readable, for a
register element whether a read met it that does not consume it (R30), the group whose next instruction consumes the data,
unless background scrub found it, two compute dies between which no route remains once the unit is out of service, and the
half of a packed register element that has the error: 1 the low one, 2 the high one, 0 both (R30, R115). -/
structure ErrSite where
  cls : Nat
  unit : Nat
  entry : Nat
  readable : Bool
  latent : Bool
  finder : Option Nat
  cut : Option (Nat × Nat)
  half : Nat
deriving DecidableEq, Repr

/-- The register block that a memory-mapped write reaches (R286, R307, R319, R330). -/
inductive RegBlock where
  | control (part : Nat)
  | event (part : Nat)
  | launch (part : Nat)
  | grant (part : Nat)
  | domain (part : Nat)
  | channel (ch : Nat)
  | management
  | fleet
deriving DecidableEq, Repr

/-- What the sensors read at a clock evaluation (R330, R338): watts averaged over 10 ms and over the last 1 ms, degrees
Celsius, and coolant flow in tenths of a litre per minute. -/
structure ThermalSample where
  pwrAvg : Nat
  pwr1ms : Nat
  tj : Nat
  inlet : Nat
  flow : Nat
deriving DecidableEq, Repr

/-- An SPDM request as it stands in a DOE mailbox, after its request code: the version byte, the two parameter bytes and
the bytes that follow them (R314). -/
structure SpdmReq where
  version : BitVec 8
  p1 : BitVec 8
  p2 : BitVec 8
  body : List (BitVec 8)
deriving DecidableEq, Repr

/-- One step of the device: an instruction of a group, or a step of the rest of the package. -/
inductive Instr where
  /-- `vadd` (R94). Adds two 32-bit elements modulo 2^32 in every active thread. -/
  | vadd (e u : Bool) (d a b : BitVec 7)
  /-- `vsub` (R94). Subtracts 32-bit elements modulo 2^32 in every active thread. -/
  | vsub (e u : Bool) (d a b : BitVec 7)
  /-- `vmul` (R94). Writes the low 32 bits of the element product. -/
  | vmul (e u : Bool) (d a b : BitVec 7)
  /-- `vmulhi.i` (R94). Writes the high 32 bits of the signed 64-bit product. -/
  | vmulhiI (e u : Bool) (d a b : BitVec 7)
  /-- `vmulhi.n` (R94). Writes the high 32 bits of the unsigned 64-bit product. -/
  | vmulhiN (e u : Bool) (d a b : BitVec 7)
  /-- `vmac` (R94). Adds the low 32 bits of a·b to the prior destination. -/
  | vmac (e u : Bool) (d a b : BitVec 7)
  /-- `vand` (R94). Bitwise AND of elements. -/
  | vand (e u : Bool) (d a b : BitVec 7)
  /-- `vor` (R94). Bitwise OR of elements. -/
  | vor (e u : Bool) (d a b : BitVec 7)
  /-- `vxor` (R94). Bitwise XOR of elements. -/
  | vxor (e u : Bool) (d a b : BitVec 7)
  /-- `vandn` (R94). Bitwise a AND NOT b of elements. -/
  | vandn (e u : Bool) (d a b : BitVec 7)
  /-- `vshl` (R95). Shifts elements left by an unsigned amount, giving 0 at 32 or more. -/
  | vshl (e u : Bool) (d a b : BitVec 7)
  /-- `vshr.n` (R95). Shifts elements right with zero fill. -/
  | vshrN (e u : Bool) (d a b : BitVec 7)
  /-- `vshr.i` (R95). Shifts elements right with sign fill. -/
  | vshrI (e u : Bool) (d a b : BitVec 7)
  /-- `vrotl` (R95). Rotates elements left by the amount mod 32. -/
  | vrotl (e u : Bool) (d a b : BitVec 7)
  /-- `vfshl` (R96). Funnel-shifts the prior destination left, filling from a. -/
  | vfshl (e u : Bool) (d a b : BitVec 7)
  /-- `vfshr` (R96). Funnel-shifts the prior destination right, filling from a. -/
  | vfshr (e u : Bool) (d a b : BitVec 7)
  /-- `vmin.i` (R94). Signed element minimum. -/
  | vminI (e u : Bool) (d a b : BitVec 7)
  /-- `vmax.i` (R94). Signed element maximum. -/
  | vmaxI (e u : Bool) (d a b : BitVec 7)
  /-- `vmin.n` (R94). Unsigned element minimum. -/
  | vminN (e u : Bool) (d a b : BitVec 7)
  /-- `vmax.n` (R94). Unsigned element maximum. -/
  | vmaxN (e u : Bool) (d a b : BitVec 7)
  /-- `vpopc` (R94). Counts the one bits of each element. -/
  | vpopc (e u : Bool) (d a : BitVec 7)
  /-- `vclz` (R94). Counts the leading zero bits of each element. -/
  | vclz (e u : Bool) (d a : BitVec 7)
  /-- `vbrev` (R94). Reverses the bits of each element. -/
  | vbrev (e u : Bool) (d a : BitVec 7)
  /-- `vceq` (R98). Writes a scalar mask of active threads whose elements are equal. -/
  | vceq (e : Bool) (d a b : BitVec 7)
  /-- `vcne` (R98). Writes a mask of active threads whose elements differ. -/
  | vcne (e : Bool) (d a b : BitVec 7)
  /-- `vclt.i` (R98). Writes a mask of active threads where a < b, signed. -/
  | vcltI (e : Bool) (d a b : BitVec 7)
  /-- `vcle.i` (R98). Writes a mask of active threads where a ≤ b, signed. -/
  | vcleI (e : Bool) (d a b : BitVec 7)
  /-- `vclt.n` (R98). Writes a mask of active threads where a < b, unsigned. -/
  | vcltN (e : Bool) (d a b : BitVec 7)
  /-- `vcle.n` (R98). Writes a mask of active threads where a ≤ b, unsigned. -/
  | vcleN (e : Bool) (d a b : BitVec 7)
  /-- `vsel` (R99). Selects a or b per thread by the sm mask. -/
  | vsel (e u : Bool) (d a b : BitVec 7)
  /-- `vmov` (R94). Copies a register, keeping its shape under a full mask. -/
  | vmov (e u : Bool) (d a : BitVec 7)
  /-- `vadd.w` (R100). Adds 64-bit pair values modulo 2^64. -/
  | vaddW (e u : Bool) (d a b : BitVec 7)
  /-- `vsub.w` (R100). Subtracts 64-bit pair values modulo 2^64. -/
  | vsubW (e u : Bool) (d a b : BitVec 7)
  /-- `vshl.w` (R100). Shifts a 64-bit pair left. -/
  | vshlW (e u : Bool) (d a b : BitVec 7)
  /-- `vshr.w.n` (R100). Shifts a 64-bit pair right with zero fill. -/
  | vshrWN (e u : Bool) (d a b : BitVec 7)
  /-- `vshr.w.i` (R100). Shifts a 64-bit pair right with sign fill. -/
  | vshrWI (e u : Bool) (d a b : BitVec 7)
  /-- `vceq.w` (R98). Writes a mask of active threads whose 64-bit pairs are equal. -/
  | vceqW (e : Bool) (d a b : BitVec 7)
  /-- `vclt.w.i` (R98). Writes a mask where the 64-bit a < b, signed. -/
  | vcltWI (e : Bool) (d a b : BitVec 7)
  /-- `vclt.w.n` (R98). Writes a mask where the 64-bit a < b, unsigned. -/
  | vcltWN (e : Bool) (d a b : BitVec 7)
  /-- `vmul.w` (R100). Writes the low 64 bits of the product of two pairs. -/
  | vmulW (e u : Bool) (d a b : BitVec 7)
  /-- `vtid` (R102). Writes the thread index to each active thread. -/
  | vtid (e : Bool) (d : BitVec 7)
  /-- `vxsh` (R106). Each active thread reads the element of the thread its b names. -/
  | vxsh (e : Bool) (d a b : BitVec 7)
  /-- `vxshu` (R106). Each active thread reads the element k threads below it, by a scalar k. -/
  | vxshu (e : Bool) (d a b : BitVec 7)
  /-- `vscan.add` (R106). Writes the running sum over active threads. -/
  | vscanAdd (e : Bool) (d a : BitVec 7)
  /-- `vred.add` (R106). Writes the sum over all active threads to each. -/
  | vredAdd (e : Bool) (d a : BitVec 7)
  /-- `vmatchr` (R107). Sums b over threads of equal key and writes a leader mask to sm. -/
  | vmatchr (e : Bool) (d a b : BitVec 7)
  /-- `vredmaxi.i` (R108). Writes the signed maximum and its lowest thread index as a pair. -/
  | vredmaxiI (e : Bool) (d a : BitVec 7)
  /-- `vredmini.i` (R108). Writes the signed minimum and its lowest thread index as a pair. -/
  | vredminiI (e : Bool) (d a : BitVec 7)
  /-- `vaddmod` (R111). Adds modulo the selected table entry. -/
  | vaddmod (e u : Bool) (d a b : BitVec 7)
  /-- `vsubmod` (R111). Subtracts modulo the selected table entry. -/
  | vsubmod (e u : Bool) (d a b : BitVec 7)
  /-- `vmulmod` (R111). Multiplies modulo the selected table entry. -/
  | vmulmod (e u : Bool) (d a b : BitVec 7)
  /-- `vmacmod` (R111). Multiply-accumulates modulo the selected table entry. -/
  | vmacmod (e u : Bool) (d a b : BitVec 7)
  /-- `vshape` (R103). Writes a register's shape code and value or stride to a scalar. -/
  | vshape (e : Bool) (d a : BitVec 7)
  /-- `vgen` (R104). Copies a register in active threads and forces shape G. -/
  | vgen (e : Bool) (d a : BitVec 7)
  /-- `vlop3` (R97). Computes a three-input bitwise function from an 8-bit truth table. -/
  | vlop3 (e u : Bool) (d a b c : BitVec 7) (k : BitVec 8)
  /-- `mqld` (R110). Loads an entry of the team's modulus table after checking it. -/
  | mqld (e : Bool) (a : BitVec 7) (n : BitVec 3)
  /-- `vfadd` (R134). Adds FP32 elements, rounded in fpm.RM. -/
  | vfadd (e u : Bool) (d a b : BitVec 7)
  /-- `vfsub` (R134). Subtracts FP32 elements, rounded in fpm.RM. -/
  | vfsub (e u : Bool) (d a b : BitVec 7)
  /-- `vfmul` (R134). Multiplies FP32 elements, rounded in fpm.RM. -/
  | vfmul (e u : Bool) (d a b : BitVec 7)
  /-- `vffma` (R134). Computes d + a·b with one rounding. -/
  | vffma (e u : Bool) (d a b : BitVec 7)
  /-- `vfmin` (R135). IEEE minimum of FP32 elements. -/
  | vfmin (e u : Bool) (d a b : BitVec 7)
  /-- `vfmax` (R135). IEEE maximum of FP32 elements. -/
  | vfmax (e u : Bool) (d a b : BitVec 7)
  /-- `vfminn` (R135). IEEE minimumNumber of FP32 elements. -/
  | vfminn (e u : Bool) (d a b : BitVec 7)
  /-- `vfmaxn` (R135). IEEE maximumNumber of FP32 elements. -/
  | vfmaxn (e u : Bool) (d a b : BitVec 7)
  /-- `vfabs` (R136). Clears the sign bit of each element. -/
  | vfabs (e u : Bool) (d a : BitVec 7)
  /-- `vfneg` (R136). Inverts the sign bit of each element. -/
  | vfneg (e u : Bool) (d a : BitVec 7)
  /-- `vfceq` (R138). Writes a mask of active threads where FP32 a = b. -/
  | vfceq (e : Bool) (d a b : BitVec 7)
  /-- `vfclt` (R138). Writes a mask of active threads where FP32 a < b. -/
  | vfclt (e : Bool) (d a b : BitVec 7)
  /-- `vfcle` (R138). Writes a mask of active threads where FP32 a ≤ b. -/
  | vfcle (e : Bool) (d a b : BitVec 7)
  /-- `vfcun` (R138). Writes a mask of active threads where either operand is a NaN. -/
  | vfcun (e : Bool) (d a b : BitVec 7)
  /-- `vfrcp` (R139). Approximates the reciprocal within one ulp. -/
  | vfrcp (e u : Bool) (d a : BitVec 7)
  /-- `vfrsq` (R139). Approximates the reciprocal square root within one ulp. -/
  | vfrsq (e u : Bool) (d a : BitVec 7)
  /-- `vfsqrt` (R134). Correctly rounded square root. -/
  | vfsqrt (e u : Bool) (d a : BitVec 7)
  /-- `vfdiv` (R134). Correctly rounded division. -/
  | vfdiv (e u : Bool) (d a b : BitVec 7)
  /-- `vfexp2` (R139). Approximates 2^a within one ulp. -/
  | vfexp2 (e u : Bool) (d a : BitVec 7)
  /-- `vflog2` (R139). Approximates log2 a within one ulp. -/
  | vflog2 (e u : Bool) (d a : BitVec 7)
  /-- `vfadd.x` (R140). Writes TwoSum of a and b as an exact pair. -/
  | vfaddX (e u : Bool) (d a b : BitVec 7)
  /-- `vfsub.x` (R140). Writes TwoSum of a and −b as an exact pair. -/
  | vfsubX (e u : Bool) (d a b : BitVec 7)
  /-- `vfmul.x` (R140). Writes TwoProd of a and b as an exact pair. -/
  | vfmulX (e u : Bool) (d a b : BitVec 7)
  /-- `vdwadd` (R141). Adds two double-word pairs. -/
  | vdwadd (e u : Bool) (d a b : BitVec 7)
  /-- `vdwsub` (R141). Subtracts two double-word pairs. -/
  | vdwsub (e u : Bool) (d a b : BitVec 7)
  /-- `vdwmul` (R141). Multiplies two double-word pairs. -/
  | vdwmul (e u : Bool) (d a b : BitVec 7)
  /-- `vdwmulf` (R141). Multiplies a double-word pair by an FP32 element. -/
  | vdwmulf (e u : Bool) (d a b : BitVec 7)
  /-- `vdwren` (R141). Renormalises a double-word pair. -/
  | vdwren (e u : Bool) (d a : BitVec 7)
  /-- `vfred.add` (R142). Sums FP32 elements of active threads in ascending order, rounding each step. -/
  | vfredAdd (e : Bool) (d a : BitVec 7)
  /-- `vfred.x` (R142). Sums double-word pairs of active threads in thread order. -/
  | vfredX (e : Bool) (d a : BitVec 7)
  /-- `vfredmaxi` (R143). Writes the FP32 maximum and its thread index as a pair. -/
  | vfredmaxi (e : Bool) (d a : BitVec 7)
  /-- `vfredmini` (R143). Writes the FP32 minimum and its thread index as a pair. -/
  | vfredmini (e : Bool) (d a : BitVec 7)
  /-- `vfscan.add` (R142). Writes the running FP32 sum in thread order. -/
  | vfscanAdd (e : Bool) (d a : BitVec 7)
  /-- `vhadd.bf` (R144). Adds packed BF16 elements. -/
  | vhaddBf (e u : Bool) (d a b : BitVec 7)
  /-- `vhmul.bf` (R144). Multiplies packed BF16 elements. -/
  | vhmulBf (e u : Bool) (d a b : BitVec 7)
  /-- `vhfma.bf` (R144). Fused multiply-add of packed BF16 elements. -/
  | vhfmaBf (e u : Bool) (d a b : BitVec 7)
  /-- `vhadd.h` (R144). Adds packed FP16 elements. -/
  | vhaddH (e u : Bool) (d a b : BitVec 7)
  /-- `vhmul.h` (R144). Multiplies packed FP16 elements. -/
  | vhmulH (e u : Bool) (d a b : BitVec 7)
  /-- `vhfma.h` (R144). Fused multiply-add of packed FP16 elements. -/
  | vhfmaH (e u : Bool) (d a b : BitVec 7)
  /-- `vhdot.bf` (R145). Adds the dot product of two packed BF16 pairs to an FP32 destination. -/
  | vhdotBf (e u : Bool) (d a b : BitVec 7)
  /-- `vcvt` (R146). Converts elements by a selector of code and rounding mode. -/
  | vcvt (e u : Bool) (d a s : BitVec 7)
  /-- `vfclass` (R137). Writes a one-hot class code of each FP32 element. -/
  | vfclass (e u : Bool) (d a : BitVec 7)
  /-- `vfscale` (R134). Multiplies by 2^n with one rounding. -/
  | vfscale (e u : Bool) (d a b : BitVec 7)
  /-- `vsadd.s16` (R201). Adds shares modulo 2^16. -/
  | vsaddS16 (e : Bool) (d a b : BitVec 7)
  /-- `vssub.s16` (R201). Subtracts shares modulo 2^16. -/
  | vssubS16 (e : Bool) (d a b : BitVec 7)
  /-- `vsadd.s32` (R201). Adds shares modulo 2^32. -/
  | vsaddS32 (e : Bool) (d a b : BitVec 7)
  /-- `vssub.s32` (R201). Subtracts shares modulo 2^32. -/
  | vssubS32 (e : Bool) (d a b : BitVec 7)
  /-- `vsaddp.s16` (R201). Adds a public value at party 0 only, modulo 2^16. -/
  | vsaddpS16 (e : Bool) (d a b : BitVec 7)
  /-- `vsaddp.s32` (R201). Adds a public value at party 0 only, modulo 2^32. -/
  | vsaddpS32 (e : Bool) (d a b : BitVec 7)
  /-- `vsmulp.s16` (R201). Multiplies a share by a public value modulo 2^16. -/
  | vsmulpS16 (e : Bool) (d a b : BitVec 7)
  /-- `vsmulp.s32` (R201). Multiplies a share by a public value modulo 2^32. -/
  | vsmulpS32 (e : Bool) (d a b : BitVec 7)
  /-- `vsmul.s16` (R223). Multiplies shares with one Beaver triple per thread through a MASK exchange, modulo 2^16. -/
  | vsmulS16 (e : Bool) (d a b : BitVec 7)
  /-- `vsmul.s32` (R223). Multiplies shares with one Beaver triple per thread through a MASK exchange, modulo 2^32. -/
  | vsmulS32 (e : Bool) (d a b : BitVec 7)
  /-- `vstrunc.s16` (R202). Truncates a 16-bit share by 2^f locally. -/
  | vstruncS16 (e : Bool) (d a f : BitVec 7)
  /-- `vstrunc.s32` (R202). Truncates a 32-bit share by 2^f locally. -/
  | vstruncS32 (e : Bool) (d a f : BitVec 7)
  /-- `vsltz.s16` (R225). Computes a boolean share of the sign bit of a 16-bit value through a BITS exchange. -/
  | vsltzS16 (e : Bool) (d a : BitVec 7)
  /-- `vsltz.s32` (R225). Computes a boolean share of the sign bit of a 32-bit value through a BITS exchange. -/
  | vsltzS32 (e : Bool) (d a : BitVec 7)
  /-- `vsb2a.s16` (R226). Converts a boolean share bit to an arithmetic share modulo 2^16. -/
  | vsb2aS16 (e : Bool) (d a : BitVec 7)
  /-- `vsb2a.s32` (R226). Converts a boolean share bit to an arithmetic share modulo 2^32. -/
  | vsb2aS32 (e : Bool) (d a : BitVec 7)
  /-- `vsxor.b` (R201). XORs boolean shares. -/
  | vsxorB (e : Bool) (d a b : BitVec 7)
  /-- `vsand.b` (R224). ANDs boolean shares with one boolean entry per thread through a BITS exchange. -/
  | vsandB (e : Bool) (d a b : BitVec 7)
  /-- `vsopen.s16` (R227). Opens 16-bit shares to the recipients through an OPEN exchange. -/
  | vsopenS16 (e : Bool) (d a : BitVec 7)
  /-- `vsopen.s32` (R227). Opens 32-bit shares to the recipients through an OPEN exchange. -/
  | vsopenS32 (e : Bool) (d a : BitVec 7)
  /-- `vsred.s16` (R201). Sums 16-bit shares over active threads. -/
  | vsredS16 (e : Bool) (d a : BitVec 7)
  /-- `vsred.s32` (R201). Sums 32-bit shares over active threads. -/
  | vsredS32 (e : Bool) (d a : BitVec 7)
  /-- `cbind` (R209). Binds a role register to a conversation role after the gate checks the handle. -/
  | cbind (e : Bool) (d a : BitVec 7)
  /-- `csend` (R210). Takes a conversation step of a program kind, delivering a payload to the recipients. -/
  | csend (e : Bool) (d k b : BitVec 7)
  /-- `crecv` (R211). Takes the oldest message of a kind from the role's delivery queue. -/
  | crecv (e : Bool) (d a k : BitVec 7)
  /-- `cchoose` (R212). Sends a message of a choice kind as a step. -/
  | cchoose (e : Bool) (d k b : BitVec 7)
  /-- `cdeleg` (R213). Delegates a role to another world with a new ticket. -/
  | cdeleg (e : Bool) (d a : BitVec 7)
  /-- `cstate` (R214). Reads the conversation's status, state, queue count and triple index. -/
  | cstate (e : Bool) (d a : BitVec 7)
  /-- `cabort` (R215). Makes the conversation ABORTED as though the caller had been terminated. -/
  | cabort (e : Bool) (d : BitVec 7)
  /-- `tlevel` (R219). Reads the party's available arithmetic and boolean triples. -/
  | tlevel (e : Bool) (d a : BitVec 7)
  /-- `tfill` (R218). Deals a batch of triples or a tile to a party as a DEAL step. -/
  | tfillSend (e : Bool) (d a b : BitVec 7) (q dst : BitVec 2)
  /-- `tfill` (R218). Moves the oldest dealt batch from the inbox into the party's queue. -/
  | tfillAccept (e : Bool) (d a b : BitVec 7) (q : BitVec 2)
  /-- `tburn` (R220). Burns triples from the head of a queue. -/
  | tburn (e : Bool) (d a : BitVec 7) (q : BitVec 2)
  /-- `xopen` (R227). Opens a tile of shares in memory through an OPEN exchange. -/
  | xopen (e : Bool) (d a b : BitVec 7) (ty dsp ssp : Bool)
  /-- `sadd` (R75). Adds scalars modulo 2^64. -/
  | sadd (e : Bool) (d a b : BitVec 7)
  /-- `ssub` (R75). Subtracts scalars modulo 2^64. -/
  | ssub (e : Bool) (d a b : BitVec 7)
  /-- `smul` (R75). Writes the low 64 bits of the scalar product. -/
  | smul (e : Bool) (d a b : BitVec 7)
  /-- `smulhi.n` (R75). Writes the high 64 bits of the unsigned scalar product. -/
  | smulhiN (e : Bool) (d a b : BitVec 7)
  /-- `sand` (R75). Scalar bitwise AND. -/
  | sand (e : Bool) (d a b : BitVec 7)
  /-- `sor` (R75). Scalar bitwise OR. -/
  | sor (e : Bool) (d a b : BitVec 7)
  /-- `sxor` (R75). Scalar bitwise XOR. -/
  | sxor (e : Bool) (d a b : BitVec 7)
  /-- `sandn` (R75). Scalar a AND NOT b. -/
  | sandn (e : Bool) (d a b : BitVec 7)
  /-- `sshl` (R75). Scalar shift left. -/
  | sshl (e : Bool) (d a b : BitVec 7)
  /-- `sshr.n` (R75). Scalar shift right with zero fill. -/
  | sshrN (e : Bool) (d a b : BitVec 7)
  /-- `sshr.i` (R75). Scalar shift right with sign fill. -/
  | sshrI (e : Bool) (d a b : BitVec 7)
  /-- `sceq` (R75). Writes all-ones if scalars are equal, else 0. -/
  | sceq (e : Bool) (d a b : BitVec 7)
  /-- `sclt.i` (R75). Writes all-ones if a < b signed, else 0. -/
  | scltI (e : Bool) (d a b : BitVec 7)
  /-- `sclt.n` (R75). Writes all-ones if a < b unsigned, else 0. -/
  | scltN (e : Bool) (d a b : BitVec 7)
  /-- `smin.i` (R75). Signed scalar minimum. -/
  | sminI (e : Bool) (d a b : BitVec 7)
  /-- `smax.i` (R75). Signed scalar maximum. -/
  | smaxI (e : Bool) (d a b : BitVec 7)
  /-- `smov` (R75). Copies a scalar or special register. -/
  | smov (e : Bool) (d a : BitVec 7)
  /-- `spopc` (R75). Counts the one bits of a scalar. -/
  | spopc (e : Bool) (d a : BitVec 7)
  /-- `sclz` (R75). Counts the leading zero bits of a scalar. -/
  | sclz (e : Bool) (d a : BitVec 7)
  /-- `sctz` (R75). Counts the trailing zero bits of a scalar. -/
  | sctz (e : Bool) (d a : BitVec 7)
  /-- `sfirst` (R75). Isolates the lowest set bit of a scalar. -/
  | sfirst (e : Bool) (d a : BitVec 7)
  /-- `vaddi` (R101). Adds a sign-extended immediate to each element. -/
  | vaddi (e u : Bool) (d a : BitVec 7) (i : BitVec 9)
  /-- `vmuli` (R101). Multiplies each element by an immediate. -/
  | vmuli (e u : Bool) (d a : BitVec 7) (i : BitVec 9)
  /-- `vandi` (R101). ANDs each element with an immediate. -/
  | vandi (e u : Bool) (d a : BitVec 7) (i : BitVec 9)
  /-- `vshli` (R101). Shifts each element left by an immediate. -/
  | vshli (e u : Bool) (d a : BitVec 7) (i : BitVec 9)
  /-- `vshri.n` (R101). Shifts each element right by an immediate with zero fill. -/
  | vshriN (e u : Bool) (d a : BitVec 7) (i : BitVec 9)
  /-- `vshri.i` (R101). Shifts each element right by an immediate with sign fill. -/
  | vshriI (e u : Bool) (d a : BitVec 7) (i : BitVec 9)
  /-- `vceqi` (R98). Writes a mask of active threads whose element equals an immediate. -/
  | vceqi (e : Bool) (d a : BitVec 7) (i : BitVec 9)
  /-- `vclti.i` (R98). Writes a mask of active threads whose element is below an immediate, signed. -/
  | vcltiI (e : Bool) (d a : BitVec 7) (i : BitVec 9)
  /-- `saddi` (R76). Adds a sign-extended immediate to a scalar. -/
  | saddi (e : Bool) (d a : BitVec 7) (i : BitVec 9)
  /-- `sandi` (R76). ANDs a scalar with an immediate. -/
  | sandi (e : Bool) (d a : BitVec 7) (i : BitVec 9)
  /-- `sori` (R76). ORs a scalar with an immediate. -/
  | sori (e : Bool) (d a : BitVec 7) (i : BitVec 9)
  /-- `sshli` (R76). Shifts a scalar left by an immediate. -/
  | sshli (e : Bool) (d a : BitVec 7) (i : BitVec 9)
  /-- `sshri.n` (R76). Shifts a scalar right by an immediate with zero fill. -/
  | sshriN (e : Bool) (d a : BitVec 7) (i : BitVec 9)
  /-- `sceqi` (R76). Writes all-ones if a scalar equals an immediate. -/
  | sceqi (e : Bool) (d a : BitVec 7) (i : BitVec 9)
  /-- `sclti.i` (R76). Writes all-ones if a scalar is below an immediate, signed. -/
  | scltiI (e : Bool) (d a : BitVec 7) (i : BitVec 9)
  /-- `smovi` (R76). Writes a sign-extended immediate to a scalar. -/
  | smovi (e : Bool) (d : BitVec 7) (i : BitVec 9)
  /-- `sli` (R77). Loads a 32-bit constant, sign-extended, into a scalar. -/
  | sli (e : Bool) (d : BitVec 7) (k : BitVec 32)
  /-- `vli` (R77). Loads a 32-bit constant into each active element. -/
  | vli (e u : Bool) (d : BitVec 7) (k : BitVec 32)
  /-- `ldg` (R151). Loads 4 bytes per thread from global memory, committing at run end. -/
  | ldg (e u : Bool) (d a : BitVec 7) (f : BitVec 9)
  /-- `stg` (R151). Stores 4 bytes per thread to global memory. -/
  | stg (e u : Bool) (d a : BitVec 7) (f : BitVec 9)
  /-- `ldg.w` (R151). Loads 8 bytes per thread from global memory into a pair. -/
  | ldgW (e u : Bool) (d a : BitVec 7) (f : BitVec 9)
  /-- `stg.w` (R151). Stores a pair per thread to global memory. -/
  | stgW (e u : Bool) (d a : BitVec 7) (f : BitVec 9)
  /-- `ldg.q` (R151). Loads 16 bytes per thread from global memory into a quad. -/
  | ldgQ (e u : Bool) (d a : BitVec 7) (f : BitVec 9)
  /-- `stg.q` (R151). Stores a quad per thread to global memory. -/
  | stgQ (e u : Bool) (d a : BitVec 7) (f : BitVec 9)
  /-- `lds` (R151). Loads 4 bytes per thread from the slice window. -/
  | lds (e u : Bool) (d a : BitVec 7) (f : BitVec 9)
  /-- `sts` (R151). Stores 4 bytes per thread to the slice window. -/
  | sts (e u : Bool) (d a : BitVec 7) (f : BitVec 9)
  /-- `lds.w` (R151). Loads 8 bytes per thread from the slice into a pair. -/
  | ldsW (e u : Bool) (d a : BitVec 7) (f : BitVec 9)
  /-- `sts.w` (R151). Stores a pair per thread to the slice. -/
  | stsW (e u : Bool) (d a : BitVec 7) (f : BitVec 9)
  /-- `lds.q` (R151). Loads 16 bytes per thread from the slice into a quad. -/
  | ldsQ (e u : Bool) (d a : BitVec 7) (f : BitVec 9)
  /-- `sts.q` (R151). Stores a quad per thread to the slice. -/
  | stsQ (e u : Bool) (d a : BitVec 7) (f : BitVec 9)
  /-- `sld` (R151). Loads 8 bytes from global memory into a scalar. -/
  | sld (e : Bool) (d a : BitVec 7) (f : BitVec 9)
  /-- `sst` (R151). Stores a scalar's 8 bytes to global memory. -/
  | sst (e : Bool) (d a : BitVec 7) (f : BitVec 9)
  /-- `slds` (R151). Loads 8 bytes from the slice into a scalar. -/
  | slds (e : Bool) (d a : BitVec 7) (f : BitVec 9)
  /-- `ssts` (R151). Stores a scalar's 8 bytes to the slice. -/
  | ssts (e : Bool) (d a : BitVec 7) (f : BitVec 9)
  /-- `ldg.x` (R154). Loads a byte or half-word per thread from global memory. -/
  | ldgX (e u : Bool) (d a b : BitVec 7) (sign half : Bool) (off : BitVec 16)
  /-- `stg.x` (R154). Stores a byte or half-word per thread to global memory. -/
  | stgX (e u : Bool) (d a b : BitVec 7) (half : Bool) (off : BitVec 16)
  /-- `lds.x` (R154). Loads a byte or half-word per thread from the slice. -/
  | ldsX (e u : Bool) (d a b : BitVec 7) (sign half : Bool) (off : BitVec 16)
  /-- `sts.x` (R154). Stores a byte or half-word per thread to the slice. -/
  | stsX (e u : Bool) (d a b : BitVec 7) (half : Bool) (off : BitVec 16)
  /-- `ldd` (R155). Loads 4 bytes per thread from a distributed address. -/
  | ldd (e u : Bool) (d a : BitVec 7) (off : BitVec 16)
  /-- `std` (R155). Stores 4 bytes per thread to a distributed address. -/
  | std (e u : Bool) (d a : BitVec 7) (off : BitVec 16)
  /-- `atom` (R156). Performs an atomic operation per thread on global memory. -/
  | atom (e u : Bool) (d a b : BitVec 7) (off : BitVec 11) (sc : BitVec 3) (ord : BitVec 2) (ret w : Bool) (op : BitVec 4)
  /-- `atoms` (R156). Performs an atomic operation per thread on the slice. -/
  | atoms (e u : Bool) (d a b : BitVec 7) (off : BitVec 11) (sc : BitVec 3) (ord : BitVec 2) (ret w : Bool) (op : BitVec 4)
  /-- `atomd` (R156). Performs an atomic operation per thread at a distributed address. -/
  | atomd (e u : Bool) (d a b : BitVec 7) (off : BitVec 11) (sc : BitVec 3) (ord : BitVec 2) (ret w : Bool) (op : BitVec 4)
  /-- `fence` (R54). Orders earlier accesses on one path before later accesses on another within a scope. -/
  | fence (e : Bool) (q p sc : BitVec 3)
  /-- `xsend` (R165). Stores data at remote ranks and increments a flag once per rank. -/
  | xsend (e : Bool) (d a b : BitVec 7) (nf fsp sp : Bool) (size : BitVec 2) (x : BitVec 7)
  /-- `xget` (R165). Reads data from remote ranks. -/
  | xget (e : Bool) (d a b : BitVec 7) (sp : Bool) (size : BitVec 2)
  /-- `xred` (R165). Performs a relaxed atomic at remote ranks. -/
  | xred (e : Bool) (d a b : BitVec 7) (op : BitVec 4) (ret sp : Bool) (size : BitVec 2) (x : BitVec 7)
  /-- `xapp` (R167). Appends rows through append descriptors at remote ranks. -/
  | xapp (e : Bool) (d a b : BitVec 7) (ret : Bool) (size : BitVec 2) (x : BitVec 7)
  /-- `mmloop` (R180). Hands a matrix loop on A registers and slice B tiles to the matrix queue. -/
  | mmloop (e : Bool) (d a b : BitVec 7) (binc : BitVec 11) (ab : BitVec 5) (z reuse : Bool) (mode : BitVec 2) (nk : BitVec 3)
  /-- `cpy` (R186). Hands a bulk copy to the copy engine. -/
  | cpy (e : Bool) (d a b : BitVec 7) (dsp ssp : BitVec 2) (ab : BitVec 5)
  /-- `cunpack` (R189). Hands an unpack of narrow-format tiles to BF16 panels to the copy engine. -/
  | cunpack (e : Bool) (d a b : BitVec 7) (ssp : Bool) (rows gran : BitVec 2) (ty : BitVec 3) (ab : BitVec 5)
  /-- `cbinit` (R193). Initialises or releases a circular buffer. -/
  | cbinit (e : Bool) (a b : BitVec 7) (n : BitVec 5)
  /-- `cbpush` (R194). Assigns the next ring slot to a fill and hands the fill to the copy engine. -/
  | cbpush (e : Bool) (a b : BitVec 7) (ssp : BitVec 2) (n : BitVec 5)
  /-- `cbpop` (R195). Binds the next ring slot and commits its offset once it is filled. -/
  | cbpop (e : Bool) (d : BitVec 7) (n : BitVec 5)
  /-- `cbfree` (R196). Returns the oldest popped slot to free after earlier path-T accesses. -/
  | cbfree (e : Bool) (n : BitVec 5)
  /-- `abar` (R175). Initialises an asynchronous barrier's expected count. -/
  | abarInit (e : Bool) (a : BitVec 7) (n : BitVec 5)
  /-- `abar` (R175). Counts one arrival once the group's earlier path-T accesses are performed. -/
  | abarArrive (e : Bool) (n : BitVec 5)
  /-- `abar` (R175). Ends the run and parks until the barrier's phase bit differs from the expected parity. -/
  | abarWait (e : Bool) (a : BitVec 7) (n : BitVec 5)
  /-- `launch` (R92). Enqueues a launch record from a group after a device-scope full fence. -/
  | launch (e : Bool) (a : BitVec 7) (q : BitVec 4)
  /-- `evcfg` (R91). Reads a core window count and optionally sets the event action. -/
  | evcfg (e : Bool) (d : BitVec 7) (set : Bool) (action : BitVec 2) (cls : BitVec 3)
  /-- `br` (R78). Branches unconditionally. -/
  | br (e : Bool) (t : BitVec 16)
  /-- `bz` (R78). Branches if a scalar is zero. -/
  | bz (e : Bool) (c : BitVec 7) (t : BitVec 16)
  /-- `bnz` (R78). Branches if a scalar is non-zero. -/
  | bnz (e : Bool) (c : BitVec 7) (t : BitVec 16)
  /-- `bmz` (R78). Branches if a mask ANDed with lvm is zero. -/
  | bmz (e : Bool) (c : BitVec 7) (t : BitVec 16)
  /-- `bmnz` (R78). Branches if a mask ANDed with lvm is non-zero. -/
  | bmnz (e : Bool) (c : BitVec 7) (t : BitVec 16)
  /-- `call` (R78). Writes the return address and branches. -/
  | call (e : Bool) (c : BitVec 7) (t : BitVec 16)
  /-- `jr` (R78). Jumps to the address in a scalar. -/
  | jr (e : Bool) (c : BitVec 7)
  /-- `loop` (R78). Decrements a scalar and branches while it is non-zero. -/
  | loop (e : Bool) (c : BitVec 7) (t : BitVec 16)
  /-- `trap` (R82). Raises a user trap with an 8-bit code. -/
  | trap (e : Bool) (k : BitVec 8)
  /-- `wbase` (R80). Sets the vector register window base. -/
  | wbase (e : Bool) (n : BitVec 5)
  /-- `bar` (R84). Ends the run and arrives at a team barrier. -/
  | bar (e : Bool) (n : BitVec 4)
  /-- `exit` (R81). Ends the run and the group. -/
  | exit (e : Bool)
  /-- `yield` (R17). Ends the run without parking, leaving results to commit later. -/
  | yield (e : Bool)
  /-- `sys` (R87). Sends a system-call request to the partition's control core. -/
  | sys (e : Bool) (c : BitVec 7) (n : BitVec 8)
  /-- `rtrap` (R29). Replays the replay set and disarms the trap state. -/
  | rtrap (e : Bool)
  /-- `LANE_CHOICE` (R258). A lane picks its next ready group and the group executes its run. -/
  | laneChoice (core lane : Nat)
  /-- `ASYNC_RETURN` (R19). A long-latency result, remote return or engine return arrives for a group allocation. -/
  | asyncReturn (n : Nat)
  /-- `RUN_COMMIT` (R16). Once every outstanding result of a parked run has returned, results commit. -/
  | runCommit (g : Nat)
  /-- `YIELDED_RUN_COMMIT` (R17). A yielded run's results commit at the first run boundary after they have all returned. -/
  | yieldedRunCommit (g : Nat)
  /-- `BARRIER_STALL` (R86). A barrier's stall time exceeds the stall limit and parked groups trap. -/
  | barrierStall (team bar : Nat)
  /-- `TRIPLE_STARVATION` (R229). A wait for triples exceeds STALLLIM and the instruction withdraws. -/
  | tripleStarvation (g idx : Nat)
  /-- `EVENT_WINDOW_RESTART` (R89). A core's event window counts restart every EVWIN cycles. -/
  | eventWindowRestart (core : Nat)
  /-- `ENGINE_ACCEPT` (R171). A waiting engine operation takes a freed matrix-queue entry or copy slot. -/
  | engineAccept (g : Nat)
  /-- `MMLOOP_COMPLETE` (R184). A matrix loop's updates become visible and it arrives on its barrier. -/
  | mmloopComplete (core : Nat)
  /-- `COPY_COMPLETE` (R187). A copy or unpack finishes or fails and arrives on its barrier. -/
  | copyComplete (core slot : Nat)
  /-- `CB_FILL_COMPLETE` (R194). A buffer fill becomes visible and its slot is marked filled or failed. -/
  | cbFillComplete (core slot : Nat)
  /-- `CB_FILL_START` (R194). A waiting push begins filling once its ring slot is free. -/
  | cbFillStart (core slot : Nat)
  /-- `ABAR_ARRIVAL_COUNT` (R175). An abar arrive is counted once the group's earlier accesses are performed. -/
  | abarArrivalCount (team bar : Nat)
  /-- `CBFREE_SLOT_FREED` (R196). A freed slot becomes free once earlier path-T accesses are performed. -/
  | cbfreeSlotFreed (team buf : Nat)
  /-- `SYS_ANSWER` (R87). The control core answers a system call and the value commits to the group. -/
  | sysAnswer (g idx : Nat) (v : BitVec 64)
  /-- `LAUNCH_RECORD_ACCEPT` (R92). A queue entry frees and a parked launch's record is read, checked and enqueued. -/
  | launchRecordAccept (g : Nat)
  /-- `LQDOOR` (R251). A doorbell write enqueues the record at the written address in a queue. -/
  | lqdoor (part q : Nat) (addr : BitVec 64)
  /-- `LQSTAT_CLEAR` (R250). A write of ones clears DROP or BAD of a queue. -/
  | lqstatClear (part q : Nat) (v : BitVec 64)
  /-- `PREEMPT` (R260). Command 1 halts every group of a launch at its next run boundary. -/
  | preempt (part lid : Nat)
  /-- `RESUME` (R260). Command 2 makes a launch's halted groups ready and resumes placement. -/
  | resume (part lid : Nat)
  /-- `TERMINATE` (R262). Command 3 kills every group of a launch and discards its unplaced teams. -/
  | terminate (part lid : Nat)
  /-- `EVCNT_WRITE` (R255). A control-core write to an event counter may satisfy launch dependences. -/
  | evcntWrite (part c : Nat) (v : BitVec 64)
  /-- `RESVCORE_WRITE` (R257). A write reserves or releases cores for collective launches. -/
  | resvcoreWrite (part w : Nat) (v : BitVec 64)
  /-- `PLACE_TEAM` (R256). The placement unit places one team of a ready queue head. -/
  | placeTeam (part : Nat)
  /-- `COOP_PLACE` (R256). All teams of a cooperative launch are placed in one step, or none. -/
  | coopPlace (part : Nat)
  /-- `GROUP_RESTORE` (R265). A spilled group or team image is restored once its rows and range are free. -/
  | groupRestore (teamImage : Bool) (uid : Nat)
  /-- `TEAM_COMPLETE` (R255). A team whose groups exited and whose engine work ended is freed. -/
  | teamComplete (team : Nat)
  /-- `CORE_REMOVE_COMPLETE` (R266). A removal completes once its cores hold no team or spilled image. -/
  | coreRemoveComplete (part : Nat)
  /-- `GATE_SEND_ACCEPT` (R210). A delayed send or deal is accepted when the delivery queue or inbox has room. -/
  | gateSendAccept (conv role : Nat)
  /-- `GATE_EXCHANGE_COMPLETE` (R222). The peers' words arrive and a gate share instruction forms its result. -/
  | gateExchangeComplete (conv ex party : Nat)
  /-- `REMOTE_REQUEST` (R59). A target device receives a remote packet and decides it by its duplicate filter. -/
  | remoteRequest (p : Packet)
  /-- `REMOTE_ACK` (R164). An acknowledgement or failure of a remote packet reaches the source. -/
  | remoteAck (req : Nat) (answers : List PktAnswer)
  /-- `REMOTE_RESEND` (R60). A request unacknowledged within the retry interval is resent. -/
  | remoteResend (req : Nat)
  /-- `PORT_DOWN` (R337). A fabric port goes down or loses lanes and its packets move to another port. -/
  | portDown (port lanes : Nat)
  /-- `PORT_UP` (R337). A port retrains and comes back up. -/
  | portUp (port lanes : Nat)
  /-- `CTX_CREATE` (R287). Service call creating a context. -/
  | ctxCreate (part cc : Nat) (a0 : BitVec 64)
  /-- `CTX_DESTROY` (R294). Service call destroying a context, optionally by force. -/
  | ctxDestroy (part cc : Nat) (a0 a1 : BitVec 64)
  /-- `CTX_ROOT` (R287). Service call setting a context's page-table root. -/
  | ctxRoot (part cc : Nat) (a0 a1 : BitVec 64)
  /-- `GROUP_RESUME` (R287). Service call resuming a trapped group by replay, skip or kill. -/
  | groupResume (part cc : Nat) (a0 a1 a2 : BitVec 64)
  /-- `CHOREO_LOAD` (R204). Service call checking and loading a choreography image. -/
  | choreoLoad (part cc : Nat) (a0 : BitVec 64)
  /-- `CHOREO_UNLOAD` (R287). Service call unloading a choreography. -/
  | choreoUnload (part cc : Nat) (a0 : BitVec 64)
  /-- `CONV_CREATE` (R305). Service call claiming roles of a conversation description. -/
  | convCreate (part cc : Nat) (a0 a1 a2 : BitVec 64)
  /-- `CONV_CREATE_TIMEOUT` (R305). A pending set not completed within 2^32 cycles is dropped. -/
  | convCreateTimeout (conv : Nat)
  /-- `CONV_DESTROY` (R306). Service call aborting and releasing a conversation. -/
  | convDestroy (part cc : Nat) (a0 : BitVec 64)
  /-- `CHAN_KEY` (R318). Service call installing the channel key, salt and inbox. -/
  | chanKey (part cc : Nat) (a0 a1 a2 : BitVec 64)
  /-- `MEAS_EXTEND` (R318). Service call extending PMREG3. -/
  | measExtend (part cc : Nat) (a0 : BitVec 64)
  /-- `TENSOR_OPEN` (R324). Service call opening the lowest free tensor slot with fresh keys. -/
  | tensorOpen (part cc : Nat)
  /-- `TENSOR_BUMP` (R325). Service call writing back a slot's lines and incrementing its version. -/
  | tensorBump (part cc : Nat) (a0 : BitVec 64)
  /-- `TENSOR_CLOSE` (R325). Service call zeroing a slot's keys and freeing it. -/
  | tensorClose (part cc : Nat) (a0 : BitVec 64)
  /-- `TLB_INVALIDATE_PAGE` (R292). TLBCMD scope 0 drops cached entries of one page. -/
  | tlbInvalidatePage (part ctx : Nat)
  /-- `TLB_INVALIDATE_CONTEXT` (R292). TLBCMD scope 1 drops cached entries of one context. -/
  | tlbInvalidateContext (part ctx : Nat)
  /-- `TLB_INVALIDATE_PARTITION` (R292). TLBCMD scope 2 drops cached entries of the whole partition. -/
  | tlbInvalidatePartition (part : Nat)
  /-- `TLB_INVALIDATE_DONE` (R292). An invalidation completes and BUSY falls. -/
  | tlbInvalidateDone (part : Nat)
  /-- `RING_CONFIG_WRITE` (R299). A write of RINGBASE or RINGLOG enables or disables the report ring. -/
  | ringConfigWrite (part : Nat) (isBase : Bool) (v : BitVec 64)
  /-- `RINGTAIL_WRITE` (R299). Software consumes entries, making room for held entries. -/
  | ringtailWrite (part : Nat) (v : BitVec 64)
  /-- `PART_CREATE` (R288). Management command creating a partition. -/
  | partCreate (clus ccs : BitVec 32) (gran : Nat) (ports : BitVec 32) (image : List (BitVec 8))
  /-- `PART_DESTROY` (R288). Management command destroying a partition. -/
  | partDestroy (part : Nat)
  /-- `CORE_ADD` (R288). Management command adding clusters to a partition. -/
  | coreAdd (part : Nat) (clus : BitVec 32)
  /-- `CORE_REMOVE` (R266). Management command removing clusters, optionally by force. -/
  | coreRemove (part : Nat) (clus : BitVec 32) (force : Bool)
  /-- `HBM_GROW` (R288). Management command raising a partition's bound. -/
  | hbmGrow (part n : Nat)
  /-- `HBM_SHRINK` (R288). Management command lowering a partition's bound. -/
  | hbmShrink (part n : Nat)
  /-- `PORT_SET` (R288). Management command changing a partition's fabric ports. -/
  | portSet (part : Nat) (ports : BitVec 32)
  /-- `SLEEP` (R326). Management command beginning retain-sleep entry. -/
  | sleep (force : Bool)
  /-- `WAKEMODE` (R326). Management command setting the wake mode. -/
  | wakemode (mode : BitVec 64)
  /-- `GRAN_RETIRE` (R336). Management command retiring a granule. -/
  | granRetire (gran : Nat)
  /-- `FW_WRITE` (R340). Writes firmware bytes to slot B. -/
  | fwWrite (off : Nat) (bytes : List (BitVec 8))
  /-- `FW_CHECK` (R340). Runs the boot checks on slot B. -/
  | fwCheck
  /-- `FW_COMMIT` (R340). Exchanges the boot pointer and sets COLD. -/
  | fwCommit
  /-- `FW_SVN` (R340). Raises the fused security version. -/
  | fwSvn (v : BitVec 32)
  /-- `FW_REVOKE` (R340). Revokes a key index in fuses. -/
  | fwRevoke (key : Nat)
  /-- `WAITING_COMMAND_RESUME` (R288). A waiting management command proceeds when its condition clears. -/
  | waitingCommandResume (part : Nat)
  /-- `GRANULE_SCRUB_DONE` (R302). A granule finishes scrubbing and becomes clean or is retired. -/
  | granuleScrubDone (fails : Bool)
  /-- `UNCORRECTABLE_ERROR` (R297). An uncorrectable error or unreadable tag is contained by terminating its domain. -/
  | uncorrectableError (site : ErrSite)
  /-- `CORRECTED_ERROR` (R335). A corrected error adds to its class count. -/
  | correctedError (cls : Nat)
  /-- `CE_WINDOW_RESTART` (R335). Corrected-error counts restart every CEWIN ms. -/
  | ceWindowRestart
  /-- `CELIM_WRITE` (R335). A write of a class threshold applies from the next addition. -/
  | celimWrite (cls : Nat) (v : BitVec 64)
  /-- `ERR_RING_CONFIG_WRITE` (R331). A valid ERRLOG write enables the ring and flushes kept records. -/
  | errRingConfigWrite (isBase : Bool) (v : BitVec 64)
  /-- `ERRTAIL_WRITE` (R331). The host consumes records, making room in the error ring. -/
  | errtailWrite (v : BitVec 64)
  /-- `PWRPEAK_READ` (R330). Reading PWRPEAK returns and clears the peak. -/
  | pwrpeakRead
  /-- `RETRYINT_WRITE` (R337). A new resend interval applies to timers started after the write. -/
  | retryintWrite (v : BitVec 64)
  /-- `CLOCK_EVALUATION` (R338). Every 1 ms the clock step is set from the power, thermal and coolant demands. -/
  | clockEvaluation (smp : ThermalSample)
  /-- `REGISTER_WRITE` (R3). A write to a register without behaviour of its own stores the writable fields. -/
  | registerWrite (blk : RegBlock) (off : Nat) (v : BitVec 64)
  /-- `COLD_WRITE` (R307). A write of 1 makes the next start a cold start. -/
  | coldWrite (v : BitVec 64)
  /-- `PERST_DEASSERT` (R308). Deassertion of PERST# starts boot verification and the stages. -/
  | perstDeassert
  /-- `HOT_RESET` (R313). A hot reset makes a cold start. -/
  | hotReset
  /-- `HBM_STACK_TRAINED` (R308). A stack finishes training or is retired, possibly entering stage 1 or 2. -/
  | hbmStackTrained (stack : Nat) (ok : Bool)
  /-- `CLUSTER_SELF_TEST_DONE` (R309). A cluster passes or fails self-test, possibly entering stage 2. -/
  | clusterSelfTestDone (clu : Nat) (ok : Bool)
  /-- `VF_FLR` (R313). Function-level reset of a VF clears its PCIe state, mailbox and ring registers. -/
  | vfFlr (vf : Nat)
  /-- `PF0_FLR` (R313). Function-level reset of PF0 does the same for PF0 and every VF. -/
  | pf0Flr
  /-- `CHANNEL_MESSAGE` (R319). The device reads one host message and delivers, drops or rejects it. -/
  | channelMessage (ch : Nat) (msg : List (BitVec 8))
  /-- `GET_VERSION` (R315). SPDM request returning versions and resetting negotiation. -/
  | getVersion (mb : Nat) (r : SpdmReq)
  /-- `GET_CAPABILITIES` (R314). SPDM request returning capabilities. -/
  | getCapabilities (mb : Nat) (r : SpdmReq)
  /-- `NEGOTIATE_ALGORITHMS` (R314). SPDM request fixing the algorithms. -/
  | negotiateAlgorithms (mb : Nat) (r : SpdmReq)
  /-- `GET_DIGESTS` (R316). SPDM request returning both slots' certificate digests. -/
  | getDigests (mb : Nat) (r : SpdmReq)
  /-- `GET_CERTIFICATE` (R316). SPDM request returning part of a certificate chain. -/
  | getCertificate (mb : Nat) (r : SpdmReq)
  /-- `CHALLENGE` (R316). SPDM request answered with a doubly signed CHALLENGE_AUTH. -/
  | challenge (mb : Nat) (r : SpdmReq)
  /-- `GET_MEASUREMENTS` (R317). SPDM request returning measurement blocks, optionally signed. -/
  | getMeasurements (mb : Nat) (r : SpdmReq)
  /-- `SPDM_UNSUPPORTED_REQUEST` (R315). A request with another code receives UnsupportedRequest. -/
  | spdmUnsupportedRequest (mb : Nat) (code : BitVec 8) (r : SpdmReq)
  /-- `CONTROL_CORE_STORE` (R292). A partition control core stores to partition memory, such as a page-table entry, a launch record or a process-group table. -/
  | controlCoreStore (part addr : Nat) (bytes : List (BitVec 8))
  /-- `MEMORY_SIDE_CACHE_WRITE_BACK` (R323). A modified memory-side cache line is written back to HBM, encrypted under the tensor entry as it stands at that moment. -/
  | memorySideCacheWriteBack (line : Nat)
  /-- `PERST_ASSERT` (R313). PERST# is asserted, stopping the device so that the next start is a cold start unless retain-sleep was entered. -/
  | perstAssert
  /-- `ALWAYS_ON_POWER_LOSS` (R328). The always-on domain loses power, losing the retention SRAM so that the next start is a cold start instead of a wake. -/
  | alwaysOnPowerLoss
deriving DecidableEq, Repr

end Sys2Proof
end

