-- ==== Sys2Proof/Decode.lean ====
section
/-!
DEFINITION. Instruction words (R61 to R73): decoding, total on any bytes and refusing by name; the field kinds of every
instruction (R66, Tables 6 to 13) and the field combinations that a word may not carry; and the encoder, written from
the same tables.
-/

namespace Sys2Proof

/-- Why a word is no instruction: each is the illegal-instruction condition of decode step 2 (R72). -/
inductive Reject where
  /-- The word is 0x00000000 or 0xFFFFFFFF (R73). -/
  | nullWord
  /-- The op value is not listed for the class (R73). -/
  | reservedOp
  /-- The once mark on an instruction that does not define it (R70). -/
  | onceMark
  /-- A Z field that is not 0 (R66). -/
  | zField
  /-- A reserved bit, or a part of `off` that must be 0, is not 0 (R71, Table 12). -/
  | reservedBit
  /-- A reserved code or a combination of fields that the instruction's entry calls an illegal instruction. -/
  | form
  /-- Fewer bytes than the instruction has. -/
  | short
deriving DecidableEq, Repr

/-- What decoding a word gives: an instruction and whether it takes the second word, or the reason why not. -/
abbrev Decoded := Except Reject (Instr × Bool)

/-! ## Field kinds -/

/-- One field of an instruction with its kind (R66, Table 3): a register read (`s`), written (`d`), both (`ds`), or only
named (`n`); V single, P pair, Q quad, S scalar; S6; H; an immediate and whether it is legal; and the A slab of
`mmloop` with its length (R178). -/
inductive Operand where
  | vs (f : Fld) | vd (f : Fld) | vds (f : Fld) | vn (f : Fld)
  | ps (f : Fld) | pd (f : Fld) | pds (f : Fld) | pn (f : Fld)
  | qs (f : Fld) | qd (f : Fld)
  | ss (f : Fld) | sd (f : Fld) | s6 (f : Fld) | h (f : Fld)
  | imm (ok : Bool)
  | slab (f : Fld) (n : Nat)
deriving DecidableEq, Repr

/-- A scalar field names a register: not one of the reserved values 91 to 126 (R22). -/
def scalarOk (f : Fld) : Bool := f.toNat < 91 || f.toNat == 127

/-- A scalar field may be written: it is not a special marked RO (R22, Table 3). -/
def scalarWritable (f : Fld) : Bool :=
  let n := f.toNat
  n < 67 || n == 77 || n == 78 || n == 79 || n == 84 || n == 85 || n == 89 || n == 127

/-- A selector of `vcvt` is listed, and a conversion marked exact carries no mode (R146). -/
def cvtOk (s : Fld) : Bool :=
  let code := s.toNat / 4
  code < 15 && (s.toNat % 4 == 0 || !(6 ≤ code && code ≤ 9 || code == 12 || code == 13))

/-- A path code of a fence is not reserved (R52). -/
def pathOk (p : BitVec 3) : Bool := p.toNat != 5 && p.toNat != 6

/-- The order of an atomic is one that its op allows (R156, Table 4). -/
def atomOrdOk (op : BitVec 4) (ord : BitVec 2) : Bool :=
  match op.toNat with
  | 11 => ord.toNat < 2
  | 12 => ord.toNat == 0 || ord.toNat == 2
  | _ => true

/-- The combinations of op, w and ret that an atomic's word may carry (R156, Table 4). -/
def atomFormOk (op : BitVec 4) (w ret : Bool) : Bool :=
  match op.toNat with
  | 10 => !w
  | 11 => ret
  | 12 => !ret
  | n => n < 10

/-- The ops and sizes of `xred` (R162, Table 8): ops 0 to 7 and 10, 4 or 8 bytes, and `fadd` on 4 only (R156). -/
def redOk (op : BitVec 4) (size : BitVec 2) : Bool :=
  size.toNat < 2 && (op.toNat < 8 || op.toNat == 10 && size.toNat == 0)

/-- The d field of an atomic (R156): the comparand of `cas`, and the destination when ret is 1. -/
def atomD (op : BitVec 4) (ret w : Bool) (f : Fld) : Operand :=
  match w, ret, op.toNat == 9 with
  | false, true, true => .vds f
  | false, true, false => .vd f
  | false, false, true => .vs f
  | false, false, false => .vn f
  | true, true, true => .pds f
  | true, true, false => .pd f
  | true, false, true => .ps f
  | true, false, false => .pn f

/-- The b field of an atomic: its operand x, which `load` does not use. -/
def atomB (op : BitVec 4) (w : Bool) (f : Fld) : Operand :=
  match w, op.toNat == 11 with
  | false, true => .vn f
  | false, false => .vs f
  | true, true => .pn f
  | true, false => .ps f

/-- A data source of a remote instruction: V, P or Q by size (R162). -/
def sizedSrc (size : BitVec 2) (f : Fld) : Operand :=
  match size.toNat with
  | 0 => .vs f
  | 1 => .ps f
  | _ => .qs f

/-- A destination of a remote instruction: V, P or Q by size (R162). -/
def sizedDst (size : BitVec 2) (f : Fld) : Operand :=
  match size.toNat with
  | 0 => .vd f
  | 1 => .pd f
  | _ => .qd f

/-- The fields of each instruction with their kinds (R66, Tables 6 to 13, and the entries that Table 13 points to). -/
def Instr.operands : Instr → List Operand
  | .vadd _ _ d a b => [.vd d, .vs a, .vs b]
  | .vsub _ _ d a b => [.vd d, .vs a, .vs b]
  | .vmul _ _ d a b => [.vd d, .vs a, .vs b]
  | .vmulhiI _ _ d a b => [.vd d, .vs a, .vs b]
  | .vmulhiN _ _ d a b => [.vd d, .vs a, .vs b]
  | .vmac _ _ d a b => [.vds d, .vs a, .vs b]
  | .vand _ _ d a b => [.vd d, .vs a, .vs b]
  | .vor _ _ d a b => [.vd d, .vs a, .vs b]
  | .vxor _ _ d a b => [.vd d, .vs a, .vs b]
  | .vandn _ _ d a b => [.vd d, .vs a, .vs b]
  | .vshl _ _ d a b => [.vd d, .vs a, .vs b]
  | .vshrN _ _ d a b => [.vd d, .vs a, .vs b]
  | .vshrI _ _ d a b => [.vd d, .vs a, .vs b]
  | .vrotl _ _ d a b => [.vd d, .vs a, .vs b]
  | .vfshl _ _ d a b => [.vds d, .vs a, .vs b]
  | .vfshr _ _ d a b => [.vds d, .vs a, .vs b]
  | .vminI _ _ d a b => [.vd d, .vs a, .vs b]
  | .vmaxI _ _ d a b => [.vd d, .vs a, .vs b]
  | .vminN _ _ d a b => [.vd d, .vs a, .vs b]
  | .vmaxN _ _ d a b => [.vd d, .vs a, .vs b]
  | .vpopc _ _ d a => [.vd d, .vs a]
  | .vclz _ _ d a => [.vd d, .vs a]
  | .vbrev _ _ d a => [.vd d, .vs a]
  | .vceq _ d a b => [.sd d, .vs a, .vs b]
  | .vcne _ d a b => [.sd d, .vs a, .vs b]
  | .vcltI _ d a b => [.sd d, .vs a, .vs b]
  | .vcleI _ d a b => [.sd d, .vs a, .vs b]
  | .vcltN _ d a b => [.sd d, .vs a, .vs b]
  | .vcleN _ d a b => [.sd d, .vs a, .vs b]
  | .vsel _ _ d a b => [.vd d, .vs a, .vs b]
  | .vmov _ _ d a => [.vd d, .vs a]
  | .vaddW _ _ d a b => [.pd d, .ps a, .ps b]
  | .vsubW _ _ d a b => [.pd d, .ps a, .ps b]
  | .vshlW _ _ d a b => [.pd d, .ps a, .vs b]
  | .vshrWN _ _ d a b => [.pd d, .ps a, .vs b]
  | .vshrWI _ _ d a b => [.pd d, .ps a, .vs b]
  | .vceqW _ d a b => [.sd d, .ps a, .ps b]
  | .vcltWI _ d a b => [.sd d, .ps a, .ps b]
  | .vcltWN _ d a b => [.sd d, .ps a, .ps b]
  | .vmulW _ _ d a b => [.pd d, .ps a, .ps b]
  | .vtid _ d => [.vd d]
  | .vxsh _ d a b => [.vd d, .vs a, .vs b]
  | .vxshu _ d a b => [.vd d, .vs a, .ss b]
  | .vscanAdd _ d a => [.vd d, .vs a]
  | .vredAdd _ d a => [.vd d, .vs a]
  | .vmatchr _ d a b => [.vd d, .vs a, .vs b]
  | .vredmaxiI _ d a => [.pd d, .vs a]
  | .vredminiI _ d a => [.pd d, .vs a]
  | .vaddmod _ _ d a b => [.vd d, .vs a, .vs b]
  | .vsubmod _ _ d a b => [.vd d, .vs a, .vs b]
  | .vmulmod _ _ d a b => [.vd d, .vs a, .vs b]
  | .vmacmod _ _ d a b => [.vds d, .vs a, .vs b]
  | .vshape _ d a => [.sd d, .vn a]
  | .vgen _ d a => [.vd d, .vs a]
  | .vlop3 _ _ d a b c _ => [.vd d, .vs a, .vs b, .vs c]
  | .mqld _ a _ => [.ss a]
  | .vfadd _ _ d a b => [.vd d, .vs a, .vs b]
  | .vfsub _ _ d a b => [.vd d, .vs a, .vs b]
  | .vfmul _ _ d a b => [.vd d, .vs a, .vs b]
  | .vffma _ _ d a b => [.vds d, .vs a, .vs b]
  | .vfmin _ _ d a b => [.vd d, .vs a, .vs b]
  | .vfmax _ _ d a b => [.vd d, .vs a, .vs b]
  | .vfminn _ _ d a b => [.vd d, .vs a, .vs b]
  | .vfmaxn _ _ d a b => [.vd d, .vs a, .vs b]
  | .vfabs _ _ d a => [.vd d, .vs a]
  | .vfneg _ _ d a => [.vd d, .vs a]
  | .vfceq _ d a b => [.sd d, .vs a, .vs b]
  | .vfclt _ d a b => [.sd d, .vs a, .vs b]
  | .vfcle _ d a b => [.sd d, .vs a, .vs b]
  | .vfcun _ d a b => [.sd d, .vs a, .vs b]
  | .vfrcp _ _ d a => [.vd d, .vs a]
  | .vfrsq _ _ d a => [.vd d, .vs a]
  | .vfsqrt _ _ d a => [.vd d, .vs a]
  | .vfdiv _ _ d a b => [.vd d, .vs a, .vs b]
  | .vfexp2 _ _ d a => [.vd d, .vs a]
  | .vflog2 _ _ d a => [.vd d, .vs a]
  | .vfaddX _ _ d a b => [.pd d, .vs a, .vs b]
  | .vfsubX _ _ d a b => [.pd d, .vs a, .vs b]
  | .vfmulX _ _ d a b => [.pd d, .vs a, .vs b]
  | .vdwadd _ _ d a b => [.pd d, .ps a, .ps b]
  | .vdwsub _ _ d a b => [.pd d, .ps a, .ps b]
  | .vdwmul _ _ d a b => [.pd d, .ps a, .ps b]
  | .vdwmulf _ _ d a b => [.pd d, .ps a, .vs b]
  | .vdwren _ _ d a => [.pd d, .ps a]
  | .vfredAdd _ d a => [.vd d, .vs a]
  | .vfredX _ d a => [.pd d, .ps a]
  | .vfredmaxi _ d a => [.pd d, .vs a]
  | .vfredmini _ d a => [.pd d, .vs a]
  | .vfscanAdd _ d a => [.vd d, .vs a]
  | .vhaddBf _ _ d a b => [.vd d, .vs a, .vs b]
  | .vhmulBf _ _ d a b => [.vd d, .vs a, .vs b]
  | .vhfmaBf _ _ d a b => [.vds d, .vs a, .vs b]
  | .vhaddH _ _ d a b => [.vd d, .vs a, .vs b]
  | .vhmulH _ _ d a b => [.vd d, .vs a, .vs b]
  | .vhfmaH _ _ d a b => [.vds d, .vs a, .vs b]
  | .vhdotBf _ _ d a b => [.vds d, .vs a, .vs b]
  | .vcvt _ _ d a s => [.vd d, .vs a, .imm (cvtOk s)]
  | .vfclass _ _ d a => [.vd d, .vs a]
  | .vfscale _ _ d a b => [.vd d, .vs a, .vs b]
  | .vsaddS16 _ d a b => [.vd d, .vs a, .vs b]
  | .vssubS16 _ d a b => [.vd d, .vs a, .vs b]
  | .vsaddS32 _ d a b => [.vd d, .vs a, .vs b]
  | .vssubS32 _ d a b => [.vd d, .vs a, .vs b]
  | .vsaddpS16 _ d a b => [.vd d, .vs a, .vs b]
  | .vsaddpS32 _ d a b => [.vd d, .vs a, .vs b]
  | .vsmulpS16 _ d a b => [.vd d, .vs a, .vs b]
  | .vsmulpS32 _ d a b => [.vd d, .vs a, .vs b]
  | .vsmulS16 _ d a b => [.vd d, .vs a, .vs b]
  | .vsmulS32 _ d a b => [.vd d, .vs a, .vs b]
  | .vstruncS16 _ d a f => [.vd d, .vs a, .imm (1 ≤ f.toNat && f.toNat ≤ 15)]
  | .vstruncS32 _ d a f => [.vd d, .vs a, .imm (1 ≤ f.toNat && f.toNat ≤ 31)]
  | .vsltzS16 _ d a => [.vd d, .vs a]
  | .vsltzS32 _ d a => [.vd d, .vs a]
  | .vsb2aS16 _ d a => [.vd d, .vs a]
  | .vsb2aS32 _ d a => [.vd d, .vs a]
  | .vsxorB _ d a b => [.vd d, .vs a, .vs b]
  | .vsandB _ d a b => [.vd d, .vs a, .vs b]
  | .vsopenS16 _ d a => [.vd d, .vs a]
  | .vsopenS32 _ d a => [.vd d, .vs a]
  | .vsredS16 _ d a => [.vd d, .vs a]
  | .vsredS32 _ d a => [.vd d, .vs a]
  | .cbind _ d a => [.h d, .ss a]
  | .csend _ d k b => [.h d, .imm (k.toNat < 16), .ss b]
  | .crecv _ d a k => [.sd d, .h a, .imm (k.toNat < 16)]
  | .cchoose _ d k b => [.h d, .imm (k.toNat < 16), .ss b]
  | .cdeleg _ d a => [.h d, .ss a]
  | .cstate _ d a => [.sd d, .h a]
  | .cabort _ d => [.h d]
  | .tlevel _ d a => [.sd d, .h a]
  | .tfillSend _ d a b _ _ => [.h d, .s6 a, .s6 b]
  | .tfillAccept _ d a b _ => [.h d, .s6 a, .s6 b]
  | .tburn _ d a _ => [.h d, .s6 a]
  | .xopen _ d a b _ _ _ => [.s6 d, .s6 a, .s6 b]
  | .sadd _ d a b => [.sd d, .ss a, .ss b]
  | .ssub _ d a b => [.sd d, .ss a, .ss b]
  | .smul _ d a b => [.sd d, .ss a, .ss b]
  | .smulhiN _ d a b => [.sd d, .ss a, .ss b]
  | .sand _ d a b => [.sd d, .ss a, .ss b]
  | .sor _ d a b => [.sd d, .ss a, .ss b]
  | .sxor _ d a b => [.sd d, .ss a, .ss b]
  | .sandn _ d a b => [.sd d, .ss a, .ss b]
  | .sshl _ d a b => [.sd d, .ss a, .ss b]
  | .sshrN _ d a b => [.sd d, .ss a, .ss b]
  | .sshrI _ d a b => [.sd d, .ss a, .ss b]
  | .sceq _ d a b => [.sd d, .ss a, .ss b]
  | .scltI _ d a b => [.sd d, .ss a, .ss b]
  | .scltN _ d a b => [.sd d, .ss a, .ss b]
  | .sminI _ d a b => [.sd d, .ss a, .ss b]
  | .smaxI _ d a b => [.sd d, .ss a, .ss b]
  | .smov _ d a => [.sd d, .ss a]
  | .spopc _ d a => [.sd d, .ss a]
  | .sclz _ d a => [.sd d, .ss a]
  | .sctz _ d a => [.sd d, .ss a]
  | .sfirst _ d a => [.sd d, .ss a]
  | .vaddi _ _ d a _ => [.vd d, .vs a]
  | .vmuli _ _ d a _ => [.vd d, .vs a]
  | .vandi _ _ d a _ => [.vd d, .vs a]
  | .vshli _ _ d a i => [.vd d, .vs a, .imm (i.toNat < 32)]
  | .vshriN _ _ d a i => [.vd d, .vs a, .imm (i.toNat < 32)]
  | .vshriI _ _ d a i => [.vd d, .vs a, .imm (i.toNat < 32)]
  | .vceqi _ d a _ => [.sd d, .vs a]
  | .vcltiI _ d a _ => [.sd d, .vs a]
  | .saddi _ d a _ => [.sd d, .ss a]
  | .sandi _ d a _ => [.sd d, .ss a]
  | .sori _ d a _ => [.sd d, .ss a]
  | .sshli _ d a i => [.sd d, .ss a, .imm (i.toNat < 64)]
  | .sshriN _ d a i => [.sd d, .ss a, .imm (i.toNat < 64)]
  | .sceqi _ d a _ => [.sd d, .ss a]
  | .scltiI _ d a _ => [.sd d, .ss a]
  | .smovi _ d _ => [.sd d]
  | .sli _ d _ => [.sd d]
  | .vli _ _ d _ => [.vd d]
  | .ldg _ _ d a _ => [.vd d, .ps a]
  | .stg _ _ d a _ => [.vs d, .ps a]
  | .ldgW _ _ d a _ => [.pd d, .ps a]
  | .stgW _ _ d a _ => [.ps d, .ps a]
  | .ldgQ _ _ d a _ => [.qd d, .ps a]
  | .stgQ _ _ d a _ => [.qs d, .ps a]
  | .lds _ _ d a _ => [.vd d, .vs a]
  | .sts _ _ d a _ => [.vs d, .vs a]
  | .ldsW _ _ d a _ => [.pd d, .vs a]
  | .stsW _ _ d a _ => [.ps d, .vs a]
  | .ldsQ _ _ d a _ => [.qd d, .vs a]
  | .stsQ _ _ d a _ => [.qs d, .vs a]
  | .sld _ d a _ => [.sd d, .ss a]
  | .sst _ d a _ => [.ss d, .ss a]
  | .slds _ d a _ => [.sd d, .ss a]
  | .ssts _ d a _ => [.ss d, .ss a]
  | .ldgX _ _ d a b _ _ _ => [.vd d, .ps a, .ss b]
  | .stgX _ _ d a b _ _ => [.vs d, .ps a, .ss b]
  | .ldsX _ _ d a b _ _ _ => [.vd d, .vs a, .ss b]
  | .stsX _ _ d a b _ _ => [.vs d, .vs a, .ss b]
  | .ldd _ _ d a _ => [.vd d, .vs a]
  | .std _ _ d a _ => [.vs d, .vs a]
  | .atom _ _ d a b _ sc ord ret w op => [atomD op ret w d, .ps a, atomB op w b, .imm (sc.toNat != 7), .imm (atomOrdOk op ord)]
  | .atoms _ _ d a b _ sc ord ret w op => [atomD op ret w d, .vs a, atomB op w b, .imm (sc.toNat != 7), .imm (atomOrdOk op ord)]
  | .atomd _ _ d a b _ sc ord ret w op => [atomD op ret w d, .vs a, atomB op w b, .imm (sc.toNat != 7), .imm (atomOrdOk op ord)]
  | .fence _ q p sc => [.imm (sc.toNat != 7), .imm (pathOk p), .imm (pathOk q)]
  | .xsend _ d a b nf _ _ size x => [sizedSrc size d, .ps a, .vs b, if nf then .imm true else .s6 x]
  | .xget _ d a b _ size => [sizedDst size d, .ps a, .vs b]
  | .xred _ d a b _ ret _ size x => [if ret then sizedDst size d else .imm true, .ps a, .vs b, sizedSrc size x]
  | .xapp _ d a b ret size x => [if ret then .vd d else .imm true, .ps a, .vs b, sizedSrc size x]
  | .mmloop _ d a b _ _ _ _ _ nk => [.s6 d, .slab a (8 * (nk.toNat + 1)), .s6 b]
  | .cpy _ d a b _ _ _ => [.s6 d, .s6 a, .s6 b]
  | .cunpack _ d a b _ _ _ ty _ => [.s6 d, .s6 a, .s6 b, .imm (ty.toNat < 6)]
  | .cbinit _ a b _ => [.s6 a, .s6 b]
  | .cbpush _ a b _ _ => [.s6 a, .s6 b]
  | .cbpop _ d _ => [.sd d]
  | .abarInit _ a _ => [.s6 a]
  | .abarWait _ a _ => [.s6 a]
  | .launch _ a _ => [.ss a]
  | .evcfg _ d set action _ => [.sd d, .imm (!(set && action == 3#2))]
  | .bz _ c _ => [.ss c]
  | .bnz _ c _ => [.ss c]
  | .bmz _ c _ => [.ss c]
  | .bmnz _ c _ => [.ss c]
  | .call _ c _ => [.s6 c]
  | .jr _ c => [.ss c]
  | .loop _ c _ => [.s6 c]
  | .sys _ c _ => [.s6 c]
  | _ => []

/-- What decode step 3 (R72) can say of a field without the group: everything but the bound of the allocation. -/
def Operand.static : Operand → Bool
  | .vs _ | .vd _ | .vds _ | .vn _ => true
  | .ps f | .pd f | .pds f | .pn f => f.toNat % 2 == 0
  | .qs f | .qd f => f.toNat % 4 == 0
  | .ss f => scalarOk f
  | .sd f => scalarOk f && scalarWritable f
  | .s6 f => f.toNat < 64
  | .h f => 80 ≤ f.toNat && f.toNat ≤ 83
  | .imm ok => ok
  | .slab f _ => f.toNat % 8 == 0

/-- The allocation registers past which a field may not reach: one beyond the highest that it names (R20, R21, R66). -/
def Operand.reach (wb : Nat) : Operand → Nat
  | .vs f | .vd f | .vds f | .vn f => wb + f.toNat + 1
  | .ps f | .pd f | .pds f | .pn f => wb + f.toNat + 2
  | .qs f | .qd f => wb + f.toNat + 4
  | .slab f n => wb + f.toNat + n
  | _ => 0

/-- The field combinations that decode step 2 refuses (R72), beyond reserved ops, Z fields and reserved bits. -/
def Instr.form : Instr → Bool
  | .xsend _ _ _ _ nf _ _ size x => size != 3#2 && (!nf || x == 0#7)
  | .xget _ _ _ _ _ size => size != 3#2
  | .xred _ d _ _ op ret _ size _ => redOk op size && (ret || d == 0#7)
  | .xapp _ d _ _ ret size _ => size != 3#2 && (ret || d == 0#7)
  | .mmloop _ _ _ _ _ _ _ _ mode _ => mode != 3#2
  | .cpy _ _ _ _ dsp ssp _ => !(dsp == 3#2 && ssp == 3#2)
  | .tfillSend _ _ _ _ q _ => q != 3#2
  | .tfillAccept _ _ _ _ q => q != 3#2
  | .tburn _ _ _ q => q.toNat < 2
  | .atom _ _ _ _ _ _ _ _ ret w op => atomFormOk op w ret
  | .atoms _ _ _ _ _ _ _ _ ret w op => atomFormOk op w ret
  | .atomd _ _ _ _ _ _ _ _ ret w op => atomFormOk op w ret
  | _ => true

/-- The E bit (R61). -/
def Instr.ebit : Instr → Bool
  | .vadd e _ _ _ _ => e
  | .vsub e _ _ _ _ => e
  | .vmul e _ _ _ _ => e
  | .vmulhiI e _ _ _ _ => e
  | .vmulhiN e _ _ _ _ => e
  | .vmac e _ _ _ _ => e
  | .vand e _ _ _ _ => e
  | .vor e _ _ _ _ => e
  | .vxor e _ _ _ _ => e
  | .vandn e _ _ _ _ => e
  | .vshl e _ _ _ _ => e
  | .vshrN e _ _ _ _ => e
  | .vshrI e _ _ _ _ => e
  | .vrotl e _ _ _ _ => e
  | .vfshl e _ _ _ _ => e
  | .vfshr e _ _ _ _ => e
  | .vminI e _ _ _ _ => e
  | .vmaxI e _ _ _ _ => e
  | .vminN e _ _ _ _ => e
  | .vmaxN e _ _ _ _ => e
  | .vpopc e _ _ _ => e
  | .vclz e _ _ _ => e
  | .vbrev e _ _ _ => e
  | .vceq e _ _ _ => e
  | .vcne e _ _ _ => e
  | .vcltI e _ _ _ => e
  | .vcleI e _ _ _ => e
  | .vcltN e _ _ _ => e
  | .vcleN e _ _ _ => e
  | .vsel e _ _ _ _ => e
  | .vmov e _ _ _ => e
  | .vaddW e _ _ _ _ => e
  | .vsubW e _ _ _ _ => e
  | .vshlW e _ _ _ _ => e
  | .vshrWN e _ _ _ _ => e
  | .vshrWI e _ _ _ _ => e
  | .vceqW e _ _ _ => e
  | .vcltWI e _ _ _ => e
  | .vcltWN e _ _ _ => e
  | .vmulW e _ _ _ _ => e
  | .vtid e _ => e
  | .vxsh e _ _ _ => e
  | .vxshu e _ _ _ => e
  | .vscanAdd e _ _ => e
  | .vredAdd e _ _ => e
  | .vmatchr e _ _ _ => e
  | .vredmaxiI e _ _ => e
  | .vredminiI e _ _ => e
  | .vaddmod e _ _ _ _ => e
  | .vsubmod e _ _ _ _ => e
  | .vmulmod e _ _ _ _ => e
  | .vmacmod e _ _ _ _ => e
  | .vshape e _ _ => e
  | .vgen e _ _ => e
  | .vlop3 e _ _ _ _ _ _ => e
  | .mqld e _ _ => e
  | .vfadd e _ _ _ _ => e
  | .vfsub e _ _ _ _ => e
  | .vfmul e _ _ _ _ => e
  | .vffma e _ _ _ _ => e
  | .vfmin e _ _ _ _ => e
  | .vfmax e _ _ _ _ => e
  | .vfminn e _ _ _ _ => e
  | .vfmaxn e _ _ _ _ => e
  | .vfabs e _ _ _ => e
  | .vfneg e _ _ _ => e
  | .vfceq e _ _ _ => e
  | .vfclt e _ _ _ => e
  | .vfcle e _ _ _ => e
  | .vfcun e _ _ _ => e
  | .vfrcp e _ _ _ => e
  | .vfrsq e _ _ _ => e
  | .vfsqrt e _ _ _ => e
  | .vfdiv e _ _ _ _ => e
  | .vfexp2 e _ _ _ => e
  | .vflog2 e _ _ _ => e
  | .vfaddX e _ _ _ _ => e
  | .vfsubX e _ _ _ _ => e
  | .vfmulX e _ _ _ _ => e
  | .vdwadd e _ _ _ _ => e
  | .vdwsub e _ _ _ _ => e
  | .vdwmul e _ _ _ _ => e
  | .vdwmulf e _ _ _ _ => e
  | .vdwren e _ _ _ => e
  | .vfredAdd e _ _ => e
  | .vfredX e _ _ => e
  | .vfredmaxi e _ _ => e
  | .vfredmini e _ _ => e
  | .vfscanAdd e _ _ => e
  | .vhaddBf e _ _ _ _ => e
  | .vhmulBf e _ _ _ _ => e
  | .vhfmaBf e _ _ _ _ => e
  | .vhaddH e _ _ _ _ => e
  | .vhmulH e _ _ _ _ => e
  | .vhfmaH e _ _ _ _ => e
  | .vhdotBf e _ _ _ _ => e
  | .vcvt e _ _ _ _ => e
  | .vfclass e _ _ _ => e
  | .vfscale e _ _ _ _ => e
  | .vsaddS16 e _ _ _ => e
  | .vssubS16 e _ _ _ => e
  | .vsaddS32 e _ _ _ => e
  | .vssubS32 e _ _ _ => e
  | .vsaddpS16 e _ _ _ => e
  | .vsaddpS32 e _ _ _ => e
  | .vsmulpS16 e _ _ _ => e
  | .vsmulpS32 e _ _ _ => e
  | .vsmulS16 e _ _ _ => e
  | .vsmulS32 e _ _ _ => e
  | .vstruncS16 e _ _ _ => e
  | .vstruncS32 e _ _ _ => e
  | .vsltzS16 e _ _ => e
  | .vsltzS32 e _ _ => e
  | .vsb2aS16 e _ _ => e
  | .vsb2aS32 e _ _ => e
  | .vsxorB e _ _ _ => e
  | .vsandB e _ _ _ => e
  | .vsopenS16 e _ _ => e
  | .vsopenS32 e _ _ => e
  | .vsredS16 e _ _ => e
  | .vsredS32 e _ _ => e
  | .cbind e _ _ => e
  | .csend e _ _ _ => e
  | .crecv e _ _ _ => e
  | .cchoose e _ _ _ => e
  | .cdeleg e _ _ => e
  | .cstate e _ _ => e
  | .cabort e _ => e
  | .tlevel e _ _ => e
  | .tfillSend e _ _ _ _ _ => e
  | .tfillAccept e _ _ _ _ => e
  | .tburn e _ _ _ => e
  | .xopen e _ _ _ _ _ _ => e
  | .sadd e _ _ _ => e
  | .ssub e _ _ _ => e
  | .smul e _ _ _ => e
  | .smulhiN e _ _ _ => e
  | .sand e _ _ _ => e
  | .sor e _ _ _ => e
  | .sxor e _ _ _ => e
  | .sandn e _ _ _ => e
  | .sshl e _ _ _ => e
  | .sshrN e _ _ _ => e
  | .sshrI e _ _ _ => e
  | .sceq e _ _ _ => e
  | .scltI e _ _ _ => e
  | .scltN e _ _ _ => e
  | .sminI e _ _ _ => e
  | .smaxI e _ _ _ => e
  | .smov e _ _ => e
  | .spopc e _ _ => e
  | .sclz e _ _ => e
  | .sctz e _ _ => e
  | .sfirst e _ _ => e
  | .vaddi e _ _ _ _ => e
  | .vmuli e _ _ _ _ => e
  | .vandi e _ _ _ _ => e
  | .vshli e _ _ _ _ => e
  | .vshriN e _ _ _ _ => e
  | .vshriI e _ _ _ _ => e
  | .vceqi e _ _ _ => e
  | .vcltiI e _ _ _ => e
  | .saddi e _ _ _ => e
  | .sandi e _ _ _ => e
  | .sori e _ _ _ => e
  | .sshli e _ _ _ => e
  | .sshriN e _ _ _ => e
  | .sceqi e _ _ _ => e
  | .scltiI e _ _ _ => e
  | .smovi e _ _ => e
  | .sli e _ _ => e
  | .vli e _ _ _ => e
  | .ldg e _ _ _ _ => e
  | .stg e _ _ _ _ => e
  | .ldgW e _ _ _ _ => e
  | .stgW e _ _ _ _ => e
  | .ldgQ e _ _ _ _ => e
  | .stgQ e _ _ _ _ => e
  | .lds e _ _ _ _ => e
  | .sts e _ _ _ _ => e
  | .ldsW e _ _ _ _ => e
  | .stsW e _ _ _ _ => e
  | .ldsQ e _ _ _ _ => e
  | .stsQ e _ _ _ _ => e
  | .sld e _ _ _ => e
  | .sst e _ _ _ => e
  | .slds e _ _ _ => e
  | .ssts e _ _ _ => e
  | .ldgX e _ _ _ _ _ _ _ => e
  | .stgX e _ _ _ _ _ _ => e
  | .ldsX e _ _ _ _ _ _ _ => e
  | .stsX e _ _ _ _ _ _ => e
  | .ldd e _ _ _ _ => e
  | .std e _ _ _ _ => e
  | .atom e _ _ _ _ _ _ _ _ _ _ => e
  | .atoms e _ _ _ _ _ _ _ _ _ _ => e
  | .atomd e _ _ _ _ _ _ _ _ _ _ => e
  | .fence e _ _ _ => e
  | .xsend e _ _ _ _ _ _ _ _ => e
  | .xget e _ _ _ _ _ => e
  | .xred e _ _ _ _ _ _ _ _ => e
  | .xapp e _ _ _ _ _ _ => e
  | .mmloop e _ _ _ _ _ _ _ _ _ => e
  | .cpy e _ _ _ _ _ _ => e
  | .cunpack e _ _ _ _ _ _ _ _ => e
  | .cbinit e _ _ _ => e
  | .cbpush e _ _ _ _ => e
  | .cbpop e _ _ => e
  | .cbfree e _ => e
  | .abarInit e _ _ => e
  | .abarArrive e _ => e
  | .abarWait e _ _ => e
  | .launch e _ _ => e
  | .evcfg e _ _ _ _ => e
  | .br e _ => e
  | .bz e _ _ => e
  | .bnz e _ _ => e
  | .bmz e _ _ => e
  | .bmnz e _ _ => e
  | .call e _ _ => e
  | .jr e _ => e
  | .loop e _ _ => e
  | .trap e _ => e
  | .wbase e _ => e
  | .bar e _ => e
  | .exit e => e
  | .yield e => e
  | .sys e _ _ => e
  | .rtrap e => e
  | _ => false

/-- The once mark (R70). -/
def Instr.once : Instr → Bool
  | .vadd _ u _ _ _ => u
  | .vsub _ u _ _ _ => u
  | .vmul _ u _ _ _ => u
  | .vmulhiI _ u _ _ _ => u
  | .vmulhiN _ u _ _ _ => u
  | .vmac _ u _ _ _ => u
  | .vand _ u _ _ _ => u
  | .vor _ u _ _ _ => u
  | .vxor _ u _ _ _ => u
  | .vandn _ u _ _ _ => u
  | .vshl _ u _ _ _ => u
  | .vshrN _ u _ _ _ => u
  | .vshrI _ u _ _ _ => u
  | .vrotl _ u _ _ _ => u
  | .vfshl _ u _ _ _ => u
  | .vfshr _ u _ _ _ => u
  | .vminI _ u _ _ _ => u
  | .vmaxI _ u _ _ _ => u
  | .vminN _ u _ _ _ => u
  | .vmaxN _ u _ _ _ => u
  | .vpopc _ u _ _ => u
  | .vclz _ u _ _ => u
  | .vbrev _ u _ _ => u
  | .vsel _ u _ _ _ => u
  | .vmov _ u _ _ => u
  | .vaddW _ u _ _ _ => u
  | .vsubW _ u _ _ _ => u
  | .vshlW _ u _ _ _ => u
  | .vshrWN _ u _ _ _ => u
  | .vshrWI _ u _ _ _ => u
  | .vmulW _ u _ _ _ => u
  | .vaddmod _ u _ _ _ => u
  | .vsubmod _ u _ _ _ => u
  | .vmulmod _ u _ _ _ => u
  | .vmacmod _ u _ _ _ => u
  | .vlop3 _ u _ _ _ _ _ => u
  | .vfadd _ u _ _ _ => u
  | .vfsub _ u _ _ _ => u
  | .vfmul _ u _ _ _ => u
  | .vffma _ u _ _ _ => u
  | .vfmin _ u _ _ _ => u
  | .vfmax _ u _ _ _ => u
  | .vfminn _ u _ _ _ => u
  | .vfmaxn _ u _ _ _ => u
  | .vfabs _ u _ _ => u
  | .vfneg _ u _ _ => u
  | .vfrcp _ u _ _ => u
  | .vfrsq _ u _ _ => u
  | .vfsqrt _ u _ _ => u
  | .vfdiv _ u _ _ _ => u
  | .vfexp2 _ u _ _ => u
  | .vflog2 _ u _ _ => u
  | .vfaddX _ u _ _ _ => u
  | .vfsubX _ u _ _ _ => u
  | .vfmulX _ u _ _ _ => u
  | .vdwadd _ u _ _ _ => u
  | .vdwsub _ u _ _ _ => u
  | .vdwmul _ u _ _ _ => u
  | .vdwmulf _ u _ _ _ => u
  | .vdwren _ u _ _ => u
  | .vhaddBf _ u _ _ _ => u
  | .vhmulBf _ u _ _ _ => u
  | .vhfmaBf _ u _ _ _ => u
  | .vhaddH _ u _ _ _ => u
  | .vhmulH _ u _ _ _ => u
  | .vhfmaH _ u _ _ _ => u
  | .vhdotBf _ u _ _ _ => u
  | .vcvt _ u _ _ _ => u
  | .vfclass _ u _ _ => u
  | .vfscale _ u _ _ _ => u
  | .vaddi _ u _ _ _ => u
  | .vmuli _ u _ _ _ => u
  | .vandi _ u _ _ _ => u
  | .vshli _ u _ _ _ => u
  | .vshriN _ u _ _ _ => u
  | .vshriI _ u _ _ _ => u
  | .vli _ u _ _ => u
  | .ldg _ u _ _ _ => u
  | .stg _ u _ _ _ => u
  | .ldgW _ u _ _ _ => u
  | .stgW _ u _ _ _ => u
  | .ldgQ _ u _ _ _ => u
  | .stgQ _ u _ _ _ => u
  | .lds _ u _ _ _ => u
  | .sts _ u _ _ _ => u
  | .ldsW _ u _ _ _ => u
  | .stsW _ u _ _ _ => u
  | .ldsQ _ u _ _ _ => u
  | .stsQ _ u _ _ _ => u
  | .ldgX _ u _ _ _ _ _ _ => u
  | .stgX _ u _ _ _ _ _ => u
  | .ldsX _ u _ _ _ _ _ _ => u
  | .stsX _ u _ _ _ _ _ => u
  | .ldd _ u _ _ _ => u
  | .std _ u _ _ _ => u
  | .atom _ u _ _ _ _ _ _ _ _ _ => u
  | .atoms _ u _ _ _ _ _ _ _ _ _ => u
  | .atomd _ u _ _ _ _ _ _ _ _ _ => u
  | _ => false

/-- The instruction has two words (R62). -/
def Instr.two : Instr → Bool
  | .vlop3 _ _ _ _ _ _ _
  | .mqld _ _ _
  | .tfillSend _ _ _ _ _ _
  | .tfillAccept _ _ _ _ _
  | .tburn _ _ _ _
  | .xopen _ _ _ _ _ _ _
  | .sli _ _ _
  | .vli _ _ _ _
  | .ldgX _ _ _ _ _ _ _ _
  | .stgX _ _ _ _ _ _ _
  | .ldsX _ _ _ _ _ _ _ _
  | .stsX _ _ _ _ _ _ _
  | .ldd _ _ _ _ _
  | .std _ _ _ _ _
  | .atom _ _ _ _ _ _ _ _ _ _ _
  | .atoms _ _ _ _ _ _ _ _ _ _ _
  | .atomd _ _ _ _ _ _ _ _ _ _ _
  | .fence _ _ _ _
  | .xsend _ _ _ _ _ _ _ _ _
  | .xget _ _ _ _ _ _
  | .xred _ _ _ _ _ _ _ _ _
  | .xapp _ _ _ _ _ _ _
  | .mmloop _ _ _ _ _ _ _ _ _ _
  | .cpy _ _ _ _ _ _ _
  | .cunpack _ _ _ _ _ _ _ _ _
  | .cbinit _ _ _ _
  | .cbpush _ _ _ _ _
  | .cbpop _ _ _
  | .cbfree _ _
  | .abarInit _ _ _
  | .abarArrive _ _
  | .abarWait _ _ _
  | .launch _ _ _
  | .evcfg _ _ _ _ _ => true
  | _ => false

/-- The row of the opcode table is an instruction of a group, not another step of the device. -/
def Instr.isWord : Instr → Bool
  | .laneChoice _ _
  | .asyncReturn _
  | .runCommit _
  | .yieldedRunCommit _
  | .barrierStall _ _
  | .tripleStarvation _ _
  | .eventWindowRestart _
  | .engineAccept _
  | .mmloopComplete _
  | .copyComplete _ _
  | .cbFillComplete _ _
  | .cbFillStart _ _
  | .abarArrivalCount _ _
  | .cbfreeSlotFreed _ _
  | .sysAnswer _ _ _
  | .launchRecordAccept _
  | .lqdoor _ _ _
  | .lqstatClear _ _ _
  | .preempt _ _
  | .resume _ _
  | .terminate _ _
  | .evcntWrite _ _ _
  | .resvcoreWrite _ _ _
  | .placeTeam _
  | .coopPlace _
  | .groupRestore _ _
  | .teamComplete _
  | .coreRemoveComplete _
  | .gateSendAccept _ _
  | .gateExchangeComplete _ _ _
  | .remoteRequest _
  | .remoteAck _ _
  | .remoteResend _
  | .portDown _ _
  | .portUp _ _
  | .ctxCreate _ _ _
  | .ctxDestroy _ _ _ _
  | .ctxRoot _ _ _ _
  | .groupResume _ _ _ _ _
  | .choreoLoad _ _ _
  | .choreoUnload _ _ _
  | .convCreate _ _ _ _ _
  | .convCreateTimeout _
  | .convDestroy _ _ _
  | .chanKey _ _ _ _ _
  | .measExtend _ _ _
  | .tensorOpen _ _
  | .tensorBump _ _ _
  | .tensorClose _ _ _
  | .tlbInvalidatePage _ _
  | .tlbInvalidateContext _ _
  | .tlbInvalidatePartition _
  | .tlbInvalidateDone _
  | .ringConfigWrite _ _ _
  | .ringtailWrite _ _
  | .partCreate _ _ _ _ _
  | .partDestroy _
  | .coreAdd _ _
  | .coreRemove _ _ _
  | .hbmGrow _ _
  | .hbmShrink _ _
  | .portSet _ _
  | .sleep _
  | .wakemode _
  | .granRetire _
  | .fwWrite _ _
  | .fwCheck
  | .fwCommit
  | .fwSvn _
  | .fwRevoke _
  | .waitingCommandResume _
  | .granuleScrubDone _
  | .uncorrectableError _
  | .correctedError _
  | .ceWindowRestart
  | .celimWrite _ _
  | .errRingConfigWrite _ _
  | .errtailWrite _
  | .pwrpeakRead
  | .retryintWrite _
  | .clockEvaluation _
  | .registerWrite _ _ _
  | .coldWrite _
  | .perstDeassert
  | .hotReset
  | .hbmStackTrained _ _
  | .clusterSelfTestDone _ _
  | .vfFlr _
  | .pf0Flr
  | .channelMessage _ _
  | .getVersion _ _
  | .getCapabilities _ _
  | .negotiateAlgorithms _ _
  | .getDigests _ _
  | .getCertificate _ _
  | .challenge _ _
  | .getMeasurements _ _
  | .spdmUnsupportedRequest _ _ _
  | .controlCoreStore _ _ _
  | .memorySideCacheWriteBack _
  | .perstAssert
  | .alwaysOnPowerLoss => false
  | _ => true

/-! ## Decoding -/

/-- A one-word instruction. -/
def one (i : Instr) : Decoded := if i.form then .ok (i, false) else .error .form

/-- A two-word instruction. -/
def two (i : Instr) : Decoded := if i.form then .ok (i, true) else .error .form

/-- U = 1 where the once mark is not defined (R70). -/
def noOnce (u : Bool) (r : Decoded) : Decoded := if u then .error .onceMark else r

/-- A Z field must be 0 (R66). -/
def zf (f : Fld) (r : Decoded) : Decoded := if f == 0 then r else .error .zField

/-- Bits that must be 0 (R71, Table 12). -/
def zb (n : Nat) (r : Decoded) : Decoded := if n == 0 then r else .error .reservedBit

/-- Class 0 (R73). -/
def decodeC0 (e u : Bool) (op : BitVec 6) (d a b : Fld) : Decoded :=
  match op.toNat with
  | 0x01 => one (.vadd e u d a b)
  | 0x02 => one (.vsub e u d a b)
  | 0x03 => one (.vmul e u d a b)
  | 0x04 => one (.vmulhiI e u d a b)
  | 0x05 => one (.vmulhiN e u d a b)
  | 0x06 => one (.vmac e u d a b)
  | 0x07 => one (.vand e u d a b)
  | 0x08 => one (.vor e u d a b)
  | 0x09 => one (.vxor e u d a b)
  | 0x0A => one (.vandn e u d a b)
  | 0x0B => one (.vshl e u d a b)
  | 0x0C => one (.vshrN e u d a b)
  | 0x0D => one (.vshrI e u d a b)
  | 0x0E => one (.vrotl e u d a b)
  | 0x0F => one (.vfshl e u d a b)
  | 0x10 => one (.vfshr e u d a b)
  | 0x11 => one (.vminI e u d a b)
  | 0x12 => one (.vmaxI e u d a b)
  | 0x13 => one (.vminN e u d a b)
  | 0x14 => one (.vmaxN e u d a b)
  | 0x15 => zf b (one (.vpopc e u d a))
  | 0x16 => zf b (one (.vclz e u d a))
  | 0x17 => zf b (one (.vbrev e u d a))
  | 0x18 => noOnce u (one (.vceq e d a b))
  | 0x19 => noOnce u (one (.vcne e d a b))
  | 0x1A => noOnce u (one (.vcltI e d a b))
  | 0x1B => noOnce u (one (.vcleI e d a b))
  | 0x1C => noOnce u (one (.vcltN e d a b))
  | 0x1D => noOnce u (one (.vcleN e d a b))
  | 0x1E => one (.vsel e u d a b)
  | 0x1F => zf b (one (.vmov e u d a))
  | 0x20 => one (.vaddW e u d a b)
  | 0x21 => one (.vsubW e u d a b)
  | 0x22 => one (.vshlW e u d a b)
  | 0x23 => one (.vshrWN e u d a b)
  | 0x24 => one (.vshrWI e u d a b)
  | 0x25 => noOnce u (one (.vceqW e d a b))
  | 0x26 => noOnce u (one (.vcltWI e d a b))
  | 0x27 => noOnce u (one (.vcltWN e d a b))
  | 0x28 => one (.vmulW e u d a b)
  | 0x29 => noOnce u (zf a (zf b (one (.vtid e d))))
  | 0x2A => noOnce u (one (.vxsh e d a b))
  | 0x2B => noOnce u (one (.vxshu e d a b))
  | 0x2C => noOnce u (zf b (one (.vscanAdd e d a)))
  | 0x2D => noOnce u (zf b (one (.vredAdd e d a)))
  | 0x2E => noOnce u (one (.vmatchr e d a b))
  | 0x2F => noOnce u (zf b (one (.vredmaxiI e d a)))
  | 0x30 => noOnce u (zf b (one (.vredminiI e d a)))
  | 0x31 => one (.vaddmod e u d a b)
  | 0x32 => one (.vsubmod e u d a b)
  | 0x33 => one (.vmulmod e u d a b)
  | 0x34 => one (.vmacmod e u d a b)
  | 0x35 => noOnce u (zf b (one (.vshape e d a)))
  | 0x36 => noOnce u (zf b (one (.vgen e d a)))
  | _ => .error .reservedOp

/-- Class 1 (R73). -/
def decodeC1 (e u : Bool) (op : BitVec 6) (d a b : Fld) : Decoded :=
  match op.toNat with
  | 0x00 => one (.vfadd e u d a b)
  | 0x01 => one (.vfsub e u d a b)
  | 0x02 => one (.vfmul e u d a b)
  | 0x03 => one (.vffma e u d a b)
  | 0x04 => one (.vfmin e u d a b)
  | 0x05 => one (.vfmax e u d a b)
  | 0x06 => one (.vfminn e u d a b)
  | 0x07 => one (.vfmaxn e u d a b)
  | 0x08 => zf b (one (.vfabs e u d a))
  | 0x09 => zf b (one (.vfneg e u d a))
  | 0x0A => noOnce u (one (.vfceq e d a b))
  | 0x0B => noOnce u (one (.vfclt e d a b))
  | 0x0C => noOnce u (one (.vfcle e d a b))
  | 0x0D => noOnce u (one (.vfcun e d a b))
  | 0x0E => zf b (one (.vfrcp e u d a))
  | 0x0F => zf b (one (.vfrsq e u d a))
  | 0x10 => zf b (one (.vfsqrt e u d a))
  | 0x11 => one (.vfdiv e u d a b)
  | 0x12 => zf b (one (.vfexp2 e u d a))
  | 0x13 => zf b (one (.vflog2 e u d a))
  | 0x14 => one (.vfaddX e u d a b)
  | 0x15 => one (.vfsubX e u d a b)
  | 0x16 => one (.vfmulX e u d a b)
  | 0x17 => one (.vdwadd e u d a b)
  | 0x18 => one (.vdwsub e u d a b)
  | 0x19 => one (.vdwmul e u d a b)
  | 0x1A => one (.vdwmulf e u d a b)
  | 0x1B => zf b (one (.vdwren e u d a))
  | 0x1C => noOnce u (zf b (one (.vfredAdd e d a)))
  | 0x1D => noOnce u (zf b (one (.vfredX e d a)))
  | 0x1E => noOnce u (zf b (one (.vfredmaxi e d a)))
  | 0x1F => noOnce u (zf b (one (.vfredmini e d a)))
  | 0x20 => noOnce u (zf b (one (.vfscanAdd e d a)))
  | 0x21 => one (.vhaddBf e u d a b)
  | 0x22 => one (.vhmulBf e u d a b)
  | 0x23 => one (.vhfmaBf e u d a b)
  | 0x24 => one (.vhaddH e u d a b)
  | 0x25 => one (.vhmulH e u d a b)
  | 0x26 => one (.vhfmaH e u d a b)
  | 0x27 => one (.vhdotBf e u d a b)
  | 0x28 => one (.vcvt e u d a b)
  | 0x29 => zf b (one (.vfclass e u d a))
  | 0x2A => one (.vfscale e u d a b)
  | _ => .error .reservedOp

/-- Class 2 (R73). -/
def decodeC2 (e u : Bool) (op : BitVec 6) (d a b : Fld) : Decoded :=
  match op.toNat with
  | 0x00 => noOnce u (one (.vsaddS16 e d a b))
  | 0x01 => noOnce u (one (.vssubS16 e d a b))
  | 0x02 => noOnce u (one (.vsaddS32 e d a b))
  | 0x03 => noOnce u (one (.vssubS32 e d a b))
  | 0x04 => noOnce u (one (.vsaddpS16 e d a b))
  | 0x05 => noOnce u (one (.vsaddpS32 e d a b))
  | 0x06 => noOnce u (one (.vsmulpS16 e d a b))
  | 0x07 => noOnce u (one (.vsmulpS32 e d a b))
  | 0x08 => noOnce u (one (.vsmulS16 e d a b))
  | 0x09 => noOnce u (one (.vsmulS32 e d a b))
  | 0x0A => noOnce u (one (.vstruncS16 e d a b))
  | 0x0B => noOnce u (one (.vstruncS32 e d a b))
  | 0x0C => noOnce u (zf b (one (.vsltzS16 e d a)))
  | 0x0D => noOnce u (zf b (one (.vsltzS32 e d a)))
  | 0x0E => noOnce u (zf b (one (.vsb2aS16 e d a)))
  | 0x0F => noOnce u (zf b (one (.vsb2aS32 e d a)))
  | 0x10 => noOnce u (one (.vsxorB e d a b))
  | 0x11 => noOnce u (one (.vsandB e d a b))
  | 0x12 => noOnce u (zf b (one (.vsopenS16 e d a)))
  | 0x13 => noOnce u (zf b (one (.vsopenS32 e d a)))
  | 0x14 => noOnce u (zf b (one (.vsredS16 e d a)))
  | 0x15 => noOnce u (zf b (one (.vsredS32 e d a)))
  | 0x20 => noOnce u (zf b (one (.cbind e d a)))
  | 0x21 => noOnce u (one (.csend e d a b))
  | 0x22 => noOnce u (one (.crecv e d a b))
  | 0x23 => noOnce u (one (.cchoose e d a b))
  | 0x24 => noOnce u (zf b (one (.cdeleg e d a)))
  | 0x25 => noOnce u (zf b (one (.cstate e d a)))
  | 0x26 => noOnce u (zf a (zf b (one (.cabort e d))))
  | 0x27 => noOnce u (zf b (one (.tlevel e d a)))
  | _ => .error .reservedOp

/-- Class 3 (R73). -/
def decodeC3 (e u : Bool) (op : BitVec 6) (d a b : Fld) : Decoded :=
  match op.toNat with
  | 0x00 => noOnce u (one (.sadd e d a b))
  | 0x01 => noOnce u (one (.ssub e d a b))
  | 0x02 => noOnce u (one (.smul e d a b))
  | 0x03 => noOnce u (one (.smulhiN e d a b))
  | 0x04 => noOnce u (one (.sand e d a b))
  | 0x05 => noOnce u (one (.sor e d a b))
  | 0x06 => noOnce u (one (.sxor e d a b))
  | 0x07 => noOnce u (one (.sandn e d a b))
  | 0x08 => noOnce u (one (.sshl e d a b))
  | 0x09 => noOnce u (one (.sshrN e d a b))
  | 0x0A => noOnce u (one (.sshrI e d a b))
  | 0x0B => noOnce u (one (.sceq e d a b))
  | 0x0C => noOnce u (one (.scltI e d a b))
  | 0x0D => noOnce u (one (.scltN e d a b))
  | 0x0E => noOnce u (one (.sminI e d a b))
  | 0x0F => noOnce u (one (.smaxI e d a b))
  | 0x10 => noOnce u (zf b (one (.smov e d a)))
  | 0x11 => noOnce u (zf b (one (.spopc e d a)))
  | 0x12 => noOnce u (zf b (one (.sclz e d a)))
  | 0x13 => noOnce u (zf b (one (.sctz e d a)))
  | 0x14 => noOnce u (zf b (one (.sfirst e d a)))
  | _ => .error .reservedOp

/-- Class 4 (R73). -/
def decodeC4 (e u : Bool) (op : BitVec 4) (d a : Fld) (i : BitVec 9) : Decoded :=
  match op.toNat with
  | 0x0 => one (.vaddi e u d a i)
  | 0x1 => one (.vmuli e u d a i)
  | 0x2 => one (.vandi e u d a i)
  | 0x3 => one (.vshli e u d a i)
  | 0x4 => one (.vshriN e u d a i)
  | 0x5 => one (.vshriI e u d a i)
  | 0x6 => noOnce u (one (.vceqi e d a i))
  | 0x7 => noOnce u (one (.vcltiI e d a i))
  | 0x8 => noOnce u (one (.saddi e d a i))
  | 0x9 => noOnce u (one (.sandi e d a i))
  | 0xA => noOnce u (one (.sori e d a i))
  | 0xB => noOnce u (one (.sshli e d a i))
  | 0xC => noOnce u (one (.sshriN e d a i))
  | 0xD => noOnce u (one (.sceqi e d a i))
  | 0xE => noOnce u (one (.scltiI e d a i))
  | 0xF => noOnce u (zf a (one (.smovi e d i)))
  | _ => .error .reservedOp

/-- Class 5 (R73). -/
def decodeC5 (e u : Bool) (op : BitVec 4) (d a : Fld) (i : BitVec 9) : Decoded :=
  match op.toNat with
  | 0x0 => one (.ldg e u d a i)
  | 0x1 => one (.stg e u d a i)
  | 0x2 => one (.ldgW e u d a i)
  | 0x3 => one (.stgW e u d a i)
  | 0x4 => one (.ldgQ e u d a i)
  | 0x5 => one (.stgQ e u d a i)
  | 0x6 => one (.lds e u d a i)
  | 0x7 => one (.sts e u d a i)
  | 0x8 => one (.ldsW e u d a i)
  | 0x9 => one (.stsW e u d a i)
  | 0xA => one (.ldsQ e u d a i)
  | 0xB => one (.stsQ e u d a i)
  | 0xC => noOnce u (one (.sld e d a i))
  | 0xD => noOnce u (one (.sst e d a i))
  | 0xE => noOnce u (one (.slds e d a i))
  | 0xF => noOnce u (one (.ssts e d a i))
  | _ => .error .reservedOp

/-- Class 6 (R69, R73). -/
def decodeC6 (e u : Bool) (op : BitVec 4) (c : Fld) (t : BitVec 16) : Decoded :=
  match op.toNat with
  | 0x0 => noOnce u (zf c (one (.br e t)))
  | 0x1 => noOnce u (one (.bz e c t))
  | 0x2 => noOnce u (one (.bnz e c t))
  | 0x3 => noOnce u (one (.bmz e c t))
  | 0x4 => noOnce u (one (.bmnz e c t))
  | 0x5 => noOnce u (one (.call e c t))
  | 0x6 => noOnce u (zb (t.toNat / 1) (one (.jr e c)))
  | 0x7 => noOnce u (one (.loop e c t))
  | 0x8 => noOnce u (zf c (zb (t.toNat / 256) (one (.trap e (t.setWidth 8)))))
  | 0x9 => noOnce u (zf c (zb (t.toNat / 32) (one (.wbase e (t.setWidth 5)))))
  | 0xA => noOnce u (zf c (zb (t.toNat / 16) (one (.bar e (t.setWidth 4)))))
  | 0xB => noOnce u (zf c (zb (t.toNat / 1) (one (.exit e))))
  | 0xC => noOnce u (zf c (zb (t.toNat / 1) (one (.yield e))))
  | 0xD => noOnce u (zb (t.toNat / 256) (one (.sys e c (t.setWidth 8))))
  | 0xE => noOnce u (zf c (zb (t.toNat / 1) (one (.rtrap e))))
  | _ => .error .reservedOp

/-- Class 7, with the second word (R71, R73). -/
def decodeC7 (e u : Bool) (op : BitVec 6) (d a b : Fld) (w2 : W32) : Decoded :=
  match op.toNat with
  | 0x01 => zb (w2.extractLsb' 15 17).toNat (two (.vlop3 e u d a b (w2.extractLsb' 8 7) (w2.extractLsb' 0 8)))
  | 0x02 => noOnce u (zf a (zf b (two (.sli e d w2))))
  | 0x03 => zf a (zf b (two (.vli e u d w2)))
  | 0x04 => zb (w2.extractLsb' 18 14).toNat (two (.ldgX e u d a b (w2.getLsbD 17) (w2.getLsbD 16) (w2.extractLsb' 0 16)))
  | 0x05 => zb (w2.extractLsb' 17 15).toNat (two (.stgX e u d a b (w2.getLsbD 16) (w2.extractLsb' 0 16)))
  | 0x06 => zb (w2.extractLsb' 18 14).toNat (two (.ldsX e u d a b (w2.getLsbD 17) (w2.getLsbD 16) (w2.extractLsb' 0 16)))
  | 0x07 => zb (w2.extractLsb' 17 15).toNat (two (.stsX e u d a b (w2.getLsbD 16) (w2.extractLsb' 0 16)))
  | 0x08 => zf b (zb (w2.extractLsb' 16 16).toNat (two (.ldd e u d a (w2.extractLsb' 0 16))))
  | 0x09 => zf b (zb (w2.extractLsb' 16 16).toNat (two (.std e u d a (w2.extractLsb' 0 16))))
  | 0x0A => zb (w2.extractLsb' 27 5).toNat (zb (w2.extractLsb' 11 5).toNat (two (.atom e u d a b (w2.extractLsb' 16 11) (w2.extractLsb' 8 3) (w2.extractLsb' 6 2) (w2.getLsbD 5) (w2.getLsbD 4) (w2.extractLsb' 0 4))))
  | 0x0B => zb (w2.extractLsb' 27 5).toNat (zb (w2.extractLsb' 11 5).toNat (two (.atoms e u d a b (w2.extractLsb' 16 11) (w2.extractLsb' 8 3) (w2.extractLsb' 6 2) (w2.getLsbD 5) (w2.getLsbD 4) (w2.extractLsb' 0 4))))
  | 0x0C => zb (w2.extractLsb' 27 5).toNat (zb (w2.extractLsb' 11 5).toNat (two (.atomd e u d a b (w2.extractLsb' 16 11) (w2.extractLsb' 8 3) (w2.extractLsb' 6 2) (w2.getLsbD 5) (w2.getLsbD 4) (w2.extractLsb' 0 4))))
  | 0x0D => noOnce u (zf d (zf a (zf b (zb (w2.extractLsb' 9 23).toNat (two (.fence e (w2.extractLsb' 6 3) (w2.extractLsb' 3 3) (w2.extractLsb' 0 3)))))))
  | 0x0E => noOnce u (zb (w2.extractLsb' 12 20).toNat (two (.xsend e d a b (w2.getLsbD 11) (w2.getLsbD 10) (w2.getLsbD 9) (w2.extractLsb' 7 2) (w2.extractLsb' 0 7))))
  | 0x0F => noOnce u (zb (w2.extractLsb' 10 22).toNat (zb (w2.extractLsb' 0 7).toNat (two (.xget e d a b (w2.getLsbD 9) (w2.extractLsb' 7 2)))))
  | 0x10 => noOnce u (zb (w2.extractLsb' 17 15).toNat (zb (w2.extractLsb' 10 2).toNat (two (.xred e d a b (w2.extractLsb' 13 4) (w2.getLsbD 12) (w2.getLsbD 9) (w2.extractLsb' 7 2) (w2.extractLsb' 0 7)))))
  | 0x11 => noOnce u (zb (w2.extractLsb' 13 19).toNat (zb (w2.extractLsb' 9 3).toNat (two (.xapp e d a b (w2.getLsbD 12) (w2.extractLsb' 7 2) (w2.extractLsb' 0 7)))))
  | 0x12 => noOnce u (zb (w2.extractLsb' 27 5).toNat (zb (w2.extractLsb' 3 4).toNat (two (.mmloop e d a b (w2.extractLsb' 16 11) (w2.extractLsb' 11 5) (w2.getLsbD 10) (w2.getLsbD 9) (w2.extractLsb' 7 2) (w2.extractLsb' 0 3)))))
  | 0x13 => noOnce u (zb (w2.extractLsb' 9 23).toNat (two (.cpy e d a b (w2.extractLsb' 7 2) (w2.extractLsb' 5 2) (w2.extractLsb' 0 5))))
  | 0x14 => noOnce u (zb (w2.extractLsb' 15 17).toNat (zb (w2.extractLsb' 5 2).toNat (two (.cunpack e d a b (w2.getLsbD 14) (w2.extractLsb' 12 2) (w2.extractLsb' 10 2) (w2.extractLsb' 7 3) (w2.extractLsb' 0 5)))))
  | 0x15 => noOnce u (zf d (zb (w2.extractLsb' 5 27).toNat (two (.cbinit e a b (w2.extractLsb' 0 5)))))
  | 0x16 => noOnce u (zf d (zb (w2.extractLsb' 7 25).toNat (two (.cbpush e a b (w2.extractLsb' 5 2) (w2.extractLsb' 0 5)))))
  | 0x17 => noOnce u (zf a (zf b (zb (w2.extractLsb' 5 27).toNat (two (.cbpop e d (w2.extractLsb' 0 5))))))
  | 0x18 => noOnce u (zf d (zf a (zf b (zb (w2.extractLsb' 5 27).toNat (two (.cbfree e (w2.extractLsb' 0 5)))))))
  | 0x19 => match (w2.extractLsb' 5 2).toNat with
    | 0 => noOnce u (zf d (zf b (zb (w2.extractLsb' 7 25).toNat (two (.abarInit e a (w2.extractLsb' 0 5))))))
    | 1 => noOnce u (zf d (zf a (zf b (zb (w2.extractLsb' 7 25).toNat (two (.abarArrive e (w2.extractLsb' 0 5)))))))
    | 2 => noOnce u (zf d (zf b (zb (w2.extractLsb' 7 25).toNat (two (.abarWait e a (w2.extractLsb' 0 5))))))
    | _ => .error .form
  | 0x1A => noOnce u (zf d (zf b (zb (w2.extractLsb' 4 28).toNat (two (.launch e a (w2.extractLsb' 0 4))))))
  | 0x1B => noOnce u (zf a (zf b (zb (w2.extractLsb' 6 26).toNat (two (.evcfg e d (w2.getLsbD 5) (w2.extractLsb' 3 2) (w2.extractLsb' 0 3))))))
  | 0x1C => noOnce u (zf d (zf b (zb (w2.extractLsb' 3 29).toNat (two (.mqld e a (w2.extractLsb' 0 3))))))
  | 0x1D => if w2.getLsbD 11 then noOnce u (zb (w2.extractLsb' 12 20).toNat (zb (w2.extractLsb' 10 1).toNat (zb (w2.extractLsb' 0 8).toNat (two (.tfillAccept e d a b (w2.extractLsb' 8 2))))))
    else noOnce u (zb (w2.extractLsb' 12 20).toNat (zb (w2.extractLsb' 10 1).toNat (zb (w2.extractLsb' 2 6).toNat (two (.tfillSend e d a b (w2.extractLsb' 8 2) (w2.extractLsb' 0 2))))))
  | 0x1E => noOnce u (zb (w2.extractLsb' 4 28).toNat (zb (w2.extractLsb' 0 1).toNat (two (.xopen e d a b (w2.getLsbD 3) (w2.getLsbD 2) (w2.getLsbD 1)))))
  | 0x1F => noOnce u (zf b (zb (w2.extractLsb' 10 22).toNat (zb (w2.extractLsb' 0 8).toNat (two (.tburn e d a (w2.extractLsb' 8 2))))))
  | _ => .error .reservedOp

/-- Decode step 2 (R72) on a first word and the word after it: the instruction, or why the word is none. -/
def decode (w w2 : W32) : Decoded :=
  if w == 0 || w == 0xFFFFFFFF then .error .nullWord
  else
    let e := w.getLsbD 31
    let u := w.getLsbD 30
    let op6 := w.extractLsb' 21 6
    let op4 := w.extractLsb' 23 4
    let d := w.extractLsb' 14 7
    let a := w.extractLsb' 7 7
    let b := w.extractLsb' 0 7
    match (w.extractLsb' 27 3).toNat with
    | 0 => decodeC0 e u op6 d a b
    | 1 => decodeC1 e u op6 d a b
    | 2 => decodeC2 e u op6 d a b
    | 3 => decodeC3 e u op6 d a b
    | 4 => decodeC4 e u op4 (w.extractLsb' 16 7) (w.extractLsb' 9 7) (w.extractLsb' 0 9)
    | 5 => decodeC5 e u op4 (w.extractLsb' 16 7) (w.extractLsb' 9 7) (w.extractLsb' 0 9)
    | 6 => decodeC6 e u op4 (w.extractLsb' 16 7) (w.extractLsb' 0 16)
    | _ => decodeC7 e u op6 d a b w2

/-- Whether a first word has a second one: class 7 (R62). DESIGN CHOICE (log 37): so does a word of class 7 that is no
instruction: its second word is fetched first, and a trap at it resumes behind both (R72 speaks of instructions). -/
def hasSecond (w : W32) : Bool := w.extractLsb' 27 3 == 7#3

/-- A 32-bit word from its four bytes, the least significant first (R2, R63). -/
def wordOfBytes (b0 b1 b2 b3 : Byte) : W32 := b3 ++ b2 ++ b1 ++ b0

/-- The bytes of a word as they stand in memory (R2, R63). -/
def bytesOfWord (w : W32) : List Byte :=
  [w.extractLsb' 0 8, w.extractLsb' 8 8, w.extractLsb' 16 8, w.extractLsb' 24 8]

/-- Decoding from bytes: the instruction and the bytes that follow it. -/
def decodeBytes : List Byte → Except Reject (Instr × List Byte)
  | b0 :: b1 :: b2 :: b3 :: rest =>
    let w := wordOfBytes b0 b1 b2 b3
    if hasSecond w then
      match rest with
      | c0 :: c1 :: c2 :: c3 :: rest' =>
        match decode w (wordOfBytes c0 c1 c2 c3) with
        | .ok (i, _) => .ok (i, rest')
        | .error r => .error r
      | _ => .error .short
    else
      match decode w 0 with
      | .ok (i, _) => .ok (i, rest)
      | .error r => .error r
  | _ => .error .short

/-- The instruction read from a table word: bit 0 of `w` is the least significant bit of the first word, and a second
word's bits count on from it; bits at and above `nbits` are 0. -/
def decodeTableWord (nbits w : Nat) : Option Instr :=
  let x := w % 2 ^ nbits
  let lo := BitVec.ofNat 32 x
  let hi := BitVec.ofNat 32 (x / 2 ^ 32)
  match decodeBytes (bytesOfWord lo ++ bytesOfWord hi) with
  | .ok (i, _) => some i
  | .error _ => none

/-! ## Encoding -/

/-- A word of form T, or the first word of form X (R62). -/
def packT (e u : Bool) (cls : BitVec 3) (op : BitVec 6) (d a b : Fld) : W32 :=
  BitVec.ofBool e ++ BitVec.ofBool u ++ cls ++ op ++ d ++ a ++ b

/-- A word of form I or M (R62). -/
def packI (e u : Bool) (cls : BitVec 3) (op : BitVec 4) (d a : Fld) (i : BitVec 9) : W32 :=
  BitVec.ofBool e ++ BitVec.ofBool u ++ cls ++ op ++ d ++ a ++ i

/-- A word of form B (R62). -/
def packB (e : Bool) (op : BitVec 4) (c : Fld) (off : BitVec 16) : W32 :=
  BitVec.ofBool e ++ 0#1 ++ 6#3 ++ op ++ c ++ off

/-- The words of an instruction: the first, and the second where it has one; none for a row that has no word. -/
def encode : Instr → Option (W32 × Option W32)
  | .vadd e u d a b => some (packT e u 0 1 d a b, none)
  | .vsub e u d a b => some (packT e u 0 2 d a b, none)
  | .vmul e u d a b => some (packT e u 0 3 d a b, none)
  | .vmulhiI e u d a b => some (packT e u 0 4 d a b, none)
  | .vmulhiN e u d a b => some (packT e u 0 5 d a b, none)
  | .vmac e u d a b => some (packT e u 0 6 d a b, none)
  | .vand e u d a b => some (packT e u 0 7 d a b, none)
  | .vor e u d a b => some (packT e u 0 8 d a b, none)
  | .vxor e u d a b => some (packT e u 0 9 d a b, none)
  | .vandn e u d a b => some (packT e u 0 10 d a b, none)
  | .vshl e u d a b => some (packT e u 0 11 d a b, none)
  | .vshrN e u d a b => some (packT e u 0 12 d a b, none)
  | .vshrI e u d a b => some (packT e u 0 13 d a b, none)
  | .vrotl e u d a b => some (packT e u 0 14 d a b, none)
  | .vfshl e u d a b => some (packT e u 0 15 d a b, none)
  | .vfshr e u d a b => some (packT e u 0 16 d a b, none)
  | .vminI e u d a b => some (packT e u 0 17 d a b, none)
  | .vmaxI e u d a b => some (packT e u 0 18 d a b, none)
  | .vminN e u d a b => some (packT e u 0 19 d a b, none)
  | .vmaxN e u d a b => some (packT e u 0 20 d a b, none)
  | .vpopc e u d a => some (packT e u 0 21 d a 0, none)
  | .vclz e u d a => some (packT e u 0 22 d a 0, none)
  | .vbrev e u d a => some (packT e u 0 23 d a 0, none)
  | .vceq e d a b => some (packT e false 0 24 d a b, none)
  | .vcne e d a b => some (packT e false 0 25 d a b, none)
  | .vcltI e d a b => some (packT e false 0 26 d a b, none)
  | .vcleI e d a b => some (packT e false 0 27 d a b, none)
  | .vcltN e d a b => some (packT e false 0 28 d a b, none)
  | .vcleN e d a b => some (packT e false 0 29 d a b, none)
  | .vsel e u d a b => some (packT e u 0 30 d a b, none)
  | .vmov e u d a => some (packT e u 0 31 d a 0, none)
  | .vaddW e u d a b => some (packT e u 0 32 d a b, none)
  | .vsubW e u d a b => some (packT e u 0 33 d a b, none)
  | .vshlW e u d a b => some (packT e u 0 34 d a b, none)
  | .vshrWN e u d a b => some (packT e u 0 35 d a b, none)
  | .vshrWI e u d a b => some (packT e u 0 36 d a b, none)
  | .vceqW e d a b => some (packT e false 0 37 d a b, none)
  | .vcltWI e d a b => some (packT e false 0 38 d a b, none)
  | .vcltWN e d a b => some (packT e false 0 39 d a b, none)
  | .vmulW e u d a b => some (packT e u 0 40 d a b, none)
  | .vtid e d => some (packT e false 0 41 d 0 0, none)
  | .vxsh e d a b => some (packT e false 0 42 d a b, none)
  | .vxshu e d a b => some (packT e false 0 43 d a b, none)
  | .vscanAdd e d a => some (packT e false 0 44 d a 0, none)
  | .vredAdd e d a => some (packT e false 0 45 d a 0, none)
  | .vmatchr e d a b => some (packT e false 0 46 d a b, none)
  | .vredmaxiI e d a => some (packT e false 0 47 d a 0, none)
  | .vredminiI e d a => some (packT e false 0 48 d a 0, none)
  | .vaddmod e u d a b => some (packT e u 0 49 d a b, none)
  | .vsubmod e u d a b => some (packT e u 0 50 d a b, none)
  | .vmulmod e u d a b => some (packT e u 0 51 d a b, none)
  | .vmacmod e u d a b => some (packT e u 0 52 d a b, none)
  | .vshape e d a => some (packT e false 0 53 d a 0, none)
  | .vgen e d a => some (packT e false 0 54 d a 0, none)
  | .vlop3 e u d a b c k => some (packT e u 7 1 d a b, some (0#17 ++ c ++ k))
  | .mqld e a n => some (packT e false 7 28 0 a 0, some (0#29 ++ n))
  | .vfadd e u d a b => some (packT e u 1 0 d a b, none)
  | .vfsub e u d a b => some (packT e u 1 1 d a b, none)
  | .vfmul e u d a b => some (packT e u 1 2 d a b, none)
  | .vffma e u d a b => some (packT e u 1 3 d a b, none)
  | .vfmin e u d a b => some (packT e u 1 4 d a b, none)
  | .vfmax e u d a b => some (packT e u 1 5 d a b, none)
  | .vfminn e u d a b => some (packT e u 1 6 d a b, none)
  | .vfmaxn e u d a b => some (packT e u 1 7 d a b, none)
  | .vfabs e u d a => some (packT e u 1 8 d a 0, none)
  | .vfneg e u d a => some (packT e u 1 9 d a 0, none)
  | .vfceq e d a b => some (packT e false 1 10 d a b, none)
  | .vfclt e d a b => some (packT e false 1 11 d a b, none)
  | .vfcle e d a b => some (packT e false 1 12 d a b, none)
  | .vfcun e d a b => some (packT e false 1 13 d a b, none)
  | .vfrcp e u d a => some (packT e u 1 14 d a 0, none)
  | .vfrsq e u d a => some (packT e u 1 15 d a 0, none)
  | .vfsqrt e u d a => some (packT e u 1 16 d a 0, none)
  | .vfdiv e u d a b => some (packT e u 1 17 d a b, none)
  | .vfexp2 e u d a => some (packT e u 1 18 d a 0, none)
  | .vflog2 e u d a => some (packT e u 1 19 d a 0, none)
  | .vfaddX e u d a b => some (packT e u 1 20 d a b, none)
  | .vfsubX e u d a b => some (packT e u 1 21 d a b, none)
  | .vfmulX e u d a b => some (packT e u 1 22 d a b, none)
  | .vdwadd e u d a b => some (packT e u 1 23 d a b, none)
  | .vdwsub e u d a b => some (packT e u 1 24 d a b, none)
  | .vdwmul e u d a b => some (packT e u 1 25 d a b, none)
  | .vdwmulf e u d a b => some (packT e u 1 26 d a b, none)
  | .vdwren e u d a => some (packT e u 1 27 d a 0, none)
  | .vfredAdd e d a => some (packT e false 1 28 d a 0, none)
  | .vfredX e d a => some (packT e false 1 29 d a 0, none)
  | .vfredmaxi e d a => some (packT e false 1 30 d a 0, none)
  | .vfredmini e d a => some (packT e false 1 31 d a 0, none)
  | .vfscanAdd e d a => some (packT e false 1 32 d a 0, none)
  | .vhaddBf e u d a b => some (packT e u 1 33 d a b, none)
  | .vhmulBf e u d a b => some (packT e u 1 34 d a b, none)
  | .vhfmaBf e u d a b => some (packT e u 1 35 d a b, none)
  | .vhaddH e u d a b => some (packT e u 1 36 d a b, none)
  | .vhmulH e u d a b => some (packT e u 1 37 d a b, none)
  | .vhfmaH e u d a b => some (packT e u 1 38 d a b, none)
  | .vhdotBf e u d a b => some (packT e u 1 39 d a b, none)
  | .vcvt e u d a s => some (packT e u 1 40 d a s, none)
  | .vfclass e u d a => some (packT e u 1 41 d a 0, none)
  | .vfscale e u d a b => some (packT e u 1 42 d a b, none)
  | .vsaddS16 e d a b => some (packT e false 2 0 d a b, none)
  | .vssubS16 e d a b => some (packT e false 2 1 d a b, none)
  | .vsaddS32 e d a b => some (packT e false 2 2 d a b, none)
  | .vssubS32 e d a b => some (packT e false 2 3 d a b, none)
  | .vsaddpS16 e d a b => some (packT e false 2 4 d a b, none)
  | .vsaddpS32 e d a b => some (packT e false 2 5 d a b, none)
  | .vsmulpS16 e d a b => some (packT e false 2 6 d a b, none)
  | .vsmulpS32 e d a b => some (packT e false 2 7 d a b, none)
  | .vsmulS16 e d a b => some (packT e false 2 8 d a b, none)
  | .vsmulS32 e d a b => some (packT e false 2 9 d a b, none)
  | .vstruncS16 e d a f => some (packT e false 2 10 d a f, none)
  | .vstruncS32 e d a f => some (packT e false 2 11 d a f, none)
  | .vsltzS16 e d a => some (packT e false 2 12 d a 0, none)
  | .vsltzS32 e d a => some (packT e false 2 13 d a 0, none)
  | .vsb2aS16 e d a => some (packT e false 2 14 d a 0, none)
  | .vsb2aS32 e d a => some (packT e false 2 15 d a 0, none)
  | .vsxorB e d a b => some (packT e false 2 16 d a b, none)
  | .vsandB e d a b => some (packT e false 2 17 d a b, none)
  | .vsopenS16 e d a => some (packT e false 2 18 d a 0, none)
  | .vsopenS32 e d a => some (packT e false 2 19 d a 0, none)
  | .vsredS16 e d a => some (packT e false 2 20 d a 0, none)
  | .vsredS32 e d a => some (packT e false 2 21 d a 0, none)
  | .cbind e d a => some (packT e false 2 32 d a 0, none)
  | .csend e d k b => some (packT e false 2 33 d k b, none)
  | .crecv e d a k => some (packT e false 2 34 d a k, none)
  | .cchoose e d k b => some (packT e false 2 35 d k b, none)
  | .cdeleg e d a => some (packT e false 2 36 d a 0, none)
  | .cstate e d a => some (packT e false 2 37 d a 0, none)
  | .cabort e d => some (packT e false 2 38 d 0 0, none)
  | .tlevel e d a => some (packT e false 2 39 d a 0, none)
  | .tfillSend e d a b q dst => some (packT e false 7 29 d a b, some (0#20 ++ 0#1 ++ 0#1 ++ q ++ 0#6 ++ dst))
  | .tfillAccept e d a b q => some (packT e false 7 29 d a b, some (0#20 ++ 1#1 ++ 0#1 ++ q ++ 0#6 ++ 0#2))
  | .tburn e d a q => some (packT e false 7 31 d a 0, some (0#22 ++ q ++ 0#8))
  | .xopen e d a b ty dsp ssp => some (packT e false 7 30 d a b, some (0#28 ++ BitVec.ofBool ty ++ BitVec.ofBool dsp ++ BitVec.ofBool ssp ++ 0#1))
  | .sadd e d a b => some (packT e false 3 0 d a b, none)
  | .ssub e d a b => some (packT e false 3 1 d a b, none)
  | .smul e d a b => some (packT e false 3 2 d a b, none)
  | .smulhiN e d a b => some (packT e false 3 3 d a b, none)
  | .sand e d a b => some (packT e false 3 4 d a b, none)
  | .sor e d a b => some (packT e false 3 5 d a b, none)
  | .sxor e d a b => some (packT e false 3 6 d a b, none)
  | .sandn e d a b => some (packT e false 3 7 d a b, none)
  | .sshl e d a b => some (packT e false 3 8 d a b, none)
  | .sshrN e d a b => some (packT e false 3 9 d a b, none)
  | .sshrI e d a b => some (packT e false 3 10 d a b, none)
  | .sceq e d a b => some (packT e false 3 11 d a b, none)
  | .scltI e d a b => some (packT e false 3 12 d a b, none)
  | .scltN e d a b => some (packT e false 3 13 d a b, none)
  | .sminI e d a b => some (packT e false 3 14 d a b, none)
  | .smaxI e d a b => some (packT e false 3 15 d a b, none)
  | .smov e d a => some (packT e false 3 16 d a 0, none)
  | .spopc e d a => some (packT e false 3 17 d a 0, none)
  | .sclz e d a => some (packT e false 3 18 d a 0, none)
  | .sctz e d a => some (packT e false 3 19 d a 0, none)
  | .sfirst e d a => some (packT e false 3 20 d a 0, none)
  | .vaddi e u d a i => some (packI e u 4 0 d a i, none)
  | .vmuli e u d a i => some (packI e u 4 1 d a i, none)
  | .vandi e u d a i => some (packI e u 4 2 d a i, none)
  | .vshli e u d a i => some (packI e u 4 3 d a i, none)
  | .vshriN e u d a i => some (packI e u 4 4 d a i, none)
  | .vshriI e u d a i => some (packI e u 4 5 d a i, none)
  | .vceqi e d a i => some (packI e false 4 6 d a i, none)
  | .vcltiI e d a i => some (packI e false 4 7 d a i, none)
  | .saddi e d a i => some (packI e false 4 8 d a i, none)
  | .sandi e d a i => some (packI e false 4 9 d a i, none)
  | .sori e d a i => some (packI e false 4 10 d a i, none)
  | .sshli e d a i => some (packI e false 4 11 d a i, none)
  | .sshriN e d a i => some (packI e false 4 12 d a i, none)
  | .sceqi e d a i => some (packI e false 4 13 d a i, none)
  | .scltiI e d a i => some (packI e false 4 14 d a i, none)
  | .smovi e d i => some (packI e false 4 15 d 0 i, none)
  | .sli e d k => some (packT e false 7 2 d 0 0, some (k))
  | .vli e u d k => some (packT e u 7 3 d 0 0, some (k))
  | .ldg e u d a f => some (packI e u 5 0 d a f, none)
  | .stg e u d a f => some (packI e u 5 1 d a f, none)
  | .ldgW e u d a f => some (packI e u 5 2 d a f, none)
  | .stgW e u d a f => some (packI e u 5 3 d a f, none)
  | .ldgQ e u d a f => some (packI e u 5 4 d a f, none)
  | .stgQ e u d a f => some (packI e u 5 5 d a f, none)
  | .lds e u d a f => some (packI e u 5 6 d a f, none)
  | .sts e u d a f => some (packI e u 5 7 d a f, none)
  | .ldsW e u d a f => some (packI e u 5 8 d a f, none)
  | .stsW e u d a f => some (packI e u 5 9 d a f, none)
  | .ldsQ e u d a f => some (packI e u 5 10 d a f, none)
  | .stsQ e u d a f => some (packI e u 5 11 d a f, none)
  | .sld e d a f => some (packI e false 5 12 d a f, none)
  | .sst e d a f => some (packI e false 5 13 d a f, none)
  | .slds e d a f => some (packI e false 5 14 d a f, none)
  | .ssts e d a f => some (packI e false 5 15 d a f, none)
  | .ldgX e u d a b sign half off => some (packT e u 7 4 d a b, some (0#14 ++ BitVec.ofBool sign ++ BitVec.ofBool half ++ off))
  | .stgX e u d a b half off => some (packT e u 7 5 d a b, some (0#14 ++ 0#1 ++ BitVec.ofBool half ++ off))
  | .ldsX e u d a b sign half off => some (packT e u 7 6 d a b, some (0#14 ++ BitVec.ofBool sign ++ BitVec.ofBool half ++ off))
  | .stsX e u d a b half off => some (packT e u 7 7 d a b, some (0#14 ++ 0#1 ++ BitVec.ofBool half ++ off))
  | .ldd e u d a off => some (packT e u 7 8 d a 0, some (0#16 ++ off))
  | .std e u d a off => some (packT e u 7 9 d a 0, some (0#16 ++ off))
  | .atom e u d a b off sc ord ret w op => some (packT e u 7 10 d a b, some (0#5 ++ off ++ 0#5 ++ sc ++ ord ++ BitVec.ofBool ret ++ BitVec.ofBool w ++ op))
  | .atoms e u d a b off sc ord ret w op => some (packT e u 7 11 d a b, some (0#5 ++ off ++ 0#5 ++ sc ++ ord ++ BitVec.ofBool ret ++ BitVec.ofBool w ++ op))
  | .atomd e u d a b off sc ord ret w op => some (packT e u 7 12 d a b, some (0#5 ++ off ++ 0#5 ++ sc ++ ord ++ BitVec.ofBool ret ++ BitVec.ofBool w ++ op))
  | .fence e q p sc => some (packT e false 7 13 0 0 0, some (0#23 ++ q ++ p ++ sc))
  | .xsend e d a b nf fsp sp size x => some (packT e false 7 14 d a b, some (0#15 ++ 0#4 ++ 0#1 ++ BitVec.ofBool nf ++ BitVec.ofBool fsp ++ BitVec.ofBool sp ++ size ++ x))
  | .xget e d a b sp size => some (packT e false 7 15 d a b, some (0#15 ++ 0#4 ++ 0#1 ++ 0#1 ++ 0#1 ++ BitVec.ofBool sp ++ size ++ 0#7))
  | .xred e d a b op ret sp size x => some (packT e false 7 16 d a b, some (0#15 ++ op ++ BitVec.ofBool ret ++ 0#1 ++ 0#1 ++ BitVec.ofBool sp ++ size ++ x))
  | .xapp e d a b ret size x => some (packT e false 7 17 d a b, some (0#15 ++ 0#4 ++ BitVec.ofBool ret ++ 0#1 ++ 0#1 ++ 0#1 ++ size ++ x))
  | .mmloop e d a b binc ab z reuse mode nk => some (packT e false 7 18 d a b, some (0#5 ++ binc ++ ab ++ BitVec.ofBool z ++ BitVec.ofBool reuse ++ mode ++ 0#4 ++ nk))
  | .cpy e d a b dsp ssp ab => some (packT e false 7 19 d a b, some (0#23 ++ dsp ++ ssp ++ ab))
  | .cunpack e d a b ssp rows gran ty ab => some (packT e false 7 20 d a b, some (0#17 ++ BitVec.ofBool ssp ++ rows ++ gran ++ ty ++ 0#2 ++ ab))
  | .cbinit e a b n => some (packT e false 7 21 0 a b, some (0#27 ++ n))
  | .cbpush e a b ssp n => some (packT e false 7 22 0 a b, some (0#25 ++ ssp ++ n))
  | .cbpop e d n => some (packT e false 7 23 d 0 0, some (0#27 ++ n))
  | .cbfree e n => some (packT e false 7 24 0 0 0, some (0#27 ++ n))
  | .abarInit e a n => some (packT e false 7 25 0 a 0, some (0#25 ++ 0#2 ++ n))
  | .abarArrive e n => some (packT e false 7 25 0 0 0, some (0#25 ++ 1#2 ++ n))
  | .abarWait e a n => some (packT e false 7 25 0 a 0, some (0#25 ++ 2#2 ++ n))
  | .launch e a q => some (packT e false 7 26 0 a 0, some (0#28 ++ q))
  | .evcfg e d set action cls => some (packT e false 7 27 d 0 0, some (0#26 ++ BitVec.ofBool set ++ action ++ cls))
  | .br e t => some (packB e 0 0 t, none)
  | .bz e c t => some (packB e 1 c t, none)
  | .bnz e c t => some (packB e 2 c t, none)
  | .bmz e c t => some (packB e 3 c t, none)
  | .bmnz e c t => some (packB e 4 c t, none)
  | .call e c t => some (packB e 5 c t, none)
  | .jr e c => some (packB e 6 c 0, none)
  | .loop e c t => some (packB e 7 c t, none)
  | .trap e k => some (packB e 8 0 (k.setWidth 16), none)
  | .wbase e n => some (packB e 9 0 (n.setWidth 16), none)
  | .bar e n => some (packB e 10 0 (n.setWidth 16), none)
  | .exit e => some (packB e 11 0 0, none)
  | .yield e => some (packB e 12 0 0, none)
  | .sys e c n => some (packB e 13 c (n.setWidth 16), none)
  | .rtrap e => some (packB e 14 0 0, none)
  | _ => none

end Sys2Proof
end

