-- ==== Sys2Proof/Config.lean ====
section
/-!
DEFINITION. What the manual leaves open, as constants without a body: free values, and the functions of other
standards that the manual names and does not spell out. Nothing can be proved of any one value of them, so a statement
about the model holds whatever they are. Each is named in the assumption log. What it opens is marked DESIGN CHOICE
(log 8, log 10).
-/

namespace Sys2Proof.Config

/-- A free 32-bit value (log 8): `tag` says which open point asks, `tick` is the step counter of the state, `i`
tells apart several values of one step. -/
opaque freeW32 : (tag tick i : Nat) → BitVec 32
/-- A free byte, in the same form: a byte of an overlapping copy (R186). -/
opaque freeByte : (tag tick i : Nat) → BitVec 8
/-- A free choice between two outcomes: whether a walker uses a stale copy of an entry (R292). -/
opaque freeBool : (tag tick i : Nat) → Bool

/-- Which of the two bracketing FP32 values an approximate function returns: a fixed function of the input bits
(R139). `op` is 0 for `vfrcp`, 1 for `vfrsq`, 2 for `vfexp2`, 3 for `vflog2`; true picks the upper value. -/
opaque approxUp : (op : Nat) → BitVec 32 → Bool

/-- SHA-384 of a byte string (R312, FIPS 180-4), named and not spelled out by the manual. -/
opaque sha384 : List (BitVec 8) → BitVec 384
/-- Ed25519 verification of a signature over a message under a public key (R311). -/
opaque ed25519Verify : (key msg sig : List (BitVec 8)) → Bool
/-- ML-DSA-65 verification with the empty context string (R311, FIPS 204). -/
opaque mldsaVerify : (key msg sig : List (BitVec 8)) → Bool
/-- Ed25519 signature, 64 bytes, by the device identity key of certificate slot 0 (R316). -/
opaque ed25519Sign : List (BitVec 8) → BitVec 512
/-- ML-DSA-65 signature, 3,309 bytes, by the identity key of certificate slot 1 (R316). -/
opaque mldsaSign : List (BitVec 8) → BitVec 26472
/-- The certificate chain of a slot, 0 or 1 (R316). -/
opaque certChain : (slot : Nat) → List (BitVec 8)
/-- The AES-256 block function and GHASH under a hash key (R322, FIPS 197, NIST SP 800-38D). -/
opaque aes256 : (key : BitVec 256) → BitVec 128 → BitVec 128
opaque ghash : (h : BitVec 128) → List (BitVec 8) → BitVec 128
/-- The check bits of a line's code over its bytes and its tag (R322). -/
opaque lineCode : List (BitVec 8) → BitVec 32 → BitVec 32
/-- AES-256-GCM decryption: key, IV, additional data, ciphertext and tag; none when the tag does not verify (R319). -/
opaque gcmOpen : (key iv aad ct tag : List (BitVec 8)) → Option (List (BitVec 8))
/-- AES-256-GCM encryption: key, IV, additional data and plaintext, to ciphertext and tag (R319). -/
opaque gcmSeal : (key iv aad pt : List (BitVec 8)) → List (BitVec 8)
/-- The device's random source: the `i`th draw of a kind (R59, R321, R324). -/
opaque randomKey : (kind i : Nat) → BitVec 256
/-- The source epoch that the random source offers at the `n`th cold start of the device (R59). -/
opaque epoch : (coldStart : Nat) → BitVec 16
/-- The boot ROM identity and fuse configuration record measured into MREG0 (R312). -/
opaque bootRecord : (svn : BitVec 32) → (revoked : BitVec 4) → List (BitVec 8)
/-- Loermey's configuration block measured into MREG2 (R312). -/
opaque loermeyConfig : List (BitVec 8)
/-- The firmware given to partition control cores, measured into MREG4 (R312). -/
opaque controlFirmware : List (BitVec 8)
/-- The fused hash of the Ed25519 and of the ML-DSA-65 public key of an index (R311). -/
opaque fusedHash : (mldsa : Bool) → (kidx : Nat) → BitVec 384
/-- The bytes of an accepted management command, which MREG6 and PMREG1 measure (R312): command and arguments. -/
opaque commandRecord : (cmd : Nat) → (args : List Nat) → List (BitVec 8)
/-- Where Loermey loads a partition's system image in its HBM (R288), by the partition's granule count. -/
opaque imageAt : (granules : Nat) → Nat
/-- The bytes of an SPDM 1.2 response (R314): its code and the bytes of its fields. -/
opaque spdmEncode : (code : Nat) → (fields : List (List (BitVec 8))) → List (BitVec 8)
/-- The SPDM 1.2 signing prefix of a response code (R316). -/
opaque spdmPrefix : (code : Nat) → List (BitVec 8)
/-- The fabric device number of the package itself (R160, R213). -/
opaque ownDevice : Nat

end Sys2Proof.Config
end

