-- ==== Sys2Proof/Machine/State.lean ====
section
/-!
DEFINITION. The state of a GM7 package as plain data: memories, groups, teams, partitions, cores, the Sarabande gate,
the fabric engine, start and trust state, the fleet registers, and the queue of moves that says which agent acts next.
The model's own fields, what unlisted memory reads as, and reset values that the manual does not give are marked
DESIGN CHOICE (log 2, log 7, log 8, log 9).
-/

namespace Sys2Proof.Machine

open Sys2Proof

/-! ## Memory -/

/-- A byte memory: (address, byte) pairs, addresses strictly rising, no entry holding 0, which is what an unlisted
address reads as (R302: scrubbed HBM holds zeros; R255, R288: slices are cleared). -/
abbrev Memory := List Host.Cell

/-- What an address that the list does not hold reads as (DESIGN CHOICE, log 9). -/
def unlistedByte : Byte := 0

/-- The canonical form of a memory: addresses strictly rising, and no entry equal to what an unlisted address reads as. -/
def Memory.wf : Memory → Bool
  | [] => true
  | [c] => c.2 != unlistedByte
  | c :: d :: m => c.2 != unlistedByte && c.1 < d.1 && Memory.wf (d :: m)

/-! ## Vector registers and shapes -/

/-- A vector register with its shape tag (R24): one value for all threads, base plus thread times stride, or one value
per thread. -/
inductive VReg where
  | u (v : W32)
  | a (base stride : W32)
  | g (xs : List W32)
deriving DecidableEq, Repr

/-- Group width (R6, R8): 16, 32 or 64 threads. -/
inductive Width where
  | w16 | w32 | w64
deriving DecidableEq, Repr

/-- The number of threads of a width. -/
def Width.n : Width → Nat
  | .w16 => 16
  | .w32 => 32
  | .w64 => 64

/-! ## Traps -/

/-- Trap causes (R26). -/
inductive Cause where
  | illegalInstruction | illegalOperand | maskPartial | alignment | translation | protection | orderingKind
  | sliceBounds | distBounds | scaleLayout | eventThreshold | outOfTurn | convAborted | tripleMismatch
  | tripleStarvation | barrierStall | asyncFailed | userTrap | remoteRefused | fabricTimeout | cbMisuse
  | wbaseRange | coopEvicted
deriving DecidableEq, Repr

/-- The code of a cause (R26, Table 6). -/
def Cause.code : Cause → Nat
  | .illegalInstruction => 0x01 | .illegalOperand => 0x02 | .maskPartial => 0x03 | .alignment => 0x04
  | .translation => 0x05 | .protection => 0x06 | .orderingKind => 0x07 | .sliceBounds => 0x08 | .distBounds => 0x09
  | .scaleLayout => 0x0A | .eventThreshold => 0x0B | .outOfTurn => 0x0C | .convAborted => 0x0D
  | .tripleMismatch => 0x0E | .tripleStarvation => 0x0F | .barrierStall => 0x10 | .asyncFailed => 0x11
  | .userTrap => 0x12 | .remoteRefused => 0x13 | .fabricTimeout => 0x14 | .cbMisuse => 0x15 | .wbaseRange => 0x16
  | .coopEvicted => 0x17

/-- The entry of one failing run index (R23): its cause, faulting address, failing threads and detail, and whether every
failing thread's cause is replayable (R149). -/
structure Failure where
  idx : Nat
  cause : Cause
  taddr : W64
  tmask : W64
  detail : W32
  replay : Bool
deriving DecidableEq, Repr

/-! ## Captured operations

A long-latency, issue-only or engine instruction captures every operand when it issues (R15). -/

/-- The spaces that thread accesses reach (R33). -/
inductive Space where
  | global | slice | dist
deriving DecidableEq, Repr

/-- How a loaded value narrower than its destination is extended (R154). -/
inductive Ext where
  | zero | sign
deriving DecidableEq, Repr

/-- The operation kinds of an atomic (R156, Table 4). -/
inductive AOp where
  | add | and | or | xor | minI | maxI | minN | maxN | swap | cas | fadd | load | store
deriving DecidableEq, Repr

/-- The order field of an atomic (R156). -/
inductive AOrd where
  | relaxed | acquire | release | acqRel
deriving DecidableEq, Repr

/-- Gate share operations (R222): the kind of exchange follows from each. -/
inductive GateOp where
  | smul | sltz | sb2a | sandB | sopen
  /-- `xopen`: destination and source address and length, and whether each side is the slice. -/
  | xopen (dst src len : W64) (dstSlice srcSlice : Bool)
deriving DecidableEq, Repr

/-- Engine operations with their captured operands (R170). -/
inductive EngOp where
  /-- `mmloop` (R178, R179): the A elements by register and thread, C, B, and the fields of word 2. -/
  | mmloop (regs : List (List W32)) (c b : W64) (nk : Nat) (mode : Nat) (binc : Nat) (z : Bool) (ab : Nat)
  /-- `cpy` (R185): destination, source, length, destination and source space codes, barrier. -/
  | cpy (dst src len : W64) (dsp ssp : Nat) (ab : Nat)
  /-- `cunpack` (R188): destination, source, scale address, source in the slice, rows, granularity code, type, barrier. -/
  | cunpack (dst src scale : W64) (srcSlice : Bool) (rows gran ty : Nat) (ab : Nat)
  /-- `cbpush` (R194): the buffer, the source, the length, the source space, and the slot once one is assigned. -/
  | cbpush (buf : Nat) (src len : W64) (ssp : Nat) (slot : Option Nat)
deriving DecidableEq, Repr

/-- A captured deferred operation, with the threads it is to be performed for. -/
inductive DOp where
  /-- A vector load of `size` bytes per thread into `n` registers from allocation register `dst`; `spread` holds the
  threads that receive the one result of a once-marked load (R150). -/
  | load (sp : Space) (size : Nat) (addrs : List (Nat × W64)) (dst n : Nat) (ext : Ext) (spread : Option W64)
  /-- A vector store: thread, address and data, least significant byte first. -/
  | store (sp : Space) (size : Nat) (items : List (Nat × W64 × BitVec 128))
  /-- An atomic (R156): thread, address, operand, and comparand. -/
  | atomic (sp : Space) (wide : Bool) (op : AOp) (ord : AOrd) (scope : Nat) (ret : Bool)
      (items : List (Nat × W64 × W64 × W64)) (dst : Nat) (spread : Option W64)
  /-- `sld`. -/
  | sload (addr : W64) (d : Fld)
  /-- `sst`. -/
  | sstore (addr v : W64)
  /-- `xsend`, `xget`, `xred`, `xapp` (R162): thread, rank, address, data; return registers. -/
  | remote (op : PktOp) (items : List (Nat × W32 × W64 × BitVec 128)) (dst n : Nat) (ret : Bool)
  /-- `launch` (R92). -/
  | launch (addr : W64) (q : Nat)
  /-- `sys` (R87): service number, the captured request and the destination. -/
  | sys (n : Nat) (args : List W64) (d : Fld)
  /-- `cbind` (R209). -/
  | cbind (reg : Nat) (handle : W64)
  /-- `csend` and `cchoose` (R210, R212). -/
  | csend (reg kind : Nat) (payload : W64) (choose : Bool)
  /-- `crecv` (R211). -/
  | crecv (reg kind : Nat) (d : Fld)
  /-- `cdeleg` (R213). -/
  | cdeleg (reg : Nat) (v : W64)
  /-- `cstate` (R214). -/
  | cstate (reg : Nat) (d : Fld)
  /-- `cabort` (R215). -/
  | cabort (reg : Nat)
  /-- `tfill` with dir send (R218). -/
  | tsend (reg : Nat) (q : Nat) (addr len : W64) (dst : Nat)
  /-- `tfill` with dir accept (R218). -/
  | taccept (reg : Nat) (q : Nat) (addr len : W64)
  /-- `tburn` (R220). -/
  | tburn (reg : Nat) (q : Nat) (n : W64)
  /-- A gate share instruction (R222): width k of the type, thread with its two source elements, destination. -/
  | gate (op : GateOp) (k : Nat) (items : List (Nat × W32 × W32)) (dst : Nat)
  /-- `cbpop` (R195), with the slot bound at issue. -/
  | cbpop (buf : Nat) (slot : Nat) (d : Fld)
  /-- An engine operation that waits for a queue entry or a copy slot (R171), with `fpm` and the run's first address at its
  issue. -/
  | engine (op : EngOp) (fpm xpc : W64)
  /-- The arrival of a `bar` whose barrier stalled, replayed (R86). -/
  | bar (id : Nat)
deriving DecidableEq, Repr

/-- What a returned operation commits (R16): vector elements by allocation register and thread, whole registers made
uniform, scalars by field value, role registers, and the failure of the threads that failed. -/
structure Result where
  elems : List (Nat × Nat × W32)
  unis : List (Nat × W32)
  scalars : List (Fld × W64)
  roles : List (Nat × W64)
  fail : Option Failure
deriving DecidableEq, Repr

/-- Nothing to commit. -/
def Result.empty : Result := ⟨[], [], [], [], none⟩

/-- A captured operand (R32): a vector register's element of every thread, or a scalar. -/
inductive Captured where
  | v (xs : List W32)
  | s (x : W64)
deriving DecidableEq, Repr

/-- Where an issued long-latency, issue-only or engine instruction stands (R16). -/
inductive PendSt where
  /-- It has not returned: its return is on the way, or it waits at the gate, the fabric, a queue, a buffer or the control
  core. -/
  | waiting
  /-- It has returned, and its result waits for the commit. -/
  | done (r : Result)
  /-- It has returned, and its result was committed when the group halted for another wait of the run (R261). -/
  | committed (r : Result)
  /-- It was withdrawn when the group halted, and is to be reissued (R261). -/
  | withdrawn
  /-- It has not returned, and the group's generation has been bumped since its issue: its return is dropped (R19). -/
  | stale
deriving DecidableEq, Repr

/-- One issued instruction of a run: its ticket (its run index, plus 32 times the tag of its run), its captured operation,
its words, where it stands, the step of the device at which it issued, and, for a replay or withdrawn entry of a save
area (R32), the threads active then and its captured operands. -/
structure Pend where
  idx : Nat
  op : DOp
  words : W32 × W32
  st : PendSt
  since : Nat
  mask : W64
  caps : List Captured
deriving DecidableEq, Repr

/-! ## Groups -/

/-- How a run ended (R13). -/
inductive RunEnd where
  /-- By an E bit, the 24th instruction, an immediate trap or a fetch fault: the group goes on at its next address. -/
  | fall
  | exit
  | yield
  | bar (id : Nat)
  | rtrap
  | abarWait (n : Nat) (parity : Bool)
  /-- The end of a replay run of `rtrap` or GROUP_RESUME (R29). -/
  | replay
deriving DecidableEq, Repr

/-- What a group is doing. -/
inductive GStat where
  /-- It occupies its lane, in the middle of a run. -/
  | running
  | ready
  /-- Parked at the end of its run, for what the run issued (R16). -/
  | endRun
  /-- Parked on a team barrier (R84). -/
  | atBar (id : Nat)
  /-- Parked on an asynchronous barrier until its phase bit differs from the parity (R175). -/
  | atAbar (n : Nat) (parity : Bool)
deriving DecidableEq, Repr

/-- Why a group is halted (R18, R28). -/
inductive Halt where
  | no
  /-- By a pre-empt command or retain-sleep entry (R260, R327). -/
  | preempt
  /-- By its own trap, until the control core resumes it (R28, R301). -/
  | trap
deriving DecidableEq, Repr

/-- What the trap registers show of one failing run index (R23): its cause code, or what software wrote to `tcause` since,
its faulting address, its failing threads and its detail. -/
structure TrapEntry where
  idx : Nat
  cause : W64
  taddr : W64
  tmask : W64
  detail : W32
deriving DecidableEq, Repr

/-- A trap record (R28): the failing entries, the selected index, the run's first address, the replay set, the resume
address, and the operations that a replay reissues. -/
structure TrapRec where
  entries : List TrapEntry
  sel : Nat
  xpc : W64
  rplq : W64
  resume : W64
  replays : List Pend
deriving DecidableEq, Repr

/-- The record before any trap: every trap register reads its reset value 0 (R22). -/
def TrapRec.zero : TrapRec := ⟨[], 0, 0, 0, 0, []⟩

/-- A fence that a group executed (R54, R159): its scope, its paths, and the step of the device at which it executed. -/
structure FenceOp where
  scope : Nat
  first : Nat
  second : Nat
  since : Nat
deriving DecidableEq, Repr

/-- An outstanding yielded run (R17). -/
structure Yielded where
  pends : List Pend
  fails : List Failure
  xpc : W64
deriving DecidableEq, Repr

/-- A poisoned element (R30): its allocation register, the stored word of it (the thread of a G register, 0 for the base or
the one value, 1 for the stride), and the half of a packed register (R115): 1 the low one, 2 the high one, 0 both. -/
structure Poison where
  reg : Nat
  word : Nat
  half : Nat
deriving DecidableEq, Repr

/-- A latent error (R30): the owner tag of the allocation (its world and group), and the poisoned element. -/
structure Latent where
  world : Nat
  uid : Nat
  core : Nat
  at_ : Poison
deriving DecidableEq, Repr

/-- A group (R6, R20, R22): its place, its registers, its run, and its trap state. -/
structure Group where
  uid : Nat
  part : Nat
  ctx : Nat
  lid : Nat
  team : Nat
  tix : Nat
  gix : Nat
  core : Nat
  lane : Nat
  width : Width
  /-- Registers in the allocation (R10). -/
  alloc : Nat
  vregs : List VReg
  sregs : List W64
  exm : W64
  lvm : W64
  sm : W64
  nteam : Nat
  wb : Nat
  rank : Nat
  nrank : Nat
  fpm : W64
  fpf : W64
  mq : Nat
  /-- `crole0` to `crole3` as the group reads them (R197). -/
  crole : List W64
  /-- The bindings as the gate has them: a `cbind` is seen here before its run commits (R198). -/
  gateRole : List W64
  gen : BitVec 32
  /-- Address of the next instruction of the run, or of the next run. -/
  pc : W64
  /-- Address of the first word of the run (R22). -/
  runPc : W64
  runIdx : Nat
  /-- 0 or 1: tells what the present run issued from what an outstanding yielded run did. -/
  tag : Nat
  /-- Address of the last instruction of the run. -/
  lastPc : W64
  stat : GStat
  runEnd : RunEnd
  halt : Halt
  /-- The conversation of each role register's last `cbind`, as the gate counts it (R306). -/
  bound : List (Option Nat)
  /-- A pre-empt command waits for the group's next run boundary (R18). -/
  preemptReq : Bool
  pends : List Pend
  fails : List Failure
  yielded : Option Yielded
  /-- The group was parked, at the end of its present run, on a circular buffer or a triple queue (R17). -/
  waited : Bool
  armed : Bool
  trap : TrapRec
  /-- Address of the group's trap vector (R28). -/
  trapv : W64
  prio : Nat
  readyTime : Nat
  pass : Nat
  promoted : Bool
  /-- Steps held in the subcore's A latch by this group (R181). -/
  latch : Option (List (List W32))
  /-- Poisoned elements (R30). -/
  poison : List Poison
  /-- Lane cycles spent (R8, R43). -/
  cycles : Nat
  /-- The fences whose earlier set was not complete (R54). -/
  fences : List FenceOp
  /-- The moment at which the group last halted, by the step counter (R263). -/
  haltTime : Nat
  /-- The save slot, while the group is spilled (R263). -/
  spilled : Option Nat
deriving DecidableEq, Repr

/-! ## Teams -/

/-- A team barrier (R84): the arrivals in the current phase, each of a group that is parked there, and the stall time that a
restored team image gave it (R264). -/
structure Bar where
  arrivals : Nat
  stall : Nat
deriving DecidableEq, Repr

/-- An event threshold that an engine operation crossed (R90): the core on which it was counted, class, action in force at
issue, and the issuing instruction's group, run and run index. -/
structure Crossing where
  core : Nat
  cls : Nat
  action : Nat
  gix : Nat
  xpc : W64
  idx : Nat
deriving DecidableEq, Repr

/-- An asynchronous barrier (R174): expected and pending counts, phase bit, failed flag and record, arrivals that wait to
be counted, the crossings of the present or last completed phase, and those that no wait acquired (R90). -/
structure Abar where
  expected : Nat
  pending : Nat
  phase : Bool
  failed : Bool
  detail : W32
  taddr : W64
  /-- The next arrival is the first of its phase, and clears the flag and the record. -/
  fresh : Bool
  arrivals : Nat
  crossed : List Crossing
  missed : List Crossing
deriving DecidableEq, Repr

/-- An asynchronous barrier at team start (R174). -/
def Abar.init : Abar := ⟨0, 0, false, false, 0, 0, true, 0, [], []⟩

/-- A slot of a circular buffer (R191, R194, R195). -/
inductive SlotSt where
  | free | assigned | filled | failed (detail : W32) (taddr : W64) | popped | freeing
deriving DecidableEq, Repr

/-- A circular buffer owned by a team on its core (R191): base, slot size in 64-byte units, slots, the next slot to assign and to
pop, the oldest popped slot that is not freed, the slots that were freed before an older one, once for each time, and the
bound pops (slot, group, ticket). -/
structure CBuf where
  base : Nat
  size : Nat
  slots : List SlotSt
  nextAssign : Nat
  nextPop : Nat
  oldest : Nat
  ahead : List Nat
  bound : List (Nat × Nat × Nat)
deriving DecidableEq, Repr

/-- A team (R9, R34, R109, R174, R191). -/
structure Team where
  uid : Nat
  part : Nat
  ctx : Nat
  lid : Nat
  tix : Nat
  core : Nat
  pair : Bool
  sliceOff : Nat
  /-- Slice bytes per core (R34). -/
  sliceLen : Nat
  ngroups : Nat
  /-- Groups that exited, which count as arrived at every barrier (R81). -/
  exited : Nat
  bars : List Bar
  abars : List Abar
  /-- The modulus table (R109). -/
  mod : List W32
  /-- The buffers 0 to 31 on its core, then those on the second core of a pair. -/
  bufs : List (Option CBuf)
  spilled : Option Nat
  /-- The slot of the second image of a pair, that of its odd core, while it is spilled. -/
  spilledOdd : Option Nat
deriving DecidableEq, Repr

/-! ## Cores and engines -/

/-- How far a matrix loop has come (R183): the row grants it has made, the tiles of the steps that its grants are adding, and
the events of the two classes that its updates have given. -/
structure MmDone where
  grants : Nat
  tiles : List (Nat × List Byte)
  nans : Nat
  infs : Nat
deriving DecidableEq, Repr

/-- A matrix loop that has made no grant. -/
def MmDone.start : MmDone := ⟨0, [], 0, 0⟩

/-- An operation that an engine holds (R171), with the group it is charged to (R90) and the issue that named it. -/
structure EngEntry where
  op : EngOp
  team : Nat
  part : Nat
  ctx : Nat
  lid : Nat
  uid : Nat
  gix : Nat
  idx : Nat
  xpc : W64
  /-- `fpm` at issue: its action fields judge the operation's events (R90). -/
  fpm : W64
  width : Width
  /-- A `cbpush` that has begun to fill its slot (R194), or a copy whose remote side is sent. -/
  started : Bool
  /-- The step of the device at which it issued. -/
  since : Nat
  /-- What a matrix loop has done so far. -/
  mm : MmDone
  /-- The failure that the local side of a copy has met, while some of its units are on their way (R186). -/
  fail : Option (Cause × W64)
  /-- The 16-byte units of a copy that are copied already: the first of a row of units, and their number (R187). -/
  moved : List (Nat × Nat)
  /-- The fences that its group had executed before it, and whose earlier set was not complete then (R54): they order it
  whatever becomes of the group (R172). -/
  fences : List FenceOp
deriving DecidableEq, Repr

/-- The port classes of a bank (R42): the matrix adders, the copy engine, the lanes, the remote port. -/
inductive BankClass where
  | m | c | l | x
deriving DecidableEq, Repr

/-- What requests a bank through the remote port of its core (R42). -/
inductive BankX where
  /-- The next instruction of a group of another core: a distributed access, or one of a paired team's window (R34, R35). -/
  | group (uid : Nat)
  /-- A packet that arrives for the device (R59). -/
  | packet (p : Packet)
  /-- A row of a request that has been performed, and whose cycle of the bank no move has named yet. -/
  | rest
deriving DecidableEq, Repr

/-- What a bank keeps for its arbitration (R42): the round-robin pointer, whether class M was refused in the cycle before, the
lane last granted, and the requests of the remote port that it has refused, in their order of arrival. -/
structure BankArb where
  ptr : BankClass
  refused : Bool
  lane : Nat
  port : List BankX
deriving DecidableEq, Repr

/-- A bank at partition start: the pointer rests on X. DESIGN CHOICE (log 5): the first lane then asked is lane 0. -/
def BankArb.start : BankArb := ⟨.x, false, 63, []⟩

/-- What a core keeps of its own (R22, R42, R43, R89, R171): its number, local cycles, window counts and reported crossings
per event class, the matrix queue, the copy slots, the banks that have been arbitrated, the cycles that each lane's request
waits for a bank, and the rows of requests that have been performed, and whose cycles of a bank no move has named yet: those of
each lane, and those of the remote port. -/
structure Core where
  id : Nat
  cyc : W64
  window : List Nat
  crossed : List Bool
  matrix : List EngEntry
  copies : List (Nat × EngEntry)
  banks : List (Nat × BankArb)
  laneWaits : List (Nat × Nat)
  rest : List (Nat × Nat)
  remote : List Nat
deriving DecidableEq, Repr

/-- A core as a partition's start leaves it. -/
def Core.fresh (id : Nat) : Core := ⟨id, 0, List.replicate 8 0, List.replicate 8 false, [], [], [], [], [], []⟩

/-! ## Launches and partitions -/

/-- A launch record (R252, Table 2). -/
structure Record where
  code : W64
  cres : Bool
  pair : Bool
  coop : Bool
  prio : Nat
  slice : Nat
  regs : Nat
  gpt : Nat
  wc : Nat
  nteam : Nat
  trapv : W64
  pgt : W64
  save : W64
  slot : Nat
  nslot : Nat
  /-- Dependences: counter and value. -/
  deps : List (Option (Nat × Nat))
  signal : Option Nat
  args : List W64
deriving DecidableEq, Repr

/-- One entry of a process-group table (R160). -/
structure RankEntry where
  valid : Bool
  ctx : Nat
  part : Nat
  dev : Nat
deriving DecidableEq, Repr

/-- One report entry before it is laid out (R299, R300): its type, the world it concerns, and words 1 to 7. -/
structure Entry where
  ty : Nat
  world : Nat
  words : List Nat
deriving DecidableEq, Repr

/-- An accepted, incomplete launch (R251). `lid` counts the acceptances of its partition; the launch number is that count
brought into 1 to 65,535. -/
structure Launch where
  lid : Nat
  ctx : Nat
  queue : Nat
  record : Record
  ranks : List RankEntry
  rank : Nat
  /-- Dependences that hold, once held (R254). -/
  held : List Bool
  /-- Teams placed, and teams complete. -/
  placed : Nat
  complete : Nat
  /-- The launch still stands in its queue. -/
  queued : Bool
  preempted : Bool
  /-- Save slots in use. -/
  slots : List Nat
  /-- The cause code of its end, while groups of it are still in a run (R262). -/
  ending : Option Nat
  /-- The list entries of what its end has brought to an end so far (R262, R300). -/
  gone : List Entry
  /-- A removal of cores completed while this cooperative launch was queued: BADWHY 8 is checked anew at the head (R266). -/
  recheck : Bool
deriving DecidableEq, Repr

/-- A launch queue's registers (R250). -/
structure Queue where
  ctx : Nat
  drop : Bool
  bad : Bool
deriving DecidableEq, Repr

/-- A context (R287, R293): its number, and its level-1 table once it has one. -/
structure Ctx where
  id : Nat
  root : Option Nat
deriving DecidableEq, Repr

/-- A grant table entry (R295). -/
structure Grant where
  valid : Bool
  anyCtx : Bool
  dev : Nat
  world : Nat
deriving DecidableEq, Repr

/-- A report entry: its eight words (R299). -/
abbrev Report := List W64

/-- A management command that waits for its condition (R288). -/
inductive WaitCmd where
  | create (clus ccs : BitVec 32) (gran : Nat) (ports : BitVec 32) (image : List Byte)
  | destroy
  | coreAdd (clus : BitVec 32)
  | coreRemove (clus : BitVec 32) (force : Bool)
  | grow (n : Nat)
  | shrink (n : Nat)
  | portSet (ports : BitVec 32)
deriving DecidableEq, Repr

/-- What a service call has left in a0 and a1 of a control core (R287). -/
structure SvcResult where
  part : Nat
  cc : Nat
  status : Int
  value : W64
deriving DecidableEq, Repr

/-- A claim of which a spill failed (R263): the launch, number and core of the team that is to be placed, and the group or team whose
spill it was, with the moment at which it halted. -/
structure FailedClaim where
  lid : Nat
  team : Nat
  core : Nat
  uid : Nat
  halted : Nat
deriving DecidableEq, Repr

/-- The interrupts that the control cores and the host are given. -/
inductive Interrupt where
  /-- A report entry with LAST = 1 was written (R299). -/
  | report (part : Nat)
  /-- A launch record failed its checks (R252). -/
  | badRecord (part q : Nat)
  /-- A spill could not be written (R263): the slot address, and the claim that it was for. -/
  | spillFailed (part : Nat) (addr : W64) (claim : FailedClaim)
  /-- A `sys` request reached the control core (R87), of an instruction that a group issued at a step. -/
  | sysCall (part core uid idx since n : Nat) (args : List W64)
  /-- A command was delivered to the inbox (R319). -/
  | inbox (ch : Nat)
  /-- MSI-X vector 0 of PF0 (R331). -/
  | msix
deriving DecidableEq, Repr

/-- A partition (R250, R286, R288). -/
structure Partition where
  num : Nat
  clus : BitVec 32
  ccs : BitVec 32
  ports : BitVec 32
  /-- First granule, and granules held (R289). -/
  baseGran : Nat
  nGran : Nat
  contexts : List Ctx
  tlbva : W64
  tlbBusy : Bool
  /-- Scope, context and address of the invalidation in effect. -/
  tlbCmd : Nat × Nat × W64
  ringBase : W64
  ringLog : Nat
  ringHead : BitVec 32
  ringTail : BitVec 32
  ringLost : W64
  /-- Entries held in Loermey's reserve, each with its LAST bit (R299). -/
  ringHeld : List (Report × Bool)
  /-- Entries lost since the last LOST entry. -/
  lostSince : Nat
  listNum : Nat
  evwin : BitVec 32
  evlim : List (BitVec 32)
  evdrop : Nat
  stalllim : BitVec 32
  evsum : List W64
  latchbyp : W64
  queues : List Queue
  badaddr : W64
  badwhy : Nat
  resvcore : BitVec 256
  nolid : Bool
  busy : Bool
  evcnt : List W64
  launches : List Launch
  nextLid : Nat
  lastCore : Option Nat
  /-- The queue whose turn comes next, for each priority (R254). -/
  nextQueue : List Nat
  /-- The last command on a launch and the launch it named, while BUSY may be set (R250). -/
  cmd : Option (Nat × Nat)
  grants : List Grant
  /-- Cores being removed (R266). -/
  removing : List Nat
  /-- Management commands on the partition that wait, the first with those behind it, and whether each has been accepted
  and measured (R288, R312). -/
  waiting : List (WaitCmd × Bool)
  pmreg : List (BitVec 384)
  /-- The system image that its control cores run (R288), with which a failed one is restarted (R297). -/
  image : List Byte
deriving DecidableEq, Repr

/-! ## The gate -/

/-- A loaded choreography (R203, R204). -/
structure Choreo where
  num : Nat
  part : Nat
  /-- Its partition is destroyed: it is unloaded once it is unused (R288). -/
  orphan : Bool
  np : Nat
  roles : Nat
  states : Nat
  init : Nat
  choice : BitVec 16
  deleg : List Bool
  /-- The entry half-words, in image order. -/
  entries : List (BitVec 16)
deriving DecidableEq, Repr

/-- A triple with its index (R217). -/
structure Triple where
  idx : Nat
  a : W32
  b : W32
  c : W32
deriving DecidableEq, Repr

/-- A dealt batch in an inbox (R218): its entries, or the bytes of a tile. -/
structure Batch where
  triples : List Triple
  bytes : List Byte
  len : Nat
deriving DecidableEq, Repr

/-- A message in a delivery queue (R205, R210). -/
structure Msg where
  kind : Nat
  payload : W64
deriving DecidableEq, Repr

/-- An instruction that waits at the gate, for room (R210, R218) or behind another one (R198, R232): who issued it, its run
index, and the step of the device at which it arrived. Its role register is resolved when it is processed. -/
structure Delayed where
  uid : Nat
  idx : Nat
  op : DOp
  since : Nat
deriving DecidableEq, Repr

/-- A role of a conversation (R205). -/
structure Role where
  used : Bool
  world : Nat
  ticket : BitVec 32
  queue : List Msg
  /-- Receives that wait, in their order of arrival (R211): group, run index, kind. -/
  recvs : List (Nat × Nat × Nat)
  /-- The words of OPEN exchanges that reached a role that is no party, oldest first (R227, R267). -/
  opened : List Nat
deriving DecidableEq, Repr

/-- A party's triples (R217): queues, index counters, inboxes, capacities, and accepts that wait. -/
structure Party where
  arith : List Triple
  bools : List Triple
  nextA : Nat
  nextB : Nat
  inA : Option Batch
  inB : Option Batch
  inT : Option Batch
  capA : Nat
  capB : Nat
  /-- Waiting `tfill` accepts: group, run index, queue. -/
  accepts : List (Nat × Nat × Nat)
deriving DecidableEq, Repr

/-- One party's part of a joint exchange (R207, R228). -/
structure Part where
  party : Nat
  uid : Nat
  idx : Nat
  op : GateOp
  k : Nat
  items : List (Nat × W32 × W32)
  dst : Nat
  /-- Triples popped: none while it starves. -/
  popped : Option (List Triple)
  /-- Bytes read by `xopen`. -/
  bytes : List Byte
  /-- Words of this part that have crossed the gate. -/
  crossed : Nat
  withdrawn : Bool
  finished : Bool
  /-- The core of the group, to which its return goes. -/
  core : Nat
deriving DecidableEq, Repr

/-- A joint exchange and its record (R207, R228). -/
structure Exchange where
  num : Nat
  kind : Nat
  first : Option Nat
  count : Nat
  ty : Nat
  recips : List Nat
  parts : List Part
  /-- The step at which it opened, which tells its free shares apart (R225). -/
  opened : Nat
deriving DecidableEq, Repr

/-- A conversation entry (R205). -/
structure Conv where
  num : Nat
  aborted : Bool
  /-- Destroyed: its number is not reused while roles stay bound (R306). -/
  destroyed : Bool
  choreo : Nat
  state : Nat
  roles : List Role
  parties : List Party
  exchanges : List Exchange
  nextEx : Nat
  permits : List (Nat × Nat)
deriving DecidableEq, Repr

/-- A conversation whose roles are not all claimed (R305). -/
structure PendConv where
  num : Nat
  desc : List Byte
  claimed : List (Nat × BitVec 32)
  capA : Nat
  capB : Nat
deriving DecidableEq, Repr

/-! ## The fabric engine -/

/-- A remote packet in flight from this device (R59, R60): the group and instruction it serves, and its resends. -/
structure FabReq where
  id : Nat
  uid : Nat
  part : Nat
  lid : Nat
  core : Nat
  gen : BitVec 32
  idx : Nat
  rank : Nat
  pkt : Packet
  resends : Nat
  port : Nat
  /-- The instruction is a bulk copy of an engine: core and slot. -/
  copy : Option (Nat × Nat)
  /-- The step of the device at which its instruction issued. -/
  since : Nat
deriving DecidableEq, Repr

/-- A sequence number that a filter holds (R59, R163): the packet's threads, its answers so far, and its flag. -/
structure Executed where
  seq : BitVec 32
  threads : List Nat
  answers : List PktAnswer
  op : PktOp
  last : Option Nat
  tgtPart : Nat
  tgtCtx : Nat
  flagged : Bool
deriving DecidableEq, Repr

/-- A duplicate filter of one source device and world (R59). -/
structure Filter where
  dev : Nat
  world : Nat
  epoch : BitVec 16
  newest : Option (BitVec 32)
  entries : List Executed
deriving DecidableEq, Repr

/-- Answers on their way back to a request of this device (R59). -/
structure FabReply where
  req : Nat
  answers : List PktAnswer
deriving DecidableEq, Repr

/-- What is kept of a remote instruction, told by its group, the step at which it issued and its run index (R60): the threads
that the source refused, its packets with their sequence numbers, and the answers so far. -/
structure Sent where
  uid : Nat
  since : Nat
  idx : Nat
  refused : List Nat
  pkts : List (Nat × Packet)
  answers : List PktAnswer
deriving DecidableEq, Repr

/-- The fabric engine: coldstarts counted for the epoch, sequence counters per source world and target device, requests
in flight, packets from this device to itself on their way, and the filters. -/
structure Fabric where
  coldStarts : Nat
  seqs : List (Nat × Nat × BitVec 32)
  nextReq : Nat
  reqs : List FabReq
  /-- Request numbers whose packet travels to this device itself. -/
  outbox : List Nat
  replies : List FabReply
  filters : List Filter
  /-- Remote instructions outstanding, or kept for a replay (R60). -/
  sent : List Sent
deriving DecidableEq, Repr

/-! ## What steps leave open -/

/-- A write of a path-T store that is not performed yet (R46, R53): the group, the device address with its tensor slot and
its world, or the address in the slices, the bytes, the step of its issue, and whether it is to a U page, so that only a full
fence orders it (R48, R55). -/
structure LateStore where
  uid : Nat
  core : Nat
  hbm : Option (Nat × Nat × Nat)
  slice : Nat
  bytes : List Byte
  since : Nat
  upage : Bool
deriving DecidableEq, Repr

/-- A disposition list that is not written yet (R297, R298): its world, whether that world is the one being terminated, its
entries, and the remote requests whose acknowledgement or time-out it waits for, each with its entry. -/
structure OpenList where
  world : Nat
  ended : Bool
  entries : List Entry
  waits : List (Nat × Entry)
deriving DecidableEq, Repr

/-- A value that a word of a launch's code held (R65). -/
structure KeptWord where
  part : Nat
  lid : Nat
  dev : Nat
  word : W32
deriving DecidableEq, Repr

/-! ## Retain-sleep -/

/-- The saved state of retain-sleep (R327, step 4), encrypted in HBM under a key: register rows and latches, slices, team state,
engines and banks of cores, partitions with their control cores' guest state, the gate's conversations, triples, choreographies
and waiting instructions, and what the fabric engine and the reports hold beside (log 25). -/
structure SleepImage where
  key : BitVec 256
  groups : List Group
  teams : List Team
  cores : List Core
  slices : Memory
  sliceErrs : List (Nat × Bool)
  parts : List Partition
  choreos : List Choreo
  convs : List Conv
  pendConvs : List PendConv
  waits : List Delayed
  tilePool : Nat
  fabric : Fabric
  svc : List SvcResult
  latent : List Latent
  kept : List KeptWord
  openLists : List OpenList
deriving DecidableEq, Repr

/-! ## Start, trust and fleet -/

/-- A GM7 firmware flash slot: its bytes, low address first (R311). -/
abbrev Flash := List Byte

/-- An SPDM responder state (R315). -/
inductive SpdmSt where
  | none | afterVersion | afterCaps | negotiated
deriving DecidableEq, Repr

/-- How a measurement block gives its value (R317, Table 8): a measurement manifest in digest form, or a raw bit stream. -/
inductive MeasType where
  | manifestDigest | raw
deriving DecidableEq, Repr

/-- A measurement block (R317): its index, the type of its value, and the value. -/
structure MeasBlock where
  idx : Nat
  ty : MeasType
  bytes : List Byte
deriving DecidableEq, Repr

/-- What a responder answers (R314 to R317). -/
inductive SpdmResp where
  | error (code : Nat)
  | version
  | capabilities (flags ctExponent dataTransferSize maxMsgSize : Nat)
  | algorithms (baseAsym baseHash measHash : Nat)
  | digests (slots : List (BitVec 384))
  | certificate (slot : Nat) (portion : List Byte) (remainder : Nat)
  | challengeAuth (nonce : List Byte) (odata : List Byte) (sig : List Byte)
  | measurements (blocks : List MeasBlock) (nonce : List Byte) (odata : List Byte) (sig : List Byte)
deriving DecidableEq, Repr

/-- A DOE mailbox (R314): the negotiated state, the messages that negotiated it, those of digests, certificates and the
challenge since (the rest of M1/M2), those of measurements since (the rest of L1/L2), and the last answer. -/
structure Mailbox where
  st : SpdmSt
  vca : List Byte
  auth : List Byte
  meas : List Byte
  resp : Option SpdmResp
deriving DecidableEq, Repr

/-- A responder in its first state. -/
def Mailbox.reset : Mailbox := ⟨.none, [], [], [], none⟩

/-- A reply on a channel's reply ring (R319): its number, its kind, the expected number it carries, the host address of its
slot, and its bytes there. -/
structure ChanReply where
  num : Nat
  kind : Nat
  carries : W64
  clear : Bool
  slot : W64
  bytes : List Byte
deriving DecidableEq, Repr

/-- A command channel (R319, R320). -/
structure Channel where
  ringBase : W64
  replyBase : W64
  log : Nat
  head : BitVec 32
  tail : BitVec 32
  next : W64
  expired : Bool
  keyed : Bool
  dup : W64
  badtag : W64
  gap : W64
  key : List Byte
  salt : List Byte
  inboxBase : W64
  inboxLog : Nat
  inbox : List (List Byte)
  replies : List ChanReply
deriving DecidableEq, Repr

/-- A channel before any key or ring: `CH_NEXT` is 1, everything else 0 (R319). -/
def Channel.reset : Channel :=
  ⟨0, 0, 0, 0, 0, 1, false, false, 0, 0, 0, [], [], 0, 0, [], []⟩

/-- An open tensor slot (R321): number, owner, tensor ID, version and keys. -/
structure Tensor where
  slot : Nat
  part : Nat
  id : BitVec 32
  version : BitVec 32
  dataKey : BitVec 256
  tagKey : BitVec 256
deriving DecidableEq, Repr

/-- The state of a 1 GiB granule (R302). -/
inductive Gran where
  | held (part : Nat)
  | queued | scrubbing | clean | retired
deriving DecidableEq, Repr

/-- A copy of a page-table entry in a TLB or in a walker (R292): the partition and context whose walk read it, the level of
its table, the bits of the virtual address down to that level's index, the device address of the entry, and its value. -/
structure TlbEntry where
  part : Nat
  ctx : Nat
  level : Nat
  vpage : Nat
  at_ : Nat
  entry : W64
deriving DecidableEq, Repr

/-- What is kept of a 64-byte HBM line beside its bytes (R297, R321 to R323): poison, whether a memory-side cache holds
it and has it modified, the tensor slot and the world it is cached under, the tensor ID and version under which HBM holds it;
for a line of a slot other than 0, the pad over its bytes and its sideband bits as HBM holds them; and the bits of it that are
flipped in storage: its 512 bits, and above them its 64 sideband bits. -/
structure Line where
  addr : Nat
  poisoned : Bool
  cached : Bool
  dirty : Bool
  slot : Nat
  tid : BitVec 32
  ver : BitVec 32
  pad : BitVec 512
  side : W64
  world : Nat
  flip : BitVec 576
deriving DecidableEq, Repr

/-- A fabric port (R330, R337). -/
structure Port where
  up : Bool
  lanes : Nat
  owner : Nat
  flaps : Nat
  feccor : BitVec 32
  resends : BitVec 32
  timeouts : BitVec 32
deriving DecidableEq, Repr

/-- A port at reset (R330): down, held by nobody. -/
def Port.reset : Port := ⟨false, 0, 31, 0, 0, 0, 0⟩

/-- An error record as the host reads it (R333, R334): severity, report number, and the containment section. -/
structure Cper where
  severity : Nat
  report : Nat
  kind : Nat
  cause : Nat
  cls : Nat
  flags : Nat
  partMask : BitVec 32
  unit : Nat
  addr : Nat
  worlds : List Nat
deriving DecidableEq, Repr

/-- Training of an HBM stack, or self-test of a cluster (R308). -/
inductive Train where
  | waiting | passed | failed
deriving DecidableEq, Repr

/-- Retain-sleep (R327, R328): awake, entry under way, asleep, or on the wake path and not yet at stage 2. -/
inductive SleepSt where
  | awake | entering | asleep | waking
deriving DecidableEq, Repr

/-- What the channel or the management service replied to the last management command (R288, R340). -/
inductive Reply where
  | none | done | waits | refused
  /-- The FAIL code of a firmware check. -/
  | failed (code : Nat)
deriving DecidableEq, Repr

/-- A partition service call (R287): who calls, the function number, and the arguments. -/
structure Call where
  part : Nat
  cc : Nat
  fn : Nat
  a0 : W64
  a1 : W64
  a2 : W64
deriving DecidableEq, Repr

/-- The package beyond its partitions: start and trust, fleet registers, granules (R302, R307 to R340). -/
structure Package where
  /-- Power is applied and PERST# is released. -/
  powered : Bool
  /-- The always-on domain holds the retention SRAM. -/
  retained : Bool
  stage : Nat
  fail : Nat
  woke : Bool
  degr : Bool
  cold : Bool
  sleepSt : SleepSt
  /-- Launches that the entry pre-empted, by partition and number (R328). -/
  sleepHeld : List (Nat × Nat)
  /-- Service calls made during the entry, which return after the wake (R327). -/
  heldCalls : List Call
  /-- The key under which the saved state stands in Loermey's HBM during retain-sleep, in the retention SRAM (R327). -/
  sleepKey : BitVec 256
  /-- The state saved in HBM, while the package sleeps. -/
  sleepImage : Option SleepImage
  sleepcnt : W64
  wakeMode : W64
  trained : List Train
  clusters : List Train
  /-- Clusters in service at stage 1 and 2 (R307). -/
  clavail : BitVec 32
  grans : List Gran
  scrubQueue : List Nat
  retireAfter : Bool
  errBase : W64
  errLog : Nat
  errHead : BitVec 32
  errTail : BitVec 32
  errLost : W64
  errLostSince : Nat
  /-- Records written to the error ring, each with its slot's address (R331). -/
  errRing : List (W64 × Cper)
  errHeld : List Cper
  reportNum : Nat
  pwrCap : Nat
  pwrPeak : Nat
  pwrAvg : Nat
  throt : BitVec 3
  clkStep : Nat
  tj : Nat
  inlet : Nat
  flow : Nat
  /-- A thermal trip waits for room in the error ring, at most 1 ms (R339). -/
  tripping : Bool
  /-- Demands of the power, thermal and coolant sources, and the milliseconds each has waited (R338). -/
  demPower : Nat
  demThermal : Nat
  demCool : Nat
  lowPowerMs : Nat
  coolTjMs : Nat
  hotMs : Nat
  scrubBw : Nat
  scrubDone : W64
  cecnt : List (BitVec 32)
  celim : List (BitVec 16)
  ceSeen : List Bool
  cewin : Nat
  ports : List Port
  retryInt : Nat
  fuseSvn : BitVec 32
  revoked : BitVec 4
  flashA : Flash
  flashB : Flash
  bChecked : Bool
  mreg : List (BitVec 384)
  /-- Header bytes measured at the last boot, for the wake check (R328). -/
  bootHeader : List Byte
  mailboxes : List Mailbox
  channels : List Channel
  vfEnabled : List Bool
  tensors : List Tensor
  tensorCount : Nat
  /-- The tag key of tensor slot 0, generated at each cold start (R321). -/
  tagKey0 : BitVec 256
  keyDraws : Nat
  /-- Loaded choreographies, conversations and pending sets of the gate (R203, R205, R305). -/
  choreos : List Choreo
  convs : List Conv
  pendConvs : List PendConv
  /-- Instructions that wait at the gate, in their order of arrival (R198, R210, R232). -/
  waits : List Delayed
  tilePool : Nat
  /-- Dies between which no route remains, and units out of service (R297). -/
  unitsOut : List (Nat × Nat)
  /-- A PART_CREATE that waits for clean granules (R288). -/
  waitCreate : List WaitCmd
  reply : Reply
deriving DecidableEq, Repr

/-! ## The whole machine -/

/-- A return on its way to a group allocation (R19): the group, the generation it carries, the run index, the result. -/
structure Ret where
  uid : Nat
  gen : BitVec 32
  idx : Nat
  part : Nat
  core : Nat
  res : Result
deriving DecidableEq, Repr

/-- What the next step is to do. -/
inductive Move where
  /-- A step of the opcode table. -/
  | event (i : Instr)
  /-- The next instruction of a group. -/
  | group (uid : Nat)
  /-- The next instruction of a group, a store whose writes are performed later (R46, R53). -/
  | late (uid : Nat)
  /-- The writes of a group that are to be performed later are performed. -/
  | perform (uid : Nat)
  /-- One of them is, the `n`th, if none before it reaches the same bytes (R46). -/
  | performOne (uid n : Nat)
  /-- The matrix engine of a core makes row grants for the loop at the head of its queue (R183). -/
  | grants (core n : Nat)
  /-- Masked words of a gate exchange cross (R222). -/
  | words (conv ex party n : Nat)
  /-- A TLB or a walker keeps copies of the entries that a walk reads (R292). -/
  | keepCopy (part ctx : Nat) (va : W64)
  /-- A word of a launch's code is kept as a later fetch may return it (R65). -/
  | keepWord (part lid : Nat) (dev : Nat)
  /-- A control core makes a service call with any function number (R287). -/
  | call (c : Call)
  /-- Forward error correction corrects codewords on a fabric port (R330). -/
  | fecCorrected (port n : Nat)
  /-- A memory-side cache is filled with a line, through a tensor slot, for a world (R323). -/
  | fillLine (line slot world : Nat)
  /-- Bits of a line flip in storage (R322). -/
  | flipLine (line : Nat) (bits : BitVec 576)
  /-- The check of a slice line has an error that it cannot correct, and that nothing has read yet, its tag readable or not
  (R296, R344). -/
  | spoilSlice (line : Nat) (readable : Bool)
  /-- A bank of a core arbitrates for one cycle among the classes that request it, the requests of the remote port in their order of
  arrival and the lanes each with its row (R42): what it grants of these is performed. -/
  | bankCycle (core bank : Nat) (m c : Bool) (port : List BankX) (lanes : List (Nat × Nat))
  /-- `n` units of a copy, from unit `off` on, are copied before it completes (R187). -/
  | piece (core slot off n : Nat)
  /-- The containment of an error that a walker of the gate met, with the instruction that it names (R344). -/
  | badLine (line : Nat) (named : Option (Nat × Nat))
deriving DecidableEq, Repr

/-- The whole machine. -/
structure State where
  hbm : Memory
  slices : Memory
  lines : List Line
  tlb : List TlbEntry
  groups : List Group
  teams : List Team
  cores : List Core
  parts : List Partition
  pkg : Package
  fabric : Fabric
  returns : List Ret
  interrupts : List Interrupt
  svc : List SvcResult
  /-- The log of latent errors, oldest first (R30). -/
  latent : List Latent
  /-- Writes of stores that are not performed yet, oldest first (R46, R53). -/
  late : List LateStore
  /-- Slice lines whose check has an error that nothing has read yet, each with whether its tag is readable (R296, R344). -/
  sliceErrs : List (Nat × Bool)
  /-- Values that words of running launches' code held (R65). -/
  kept : List KeptWord
  /-- Disposition lists of worlds that are being terminated, not yet written (R298). -/
  openLists : List OpenList
  /-- The group whose instruction is being executed. -/
  cur : Option Nat
  /-- Moves of agents that are to come first, in order (the model's own field, log 2). -/
  moves : List Move
  /-- Steps taken (the model's own field, log 8). -/
  tick : Nat
  /-- Next number for a group or a team (the model's own field). -/
  nextUid : Nat
deriving DecidableEq, Repr

/-- Why a step stops with a fault. -/
inductive Fault where
  /-- Raised by the meaning of an instruction when no group issues one. `step` never raises it: it runs an instruction
  only for a group in the middle of a run. Safe: the manual gives an instruction no effect outside a run (R13). -/
  | noIssuingGroup
deriving DecidableEq, Repr

/-- Why a step is refused. -/
inductive Refusal where
  /-- Raised by `exec` for an instruction that has no meaning yet. Safe: nothing can be proved of it. -/
  | notModelled (mnemonic : String)
deriving DecidableEq, Repr

/-- The package before the first deassertion of PERST# (R307, R308, R329): no stage, no partition, every register at the
reset value its table gives. -/
def Package.reset : Package where
  powered := false
  retained := false
  stage := 0
  fail := 0
  woke := false
  degr := false
  cold := false
  sleepSt := .awake
  sleepHeld := []
  heldCalls := []
  sleepKey := 0
  sleepImage := none
  sleepcnt := 0
  wakeMode := 0
  trained := List.replicate 8 .waiting
  clusters := List.replicate 32 .waiting
  clavail := 0
  grans := List.replicate 512 .queued
  scrubQueue := []
  retireAfter := false
  errBase := 0
  errLog := 0
  errHead := 0
  errTail := 0
  errLost := 0
  errLostSince := 0
  errRing := []
  errHeld := []
  reportNum := 1
  pwrCap := 1800
  pwrPeak := 0
  pwrAvg := 0
  throt := 0
  clkStep := 0
  tj := 0
  inlet := 0
  flow := 0
  tripping := false
  demPower := 0
  demThermal := 0
  demCool := 0
  lowPowerMs := 0
  coolTjMs := 0
  hotMs := 0
  scrubBw := 64
  scrubDone := 0
  cecnt := List.replicate 16 0
  celim := List.replicate 16 0
  ceSeen := List.replicate 16 false
  cewin := 1000
  ports := List.replicate 32 Port.reset
  retryInt := 20000
  fuseSvn := 0
  revoked := 0
  flashA := []
  flashB := []
  bChecked := false
  mreg := List.replicate 12 0
  bootHeader := []
  mailboxes := List.replicate 25 Mailbox.reset
  channels := List.replicate 25 Channel.reset
  vfEnabled := List.replicate 25 false
  tensors := []
  tensorCount := 0
  tagKey0 := 0
  keyDraws := 0
  choreos := []
  convs := []
  pendConvs := []
  waits := []
  tilePool := 0
  unitsOut := []
  waitCreate := []
  reply := .none

/-- The fabric engine before any packet. -/
def Fabric.reset : Fabric := ⟨0, [], 0, [], [], [], [], []⟩

/-- The machine right after reset: PERST# asserted, nothing started, memory with nothing listed (log 7). -/
def State.reset : State where
  hbm := []
  slices := []
  lines := []
  tlb := []
  groups := []
  teams := []
  cores := []
  parts := []
  pkg := Package.reset
  fabric := Fabric.reset
  returns := []
  interrupts := []
  svc := []
  latent := []
  late := []
  sliceErrs := []
  kept := []
  openLists := []
  cur := none
  moves := []
  tick := 0
  nextUid := 0

end Sys2Proof.Machine
end

