-- ==== Sys2Proof/Machine/Mem.lean ====
section
/-!
DEFINITION. Memory: bytes and wider words (R2), translation (R290 to R292), the spaces of a thread access (R33 to R38,
R48, R149), and what is kept of an HBM line beside its bytes (R297, R321 to R323). DESIGN CHOICE: use of a stale TLB
copy (log 34).
-/

namespace Sys2Proof.Machine

open Sys2Proof

/-! ## Bytes -/

/-- One byte of a memory. -/
def Memory.read : Memory → Nat → Byte
  | [], _ => unlistedByte
  | c :: m, a => if c.1 = a then c.2 else Memory.read m a

/-- A memory with one byte written. -/
def Memory.write : Memory → Nat → Byte → Memory
  | [], a, b => if b = unlistedByte then [] else [(a, b)]
  | c :: m, a, b =>
    if a < c.1 then (if b = unlistedByte then c :: m else (a, b) :: c :: m)
    else if c.1 = a then (if b = unlistedByte then m else (a, b) :: m)
    else c :: Memory.write m a b

/-- `n` bytes from address `a`, in ascending order of address. -/
def Memory.readN (m : Memory) (a : Nat) : Nat → List Byte
  | 0 => []
  | n + 1 => m.read a :: Memory.readN m (a + 1) n

/-- A memory with consecutive bytes written from address `a`. -/
def Memory.writeN (m : Memory) (a : Nat) : List Byte → Memory
  | [] => m
  | b :: bs => Memory.writeN (m.write a b) (a + 1) bs

/-- The value of bytes that stand least significant first (R2). -/
def leNat : List Byte → Nat
  | [] => 0
  | b :: bs => b.toNat + 256 * leNat bs

/-- The `n` low bytes of a value, least significant first (R2). -/
def leBytes : (n : Nat) → Nat → List Byte
  | 0, _ => []
  | n + 1, x => BitVec.ofNat 8 x :: leBytes n (x / 256)

/-- Addresses from `a` on whose bytes become 0: what is cleared on release (R81, R255). -/
def Memory.clear (m : Memory) (a n : Nat) : Memory := m.filter fun c => c.1 < a || a + n ≤ c.1

/-! ## Finding and replacing -/

/-- The group of a number. -/
def State.group? (s : State) (uid : Nat) : Option Group := s.groups.find? fun g => g.uid == uid
/-- The state with the group of the same number replaced. -/
def State.setGroup (s : State) (g : Group) : State :=
  { s with groups := s.groups.map fun h => if h.uid == g.uid then g else h }
/-- The state without a group. -/
def State.dropGroup (s : State) (uid : Nat) : State :=
  { s with groups := s.groups.filter fun h => h.uid != uid }
/-- The team of a number. -/
def State.team? (s : State) (uid : Nat) : Option Team := s.teams.find? fun t => t.uid == uid
/-- The state with the team of the same number replaced. -/
def State.setTeam (s : State) (t : Team) : State :=
  { s with teams := s.teams.map fun h => if h.uid == t.uid then t else h }
/-- The core of a number, as a partition's start leaves it when nothing has happened on it yet. -/
def State.core (s : State) (id : Nat) : Core := (s.cores.find? fun c => c.id == id).getD (Core.fresh id)
/-- The state with a core's own state replaced. -/
def State.setCore (s : State) (c : Core) : State :=
  { s with cores := if s.cores.any fun d => d.id == c.id then s.cores.map fun d => if d.id == c.id then c else d
                    else s.cores ++ [c] }
/-- The partition of a number. -/
def State.part? (s : State) (n : Nat) : Option Partition := s.parts.find? fun p => p.num == n
/-- The state with the partition of the same number replaced. -/
def State.setPart (s : State) (p : Partition) : State :=
  { s with parts := s.parts.map fun q => if q.num == p.num then p else q }
/-- A partition changed, if it exists. -/
def State.updPart (s : State) (n : Nat) (f : Partition → Partition) : State :=
  match s.part? n with
  | some p => s.setPart (f p)
  | none => s
/-- The launch of a number. -/
def Partition.launch? (p : Partition) (lid : Nat) : Option Launch := p.launches.find? fun l => l.lid == lid
/-- The partition with the launch of the same number replaced. -/
def Partition.setLaunch (p : Partition) (l : Launch) : Partition :=
  { p with launches := p.launches.map fun k => if k.lid == l.lid then l else k }

/-- Launch queues and placement stand still: retain-sleep entry is under way, or its wake (R327). -/
def State.launchesStop (s : State) : Bool := s.pkg.sleepSt != .awake

/-- Every group is halted. -/
def State.allHalted (s : State) : Bool := s.groups.all fun g => g.halt != .no

/-- Requests of other devices are refused (R327, step 3). -/
def State.foreignStop (s : State) : Bool := s.launchesStop && s.allHalted

/-- A world ID (R293). -/
def worldId (part ctx : Nat) : Nat := part * 128 + ctx

/-- 1 GiB, the size of a granule. -/
def gib : Nat := 0x40000000
/-- The device address of a partition's byte 0 (R289). -/
def Partition.base (p : Partition) : Nat := gib * p.baseGran
/-- Bytes of HBM held (R289). -/
def Partition.bound (p : Partition) : Nat := gib * p.nGran

/-- The core belongs to the partition: its cluster does (R286). -/
def Partition.holdsCore (p : Partition) (core : Nat) : Bool := core < 256 && bitAt p.clus.toNat (core / 8)

/-- The cores of a partition in ascending order. -/
def Partition.coreList (p : Partition) : List Nat := (List.range 256).filter p.holdsCore

/-! ## Lines -/

/-- The address of the 64-byte line that holds a byte. -/
def lineOf (a : Nat) : Nat := a / 64 * 64

/-- What is kept of a line of which nothing special is known: clean, plaintext (R302). -/
def Line.plain (a : Nat) : Line := ⟨a, false, false, false, 0, 0, 0, 0, 0, 0, 0⟩

/-- What is kept of a line. -/
def State.line (s : State) (a : Nat) : Line := (s.lines.find? fun l => l.addr == a).getD (Line.plain a)

/-- The state with what is kept of a line replaced; nothing is kept of a plain line. -/
def State.setLine (s : State) (l : Line) : State :=
  let rest := s.lines.filter fun k => k.addr != l.addr
  { s with lines := if l = Line.plain l.addr then rest else l :: rest }

/-- The tensor ID and version of a slot as its entry stands (R321): slot 0 has ID 0 and version 0; a slot that is not
open has a pair that no entry ever has. -/
def State.slotTag (s : State) (slot : Nat) : BitVec 32 × BitVec 32 :=
  if slot = 0 then (0, 0)
  else match s.pkg.tensors.find? fun t => t.slot == slot with
    | some t => (t.id, t.version)
    | none => (0, 0xFFFFFFFF)

/-- The 16-bit symbols of a stored line, sideband bits included, that hold a flipped bit (R322). -/
def wrongSymbols (x : BitVec 576) : Nat :=
  ((List.range 36).filter fun i => x.extractLsb' (16 * i) 16 != 0).length

/-- HBM gives a line's bytes through a slot (R322). Under the entry that it was written under the pads cancel, and the stored
P ‖ T ‖ C is off by its flipped bits alone: the code corrects those of one symbol, so that P and the tag over it are as they
were written, and more are an error (DESIGN CHOICE, log 34: those that the code would take for one symbol fail the tag). Under
another entry the line fails its tag. -/
def State.lineOpens (s : State) (l : Line) (slot : Nat) : Bool :=
  (l.tid, l.ver) == s.slotTag slot && decide (wrongSymbols l.flip ≤ 1)

/-- Whether a read of a line through a leaf of `slot` gives its bytes (R297, R322, R323): the line is not poisoned, and
a memory-side cache holds it, or HBM gives it. A clean copy may have left the cache: that is a free choice. -/
def State.lineReads (s : State) (a slot : Nat) : Bool :=
  let l := s.line a
  !l.poisoned && (l.dirty || s.lineOpens l slot || (l.cached && Config.freeBool 2 s.tick a))

/-- The tag of a line that no world wrote or filled, but a control core or Loermey (DESIGN CHOICE, log 34). -/
def noWorld : Nat := 4096

/-- A line after a write through a leaf of `slot` for a world (R297, R323): modified in the cache, and free of poison when the
write covers the whole of it. -/
def State.lineWritten (s : State) (a slot world : Nat) (whole : Bool) : State :=
  let l := s.line a
  s.setLine { l with poisoned := l.poisoned && !whole, cached := true, dirty := true, slot := slot, world := world }

/-- The block CB of R322 for a line at `a` of its partition, with the low bits of the address replaced. -/
def lineBlock (id ver : BitVec 32) (a low : Nat) : BitVec 128 :=
  BitVec.ofNat 128 (id.toNat * 2 ^ 96 + ver.toNat * 2 ^ 64 + (lineOf a + low))

/-- The line tag T of R322 over the bytes of a line. -/
def lineTag (tagKey : BitVec 256) (id ver : BitVec 32) (a : Nat) (bs : List Byte) : BitVec 32 :=
  (Config.ghash (Config.aes256 tagKey 0) bs ^^^ Config.aes256 tagKey (lineBlock id ver a 8)).setWidth 32

/-- The pad of R322 over the bytes of a line. -/
def linePad (dataKey : BitVec 256) (id ver : BitVec 32) (a : Nat) : BitVec 512 :=
  Config.aes256 dataKey (lineBlock id ver a 0) ++ Config.aes256 dataKey (lineBlock id ver a 16)
    ++ Config.aes256 dataKey (lineBlock id ver a 32) ++ Config.aes256 dataKey (lineBlock id ver a 48)

/-- The sideband bits of R322 before the pad: the tag, then the check bits. -/
def lineSide (tagKey : BitVec 256) (id ver : BitVec 32) (a : Nat) (bs : List Byte) : W64 :=
  let t := lineTag tagKey id ver a bs
  t ++ Config.lineCode bs t

/-- A line as a write-back leaves it (R322, R323): clean, under the entry of its slot as it stands, and stored anew. A line of
slot 0 has no pad, and its sideband bits follow from its bytes. -/
def State.lineStored (s : State) (l : Line) : Line :=
  let l := { l with dirty := false, tid := (s.slotTag l.slot).1, ver := (s.slotTag l.slot).2, flip := 0 }
  match if l.slot = 0 then none else s.pkg.tensors.find? fun t => t.slot == l.slot with
  | none => { l with pad := 0, side := 0 }
  | some t =>
    let a := l.addr - (match s.part? t.part with | some p => p.base | none => 0)
    { l with
      pad := linePad t.dataKey t.id t.version a
      side := lineSide t.tagKey t.id t.version a (s.hbm.readN l.addr 64)
        ^^^ (Config.aes256 t.dataKey (lineBlock t.id t.version a 4)).setWidth 64 }

/-- The partition that holds a device address. -/
def State.ownerOf (s : State) (dev : Nat) : Option Partition :=
  s.parts.find? fun p => p.base ≤ dev && dev < p.base + p.bound

/-- The 64 sideband bits that HBM holds with a line (R322). -/
def State.sideband (s : State) (a : Nat) : W64 :=
  let l := s.line a
  if l.tid = 0 then
    lineSide s.pkg.tagKey0 0 0 (a - (match s.ownerOf a with | some p => p.base | none => 0)) (s.hbm.readN a 64)
  else l.side

/-- A memory-side cache filled with a line through a slot, for a world (R323): what it reads as plaintext it may keep. -/
def State.fillLine (s : State) (a slot world : Nat) : State :=
  let a := lineOf a
  let l := s.line a
  if !s.lineReads a slot || l.cached then s else s.setLine { l with cached := true, slot := slot, world := world }

/-- Bits of a line flip as HBM holds it (R322). -/
def State.flipLine (s : State) (a : Nat) (bits : BitVec 576) : State :=
  let l := s.line (lineOf a)
  s.setLine { l with flip := l.flip ^^^ bits }

/-- A line written back if it is modified, and dropped from the memory-side caches (R323, R327). -/
def State.lineCast (s : State) (l : Line) : Line :=
  { if l.dirty then s.lineStored l else l with cached := false, slot := 0, world := 0 }

/-- The cached lines of some kind written back and dropped. -/
def State.castLines (s : State) (p : Line → Bool) : State :=
  { s with lines := (s.lines.map fun l => if l.cached && p l then s.lineCast l else l).filter fun l => l != Line.plain l.addr }

/-- The lines that are tagged with some worlds cleared from the memory-side caches (R297, step 6; R323). DESIGN CHOICE (log 34):
a modified one is written back first, since HBM is not cleared (R294). -/
def State.castWorlds (s : State) (ws : List Nat) : State := s.castLines fun l => ws.contains l.world

/-! ## Translation -/

/-- What an access needs of a page (R36, R63, R156). -/
inductive Perm where
  | read | write | both | fetch
deriving DecidableEq, Repr

/-- The permission bits 3:1 that an access needs in a leaf (R290, Table 5). -/
def Perm.need : Perm → Nat
  | .read => 2 | .write => 4 | .both => 6 | .fetch => 8

/-- How a walk ends: at a leaf, in a fault at a level (R291), or at a poisoned line of a table. -/
inductive Walk where
  | leaf (entry : W64) (big : Bool)
  | fault (level : Nat)
  | poison (line : Nat)
deriving DecidableEq, Repr

/-- Bits 49:8 of an entry as an address (R290, Table 5). -/
def pteAddr (e : Nat) : Nat := bits e 49 8 * 256

/-- The levels of a walk: level, high and low bit of the index (R290). -/
def walkLevels : List (Nat × Nat × Nat) := [(1, 47, 39), (2, 38, 30), (3, 29, 21), (4, 20, 16)]

/-- The copy of an entry that a TLB or a walker of a partition keeps for a context, a level and the bits of the virtual address
that lead to it (R292). -/
def State.tlbHit (s : State) (part ctx level vpage dev : Nat) : Option TlbEntry :=
  s.tlb.find? fun t => t.part == part && t.ctx == ctx && t.level == level && t.vpage == vpage && t.at_ == dev

/-- The value of an entry that a walk uses (R292): what memory holds, or a copy that is kept of it, freely. -/
def State.entryAt (s : State) (part ctx level vpage dev : Nat) : Nat :=
  match s.tlbHit part ctx level vpage dev with
  | some t => if Config.freeBool 1 s.tick dev then t.entry.toNat else leNat (s.hbm.readN dev 8)
  | none => leNat (s.hbm.readN dev 8)

/-- One walk from a table of a context of a partition (R290, R291). -/
def State.walkFrom (s : State) (p : Partition) (ctx va : Nat) : List (Nat × Nat × Nat) → Nat → Walk
  | [], _ => .fault 4
  | (lev, hi, lo) :: rest, table =>
    if p.bound ≤ table then .fault lev
    else
      let a := p.base + table + 8 * bits va hi lo
      if !(s.lineReads (lineOf a) 0) then .poison (lineOf a)
      else
        let e := s.entryAt p.num ctx lev (bits va 47 lo) a
        let leaf := bitAt e 6
        let addr := pteAddr e
        if !bitAt e 0 || bitAt e 7 then .fault lev
        else if leaf && lev < 3 || !leaf && lev == 4 then .fault lev
        else if leaf then
          let size := if lev = 3 then 0x200000 else 0x10000
          if addr % size ≠ 0 || bits e 5 4 == 3 || p.bound ≤ addr then .fault lev
          else .leaf (BitVec.ofNat 64 e) (lev == 3)
        else if bits e 63 50 ≠ 0 || bits e 5 1 ≠ 0 then .fault lev
        else if lev < 3 && addr % 4096 ≠ 0 then .fault lev
        else State.walkFrom s p ctx va rest addr

/-- The entries that a walk reads from a table, each as a copy of it stands in a TLB or a walker (R292). -/
def State.walkCopies (s : State) (p : Partition) (ctx va : Nat) : List (Nat × Nat × Nat) → Nat → List TlbEntry
  | [], _ => []
  | (lev, hi, lo) :: rest, table =>
    let a := p.base + table + 8 * bits va hi lo
    if p.bound ≤ table || !(s.lineReads (lineOf a) 0) then []
    else
      let e := s.entryAt p.num ctx lev (bits va 47 lo) a
      ⟨p.num, ctx, lev, bits va 47 lo, a, BitVec.ofNat 64 e⟩ ::
        (if bitAt e 0 && !bitAt e 6 then State.walkCopies s p ctx va rest (pteAddr e) else [])

/-- How a translation ends: at a device address with its leaf; in a failure with its cause and detail bits; or with a
line whose error is consumed (R344). -/
inductive Xlat where
  | ok (dev : Nat) (entry : W64)
  | fail (c : Cause) (detail : Nat)
  | poison (line : Nat)
deriving DecidableEq, Repr

/-- The leaf used for an address of a context (R290, R292). -/
def State.leafFor (s : State) (p : Partition) (c : Ctx) (va : Nat) : Walk :=
  match c.root with
  | none => .fault 1
  | some r => s.walkFrom p c.id va walkLevels r

/-- The tensor slot of a leaf (R290, Table 5). -/
def slotOf (e : W64) : Nat := bits e.toNat 63 50
/-- The ordering kind of a leaf: 0 R, 1 S, 2 U (R45). -/
def kindOf (e : W64) : Nat := bits e.toNat 5 4

/-- Translation of a global address of a context (R36, R149, R290, R291, R321): bits 63:48, the walk, the permission,
the tensor slot. -/
def State.translate (s : State) (part ctx : Nat) (va : W64) (need : Perm) : Xlat :=
  if bits va.toNat 63 48 ≠ 0 then .fail .translation 0
  else match s.part? part with
    | none => .fail .translation 0x100
    | some p => match p.contexts.find? fun c => c.id == ctx with
      | none => .fail .translation 0x100
      | some c => match s.leafFor p c va.toNat with
        | .fault lev => .fail .translation (lev * 256)
        | .poison l => .poison l
        | .leaf e big =>
          let size := if big then 0x200000 else 0x10000
          let pa := pteAddr e.toNat / size * size + va.toNat % size
          if bits e.toNat 3 1 * 2 &&& need.need ≠ need.need then .fail .protection 0
          else if p.bound ≤ pa then .fail .translation ((if big then 3 else 4) * 256)
          else if slotOf e ≠ 0 && !s.pkg.tensors.any fun t => t.slot == slotOf e && t.part == part then
            .fail .protection 8
          else .ok (p.base + pa) e

/-! ## Places -/

/-- Where the bytes of an access lie: at a device address under a tensor slot, for a world, or in a slice (core · 2 MiB +
offset). -/
inductive Place where
  | hbm (dev slot world : Nat)
  | slice (addr : Nat)
deriving DecidableEq, Repr

/-- How the checks of an access end (R149). -/
inductive Chk where
  | ok (pl : Place)
  | fail (c : Cause) (detail : Nat)
  | poison (line : Nat)
deriving DecidableEq, Repr

/-- 2 MiB, the slice of a core (R35). -/
def sliceSize : Nat := 0x200000

/-- The physical slice address of a window offset (R34), or none outside the team's allocation; the bytes of one access
lie on one core. -/
def Team.window (t : Team) (o size : Nat) : Option Nat :=
  if o + size ≤ t.sliceLen then some (sliceSize * t.core + t.sliceOff + o)
  else if t.pair && t.sliceLen ≤ o && o + size ≤ 2 * t.sliceLen then
    some (sliceSize * (t.core + 1) + t.sliceOff + (o - t.sliceLen))
  else none

/-- A slice range lies in an allocation of the team (R34, R35). -/
def Team.holdsSlice (t : Team) (core off size : Nat) : Bool :=
  (core == t.core && t.spilled.isNone || t.pair && core == t.core + 1 && t.spilledOdd.isNone)
    && t.sliceOff ≤ off && off + size ≤ t.sliceOff + t.sliceLen

/-- The physical slice address of a distributed address (R35). DESIGN CHOICE (log 15): of an address that comes from a pair or a
scalar, as the target and the flag of a remote instruction do (R165), all 64 bits count, so that one of 2^29 or above names no
core. -/
def State.distributed (s : State) (part ctx : Nat) (a : Nat) (size : Nat) : Option Nat :=
  let core := bits a 28 21
  let off := bits a 20 0
  match s.part? part with
  | none => none
  | some p =>
    if a < 2 ^ 29 && p.holdsCore core &&
        s.teams.any (fun t => t.part == part && t.ctx == ctx && t.holdsSlice core off size) then
      some (sliceSize * core + off)
    else none

/-- The checks of one access of `size` bytes, in the order of R149; `ordered` marks an atomic that is not relaxed. -/
def State.check (s : State) (part ctx team : Nat) (sp : Space) (addr : W64) (size : Nat) (need : Perm)
    (ordered : Bool) : Chk :=
  if addr.toNat % size ≠ 0 then .fail .alignment 0
  else match sp with
    | .global => match s.translate part ctx addr need with
      | .fail c d => .fail c d
      | .poison l => .poison l
      | .ok dev e =>
        if ordered && kindOf e == 2 then .fail .orderingKind 0 else .ok (.hbm dev (slotOf e) (worldId part ctx))
    | .slice => match (s.team? team).bind fun t => t.window addr.toNat size with
      | some a => .ok (.slice a)
      | none => .fail .sliceBounds 0
    | .dist => match s.distributed part ctx addr.toNat size with
      | some a => .ok (.slice a)
      | none => .fail .distBounds 0

/-- The addresses of the lines that `n` bytes from `a` touch. -/
def linesOf (a n : Nat) : List Nat :=
  (List.range ((a % 64 + n + 63) / 64)).map fun i => lineOf a + 64 * i

/-- The number that stands for a slice line where a line with an error is named: those of HBM lie below 2^39. -/
def sliceMark : Nat := 2 ^ 40

/-- The first line of a range whose read consumes an error (R297, R322, R344). -/
def State.badLine (s : State) : Place → Nat → Option Nat
  | .hbm dev slot _, n => (linesOf dev n).find? fun l => !s.lineReads l slot
  | .slice a, n => ((linesOf a n).find? fun l => s.sliceErrs.any fun e => e.1 == l).map (sliceMark + ·)

/-- The bytes at a place. -/
def State.readAt (s : State) : Place → Nat → List Byte
  | .hbm dev _ _, n => s.hbm.readN dev n
  | .slice a, n => s.slices.readN a n

/-- The lines after a write of `n` bytes at `a`. -/
def State.writeLines (s : State) (slot world a n : Nat) : List Nat → State
  | [] => s
  | l :: ls => State.writeLines (s.lineWritten l slot world (a ≤ l && l + 64 ≤ a + n)) slot world a n ls

/-- The slice lines with an error that are left once `n` bytes at `a` are written: a line that is written whole has fresh check
bits (R297). -/
def errsAfter (es : List (Nat × Bool)) (a n : Nat) : List (Nat × Bool) := es.filter fun e => !(a ≤ e.1 && e.1 + 64 ≤ a + n)

/-- The state with bytes written at a place. -/
def State.writeAt (s : State) : Place → List Byte → State
  | .hbm dev slot world, bs =>
    { s.writeLines slot world dev bs.length (linesOf dev bs.length) with hbm := s.hbm.writeN dev bs }
  | .slice a, bs => { s with slices := s.slices.writeN a bs, sliceErrs := errsAfter s.sliceErrs a bs.length }

/-- The bytes of a slice range cleared, with fresh check bits (R255, R297). -/
def State.clearSlices (s : State) (a n : Nat) : State :=
  { s with slices := s.slices.clear a n, sliceErrs := errsAfter s.sliceErrs a n }

/-- A slice line gets an error that its check cannot correct, and that nothing has read yet (R296, R344). -/
def State.spoilSlice (s : State) (a : Nat) (readable : Bool) : State :=
  { s with sliceErrs := (lineOf a, readable) :: s.sliceErrs.filter fun e => e.1 != lineOf a }

/-- Where a write that is performed later lands. -/
def LateStore.place (l : LateStore) : Place :=
  match l.hbm with
  | some (dev, slot, world) => .hbm dev slot world
  | none => .slice l.slice

/-- The writes of a group that are still to be performed, performed in their order (R46). -/
def State.performLate (s : State) (uid : Nat) : State :=
  if s.late.any fun l => l.uid == uid then
    let t := (s.late.filter fun l => l.uid == uid).foldl (fun s l => s.writeAt l.place l.bytes) s
    { t with late := s.late.filter fun l => l.uid != uid }
  else s

/-- Two ranges share a byte. -/
def sharesByte (a n b m : Nat) : Bool := a < b + m && b < a + n

/-- A write that is still to be performed reaches one of `n` bytes at a place. -/
def LateStore.meets (l : LateStore) (pl : Place) (n : Nat) : Bool :=
  match l.place, pl with
  | .hbm a _ _, .hbm b _ _ => sharesByte a l.bytes.length b n
  | .slice a, .slice b => sharesByte a l.bytes.length b n
  | _, _ => false

/-- The `n`th write of a group that is still to be performed, performed before the others: those of its bytes keep program order
(R46). -/
def State.performNth (s : State) (uid n : Nat) : State :=
  let mine := s.late.filter fun l => l.uid == uid
  match mine[n]? with
  | none => s
  | some l =>
    if (mine.take n).any fun k => k.meets l.place l.bytes.length then s
    else { s.writeAt l.place l.bytes with late := s.late.erase l }

/-- Every write that is still to be performed performed. -/
def State.performAll (s : State) : State := (s.late.map (·.uid)).dedup.foldl State.performLate s

/-- The state with bytes of a partition written by its control core or by Loermey (plaintext, R286, R299). -/
def State.writePart (s : State) (p : Partition) (a : Nat) (bs : List Byte) : State :=
  s.writeAt (.hbm (p.base + a) 0 noWorld) bs

end Sys2Proof.Machine
end

