-- ==== Sys2Proof/Machine/Ops.lean ====
section
/-!
DEFINITION. The named operations over registers, masks, reports and traps: scalar and special registers (R22, R23),
vector registers and shapes (R20, R24), the report ring (R299), taking an exception (R26 to R28) and returning from one
(R29).
-/

namespace Sys2Proof.Machine

open Sys2Proof

/-! ## Masks -/

/-- The mask with the bit of every thread of a width set: bits W−1:0 (R22). -/
def Width.full : Width → W64
  | .w16 => 0xFFFF
  | .w32 => 0xFFFFFFFF
  | .w64 => 0xFFFFFFFFFFFFFFFF

/-- `exm` ∧ `lvm`: the active threads of a group (R6). -/
def Group.active (g : Group) : W64 := g.exm &&& g.lvm &&& g.width.full

/-- The threads below `n` that a mask holds, in ascending order. -/
def threads (m : W64) (n : Nat) : List Nat := (List.range n).filter fun t => m.getLsbD t

/-- The number of threads in a mask. -/
def countMask (m : W64) (n : Nat) : Nat := (threads m n).length

/-- The lowest thread of a mask (R11). -/
def lowest (m : W64) (n : Nat) : Option Nat := (threads m n).head?

/-- A mask from its threads. -/
def maskOf : List Nat → W64
  | [] => 0
  | t :: ts => (1#64 <<< t) ||| maskOf ts

/-! ## Vector registers -/

/-- The element of a register in a thread (R24). -/
def VReg.get : VReg → Nat → W32
  | .u v, _ => v
  | .a b st, t => b + BitVec.ofNat 32 t * st
  | .g xs, t => xs.getD t 0

/-- The register has shape U. -/
def VReg.isU : VReg → Bool
  | .u _ => true
  | _ => false

/-- The register has shape A. -/
def VReg.isA : VReg → Bool
  | .a _ _ => true
  | _ => false

/-- The elements of the first `n` threads. -/
def VReg.toList (v : VReg) (n : Nat) : List W32 := (List.range n).map v.get

/-- An allocation register (R20). -/
def Group.vreg (g : Group) (r : Nat) : VReg := g.vregs.getD r (.u 0)

/-- The register that a V field names (R20). -/
def Group.v (g : Group) (f : Fld) : VReg := g.vreg (g.wb + f.toNat)

/-- A poisoned word of a register as it stands in the element of a thread (R30): the one value of a U register is that of
every thread, its half included; an element of an A register comes from both its words, whole. -/
def Poison.spread (e : Poison) (old : VReg) (t : Nat) : Poison := ⟨e.reg, t, if old.isA then 0 else e.half⟩

/-- Elements that stay poisoned once a register has shape G and threads of `m` of it are written (R30): the one value of a U
register, the base and the stride of an A register stand in every thread, so what a write leaves of them stays poisoned in
every other thread. -/
def poisonAfter (p : List Poison) (old : VReg) (r n : Nat) (m : W64) : List Poison :=
  match old with
  | .g _ => p.filter fun e => !(e.reg == r && m.getLsbD e.word)
  | _ =>
    let mine := p.filter fun e => e.reg == r
    if mine.isEmpty then p
    else
      p.filter (fun e => e.reg != r) ++ (mine.flatMap fun e =>
        ((List.range n).filter fun t => !m.getLsbD t).map (e.spread old)).dedup

/-- An allocation register written in the threads of a mask (R12, R24): no thread leaves value and shape; every thread
gives the new register its own shape; other masks give shape G and leave the other elements. -/
def Group.writeReg (g : Group) (r : Nat) (v : VReg) (m : W64) : Group :=
  if m = 0 then g
  else if m = g.width.full then
    { g with vregs := g.vregs.set r v, poison := g.poison.filter fun e => e.reg != r }
  else
    let old := g.vreg r
    { g with
      vregs := g.vregs.set r (.g ((List.range g.width.n).map fun t => if m.getLsbD t then v.get t else old.get t))
      poison := poisonAfter g.poison old r g.width.n m }

/-- The register that a V field names, written in the active threads. -/
def Group.setV (g : Group) (f : Fld) (v : VReg) : Group := g.writeReg (g.wb + f.toNat) v g.active

/-- Some elements of an allocation register written, whatever the mask; the result has shape G (R16, R24). DESIGN CHOICE (log 37):
with no element to write, since every thread of a deferred instruction failed, the register keeps its shape as well. -/
def Group.writeElems (g : Group) (r : Nat) (xs : List (Nat × W32)) : Group :=
  match xs with
  | [] => g
  | _ =>
    let old := g.vreg r
    let at? := fun t => (xs.find? fun e => e.1 == t).map (·.2)
    { g with
      vregs := g.vregs.set r (.g ((List.range g.width.n).map fun t => (at? t).getD (old.get t)))
      poison := poisonAfter g.poison old r g.width.n (maskOf (xs.map (·.1))) }

/-- The 64-bit value of a pair of elements (R21). -/
def pair64 (lo hi : W32) : W64 := hi ++ lo

/-- The pair that a P field names, in a thread (R21). -/
def Group.pair (g : Group) (f : Fld) (t : Nat) : W64 :=
  pair64 ((g.vreg (g.wb + f.toNat)).get t) ((g.vreg (g.wb + f.toNat + 1)).get t)

/-- `n` consecutive registers in a thread as one value, the lowest register least significant (R66, R151). -/
def Group.wide (g : Group) (f : Fld) (n t : Nat) : Nat :=
  ((List.range n).map fun k => ((g.vreg (g.wb + f.toNat + k)).get t).toNat * 2 ^ (32 * k)).sum

/-! ## Trap registers -/

/-- The entry of the index in `sel` (R23). -/
def TrapRec.entry (r : TrapRec) : Option TrapEntry := r.entries.find? fun f => f.idx == r.sel

/-- Bit i for each run index of a list. -/
def idxMask : List Nat → Nat
  | [] => 0
  | i :: is => 2 ^ i ||| idxMask is

/-- `fset` (R23). -/
def TrapRec.fset (r : TrapRec) : Nat := idxMask (r.entries.map (·.idx))

/-- `tinfo` (R23, Table 4). -/
def TrapRec.tinfo (r : TrapRec) : W64 :=
  BitVec.ofNat 64 (r.fset * 2 ^ 40 + r.sel % 32 * 2 ^ 35 + (match r.entry with | some f => f.detail.toNat | none => 0))

/-- `taddr` (R22, R23). -/
def TrapRec.taddr (r : TrapRec) : W64 := match r.entry with | some f => f.taddr | none => 0

/-- `tmask` (R22, R23). -/
def TrapRec.tmask (r : TrapRec) : W64 := match r.entry with | some f => f.tmask | none => 0

/-- `tcause` (R22, R23): 0 when `sel` names no failing index. -/
def TrapRec.tcause (r : TrapRec) : W64 := match r.entry with | some f => f.cause | none => 0

/-- A record after a write of `tcause` (R22): the entry that `sel` names holds the value. -/
def TrapRec.setCause (r : TrapRec) (v : W64) : TrapRec :=
  { r with entries := r.entries.map fun f => if f.idx == r.sel then { f with cause := v } else f }

/-- What the trap registers show of a failure (R23). -/
def Failure.entry (f : Failure) : TrapEntry := ⟨f.idx, BitVec.ofNat 64 f.cause.code, f.taddr, f.tmask, f.detail⟩

/-! ## Scalar and special registers -/

/-- `fpm` as a write stores it (R89, R122): reserved bits 0, and an action of 0b11 stored as 0b00. -/
def fixFpm (v : W64) : W64 :=
  let acts := (List.range 8).map fun k =>
    let a := bits v.toNat (2 * k + 33) (2 * k + 32)
    if a = 3 then 0 else a * 2 ^ (2 * k + 32)
  BitVec.ofNat 64 (acts.sum + v.toNat % 4)

/-- The value of a scalar field (R22, R74): an ordinary scalar, a special register (Table 3), or 0. `cyc` is the core's
local cycle count. -/
def Group.readS (g : Group) (cyc : W64) (f : Fld) : W64 :=
  match f.toNat with
  | 64 => g.exm | 65 => g.lvm | 66 => g.sm
  | 67 => BitVec.ofNat 64 g.gix | 68 => BitVec.ofNat 64 g.width.n | 69 => BitVec.ofNat 64 g.tix
  | 70 => BitVec.ofNat 64 g.nteam | 71 => BitVec.ofNat 64 g.wb | 72 => BitVec.ofNat 64 g.rank
  | 73 => BitVec.ofNat 64 g.nrank | 74 => BitVec.ofNat 64 g.part
  | 75 => BitVec.ofNat 64 (worldId g.part g.ctx)
  | 76 => cyc | 77 => g.fpm | 78 => g.fpf | 79 => BitVec.ofNat 64 g.mq
  | 80 => g.crole.getD 0 0 | 81 => g.crole.getD 1 0 | 82 => g.crole.getD 2 0 | 83 => g.crole.getD 3 0
  | 84 => g.trap.tcause | 85 => g.trap.tinfo | 86 => g.trap.xpc | 87 => g.trap.taddr
  | 88 => g.trap.tmask | 89 => g.trap.rplq | 90 => g.gen.setWidth 64
  | n => if n < 64 then g.sregs.getD n 0 else 0

/-- A scalar field written (R22, R23, R66): masks hold bits W−1:0 only, `lvm` and `rplq` are cleared only, reserved bits
are discarded, a write of 0 to `tcause` disarms the trap state, and a write to `zero` is discarded. -/
def Group.writeS (g : Group) (f : Fld) (v : W64) : Group :=
  match f.toNat with
  | 64 => { g with exm := v &&& g.width.full }
  | 65 => { g with lvm := g.lvm &&& v }
  | 66 => { g with sm := v &&& g.width.full }
  | 77 => { g with fpm := fixFpm v }
  | 78 => { g with fpf := v &&& 0x3F }
  | 79 => { g with mq := v.toNat % 8 }
  | 84 => { g with trap := g.trap.setCause v, armed := g.armed && v != 0 }
  | 85 => { g with trap := { g.trap with sel := bits v.toNat 39 35 } }
  | 89 => { g with trap := { g.trap with rplq := g.trap.rplq &&& v } }
  | n => if n < 64 then { g with sregs := g.sregs.set n v } else g

/-! ## The report ring -/

/-- The eight words of an entry (R299). -/
def Entry.report (e : Entry) (list : Nat) (last : Bool) : Report :=
  BitVec.ofNat 64 (e.ty * 2 ^ 56 + b2n last * 2 ^ 55 + list % 2 ^ 16 * 2 ^ 32 + e.world * 2 ^ 20) ::
    (List.range 7).map fun i => BitVec.ofNat 64 (e.words.getD i 0)

/-- The bytes of a report as it stands in the ring. -/
def Report.toBytes (r : Report) : List Byte := r.flatMap fun w => leBytes 8 w.toNat

/-- The ring is enabled (R299): a valid RINGLOG, and the whole ring below BOUND. -/
def Partition.ringOn (p : Partition) : Bool :=
  6 ≤ p.ringLog && p.ringLog ≤ 16 && p.ringBase.toNat + 64 * 2 ^ p.ringLog ≤ p.bound

/-- The ring has room for an entry. -/
def Partition.ringRoom (p : Partition) : Bool :=
  p.ringOn && (p.ringHead - p.ringTail).toNat < 2 ^ p.ringLog

/-- One entry written to the ring: its bytes, then RINGHEAD, then the interrupt when LAST = 1 (R299). -/
def State.ringWrite (s : State) (p : Partition) (r : Report) (last : Bool) : State :=
  let a := p.ringBase.toNat + 64 * (p.ringHead.toNat % 2 ^ p.ringLog)
  let s := s.writePart p a r.toBytes
  let s := s.updPart p.num fun p => { p with ringHead := p.ringHead + 1 }
  if last then { s with interrupts := s.interrupts ++ [.report p.num] } else s

/-- Held entries written while there is room, at most `n` of them, then the entry of type 12 that gives the count lost
(R299). -/
def State.ringFlush (s : State) (part : Nat) : Nat → State
  | 0 => s
  | n + 1 => match s.part? part with
    | none => s
    | some p =>
      if !p.ringRoom then s
      else match p.ringHeld with
        | (r, last) :: rest =>
          State.ringFlush ((s.ringWrite p r last).updPart part fun p => { p with ringHeld := rest }) part n
        | [] =>
          if p.lostSince = 0 then s
          else (s.ringWrite p (Entry.report ⟨12, 0, [p.lostSince]⟩ p.listNum true) true).updPart part fun p =>
            { p with lostSince := 0, listNum := p.listNum + 1 }

/-- One entry reported to a partition (R299): written at once when the ring has room and nothing is held, else kept in
Loermey's reserve of 1,024 entries, else lost. -/
def State.ringPush (s : State) (part : Nat) (r : Report) (last : Bool) : State :=
  match s.part? part with
  | none => s
  | some p =>
    if p.ringRoom && p.ringHeld.isEmpty && p.lostSince = 0 then s.ringWrite p r last
    else if p.ringHeld.length < 1024 then
      s.setPart { p with ringHeld := p.ringHeld ++ [(r, last)] }
    else s.setPart { p with ringLost := p.ringLost + 1, lostSince := p.lostSince + 1 }

/-- The entries of a list reported in order under one list number, the last with LAST = 1. -/
def State.pushEntries (s : State) (part list : Nat) : List Entry → State
  | [] => s
  | [e] => s.ringPush part (e.report list true) true
  | e :: es => State.pushEntries (s.ringPush part (e.report list false) false) part list es

/-- One list reported to a partition (R299, R300). -/
def State.reportList (s : State) (part : Nat) (es : List Entry) : State :=
  match s.part? part with
  | none => s
  | some p =>
    if es.isEmpty then s
    else (s.setPart { p with listNum := p.listNum + 1 }).pushEntries part (p.listNum + 1) es

/-- The EVENT entry (R300, type 11): the interrupt of R89. -/
def eventEntry (world core cls : Nat) (xpc : W64) (idx : Nat) : Entry :=
  ⟨11, world, [core + cls * 2 ^ 8, xpc.toNat, idx]⟩

/-! ## Events (R129 to R131, R89) -/

/-- A count of a window raised by `n`, saturated (R130). -/
def satAdd (c n : Nat) : Nat := min (c + n) (2 ^ 32 - 1)

/-- `n` events of class `k` on a core of a partition (R88, R89, R130): EVSUM and the core's window count; whether this
addition crosses the threshold for the first time in the window. -/
def State.countEvents (s : State) (part core k n : Nat) : State × Bool :=
  match s.part? part with
  | none => (s, false)
  | some p =>
    if n = 0 then (s, false)
    else
      let c := s.core core
      let was := c.window.getD k 0
      let now := satAdd was n
      let lim := (p.evlim.getD k 0).toNat
      let cross := lim ≠ 0 && was < lim && lim ≤ now && !(c.crossed.getD k false)
      let c := { c with window := c.window.set k now, crossed := if cross then c.crossed.set k true else c.crossed }
      let p := { p with evsum := p.evsum.set k (p.evsum.getD k 0 + BitVec.ofNat 64 n) }
      ((s.setPart p).setCore c, cross)

/-- A return that is dropped counts as a gen-drop event (R19, R129); its threshold takes its action from EVCTL (R89). -/
def State.genDrop (s : State) (part core : Nat) : State :=
  let (s, cross) := s.countEvents part core 7 1
  let acts := match s.part? part with | some p => p.evdrop == 2 | none => false
  if cross && acts then s.reportList part [eventEntry 0 core 7 0 0] else s

/-- What a group has issued that is outstanding: the yielded run's part first. -/
def Group.issued (g : Group) : List Pend := (match g.yielded with | some y => y.pends | none => []) ++ g.pends

/-! ## Taking an exception, and returning from one -/

/-- A cause is delivered to the control core (R26, Table 6). -/
def Cause.control : Cause → Bool
  | .alignment | .translation | .protection | .orderingKind | .sliceBounds | .distBounds | .remoteRefused
  | .fabricTimeout => true
  | _ => false

/-- A cause can be replayed (R26, Table 6). -/
def Cause.replayable : Cause → Bool
  | .translation | .protection | .tripleStarvation | .barrierStall | .remoteRefused | .fabricTimeout => true
  | _ => false

/-- A failure added to those of a run, in order of run index; an index keeps the entry it has. -/
def addFailure (f : Failure) : List Failure → List Failure
  | [] => [f]
  | e :: es => if f.idx < e.idx then f :: e :: es else if f.idx = e.idx then e :: es else e :: addFailure f es

/-- The failures of a list added to those of a run. -/
def addFailures (fs : List Failure) (l : List Failure) : List Failure := fs.foldl (fun l f => addFailure f l) l

/-- A failure of the whole instruction at a run index: no threads, no address. -/
def Failure.plain (idx : Nat) (c : Cause) (detail : W32) : Failure := ⟨idx, c, 0, 0, detail, c.replayable⟩

/-- The trap record of a run (R28). -/
def TrapRec.make (fs : List Failure) (xpc resume : W64) (pends : List Pend) : TrapRec :=
  let rp := (fs.filter (·.replay)).map (·.idx)
  { entries := fs.map Failure.entry, sel := (match fs with | f :: _ => f.idx | [] => 0), xpc := xpc
    rplq := BitVec.ofNat 64 (idxMask rp), resume := resume
    replays := pends.filter fun p => rp.contains (p.idx % 32) }

/-- The launch number of an acceptance (R251): from 1 to 65,535, wrapping to 1. -/
def launchNumber (lid : Nat) : Nat := if lid = 0 then 0 else (lid - 1) % 65535 + 1

/-- The TRAP entry of a record (R300, type 10). -/
def trapEntry (g : Group) (r : TrapRec) (double : Bool) : Entry :=
  ⟨10, worldId g.part g.ctx,
    [launchNumber g.lid + g.tix % 2 ^ 24 * 2 ^ 16 + g.gix % 32 * 2 ^ 40 + b2n double * 2 ^ 45, r.tcause.toNat, r.tinfo.toNat,
      r.xpc.toNat, r.taddr.toNat, r.tmask.toNat, r.rplq.toNat]⟩

/-- TAKING AN EXCEPTION: the delivery of a run's trap record (R28, Table 7). With the trap state armed already, the
group halts, the new record goes to the control core as a double trap, and the earlier one is kept. Else the record is
kept and the trap state armed; with any control-core cause the group halts and the record goes to the control core;
otherwise the group goes on at the launch's trap vector, its masks unchanged. A group that halts stops being ready, which
clears its pass count (R259). -/
def State.takeTrap (s : State) (g : Group) (fs : List Failure) (xpc resume : W64) (pends : List Pend) : State :=
  let r := TrapRec.make fs xpc resume pends
  if g.armed then
    (s.setGroup { g with pc := resume, stat := .ready, halt := .trap, haltTime := s.tick, pass := 0 }).reportList g.part [trapEntry g r true]
  else if fs.any fun f => f.cause.control then
    (s.setGroup { g with
      pc := resume, stat := .ready, halt := .trap, haltTime := s.tick, pass := 0, armed := true, trap := r }).reportList
      g.part [trapEntry g r false]
  else
    s.setGroup { g with pc := g.trapv, stat := .ready, armed := true, trap := r, readyTime := s.tick }

/-- RETURNING FROM AN EXCEPTION: the trap state is disarmed and the group goes on at the resume address (R29). -/
def Group.trapReturn (g : Group) : Group := { g with armed := false, pc := g.trap.resume }

/-! ## New partitions, teams and groups -/

/-- A partition as PART_CREATE leaves it (R250, R286, R288, R88, R295): every register at its reset value, context 0
without a root, launch numbers from 1. -/
def Partition.fresh (num : Nat) (clus ccs ports : BitVec 32) (baseGran nGran : Nat) : Partition where
  num := num
  clus := clus
  ccs := ccs
  ports := ports
  baseGran := baseGran
  nGran := nGran
  contexts := [⟨0, none⟩]
  tlbva := 0
  tlbBusy := false
  tlbCmd := (0, 0, 0)
  ringBase := 0
  ringLog := 0
  ringHead := 0
  ringTail := 0
  ringLost := 0
  ringHeld := []
  lostSince := 0
  listNum := 0
  evwin := 0x01000000
  evlim := List.replicate 8 0
  evdrop := 0
  stalllim := 0x38074300
  evsum := List.replicate 8 0
  latchbyp := 0
  queues := List.replicate 16 ⟨0, false, false⟩
  badaddr := 0
  badwhy := 0
  resvcore := 0
  nolid := false
  busy := false
  evcnt := List.replicate 256 0
  launches := []
  nextLid := 1
  lastCore := none
  nextQueue := [0, 0, 0, 0]
  cmd := none
  grants := List.replicate 64 ⟨false, false, 0, 0⟩
  removing := []
  waiting := []
  pmreg := List.replicate 4 0
  image := []

/-- A team at its start (R109, R174, R191): no arrivals, every asynchronous barrier uninitialised, every modulus 2^31 − 1,
no buffer. -/
def Team.fresh (uid part ctx lid tix core : Nat) (pair : Bool) (sliceOff sliceLen ngroups : Nat) : Team where
  uid := uid
  part := part
  ctx := ctx
  lid := lid
  tix := tix
  core := core
  pair := pair
  sliceOff := sliceOff
  sliceLen := sliceLen
  ngroups := ngroups
  exited := 0
  bars := List.replicate 16 ⟨0, 0⟩
  abars := List.replicate 32 Abar.init
  mod := List.replicate 8 0x7FFFFFFF
  bufs := List.replicate 64 none
  spilled := none
  spilledOdd := none

/-- A group at its start (R6, R7, R22, R253): at the kernel's first instruction, its masks full, its registers 0 with shape
U, but for s0 to s3, which hold the launch's arguments. -/
def Group.fresh (uid : Nat) (t : Team) (gix core lane : Nat) (w : Width) (alloc : Nat) (pc trapv : W64) (args : List W64)
    (nteam rank nrank prio tick : Nat) : Group where
  uid := uid
  part := t.part
  ctx := t.ctx
  lid := t.lid
  team := t.uid
  tix := t.tix
  gix := gix
  core := core
  lane := lane
  width := w
  alloc := alloc
  vregs := List.replicate alloc (.u 0)
  sregs := args.take 4 ++ List.replicate (64 - (args.take 4).length) 0
  exm := w.full
  lvm := w.full
  sm := 0
  nteam := nteam
  wb := 0
  rank := rank
  nrank := nrank
  fpm := 0
  fpf := 0
  mq := 0
  crole := [0, 0, 0, 0]
  gateRole := [0, 0, 0, 0]
  gen := 0
  pc := pc
  runPc := pc
  runIdx := 0
  tag := 0
  lastPc := pc
  stat := .ready
  runEnd := .fall
  halt := .no
  bound := List.replicate 4 none
  preemptReq := false
  pends := []
  fails := []
  yielded := none
  waited := false
  armed := false
  trap := TrapRec.zero
  trapv := trapv
  prio := prio
  readyTime := tick
  pass := 0
  promoted := false
  latch := none
  poison := []
  spilled := none
  cycles := 0
  fences := []
  haltTime := 0

end Sys2Proof.Machine
end

