-- ==== Sys2Proof/Machine/Gate.lean ====
section
/-!
DEFINITION. The Sarabande gate: role bindings, steps, delivery queues, triples and joint exchanges (R197 to R232), and
how a conversation is aborted (R230). DEDUCED: orders at the gate (log 16); which of several failures is reported (log
30).
-/

namespace Sys2Proof.Machine

open Sys2Proof

/-! ## Returns -/

/-- A result whose failure names a run index, where it named a ticket. -/
def Result.norm (r : Result) : Result := { r with fail := r.fail.map fun f => { f with idx := f.idx % 32 } }

/-- An instruction of a group whose outcome is known at once (R16). -/
def State.finish (s : State) (uid idx : Nat) (r : Result) : State :=
  match s.group? uid with
  | none => s
  | some g =>
    let set := fun (ps : List Pend) => ps.map fun p => if p.idx == idx && p.st == .waiting then { p with st := .done r.norm } else p
    s.setGroup { g with
      pends := set g.pends
      yielded := g.yielded.map fun y => { y with pends := set y.pends } }

/-- The group waits for the return of an instruction of its present run, or of any outstanding one. -/
def waitsIn (ps : List Pend) (ticket : Nat) : Bool := ps.any fun p => p.idx == ticket && p.st == .waiting

/-- A result sent back to a group (R19), under the ticket of the instruction that asked for it. It carries the generation that
the allocation had at the issue: the present one while the instruction still waits, since a spill bumps the generation and
leaves no instruction of a yielded run waiting. What is returned to an instruction for which a halted group waits at the end
of its run is held for it (R19, R261). -/
def State.ret (s : State) (uid idx : Nat) (r : Result) : State :=
  match s.group? uid with
  | none => s
  | some g =>
    if g.halt ≠ .no && waitsIn g.pends idx then s.finish uid idx r
    else
      let gen := if waitsIn g.issued idx then g.gen else g.gen - 1
      { s with returns := s.returns ++ [⟨uid, gen, idx, g.part, g.core, r.norm⟩] }

/-- A return whose group allocation is gone: it is on its way, and will be dropped (R19). -/
def State.retLost (s : State) (uid idx part core : Nat) : State :=
  { s with returns := s.returns ++ [⟨uid, 0, idx, part, core, ⟨[], [], [], [], none⟩⟩] }

/-- A group is halted (R18). -/
def State.isHalted (s : State) (uid : Nat) : Bool :=
  match s.group? uid with
  | some g => g.halt != .no
  | none => false

/-- A group waits at the end of its run for a circular buffer or a triple queue (R17). -/
def State.markWaited (s : State) (uid ticket : Nat) : State :=
  match s.group? uid with
  | some g => if g.stat = .endRun && ticket / 32 = g.tag then s.setGroup { g with waited := true } else s
  | none => s

/-- A result that is a failure only. -/
def Result.failed (f : Failure) : Result := { Result.empty with fail := some f }

/-- A result that is one scalar. -/
def Result.scalar (d : Fld) (v : W64) : Result := { Result.empty with scalars := [(d, v)] }

/-! ## Finding -/

/-- The conversation of a number. -/
def State.conv? (s : State) (n : Nat) : Option Conv := s.pkg.convs.find? fun c => c.num == n
/-- The state with the conversation of the same number replaced. -/
def State.setConv (s : State) (c : Conv) : State :=
  { s with pkg := { s.pkg with convs := s.pkg.convs.map fun d => if d.num == c.num then c else d } }
/-- The choreography of a number. -/
def State.choreo? (s : State) (n : Nat) : Option Choreo := s.pkg.choreos.find? fun c => c.num == n
/-- A role of a conversation. -/
def Conv.role (c : Conv) (r : Nat) : Role := c.roles.getD r ⟨false, 0, 0, [], [], []⟩
/-- A conversation with a role replaced. -/
def Conv.setRole (c : Conv) (r : Nat) (x : Role) : Conv := { c with roles := c.roles.set r x }
/-- A party of a conversation. -/
def Conv.party (c : Conv) (r : Nat) : Party := c.parties.getD r ⟨[], [], 0, 0, none, none, none, 0, 0, []⟩
/-- A conversation with a party replaced. -/
def Conv.setParty (c : Conv) (r : Nat) (x : Party) : Conv := { c with parties := c.parties.set r x }
/-- The number of parties (R197). -/
def Conv.np (c : Conv) : Nat := c.parties.length

/-- The conversation that a role register's value names (R197, Table 1). -/
def roleConv (v : W64) : Nat := bits v.toNat 31 20
/-- The role that a role register's value names. -/
def roleNum (v : W64) : Nat := bits v.toNat 1 0
/-- The party count of a role register's value. -/
def roleNp (v : W64) : Nat := match bits v.toNat 41 40 with | 0 => 0 | n => n + 1

/-- The value of a bound role register (R197, Table 1). -/
def roleValue (np chor conv role : Nat) : W64 :=
  BitVec.ofNat 64 (2 ^ 63 + (np - 1) * 2 ^ 40 + chor * 2 ^ 32 + conv * 2 ^ 20 + role)

/-- The table entry of a state, a role and a kind (R204). -/
def Choreo.entry (c : Choreo) (st role kind : Nat) : BitVec 16 := c.entries.getD ((4 * st + role) * 16 + kind) 0

/-- The entry is valid: the step is permitted. -/
def entryValid (e : BitVec 16) : Bool := e.getLsbD 15
/-- The recipient mask of an entry. -/
def entryMask (e : BitVec 16) : Nat := bits e.toNat 11 8
/-- The next state of an entry. -/
def entryNext (e : BitVec 16) : Nat := bits e.toNat 5 0

/-- The entry that the current state of a conversation has for a role and a kind, if the step is permitted (R206). -/
def State.permitted (s : State) (c : Conv) (role kind : Nat) : Option (BitVec 16) :=
  match s.choreo? c.choreo with
  | none => none
  | some ch => let e := ch.entry c.state role kind
    if entryValid e then some e else none

/-- A kind is a choice kind of the conversation's choreography (R203). -/
def State.choiceKind (s : State) (c : Conv) (kind : Nat) : Bool :=
  match s.choreo? c.choreo with
  | none => false
  | some ch => ch.choice.getLsbD kind

/-! ## Failures at the gate -/

/-- The `tinfo` detail of conversation causes (R208, Table 4). -/
def gateDetail (conv st role kind reason : Nat) : W32 :=
  BitVec.ofNat 32 (conv * 2 ^ 20 + st * 2 ^ 14 + role * 2 ^ 12 + kind * 2 ^ 8 + reason)

/-- An instruction that fails at the gate, with the threads it was active in and the index of its first triple (R208). -/
def State.gateFail (s : State) (uid idx : Nat) (c : Cause) (detail : W32) (mask : W64) (first : Nat) : State :=
  s.ret uid idx (Result.failed ⟨idx, c, BitVec.ofNat 64 first, mask, detail, c.replayable⟩)

/-- A failure of a conversation instruction, which runs once for the group. -/
def State.convFail (s : State) (c : Conv) (role kind uid idx : Nat) (cause : Cause) (reason : Nat) : State :=
  s.gateFail uid idx cause (gateDetail c.num c.state role kind reason) 0 0

/-! ## Messages -/

/-- A receive of kind `k` takes a message (R211): of its own kind, or for a choice kind of any choice kind. -/
def State.takes (s : State) (c : Conv) (k : Nat) (m : Msg) : Bool :=
  m.kind == k || (s.choiceKind c k && s.choiceKind c m.kind)

/-- The value a receive commits (R211). -/
def State.received (s : State) (c : Conv) (k : Nat) (m : Msg) : W64 :=
  if s.choiceKind c k then BitVec.ofNat 64 (m.kind * 2 ^ 60 + m.payload.toNat % 2 ^ 60) else m.payload

/-- The destination of a waiting receive, from the group that issued it. -/
def State.recvDest (s : State) (uid idx : Nat) : Option Fld :=
  match s.group? uid with
  | none => none
  | some g =>
    let ps := g.pends ++ (match g.yielded with | some y => y.pends | none => [])
    ps.findSome? fun p => if p.idx = idx then (match p.op with | .crecv _ _ d => some d | _ => none) else none

/-- The waiting receives of a role served in their order of arrival (R211): those that find a message take the oldest
such; the others go on waiting. -/
def State.serveRecvs (s : State) (cn role : Nat) : List (Nat × Nat × Nat) → State
  | [] => s
  | (uid, idx, k) :: rest =>
    let s' := match s.conv? cn with
      | none => s
      | some c =>
        let ro := c.role role
        match ro.queue.find? (s.takes c k) with
        | none => s
        | some m =>
          let s := s.setConv (c.setRole role { ro with
            queue := ro.queue.eraseP (s.takes c k)
            recvs := ro.recvs.erase (uid, idx, k) })
          match s.recvDest uid idx with
          | some d => s.ret uid idx (Result.scalar d (s.received c k m))
          | none => s
    State.serveRecvs s' cn role rest

/-- The waiting receives of several roles served. -/
def State.serveRoles (s : State) (cn : Nat) : List Nat → State
  | [] => s
  | r :: rs =>
    let s' := match s.conv? cn with
      | none => s
      | some c => s.serveRecvs cn r (c.role r).recvs
    State.serveRoles s' cn rs

/-- A message placed in the delivery queues of the roles of a mask (R210). -/
def Conv.deliver (c : Conv) (mask : Nat) (m : Msg) : Conv :=
  { c with roles := c.roles.mapIdx fun r x => if bitAt mask r && x.used then { x with queue := x.queue ++ [m] } else x }

/-- A delivery queue of a recipient is full (R205, R210). -/
def Conv.full (c : Conv) (mask : Nat) : Bool :=
  (List.range 4).any fun r => bitAt mask r && (c.role r).used && 16 ≤ (c.role r).queue.length

/-- `csend` and `cchoose` at the gate, once the role is resolved (R206, R208, R210, R212): none while a recipient's
delivery queue is full. -/
def State.gateSend (s : State) (c : Conv) (role uid idx kind : Nat) (payload : W64) (choose : Bool) : Option State :=
  if 12 ≤ kind then some (s.convFail c role kind uid idx .outOfTurn 2)
  else if s.choiceKind c kind != choose then some (s.convFail c role kind uid idx .outOfTurn 4)
  else match s.permitted c role kind with
    | none => some (s.convFail c role kind uid idx .outOfTurn 1)
    | some e =>
      if c.full (entryMask e) then none
      else
        let pay := if choose then BitVec.ofNat 64 (payload.toNat % 2 ^ 60) else payload
        let c := { c.deliver (entryMask e) ⟨kind, pay⟩ with state := entryNext e }
        some (((s.setConv c).serveRoles c.num ((List.range 4).filter (bitAt (entryMask e)))).ret uid idx Result.empty)

/-! ## Triples -/

/-- The triples of a queue: 0 arithmetic, 1 boolean. -/
def Party.queue (p : Party) (q : Nat) : List Triple := if q = 0 then p.arith else p.bools
/-- A party with a triple queue replaced. -/
def Party.setQueue (p : Party) (q : Nat) (l : List Triple) : Party :=
  if q = 0 then { p with arith := l } else { p with bools := l }
/-- The inbox of a queue: 0 arithmetic, 1 boolean, 2 tile. -/
def Party.inbox (p : Party) (q : Nat) : Option Batch := if q = 0 then p.inA else if q = 1 then p.inB else p.inT
/-- A party with an inbox replaced. -/
def Party.setInbox (p : Party) (q : Nat) (b : Option Batch) : Party :=
  if q = 0 then { p with inA := b } else if q = 1 then { p with inB := b } else { p with inT := b }
/-- The index counter of a queue (R217). -/
def Party.next (p : Party) (q : Nat) : Nat := if q = 0 then p.nextA else p.nextB
/-- A party with an index counter advanced. -/
def Party.advance (p : Party) (q n : Nat) : Party :=
  if q = 0 then { p with nextA := p.nextA + n } else { p with nextB := p.nextB + n }
/-- The capacity of a queue (R217, R304). -/
def Party.cap (p : Party) (q : Nat) : Nat := if q = 0 then p.capA else p.capB

/-- The index of the next arithmetic triple in a party's queue (R214): the head's, or the next to be dealt. DESIGN CHOICE (log 16): with
the queue empty and a batch in the inbox it is the first index of that batch. -/
def Party.headIdx (p : Party) (q : Nat) : Nat :=
  match p.queue q with
  | t :: _ => t.idx
  | [] => match (p.inbox q).bind fun b => b.triples.head? with
    | some t => t.idx
    | none => p.next q

/-- A range of triples that an event burned: party, queue, first index and count (R300, type 8). -/
structure Burn where
  party : Nat
  q : Nat
  first : Nat
  count : Nat
deriving DecidableEq, Repr

/-! ## Joint exchanges -/

/-- The kind of a gate share instruction (R203, Table 3). -/
def GateOp.kind : GateOp → Nat
  | .smul | .sb2a => 12
  | .sltz | .sandB => 13
  | .sopen | .xopen _ _ _ _ _ => 14

/-- The queue and the number of triples that an instruction pops for `n` active threads (R223 to R227). -/
def GateOp.need (op : GateOp) (k n : Nat) : Nat × Nat :=
  match op with
  | .smul | .sb2a => (0, n)
  | .sandB => (1, n)
  | .sltz => (1, n * (if k = 16 then 2 else 3))
  | .sopen | .xopen _ _ _ _ _ => (0, 0)

/-- The count attribute of an exchange's record (R228): active threads, or the length of an `xopen`. -/
def gateCount (op : GateOp) (items : List (Nat × W32 × W32)) : Nat :=
  match op with
  | .xopen _ _ len _ _ => len.toNat
  | _ => items.length

/-- The type attribute of an exchange's record (R228): 16 and 32 for the share types, 1 for `.b`. -/
def gateTy (op : GateOp) (k : Nat) : Nat := match op with | .sandB => 1 | _ => k

/-- The mask of the threads of an instruction; an `xopen` runs once for the group and has none (R208). -/
def gateMask (op : GateOp) (items : List (Nat × W32 × W32)) : W64 :=
  match op with
  | .xopen _ _ _ _ _ => 0
  | _ => maskOf (items.map (·.1))

/-- The part has its triples, and its bytes, and has sent or is sending its words. -/
def Part.joined (p : Part) : Bool := !p.withdrawn && p.popped.isSome

/-- The index of a part's first triple, or 0 if it has none (R208). -/
def Part.firstIdx (p : Part) : Nat := match p.popped with | some (t :: _) => t.idx | _ => 0

/-- The number of words that a part sends to each recipient (R222 to R227). DESIGN CHOICE (log 16): of a `vsltz` two for each boolean
entry of each thread, a number that only reports show (R300). -/
def Part.nwords (p : Part) : Nat :=
  match p.op with
  | .smul | .sb2a | .sandB => 2 * p.items.length
  | .sltz => 2 * p.items.length * (if p.k = 16 then 2 else 3)
  | .sopen => p.items.length
  | .xopen _ _ len _ _ => len.toNat / (p.k / 8)

/-- 2^k, the modulus of a share type. -/
def kmod (k : Nat) : Nat := 2 ^ k

/-- The elements of a byte string, of k bits each. -/
def elemsOf (k : Nat) : List Byte → List Nat
  | [] => []
  | [_] => []
  | a :: b :: rest =>
    if k = 16 then (a.toNat + 256 * b.toNat) :: elemsOf k rest
    else match rest with
      | c :: d :: rest' => leNat [a, b, c, d] :: elemsOf k rest'
      | _ => []

/-- The words of a part of an OPEN exchange, in the order in which they cross (R222, R227). -/
def Part.openWords (p : Part) : List Nat :=
  match p.op with
  | .sopen => p.items.map fun it => it.2.1.toNat % kmod p.k
  | .xopen _ _ _ _ _ => elemsOf p.k p.bytes
  | _ => []

/-- A difference modulo 2^k. -/
def subMod (k a b : Nat) : Nat := (a % kmod k + kmod k - b % kmod k) % kmod k

/-- The two masked words of one thread of `vsmul`, `vsb2a` or `vsand.b` (R223, R224, R226). For `vsb2a` the factors are
the bit of this party and an absent one, held as 0. -/
def maskedWords (op : GateOp) (k party : Nat) (x y : W32) (t : Triple) : Nat × Nat :=
  match op with
  | .sandB => ((x ^^^ t.a).toNat, (y ^^^ t.b).toNat)
  | .sb2a =>
    let b := x.toNat % 2
    if party = 0 then (subMod k b t.a.toNat, subMod k 0 t.b.toNat)
    else (subMod k 0 t.a.toNat, subMod k b t.b.toNat)
  | _ => (subMod k x.toNat t.a.toNat, subMod k y.toNat t.b.toNat)

/-- The masked words of a part, thread by thread. -/
def Part.masked (p : Part) : List (Nat × Nat) :=
  ((p.items).zip (p.popped.getD [])).map fun (it, t) => maskedWords p.op p.k p.party it.2.1 it.2.2 t

/-- Sums modulo 2^k of the words of several parties at one position; XOR for `.b`. -/
def combine (op : GateOp) (k : Nat) (xs : List Nat) : Nat :=
  match op with
  | .sandB => xs.foldl (· ^^^ ·) 0
  | _ => xs.sum % kmod k

/-- The share that `vsmul`, `vsand.b` or `vsb2a` gives one thread, from D and E (R223, R224, R226). -/
def shareResult (op : GateOp) (k party : Nat) (x : W32) (t : Triple) (d e : Nat) : Nat :=
  match op with
  | .sandB =>
    let z := t.c.toNat ^^^ (d &&& t.b.toNat) ^^^ (e &&& t.a.toNat)
    if party = 0 then z ^^^ (d &&& e) else z
  | _ =>
    let z := (t.c.toNat + d * t.b.toNat + e * t.a.toNat + (if party = 0 then d * e else 0)) % kmod k
    match op with
    | .sb2a => subMod k (x.toNat % 2) (2 * z)
    | _ => z

/-- The triples that two parties popped are the two halves of valid bit triples. -/
def consistentBits (xs ys : List Triple) : Bool :=
  xs.length == ys.length && (xs.zip ys).all fun (x, y) => (x.a ^^^ y.a) &&& (x.b ^^^ y.b) == (x.c ^^^ y.c)

/-- The share of the sign bit that `vsltz` gives one thread (R225). Its two shares are free, but for their XOR, which is
bit k − 1 of the sum of the two shares of x when the dealt bit triples are consistent. -/
def sltzShare (opened conv ex k t party : Nat) (x0 x1 : W32) (valid : Bool) : W32 :=
  let r := Config.freeW32 3 opened (conv * 2 ^ 40 + ex * 2 ^ 8 + t) &&& 1
  if party = 0 then r
  else if valid then
    r ^^^ (if bitAt ((x0.toNat + x1.toNat) % kmod k) (k - 1) then 1 else 0)
  else Config.freeW32 4 opened (conv * 2 ^ 40 + ex * 2 ^ 8 + t) &&& 1

/-- The part of a party in an exchange. -/
def Exchange.part? (x : Exchange) (party : Nat) : Option Part := x.parts.find? fun p => p.party == party && !p.withdrawn

/-- Party `p` of an exchange sends its words to party `q` (R203, R227). -/
def Exchange.sends (x : Exchange) (p q : Nat) : Bool := p != q && bitAt (x.recips.getD p 0) q

/-- Every word bound for a party has crossed (R230). -/
def Exchange.got (x : Exchange) (np q : Nat) : Bool :=
  (List.range np).all fun p => !x.sends p q || (match x.part? p with
    | some pt => pt.joined && pt.nwords ≤ pt.crossed
    | none => false)

/-- Every party has joined. -/
def Exchange.allJoined (x : Exchange) (np : Nat) : Bool :=
  (List.range np).all fun p => match x.part? p with | some pt => pt.joined | none => false

/-- The party receives every other party's share (R227). -/
def Exchange.receivesAll (x : Exchange) (np q : Nat) : Bool := (List.range np).all fun p => p == q || x.sends p q

/-- The vector elements that an exchange gives a party (R223 to R227). -/
def Exchange.elems (x : Exchange) (cn np q : Nat) (pt : Part) : List (Nat × Nat × W32) :=
  let parts := (List.range np).filterMap x.part?
  let col := fun (f : Nat × Nat → Nat) (i : Nat) => parts.map fun p => f (p.masked.getD i (0, 0))
  match pt.op with
  | .xopen _ _ _ _ _ => []
  | .sopen =>
    if x.receivesAll np q then
      pt.items.mapIdx fun i it =>
        (pt.dst, it.1, BitVec.ofNat 32 ((parts.map fun p => ((p.items.getD i (0, 0, 0)).2.1).toNat).sum % kmod pt.k))
    else []
  | .sltz =>
    let x0 := (x.part? 0).getD pt
    let x1 := (x.part? 1).getD pt
    let each := if pt.k = 16 then 2 else 3
    let own := fun (p : Part) (i : Nat) => ((p.popped.getD []).drop (each * i)).take each
    pt.items.mapIdx fun i it =>
      (pt.dst, it.1, sltzShare x.opened cn x.num pt.k it.1 q (x0.items.getD i (0, 0, 0)).2.1
        (x1.items.getD i (0, 0, 0)).2.1 (consistentBits (own x0 i) (own x1 i)))
  | op =>
    pt.items.mapIdx fun i it =>
      let t := (pt.popped.getD []).getD i ⟨0, 0, 0, 0⟩
      (pt.dst, it.1, BitVec.ofNat 32 (shareResult op pt.k q it.2.1 t (combine op pt.k (col (·.1) i))
        (combine op pt.k (col (·.2) i))))

/-- The bytes that an `xopen` writes at a recipient (R227). -/
def Exchange.tile (x : Exchange) (np q : Nat) (pt : Part) : Option (List Byte) :=
  if x.receivesAll np q then
    let cols := ((List.range np).filterMap x.part?).map fun p => elemsOf pt.k p.bytes
    some ((List.range pt.nwords).flatMap fun i => leBytes (pt.k / 8) ((cols.map fun c => c.getD i 0).sum % kmod pt.k))
  else none

/-- Bytes of an engine's or the gate's range checked page by page (R36) or against the slice allocation (R34): the first
failure with its address, a poisoned line, or the places in order, each with its length. -/
inductive Range where
  | ok (pls : List (Place × Nat))
  | fail (c : Cause) (detail : Nat) (addr : W64)
  | poison (line : Nat)
deriving DecidableEq, Repr

/-- The pieces of a global range, at most `fuel` of them, none crossing a multiple of 64 KiB. -/
def State.globalRange (s : State) (part ctx : Nat) (need : Perm) (a n : Nat) : (fuel : Nat) → Range
  | 0 => .ok []
  | fuel + 1 =>
    if n = 0 then .ok []
    else
      let k := min n (0x10000 - a % 0x10000)
      match s.translate part ctx (BitVec.ofNat 64 a) need with
      | .fail c d => .fail c d (BitVec.ofNat 64 a)
      | .poison l => .poison l
      | .ok dev e => match State.globalRange s part ctx need ((a + k) % 2 ^ 64) (n - k) fuel with
        | .ok pls => .ok ((.hbm dev (slotOf e) (worldId part ctx), k) :: pls)
        | r => r

/-- The pieces of a slice range of a team. DESIGN CHOICE (log 30): the faulting address of a range that leaves the window is its
first byte. DESIGN CHOICE (log 13): a range of a pair that runs from the even core's allocation into the odd core's is two
pieces, where R34 fails one access that spans both. -/
def State.sliceRange (s : State) (team a n : Nat) : Range :=
  match s.team? team with
  | none => .fail .sliceBounds 0 (BitVec.ofNat 64 a)
  | some t =>
    match t.window a n with
    | some p => .ok [(.slice p, n)]
    | none =>
      if t.pair && a < t.sliceLen && a + n ≤ 2 * t.sliceLen then
        .ok [(.slice (sliceSize * t.core + t.sliceOff + a), t.sliceLen - a),
          (.slice (sliceSize * (t.core + 1) + t.sliceOff), a + n - t.sliceLen)]
      else .fail .sliceBounds 0 (BitVec.ofNat 64 a)

/-- The pieces of a range in a space of the issuing group: global or slice window. -/
def State.range (s : State) (part ctx team : Nat) (slice : Bool) (need : Perm) (a n : Nat) : Range :=
  if slice then s.sliceRange team a n else s.globalRange part ctx need a n (n / 0x10000 + 2)

/-- The first line of a range whose read consumes an error. -/
def State.badIn (s : State) (pls : List (Place × Nat)) : Option Nat := pls.findSome? fun p => s.badLine p.1 p.2

/-- The bytes of a range. -/
def State.readRange (s : State) (pls : List (Place × Nat)) : List Byte := pls.flatMap fun p => s.readAt p.1 p.2

/-- The state with the bytes of a range written. -/
def State.writeRange (s : State) : List (Place × Nat) → List Byte → State
  | [], _ => s
  | (pl, n) :: rest, bs => State.writeRange (s.writeAt pl (bs.take n)) rest (bs.drop n)

/-- The detail bits of a failed access: write, atomic (R149). -/
def accessDetail (d : Nat) (write atomic : Bool) : W32 := BitVec.ofNat 32 (d + 2 * b2n write + 4 * b2n atomic)

/-- How an error names an instruction that a group issued (R344): the first word of its run, and its run index. -/
def Group.namedAt (g : Group) (ticket : Nat) : Nat × Nat :=
  let xpc := if ticket / 32 = g.tag then g.runPc else match g.yielded with
    | some y => y.xpc
    | none => g.runPc
  (xpc.toNat, ticket % 32)

/-- An error that a walker of the gate met for an instruction (R344): it is consumed by the next step. -/
def State.errorNext (s : State) (g : Group) (ticket line : Nat) : State :=
  { s with moves := .badLine line (some (g.namedAt ticket)) :: s.moves }

/-- The partition of a core. -/
def State.partOn (s : State) (core : Nat) : Nat := ((s.parts.find? fun p => p.holdsCore core).map (·.num)).getD 32

/-- What a part of an exchange returns to its group: to one that is gone, a return that will be dropped (R19). -/
def State.partRet (s : State) (pt : Part) (r : Result) : State :=
  if (s.group? pt.uid).isNone then s.retLost pt.uid pt.idx (s.partOn pt.core) pt.core else s.ret pt.uid pt.idx r

/-- A part of an exchange fails, in the threads of its instruction and with the index of its first triple (R208). -/
def State.partFail (s : State) (c : Conv) (x : Exchange) (pt : Part) (cause : Cause) (reason : Nat) : State :=
  s.partRet pt (Result.failed ⟨pt.idx, cause, BitVec.ofNat 64 pt.firstIdx, gateMask pt.op pt.items,
    gateDetail c.num c.state pt.party x.kind reason, cause.replayable⟩)

/-- The result that an exchange gives a party, with the bytes of `xopen` written (R222, R227). -/
def State.finishPart (s : State) (c : Conv) (x : Exchange) (pt : Part) : State :=
  let res : Result := { Result.empty with elems := x.elems c.num c.np pt.party pt }
  match pt.op with
  | .xopen dst _ _ dstSlice _ =>
    match x.tile c.np pt.party pt, s.group? pt.uid with
    | some bs, some g =>
      match s.range g.part g.ctx g.team dstSlice .write dst.toNat bs.length with
      | .ok pls => (s.writeRange pls bs).ret pt.uid pt.idx res
      | .fail cause d a => s.ret pt.uid pt.idx (Result.failed ⟨pt.idx, cause, a, 0, accessDetail d true false,
          cause.replayable⟩)
      | .poison l => s.errorNext g pt.idx l
    | _, _ => s.partRet pt res
  | _ => s.partRet pt res

/-- The exchange with a party's part replaced, or added. -/
def Exchange.setPart (x : Exchange) (pt : Part) : Exchange :=
  { x with parts := (x.parts.filter fun p => p.party != pt.party) ++ [pt] }

/-- The conversation with an exchange replaced. -/
def Conv.setExchange (c : Conv) (x : Exchange) : Conv :=
  { c with exchanges := c.exchanges.map fun y => if y.num == x.num then x else y }

/-- The first attribute in which a part differs from the record (R228): its reason, or none. DESIGN CHOICE (log 16): the count of
active threads of a `vsopen` and the length of an `xopen` are compared as numbers, so that 64 threads and 64 bytes of one type
do not differ. -/
def Exchange.differs (x : Exchange) (pt : Part) : Option Nat :=
  let spends := (pt.op.need pt.k pt.items.length).2 ≠ 0
  if spends && (match x.first with | some i => i != pt.firstIdx | none => false) then some 1
  else if x.count ≠ gateCount pt.op pt.items then some 2
  else if x.ty ≠ gateTy pt.op pt.k then some 3
  else none

/-- A mismatch (R228): every part of the exchange that is not finished fails, and the exchange is over; the triples that
it popped are burned with it. -/
def State.mismatch (s : State) (c : Conv) (x : Exchange) (reason : Nat) : State :=
  let s := s.setConv { c with exchanges := c.exchanges.filter fun y => y.num != x.num }
  x.parts.foldl (fun s pt =>
    if pt.withdrawn || pt.finished then s
    else s.partFail c x pt .tripleMismatch reason) s

/-- A part that has not popped its triples tries to (R222, R228, R229): it waits while the queue is short, while an earlier
part of its party waits, or while its group is halted. -/
def State.popPart (s : State) (cn ex party : Nat) : State :=
  match s.conv? cn with
  | none => s
  | some c => match c.exchanges.find? fun x => x.num == ex with
    | none => s
    | some x => match x.part? party with
      | none => s
      | some pt =>
        let (q, n) := pt.op.need pt.k pt.items.length
        let pa := c.party party
        let behind := n ≠ 0 && c.exchanges.any fun y => y.num < ex && match y.part? party with
          | some p => p.popped.isNone
          | none => false
        if pt.popped.isSome || s.isHalted pt.uid then s
        else if behind || (pa.queue q).length < n then s.markWaited pt.uid pt.idx
        else
          let pt := { pt with popped := some ((pa.queue q).take n) }
          let c := c.setParty party (pa.setQueue q ((pa.queue q).drop n))
          match x.differs pt with
          | some why => s.mismatch c (x.setPart pt) why
          | none =>
            let x := x.setPart pt
            let x := if n ≠ 0 && x.first.isNone then { x with first := some pt.firstIdx } else x
            s.setConv (c.setExchange x)

/-- The parts of a party that wait for triples try again, oldest first. -/
def State.feed (s : State) (cn party : Nat) : State :=
  match s.conv? cn with
  | none => s
  | some c => (c.exchanges.map (·.num)).foldl (fun s ex => s.popPart cn ex party) s

/-- The parts of every party that wait for triples try again. -/
def State.feedAll (s : State) (cn : Nat) : State :=
  match s.conv? cn with
  | none => s
  | some c => (List.range c.np).foldl (fun s p => s.feed cn p) s

/-- The oldest batch of a queue moved into it for the party's first waiting accept of that queue, if both are there and
there is room (R218). -/
def State.tryAccept (s : State) (cn party q : Nat) : State :=
  match s.conv? cn with
  | none => s
  | some c =>
    let pa := c.party party
    match pa.inbox q, pa.accepts.find? fun a => a.2.2 == q with
    | some b, some (uid, idx, _) =>
      match s.group? uid with
      | none => s
      | some g =>
        let ps := g.pends ++ (match g.yielded with | some y => y.pends | none => [])
        match ps.findSome? fun p => if p.idx = idx then (match p.op with | .taccept _ _ a l => some (a, l) | _ => none)
            else none with
        | none => s
        | some (addr, len) =>
          let done := { pa.setInbox q none with accepts := pa.accepts.erase (uid, idx, q) }
          let freed := fun (s : State) =>
            if q = 2 then { s with pkg := { s.pkg with tilePool := s.pkg.tilePool - b.len } } else s
          if len.toNat ≠ b.len then
            (freed (s.setConv (c.setParty party done))).convFail c party 0 uid idx .tripleMismatch 5
          else if q = 2 then
            match s.range g.part g.ctx g.team false .write addr.toNat b.len with
            | .ok pls => ((freed (s.setConv (c.setParty party done))).writeRange pls b.bytes).ret uid idx Result.empty
            | .fail cause d a => (s.setConv (c.setParty party { pa with accepts := pa.accepts.erase (uid, idx, q) })).ret
                uid idx (Result.failed ⟨idx, cause, a, 0, accessDetail d true false, cause.replayable⟩)
            | .poison l => s.errorNext g idx l
          else if pa.cap q < (pa.queue q).length + b.triples.length then s
          else
            (s.setConv (c.setParty party (done.setQueue q (pa.queue q ++ b.triples)))).ret uid idx Result.empty
    | _, _ => s

/-- The waiting accepts of every party of a conversation try again, whatever freed their queue or filled their inbox. -/
def State.acceptAll (s : State) (cn : Nat) : State :=
  match s.conv? cn with
  | none => s
  | some c => (List.range c.np).foldl (fun s p => [0, 1, 2].foldl (fun s q => s.tryAccept cn p q) s) s

/-- Waiting parts and accepts of a conversation tried again until none of them goes on, at most `n` rounds: a pop makes
room for an accept, and an accept gives triples to a part (R218, R229). -/
def State.settleRounds (s : State) (cn : Nat) : Nat → State
  | 0 => s
  | n + 1 => State.settleRounds ((s.feedAll cn).acceptAll cn) cn n

/-- What waits at a conversation for triples or for room tried again: a round for each of the parts and accepts, and one
more. -/
def State.settle (s : State) (cn : Nat) : State :=
  match s.conv? cn with
  | none => s
  | some c => s.settleRounds cn ((c.exchanges.map fun x => x.parts.length).sum
      + (c.parties.map fun p => p.accepts.length).sum + 1)

/-- Why a gate share instruction is out of turn for a role (R207): the oldest open exchange that its party has not joined is of
another kind, or, without one, the step that would open an exchange is not permitted. -/
def State.shareRefused (s : State) (c : Conv) (role : Nat) (op : GateOp) : Option Nat :=
  match c.exchanges.find? fun x => (x.part? role).isNone with
  | some x => if x.kind ≠ op.kind then some 7 else none
  | none => match s.permitted c role op.kind, s.choreo? c.choreo with
    | some _, some _ => none
    | _, _ => some 1

/-- A gate share instruction at the gate, once its role is resolved (R207, R222): it joins the oldest open exchange that
its party has not joined, or opens one by a step. `bytes` are those an `xopen` read. -/
def State.gateShare (s : State) (c : Conv) (role uid idx : Nat) (op : GateOp) (k dst : Nat)
    (items : List (Nat × W32 × W32)) (bytes : List Byte) : State :=
  let failed := fun (reason : Nat) =>
    s.gateFail uid idx .outOfTurn (gateDetail c.num c.state role op.kind reason) (gateMask op items) 0
  let core := match s.group? uid with | some g => g.core | none => 0
  let pt : Part := ⟨role, uid, idx, op, k, items, dst, none, bytes, 0, false, false, core⟩
  match c.exchanges.find? fun x => (x.part? role).isNone with
  | some x =>
    if x.kind ≠ op.kind then failed 7
    else ((s.setConv (c.setExchange (x.setPart pt))).popPart c.num x.num role).settle c.num
  | none => match s.permitted c role op.kind, s.choreo? c.choreo with
    | some e, some ch =>
      let masks := (List.range c.np).map fun p => entryMask (ch.entry c.state p op.kind)
      let x : Exchange := ⟨c.nextEx, op.kind, none, gateCount op items, gateTy op k, masks, [pt], s.tick⟩
      let c := { c with state := entryNext e, exchanges := c.exchanges ++ [x], nextEx := c.nextEx + 1 }
      ((s.setConv c).popPart c.num x.num role).settle c.num
    | _, _ => failed 1

/-! ## Dealing and accepting -/

/-- Triples from the bytes of a deal: 16 bytes each, with consecutive indices (R218). -/
def triplesOf (idx : Nat) : (n : Nat) → List Byte → List Triple
  | 0, _ => []
  | n + 1, bs =>
    ⟨idx, BitVec.ofNat 32 (leNat (bs.take 4)), BitVec.ofNat 32 (leNat ((bs.drop 4).take 4)),
      BitVec.ofNat 32 (leNat ((bs.drop 8).take 4))⟩ :: triplesOf (idx + 1) n (bs.drop 16)

/-- 4 GiB, the tile pool (R305). -/
def tilePoolSize : Nat := 0x100000000

/-- How a deal ends at the gate: in a state, by waiting, or by consuming a line's error. -/
inductive Dealt where
  | done (s : State)
  | waits
  | poison (line : Nat)
deriving DecidableEq, Repr

/-- The conversation and the role that a role register of a group names now (R198), if it is bound. -/
def State.roleAt (s : State) (uid reg : Nat) : Option (Nat × Nat) :=
  match s.group? uid with
  | some g => let v := g.gateRole.getD reg 0; if v = 0 then none else some (roleConv v, roleNum v)
  | none => none

/-- The role register that a conversation or gate instruction names (R198); none for another operation. -/
def DOp.roleReg : DOp → Option Nat
  | .cbind r _ | .csend r _ _ _ | .crecv r _ _ | .cdeleg r _ | .cstate r _ | .cabort r | .tsend r _ _ _ _
  | .taccept r _ _ _ | .tburn r _ _ => some r
  | .gate _ _ _ _ => some 0
  | _ => none

/-- The conversation and the role of an instruction that waits at the gate: none for `cbind`, which resolves a handle and no
register (R209), and for one whose register is unbound. -/
def Delayed.role (s : State) (d : Delayed) : Option (Nat × Nat) :=
  match d.op with
  | .cbind _ _ => none
  | op => op.roleReg.bind (s.roleAt d.uid)

/-- An instruction stands behind others that wait at the gate (R198, R232): one of its own group, or one of its role. -/
def Delayed.behind (s : State) (earlier : List Delayed) (d : Delayed) : Bool :=
  earlier.any fun e => e.uid == d.uid || (e.role s).isSome && e.role s == d.role s

/-- The instructions that wait at the gate and stand behind no other one, each with those before it. -/
def State.firstWaits (s : State) : List (List Delayed × Delayed) :=
  ((s.pkg.waits.inits.zip s.pkg.waits).filter fun x => !x.2.behind s x.1)

/-- A tile send that arrived before the step `since` waits for the tile pool (R305): sends that find it short are accepted
in order of arrival. -/
def State.tilesBefore (s : State) (since : Nat) : Bool :=
  s.firstWaits.any fun x => decide (x.2.since < since) && (match x.2.op, (x.2.role s).bind fun r => s.conv? r.1 with
    | .tsend _ q _ _ dst, some c => q == 2 && ((c.party dst).inbox 2).isNone
    | _, _ => false)

/-- `tfill` with dir send at the gate, once its role is resolved (R217, R218); `since` is the step of its arrival. -/
def State.gateDeal (s : State) (c : Conv) (role uid idx q : Nat) (addr len : W64) (dst since : Nat) : Dealt :=
  if c.np ≤ dst then .done (s.convFail c role 15 uid idx .outOfTurn 3)
  else match s.permitted c role 15, s.group? uid with
    | none, _ => .done (s.convFail c role 15 uid idx .outOfTurn 1)
    | _, none => .done s
    | some e, some g =>
      let pa := c.party dst
      if (pa.inbox q).isSome
          || (q == 2 && (decide (tilePoolSize < s.pkg.tilePool + len.toNat) || s.tilesBefore since)) then .waits
      else
        let n := if q = 2 then len.toNat else 16 * len.toNat
        match s.range g.part g.ctx g.team false .read addr.toNat n with
        | .fail cause d a => .done (s.ret uid idx (Result.failed ⟨idx, cause, a, 0, accessDetail d false false,
            cause.replayable⟩))
        | .poison l => .poison l
        | .ok pls => match s.badIn pls with
          | some l => .poison l
          | none =>
            let bs := s.readRange pls
            if q ≠ 2 && 2 ^ 32 < pa.next q + len.toNat then
              .done (s.convFail c role 15 uid idx .tripleMismatch 4)
            else
              let b : Batch := if q = 2 then ⟨[], bs, len.toNat⟩ else ⟨triplesOf (pa.next q) len.toNat bs, [], len.toNat⟩
              let pa := (pa.setInbox q (some b)).advance q (if q = 2 then 0 else len.toNat)
              let c := { c.setParty dst pa with state := entryNext e }
              let s := s.setConv c
              let s := if q = 2 then { s with pkg := { s.pkg with tilePool := s.pkg.tilePool + len.toNat } } else s
              .done ((s.ret uid idx Result.empty).settle c.num)

/-! ## The abort of a conversation -/

/-- A gate share instruction that an abort broke (R300, type 7): whose it is, and the words of its report. -/
structure Broken where
  party : Nat
  uid : Nat
  idx : Nat
  words : List Nat
deriving DecidableEq, Repr

/-- The class 2 or class 7 op of a gate share instruction, bit 6 set for class 7 (R300, type 7). -/
def gateOpCode (op : GateOp) (k : Nat) : Nat :=
  let h := if k = 16 then 0 else 1
  match op with
  | .smul => 0x08 + h | .sltz => 0x0C + h | .sb2a => 0x0E + h | .sandB => 0x11 | .sopen => 0x12 + h
  | .xopen _ _ _ _ _ => 0x5E

/-- What the report says of a broken gate share instruction (R300, type 7). -/
def brokenPart (c : Conv) (x : Exchange) (pt : Part) : Broken :=
  let others := (List.range c.np).filter fun p => x.sends p pt.party
  let got := (others.map fun p => match x.part? p with | some o => min o.crossed o.nwords | none => 0).sum
  let expd := (others.map fun p => match x.part? p with | some o => o.nwords | none => pt.nwords).sum
  let code := gateOpCode pt.op pt.k
  ⟨pt.party, pt.uid, pt.idx,
    [c.num + code % 64 * 2 ^ 16 + code / 64 * 2 ^ 22 + pt.idx % 32 * 2 ^ 24, pt.firstIdx,
      gateCount pt.op pt.items, if pt.popped.isSome then pt.crossed else 0, got, expd]⟩

/-- The ranges of consecutive indices of a list of triples. -/
def burnOf (party q : Nat) : List Triple → List Burn
  | [] => []
  | t :: ts => match burnOf party q ts with
    | b :: bs => if b.first = t.idx + 1 then ⟨party, q, t.idx, b.count + 1⟩ :: bs else ⟨party, q, t.idx, 1⟩ :: b :: bs
    | [] => [⟨party, q, t.idx, 1⟩]

/-- What the report says of a gate share instruction that still waited to be processed (R300, type 7): it has popped and
sent nothing. -/
def brokenWait (c : Conv) (role : Nat) (d : Delayed) : Option Broken :=
  match d.op with
  | .gate op k items _ =>
    let code := gateOpCode op k
    some ⟨role, d.uid, d.idx,
      [c.num + code % 64 * 2 ^ 16 + code / 64 * 2 ^ 22 + d.idx % 32 * 2 ^ 24, 0, gateCount op items, 0, 0, 0]⟩
  | _ => none

/-- The threads of a captured instruction that waits at the gate (R208). -/
def DOp.gateThreads : DOp → W64
  | .gate op _ items _ => gateMask op items
  | _ => 0

/-- The kind that a captured instruction names at the gate (R203, R206). DESIGN CHOICE (log 16): where R208 speaks of the step's
or the exchange's kind and the instruction is neither, a receive gives the kind that it names, and the others give 0. -/
def stepKind : DOp → Nat
  | .csend _ k _ _ | .crecv _ k _ => k
  | .tsend _ _ _ _ _ => 15
  | .gate op _ _ _ => op.kind
  | _ => 0

/-- An instruction that waits at the gate fails with the abort of a conversation (R230): its register names the conversation
now, and it is no `cbind` and no `cstate`; a `cbind` of its group that goes on waiting before it is to give that register
another binding, and then it goes on waiting as well. -/
def State.failsWith (s : State) (cn : Nat) (kept : List Delayed) (d : Delayed) : Bool :=
  (match d.op with | .cstate _ _ => false | _ => true) && (d.role s).any (fun r => r.1 == cn)
    && !kept.any fun e => e.uid == d.uid && (match e.op with | .cbind r _ => some r == d.op.roleReg | _ => false)

/-- The instructions at the gate that fail with the abort of a conversation, and those that go on waiting: `kept` of those
before. -/
def State.splitWaits (s : State) (cn : Nat) (kept : List Delayed) : List Delayed → List Delayed × List Delayed
  | [] => ([], kept)
  | d :: ds =>
    if s.failsWith cn kept d then
      let (f, k) := State.splitWaits s cn kept ds
      (d :: f, k)
    else State.splitWaits s cn (kept ++ [d]) ds

/-- What the abort of a conversation breaks and burns, with the state after it (R230). The status becomes ABORTED; each
gate share instruction completes if every word bound for its party has crossed, and fails otherwise; waiting receives,
sends, deals and accepts fail; queues and inboxes are emptied. Instructions of groups of `gone` are not completed. -/
structure Aborted where
  s : State
  broken : List Broken
  hit : List (Nat × Nat)
  burned : List Burn
deriving DecidableEq, Repr

/-- A part decided at an abort (R230). -/
def abortPart (c : Conv) (gone : List Nat) (x : Exchange) (a : Aborted) (pt : Part) : Aborted :=
  if pt.withdrawn || pt.finished then a
  else
    let w := (c.role pt.party).world
    if !gone.contains w && pt.joined && x.got c.np pt.party then { a with s := a.s.finishPart c x pt }
    else
      let burned := burnOf pt.party (pt.op.need pt.k 1).1 (pt.popped.getD [])
      { s := a.s.partFail c x pt .convAborted 0
        broken := a.broken ++ [brokenPart c x pt], hit := a.hit ++ [(pt.uid, pt.idx)], burned := a.burned ++ burned }

/-- The abort of a conversation (R230); nothing happens to one that is aborted already. -/
def State.abortConv (s : State) (cn : Nat) (gone : List Nat) : Aborted :=
  match s.conv? cn with
  | none => ⟨s, [], [], []⟩
  | some c =>
    if c.aborted then ⟨s, [], [], []⟩
    else
      let a := c.exchanges.foldl (fun a x => x.parts.foldl (abortPart c gone x) a) (⟨s, [], [], []⟩ : Aborted)
      let (fails, kept) := s.splitWaits cn [] s.pkg.waits
      let roleOf := fun (d : Delayed) => ((d.role s).map (·.2)).getD 0
      let waits := (List.range 4).flatMap (fun r => (c.role r).recvs.map fun w => (r, w.1, w.2.1, w.2.2, (0 : W64)))
        ++ (fails.map fun d => (roleOf d, d.uid, d.idx, stepKind d.op, d.op.gateThreads))
        ++ (List.range c.np).flatMap fun p => (c.party p).accepts.map fun w => (p, w.1, w.2.1, 0, 0)
      let s1 := waits.foldl (fun s (r, uid, idx, k, m) =>
        s.gateFail uid idx .convAborted (gateDetail c.num c.state r k 0) m 0) a.s
      let held := fails.filterMap fun d => brokenWait c (roleOf d) d
      let left := (List.range c.np).flatMap fun p =>
        let pa := c.party p
        burnOf p 0 pa.arith ++ burnOf p 1 pa.bools ++ burnOf p 0 ((pa.inA.map (·.triples)).getD [])
          ++ burnOf p 1 ((pa.inB.map (·.triples)).getD []) ++ (match pa.inT with | some b => [⟨p, 2, 0, b.len⟩] | none => [])
      let tiles := ((List.range c.np).map fun p => match (c.party p).inT with | some b => b.len | none => 0).sum
      let c' := { c with
        aborted := true, exchanges := []
        roles := c.roles.map fun r => { r with queue := [], recvs := [] }
        parties := c.parties.map fun p => { p with
          arith := [], bools := [], inA := none, inB := none, inT := none, accepts := [] } }
      let s2 := s1.setConv c'
      ⟨{ s2 with pkg := { s2.pkg with tilePool := s2.pkg.tilePool - tiles, waits := kept } }, a.broken ++ held,
        a.hit ++ waits.map (fun w => (w.2.1, w.2.2.1)), a.burned ++ left⟩

end Sys2Proof.Machine
end

