-- ==== Sys2Proof/Machine/Contain.lean ====
section
/-!
DEFINITION. Killing groups and worlds: disposition lists (R299, R300), error records (R331 to R334), containment of an
uncorrectable error (R296, R297, R344), and the reports of an aborted conversation (R230). DEDUCED: domains and causes
(log 27).
-/

namespace Sys2Proof.Machine

open Sys2Proof

/-- A number put into its place in an ascending list. -/
def insertNat (n : Nat) : List Nat → List Nat
  | [] => [n]
  | m :: ms => if n ≤ m then n :: m :: ms else m :: insertNat n ms

/-- A list in ascending order. -/
def sortNat (l : List Nat) : List Nat := l.foldr insertNat []

/-! ## Error records -/

/-- The error ring is enabled (R330, R331). -/
def Package.errOn (p : Package) : Bool := 4 ≤ p.errLog && p.errLog ≤ 12
/-- The error ring is enabled and has room. -/
def Package.errRoom (p : Package) : Bool := p.errOn && (p.errHead - p.errTail).toNat < 2 ^ p.errLog

/-- The report number after another (R332): from 2^32 − 1 to 1. -/
def nextReport (n : Nat) : Nat := if n + 1 < 2 ^ 32 then n + 1 else 1

/-- One record written to its slot of the error ring: then ERRHEAD advances, then MSI-X vector 0 is signalled (R331). -/
def State.errWrite (s : State) (r : Cper) : State :=
  let slot := s.pkg.errBase + BitVec.ofNat 64 (4096 * (s.pkg.errHead.toNat % 2 ^ s.pkg.errLog))
  { s with
    pkg := { s.pkg with errRing := s.pkg.errRing ++ [(slot, r)], errHead := s.pkg.errHead + 1 }
    interrupts := s.interrupts ++ [.msix] }

/-- One record with the next report number (R331, R332): written, or kept in the device's reserve of 256 records while
the ring is disabled, or lost. -/
def State.errPush (s : State) (r : Cper) : State :=
  let r := { r with report := s.pkg.reportNum }
  let s := { s with pkg := { s.pkg with reportNum := nextReport s.pkg.reportNum } }
  if s.pkg.errRoom && s.pkg.errHeld.isEmpty then s.errWrite r
  else if !s.pkg.errOn && s.pkg.errHeld.length < 256 then
    { s with pkg := { s.pkg with errHeld := s.pkg.errHeld ++ [r] } }
  else { s with pkg := { s.pkg with errLost := s.pkg.errLost + 1, errLostSince := s.pkg.errLostSince + 1 } }

/-- A record of a kind with its severity and unit, and nothing else. -/
def Cper.plain (kind severity unit : Nat) : Cper := ⟨severity, 0, kind, 0, 0xFF, 0, 0, unit, 0, []⟩

/-- Kept records written while there is room, at most `n` of them, then the record of kind 7 (R331). -/
def State.errFlush (s : State) : Nat → State
  | 0 => s
  | n + 1 =>
    if !s.pkg.errRoom then s
    else match s.pkg.errHeld with
      | r :: rest => State.errFlush { s.errWrite r with pkg := { (s.errWrite r).pkg with errHeld := rest } } n
      | [] =>
        if s.pkg.errLostSince = 0 then s
        else
          let lost := s.pkg.errLostSince
          { s with pkg := { s.pkg with errLostSince := 0 } }.errPush { Cper.plain 7 3 0 with addr := lost }

/-! ## What a list says -/

/-- Why a world is terminated, or a conversation aborted (R300, type 1). `named` is the `xpc` and run index of the
instruction that consumed the data. -/
structure Why where
  cause : Nat
  cls : Nat
  wide : Bool
  rep : Nat
  unit : Nat
  addr : Nat
  named : Option (Nat × Nat)
deriving DecidableEq, Repr

/-- A cause alone. -/
def Why.plain (cause : Nat) : Why := ⟨cause, 0, false, 0, 0, 0, none⟩

/-- All ones, in 64 bits. -/
def ones64 : Nat := 2 ^ 64 - 1

/-- The HEAD entry (R300). -/
def Why.head (y : Why) (world : Nat) : Entry :=
  ⟨1, world, [y.cause + y.cls * 2 ^ 8 + b2n y.wide * 2 ^ 16 + y.rep * 2 ^ 32, y.unit, y.addr,
    (match y.named with | some (x, _) => x | none => ones64), (match y.named with | some (_, i) => i | none => ones64)]⟩

/-- The reason as the list of a world that is destroyed names it: its own termination caused the list (R294, R300). -/
def Why.at (y : Why) (world : Nat) : Why := if y.cause = 7 || y.cause = 8 then { y with addr := world } else y

/-- The LAUNCH entry (R300). -/
def launchEntry (w : Nat) (l : Launch) (fate : Nat) : Entry :=
  ⟨2, w, [launchNumber l.lid + l.queue * 2 ^ 16 + fate * 2 ^ 20, l.placed, l.complete]⟩

/-- The TEAM entry (R300). -/
def teamEntry (w : Nat) (t : Team) (fate : Nat) : Entry := ⟨3, w, [t.tix, t.core, fate]⟩

/-- The run index that a report names for a group: its present instruction, or the last of its run, or none. -/
def Group.reportIdx (g : Group) : Nat :=
  match g.stat with
  | .running => g.runIdx
  | .ready => 0xFF
  | _ => g.runIdx - 1

/-- The GROUP entry (R300), with the generation after. -/
def groupEntry (g : Group) (fate : Nat) (gen : BitVec 32) (xpc : W64) (idx : Nat) : Entry :=
  ⟨4, worldId g.part g.ctx, [g.tix % 2 ^ 24 + g.gix % 32 * 2 ^ 24 + fate * 2 ^ 32, gen.toNat, xpc.toNat, idx]⟩

/-- The fate of a group that is killed (R300): at issue, halted, or parked. -/
def Group.killFate (g : Group) : Nat :=
  if g.halt ≠ .no then 3 else if g.stat = .running then 2 else 1

/-- The kind code of an engine operation, its barrier or buffer, and its destination (R176, Table 3; R300, type 5): that of
a push is its slot in the buffer, or the buffer itself while no slot is assigned. -/
def EngOp.report (bufs : List (Option CBuf)) : EngOp → Nat × Nat × W64
  | .mmloop _ c _ _ _ _ _ ab => (0, ab, c)
  | .cpy dst _ _ _ _ ab => (1, ab, dst)
  | .cunpack dst _ _ _ _ _ _ ab => (2, ab, dst)
  | .cbpush buf _ _ _ slot => (3, buf % 32, match bufs.getD buf none with
    | some b => BitVec.ofNat 64 (b.base + slot.getD 0 * b.size * 64)
    | none => 0)

/-- The ENGINE entry of an operation that its world's end brings to an end (R297, R300). -/
def State.engineEntry (s : State) (w : Nat) (e : EngEntry) : Entry :=
  let (k, ab, dst) := e.op.report (match s.team? e.team with | some t => t.bufs | none => [])
  ⟨5, w, [k + e.gix * 2 ^ 8 + e.idx * 2 ^ 16 + ab * 2 ^ 24 + 2 ^ 32, dst.toNat]⟩

/-- The REMOTE entry of a request that its world's end brings to an end (R297, R300): 0 executed, 1 not executed, 2 timed out. -/
def remoteEntry (w : Nat) (r : FabReq) (outcome : Nat) : Entry :=
  ⟨6, w, [r.rank, r.pkt.seq.toNat, (maskOf (r.pkt.threads.map (·.t))).toNat, outcome]⟩

/-- What became of a request, as its answers tell (R60, R168): it timed out, its target executed none of its threads, or it was
executed. DESIGN CHOICE (log 27): a request of which the target executed some threads and refused others counts as
executed. -/
def outcomeOf (answers : List PktAnswer) : Nat :=
  if answers.all fun a => (a.fail.map (·.1)) == some Cause.fabricTimeout.code then 2
  else if answers.all fun a => a.fail.isSome then 1
  else 0

/-- The entry of an operation that a group issued. -/
def Group.entry (g : Group) (op : EngOp) (idx : Nat) (fpm xpc : W64) (since : Nat) : EngEntry :=
  ⟨op, g.team, g.part, g.ctx, g.lid, g.uid, g.gix, idx, xpc, fpm, g.width, false, since, MmDone.start, none, [],
    g.fences.filter fun f => f.since < since⟩

/-- The engine operations that a group has issued and that wait for a queue entry or a copy slot (R171). -/
def Group.waitingOps (g : Group) : List EngEntry :=
  g.issued.filterMap fun p => match p.op with
    | .engine op fpm xpc => if p.st = .waiting || p.st = .withdrawn then some (g.entry op (p.idx % 32) fpm xpc p.since) else none
    | _ => none

/-- Entries of a list in the order of their type numbers (R300). -/
def byType (es : List Entry) : List Entry :=
  (List.range 13).flatMap fun ty => es.filter fun e => e.ty == ty

/-! ## What an aborted conversation's lists say -/

/-- A conversation aborted, with what the abort broke and burned. -/
structure AbortedConv where
  conv : Conv
  broken : List Broken
  hit : List (Nat × Nat)
  burned : List Burn
deriving DecidableEq, Repr

/-- The worlds that held a role (R230). -/
def Conv.worlds (c : Conv) : List Nat := ((c.roles.filter (·.used)).map (·.world)).dedup

/-- INSTR, TRIPLES and CONV entries of one conversation for one world (R230, R300). -/
def AbortedConv.entries (a : AbortedConv) (w : Nat) : List Entry :=
  let holds := fun r => (a.conv.role r).used && (a.conv.role r).world == w
  if a.conv.worlds.contains w then
    (a.broken.filter fun b => holds b.party).map (fun b => (⟨7, w, b.words⟩ : Entry))
      ++ (a.burned.filter fun b => holds b.party).map (fun b =>
        (⟨8, w, [a.conv.num + b.q * 2 ^ 16, b.first, b.count]⟩ : Entry))
      ++ [⟨9, w, [a.conv.num + a.conv.state * 2 ^ 16 + 2 * 2 ^ 24]⟩]
  else []

/-- What a group has issued may still fail in a way that is not known: it waits, nothing is on its way back for it, and it is neither
a system call nor a pop nor a barrier, whose failures halt no group (R26). -/
def State.outcomeOpen (s : State) (g : Group) (p : Pend) : Bool :=
  p.st == .waiting && !(s.returns.any fun r => r.uid == g.uid && r.gen == g.gen && r.idx == p.idx) && (match p.op with
    | .sys _ _ _ | .cbpop _ _ _ | .bar _ => false
    | _ => true)

/-- The fate of a group whose instruction an abort broke (R300, R301): 4, it enters its trap vector, if that is certain. Its run has
ended, and no failure of it goes to the control core (R28), also of what is on its way back; nothing that it has issued may fail
otherwise; and it is neither halted, nor to halt, nor does an armed trap state or a failure of a yielded run stand before. DEDUCED
(log 27): any other group is listed as one that runs on, with fate 0; if it halts, its TRAP entry tells of it. -/
def State.brokenFate (s : State) (g : Group) : Nat :=
  let fails := g.fails ++ (g.issued.filterMap fun p => match p.st with | .done r | .committed r => r.fail | _ => none)
    ++ (s.returns.filter fun r => r.uid == g.uid && r.gen == g.gen).filterMap fun r => r.res.fail
  if g.stat == .endRun && g.halt == .no && !g.preemptReq && !g.armed && g.yielded.isNone
    && !(fails.any fun f => f.cause.control) && !g.issued.any (s.outcomeOpen g) then 4 else 0

/-- LAUNCH, TEAM and GROUP entries of the groups of a world that goes on, whose instructions an abort broke: they run on,
and enter their trap vectors (R300, fates 0 and 4). -/
def State.touched (s : State) (w : Nat) (hit : List (Nat × Nat)) : List Entry :=
  (hit.flatMap fun (uid, idx) => match s.group? uid with
    | none => []
    | some g =>
      if worldId g.part g.ctx ≠ w then []
      else
        (match (s.part? g.part).bind fun p => p.launch? g.lid with | some l => [launchEntry w l 0] | none => [])
          ++ (match s.team? g.team with | some t => [teamEntry w t 0] | none => [])
          ++ [groupEntry g (s.brokenFate g) g.gen g.runPc (idx % 32)]).dedup

/-- Conversations aborted in turn. -/
def State.abortAll (s : State) (gone : List Nat) : List Nat → State × List AbortedConv
  | [] => (s, [])
  | cn :: cs =>
    match s.conv? cn with
    | none => State.abortAll s gone cs
    | some c =>
      let a := s.abortConv cn gone
      let (s', l) := State.abortAll a.s gone cs
      (s', ⟨c, a.broken, a.hit, a.burned⟩ :: l)

/-- The disposition lists of aborted conversations for worlds that go on (R230, R299). -/
def State.abortLists (s : State) (y : Why) (acs : List AbortedConv) : List Nat → State
  | [] => s
  | w :: ws =>
    let es := (acs.flatMap fun a => a.entries w) ++ s.touched w (acs.flatMap (·.hit))
    State.abortLists (s.reportList (w / 128) (y.head w :: byType es)) y acs ws

/-- A conversation aborted by `cabort` (cause 3) or CONV_DESTROY (cause 7) of a world (R215, R230, R306). -/
def State.abortBy (s : State) (cn cause world : Nat) : State :=
  let (s, acs) := s.abortAll [] [cn]
  s.abortLists { Why.plain cause with addr := world } acs
    (sortNat (acs.flatMap fun a => a.conv.worlds).dedup)

/-! ## Ending groups, teams and worlds -/

/-- The returns that are held for a halted group (R19, R261): what it waited for at its halt and has had since. -/
def Group.heldReturns (g : Group) : List Pend :=
  if g.halt = .no then [] else g.pends.filter fun p => match p.st with | .done _ => true | _ => false

/-- A group is gone: its allocation, its latch and its bindings with it, whatever the gate holds of it for instructions that
wait there, and what the fabric engine keeps for its replays. The writes that it issued are performed (R46); the returns that
were held for it are dropped, and count (R19). -/
def State.removeGroup (s : State) (uid : Nat) : State :=
  let lost := match s.group? uid with | some g => g.heldReturns.map fun _ => (g.part, g.core) | none => []
  let s := (s.performLate uid).dropGroup uid
  let s := lost.foldl (fun s x => s.genDrop x.1 x.2) s
  let s : State := { s with fabric := { s.fabric with sent := s.fabric.sent.filter fun r => r.uid != uid } }
  { s with pkg := { s.pkg with
      waits := s.pkg.waits.filter fun d => d.uid != uid
      convs := s.pkg.convs.map fun c => { c with
        roles := c.roles.map fun r => { r with recvs := r.recvs.filter fun w => w.1 != uid }
        parties := c.parties.map fun p => { p with accepts := p.accepts.filter fun w => w.1 != uid } } } }

/-- The crossings of a team's engine operations that no wait acquired (R90), with an action that reports. -/
def Team.unacquired (t : Team) : List Crossing :=
  (t.abars.flatMap fun b => b.missed ++ b.crossed).filter fun c => c.action == 1 || c.action == 2

/-- Each of them reported as an EVENT entry, which stands alone (R90, R300). -/
def State.reportUnacquired (s : State) (t : Team) : State :=
  t.unacquired.foldl (fun s c => s.reportList t.part [eventEntry (worldId t.part t.ctx) c.core c.cls c.xpc c.idx]) s

/-- A team is gone: its slice allocation is cleared and freed (R255), and its engine operations with it. -/
def State.removeTeam (s : State) (t : Team) : State :=
  let s := (s.reportUnacquired t).performAll
  let s := if t.spilled.isSome then s else s.clearSlices (sliceSize * t.core + t.sliceOff) t.sliceLen
  let s := if t.pair && t.spilledOdd.isNone then s.clearSlices (sliceSize * (t.core + 1) + t.sliceOff) t.sliceLen else s
  { s with
    teams := s.teams.filter fun u => u.uid != t.uid
    cores := s.cores.map fun c => { c with
      matrix := c.matrix.filter fun e => e.team != t.uid
      copies := c.copies.filter fun e => e.2.team != t.uid } }

/-- The groups of a launch. -/
def State.groupsOf (s : State) (part lid : Nat) : List Group := s.groups.filter fun g => g.part == part && g.lid == lid

/-- The last command of a partition is still taking effect (R250, R260, R262): a group of the launch has still to halt, or to
be back in place, or the launch to end. -/
def State.cmdOpen (s : State) (p : Partition) : Bool :=
  match p.cmd with
  | none => false
  | some (c, lid) => match p.launch? lid with
    | none => false
    | some l =>
      let gs := s.groupsOf p.num lid
      if c = 1 then gs.any fun g => g.halt == .no
      else if c = 2 then gs.any fun g => g.halt == .preempt
      else l.ending.isSome

/-- BUSY of the launch block (R250): it falls once the last command has taken effect. -/
def State.settleBusy (s : State) (part : Nat) : State :=
  s.updPart part fun p => { p with busy := s.cmdOpen p, cmd := if s.cmdOpen p then p.cmd else none }

/-- Every group and team of a launch gone, and the launch with them (R262, R297): a command on it has taken effect (R250). -/
def State.removeLaunch (s : State) (part lid : Nat) : State :=
  let gs := s.groups.filter fun g => g.part == part && g.lid == lid
  let s := gs.foldl (fun s g => s.removeGroup g.uid) s
  let ts := s.teams.filter fun t => t.part == part && t.lid == lid
  let s := ts.foldl State.removeTeam s
  let s : State := { s with kept := s.kept.filter fun k => !(k.part == part && k.lid == lid) }
  (s.updPart part fun p => { p with launches := p.launches.filter fun l => l.lid != lid }).settleBusy part

/-- The GROUP entry of a group that is killed (R300). -/
def Group.killEntry (g : Group) : Entry := groupEntry g g.killFate (g.gen + 1) g.runPc g.reportIdx

/-- The ENGINE entries of operations that groups have issued and that no engine has accepted (R300, type 5). -/
def State.waitingEngine (s : State) (w : Nat) (gs : List Group) : List Entry :=
  gs.flatMap fun g => g.waitingOps.map (s.engineEntry w)

/-- The entries of a launch that is ended, with its teams, groups and engine operations, and with what its end has brought to an end
before (R262, R300). -/
def State.launchEntries (s : State) (w : Nat) (l : Launch) (coop : Bool) : List Entry :=
  let part := w / 128
  let fate := if coop then 2 else if l.placed = 0 then 3 else 1
  let gs := s.groups.filter fun g => g.part == part && g.lid == l.lid
  launchEntry w l fate ::
    ((s.teams.filter fun t => t.part == part && t.lid == l.lid).map fun t => teamEntry w t 1)
    ++ gs.map Group.killEntry
    ++ (s.cores.flatMap fun c => ((c.matrix ++ c.copies.map (·.2)).filter fun e => e.part == part && e.lid == l.lid).map
      (s.engineEntry w))
    ++ s.waitingEngine w gs ++ l.gone

/-- The remote requests of a launch that are in flight, each with its entry of a list (R297, step 4; R300). -/
def State.launchRemote (s : State) (w lid : Nat) : List (Nat × Entry) :=
  (s.fabric.reqs.filter fun r => r.part == w / 128 && r.lid == lid).map fun r => (r.id, remoteEntry w r 2)

/-- The gate share instructions of some groups that wait at the gate for their turn and name a role of a conversation (R300,
type 7). -/
def State.waitingShares (s : State) (c : Conv) (mine : Nat → Bool) : List Broken :=
  s.pkg.waits.filterMap fun d => match d.role s with
    | some (cn, r) => if cn == c.num && mine d.uid then brokenWait c r d else none
    | none => none

/-- What groups that are killed, while their world goes on, held at the gate (R266, R300): their gate share instructions,
the triples that these had popped, and the conversations that their role registers name. -/
def State.gateEntries (s : State) (w : Nat) (gs : List Group) : List Entry :=
  let mine := fun (uid : Nat) => gs.any fun g => g.uid == uid
  s.pkg.convs.flatMap fun c =>
    let parts := c.exchanges.flatMap fun x => (x.parts.filter fun p => mine p.uid && !p.finished && !p.withdrawn).map
      fun p => (x, p)
    let held := s.waitingShares c mine
    let broken := parts.map (fun (x, p) => brokenPart c x p) ++ held
    let bound := gs.any fun g => g.gateRole.any fun v => v ≠ 0 && roleConv v == c.num
    broken.map (fun b => (⟨7, w, b.words⟩ : Entry))
      ++ (parts.flatMap fun (_, p) => burnOf p.party (p.op.need p.k 1).1 (p.popped.getD [])).map
        (fun b => (⟨8, w, [c.num + b.q * 2 ^ 16, b.first, b.count]⟩ : Entry))
      ++ (if bound || !broken.isEmpty then
        [⟨9, w, [c.num + c.state * 2 ^ 16 + (if c.aborted then 2 else 1) * 2 ^ 24]⟩] else [])

/-- The launches of a world. -/
def State.launchesOf (s : State) (w : Nat) : List Launch :=
  match s.part? (w / 128) with
  | none => []
  | some p => p.launches.filter fun l => l.ctx == w % 128

/-- The TLB entries of a world dropped (R294). -/
def State.dropTlb (s : State) (w : Nat) : State :=
  { s with tlb := s.tlb.filter fun t => worldId t.part t.ctx != w }

/-- The launches of worlds ended (R297, steps 2 to 4). -/
def State.endWorlds (s : State) : List Nat → State
  | [] => s
  | w :: ws =>
    let s := (s.launchesOf w).foldl (fun s l => s.removeLaunch (w / 128) l.lid) s
    State.endWorlds (s.dropTlb w) ws

/-- The open list of a world that is being terminated already, with the HEAD record of another error of its domain behind those
that stand there, and with what that error ends beside (R298). -/
def OpenList.addHead (y : Why) (es : List Entry) (waits : List (Nat × Entry)) (o : OpenList) : OpenList :=
  { o with entries := o.entries ++ (y.at o.world).head o.world :: es, waits := o.waits ++ waits }

/-- A world is being terminated: its list is not written yet (R298). -/
def State.ending (s : State) (w : Nat) : Bool := s.openLists.any fun o => o.ended && o.world == w

/-- An open list can be written: the remote requests of its world have been acknowledged or have timed out (R297, step 4), and
no list of the same partition stands before it. -/
def OpenList.ready (earlier : List OpenList) (o : OpenList) : Bool :=
  o.waits.isEmpty && !earlier.any fun e => e.world / 128 == o.world / 128

/-- The open lists that can be written now, and those that stay open: `kept` of those before. -/
def splitLists (kept : List OpenList) : List OpenList → List OpenList × List OpenList
  | [] => ([], kept)
  | o :: os =>
    if o.ready kept then
      let (r, k) := splitLists kept os
      (o :: r, k)
    else splitLists (kept ++ [o]) os

/-- Some open list can be written. -/
def State.listsReady (s : State) : Bool := !(splitLists [] s.openLists).1.isEmpty

/-- The open lists that can be written are, each to the ring of its partition, in their order (R298, R299). -/
def State.closeLists (s : State) : State :=
  let (due, kept) := splitLists [] s.openLists
  due.foldl (fun s o => s.reportList (o.world / 128) (byType o.entries)) { s with openLists := kept }

/-- A remote request that an open list waits for has ended (R60, R297): its entry gets its outcome. -/
def State.settleRemote (s : State) (r : FabReq) (answers : List PktAnswer) : State :=
  { s with openLists := s.openLists.map fun o =>
    { o with
      entries := o.entries ++ (o.waits.filter fun x => x.1 == r.id).map fun x => remoteEntry x.2.world r (outcomeOf answers)
      waits := o.waits.filter fun x => x.1 != r.id } }

/-- Worlds terminated (R294, R297): everything of theirs is ended and cleared, every conversation in which one holds a
role is aborted (R230), and each affected world gets its list, in ascending world order. A world that goes on is
told of the abort by a peer's termination (HEAD cause 2), the terminated world named in word 3. The lists stay open: an
error whose domain holds a world that is being terminated adds its HEAD record to that world's list (R298), and a list is
written once the remote requests of its world have ended (R297). -/
def State.terminateWorlds (s : State) (ws : List Nat) (y : Why) : State :=
  let all := sortNat ws.dedup
  let ended := fun (w : Nat) =>
    let mine := fun (u : Nat) => s.groups.any fun g => g.uid == u && worldId g.part g.ctx == w
    ((s.launchesOf w).flatMap fun l => s.launchEntries w l (y.cause == 6))
      ++ s.pkg.convs.flatMap fun c => (s.waitingShares c mine).map fun b => (⟨7, w, b.words⟩ : Entry)
  let remote := fun (w : Nat) => (s.launchesOf w).flatMap fun l => s.launchRemote w l.lid
  let own := all.map fun w => (w, ended w, remote w)
  let entriesOf := fun (w : Nat) => (own.filter fun o => o.1 == w).flatMap fun o => o.2.1
  let waitsOf := fun (w : Nat) => (own.filter fun o => o.1 == w).flatMap fun o => o.2.2
  let ws := all.filter fun w => !s.ending w
  let s := (s.endWorlds all).castWorlds all
  let cns := (s.pkg.convs.filter fun c => !c.aborted && c.worlds.any all.contains).map (·.num)
  let (s, acs) := s.abortAll all cns
  let again := fun (o : OpenList) =>
    let ces := acs.flatMap fun a => a.entries o.world
    if !o.ended then o
    else if all.contains o.world then o.addHead y (entriesOf o.world ++ ces) (waitsOf o.world)
    else { o with entries := o.entries ++ ces }
  let s : State := { s with openLists := s.openLists.map again }
  let lists := ((sortNat (ws ++ acs.flatMap fun a => a.conv.worlds).dedup).filter fun w => !s.ending w).map fun w =>
    let ces := acs.flatMap fun a => a.entries w
    if ws.contains w then
      (⟨w, true, (y.at w).head w :: (entriesOf w ++ ces), waitsOf w⟩ : OpenList)
    else
      let mine := acs.filter fun a => a.conv.worlds.contains w
      let src? := (mine.flatMap fun a => a.conv.worlds.filter all.contains).head?
      let es := ces ++ s.touched w (mine.flatMap (·.hit))
      ⟨w, false, { Why.plain 2 with rep := y.rep, addr := src?.getD 0 }.head w :: es, []⟩
  { s with openLists := s.openLists ++ lists }

/-- A launch ended by a command or by the removal of its cores (R262, R266): its list, with what its end has brought to an
end before, and nothing else of its world. The list is written once the launch's remote requests have ended (R297). -/
def State.terminateLaunch (s : State) (part lid : Nat) (y : Why) : State :=
  match (s.part? part).bind fun p => p.launch? lid with
  | none => s
  | some l =>
    let w := worldId part l.ctx
    let gs := s.groups.filter fun g => g.part == part && g.lid == lid
    let es := y.head w :: (s.launchEntries w l (y.cause == 6) ++ s.gateEntries w gs)
    let remote := s.launchRemote w lid
    let s := s.removeLaunch part lid
    if remote.isEmpty then s.reportList part (byType es)
    else { s with openLists := s.openLists ++ [⟨w, false, es, remote⟩] }

/-! ## Containment -/

/-- Every world of a partition (R296, R293). -/
def Partition.worlds (p : Partition) : List Nat := p.contexts.map fun c => worldId p.num c.id

/-- An uncorrectable error contained (R296, R297, R332, R334): its record, then the end of its domain. The record names also
the worlds `more` that the loss of a route will end, and whether the infrastructure is affected. -/
def State.contain (s : State) (cls : Nat) (ws more : List Nat) (wide infra : Bool) (unit addr dev : Nat)
    (named : Option (Nat × Nat)) : State :=
  let rep := s.pkg.reportNum
  let ws := sortNat ws.dedup
  let listed := sortNat (ws ++ more).dedup
  let parts := (listed.map fun w => w / 128).dedup
  let mask : BitVec 32 := BitVec.ofNat 32 (idxMask (parts.filter fun p => p < 24) + if infra then 2 ^ 31 else 0)
  let poisoned := cls == 9 || cls == 10
  let flags := b2n wide + 2 * b2n poisoned + 8 * b2n (1024 < listed.length)
  let s := s.errPush ⟨0, 0, 0, 1, cls, flags, mask, unit, dev, listed.take 1024⟩
  s.terminateWorlds ws ⟨1, cls, wide, rep, unit, addr, named⟩

/-- The cores on which a team stands. -/
def Team.cores (t : Team) : List Nat := if t.pair then [t.core, t.core + 1] else [t.core]

/-- The teams on a core. -/
def State.teamsOn (s : State) (core : Nat) : List Team := s.teams.filter fun t => t.cores.contains core && t.spilled.isNone

/-- A team's slice allocation holds an offset. -/
def Team.holdsOff (t : Team) (off : Nat) : Bool := decide (t.sliceOff ≤ off) && decide (off < t.sliceOff + t.sliceLen)

/-- The world of a team. -/
def Team.world (t : Team) : Nat := worldId t.part t.ctx

/-- The domain of an error of a slice line (R296, class 2): the line's world, or every world with an allocation on its core. -/
def State.sliceDomain (s : State) (core off : Nat) (readable : Bool) : List Nat :=
  ((s.teamsOn core).filter fun t => if readable then t.holdsOff off else 0 < t.sliceLen).map Team.world

/-- The error of a slice line is consumed (R297, R344): class 2. The line is cleared with the entries of its domain. -/
def State.sliceError (s : State) (a : Nat) (named : Option (Nat × Nat)) : State :=
  let readable := (s.sliceErrs.find? fun e => e.1 == a).all (·.2)
  let core := a / sliceSize
  (s.contain 2 (s.sliceDomain core (a % sliceSize) readable) [] (!readable) false core (a % sliceSize) 0 named).clearSlices a 64

/-- The error of a line is consumed (R297, R344). That of an HBM line has class 10, or class 9 if its bytes are `modified` in a
cache: the line is poisoned, and every context of the partition that owns it is terminated. -/
def State.lineErrorAs (s : State) (modified : Bool) (line : Nat) (named : Option (Nat × Nat)) : State :=
  if sliceMark ≤ line then s.sliceError (line - sliceMark) named
  else
    let l := s.line line
    let cls := if modified then 9 else 10
    let s := s.setLine { l with poisoned := true }
    match s.ownerOf line with
    | none => s.contain cls [] [] false true 0 line line named
    | some p => s.contain cls p.worlds [] false false 0 (line - p.base) line named

/-- The error of a line is consumed, as the line stands (R297). -/
def State.lineError (s : State) (line : Nat) (named : Option (Nat × Nat)) : State :=
  s.lineErrorAs (s.line line).dirty line named

/-- An instruction of a group consumes the error of a line (R297, R344): it is named by the first word of its run and its
run index. -/
def State.consume (s : State) (g : Group) (line : Nat) : State :=
  s.lineError line (some (g.runPc.toNat, g.runIdx))

/-- An instruction that a group issued consumes the error of a line, also when it is issued again (R29, R297, R344). -/
def State.consumeAt (s : State) (g : Group) (ticket line : Nat) : State := s.lineError line (some (g.namedAt ticket))

/-- The fetch of a group's next instruction consumes the error of a line: class 10 in any case (R64, R344). -/
def State.consumeFetch (s : State) (g : Group) (line : Nat) : State :=
  s.lineErrorAs false line (some (g.runPc.toNat, g.runIdx))

/-- An instruction consumes a poisoned register element (R30): class 0, the group's world. -/
def State.consumeReg (s : State) (g : Group) : State :=
  s.contain 0 [worldId g.part g.ctx] [] false false g.core 0 0 (some (g.runPc.toNat, g.runIdx))

end Sys2Proof.Machine
end

