-- ==== Sys2Proof/Machine/Sleep.lean ====
section
/-!
DEFINITION. The end of retain-sleep entry (R327): once every launch is halted and nothing is in flight, the package
falls asleep. DESIGN CHOICE: what holds up the entry (log 25).
-/

namespace Sys2Proof.Machine

open Sys2Proof

/-- Steps 2 and 3 of the entry are over: every group is halted, every engine operation has completed, every remote request
is acknowledged or has timed out, and nothing is on its way. A push waits for a slot of its ring as long as none is free (R194). -/
def State.entryDone (s : State) : Bool :=
  s.pkg.sleepSt == .entering && s.allHalted
    && (s.cores.all fun c => c.matrix.isEmpty && c.copies.isEmpty)
    && s.fabric.reqs.isEmpty && s.returns.isEmpty

/-- The state that is saved, under a key (R327, step 4). -/
def State.sleepImage (s : State) (key : BitVec 256) : SleepImage where
  key := key
  groups := s.groups
  teams := s.teams
  cores := s.cores
  slices := s.slices
  sliceErrs := s.sliceErrs
  parts := s.parts
  choreos := s.pkg.choreos
  convs := s.pkg.convs
  pendConvs := s.pkg.pendConvs
  waits := s.pkg.waits
  tilePool := s.pkg.tilePool
  fabric := s.fabric
  svc := s.svc
  latent := s.latent
  kept := s.kept
  openLists := s.openLists

/-- The machine without the power that holds what was saved (R327, step 6). -/
def State.unpowered (s : State) : State :=
  { s with
    groups := [], teams := [], cores := [], slices := [], sliceErrs := [], parts := []
    fabric := { Fabric.reset with coldStarts := s.fabric.coldStarts }
    svc := [], latent := [], kept := [], openLists := []
    pkg := { s.pkg with choreos := [], convs := [], pendConvs := [], waits := [], tilePool := 0 } }

/-- The saved state restored (R328, step 4): every piece of it as it was. -/
def State.awakened (s : State) (x : SleepImage) : State :=
  { s with
    groups := x.groups, teams := x.teams, cores := x.cores, slices := x.slices, sliceErrs := x.sliceErrs, parts := x.parts
    fabric := x.fabric, svc := x.svc, latent := x.latent, kept := x.kept, openLists := x.openLists
    pkg := { s.pkg with
      choreos := x.choreos, convs := x.convs, pendConvs := x.pendConvs, waits := x.waits, tilePool := x.tilePool
      sleepImage := none } }

/-- Steps 4 to 6 of the entry, if steps 2 and 3 are over: the state saved under a fresh sleep key, TLBs dropped, caches
written back, responders back in their first state, and everything but the retention SRAM and the memory in self-refresh
without power. -/
def State.sleepIfDue (s : State) : State :=
  if !s.entryDone then s
  else
  let s := s.performAll
  let key := Config.randomKey 4 s.pkg.keyDraws
  let t := s.unpowered
  { t with
    tlb := []
    lines := (s.castLines fun _ => true).lines
    pkg := { t.pkg with
      sleepSt := .asleep, powered := false, keyDraws := s.pkg.keyDraws + 1
      sleepKey := if s.pkg.retained then key else 0, sleepImage := some (s.sleepImage key)
      mailboxes := s.pkg.mailboxes.map fun _ => Mailbox.reset } }

end Sys2Proof.Machine
end

