-- ==== Sys2Proof/Machine/Operands.lean ====
section
/-!
DEFINITION. What every instruction of a group shares: the checks of decode step 3 (R66, R72), the once mark (R11), cost
(R8), run index and run end (R13), immediate traps (R27), consumption of poisoned elements (R30), and the operand forms.
-/

namespace Sys2Proof.Machine

open Sys2Proof

/-! ## Checks -/

/-- Decode step 3 (R66, R72): every field is legal, and names registers of the allocation only. -/
def Group.operandsOk (g : Group) (i : Instr) : Bool :=
  i.operands.all fun o => o.static && o.reach g.wb ≤ g.alloc

/-- The allocation registers that a field reads. -/
def operandReads (wb : Nat) : Operand → List Nat
  | .vs f | .vds f => [wb + f.toNat]
  | .ps f | .pds f => [wb + f.toNat, wb + f.toNat + 1]
  | .qs f => [wb + f.toNat, wb + f.toNat + 1, wb + f.toNat + 2, wb + f.toNat + 3]
  | .slab f n => (List.range n).map fun k => wb + f.toNat + k
  | _ => []

/-- An `mmloop` whose A operand is the one that the group's latch holds, so that no register is read (R181). -/
def Group.fromLatch (g : Group) : Instr → Bool
  | .mmloop _ _ _ _ _ _ _ _ _ nk => match g.latch with
    | some l => l.length == 8 * (nk.toNat + 1)
    | none => false
  | _ => false

/-- An `mmloop` under a partial mask, which decode step 5 stops before any register is read (R72). -/
def Group.stepFive (g : Group) : Instr → Bool
  | .mmloop _ _ _ _ _ _ _ _ _ _ => g.active != g.width.full
  | _ => false

/-- The half of a packed register that an instruction reads while it ignores the other (R30, R115; R146, Table 9): 1 the low
one, 2 the high one, 0 for an instruction that reads both. -/
def packedHalf : Instr → Nat
  | .vcvt _ _ _ _ sel => match sel.toNat / 4 with
    | 6 | 7 => 1
    | 8 | 9 => 2
    | _ => 0
  | _ => 0

/-- An error of one half is consumed by a read of a half, or of both. -/
def halfMeets (x y : Nat) : Bool := x == 0 || y == 0 || x == y

/-- A poisoned register that the instruction consumes (R30): an element that an active thread reads, or that the lowest
one reads under the once mark; a U or A register is consumed by every active thread. The half of a packed register that
the instruction ignores is not consumed. -/
def Group.consumes (g : Group) (i : Instr) : Option Nat :=
  if g.poison.isEmpty || g.fromLatch i || g.stepFive i then none
  else
    let rs := i.operands.flatMap fun o => operandReads g.wb o
    let reader := fun t => if i.once then lowest g.active g.width.n == some t else g.active.getLsbD t
    (g.poison.find? fun e => rs.contains e.reg && halfMeets e.half (packedHalf i) && (match g.vreg e.reg with
      | .g _ => reader e.word
      | _ => g.active != 0)).map (·.reg)

/-! ## Cost (R8) -/

/-- A vector instruction: one cycle per active thread, at least one; one under the once mark. -/
def Group.vcost (g : Group) (once : Bool) : Nat := if once then 1 else max 1 (countMask g.active g.width.n)

/-- An exact-pair instruction: two cycles per active thread, at least two; one under the once mark. DESIGN CHOICE (log 5):
with no active thread it takes the two cycles of R8 and R133, where R12 gives a vector instruction one. -/
def Group.pcost (g : Group) (once : Bool) : Nat := if once then 1 else 2 * max 1 (countMask g.active g.width.n)

/-! ## How an instruction ends -/

/-- How an instruction of a run ends. -/
inductive Done where
  /-- The run goes on with the next word. -/
  | seq (s : State) (g : Group) (cost : Nat)
  /-- A taken branch: the run ends, and the group goes on at the target (R78). -/
  | jump (s : State) (g : Group) (cost : Nat) (target : W64)
  /-- The last instruction of its run whatever its E bit (R13). -/
  | stop (s : State) (g : Group) (cost : Nat) (how : RunEnd)
  /-- An immediate trap: nothing of the instruction takes effect (R27). -/
  | trap (c : Cause) (detail : W32)
  /-- The instruction consumed an error, and its group is gone (R297). -/
  | dead (s : State)

/-- The end of an instruction with its group changed, where the run goes on. -/
def Done.mapGroup (f : Group → Group) : Done → Done
  | .seq s g cost => .seq s (f g) cost
  | d => d

/-- Bytes of an instruction (R63). -/
def instrBytes (i : Instr) : W64 := if i.two then 8 else 4

/-- A core's local cycles advance. -/
def State.spend (s : State) (core cost : Nat) : State :=
  let c := s.core core
  s.setCore { c with cyc := c.cyc + BitVec.ofNat 64 cost }

/-- The group after an instruction of `len` bytes at its pc: one run index further, at `pc`, and at its run's end when
`how` says so. -/
def Group.past (g : Group) (pc : W64) (cost : Nat) (how : Option RunEnd) : Group :=
  { g with
    lastPc := g.pc, pc := pc, runIdx := g.runIdx + 1, cycles := g.cycles + cost
    stat := match how with | some _ => .endRun | none => g.stat
    runEnd := how.getD g.runEnd }

/-- An immediate trap at the present run index (R27): the instruction costs one cycle and has no effect, and the run ends
after it. -/
def State.immediate (s : State) (g : Group) (len : W64) (c : Cause) (detail : W32) : State :=
  let g := { g with fails := addFailure ⟨g.runIdx, c, 0, 0, detail, false⟩ g.fails }
  (s.setGroup (g.past (g.pc + len) 1 (some .fall))).spend g.core 1

/-- The run ends after an instruction by its E bit or as the 24th (R13). -/
def Group.runFull (g : Group) (i : Instr) : Option RunEnd := if i.ebit || 24 ≤ g.runIdx + 1 then some .fall else none

/-- The state after an instruction (R13, R27). `s0` and `g0` are those before it. -/
def retire (i : Instr) (s0 : State) (g0 : Group) : Done → State
  | .seq s g cost => (s.setGroup (g.past (g.pc + instrBytes i) cost (g.runFull i))).spend g.core cost
  | .jump s g cost t => (s.setGroup (g.past t cost (some .fall))).spend g.core cost
  | .stop s g cost how => (s.setGroup (g.past (g.pc + instrBytes i) cost (some how))).spend g.core cost
  | .trap c d => s0.immediate g0 (instrBytes i) c d
  | .dead s => s

/-- The group whose instruction is executed. -/
def State.curGroup (s : State) : Option Group := s.cur.bind s.group?

/-- An instruction of the current group: decode step 3, then what it consumes, then its own effect. -/
def issue (i : Instr) (s : State) (body : Group → State → Done) : Host.Outcome State Fault Refusal :=
  match s.curGroup with
  | none => .fault .noIssuingGroup
  | some g =>
    if !g.operandsOk i then .next (s.immediate g (instrBytes i) .illegalOperand 0)
    else match g.consumes i with
      | some _ => .next (s.consumeReg g)
      | none => .next (retire i s g (body g s))

/-- A deferred failure found when an instruction issues (R26, R27): the run goes on. -/
def Group.failNow (g : Group) (c : Cause) (detail : W32) (mask taddr : W64) : Group :=
  { g with fails := addFailure ⟨g.runIdx, c, taddr, mask, detail, c.replayable⟩ g.fails }

/-! ## Operand forms -/

/-- A core's local cycle count, as `cyc` reads it. -/
def State.cyc (s : State) (g : Group) : W64 := (s.core g.core).cyc

/-- The register that an element-wise instruction writes (R11, R24): under the once mark one value, computed at the lowest
active thread; U when every source is U; else one value per thread. -/
def Group.mapV (g : Group) (once allU : Bool) (f : Nat → W32) : VReg :=
  if once then .u (f ((lowest g.active g.width.n).getD 0))
  else if allU then .u (f 0)
  else .g ((List.range g.width.n).map f)

/-- An instruction that writes one vector register and does nothing else. -/
def vecInstr (i : Instr) (s : State) (once : Bool) (d : Fld) (val : Group → State → VReg) :
    Host.Outcome State Fault Refusal :=
  issue i s fun g s => .seq s (g.setV d (val g s)) (g.vcost once)

/-- An element-wise instruction of one source. -/
def vec1 (i : Instr) (s : State) (once : Bool) (d a : Fld) (f : W32 → W32) : Host.Outcome State Fault Refusal :=
  vecInstr i s once d fun g _ => g.mapV once (g.v a).isU fun t => f ((g.v a).get t)

/-- An element-wise instruction of two sources. -/
def vec2 (i : Instr) (s : State) (once : Bool) (d a b : Fld) (f : W32 → W32 → W32) : Host.Outcome State Fault Refusal :=
  vecInstr i s once d fun g _ =>
    g.mapV once ((g.v a).isU && (g.v b).isU) fun t => f ((g.v a).get t) ((g.v b).get t)

/-- An element-wise instruction of two sources and the prior destination, which comes first. -/
def vec3 (i : Instr) (s : State) (once : Bool) (d a b : Fld) (f : W32 → W32 → W32 → W32) :
    Host.Outcome State Fault Refusal :=
  vecInstr i s once d fun g _ =>
    g.mapV once ((g.v d).isU && (g.v a).isU && (g.v b).isU) fun t =>
      f ((g.v d).get t) ((g.v a).get t) ((g.v b).get t)

/-- The allocation register that a field names (R20). -/
def Group.reg (g : Group) (f : Fld) : Nat := g.wb + f.toNat

/-- The second register of the pair that a field names. -/
def Group.v1 (g : Group) (f : Fld) : VReg := g.vreg (g.wb + f.toNat + 1)

/-- Both members of a pair are U. -/
def Group.pairU (g : Group) (f : Fld) : Bool := (g.v f).isU && (g.v1 f).isU

/-- A pair written in the active threads: the low half in the even register (R21). -/
def Group.setPair (g : Group) (f : Fld) (lo hi : VReg) : Group :=
  let m := g.active
  (g.writeReg (g.reg f) lo m).writeReg (g.reg f + 1) hi m

/-- An instruction that writes a pair (R24, R100): each member U when every member of every source is U, else G. -/
def pairInstr (i : Instr) (s : State) (once : Bool) (d : Fld) (allU : Group → Bool) (f : Group → Nat → W64)
    (cost : Group → Nat) : Host.Outcome State Fault Refusal :=
  issue i s fun g s =>
    .seq s (g.setPair d (g.mapV once (allU g) fun t => (f g t).setWidth 32)
      (g.mapV once (allU g) fun t => ((f g t) >>> 32).setWidth 32)) (cost g)

/-- A compare (R98): the mask of active threads for which `p` holds. -/
def maskInstr (i : Instr) (s : State) (d : Fld) (p : Group → Nat → Bool) : Host.Outcome State Fault Refusal :=
  issue i s fun g s =>
    .seq s (g.writeS d (maskOf ((threads g.active g.width.n).filter (p g)))) (g.vcost false)

/-- A scalar instruction (R74): one cycle, whatever the mask. -/
def scalarInstr (i : Instr) (s : State) (d : Fld) (val : (Fld → W64) → W64) : Host.Outcome State Fault Refusal :=
  issue i s fun g s => .seq s (g.writeS d (val (g.readS (s.cyc g)))) 1

/-- The words of an instruction as they are kept for a replay (R32). -/
def instrWords (i : Instr) : W32 × W32 :=
  match encode i with
  | some (a, b) => (a, b.getD 0)
  | none => (0, 0)

/-- The ticket of the present instruction: its run index, marked with the tag of its run. -/
def Group.ticket (g : Group) : Nat := g.runIdx + 32 * g.tag

/-- The operands that an instruction captures, in the order of its fields (R15, R32): registers whole, and scalars. The A
operand of an `mmloop` is the latch, where the group holds it (R181). -/
def Group.captures (g : Group) (cyc : W64) (i : Instr) : List Captured :=
  i.operands.flatMap fun o => match o with
    | .ss f | .s6 f => [.s (g.readS cyc f)]
    | .slab f n => match if g.fromLatch i then g.latch else none with
      | some l => l.map .v
      | none => (operandReads g.wb (.slab f n)).map fun r => .v ((g.vreg r).toList g.width.n)
    | o => (operandReads g.wb o).map fun r => .v ((g.vreg r).toList g.width.n)

/-- An issued long-latency, issue-only or engine instruction added to those of the run (R15). -/
def Group.addPend (g : Group) (i : Instr) (op : DOp) (s : State) : Group :=
  { g with pends := g.pends ++
      [⟨g.ticket, op, instrWords i, .waiting, s.tick, g.active, g.captures (s.cyc g) i⟩] }

/-- An instruction whose captured operation is performed at once, its return on the way, or waits (R14 to R16). -/
def deferred (i : Instr) (g : Group) (s : State) (op : DOp) (cost : Nat) (perform : State → State) : Done :=
  let s := perform (s.setGroup (g.addPend i op s))
  match s.group? g.uid with
  | some g => .seq s g cost
  | none => .dead s

end Sys2Proof.Machine
end

