-- ==== Sys2Proof/Machine/Flags.lean ====
section
/-!
DEFINITION. Number formats, exact arithmetic, rounding, flags and events (R112 to R131): every flag computation of the
floating-point instructions and of the engines. DEDUCED: corners of the formats (log 11).
-/

namespace Sys2Proof.Machine

open Sys2Proof

/-! ## Flags -/

/-- The flags that one element raises (R123). -/
structure Flags where
  nv : Bool
  dz : Bool
  ovf : Bool
  uf : Bool
  nx : Bool
  pl : Bool
deriving DecidableEq, Repr

/-- No flag. -/
def Flags.zero : Flags := ⟨false, false, false, false, false, false⟩

/-- The flags of several steps of one element. -/
def Flags.join (x y : Flags) : Flags :=
  ⟨x.nv || y.nv, x.dz || y.dz, x.ovf || y.ovf, x.uf || y.uf, x.nx || y.nx, x.pl || y.pl⟩

/-- Invalid alone. -/
def Flags.invalid : Flags := { Flags.zero with nv := true }

/-- The bits of `fpf` (R122, Table 6). -/
def Flags.toNat (x : Flags) : Nat :=
  b2n x.nv + 2 * b2n x.dz + 4 * b2n x.ovf + 8 * b2n x.uf + 16 * b2n x.nx + 32 * b2n x.pl

/-- The flag of an event class (R129, Table 9). -/
def Flags.event (x : Flags) : Nat → Bool
  | 0 => x.nv
  | 1 => x.ovf
  | 2 => x.uf
  | 3 => x.nx
  | 4 => x.pl
  | _ => false

/-! ## Rounding modes -/

/-- Rounding modes (R122, Table 5). -/
inductive RMode where
  | rne | rz | ru | rd
deriving DecidableEq, Repr

/-- The mode of two bits (R122, R146). -/
def RMode.ofBits (n : Nat) : RMode :=
  match n % 4 with | 0 => .rne | 1 => .rz | 2 => .ru | _ => .rd

/-- `fpm`.RM of a group (R122). -/
def Group.rm (g : Group) : RMode := RMode.ofBits g.fpm.toNat

/-! ## Formats -/

/-- A binary floating-point format (R114, R116): width without the sign bit, fraction bits, bias, the largest finite
magnitude, the magnitude of an infinity, the quiet NaN the device makes, and whether an overflow saturates (R148). -/
structure Fmt where
  sign : Nat
  frac : Nat
  bias : Nat
  maxMag : Nat
  infMag : Nat
  qnan : Nat
  sat : Bool
deriving DecidableEq, Repr

/-- FP32 (R114, Table 2). -/
def fp32 : Fmt := ⟨31, 23, 127, 0x7F7FFFFF, 0x7F800000, 0x7FC00000, false⟩
/-- BF16 (R114, Table 2). -/
def bf16 : Fmt := ⟨15, 7, 127, 0x7F7F, 0x7F80, 0x7FC0, false⟩
/-- FP16 (R114, Table 2). -/
def fp16 : Fmt := ⟨15, 10, 15, 0x7BFF, 0x7C00, 0x7E00, false⟩
/-- E4M3 (R116, Table 3). -/
def e4m3 : Fmt := ⟨7, 3, 7, 0x7E, 0x7F, 0x7F, true⟩
/-- E5M2 (R116, Table 3). -/
def e5m2 : Fmt := ⟨7, 2, 15, 0x7B, 0x7C, 0x7E, false⟩

/-- The exponent of the smallest subnormal. -/
def Fmt.qmin (f : Fmt) : Int := 1 - (f.bias : Int) - (f.frac : Int)

/-- A value as it is computed with: a NaN, an infinity, or `(−1)^neg · m · 2^e`. -/
inductive FVal where
  | nan
  | inf (neg : Bool)
  | fin (neg : Bool) (m : Nat) (e : Int)
deriving DecidableEq, Repr

/-- The sign bit of a bit pattern. -/
def Fmt.neg (f : Fmt) (x : Nat) : Bool := x.testBit f.sign
/-- A bit pattern without its sign. -/
def Fmt.mag (f : Fmt) (x : Nat) : Nat := x % 2 ^ f.sign
/-- A bit pattern from its sign and its magnitude. -/
def Fmt.pack (f : Fmt) (neg : Bool) (mag : Nat) : Nat := b2n neg * 2 ^ f.sign + mag

/-- A NaN (R114, R116): E4M3 has the one magnitude 0x7F; the others have every one above the infinity. -/
def Fmt.isNan (f : Fmt) (x : Nat) : Bool := if f.sat then f.mag x == f.qnan else f.infMag < f.mag x
/-- A signalling NaN: its top fraction bit is 0. -/
def Fmt.isSig (f : Fmt) (x : Nat) : Bool := f.isNan x && !x.testBit (f.frac - 1)
/-- A NaN quieted (R121): its top fraction bit set. -/
def Fmt.quiet (f : Fmt) (x : Nat) : Nat := if x.testBit (f.frac - 1) then x else x + 2 ^ (f.frac - 1)

/-- The value of a bit pattern (R114, R116). -/
def Fmt.val (f : Fmt) (x : Nat) : FVal :=
  let mag := f.mag x
  let ex := mag / 2 ^ f.frac
  let fr := mag % 2 ^ f.frac
  if f.isNan x then .nan
  else if !f.sat && mag == f.infMag then .inf (f.neg x)
  else if ex = 0 then .fin (f.neg x) fr f.qmin
  else .fin (f.neg x) (2 ^ f.frac + fr) (f.qmin + ((ex : Int) - 1))

/-! ## Rounding -/

/-- `m · 2^e` in units of `2^q`, rounded to an integer, and whether it was inexact. -/
def roundUnits (md : RMode) (neg : Bool) (m : Nat) (e q : Int) : Nat × Bool :=
  if q ≤ e then (m * 2 ^ (e - q).toNat, false)
  else
    let s := (q - e).toNat
    let (m, s) := if m.log2 + 2 < s then ((if m = 0 then 0 else 1), 2) else (m, s)
    let n := m / 2 ^ s
    let r := m % 2 ^ s
    let up := match md with
      | .rne => 2 ^ s < 2 * r || (2 * r == 2 ^ s && n % 2 == 1)
      | .rz => false
      | .ru => !neg && r != 0
      | .rd => neg && r != 0
    (n + b2n up, r != 0)

/-- The magnitude that an overflow delivers (R124, Table 8; R148). -/
def Fmt.overflowMag (f : Fmt) (md : RMode) (neg : Bool) : Nat :=
  if f.sat then f.maxMag
  else match md with
    | .rne => f.infMag
    | .rz => f.maxMag
    | .ru => if neg then f.maxMag else f.infMag
    | .rd => if neg then f.infMag else f.maxMag

/-- A magnitude `m · 2^e` rounded into a format (R123, R124): overflow as though the exponent range were unbounded,
tininess after rounding. -/
def Fmt.roundMag (f : Fmt) (md : RMode) (neg : Bool) (m : Nat) (e : Int) : Nat × Flags :=
  if m = 0 then (0, Flags.zero)
  else
    let big := (f.overflowMag md neg, { Flags.zero with ovf := true, nx := true })
    let top : Int := (m.log2 : Int) + e
    if (f.bias : Int) + 1 < top then big
    else
      let q := max (top - f.frac) f.qmin
      let (n, nx) := roundUnits md neg m e q
      let mag := (q - f.qmin).toNat * 2 ^ f.frac + n
      if f.maxMag < mag then big
      else
        let emin : Int := 1 - f.bias
        let tiny := decide (top < emin) &&
          !(top == emin - 1 && (roundUnits md neg m e (top - f.frac)).1 == 2 ^ (f.frac + 1))
        (mag, { Flags.zero with uf := nx && tiny, nx := nx })

/-- An element computed: its bits and its flags. -/
structure FRes where
  x : Nat
  fl : Flags
deriving DecidableEq, Repr

/-- The device's quiet NaN, for an invalid operation (R121). -/
def Fmt.invalid (f : Fmt) : FRes := ⟨f.qnan, Flags.invalid⟩

/-- A value rounded into a format, a NaN being an invalid result. -/
def Fmt.round (f : Fmt) (md : RMode) : FVal → FRes
  | .nan => f.invalid
  | .inf neg => ⟨f.pack neg f.infMag, Flags.zero⟩
  | .fin neg m e => let (mag, fl) := f.roundMag md neg m e; ⟨f.pack neg mag, fl⟩

/-! ## Exact arithmetic -/

/-- A signed mantissa. -/
def signed (neg : Bool) (m : Nat) : Int := if neg then -(m : Int) else m

/-- An exact product (R121): 0 · ∞ is a NaN. -/
def FVal.mul : FVal → FVal → FVal
  | .nan, _ => .nan
  | _, .nan => .nan
  | .inf n, .inf k => .inf (n != k)
  | .inf n, .fin k m _ => if m = 0 then .nan else .inf (n != k)
  | .fin n m _, .inf k => if m = 0 then .nan else .inf (n != k)
  | .fin n m e, .fin k m' e' => .fin (n != k) (m * m') (e + e')

/-- The value with the other sign. -/
def FVal.negate : FVal → FVal
  | .nan => .nan
  | .inf n => .inf (!n)
  | .fin n m e => .fin (!n) m e

/-- The exact sum of two values; `md` decides the sign of an exact zero (R121). -/
def FVal.add (md : RMode) : FVal → FVal → FVal
  | .nan, _ => .nan
  | _, .nan => .nan
  | .inf n, .inf k => if n = k then .inf n else .nan
  | .inf n, _ => .inf n
  | _, .inf k => .inf k
  | .fin n m e, .fin k m' e' =>
    let q := min e e'
    let x := signed n m * 2 ^ (e - q).toNat + signed k m' * 2 ^ (e' - q).toNat
    if x = 0 then .fin (if m = 0 && m' = 0 && n == k then n else md == .rd) 0 q
    else .fin (decide (x < 0)) x.natAbs q

/-- The exact sum of several values, all of them taken together (R127, R145): infinities of both signs, or a NaN, give a
NaN. DESIGN CHOICE (log 11): a sum of exactly zero has the sign that all its terms have, when these are zeros of one sign, and else
that of the rounding mode, as R121 says of two terms. -/
def FVal.sum (md : RMode) (xs : List FVal) : FVal :=
  match xs with
  | [] => .fin false 0 0
  | x :: rest => rest.foldl (FVal.add md) x

/-- The value is zero. -/
def FVal.isZero : FVal → Bool
  | .fin _ 0 _ => true
  | _ => false

/-- The value is finite. -/
def FVal.isFin : FVal → Bool
  | .fin _ _ _ => true
  | _ => false

/-- The integer square root of a number below 4^n. -/
def isqrt (x : Nat) : (n : Nat) → Nat → Nat
  | 0, r => r
  | n + 1, r => isqrt x n (if (r + 2 ^ n) * (r + 2 ^ n) ≤ x then r + 2 ^ n else r)

/-- A quotient of mantissas, with a lowest bit that says whether something remains. -/
def quotient (m : Nat) (e : Int) (m' : Nat) (e' : Int) : Nat × Int :=
  let x := m * 2 ^ 64
  (2 * (x / m') + b2n (x % m' != 0), e - e' - 65)

/-- A square root of `m · 2^e`, with a lowest bit that says whether something remains. -/
def rootOf (m : Nat) (e : Int) : Nat × Int :=
  let (m, e) := if e % 2 = 0 then (m, e) else (2 * m, e - 1)
  let x := m * 2 ^ 64
  let r := isqrt x 64 0
  (2 * r + b2n (r * r != x), e / 2 - 33)

/-! ## Operations on bit patterns -/

/-- The first NaN of a list of operands, quieted, with NV when any is signalling (R121). -/
def Fmt.propagate (f : Fmt) (xs : List Nat) : Option FRes :=
  (xs.find? f.isNan).map fun x => ⟨f.quiet x, { Flags.zero with nv := xs.any f.isSig }⟩

/-- a + b. -/
def Fmt.add (f : Fmt) (md : RMode) (a b : Nat) : FRes :=
  (f.propagate [a, b]).getD (f.round md ((f.val a).add md (f.val b)))

/-- a − b: the sign bit of b inverted, unless b is a NaN. -/
def Fmt.sub (f : Fmt) (md : RMode) (a b : Nat) : FRes :=
  (f.propagate [a, b]).getD (f.round md ((f.val a).add md (f.val b).negate))

/-- a · b. -/
def Fmt.mul (f : Fmt) (md : RMode) (a b : Nat) : FRes :=
  (f.propagate [a, b]).getD (f.round md ((f.val a).mul (f.val b)))

/-- d + a · b, rounded once (R134, `vffma`). -/
def Fmt.fma (f : Fmt) (md : RMode) (d a b : Nat) : FRes :=
  (f.propagate [a, b, d]).getD (f.round md ((f.val d).add md ((f.val a).mul (f.val b))))

/-- a / b (R134, `vfdiv`). -/
def Fmt.div (f : Fmt) (md : RMode) (a b : Nat) : FRes :=
  (f.propagate [a, b]).getD (match f.val a, f.val b with
    | .inf _, .inf _ => f.invalid
    | .inf n, .fin k _ _ => ⟨f.pack (n != k) f.infMag, Flags.zero⟩
    | .fin n _ _, .inf k => ⟨f.pack (n != k) 0, Flags.zero⟩
    | .fin n m e, .fin k m' e' =>
      if m' = 0 then
        if m = 0 then f.invalid else ⟨f.pack (n != k) f.infMag, { Flags.zero with dz := true }⟩
      else let (q, eq) := quotient m e m' e'; f.round md (.fin (n != k) q eq)
    | _, _ => f.invalid)

/-- √a (R134, `vfsqrt`). -/
def Fmt.sqrt (f : Fmt) (md : RMode) (a : Nat) : FRes :=
  (f.propagate [a]).getD (match f.val a with
    | .fin n 0 e => f.round md (.fin n 0 e)
    | .fin false m e => let (r, er) := rootOf m e; f.round md (.fin false r er)
    | .inf false => ⟨f.infMag, Flags.zero⟩
    | _ => f.invalid)

/-- a · 2^n (R134, `vfscale`). -/
def Fmt.scale (f : Fmt) (md : RMode) (a : Nat) (n : Int) : FRes :=
  (f.propagate [a]).getD (match f.val a with
    | .fin s m e => if m = 0 then ⟨a, Flags.zero⟩ else f.round md (.fin s m (e + n))
    | _ => ⟨a, Flags.zero⟩)

/-- The order of values that are no NaN, with −0 below +0 (R135, R143). -/
def Fmt.rank (f : Fmt) (x : Nat) : Int := if f.neg x then -(f.mag x : Int) - 1 else f.mag x

/-- minimum and maximum of IEEE 754-2019, and minimumNumber and maximumNumber (R135, Table 2). -/
def Fmt.minmax (f : Fmt) (max num : Bool) (a b : Nat) : FRes :=
  let nv := { Flags.zero with nv := f.isSig a || f.isSig b }
  let pick := if max then (if f.rank a < f.rank b then b else a) else (if f.rank b < f.rank a then b else a)
  match f.isNan a, f.isNan b with
  | false, false => ⟨pick, Flags.zero⟩
  | true, true => ⟨f.quiet a, nv⟩
  | true, false => ⟨if num then b else f.quiet a, nv⟩
  | false, true => ⟨if num then a else f.quiet b, nv⟩

/-! ## Exact pairs (R126) -/

/-- An exact pair computed: hi, lo and the flags. -/
structure Pair where
  hi : Nat
  lo : Nat
  fl : Flags
deriving DecidableEq, Repr

/-- The lo of a pair whose hi overflows (R126). -/
def pairOverflow : Nat := 0x7FC00001

/-- A pair from its exact value `x` and the IEEE result of its operation (R126). -/
def pairOf (r : FRes) (finite : Bool) (x : FVal) : Pair :=
  if !finite then ⟨r.x, r.x, { Flags.zero with nv := r.fl.nv }⟩
  else if fp32.mag r.x = fp32.infMag then ⟨r.x, pairOverflow, { Flags.zero with ovf := true, nx := true }⟩
  else
    let l := fp32.round .rne (x.add .rne (fp32.val r.x).negate)
    let lo := if fp32.mag l.x = 0 then 0 else l.x
    if l.fl.nx then ⟨r.x, lo, { Flags.zero with pl := true, uf := true, nx := true }⟩ else ⟨r.x, lo, Flags.zero⟩

/-- TwoSum (R126). -/
def twoSum (a b : Nat) : Pair :=
  pairOf (fp32.add .rne a b) ((fp32.val a).isFin && (fp32.val b).isFin) ((fp32.val a).add .rne (fp32.val b))

/-- TwoProd (R126). -/
def twoProd (a b : Nat) : Pair :=
  pairOf (fp32.mul .rne a b) ((fp32.val a).isFin && (fp32.val b).isFin) ((fp32.val a).mul (fp32.val b))

/-- The sign bit inverted, whatever the bits. -/
def flipSign (x : Nat) : Nat := if fp32.neg x then x - 2 ^ 31 else x + 2 ^ 31

/-! ## Double words (R141) -/

/-- A step's result is infinite. -/
def infStep (x : Nat) : Bool := fp32.mag x == fp32.infMag

/-- What the steps of a double-word operation give: every step's results in order, the last pair, and the flags. -/
structure DwSteps where
  steps : List Nat
  z : Pair
  fl : Flags
deriving DecidableEq, Repr

/-- The steps of DWAdd. -/
def dwAddSteps (xh xl yh yl : Nat) : DwSteps :=
  let s := twoSum xh yh
  let t := twoSum xl yl
  let c := fp32.add .rne s.lo t.hi
  let v := twoSum s.hi c.x
  let w := fp32.add .rne t.lo v.lo
  let z := twoSum v.hi w.x
  ⟨[s.hi, t.hi, c.x, v.hi, w.x, z.hi], z, (((((s.fl.join t.fl).join c.fl).join v.fl).join w.fl).join z.fl)⟩

/-- The steps of DWMul. -/
def dwMulSteps (xh xl yh yl : Nat) : DwSteps :=
  let c := twoProd xh yh
  let t0 := fp32.mul .rne xl yl
  let t1 := fp32.fma .rne t0.x xh yl
  let cl2 := fp32.fma .rne t1.x xl yh
  let cl3 := fp32.add .rne c.lo cl2.x
  let z := twoSum c.hi cl3.x
  ⟨[c.hi, t0.x, t1.x, cl2.x, cl3.x, z.hi], z, (((((c.fl.join t0.fl).join t1.fl).join cl2.fl).join cl3.fl).join z.fl)⟩

/-- The steps of DWMulF. -/
def dwMulFSteps (xh xl y : Nat) : DwSteps :=
  let c := twoProd xh y
  let cl3 := fp32.fma .rne c.lo xl y
  let z := twoSum c.hi cl3.x
  ⟨[c.hi, cl3.x, z.hi], z, (c.fl.join cl3.fl).join z.fl⟩

/-- The steps of DWRen. -/
def dwRenSteps (xh xl : Nat) : DwSteps := let z := twoSum xh xl; ⟨[z.hi], z, z.fl⟩

/-- A double-word operation (R141, Table 7): `members` in the order of the NaN rule, the IEEE result of infinite members,
and the steps. -/
def dwCase (members : List Nat) (ieee : FRes) (st : DwSteps) : Pair :=
  match fp32.propagate members with
  | some r => ⟨r.x, r.x, r.fl⟩
  | none =>
    if members.any infStep then ⟨ieee.x, ieee.x, { Flags.zero with nv := ieee.fl.nv }⟩
    else match st.steps.find? infStep with
      | some x => ⟨x, pairOverflow, { Flags.zero with ovf := true, nx := true }⟩
      | none => ⟨st.z.hi, st.z.lo, st.fl⟩

/-- The IEEE result of an operation on the sums of two pairs with an infinite member (R141, Table 7): NV if forming
either sum, or the operation, is invalid. -/
def dwIeee (op : Nat → Nat → FRes) (x y : FRes) : FRes :=
  let r := op x.x y.x
  ⟨r.x, { Flags.zero with nv := x.fl.nv || y.fl.nv || r.fl.nv }⟩

/-- DWAdd (R141). -/
def dwAdd (xh xl yh yl : Nat) : Pair :=
  dwCase [xh, xl, yh, yl] (dwIeee (fp32.add .rne) (fp32.add .rne xh xl) (fp32.add .rne yh yl)) (dwAddSteps xh xl yh yl)

/-- DWMul (R141). -/
def dwMul (xh xl yh yl : Nat) : Pair :=
  dwCase [xh, xl, yh, yl] (dwIeee (fp32.mul .rne) (fp32.add .rne xh xl) (fp32.add .rne yh yl)) (dwMulSteps xh xl yh yl)

/-- DWMulF (R141). -/
def dwMulF (xh xl y : Nat) : Pair :=
  dwCase [xh, xl, y] (dwIeee (fp32.mul .rne) (fp32.add .rne xh xl) ⟨y, Flags.zero⟩) (dwMulFSteps xh xl y)

/-- DWRen (R141). -/
def dwRen (xh xl : Nat) : Pair := dwCase [xh, xl] (fp32.add .rne xh xl) (dwRenSteps xh xl)

/-! ## Approximate functions (R139) -/

/-- One of the two FP32 values that bracket an exact result `(−1)^neg · m · 2^e`, `m` holding a lowest bit for whatever
remains; the choice is a fixed function of the input bits. An exact result is returned exactly. -/
def bracket (op : Nat) (input : W32) (neg : Bool) (m : Nat) (e : Int) : FRes :=
  let (mag, fl) := fp32.roundMag .rz neg m e
  if !fl.nx then ⟨fp32.pack neg mag, Flags.zero⟩
  else
    let r := mag + b2n (Config.approxUp op input)
    ⟨fp32.pack neg r, { Flags.zero with nx := true, uf := decide (r < 0x00800000) }⟩

/-- A positive or negative infinity with division by zero. -/
def dzInf (neg : Bool) : FRes := ⟨fp32.pack neg fp32.infMag, { Flags.zero with dz := true }⟩

/-- An infinity with overflow and inexact. -/
def ovfInf (neg : Bool) : FRes := ⟨fp32.pack neg fp32.infMag, { Flags.zero with ovf := true, nx := true }⟩

/-- `vfrcp` (R139, Table 5). -/
def approxRcp (a : W32) : FRes :=
  let x := a.toNat
  (fp32.propagate [x]).getD (match fp32.val x with
    | .inf n => ⟨fp32.pack n 0, Flags.zero⟩
    | .fin n m e =>
      if m = 0 then dzInf n
      else if fp32.mag x ≤ 0x00200000 then ovfInf n
      else let (q, eq) := quotient 1 0 m e; bracket 0 a n q eq
    | .nan => fp32.invalid)

/-- `vfrsq` (R139, Table 5). -/
def approxRsq (a : W32) : FRes :=
  let x := a.toNat
  (fp32.propagate [x]).getD (match fp32.val x with
    | .inf false => ⟨0, Flags.zero⟩
    | .fin n m e =>
      if m = 0 then dzInf n
      else if n then fp32.invalid
      else
        let (m, e) := if e % 2 = 0 then (m, e) else (2 * m, e - 1)
        let r := isqrt (2 ^ 120 / m) 61 0
        bracket 1 a false (2 * r + b2n (r * r * m != 2 ^ 120)) (-(e / 2) - 61)
    | _ => fp32.invalid)

/-- Bits of precision kept while 2^x and log2 x are computed. -/
def approxPrec : Nat := 192

/-- 2^f for 0 ≤ f < 1 in units of 2^−192, rounded down: `c` is 2^(2^−i), the bits of `f` stand in `f` at `n − 1` and
below. -/
def exp2Bits (f : Nat) : (n : Nat) → (c acc : Nat) → Nat
  | 0, _, acc => acc
  | n + 1, c, acc =>
    let c := isqrt (c * 2 ^ approxPrec) (approxPrec + 1) 0
    exp2Bits f n c (if f.testBit n then acc * c / 2 ^ approxPrec else acc)

/-- `vfexp2` (R139, Table 5). -/
def approxExp2 (a : W32) : FRes :=
  let x := a.toNat
  (fp32.propagate [x]).getD (match fp32.val x with
    | .inf n => ⟨if n then 0 else fp32.infMag, Flags.zero⟩
    | .fin n m e =>
      if m = 0 then ⟨0x3F800000, Flags.zero⟩
      else if !n && 0x43000000 ≤ fp32.mag x then ovfInf false
      else if n && 0x43800000 ≤ fp32.mag x then bracket 2 a false 1 (-1000)
      else
        -- the operand is j · 2^−150
        let j : Int := signed n (m * 2 ^ (e + 150).toNat)
        let whole := j / 2 ^ 150
        let f := (j % 2 ^ 150).toNat
        if f = 0 then bracket 2 a false 1 whole
        else bracket 2 a false (2 * exp2Bits f 150 (2 * 2 ^ approxPrec) (2 ^ approxPrec) + 1)
          (whole - (approxPrec : Int) - 1)
    | .nan => fp32.invalid)

/-- The first `n` fraction bits of log2 of `y` in [1, 2), in units of 2^−192. -/
def log2Bits : (n : Nat) → (y acc : Nat) → Nat
  | 0, _, acc => acc
  | n + 1, y, acc =>
    let z := y * y / 2 ^ approxPrec
    if 2 ^ (approxPrec + 1) ≤ z then log2Bits n (z / 2) (2 * acc + 1) else log2Bits n z (2 * acc)

/-- `vflog2` (R139, Table 5). -/
def approxLog2 (a : W32) : FRes :=
  let x := a.toNat
  (fp32.propagate [x]).getD (match fp32.val x with
    | .inf false => ⟨fp32.infMag, Flags.zero⟩
    | .fin n m e =>
      if m = 0 then dzInf true
      else if n then fp32.invalid
      else
        let top : Int := (m.log2 : Int) + e
        if m = 2 ^ m.log2 then fp32.round .rne (.fin (decide (top < 0)) top.natAbs 0)
        else
          let l := log2Bits 80 (m * 2 ^ (approxPrec - m.log2)) 0
          if 0 ≤ top then bracket 3 a false (2 * (top.natAbs * 2 ^ 80 + l) + 1) (-81)
          else bracket 3 a true (2 * (top.natAbs * 2 ^ 80 - l - 1) + 1) (-81)
    | _ => fp32.invalid)

/-! ## Conversions (R146 to R148) -/

/-- A finite value rounded to an integer in units of 1, and whether it changed. -/
def integral (md : RMode) (neg : Bool) (m : Nat) (e : Int) : Int × Bool :=
  let (n, nx) := roundUnits md neg m e 0
  (signed neg n, nx)

/-- FP32 to an integer in a range (R147, Table 10). -/
def toInt (md : RMode) (lo hi : Int) (x : Nat) : Nat × Flags :=
  let word := fun (v : Int) => (BitVec.ofInt 32 v).toNat
  match fp32.val x with
  | .nan => (0, Flags.invalid)
  | .inf neg => (word (if neg then lo else hi), Flags.invalid)
  | .fin neg m e =>
    let (v, nx) := integral md neg m e
    if hi < v then (word hi, Flags.invalid)
    else if v < lo then (word lo, Flags.invalid)
    else (word v, { Flags.zero with nx := nx })

/-- A NaN of FP32 narrowed into a format with a quiet NaN (R146): its sign, and the fraction bits below the top one as far
as they fit. -/
def narrowNan (f : Fmt) (x : Nat) : FRes :=
  let low := bits x 21 0 / 2 ^ (23 - f.frac)
  ⟨f.pack (fp32.neg x) (f.qnan + low), { Flags.zero with nv := fp32.isSig x }⟩

/-- FP32 narrowed into BF16 or FP16 (R146). -/
def narrow (f : Fmt) (md : RMode) (x : Nat) : FRes :=
  if fp32.isNan x then narrowNan f x else f.round md (fp32.val x)

/-- FP32 narrowed into E4M3 or E5M2 (R148). -/
def narrow8 (f : Fmt) (md : RMode) (x : Nat) : FRes :=
  match fp32.val x with
  | .nan => ⟨f.pack (fp32.neg x) f.qnan, { Flags.zero with nv := fp32.isSig x }⟩
  | .inf neg => ⟨f.pack neg (if f.sat then f.maxMag else f.infMag), Flags.zero⟩
  | v => f.round md v

/-- A value of a narrow format as FP32 (R146): exact; a NaN keeps its sign and its fraction, quieted. DESIGN CHOICE (log 11): an
E5M2 NaN whose top fraction bit is 0 is signalling, as R114 says of the wider formats. -/
def widen (f : Fmt) (x : Nat) : FRes :=
  if f.isNan x then
    let fr := f.mag x % 2 ^ f.frac
    ⟨fp32.quiet (fp32.pack (f.neg x) (fp32.infMag + fr * 2 ^ (23 - f.frac))), { Flags.zero with nv := f.isSig x && !f.sat }⟩
  else { fp32.round .rne (f.val x) with fl := Flags.zero }

/-- The integral value of FP32 (R146, `rint`). -/
def rintF (md : RMode) (x : Nat) : FRes :=
  (fp32.propagate [x]).getD (match fp32.val x with
    | .fin neg m e =>
      let (v, nx) := integral md neg m e
      ⟨(fp32.round .rne (.fin neg v.natAbs 0)).x, { Flags.zero with nx := nx }⟩
    | _ => ⟨x, Flags.zero⟩)

/-- A conversion by its code (R146, Table 9). -/
def convert (code : Nat) (md : RMode) (x : Nat) : FRes :=
  match code with
  | 0 => let (v, fl) := toInt md (-2 ^ 31) (2 ^ 31 - 1) x; ⟨v, fl⟩
  | 1 => let (v, fl) := toInt md 0 (2 ^ 32 - 1) x; ⟨v, fl⟩
  | 2 => let v := sextNat 32 x; fp32.round md (.fin (decide (v < 0)) v.natAbs 0)
  | 3 => fp32.round md (.fin false x 0)
  | 4 => narrow bf16 md x
  | 5 => narrow fp16 md x
  | 6 => widen bf16 (bits x 15 0)
  | 7 => widen fp16 (bits x 15 0)
  | 8 => widen bf16 (bits x 31 16)
  | 9 => widen fp16 (bits x 31 16)
  | 10 => narrow8 e4m3 md x
  | 11 => narrow8 e5m2 md x
  | 12 => widen e4m3 (bits x 7 0)
  | 13 => widen e5m2 (bits x 7 0)
  | _ => rintF md x

/-- The class of an FP32 element, one bit (R137, Table 3). -/
def classBit (x : Nat) : Nat :=
  let neg := fp32.neg x
  if fp32.isNan x then (if fp32.isSig x then 8 else 9)
  else if fp32.mag x = fp32.infMag then (if neg then 0 else 7)
  else if fp32.mag x = 0 then (if neg then 3 else 4)
  else if fp32.mag x < 0x00800000 then (if neg then 2 else 5)
  else (if neg then 1 else 6)

/-! ## Events (R129 to R131, R89) -/

/-- The action field of class `k` in a value of `fpm` (R89). -/
def fpmAction (fpm : W64) (k : Nat) : Nat := bits fpm.toNat (2 * k + 33) (2 * k + 32)

/-- A crossing by an instruction of a group at its present run index (R89): a failure of that instruction with event
threshold, an interrupt of the control core, or nothing. -/
def Group.crossing (g : Group) (s : State) (k : Nat) : State × Group :=
  match fpmAction g.fpm k with
  | 1 => (s, { g with fails := addFailure ⟨g.runIdx, .eventThreshold, 0, 0, BitVec.ofNat 32 k, false⟩ g.fails })
  | 2 => (s.reportList g.part [eventEntry (worldId g.part g.ctx) g.core k g.runPc g.runIdx], g)
  | _ => (s, g)

/-- Events of one class that an instruction of a group adds. -/
def Group.addEvents (g : Group) (s : State) (k n : Nat) : State × Group :=
  let (s, cross) := s.countEvents g.part g.core k n
  if cross then g.crossing s k else (s, g)

/-- The flags that the elements of an instruction raise (R123, R129): `fpf`, and one event per element and class. -/
def Group.raise (g : Group) (s : State) (fls : List Flags) : State × Group :=
  let g := { g with fpf := g.fpf ||| BitVec.ofNat 64 (fls.foldl Flags.join Flags.zero).toNat }
  (List.range 5).foldl (fun (s, g) k => Group.addEvents g s k (fls.filter fun x => x.event k).length) (s, g)

end Sys2Proof.Machine
end

