-- ==== Sys2Proof/Machine/Boundary.lean ====
section
/-!
DEFINITION. Run boundaries (R16, R28, R81, R84, R175): delivery of a run's failures, the exit of a group, team barriers,
and waits on asynchronous barriers.
-/

namespace Sys2Proof.Machine

open Sys2Proof

/-- The address at which a group goes on when its run had a failure (R28, R81): the `exit` or `bar` itself, or the last
instruction of a run after which no thread lives; else where it would have gone on. DESIGN CHOICE (log 12): where a run after which
no thread lives ended by an immediate trap, R81 stands before R28 and R82, which give the word after the trapping
instruction. -/
def Group.resumeAddr (g : Group) : W64 :=
  match g.runEnd with
  | .exit | .bar _ => g.lastPc
  | _ => if g.lvm &&& g.width.full = 0 then g.lastPc else g.pc

/-- A group at a boundary, ready for its next run. -/
def Group.readyAt (g : Group) (tick : Nat) : Group := { g with stat := .ready, readyTime := tick, pends := [], fails := [] }

/-- The end of a run whose results are committed: its failures are delivered (R28), or the group is ready. -/
def State.deliver (s : State) (g : Group) : State :=
  if g.fails.isEmpty then s.setGroup (g.readyAt s.tick)
  else s.takeTrap { g with pends := [], fails := [] } g.fails g.runPc g.resumeAddr g.pends

/-! ## Team barriers -/

/-- The barriers of a team whose phase is complete release their groups (R84). -/
def State.releaseBars (s : State) (team : Nat) : State :=
  match s.team? team with
  | none => s
  | some t =>
    let due := fun (b : Bar) => b.arrivals != 0 && t.ngroups ≤ b.arrivals + t.exited
    let s := s.setTeam { t with bars := t.bars.map fun b => if due b then ⟨0, 0⟩ else b }
    { s with groups := s.groups.map fun g => match g.stat with
      | .atBar id => if g.team == t.uid && due (t.bars.getD id ⟨0, 0⟩) then g.readyAt s.tick else g
      | _ => g }

/-- A group arrives at a barrier of its team and parks there (R84). -/
def State.arriveBar (s : State) (g : Group) (id : Nat) : State :=
  match s.team? g.team with
  | none => s
  | some t =>
    let b := t.bars.getD id ⟨0, 0⟩
    let s := s.setTeam { t with bars := t.bars.set id { b with arrivals := b.arrivals + 1 } }
    (s.setGroup { g with stat := .atBar id, pends := [], fails := [] }).releaseBars t.uid

/-- A group exits (R81): its registers and its latch are freed, and it counts as arrived at every barrier of its team. -/
def State.exitGroup (s : State) (g : Group) : State :=
  let s := s.removeGroup g.uid
  match s.team? g.team with
  | none => s
  | some t => (s.setTeam { t with exited := t.exited + 1 }).releaseBars t.uid

/-! ## Asynchronous barriers -/

/-- An asynchronous barrier of a team. -/
def Team.abar (t : Team) (n : Nat) : Abar := t.abars.getD n Abar.init

/-- The detail of a failure of an engine operation (R176, Table 3), but for its count. -/
def asyncDetail (c : Cause) (idx kind gix : Nat) : Nat := c.code * 2 ^ 24 + idx % 32 * 2 ^ 19 + kind * 2 ^ 16 + gix % 256 * 2 ^ 8

/-- One arrival counted (R174): with the failure of its operation as detail and address, and the thresholds it crossed.
The first of a phase clears the record of the phase before. -/
def Abar.arrive (b : Abar) (fail : Option (Nat × W64)) (cross : List Crossing) : Abar :=
  let b := if b.fresh then
      { b with failed := false, detail := 0, taddr := 0, fresh := false, missed := b.missed ++ b.crossed, crossed := [] }
    else b
  let b := match fail with
    | none => b
    | some (d, a) =>
      if b.failed then { b with detail := if b.detail.toNat % 256 < 255 then b.detail + 1 else b.detail }
      else { b with failed := true, detail := BitVec.ofNat 32 (d + 1), taddr := a }
  let b := { b with crossed := b.crossed ++ cross }
  if b.pending ≤ 1 then { b with phase := !b.phase, pending := b.expected, fresh := true }
  else { b with pending := b.pending - 1 }

/-- A group's wait on a completed phase ends (R176, R90): with the failure of the phase, or with a threshold crossed by an
operation of it, which is reported once; then the run's failures are delivered. Once the first arrival of the next phase is
counted, nothing of the completed phase is left (R174), and the wait ends without a failure. DESIGN CHOICE (log 17): where
several crossings of the phase have action 0b01, the wait fails with the class of the first in order of arrival, and no more is
said of the others; the EVENT entry of a crossing with action 0b10 names the wait, by the first word of its run and its run
index, where R90 names the issuing instruction only for a crossing that no wait acquired. DESIGN CHOICE (log 17): a crossing of a
failed phase, of which the wait does not report (R176), stays to be reported as an EVENT entry at the end of its team, as one
that no wait acquired. -/
def State.endWait (s : State) (g : Group) (n : Nat) : State :=
  match s.team? g.team with
  | none => s
  | some t =>
    let b := t.abar n
    let idx := g.runIdx - 1
    let (s, f) : State × Option Failure :=
      if !b.fresh then (s, none)
      else if b.failed then (s, some ⟨idx, .asyncFailed, b.taddr, 0, b.detail, false⟩)
      else
        let s := s.setTeam { t with abars := t.abars.set n { b with crossed := [] } }
        let s := (b.crossed.filter fun c => c.action == 2).foldl (fun s c =>
          s.reportList g.part [eventEntry (worldId g.part g.ctx) c.core c.cls g.runPc idx]) s
        (s, (b.crossed.find? fun c => c.action == 1).map fun c =>
          ⟨idx, .eventThreshold, 0, 0, BitVec.ofNat 32 c.cls, false⟩)
    s.deliver { g with fails := addFailures f.toList g.fails }

/-- The condition of a wait holds (R175). -/
def State.waitOver (s : State) (g : Group) (n : Nat) (parity : Bool) : Bool :=
  match s.team? g.team with
  | some t => (t.abar n).phase != parity
  | none => true

/-- The groups of a team that wait on a barrier whose phase has completed go on, unless they are halted (R18). -/
def State.wakeWaits (s : State) : List Nat → State
  | [] => s
  | u :: us =>
    let s' := match s.group? u with
      | none => s
      | some g => match g.stat with
        | .atAbar n parity => if g.halt = .no && g.spilled.isNone && s.waitOver g n parity then s.endWait g n else s
        | _ => s
    State.wakeWaits s' us

/-- One arrival on a barrier of a team, and the groups that it lets go on. -/
def State.countArrival (s : State) (team n : Nat) (fail : Option (Nat × W64)) (cross : List Crossing) : State :=
  match s.team? team with
  | none => s
  | some t =>
    let s := s.setTeam { t with abars := t.abars.set n ((t.abar n).arrive fail cross) }
    s.wakeWaits ((s.groups.filter fun g => g.team == team).map (·.uid))

end Sys2Proof.Machine
end

