-- ==== Sys2Proof/Machine/Access.lean ====
section
/-!
DEFINITION. Thread accesses (R149 to R158): loads, stores and atomics of captured addresses, their failures, requests
and bank conflicts (R40 to R43, R152). When an access is performed is DESIGN CHOICE (log 3, log 5).
-/

namespace Sys2Proof.Machine

open Sys2Proof

/-! ## Process groups (R160, R161) -/

/-- The process-group table of a launch (R160, R161). -/
def State.rankTable (s : State) (part lid : Nat) : List RankEntry :=
  match (s.part? part).bind fun p => p.launch? lid with
  | some l => l.ranks
  | none => []

/-- The entry of a rank for a launch of a context, if it is valid; without a table rank 0 names the launching world itself
(R161). -/
def State.rankOf (s : State) (part ctx lid r : Nat) : Option RankEntry :=
  match s.rankTable part lid with
  | [] => if r = 0 then some ⟨true, ctx, part, Config.ownDevice⟩ else none
  | t => match t[r]? with
    | some e => if e.valid then some e else none
    | none => none

/-! ## Paths (R52, R54, R55, R159) -/

/-- The remote operand of a copy or a push, if it has one (R185). -/
def EngOp.remote : EngOp → Option W64
  | .cpy dst src _ dsp ssp _ => if dsp = 3 then some dst else if ssp = 3 then some src else none
  | .cbpush _ src _ ssp _ => if ssp = 3 then some src else none
  | _ => none

/-- The paths of an engine operation (R52, Table 5): the local side of a copy is on path C and its remote side on path F
(R187). -/
def EngOp.paths (op : EngOp) : List Nat :=
  match op with
  | .mmloop _ _ _ _ _ _ _ _ => [2]
  | _ => if op.remote.isSome then [1, 3] else [1]

/-- The paths of the accesses of a captured operation. -/
def DOp.paths : DOp → List Nat
  | .load _ _ _ _ _ _ _ | .store _ _ _ | .atomic _ _ _ _ _ _ _ _ _ | .sload _ _ | .sstore _ _ => [0]
  | .remote _ _ _ _ _ => [3]
  | .tsend _ _ _ _ _ | .taccept _ _ _ _ => [4]
  | .gate (.xopen _ _ _ _ _) _ _ _ => [4]
  | .engine op _ _ => op.paths
  | _ => []

/-- A path is the one that a fence names, or any for code 7. -/
def onPath (p q : Nat) : Bool := p == 7 || p == q

/-- A full fence names every path on both sides (R54). -/
def FenceOp.full (f : FenceOp) : Bool := f.first == 7 && f.second == 7

/-- An access performed at a device is within the scope of a fence: one at another device only when the scope is fabric
(R159). -/
def FenceOp.reaches (f : FenceOp) (dev : Nat) : Bool := f.scope == 6 || dev == Config.ownDevice

/-- `n` bytes of a context's global space lie on U pages only: `fuel` pages at most. -/
def State.onlyU (s : State) (part ctx a n : Nat) : (fuel : Nat) → Bool
  | 0 => true
  | fuel + 1 =>
    if n = 0 then true
    else
      let k := min n (0x10000 - a % 0x10000)
      (match s.translate part ctx (BitVec.ofNat 64 a) .read with
        | .ok _ e => kindOf e == 2
        | _ => false) && State.onlyU s part ctx ((a + k) % 2 ^ 64) (n - k) fuel

/-- Some of `n` bytes of a context's global space lie on a U page: `fuel` pages at most. -/
def State.someU (s : State) (part ctx a n : Nat) : (fuel : Nat) → Bool
  | 0 => false
  | fuel + 1 =>
    if n = 0 then false
    else
      let k := min n (0x10000 - a % 0x10000)
      (match s.translate part ctx (BitVec.ofNat 64 a) .read with
        | .ok _ e => kindOf e == 2
        | _ => false) || State.someU s part ctx ((a + k) % 2 ^ 64) (n - k) fuel

/-- The ranges of global space that a captured operation reaches, when it reaches nothing else (R45: slice and distributed
accesses behave as kind R; R169: remote ones do at their target). -/
def DOp.globalOnly : DOp → Option (List (W64 × Nat))
  | .load .global size addrs _ _ _ _ => some (addrs.map fun a => (a.2, size))
  | .store .global size items => some (items.map fun a => (a.2.1, size))
  | .atomic .global wide _ _ _ _ items _ _ => some (items.map fun a => (a.2.1, if wide then 8 else 4))
  | .sload a _ | .sstore a _ => some [(a, 8)]
  | .engine (.cpy dst src len 0 0 _) _ _ => some [(dst, len.toNat), (src, len.toNat)]
  | .tsend _ q addr len _ => some [(addr, if q = 2 then len.toNat else 16 * len.toNat)]
  | .gate (.xopen dst src len false false) _ _ _ => some [(dst, len.toNat), (src, len.toNat)]
  | _ => none

/-- Every access of a captured operation is to a U page, so that only a full fence orders it (R48, R55). -/
def State.unordered (s : State) (part ctx : Nat) (op : DOp) : Bool :=
  match op.globalOnly with
  | some rs => rs.all fun r => s.onlyU part ctx r.1.toNat r.2 (r.2 / 0x10000 + 2)
  | none => false

/-- A fence orders a captured operation, by the kinds of its pages (R55). -/
def State.orders (s : State) (f : FenceOp) (part ctx : Nat) (op : DOp) : Bool := f.full || !s.unordered part ctx op

/-- The 16-byte units of a destination range: offset in the range, and length (R186). -/
def unitsOf (a n : Nat) : List (Nat × Nat) :=
  (List.range ((a % 16 + n + 15) / 16)).map fun k =>
    let lo := max a (a / 16 * 16 + 16 * k)
    let hi := min (a + n) (a / 16 * 16 + 16 * k + 16)
    (lo - a, hi - lo)

/-- The units of a copy to `dst` that are not copied yet (R187). -/
def EngEntry.left (e : EngEntry) (dst n : Nat) : List (Nat × Nat) :=
  (((unitsOf dst n).mapIdx fun i u => (i, u)).filter fun x =>
    !e.moved.any fun r => r.1 ≤ x.1 && x.1 < r.1 + r.2).map (·.2)

/-- The remote side of an operation of an engine is at a device within the scope of a fence. -/
def State.farWithin (s : State) (f : FenceOp) (e : EngEntry) : Bool :=
  match e.op.remote with
  | some x => match s.rankOf e.part e.ctx e.lid (bits x.toNat 59 48) with
    | some t => f.reaches t.dev
    | none => true
  | none => false

/-- A local side of a copy, in the space `sp` at an address, is ordered by any fence: it lies in a slice, or on another page than
a U page (R49, R55). -/
def State.sideOrdered (s : State) (e : EngEntry) (sp a n : Nat) : Bool :=
  if sp = 3 then false else sp != 0 || !s.onlyU e.part e.ctx a n 2

/-- A fence that names the path `p` orders some units of a copy, piece by piece (R49, R55, R187): a local side of one of them on
path C, or its remote side on path F. -/
def State.ordersUnits (s : State) (f : FenceOp) (p : Nat) (e : EngEntry) (dst src dsp ssp : Nat) (us : List (Nat × Nat)) :
    Bool :=
  us.any fun u =>
    onPath p 1 && (f.full || s.sideOrdered e dsp (dst + u.1) u.2 || s.sideOrdered e ssp (src + u.1) u.2)
      || onPath p 3 && s.farWithin f e

/-- An operation of an engine, also one that waits for a queue entry or a copy slot, is of the earlier set of a fence: its local
side, or its remote side at a device within the scope; of a copy, what is left of it, or all while an answer is outstanding. -/
def State.engineEarlier (s : State) (f : FenceOp) (e : EngEntry) : Bool :=
  decide (e.since < f.since) && match e.op with
    | .cpy dst src len dsp ssp _ =>
      let out := s.fabric.reqs.any fun r => r.copy.isSome && r.uid == e.uid && r.since == e.since
      s.ordersUnits f f.first e dst.toNat src.toNat dsp ssp
        (if out then unitsOf dst.toNat len.toNat else e.left dst.toNat len.toNat)
    | op => op.paths.any fun q => onPath f.first q && (q != 3 || s.farWithin f e)

/-- A store of a group is of the earlier set of a fence, and some of its writes are still to be performed (R48, R54, R55). -/
def State.lateEarlier (s : State) (g : Group) (f : FenceOp) : Bool :=
  onPath f.first 0 && s.late.any fun l => l.uid == g.uid && decide (l.since < f.since) && (f.full || !l.upage)

/-- An access of a group that is of the earlier set of a fence is with an engine or with the fabric engine, whatever has become
of the group (R172). -/
def State.handedEarlier (s : State) (uid : Nat) (f : FenceOp) : Bool :=
  (s.cores.any fun c => (c.matrix.any fun e => e.uid == uid && s.engineEarlier f e)
      || c.copies.any fun e => e.2.uid == uid && s.engineEarlier f e.2)
    || s.fabric.reqs.any fun r =>
      r.uid == uid && decide (r.since < f.since) && onPath f.first 3 && f.reaches r.pkt.tgtDev

/-- The earlier set of a fence of a group is not complete (R54, R159): an access that the group issued before it is a store that
is performed later, or is with an engine, with the fabric engine, with the gate, or waits to be handed over. Every other path-T
access is performed at its issue. -/
def State.outstanding (s : State) (g : Group) (f : FenceOp) : Bool :=
  s.lateEarlier g f || s.handedEarlier g.uid f
    || g.waitingOps.any (s.engineEarlier f)
    || g.issued.any fun x => x.st == .waiting && decide (x.since < f.since) && s.orders f g.part g.ctx x.op
      && x.op.paths.any fun q => q == 4 && onPath f.first q

/-- The fences of a group whose earlier set is not complete. -/
def State.openFences (s : State) (g : Group) : List FenceOp := g.fences.filter (s.outstanding g)

/-- The devices at which a captured operation has a remote side. -/
def State.farDevices (s : State) (g : Group) (op : DOp) : List Nat :=
  match op with
  | .remote _ items _ _ _ => items.filterMap fun i => (s.rankOf g.part g.ctx g.lid i.2.1.toNat).map (·.dev)
  | .engine op _ _ => match op.remote with
    | some x => ((s.rankOf g.part g.ctx g.lid (bits x.toNat 59 48)).map (·.dev)).toList
    | none => []
  | _ => []

/-- The global ranges that a copy reaches on path C, if it reaches no slice: both, or the local one beside a remote one. -/
def DOp.copyRanges : DOp → List (W64 × Nat)
  | .engine (.cpy dst src len 0 0 _) _ _ => [(dst, len.toNat), (src, len.toNat)]
  | .engine (.cpy _ src len 3 0 _) _ _ => [(src, len.toNat)]
  | .engine (.cpy dst _ len 0 3 _) _ _ => [(dst, len.toNat)]
  | _ => []

/-- A copy that reaches U pages on path C: it is ordered there piece by piece, and not as a whole (R49). -/
def State.piecewise (s : State) (part ctx : Nat) (op : DOp) : Bool :=
  op.copyRanges.any fun r => s.someU part ctx r.1.toNat r.2 (r.2 / 0x10000 + 2)

/-- A captured operation is of the later set of a fence: on its second path, at a device within its scope, and of a page kind
that it orders. -/
def State.laterOf (s : State) (g : Group) (op : DOp) (f : FenceOp) : Bool :=
  s.orders f g.part g.ctx op && op.paths.any fun q =>
    onPath f.second q && if q = 3 then (s.farDevices g op).any f.reaches else f.full || !s.piecewise g.part g.ctx op

/-- A fence that an operation of an engine came behind still waits for its earlier set. -/
def State.fenceOpen (s : State) (e : EngEntry) (f : FenceOp) : Bool :=
  match s.group? e.uid with
  | some g => s.outstanding g f
  | none => s.handedEarlier e.uid f

/-- Some units of a copy are held back by a fence that its group executed before it, and whose earlier set is not complete (R49,
R54), also when the group is gone (R172). -/
def State.heldBack (s : State) (e : EngEntry) (us : List (Nat × Nat)) : Bool :=
  match e.op with
  | .cpy dst src _ dsp ssp _ =>
    e.fences.any fun f => s.fenceOpen e f && s.ordersUnits f f.second e dst.toNat src.toNat dsp ssp us
  | _ => false

/-! ## Failures of accesses -/

/-- One thread's failed access. -/
structure ThreadFail where
  t : Nat
  cause : Cause
  addr : W64
  detail : Nat
deriving DecidableEq, Repr

/-- The failure of an instruction from those of its threads (R149): cause and address of the lowest, every one in the
mask, and in `rplq` only if every cause is replayable. -/
def failureOf (idx : Nat) (write atomic : Bool) (fs : List ThreadFail) : Option Failure :=
  match fs with
  | [] => none
  | f :: _ => some
    { idx := idx, cause := f.cause, taddr := f.addr, tmask := maskOf (fs.map (·.t))
      detail := accessDetail f.detail write atomic, replay := fs.all fun f => f.cause.replayable }

/-- The failure of an access that runs once for the group: no thread is named. -/
def failureOnce (idx : Nat) (write : Bool) (c : Cause) (detail : Nat) (addr : W64) : Failure :=
  ⟨idx, c, addr, 0, accessDetail detail write false, c.replayable⟩

/-! ## Requests (R40, R43, R152) -/

/-- Accesses split into runs of at most 16. -/
def runsOf16 (xs : List (Nat × Nat)) : (n : Nat) → List (List (Nat × Nat))
  | 0 => []
  | n + 1 => if xs.isEmpty then [] else xs.take 16 :: runsOf16 (xs.drop 16) n

/-- Consecutive accesses to one 64-byte row or line merged, at most 16 of them. -/
def mergeRows : List (Nat × Nat) → List (List (Nat × Nat))
  | [] => []
  | x :: xs => match mergeRows xs with
    | (y :: ys) :: rest => if y.1 / 64 = x.1 / 64 && ys.length < 15 then (x :: y :: ys) :: rest else [x] :: (y :: ys) :: rest
    | rest => [x] :: rest

/-- The requests of an instruction (R40, R152): address and size of each thread's access, in thread order. Under a
strided address each run of up to 16 threads is one; else threads of one row merge, from the first on. DESIGN CHOICE (log 5): a
thread that is inactive, or whose access fails its checks, makes no access and does not part its neighbours, which count as
consecutive. -/
def requests (strided : Bool) (xs : List (Nat × Nat)) : List (List (Nat × Nat)) :=
  if strided then runsOf16 xs xs.length else (mergeRows xs.reverse).reverse.map List.reverse

/-- The cycles that a request waits for its own rows of one bank beyond the first (R40, R43): a bank is told by its core
and bits 11:6 of its offset. -/
def requestWait (r : List (Nat × Nat)) : Nat :=
  let rows := (r.map fun x => x.1 / 64).dedup
  let bank := fun row => row / 32768 * 64 + row % 64
  (rows.map fun row => (rows.filter fun o => bank o == bank row).length - 1).foldl max 0

/-- The bank-conflict cycles of an instruction's own requests (R43). -/
def conflictCycles (strided : Bool) (xs : List (Nat × Nat)) : Nat := ((requests strided xs).map requestWait).sum

/-- The cyclic order of the round robin from behind a class on. -/
def BankClass.after : BankClass → List BankClass
  | .m => [.c, .l, .x, .m]
  | .c => [.l, .x, .m, .c]
  | .l => [.x, .m, .c, .l]
  | .x => [.m, .c, .l, .x]

/-- One cycle of a bank that some classes request (R42): the class granted, and what the bank keeps. Only a grant of the
round robin moves the pointer. -/
def BankArb.grant (b : BankArb) (asks : BankClass → Bool) : Option BankClass × BankArb :=
  if b.refused && asks .m then (some .m, { b with refused := false })
  else match b.ptr.after.find? asks with
    | some k => (some k, { b with ptr := k, refused := asks .m && k != .m })
    | none => (none, { b with refused := false })

/-- The lane that wins within class L (R42): the first that requests after the one last granted, in cyclic order. -/
def laneWinner (last : Nat) (asks : Nat → Bool) : Option Nat :=
  ((List.range 64).map fun i => (last + 1 + i) % 64).find? asks

/-- What a bank of a core keeps. -/
def Core.bank (c : Core) (bank : Nat) : BankArb := ((c.banks.find? fun b => b.1 == bank).map (·.2)).getD .start

/-- A core with what a bank keeps replaced. -/
def Core.setBank (c : Core) (bank : Nat) (b : BankArb) : Core :=
  { c with banks := (bank, b) :: c.banks.filter fun x => x.1 != bank }

/-- The cycles that the next request of a lane has waited for a bank that another class or another lane held (R43). -/
def Core.waited (c : Core) (lane : Nat) : Nat := ((c.laneWaits.find? fun w => w.1 == lane).map (·.2)).getD 0

/-- A core on which no request of a lane has waited yet. -/
def Core.waitDone (c : Core) (lane : Nat) : Core := { c with laneWaits := c.laneWaits.filter fun w => w.1 != lane }

/-- A core on which the next request of a lane has waited one more cycle. -/
def Core.waitMore (c : Core) (lane : Nat) : Core :=
  { c.waitDone lane with laneWaits := (lane, c.waited lane + 1) :: (c.waitDone lane).laneWaits }

/-- The core of a row of the slices, and its bank there (R39): rows are counted through the slices of all cores. -/
def rowCore (row : Nat) : Nat := row / 32768
/-- The bank of a row. -/
def rowBank (row : Nat) : Nat := row % 64

/-- The rows that accesses of the slices reach, each once. -/
def rowsAt (xs : List (Nat × Nat)) : List Nat := (xs.map fun x => x.1 / 64).dedup

/-- A core whose remote port performs a request for a row, of the distributed accesses of other cores and of remote threads (R42,
R155). -/
def State.remotePort (s : State) (row : Nat) : State :=
  let k := s.core (rowCore row)
  s.setCore { k with remote := k.remote ++ [row] }

/-- The requests of an instruction of a group are performed (R42): on its own core they are its lane's, and those of other cores
are of their remote ports. -/
def State.served (s : State) (g : Group) (places : List (Nat × Nat)) : State :=
  let k := (s.core g.core).waitDone g.lane
  let own := (rowsAt places).filter fun r => rowCore r == g.core
  ((rowsAt places).filter fun r => rowCore r != g.core).foldl State.remotePort
    (s.setCore { k with rest := own.map (fun r => (g.lane, r)) ++ k.rest.filter fun e => e.1 != g.lane })

/-- What a cycle of a bank grants. -/
inductive Granted where
  /-- Nothing, or class M or C. -/
  | none
  /-- A row, to every lane that asks for it. -/
  | row (row : Nat)
  /-- The first request of the remote port. -/
  | port (x : BankX)
deriving DecidableEq, Repr

/-- A bank of a core arbitrates for one cycle (R42, R43) among the classes that request it; of class L each lane names the row
that it needs. The requests of lanes that need the row of the winning lane merge into its grant; every other lane waits a
cycle. A grant of class X goes to the first request of the remote port, and the others keep their order. -/
def Core.arbitrate (k : Core) (bank : Nat) (m c : Bool) (port : List BankX) (lanes : List (Nat × Nat)) : Core × Granted :=
  let b := k.bank bank
  let asks := fun (cl : BankClass) => match cl with | .m => m | .c => c | .l => !lanes.isEmpty | .x => !port.isEmpty
  let (won, b') := b.grant asks
  let win := if won = some .l then laneWinner b.lane fun l => lanes.any fun e => e.1 == l else none
  let row := win.bind fun l => (lanes.find? fun e => e.1 == l).map (·.2)
  let losers := (lanes.filter fun e => some e.2 != row).map (·.1)
  let b' := { b' with lane := win.getD b'.lane, port := if won = some .x then port.tail else port }
  (losers.foldl Core.waitMore (k.setBank bank b'), match row with
    | some r => .row r
    | none => match won, port.head? with
      | some .x, some x => .port x
      | _, _ => .none)

/-- The cycles that a group's requests wait for their banks (R43): for their own rows, and those in which another class or
another lane held the bank. -/
def State.bankWait (s : State) (g : Group) (strided : Bool) (xs : List (Nat × Nat)) : Nat :=
  conflictCycles strided xs + (if xs.isEmpty then 0 else (s.core g.core).waited g.lane)

/-- A line that a request covers whole (R152): every byte of it is written. -/
def coveredLines (r : List (Nat × Nat)) : List Nat :=
  ((r.map fun x => lineOf x.1).dedup).filter fun l =>
    (List.range 64).all fun k => r.any fun x => x.1 ≤ l + k && l + k < x.1 + x.2

/-- Poison removed from the lines that an instruction's merged requests cover whole (R297). -/
def State.clearCovered (s : State) (strided : Bool) (xs : List (Nat × Nat)) : State :=
  if s.lines.all fun l => !l.poisoned then s
  else ((requests strided xs).flatMap coveredLines).foldl (fun s l =>
    let k := s.line l
    if k.poisoned then s.setLine { k with poisoned := false } else s) s

/-! ## Performing -/

/-- How a captured access ends: with its result and the places it reached, or by consuming a line's error (R297). -/
inductive Access where
  | ok (s : State) (r : Result) (places : List (Nat × Nat))
  | dead (s : State)
deriving DecidableEq, Repr

/-- The device or slice address of a place, and whether it is in a slice. -/
def Place.addr : Place → Nat
  | .hbm dev _ _ => dev
  | .slice a => a

/-- The bytes that one thread reads, or its failure, or a poisoned line. -/
inductive Read where
  | bytes (bs : List Byte) (pl : Place)
  | fail (f : ThreadFail)
  | poison (line : Nat)
deriving DecidableEq, Repr

/-- One thread's read. -/
def State.readThread (s : State) (g : Group) (sp : Space) (size : Nat) (t : Nat) (addr : W64) : Read :=
  match s.check g.part g.ctx g.team sp addr size .read false with
  | .fail c d => .fail ⟨t, c, addr, d⟩
  | .poison l => .poison l
  | .ok pl => match s.badLine pl size with
    | some l => .poison l
    | none => .bytes (s.readAt pl size) pl

/-- The words that a loaded value fills (R151, R154). -/
def loadWords (ext : Ext) (size n : Nat) (bs : List Byte) : List W32 :=
  let x := leNat bs
  let x := match ext with
    | .sign => (BitVec.ofInt 32 (sextNat (8 * size) x)).toNat
    | .zero => x
  (List.range n).map fun k => BitVec.ofNat 32 (x / 2 ^ (32 * k))

/-- One value written to the destination registers of one thread. -/
def wordElems (dst t : Nat) (ws : List W32) : List (Nat × Nat × W32) := ws.mapIdx fun k w => (dst + k, t, w)

/-- The one value of a once-marked access, written to every thread of a mask (R150). -/
def spreadResult (g : Group) (m : W64) (dst : Nat) (ws : List W32) : Result :=
  if m = g.width.full then { Result.empty with unis := ws.mapIdx fun k w => (dst + k, w) }
  else { Result.empty with elems := (threads m g.width.n).flatMap fun t => wordElems dst t ws }

/-- What the reads of a load gave: values in thread order, failures, places, and the first poisoned line. -/
structure Loaded where
  vals : List (Nat × List Byte)
  fails : List ThreadFail
  places : List (Nat × Nat)
  poison : Option Nat
deriving DecidableEq, Repr

/-- The reads of a load, thread by thread. -/
def State.loadAll (s : State) (g : Group) (sp : Space) (size : Nat) : List (Nat × W64) → Loaded
  | [] => ⟨[], [], [], none⟩
  | (t, a) :: rest =>
    match s.readThread g sp size t a with
    | .poison l => ⟨[], [], [], some l⟩
    | .fail f => let r := State.loadAll s g sp size rest; { r with fails := f :: r.fails }
    | .bytes bs pl =>
      let r := State.loadAll s g sp size rest
      { r with vals := (t, bs) :: r.vals, places := (pl.addr, size) :: r.places }

/-- What the writes of a store gave. -/
structure Stored where
  s : State
  fails : List ThreadFail
  places : List (Nat × Nat)
  poison : Option Nat
deriving DecidableEq, Repr

/-- The writes of a store, in ascending thread order (R149, R150). -/
def State.storeAll (s : State) (g : Group) (sp : Space) (size : Nat) : List (Nat × W64 × BitVec 128) → Stored
  | [] => ⟨s, [], [], none⟩
  | (t, a, x) :: rest =>
    match s.check g.part g.ctx g.team sp a size .write false with
    | .poison l => ⟨s, [], [], some l⟩
    | .fail c d => let r := State.storeAll s g sp size rest; { r with fails := ⟨t, c, a, d⟩ :: r.fails }
    | .ok pl =>
      let r := State.storeAll (s.writeAt pl (leBytes size x.toNat)) g sp size rest
      { r with places := (pl.addr, size) :: r.places }

/-! ## Atomics (R156) -/

/-- Bytes of an atomic's location. -/
def atomSize (wide : Bool) : Nat := if wide then 8 else 4

/-- The new value of an atomic (R156, Table 4), on values of `n` bits. -/
def AOp.result (op : AOp) (n old x e : Nat) : Nat :=
  let i := fun v => sextNat n v
  match op with
  | .add => (old + x) % 2 ^ n
  | .and => old &&& x
  | .or => old ||| x
  | .xor => old ^^^ x
  | .minI => if i x < i old then x else old
  | .maxI => if i old < i x then x else old
  | .minN => min old x
  | .maxN => max old x
  | .swap => x
  | .cas => if old = e then x else old
  | .fadd => (fp32.add .rne old x).x
  | .load => old
  | .store => x

/-- The permission that an atomic needs (R156). -/
def AOp.perm : AOp → Perm
  | .load => .read
  | .store => .write
  | _ => .both

/-- What the accesses of an atomic gave. -/
structure Atomed where
  s : State
  olds : List (Nat × Nat)
  fails : List ThreadFail
  places : List (Nat × Nat)
  poison : Option Nat
deriving DecidableEq, Repr

/-- The accesses of an atomic, in ascending thread order (R157). -/
def State.atomAll (s : State) (g : Group) (sp : Space) (wide : Bool) (op : AOp) (ordered : Bool) :
    List (Nat × W64 × W64 × W64) → Atomed
  | [] => ⟨s, [], [], [], none⟩
  | (t, a, x, e) :: rest =>
    let size := atomSize wide
    match s.check g.part g.ctx g.team sp a size op.perm ordered with
    | .poison l => ⟨s, [], [], [], some l⟩
    | .fail c d => let r := State.atomAll s g sp wide op ordered rest; { r with fails := ⟨t, c, a, d⟩ :: r.fails }
    | .ok pl =>
      match if op = .store then none else s.badLine pl size with
      | some l => ⟨s, [], [], [], some l⟩
      | none =>
        let old := leNat (s.readAt pl size)
        let new := op.result (8 * size) old (x.toNat % 2 ^ (8 * size)) (e.toNat % 2 ^ (8 * size))
        let s := if op = .load then s else s.writeAt pl (leBytes size new)
        let r := State.atomAll s g sp wide op ordered rest
        { r with olds := (t, old) :: r.olds, places := (pl.addr, size) :: r.places }

/-! ## Captured operations -/

/-- The words that an atomic returns. -/
def atomWords (wide : Bool) (old : Nat) : List W32 :=
  if wide then [BitVec.ofNat 32 old, BitVec.ofNat 32 (old / 2 ^ 32)] else [BitVec.ofNat 32 old]

/-- Values in threads as a result: each to its own thread, or the one value spread (R150). DESIGN CHOICE (log 37): where every active
thread failed there is no value, and the destination keeps its elements and its shape. -/
def vectorResult (g : Group) (dst : Nat) (spread : Option W64) (vals : List (Nat × List W32)) : Result :=
  match spread, vals with
  | some m, (_, ws) :: _ => spreadResult g m dst ws
  | some _, [] => Result.empty
  | none, _ => { Result.empty with elems := vals.flatMap fun v => wordElems dst v.1 v.2 }

/-- A captured load, store or atomic performed for a group, under the ticket `idx`; `strided` says that its address has a
strided shape (R40, R152). -/
def State.performAccess (s : State) (g : Group) (idx : Nat) (strided : Bool) : DOp → Access
  | .load sp size addrs dst n ext spread =>
    let r := s.loadAll g sp size addrs
    match r.poison with
    | some l => .dead (s.consumeAt g idx l)
    | none => .ok s { vectorResult g dst spread (r.vals.map fun v => (v.1, loadWords ext size n v.2)) with
        fail := failureOf idx false false r.fails } r.places
  | .store sp size items =>
    let r := s.storeAll g sp size items
    match r.poison with
    | some l => .dead (r.s.consumeAt g idx l)
    | none => .ok (if sp == .global then r.s.clearCovered strided r.places else r.s)
        { Result.empty with fail := failureOf idx true false r.fails } r.places
  | .atomic sp wide op ord _ ret items dst spread =>
    let r := s.atomAll g sp wide op (ord != .relaxed) items
    match r.poison with
    | some l => .dead (r.s.consumeAt g idx l)
    | none =>
      let res := if ret then vectorResult g dst spread (r.olds.map fun o => (o.1, atomWords wide o.2)) else Result.empty
      .ok r.s { res with fail := failureOf idx (op != .load) true r.fails } r.places
  | .sload addr d =>
    match s.readThread g .global 8 0 addr with
    | .poison l => .dead (s.consumeAt g idx l)
    | .fail f => .ok s (Result.failed (failureOnce idx false f.cause f.detail addr)) []
    | .bytes bs _ => .ok s (Result.scalar d (BitVec.ofNat 64 (leNat bs))) []
  | .sstore addr v =>
    match s.check g.part g.ctx g.team .global addr 8 .write false with
    | .poison l => .dead (s.consumeAt g idx l)
    | .fail c d => .ok s (Result.failed (failureOnce idx true c d addr)) []
    | .ok pl => .ok (s.writeAt pl (leBytes 8 v.toNat)) Result.empty []
  | _ => .ok s Result.empty []

/-- A group after a result is committed to it (R16): elements, uniform registers, scalars and role registers. -/
def Group.apply (g : Group) (r : Result) : Group :=
  let g := ((r.elems.map (·.1)).dedup).foldl (fun g reg =>
    g.writeElems reg ((r.elems.filter fun e => e.1 == reg).map fun e => e.2)) g
  let g := r.unis.foldl (fun g u => g.writeReg u.1 (.u u.2) g.width.full) g
  let g := r.scalars.foldl (fun g x => g.writeS x.1 x.2) g
  { g with crole := r.roles.foldl (fun l x => l.set x.1 x.2) g.crole }

/-- A captured access performed when it issues or is replayed: a result that is awaited travels back (R19), and one that
is known at once is kept (R16). -/
def State.access (s : State) (uid idx : Nat) (strided returns : Bool) (op : DOp) : State :=
  match s.group? uid with
  | none => s
  | some g => match s.performAccess g idx strided op with
    | .dead s => s
    | .ok s r _ => if returns then s.ret uid idx r else s.finish uid idx r

end Sys2Proof.Machine
end

