-- ==== Sys2Proof/Machine/Fabric.lean ====
section
/-!
DEFINITION. The fabric engine (R58 to R60, R162 to R169, R295): packets at their source, the duplicate filter and the
remote operations at their target, acknowledgements and resends. DESIGN CHOICE: packets and ports (log 15).
-/

namespace Sys2Proof.Machine

open Sys2Proof

/-! ## At the target -/

/-- A thread at its target: refused before any state changed, or executed, with its answer (R163). -/
inductive Remote where
  | refused (c : Cause) (detail : Nat)
  | done (s : State) (ans : PktAnswer)
  | poison (line : Nat)
  /-- Executed, and failed on a poisoned line that it met after its state change (R167, R344). -/
  | spoilt (s : State) (line : Nat)
deriving DecidableEq, Repr

/-- Cause and detail of a failed check at the rank (R168, Table 10). -/
def remoteCause : Cause → Cause × Nat
  | .translation | .protection => (.remoteRefused, 3)
  | .orderingKind => (.orderingKind, 0)
  | _ => (.remoteRefused, 4)

/-- A failed check at the rank. -/
def refusedBy (c : Cause) : Remote := let (c, d) := remoteCause c; .refused c d

/-- The space of a target address (R162). -/
def targetSpace (dist : Bool) : Space := if dist then .dist else .global

/-- A successful answer. -/
def okAnswer (t : Nat) (bs : List Byte) : PktAnswer := ⟨t, none, bs⟩

/-- An access of a remote thread at a place: in a slice it is a request of the core's remote port (R42). -/
def State.viaPort (s : State) : Place → State
  | .slice a => s.remotePort (a / 64)
  | .hbm _ _ _ => s

/-- A flag incremented, once it has been checked (R58). -/
def State.bumpFlag (s : State) (pl : Place) : State :=
  (s.writeAt pl (leBytes 8 ((leNat (s.readAt pl 8) + 1) % 2 ^ 64))).viaPort pl

/-- The check of a flag at a rank (R165): alignment, translation, read and write permission, page kind. The flag is read
to be incremented, which consumes the error of its line (R168, R344). -/
def State.checkFlag (s : State) (part ctx : Nat) (f : RemFlag) : Chk :=
  match s.check part ctx 0 (targetSpace f.dist) f.addr 8 .both true with
  | .ok pl => (match s.badLine pl 8 with | some l => .poison l | none => .ok pl)
  | r => r

/-- One append at a rank (R166, R167). -/
def State.remoteAppend (s : State) (part ctx size : Nat) (th : PktThread) : Remote :=
  if th.addr.toNat % 32 ≠ 0 then .refused .remoteRefused 6
  else match s.check part ctx 0 .global th.addr 16 .both false with
    | .fail c _ => refusedBy c
    | .poison l => .poison l
    | .ok pl => match s.badLine pl 32 with
      | some l => .poison l
      | none =>
        let d := s.readAt pl 32
        let word := fun k => leNat ((d.drop (8 * k)).take 8)
        let cap := word 1 % 2 ^ 32
        let base := word 2
        let flag := word 3
        if 0xFFFFFFFE < cap || word 1 / 2 ^ 32 ≠ 0 || base % size ≠ 0 || flag % 8 ≠ 0 then .refused .remoteRefused 6
        else
          let flagChk := if flag = 0 then none else some (s.checkFlag part ctx ⟨false, BitVec.ofNat 64 flag⟩)
          match flagChk with
          | some (.fail c _) => refusedBy c
          | some (.poison l) => .poison l
          | fc =>
            let tail := word 0
            let s := s.writeAt pl (leBytes 8 ((tail + 1) % 2 ^ 64))
            if cap ≤ tail then .done s (okAnswer th.t (leBytes 4 0xFFFFFFFF))
            else match s.check part ctx 0 .global (BitVec.ofNat 64 (base + tail * size)) size .write false with
              | .fail c _ => let (c, x) := remoteCause c; .done s ⟨th.t, some (c.code, x), []⟩
              | .poison l => .spoilt s l
              | .ok row =>
                let s := s.writeAt row (th.data.take size)
                let s := match fc with | some (.ok f) => s.bumpFlag f | _ => s
                .done s (okAnswer th.t (leBytes 4 tail))

/-- The bytes that a pseudo-thread of a copy of `n` bytes reads: from its number to that of the next. -/
def unitLen (p : Packet) (n t : Nat) : Nat := ((p.threads.map (·.t)).filter (t < ·)).foldl min n - t

/-- A unit of a copy's write fails its checks at the target. -/
def State.unitRefused (s : State) (p : Packet) : Bool :=
  p.threads.any fun th => match s.globalRange p.tgtPart p.tgtCtx .write th.addr.toNat th.data.length 2 with
    | .ok _ => false
    | _ => true

/-- One thread of a packet performed at its target (R165, R186). Where a unit of a copy's write fails its checks, any of
the others are written, freely. -/
def State.remoteThread (s : State) (p : Packet) (th : PktThread) : Remote :=
  let part := p.tgtPart
  let ctx := p.tgtCtx
  match p.op with
  | .send size dist _ => match s.check part ctx 0 (targetSpace dist) th.addr size .write false with
    | .fail c _ => refusedBy c
    | .poison l => .poison l
    | .ok pl => .done ((s.writeAt pl (th.data.take size)).viaPort pl) (okAnswer th.t [])
  | .get size dist => match s.check part ctx 0 (targetSpace dist) th.addr size .read false with
    | .fail c _ => refusedBy c
    | .poison l => .poison l
    | .ok pl => match s.badLine pl size with
      | some l => .poison l
      | none => .done (s.viaPort pl) (okAnswer th.t (s.readAt pl size))
  | .red op size dist => match s.check part ctx 0 (targetSpace dist) th.addr size .both false with
    | .fail c _ => refusedBy c
    | .poison l => .poison l
    | .ok pl => match s.badLine pl size with
      | some l => .poison l
      | none =>
        let aop : AOp := match op with
          | 0 => .add | 1 => .and | 2 => .or | 3 => .xor | 4 => .minI | 5 => .maxI | 6 => .minN | 7 => .maxN | _ => .fadd
        let old := leNat (s.readAt pl size)
        .done ((s.writeAt pl (leBytes size (aop.result (8 * size) old (leNat (th.data.take size)) 0))).viaPort pl)
          (okAnswer th.t (leBytes size old))
  | .app size => s.remoteAppend part ctx size th
  | .bulkWrite => match s.globalRange part ctx .write th.addr.toNat th.data.length (th.data.length / 0x10000 + 2) with
    | .fail c _ _ => refusedBy c
    | .poison l => .poison l
    | .ok pls =>
      .done (if s.unitRefused p && !Config.freeBool 5 s.tick th.t then s else s.writeRange pls th.data) (okAnswer th.t [])
  | .bulkRead n => match s.globalRange part ctx .read th.addr.toNat (unitLen p n th.t)
      (unitLen p n th.t / 0x10000 + 2) with
    | .fail c _ _ => refusedBy c
    | .poison l => .poison l
    | .ok pls => match s.badIn pls with
      | some l => .poison l
      | none => .done s (okAnswer th.t (s.readRange pls))

/-- A request from another partition or another device is granted (R295, R327); one of the same partition needs no entry. -/
def State.granted (s : State) (p : Packet) : Bool :=
  match s.part? p.tgtPart with
  | none => false
  | some q =>
    q.contexts.any (fun c => c.id == p.tgtCtx) && !(p.srcDev != Config.ownDevice && s.foreignStop) &&
      ((p.srcDev == Config.ownDevice && p.srcWorld / 128 == q.num) || q.grants.any fun g =>
        g.valid && g.dev == p.srcDev && (if g.anyCtx then g.world / 128 == p.srcWorld / 128 else g.world == p.srcWorld))

/-- The threads of a packet performed in order, with their answers; a consumed line gives detail 7 (R344). -/
def State.remoteThreads (s : State) (p : Packet) : List PktThread → State × List (PktAnswer × Bool)
  | [] => (s, [])
  | th :: rest =>
    let refuse := fun (c : Cause) (d : Nat) => ((⟨th.t, some (c.code, d), []⟩ : PktAnswer), false)
    if !s.granted p then
      let (s, as) := State.remoteThreads s p rest
      (s, refuse .remoteRefused 5 :: as)
    else
      let flag := match p.op with | .send _ _ (some f) => some f | _ => none
      let chk : Option Chk := flag.map (s.checkFlag p.tgtPart p.tgtCtx)
      let out : Remote := match chk with
        | some (.fail c _) => refusedBy c
        | some (.poison l) => .poison l
        | _ => s.remoteThread p th
      match out with
      | .refused c d =>
        let (s, as) := State.remoteThreads s p rest
        (s, refuse c d :: as)
      | .poison l =>
        let (s, as) := State.remoteThreads (s.lineError l none) p rest
        (s, refuse .remoteRefused 7 :: as)
      | .spoilt s l =>
        let (s, as) := State.remoteThreads (s.lineError l none) p rest
        (s, (⟨th.t, some (Cause.remoteRefused.code, 7), []⟩, true) :: as)
      | .done s ans =>
        let (s, as) := State.remoteThreads s p rest
        (s, (ans, true) :: as)

/-- The filter of a source (R59). -/
def State.filter? (s : State) (dev world : Nat) : Option Filter :=
  s.fabric.filters.find? fun f => f.dev == dev && f.world == world

/-- The state with a filter replaced, or added. -/
def State.setFilter (s : State) (f : Filter) : State :=
  { s with fabric := { s.fabric with
      filters := f :: s.fabric.filters.filter fun g => !(g.dev == f.dev && g.world == f.world) } }

/-- Every thread that a packet named has been performed (R165). -/
def Executed.performed (e : Executed) : Bool :=
  e.threads.all fun t => e.answers.any fun a => a.t == t && a.fail.isNone

/-- The last packets of ranks all of whose threads are performed, and whose flag has not been counted. -/
def Filter.complete (f : Filter) : List Executed :=
  f.entries.filter fun e => !e.flagged && (match e.op, e.last with
    | .send _ _ (some _), some n => (List.range n).all fun k =>
        f.entries.any fun x => x.seq == e.seq - BitVec.ofNat 32 k && x.performed
    | _, _ => false)

/-- Flags counted for the ranks of a filter that are complete (R58, R165). DESIGN CHOICE (log 15): a flag that passed its checks before
the data and fails them now is not incremented, then or later, and no thread fails for it. -/
def State.countFlags (s : State) (f : Filter) : State :=
  let due := f.complete
  let s := due.foldl (fun s e => match e.op with
    | .send _ _ (some fl) => match s.checkFlag e.tgtPart e.tgtCtx fl with
      | .ok pl => s.bumpFlag pl
      | .poison l => s.lineError l none
      | .fail _ _ => s
    | _ => s) s
  s.setFilter { f with entries := f.entries.map fun e => if due.any fun d => d.seq == e.seq then { e with flagged := true } else e }

/-- A packet that reaches this device (R59, R163): what the duplicate filter decides, the threads performed, and the
answers. A packet that the filter holds performs only the threads not yet executed. -/
def State.receive (s : State) (p : Packet) : State × List PktAnswer :=
  let fresh : Filter := ⟨p.srcDev, p.srcWorld, p.epoch, none, []⟩
  let f := match s.filter? p.srcDev p.srcWorld with
    | some f => if f.epoch == p.epoch then f else fresh
    | none => fresh
  let d := match f.newest with | some n => (p.seq - n).toNat | none => 1
  if 2 ^ 31 ≤ d && d ≤ 2 ^ 32 - 4096 then
    (s, p.threads.map fun th => ⟨th.t, some (Cause.remoteRefused.code, 1), []⟩)
  else
    let newer := 1 ≤ d && d < 2 ^ 31
    let newest := if newer then some p.seq else f.newest
    let keep := fun (e : Executed) => match newest with | some n => decide ((n - e.seq).toNat < 4096) | none => true
    let old := f.entries.find? fun e => e.seq == p.seq
    let e := old.getD ⟨p.seq, p.threads.map (·.t), [], p.op, p.last, p.tgtPart, p.tgtCtx, false⟩
    let todo := p.threads.filter fun th => !e.answers.any fun a => a.t == th.t
    let (s, as) := s.remoteThreads p todo
    let e := { e with answers := e.answers ++ (as.filter (·.2)).map (·.1) }
    let f := { f with newest := newest, entries := e :: (f.entries.filter fun x => x.seq != p.seq).filter keep }
    let s := s.countFlags f
    (s, p.threads.filterMap fun th => (e.answers ++ as.map (·.1)).find? fun a => a.t == th.t)

/-! ## At the source -/

/-- The next sequence number of a source world towards a device (R59), taken. -/
def Fabric.takeSeq (f : Fabric) (world dev : Nat) : Fabric × BitVec 32 :=
  match f.seqs.find? fun x => x.1 == world && x.2.1 == dev with
  | some x => ({ f with seqs := f.seqs.map fun y => if y.1 == world && y.2.1 == dev then (world, dev, y.2.2 + 1) else y },
      x.2.2)
  | none => ({ f with seqs := (world, dev, 1) :: f.seqs }, 0)

/-- The port that a packet of a partition leaves by (R337): its first port that is up, or none (32). -/
def State.outPort (s : State) (part : Nat) : Nat :=
  ((List.range 32).find? fun k => match s.pkg.ports[k]? with | some p => p.up && p.owner == part | none => false).getD 32

/-- The port that a packet of a partition to a device leaves by: one to this device itself crosses none (DESIGN CHOICE, log 15). -/
def State.portFor (s : State) (part dev : Nat) : Nat := if dev = Config.ownDevice then 32 else s.outPort part

/-- A packet sent for a group: it is on its way, to this device itself or to another. -/
def State.sendPacket (s : State) (g : Group) (idx rank since : Nat) (copy : Option (Nat × Nat)) (p : Packet) : State :=
  let id := s.fabric.nextReq
  let r : FabReq := ⟨id, g.uid, g.part, g.lid, g.core, g.gen, idx, rank, p, 0, s.portFor g.part p.tgtDev, copy, since⟩
  { s with fabric := { s.fabric with
      nextReq := id + 1
      reqs := s.fabric.reqs ++ [r]
      outbox := if p.tgtDev = Config.ownDevice then s.fabric.outbox ++ [id] else s.fabric.outbox } }

/-- Threads cut into packets of at most 16 (R163). -/
def cut16 (xs : List PktThread) : (n : Nat) → List (List PktThread)
  | 0 => []
  | n + 1 => if xs.isEmpty then [] else xs.take 16 :: cut16 (xs.drop 16) n

/-- The epoch of the packets that this device sends after its `n`th cold start (R59): what the random source offers, or the
next number where that is the epoch before it. -/
def epochOf : (n : Nat) → BitVec 16
  | 0 => Config.epoch 0
  | n + 1 => if Config.epoch (n + 1) = epochOf n then epochOf n + 1 else Config.epoch (n + 1)

/-- The packets of one rank, with their sequence numbers (R59, R163). -/
def State.rankPackets (s : State) (world : Nat) (e : RankEntry) (op : PktOp) (total : Nat) :
    List (List PktThread) → State × List Packet
  | [] => (s, [])
  | ths :: rest =>
    let (f, n) := s.fabric.takeSeq world e.dev
    let p : Packet := ⟨Config.ownDevice, world, epochOf s.fabric.coldStarts, n, e.dev, e.part, e.ctx, op, ths,
      if rest.isEmpty then some total else none⟩
    let (s, ps) := State.rankPackets { s with fabric := f } world e op total rest
    (s, p :: ps)

/-- The entry of a rank for a group, if it is valid. -/
def State.rankEntry (s : State) (g : Group) (r : Nat) : Option RankEntry := s.rankOf g.part g.ctx g.lid r

/-- The items of a remote instruction. -/
abbrev RemoteItem := Nat × W32 × W64 × BitVec 128

/-- The packets of a remote instruction, rank by rank (R163), each with its rank. -/
def State.makePackets (s : State) (g : Group) (op : PktOp) (items : List RemoteItem) :
    List Nat → State × List (Nat × Packet)
  | [] => (s, [])
  | r :: rs => match s.rankEntry g r with
    | none => State.makePackets s g op items rs
    | some e =>
      let ths := (items.filter fun i => i.2.1.toNat == r).map fun i =>
        (⟨i.1, i.2.2.1, leBytes 16 i.2.2.2.toNat⟩ : PktThread)
      let cuts := cut16 ths ths.length
      let (s, ps) := s.rankPackets (worldId g.part g.ctx) e op cuts.length cuts
      let (s, rest) := State.makePackets s g op items rs
      (s, ps.map (fun p => (r, p)) ++ rest)

/-- The failure of a thread as its answer gives it. -/
def answerCause (code : Nat) : Cause :=
  if code = Cause.orderingKind.code then .orderingKind
  else if code = Cause.fabricTimeout.code then .fabricTimeout else .remoteRefused

/-- The result of a remote instruction whose every packet has been answered (R164, R168). -/
def remoteResult (idx : Nat) (items : List RemoteItem) (dst n : Nat) (ret : Bool) (x : Sent) : Result :=
  let own : List PktAnswer := x.refused.map fun t => ⟨t, some (Cause.remoteRefused.code, 2), []⟩
  let as := own ++ x.answers
  let mine := items.filterMap fun i => as.find? fun a => a.t == i.1
  let fails := mine.filter fun a => a.fail.isSome
  let addr := fun t => match items.find? fun i => i.1 == t with | some i => i.2.2.1 | none => 0
  let fail : Option Failure := match fails with
    | [] => none
    | a :: _ =>
      let (code, d) := a.fail.getD (0, 0)
      some { idx := idx, cause := answerCause code, taddr := addr a.t, tmask := maskOf (fails.map (·.t))
             detail := BitVec.ofNat 32 d
             replay := fails.all fun a => (answerCause (a.fail.getD (0, 0)).1).replayable }
  let vals := if ret then mine.filter fun a => a.fail.isNone else []
  { Result.empty with
    elems := vals.flatMap fun a => (List.range n).map fun k =>
      (dst + k, a.t, BitVec.ofNat 32 (leNat ((a.data.drop (4 * k)).take 4)))
    fail := fail }

/-- The issued instruction of a group with a given issue step and run index. -/
def Group.pendAt (g : Group) (since idx : Nat) : Option Pend :=
  (g.pends ++ (match g.yielded with | some y => y.pends | none => [])).find? fun p =>
    p.since == since && p.idx % 32 == idx % 32

/-- What is kept of the remote instruction of a group with a given issue step and run index. -/
def Sent.of (x : Sent) (uid since idx : Nat) : Bool := x.uid == uid && x.since == since && x.idx == idx % 32

/-- A return with the generation that its request carries (R19). -/
def State.retGen (s : State) (r : FabReq) (res : Result) : State :=
  { s with returns := s.returns ++ [⟨r.uid, r.gen, r.idx, r.part, r.core, res.norm⟩] }

/-- A remote instruction issued, or replayed for the threads of `items` (R60, R163): the threads the source refuses, then
the packets; a replay sends its packets again under their numbers. -/
def State.remoteIssue (s : State) (uid idx since : Nat) (op : PktOp) (items : List RemoteItem) (dst n : Nat)
    (ret : Bool) : State :=
  match s.group? uid with
  | none => s
  | some g =>
    let bad := (items.filter fun i => (s.rankEntry g i.2.1.toNat).isNone).map (·.1)
    let ranks := sortNat ((items.filter fun i => !bad.contains i.1).map fun i => i.2.1.toNat).dedup
    let kept := s.fabric.sent.find? fun x => x.of uid since idx
    let (s, pkts) : State × List (Nat × Packet) := match kept with
      | some x => (s, x.pkts.filterMap fun rp =>
          let ths := rp.2.threads.filter fun th => items.any fun i => i.1 == th.t
          if ths.isEmpty then none else some (rp.1, { rp.2 with threads := ths }))
      | none => s.makePackets g op items ranks
    let x : Sent := ⟨uid, since, idx % 32, bad, match kept with | some x => x.pkts | none => pkts, []⟩
    let s := { s with fabric := { s.fabric with sent := x :: s.fabric.sent.filter fun y => !y.of uid since idx } }
    if pkts.isEmpty then s.ret uid idx (remoteResult idx items dst n ret x)
    else pkts.foldl (fun s rp => s.sendPacket g idx rp.1 since none rp.2) s

/-- The answers of a packet taken at its source (R164): the instruction's result returns with the last of them. -/
def State.takeAnswers (s : State) (r : FabReq) (answers : List PktAnswer) : State :=
  let s := { s with fabric := { s.fabric with
    reqs := s.fabric.reqs.filter fun q => q.id != r.id
    outbox := s.fabric.outbox.filter fun i => i != r.id } }
  match s.fabric.sent.find? fun x => x.of r.uid r.since r.idx with
  | none => s.retGen r Result.empty
  | some x =>
    let x := { x with answers := x.answers ++ answers }
    let s := { s with fabric := { s.fabric with
      sent := s.fabric.sent.map fun y => if y.of r.uid r.since r.idx then x else y } }
    if s.fabric.reqs.any fun q => q.uid == r.uid && q.since == r.since && q.idx % 32 == r.idx % 32 then s
    else match (s.group? r.uid).bind fun g => g.pendAt r.since r.idx with
      | some p => match p.op with
        | .remote _ items dst n ret =>
          let res := remoteResult r.idx items dst n ret x
          let s := if res.fail.isSome then s
            else { s with fabric := { s.fabric with sent := s.fabric.sent.filter fun y => !y.of r.uid r.since r.idx } }
          s.retGen r res
        | _ => s
      | none => s.retGen r Result.empty

/-- The answers that fail every thread of a packet. -/
def allFail (p : Packet) (c : Cause) (d : Nat) : List PktAnswer := p.threads.map fun th => ⟨th.t, some (c.code, d), []⟩

end Sys2Proof.Machine
end

