-- ==== Sys2Proof/Machine/Engines.lean ====
section
/-!
DEFINITION. The engines (R170 to R190): acceptance into the matrix queue and the copy slots, the matrix loop, copies
and unpacking, and asynchronous barriers. DESIGN CHOICE: the order of waiting operations (log 4), what a failing
operation has written (log 13).
-/

namespace Sys2Proof.Machine

open Sys2Proof

/-! ## Acceptance (R171) -/

/-- An operation of the matrix engine. -/
def EngOp.isMatrix : EngOp → Bool
  | .mmloop _ _ _ _ _ _ _ _ => true
  | _ => false

/-- The lowest free copy slot. -/
def Core.freeCopy (c : Core) : Option Nat := (List.range 64).find? fun k => !c.copies.any fun e => e.1 == k

/-- There is a matrix-queue entry, or a copy slot, for an operation. -/
def Core.roomFor (c : Core) (op : EngOp) : Bool := if op.isMatrix then c.matrix.length < 16 else c.freeCopy.isSome

/-- An operation of the group waits for the same resource as `op`. -/
def Group.queuesFor (g : Group) (op : EngOp) : Bool :=
  g.issued.any fun p => p.st == .waiting && (match p.op with | .engine o _ _ => o.isMatrix == op.isMatrix | _ => false)

/-- A group of a core waits for the same resource as `op`. -/
def State.queuesFor (s : State) (core : Nat) (op : EngOp) : Bool :=
  s.groups.any fun g => g.core == core && g.queuesFor op

/-- An arrival of an operation on its barrier, with its failure and the thresholds it crossed (R173, R174). -/
def State.arriveFor (s : State) (e : EngEntry) (ab : Nat) (fail : Option (Cause × W64)) (cross : List Crossing) : State :=
  s.countArrival e.team ab (fail.map fun f => (asyncDetail f.1 e.idx (e.op.report []).1 e.gix, f.2)) cross

/-- The next slot of a buffer assigned to a push (R194). -/
def State.assignSlot (s : State) (team buf : Nat) : State × Option Nat :=
  match s.team? team with
  | none => (s, none)
  | some t => match t.bufs.getD buf none with
    | none => (s, none)
    | some b =>
      (s.setTeam { t with bufs := t.bufs.set buf (some { b with nextAssign := (b.nextAssign + 1) % b.slots.length }) },
        some b.nextAssign)

/-- An operation put into a copy slot. -/
def State.takeCopy (s : State) (core : Nat) (e : EngEntry) : State :=
  let c := s.core core
  s.setCore { c with copies := c.copies ++ [(c.freeCopy.getD 0, e)] }

/-- The failure of a `cpy` by its length or its operands alone (R185, R186). -/
def copyMisfit (dst src len : W64) (dsp ssp : Nat) : Option (Cause × W64) :=
  if 16777216 < len.toNat || len.toNat % 4 ≠ 0 then some (.alignment, src)
  else if dst.toNat % 4 ≠ 0 then some (.alignment, dst)
  else if src.toNat % 4 ≠ 0 then some (.alignment, src)
  else if dsp = 3 && bits dst.toNat 63 60 ≠ 0 then some (.remoteRefused, dst)
  else if ssp = 3 && bits src.toNat 63 60 ≠ 0 then some (.remoteRefused, src)
  else none

/-- An operation accepted by its engine: a copy of length 0 arrives at once (R186), and a push is assigned its slot. -/
def State.acceptEngine (s : State) (core : Nat) (e : EngEntry) : State :=
  match e.op with
  | .mmloop _ _ _ _ _ _ _ _ => let c := s.core core; s.setCore { c with matrix := c.matrix ++ [e] }
  | .cpy dst src len dsp ssp ab =>
    if len = 0 && (copyMisfit dst src len dsp ssp).isNone then s.arriveFor e ab none [] else s.takeCopy core e
  | .cunpack _ _ _ _ _ _ _ _ => s.takeCopy core e
  | .cbpush buf src len ssp _ =>
    let (s, k) := s.assignSlot e.team buf
    s.takeCopy core { e with op := .cbpush buf src len ssp k }

/-- An operation handed to its engine at issue: accepted, or waiting at the end of the run (R171). -/
def handOver (i : Instr) (g : Group) (s : State) (op : EngOp) : Done :=
  let s := s.setGroup g
  if (s.core g.core).roomFor op && !s.queuesFor g.core op then
    .seq (s.acceptEngine g.core (g.entry op g.runIdx g.fpm g.runPc s.tick)) g 1
  else .seq s (g.addPend i (.engine op g.fpm g.runPc) s) 1

/-- The first waiting operation of a group that can be accepted now. -/
def Group.acceptable (g : Group) (c : Core) : List Pend → Option Pend
  | [] => none
  | p :: ps => match p.op with
    | .engine op _ _ =>
      if p.st != .waiting then Group.acceptable g c ps
      else if c.roomFor op then some p
      else (Group.acceptable g c ps).filter fun q => match q.op with
        | .engine o _ _ => o.isMatrix != op.isMatrix
        | _ => false
    | _ => Group.acceptable g c ps

/-- A waiting operation of a group accepted, if there is room (R171). -/
def State.engineAccept (s : State) (uid : Nat) : State :=
  match s.group? uid with
  | none => s
  | some g => match g.acceptable (s.core g.core) g.issued with
    | none => s
    | some p => match p.op with
      | .engine op fpm xpc =>
        (s.acceptEngine g.core (g.entry op (p.idx % 32) fpm xpc p.since)).finish uid p.idx Result.empty
      | _ => s

/-! ## Crossings (R90, R129) -/

/-- Events that an operation adds at its completion, with the threshold it crosses. -/
def State.engineEvents (s : State) (core : Nat) (e : EngEntry) (k n : Nat) : State × List Crossing :=
  let (s, cross) := s.countEvents e.part core k n
  (s, if cross then [⟨core, k, fpmAction e.fpm k, e.gix, e.xpc, e.idx⟩] else [])

/-! ## The matrix loop (R178 to R184) -/

/-- The operands of a matrix loop. -/
structure Matrix where
  regs : List (List W32)
  c : Nat
  b : Nat
  nk : Nat
  mode : Nat
  binc : Nat
  z : Bool
deriving DecidableEq, Repr

/-- Products per step (R179, Table 5). -/
def Matrix.k (x : Matrix) : Nat := if x.mode = 2 then 8 else 16

/-- Half `h` of a word. -/
def halfOf (w : W32) (h : Nat) : Nat := bits w.toNat (16 * h + 15) (16 * h)

/-- A element (m, k·j + i) (R179, Table 5). -/
def Matrix.a (x : Matrix) (m j i : Nat) : Nat :=
  if x.mode = 2 then ((x.regs.getD (8 * j + i) []).getD m 0).toNat
  else halfOf ((x.regs.getD (8 * j + i / 2) []).getD m 0) (i % 2)

/-- B element (i, n) of a tile (R179, Table 5). -/
def Matrix.bElem (x : Matrix) (tile : List Byte) (i n : Nat) : Nat :=
  if x.mode = 2 then leNat ((tile.drop (256 * i + 4 * n)).take 4) else leNat ((tile.drop (128 * i + 2 * n)).take 2)

/-- The window offset of the tile of step `j`. -/
def Matrix.tileAt (x : Matrix) (j : Nat) : Nat := x.b + j * x.binc * 64

/-- The window offset of 64-byte row `r` of the accumulator. -/
def Matrix.rowAt (x : Matrix) (r : Nat) : Nat := x.c + 64 * r

/-- The steps of a group of four. -/
def Matrix.stepsOf (x : Matrix) (gi : Nat) : List Nat := (List.range x.nk).filter fun j => j / 4 == gi

/-- The quiet NaN of the accumulator (R127). -/
def accNan : Nat := 0x7FC00000

/-- S_j in BF16 (R127): the exact products summed exactly and rounded once; an exact zero is +0. -/
def dotBf (as bs : List Nat) : Nat :=
  match FVal.sum .rne ((as.zip bs).map fun (a, b) => (bf16.val a).mul (bf16.val b)) with
  | .nan => accNan
  | .inf neg => fp32.pack neg fp32.infMag
  | .fin neg m e => if m = 0 then 0 else (fp32.round .rne (.fin neg m e)).x

/-- A sum of FP32 values in the order of the steps (R127). -/
def sumSteps : List Nat → Nat
  | [] => 0
  | x :: xs => xs.foldl (fun p y => (fp32.add .rne p y).x) x

/-- The updated accumulator element, and the two event conditions of an update (R127, R129): `steps` holds the A and the
B elements of each step. -/
def Matrix.update (x : Matrix) (steps : List (List Nat × List Nat)) (acc : Nat) : Nat × Bool × Bool :=
  if x.mode = 0 then
    let r := (fp32.add .rne acc (sumSteps (steps.map fun (a, b) => dotBf a b))).x
    let r := if fp32.isNan r then accNan else r
    let ops := steps.flatMap fun (a, b) => a ++ b
    (r, fp32.isNan r && !fp32.isNan acc && !ops.any bf16.isNan,
      fp32.mag r == fp32.infMag && (fp32.val acc).isFin && ops.all fun v => (bf16.val v).isFin)
  else
    let k := if x.mode = 1 then 16 else 32
    let sum := (steps.map fun (a, b) => ((a.zip b).map fun (p, q) => p * q).sum).sum
    ((acc % 2 ^ k + sum) % 2 ^ k, false, false)

/-- What the updates so far leave: the slices, and the events of the two classes. -/
structure MmOut where
  slices : Memory
  nans : Nat
  infs : Nat
deriving DecidableEq, Repr

/-- One element (m, n) updated with the tiles of a group of steps. -/
def Matrix.elem (x : Matrix) (tiles : List (Nat × List Byte)) (gi m n at_ : Nat) (o : MmOut) : MmOut :=
  let acc := if x.z && gi == 0 then 0 else leNat (o.slices.readN at_ 4)
  let steps := tiles.map fun (j, tile) =>
    ((List.range x.k).map (x.a m j), (List.range x.k).map fun i => x.bElem tile i n)
  let (v, nan, inf) := x.update steps acc
  ⟨o.slices.writeN at_ (leBytes 4 v), o.nans + b2n nan, o.infs + b2n inf⟩

/-- One 64-byte row of the accumulator updated (R183). -/
def Matrix.row (x : Matrix) (t : Team) (tiles : List (Nat × List Byte)) (gi : Nat) (o : MmOut) (r : Nat) : MmOut :=
  match t.window (x.rowAt r) 64 with
  | none => o
  | some a => (List.range 16).foldl (fun o i => x.elem tiles gi (r / 4) (16 * (r % 4) + i) (a + 4 * i) o) o

/-- The bytes of a tile of 2 KiB, row by row. -/
def tileBytes (m : Memory) (t : Team) (o : Nat) : List Byte :=
  (List.range 32).flatMap fun k => match t.window (o + 64 * k) 64 with
    | some a => m.readN a 64
    | none => []

/-- The tiles of a group of four steps, as they stand. -/
def Matrix.tiles (x : Matrix) (m : Memory) (t : Team) (gi : Nat) : List (Nat × List Byte) :=
  (x.stepsOf gi).map fun j => (j, tileBytes m t (x.tileAt j))

/-- The updates of one group of four steps, on the rows of a list: the tiles are read first (R183). -/
def Matrix.group (x : Matrix) (t : Team) (gi : Nat) (rows : List Nat) (o : MmOut) : MmOut :=
  rows.foldl (x.row t (x.tiles o.slices t gi) gi) o

/-- The row grants that a matrix loop makes (R183): one for each row after every fourth step and after the last. -/
def Matrix.total (x : Matrix) (w : Nat) : Nat := (if 4 < x.nk then 2 else 1) * (4 * w)

/-- `n` more row grants of a loop, as many as there are: before the first of a group of steps, its tiles are read (R183). DESIGN
CHOICE (log 13): the tiles of all the steps of a group are read at one moment. -/
def Matrix.grants (x : Matrix) (t : Team) (w : Nat) : (n : Nat) → Memory × MmDone → Memory × MmDone
  | 0, o => o
  | n + 1, (m, d) =>
    if x.total w ≤ d.grants then (m, d)
    else
      let gi := d.grants / (4 * w)
      let r := d.grants % (4 * w)
      let tiles := if r = 0 then x.tiles m t gi else d.tiles
      let o := x.row t tiles gi ⟨m, d.nans, d.infs⟩ r
      Matrix.grants x t w n (o.slices, ⟨d.grants + 1, tiles, o.nans, o.infs⟩)

/-- The first 64-byte row of a range of window offsets that lies outside the window. -/
def Team.outside (t : Team) (o rows : Nat) : Option Nat :=
  ((List.range rows).map fun k => o + 64 * k).find? fun a => (t.window a 64).isNone

/-- The first tile row of some steps outside the window. -/
def Matrix.tileOutside (x : Matrix) (t : Team) (steps : List Nat) : Option Nat :=
  steps.findSome? fun j => t.outside (x.tileAt j) 32

/-- Why a matrix loop fails (R179): misaligned operands, then bytes outside the window, in the order of its reads and
writes. -/
def Matrix.misfit (x : Matrix) (t : Team) (w : Nat) : Option (Cause × W64) :=
  if x.c % 64 ≠ 0 then some (.alignment, BitVec.ofNat 64 x.c)
  else if x.b % 64 ≠ 0 then some (.alignment, BitVec.ofNat 64 x.b)
  else
    let out := match x.tileOutside t (x.stepsOf 0) with
      | some a => some a
      | none => match t.outside x.c (4 * w) with
        | some a => some a
        | none => x.tileOutside t (x.stepsOf 1)
    out.map fun a => (.sliceBounds, BitVec.ofNat 64 a)

/-- The slice rows of the tiles of some steps and of some accumulator rows. -/
def Matrix.sliceRows (x : Matrix) (t : Team) (steps rows : List Nat) : List Nat :=
  (steps.flatMap fun j => (List.range 32).filterMap fun k => t.window (x.tileAt j + 64 * k) 64)
    ++ rows.filterMap fun r => t.window (x.rowAt r) 64

/-- The first slice line with an error that `n` grants of a loop meet, from the next one on (R183, R344): each reads its row, and
the first of a group of steps the tiles. -/
def Matrix.meets (x : Matrix) (s : State) (t : Team) (w n : Nat) (d : MmDone) : Option Nat :=
  if s.sliceErrs.isEmpty then none
  else
    let is := (List.range (min n (x.total w - d.grants))).map (d.grants + ·)
    (is.flatMap fun i => x.sliceRows t (if i % (4 * w) = 0 then x.stepsOf (i / (4 * w)) else []) [i % (4 * w)]).findSome?
      fun a => s.badLine (.slice a) 64

/-- How a matrix loop ends: with its updates and its failure, if any, or by consuming a line's error. -/
inductive MmEnd where
  | done (o : MmOut) (fail : Option (Cause × W64))
  | poison (line : Nat)
deriving DecidableEq, Repr

/-- The matrix loop run (R180, R127): every update that it has not made yet; or, when it fails on a byte outside the window,
any of the first updates that lie inside it, freely (R173). -/
def Matrix.run (x : Matrix) (s : State) (t : Team) (w : Nat) (d : MmDone) : MmEnd :=
  let o : MmOut := ⟨s.slices, 0, 0⟩
  match x.misfit t w with
  | none => match x.meets s t w (x.total w) d with
    | some l => .poison l
    | none =>
      let (m, d) := x.grants t w (x.total w) (s.slices, d)
      .done ⟨m, d.nans, d.infs⟩ none
  | some f =>
    if f.1 == .alignment || (x.tileOutside t (x.stepsOf 0)).isSome then .done o (some f)
    else
      let rows := (List.range (4 * w)).filter fun r => (t.window (x.rowAt r) 64).isSome && Config.freeBool 6 s.tick r
      match (x.sliceRows t (x.stepsOf 0) rows).findSome? fun a => s.badLine (.slice a) 64 with
      | some l => .poison l
      | none => .done (x.group t 0 rows o) (some f)

/-- The operands of an entry of the matrix queue, with its barrier. -/
def EngEntry.matrix (e : EngEntry) : Option (Matrix × Nat) :=
  match e.op with
  | .mmloop regs c b nk mode binc z ab => some (⟨regs, c.toNat, b.toNat, nk, mode, binc, z⟩, ab)
  | _ => none

/-- An operation of an engine consumes a line's error (R344): it is named by its issue. -/
def State.consumeEngine (s : State) (e : EngEntry) (line : Nat) : State := s.lineError line (some (e.xpc.toNat, e.idx))

/-- Row grants of the loop at the head of a core's matrix queue (R183): any instruction may fall between two of them. A loop
that will fail makes its updates when it completes. -/
def State.matrixGrants (s : State) (core n : Nat) : State :=
  match (s.core core).matrix with
  | [] => s
  | e :: rest =>
    match e.matrix, s.team? e.team with
    | some (x, _), some t =>
      if (x.misfit t e.width.n).isSome then s
      else match x.meets s t e.width.n n e.mm with
        | some l => s.consumeEngine e l
        | none =>
          let (m, d) := x.grants t e.width.n n (s.slices, e.mm)
          State.setCore { s with slices := m } { s.core core with matrix := { e with mm := d } :: rest }
    | _, _ => s

/-- The operation at the head of a core's matrix queue completes (R182, R184). -/
def State.matrixComplete (s : State) (core : Nat) : State :=
  match (s.core core).matrix with
  | [] => s
  | e :: rest =>
    let done := s.setCore { s.core core with matrix := rest }
    match e.matrix, s.team? e.team with
    | some (x, ab), some t => match x.run s t e.width.n e.mm with
      | .poison l => s.consumeEngine e l
      | .done o fail =>
        let s := { done with slices := o.slices }
        let (s, c0) := s.engineEvents core e 0 o.nans
        let (s, c1) := s.engineEvents core e 1 o.infs
        s.arriveFor e ab fail (c0 ++ c1)
    | _, _ => done

/-- Another group of the subcore holds the A latch, or one that is spilled has it reserved (R181). -/
def State.latchTaken (s : State) (g : Group) : Bool :=
  s.groups.any fun h => h.uid != g.uid && h.core == g.core && h.lane / 16 == g.lane / 16 && h.latch.isSome

/-- The A operand of an `mmloop` from its registers. -/
def Group.slab (g : Group) (a : Fld) (n : Nat) : List (List W32) :=
  (List.range n).map fun k => (g.vreg (g.reg a + k)).toList g.width.n

/-- An asynchronous barrier of the group's team is not initialised (R174). -/
def State.abarUninit (s : State) (g : Group) (n : Nat) : Bool :=
  match s.team? g.team with
  | some t => (t.abar n).expected = 0
  | none => true

/-- `mmloop` (R178 to R181). -/
def execMmloop (e : Bool) (d a b : BitVec 7) (binc : BitVec 11) (ab : BitVec 5) (z reuse : Bool) (mode : BitVec 2)
    (nk : BitVec 3) (s : State) : Host.Outcome State Fault Refusal :=
  issue (.mmloop e d a b binc ab z reuse mode nk) s fun g s =>
    let steps := nk.toNat + 1
    let go := fun (s : State) (regs : List (List W32)) (latch : Option (List (List W32))) =>
      (handOver (.mmloop e d a b binc ab z reuse mode nk) g s
        (.mmloop regs (g.readS (s.cyc g) d) (g.readS (s.cyc g) b) steps mode.toNat binc.toNat z ab.toNat)).mapGroup
          fun h => { h with latch := latch }
    if g.active ≠ g.width.full then .trap .maskPartial 0
    else if s.abarUninit g ab.toNat then .trap .illegalOperand 0
    else match g.latch with
      | some l =>
        if l.length ≠ 8 * steps then .trap .illegalOperand 0
        else go s l (if reuse then some l else none)
      | none =>
        let regs := g.slab a (8 * steps)
        if !reuse then go s regs none
        else if s.latchTaken g then go (s.updPart g.part fun p => { p with latchbyp := p.latchbyp + 1 }) regs none
        else go s regs (some regs)

/-! ## Ranges of the copy engine -/

/-- The pieces of a distributed range, at most `fuel` of them, none crossing a multiple of 4 KiB (R35). -/
def State.distRange (s : State) (part ctx a n : Nat) : (fuel : Nat) → Range
  | 0 => .ok []
  | fuel + 1 =>
    if n = 0 then .ok []
    else
      let k := min n (0x1000 - a % 0x1000)
      match s.distributed part ctx a k with
      | none => .fail .distBounds 0 (BitVec.ofNat 64 a)
      | some p => match State.distRange s part ctx (a + k) (n - k) fuel with
        | .ok pls => .ok ((.slice p, k) :: pls)
        | r => r

/-- A range in a space by its code (R185): global, slice window or distributed. -/
def State.side (s : State) (e : EngEntry) (sp : Nat) (need : Perm) (a n : Nat) : Range :=
  match sp with
  | 0 => s.globalRange e.part e.ctx need a n (n / 0x10000 + 2)
  | 1 => s.sliceRange e.team a n
  | _ => s.distRange e.part e.ctx a n (n / 0x1000 + 2)

/-- Two places of a range share a byte. -/
def placesMeet (p q : Place × Nat) : Bool :=
  match p.1, q.1 with
  | .hbm a _ _, .hbm b _ _ => a < b + q.2 && b < a + p.2
  | .slice a, .slice b => a < b + q.2 && b < a + p.2
  | _, _ => false

/-- Two ranges share a byte. -/
def rangesMeet (xs ys : List (Place × Nat)) : Bool := xs.any fun p => ys.any (placesMeet p)

/-- How an operation of the copy engine ends: with its failure, if any, or by consuming a line's error. -/
inductive Copied where
  | done (s : State) (fail : Option (Cause × W64)) (overflows : Nat)
  | poison (line : Nat)
deriving DecidableEq, Repr

/-- `n` bytes of which nothing is known (R186). -/
def freeBytes (tick n : Nat) : List Byte := (List.range n).map fun i => Config.freeByte 1 tick i

/-- One piece of data for the copy engine to write: the places, and the bytes. -/
abbrev Chunk := List (Place × Nat) × List Byte

/-- The units of a failing copy that passed their checks and are written, with their bytes: any subset of them, freely
(R186). -/
def State.someUnits (s : State) (e : EngEntry) (dsp ssp dst src : Nat) (us : List (Nat × Nat)) :
    List (List (Place × Nat) × List (Place × Nat)) :=
  us.filterMap fun (off, k) =>
    match s.side e ssp .read (src + off) k, s.side e dsp .write (dst + off) k with
    | .ok a, .ok b => if Config.freeBool 5 s.tick off then some (a, b) else none
    | _, _ => none

/-- Bytes moved from one range to another; those of ranges that `meet` leave every byte of the destination free (R186). -/
def State.move (s : State) (meet : Bool) (src dst : List (Place × Nat)) (n : Nat) : Copied :=
  match s.badIn src with
  | some l => .poison l
  | none =>
    let bs := if meet then freeBytes s.tick n else s.readRange src
    .done (s.writeRange dst bs) none 0

/-- A copy between two local ranges (R186). -/
def State.copyLocal (s : State) (e : EngEntry) (dst src n dsp ssp : Nat) : Copied :=
  let stop := fun (c : Cause) (a : W64) =>
    let us := s.someUnits e dsp ssp dst src (unitsOf dst n)
    let from_ := us.flatMap (·.1)
    let into := us.flatMap (·.2)
    match s.move (rangesMeet from_ into) from_ into ((into.map (·.2)).sum) with
    | .done s _ _ => .done s (some (c, a)) 0
    | r => r
  match s.side e ssp .read src n with
  | .poison l => .poison l
  | .fail c _ a => stop c a
  | .ok pls => match s.side e dsp .write dst n with
    | .poison l => .poison l
    | .fail c _ a => stop c a
    | .ok qls => s.move (rangesMeet pls qls) pls qls n

/-- The pieces of some units of a range that starts at `a`, in order; or the first failure. -/
def State.unitSides (s : State) (e : EngEntry) (sp : Nat) (need : Perm) (a : Nat) : List (Nat × Nat) → Range
  | [] => .ok []
  | (off, k) :: us => match s.side e sp need (a + off) k with
    | .ok pls => match State.unitSides s e sp need a us with
      | .ok qls => .ok (pls ++ qls)
      | r => r
    | r => r

/-- Source and destination of a copy share a byte, as far as their pages are there. -/
def State.copyMeets (s : State) (e : EngEntry) (dst src n dsp ssp : Nat) : Bool :=
  match s.side e ssp .read src n, s.side e dsp .write dst n with
  | .ok pls, .ok qls => rangesMeet pls qls
  | _, _ => false

/-- Some units of a local copy copied (R186, R187), or a failure of the checks of one of them, before which any of the others
are copied. -/
def State.copyUnits (s : State) (e : EngEntry) (dst src n dsp ssp : Nat) (us : List (Nat × Nat)) : Copied :=
  let meet := s.copyMeets e dst src n dsp ssp
  let stop := fun (c : Cause) (a : W64) =>
    let us := s.someUnits e dsp ssp dst src us
    let into := us.flatMap (·.2)
    match s.move meet (us.flatMap (·.1)) into ((into.map (·.2)).sum) with
    | .done s _ _ => .done s (some (c, a)) 0
    | r => r
  match s.unitSides e ssp .read src us with
  | .poison l => .poison l
  | .fail c _ a => stop c a
  | .ok pls => match s.unitSides e dsp .write dst us with
    | .poison l => .poison l
    | .fail c _ a => stop c a
    | .ok qls => s.move meet pls qls ((us.map (·.2)).sum)

/-- Data written to a range (R186): all of it, or, when a check fails, any of the units that passed theirs. -/
def State.writeSide (s : State) (e : EngEntry) (dsp dst : Nat) (bs : List Byte) : Copied :=
  match s.side e dsp .write dst bs.length with
  | .poison l => .poison l
  | .ok qls => .done (s.writeRange qls bs) none 0
  | .fail c _ a =>
    let s := (unitsOf dst bs.length).foldl (fun s (off, k) => match s.side e dsp .write (dst + off) k with
      | .ok q => if Config.freeBool 5 s.tick off then s.writeRange q ((bs.drop off).take k) else s
      | _ => s) s
    .done s (some (c, a)) 0

/-! ## The remote side of a copy (R185, R186) -/

/-- A packet of the copy engine sent: it serves a copy slot of a core. -/
def State.sendBulk (s : State) (e : EngEntry) (core slot rank : Nat) (t : RankEntry) (op : PktOp) (ths : List PktThread) :
    State :=
  let w := worldId e.part e.ctx
  let (f, n) := s.fabric.takeSeq w t.dev
  let p : Packet := ⟨Config.ownDevice, w, epochOf f.coldStarts, n, t.dev, t.part, t.ctx, op, ths, some 1⟩
  let r : FabReq := ⟨f.nextReq, e.uid, e.part, e.lid, core, 0, e.idx, rank, p, 0, s.portFor e.part t.dev, some (core, slot), e.since⟩
  { s with fabric := { f with
      nextReq := f.nextReq + 1
      reqs := f.reqs ++ [r]
      outbox := if t.dev = Config.ownDevice then f.outbox ++ [f.nextReq] else f.outbox } }

/-- How the sending of a remote side goes: a packet is on its way, perhaps with some units of an operation that fails, or
the operation fails before any. -/
inductive BulkSent where
  | sent (s : State) (fail : Option (Cause × W64))
  | failed (c : Cause) (addr : W64)
  | poison (line : Nat)
deriving DecidableEq, Repr

/-- The units of a copy's write whose local side passed its checks, freely chosen, with their data (R186). -/
def State.goodUnits (s : State) (e : EngEntry) (sp a : Nat) (us : List (Nat × Nat)) : List (Nat × List Byte) :=
  us.filterMap fun (off, k) => match s.side e sp .read (a + off) k with
    | .ok pls => if (s.badIn pls).isNone && Config.freeBool 5 s.tick off then some (off, s.readRange pls) else none
    | _ => none

/-- The remote side of an operation sent, `n` bytes in 16-byte units of their destination: `x` is its remote operand. A write
reads its local side first, and when that fails any of the units that passed their checks are sent (R186). -/
def State.startBulk (s : State) (e : EngEntry) (core slot : Nat) (x : W64) (write : Bool) (sp a n : Nat) : BulkSent :=
  let rank := bits x.toNat 59 48
  let at_ := bits x.toNat 47 0
  let th : Nat → List Byte → PktThread := fun off bs => ⟨off, BitVec.ofNat 64 (at_ + off), bs⟩
  match if bits x.toNat 63 60 ≠ 0 then none else s.rankOf e.part e.ctx e.lid rank with
  | none => .failed .remoteRefused x
  | some t =>
    if write then
      match s.side e sp .read a n with
      | .fail c _ b =>
        let us := s.goodUnits e sp a (unitsOf at_ n)
        if us.isEmpty then .failed c b
        else .sent (s.sendBulk e core slot rank t .bulkWrite (us.map fun u => th u.1 u.2)) (some (c, b))
      | .poison l => .poison l
      | .ok pls => match s.badIn pls with
        | some l => .poison l
        | none =>
          let bs := s.readRange pls
          .sent (s.sendBulk e core slot rank t .bulkWrite ((unitsOf at_ n).map fun u => th u.1 ((bs.drop u.1).take u.2))) none
    else .sent (s.sendBulk e core slot rank t (.bulkRead n) ((unitsOf a n).map fun u => th u.1 [])) none

/-- Some units of the remote side of a copy sent, as a packet of their own (R49, R187). -/
def State.startUnits (s : State) (e : EngEntry) (core slot : Nat) (x : W64) (write : Bool) (sp a : Nat)
    (us : List (Nat × Nat)) : BulkSent :=
  let rank := bits x.toNat 59 48
  let at_ := bits x.toNat 47 0
  let th : Nat → List Byte → PktThread := fun off bs => ⟨off, BitVec.ofNat 64 (at_ + off), bs⟩
  match if bits x.toNat 63 60 ≠ 0 then none else s.rankOf e.part e.ctx e.lid rank with
  | none => .failed .remoteRefused x
  | some t =>
    if write then
      match s.unitSides e sp .read a us with
      | .fail c _ b =>
        let good := s.goodUnits e sp a us
        if good.isEmpty then .failed c b
        else .sent (s.sendBulk e core slot rank t .bulkWrite (good.map fun u => th u.1 u.2)) (some (c, b))
      | .poison l => .poison l
      | .ok pls => match s.badIn pls with
        | some l => .poison l
        | none =>
          let data := fun (u : Nat × Nat) => match s.side e sp .read (a + u.1) u.2 with
            | .ok q => s.readRange q
            | _ => []
          .sent (s.sendBulk e core slot rank t .bulkWrite (us.map fun u => th u.1 (data u))) none
    else
      let upto := us.foldl (fun m u => max m (u.1 + u.2)) 0
      .sent (s.sendBulk e core slot rank t (.bulkRead upto) (us.map fun u => th u.1 [])) none

/-- A copy slot's packet is outstanding. -/
def State.bulkOut (s : State) (core slot : Nat) : Bool := s.fabric.reqs.any fun r => r.copy == some (core, slot)

/-! ## Unpacking (R188 to R190) -/

/-- E3M2, E2M3 and E2M1 (R116, Table 3): every bit pattern is a finite number. -/
def e3m2 : Fmt := ⟨5, 2, 3, 0x1F, 0x20, 0x40, true⟩
/-- E2M3 (R116, Table 3). -/
def e2m3 : Fmt := ⟨5, 3, 1, 0x1F, 0x20, 0x40, true⟩
/-- E2M1 (R116, Table 3). -/
def e2m1 : Fmt := ⟨3, 1, 1, 0x7, 0x8, 0x40, true⟩

/-- The value of a posit8 byte (R118); NaR is none. -/
def posit8 (p : Nat) : FVal :=
  if p = 0 then .fin false 0 0
  else if p = 0x80 then .nan
  else
    let s := bitAt p 7
    let q := if s then 256 - p else p
    let top := bitAt q 6
    let m := ((List.range 7).takeWhile fun i => bitAt q (6 - i) == top).length
    let k : Int := if top then (m : Int) - 1 else -(m : Int)
    let nrest := 6 - m
    let rest := q % 2 ^ nrest
    let e := if nrest = 0 then 0 else if nrest = 1 then 2 * rest else rest / 2 ^ (nrest - 2)
    let nf := nrest - 2
    .fin s (2 ^ nf + rest % 2 ^ nf) (4 * k + (e : Int) - (nf : Int))

/-- Bits of an element, its value and its sign, by type code (R116, Table 3). -/
def elemBits (ty : Nat) : Nat := match ty with | 0 | 1 | 5 => 8 | 2 | 3 => 6 | _ => 4

/-- The value of an element by type code. -/
def elemVal (ty x : Nat) : FVal :=
  match ty with
  | 0 => e4m3.val x | 1 => e5m2.val x | 2 => e3m2.val x | 3 => e2m3.val x | 4 => e2m1.val x | _ => posit8 x

/-- One element unpacked (R120, Table 4), with its unpack-overflow event; no scale stands for 1. -/
def unpackElem (ty x : Nat) (scale : Option Nat) : Nat × Bool :=
  let neg := bitAt x (elemBits ty - 1)
  if scale = some 0xFF then (bf16.pack neg 0x7FC0, false)
  else match elemVal ty x with
    | .nan => (bf16.pack neg 0x7FC0, false)
    | .inf n => (bf16.pack n 0x7F80, false)
    | .fin n m e =>
      let k : Int := match scale with | some b => (b : Int) - 127 | none => 0
      let r := bf16.round .rne (.fin n m (e + k))
      (r.x, r.fl.ovf)

/-- Element `i` of a dense row (R117). -/
def denseElem (row : List Byte) (n i : Nat) : Nat :=
  leNat ((row.drop (i * n / 8)).take 2) / 2 ^ (i * n % 8) % 2 ^ n

/-- The operands of an unpack. -/
structure Unpack where
  dst : Nat
  src : Nat
  scale : Nat
  srcSlice : Bool
  rows : Nat
  gran : Nat
  ty : Nat
deriving DecidableEq, Repr

/-- Bytes of a source row (R189). -/
def Unpack.rowBytes (x : Unpack) : Nat := 16 * elemBits x.ty

/-- The address of the scale byte of element (r, e), or none at granularity `none` (R189). -/
def Unpack.scaleAt (x : Unpack) (r e : Nat) : Option Nat :=
  let at_ := fun (tile kb : Nat) => x.scale + 512 * tile + r % 32 * 16 + r / 32 * 4 + kb
  match x.gran with
  | 0 => none
  | 1 => some (at_ 0 (e / 32))
  | 2 => some (at_ (e / 64) (e / 16 % 4))
  | _ => some (at_ 0 0)

/-- The address of 16-byte unit `u` of row `r` of the panels: elements 8u to 8u + 7 (R189). -/
def Unpack.unitAt (x : Unpack) (r u : Nat) : Nat := x.dst + u / 8 * (x.rows * 128) + r * 128 + 16 * (u % 8)

/-- The scale bytes that a row uses. -/
def Unpack.rowScales (x : Unpack) (r : Nat) : List Nat := ((List.range 128).filterMap (x.scaleAt r)).dedup

/-- What one row reads: its bytes, then its scales, or the first failure. -/
inductive RowRead where
  | ok (bytes : List Byte) (scales : List (Nat × Nat)) (pls : List (Place × Nat))
  | fail (c : Cause) (addr : W64)
  | poison (line : Nat)
deriving DecidableEq, Repr

/-- The scale bytes of a row read. -/
def State.scaleBytes (s : State) (e : EngEntry) (sp : Nat) : List Nat → RowRead
  | [] => .ok [] [] []
  | a :: as => match s.side e sp .read a 1 with
    | .fail c _ b => .fail c b
    | .poison l => .poison l
    | .ok pls => match s.badIn pls with
      | some l => .poison l
      | none => match State.scaleBytes s e sp as with
        | .ok _ ss qs => .ok [] ((a, leNat (s.readRange pls)) :: ss) (pls ++ qs)
        | r => r

/-- One row read. -/
def State.unpackRow (s : State) (e : EngEntry) (x : Unpack) (r : Nat) : RowRead :=
  let sp := if x.srcSlice then 1 else 0
  match s.side e sp .read (x.src + r * x.rowBytes) x.rowBytes with
  | .fail c _ a => .fail c a
  | .poison l => .poison l
  | .ok pls => match s.badIn pls with
    | some l => .poison l
    | none => match s.scaleBytes e sp (x.rowScales r) with
      | .ok _ ss qs => .ok (s.readRange pls) ss (pls ++ qs)
      | q => q

/-- The eight elements of a unit, as bytes, with their overflows. -/
def Unpack.unit (x : Unpack) (row : List Byte) (scales : List (Nat × Nat)) (r u : Nat) : List Byte × Nat :=
  let es := (List.range 8).map fun i =>
    let e := 8 * u + i
    let sc := (x.scaleAt r e).map fun a => ((scales.find? fun p => p.1 == a).map (·.2)).getD 0
    unpackElem x.ty (denseElem row (elemBits x.ty) e) sc
  (es.flatMap fun v => leBytes 2 v.1, (es.filter (·.2)).length)

/-- A unit to be written: its number, its destination, its bytes and its overflows. -/
structure UnpackUnit where
  num : Nat
  pls : Option (List (Place × Nat))
  bytes : List Byte
  over_ : Nat
deriving DecidableEq, Repr

/-- What the rows of an unpack give: the units, the places read, the first failure, and the first poisoned line. -/
structure Unpacked where
  units : List UnpackUnit
  read : List (Place × Nat)
  fail : Option (Cause × W64)
  poison : Option Nat
deriving DecidableEq, Repr

/-- Every row read and unpacked, and every destination checked. -/
def State.unpackRows (s : State) (e : EngEntry) (x : Unpack) : List Nat → Unpacked
  | [] => ⟨[], [], none, none⟩
  | r :: rs =>
    match s.unpackRow e x r with
    | .poison l => ⟨[], [], none, some l⟩
    | .fail c a => let o := State.unpackRows s e x rs; { o with fail := some (c, a) }
    | .ok row scales pls =>
      let o := State.unpackRows s e x rs
      let us := (List.range 16).map fun u =>
        let (bs, n) := x.unit row scales r u
        (⟨16 * r + u, match s.sliceRange e.team (x.unitAt r u) 16 with | .ok q => some q | _ => none, bs, n⟩ : UnpackUnit)
      let bad := (us.find? fun u => u.pls.isNone).map fun u =>
        (Cause.sliceBounds, BitVec.ofNat 64 (x.unitAt r (u.num % 16)))
      { o with units := us ++ o.units, read := pls ++ o.read, fail := bad.orElse fun _ => o.fail }

/-- The unpack run (R188 to R190): scale layout, then alignment, then the rows; overlapping source and destination leave
the destination free. -/
def State.unpackRun (s : State) (e : EngEntry) (x : Unpack) : Copied :=
  if x.gran ≠ 0 && x.scale % (if x.gran = 2 then 1024 else 512) ≠ 0 then
    .done s (some (.scaleLayout, BitVec.ofNat 64 x.scale)) 0
  else if x.src % 64 ≠ 0 then .done s (some (.alignment, BitVec.ofNat 64 x.src)) 0
  else if x.dst % 128 ≠ 0 then .done s (some (.alignment, BitVec.ofNat 64 x.dst)) 0
  else
    let o := s.unpackRows e x (List.range x.rows)
    match o.poison with
    | some l => .poison l
    | none =>
      let us := o.units.filter fun u => u.pls.isSome && (o.fail.isNone || Config.freeBool 7 s.tick u.num)
      let meet := rangesMeet o.read (us.flatMap fun u => u.pls.getD [])
      let s' := us.foldl (fun s u =>
        s.writeRange (u.pls.getD []) (if meet then (freeBytes s.tick (u.num * 16 + 16)).drop (u.num * 16) else u.bytes)) s
      .done s' o.fail ((us.map (·.over_)).sum)

/-! ## Completion -/

/-- An entry of a copy slot. -/
def State.copyEntry (s : State) (core slot : Nat) : Option EngEntry :=
  ((s.core core).copies.find? fun e => e.1 == slot).map (·.2)

/-- A copy slot freed. -/
def State.freeSlot (s : State) (core slot : Nat) : State :=
  let c := s.core core
  s.setCore { c with copies := c.copies.filter fun e => e.1 != slot }

/-- An entry of a copy slot replaced. -/
def State.setCopy (s : State) (core slot : Nat) (e : EngEntry) : State :=
  let c := s.core core
  s.setCore { c with copies := c.copies.map fun x => if x.1 == slot then (slot, e) else x }

/-- The remote side of a copy is sent: all of it in one packet, or what is left of it. -/
def State.sendSide (s : State) (e : EngEntry) (core slot : Nat) (dst src : W64) (n dsp ssp : Nat) (us : List (Nat × Nat)) :
    BulkSent :=
  if us = unitsOf dst.toNat n then
    if dsp = 3 then s.startBulk e core slot dst true ssp src.toNat n else s.startBulk e core slot src false dsp dst.toNat n
  else if dsp = 3 then s.startUnits e core slot dst true ssp src.toNat us
  else s.startUnits e core slot src false dsp dst.toNat us

/-- Some units of a copy are copied, or those of a remote side sent, before it completes (R187): `n` of them from unit `i` on, all
of them still to be copied and none held back by a fence (R49, R54). One whose checks fail, or that meets a line with an
error, is left to the completion. -/
def State.copyPiece (s : State) (core slot i n : Nat) : State :=
  match s.copyEntry core slot with
  | none => s
  | some e => match e.op with
    | .cpy dst src len dsp ssp _ =>
      let us := ((unitsOf dst.toNat len.toNat).drop i).take n
      let e' := { e with moved := e.moved ++ [(i, us.length)] }
      if (copyMisfit dst src len dsp ssp).isSome || us.isEmpty || !(us.all (e.left dst.toNat len.toNat).contains) || e.started
        || e.fail.isSome || s.heldBack e us then s
      else if dsp = 3 || ssp = 3 then match s.sendSide e core slot dst src len.toNat dsp ssp us with
        | .sent t none => t.setCopy core slot e'
        | _ => s
      else match s.copyUnits e dst.toNat src.toNat len.toNat dsp ssp us with
        | .done t none _ => t.setCopy core slot e'
        | _ => s
    | _ => s

/-- A `cpy` or `cunpack` is over: its slot is freed, its events counted, and it arrives (R187). -/
def State.copyOver (s : State) (core slot : Nat) (e : EngEntry) (ab : Nat) : Copied → State
  | .poison l => s.consumeEngine e l
  | .done s fail n =>
    let s := s.freeSlot core slot
    let (s, cross) := s.engineEvents core e 5 n
    s.arriveFor e ab fail cross

/-- A `cpy` or `cunpack` finishes (R187), or its remote side is sent. A copy of which a fence holds some pieces back waits (R49,
R54). -/
def State.copyComplete (s : State) (core slot : Nat) : State :=
  match s.copyEntry core slot with
  | none => s
  | some e => match e.op with
    | .cpy dst src len dsp ssp ab =>
      let fail := fun (c : Cause) (a : W64) => s.copyOver core slot e ab (.done s (some (c, a)) 0)
      if s.bulkOut core slot then s
      else match copyMisfit dst src len dsp ssp with
        | some (c, a) => fail c a
        | none =>
          let left := e.left dst.toNat len.toNat
          match e.fail with
          | some (c, a) => fail c a
          | none =>
          if left.isEmpty then s.copyOver core slot e ab (.done s none 0)
          else if s.heldBack e left then s
          else if dsp = 3 || ssp = 3 then
            match s.sendSide e core slot dst src len.toNat dsp ssp left with
            | .sent s f => s.setCopy core slot { e with started := true, fail := f }
            | .failed c a => fail c a
            | .poison l => s.consumeEngine e l
          else s.copyOver core slot e ab (if e.moved.isEmpty then s.copyLocal e dst.toNat src.toNat len.toNat dsp ssp
              else s.copyUnits e dst.toNat src.toNat len.toNat dsp ssp left)
    | .cunpack dst src scale srcSlice rows gran ty ab =>
      s.copyOver core slot e ab (s.unpackRun e ⟨dst.toNat, src.toNat, scale.toNat, srcSlice, rows, gran, ty⟩)
    | _ => s

/-- `cpy` (R185). -/
def execCpy (e : Bool) (d a b : BitVec 7) (dsp ssp : BitVec 2) (ab : BitVec 5) (s : State) :
    Host.Outcome State Fault Refusal :=
  issue (.cpy e d a b dsp ssp ab) s fun g s =>
    let r := g.readS (s.cyc g)
    if s.abarUninit g ab.toNat then .trap .illegalOperand 0
    else handOver (.cpy e d a b dsp ssp ab) g s (.cpy (r d) (r a) (r b) dsp.toNat ssp.toNat ab.toNat)

/-- `cunpack` (R188). -/
def execCunpack (e : Bool) (d a b : BitVec 7) (ssp : Bool) (rows gran : BitVec 2) (ty : BitVec 3) (ab : BitVec 5)
    (s : State) : Host.Outcome State Fault Refusal :=
  issue (.cunpack e d a b ssp rows gran ty ab) s fun g s =>
    let r := g.readS (s.cyc g)
    if s.abarUninit g ab.toNat then .trap .illegalOperand 0
    else handOver (.cunpack e d a b ssp rows gran ty ab) g s
      (.cunpack (r d) (r a) (r b) ssp (32 * (rows.toNat + 1)) gran.toNat ty.toNat ab.toNat)

/-! ## Asynchronous barriers -/

/-- A barrier of the group's team changed. -/
def State.setAbar (s : State) (g : Group) (n : Nat) (f : Abar → Abar) : State :=
  match s.team? g.team with
  | some t => s.setTeam { t with abars := t.abars.set n (f (t.abar n)) }
  | none => s

/-- `abar` init (R175): crossings that no wait acquired stay to be reported. -/
def execAbarInit (e : Bool) (a : BitVec 7) (n : BitVec 5) (s : State) : Host.Outcome State Fault Refusal :=
  issue (.abarInit e a n) s fun g s =>
    let v := (g.readS (s.cyc g) a).toNat
    if v = 0 || 65535 < v then .trap .illegalOperand 0
    else
      let s := s.setAbar g n.toNat fun b => { Abar.init with
        expected := v, pending := v, arrivals := b.arrivals, missed := b.missed ++ b.crossed }
      .seq (s.wakeWaits ((s.groups.filter fun h => h.team == g.team).map (·.uid))) g 1

/-- `abar` arrive (R175). -/
def execAbarArrive (e : Bool) (n : BitVec 5) (s : State) : Host.Outcome State Fault Refusal :=
  issue (.abarArrive e n) s fun g s =>
    if s.abarUninit g n.toNat then .trap .illegalOperand 0
    else .seq (s.setAbar g n.toNat fun b => { b with arrivals := b.arrivals + 1 }) g 1

/-- `abar` wait (R175): the last instruction of its run. -/
def execAbarWait (e : Bool) (a : BitVec 7) (n : BitVec 5) (s : State) : Host.Outcome State Fault Refusal :=
  issue (.abarWait e a n) s fun g s =>
    if s.abarUninit g n.toNat then .trap .illegalOperand 0
    else .stop s g 1 (.abarWait n.toNat ((g.readS (s.cyc g) a).getLsbD 0))

/-- An arrival of a group counted (R175): its earlier path-T accesses are performed at their issue. -/
def State.countAbar (s : State) (team n : Nat) : State :=
  match s.team? team with
  | none => s
  | some t =>
    if (t.abar n).arrivals = 0 then s
    else
      let s := s.setTeam { t with abars := t.abars.set n { t.abar n with arrivals := (t.abar n).arrivals - 1 } }
      s.countArrival team n none []

/-! ## What the engines do by themselves -/

/-- `ENGINE_ACCEPT` (R171). -/
def execEngineAccept (g : Nat) (s : State) : Host.Outcome State Fault Refusal := .next (s.engineAccept g)

/-- `MMLOOP_COMPLETE` (R184). -/
def execMmloopComplete (core : Nat) (s : State) : Host.Outcome State Fault Refusal := .next (s.matrixComplete core).sleepIfDue

/-- `COPY_COMPLETE` (R187). -/
def execCopyComplete (core slot : Nat) (s : State) : Host.Outcome State Fault Refusal := .next (s.copyComplete core slot).sleepIfDue

/-- `ABAR_ARRIVAL_COUNT` (R175). -/
def execAbarArrivalCount (team bar : Nat) (s : State) : Host.Outcome State Fault Refusal := .next (s.countAbar team bar)

end Sys2Proof.Machine
end

