-- ==== Sys2Proof/Machine/Buffers.lean ====
section
/-!
DEFINITION. Circular buffers (R191 to R196), and the answers that the remote side of a copy or a fill receives. DESIGN
CHOICE: which slot is freed, and the codes of a misuse (log 14).
-/

namespace Sys2Proof.Machine

open Sys2Proof

/-! ## Buffers -/

/-- The place of buffer `n` of a group's core in its team's table. -/
def Team.bufIx (t : Team) (core n : Nat) : Nat := n + 32 * (core - t.core)

/-- A buffer of a team. -/
def Team.buf (t : Team) (i : Nat) : Option CBuf := t.bufs.getD i none

/-- A team with a buffer replaced. -/
def Team.setBuf (t : Team) (i : Nat) (b : Option CBuf) : Team := { t with bufs := t.bufs.set i b }

/-- Another team owns buffer `n` of a core (R191), be it spilled: a buffer is released when its team ends. -/
def State.bufTaken (s : State) (t : Team) (core n : Nat) : Bool :=
  s.teams.any fun u => u.uid != t.uid && (u.core == core || u.pair && u.core + 1 == core)
    && (u.buf (u.bufIx core n)).isSome

/-- The buffer has fills outstanding: pushes that hold a copy slot, or wait for one (R192, code 6). -/
def State.fillsOut (s : State) (team core i : Nat) : Bool :=
  ((s.core core).copies.any fun e => e.2.team == team && (match e.2.op with | .cbpush b _ _ _ _ => b == i | _ => false))
  || s.groups.any fun g => g.team == team && g.issued.any fun p => p.st == .waiting && (match p.op with
    | .engine (.cbpush b _ _ _ _) _ _ => b == i
    | _ => false)

/-- A slot is popped and not freed (R193). DESIGN CHOICE (log 14): a slot that `cbfree` gave back counts among them until it is
free, so that a release in between is a misuse of code 6. -/
def SlotSt.held : SlotSt → Bool
  | .popped | .freeing => true
  | _ => false

/-- The window offset of a slot (R193). -/
def CBuf.slotAt (b : CBuf) (k : Nat) : Nat := b.base + k * b.size * 64

/-- A buffer initialised by its geometry, if that is valid (R193). -/
def initBuf (t : Team) (base geo : W64) : Option CBuf :=
  let size := bits geo.toNat 15 0
  let n := bits geo.toNat 23 16 + 1
  let room := if t.pair then 2 * t.sliceLen else t.sliceLen
  if size = 0 || 1024 < size || bits geo.toNat 63 24 ≠ 0 || base.toNat % 64 ≠ 0 || room < base.toNat + n * size * 64 then
    none
  else some ⟨base.toNat, size, List.replicate n .free, 0, 0, 0, [], []⟩

/-- The misuse trap with its code (R192, Table 12). -/
def misuse (code : Nat) : Done := .trap .cbMisuse (BitVec.ofNat 32 code)

/-- `cbinit` (R193): initialises a buffer, or with geometry 0 releases it. -/
def execCbinit (e : Bool) (a b : BitVec 7) (n : BitVec 5) (s : State) : Host.Outcome State Fault Refusal :=
  issue (.cbinit e a b n) s fun g s =>
    match s.team? g.team with
    | none => misuse 1
    | some t =>
      let i := t.bufIx g.core n.toNat
      let geo := g.readS (s.cyc g) b
      if s.bufTaken t g.core n.toNat then misuse 2
      else match t.buf i with
        | some c =>
          if geo ≠ 0 then misuse 2
          else if s.fillsOut t.uid g.core i || !c.bound.isEmpty || c.slots.any SlotSt.held then misuse 6
          else .seq (s.setTeam (t.setBuf i none)) g 1
        | none => match initBuf t (g.readS (s.cyc g) a) geo with
          | none => misuse 3
          | some c => .seq (s.setTeam (t.setBuf i (some c))) g 1

/-- `cbpush` (R194). -/
def execCbpush (e : Bool) (a b : BitVec 7) (ssp : BitVec 2) (n : BitVec 5) (s : State) : Host.Outcome State Fault Refusal :=
  issue (.cbpush e a b ssp n) s fun g s =>
    match (s.team? g.team).bind fun t => (t.buf (t.bufIx g.core n.toNat)).map fun c => (t.bufIx g.core n.toNat, c) with
    | none => misuse 1
    | some (i, c) =>
      let len := g.readS (s.cyc g) b
      if len = 0 || c.size * 64 < len.toNat || len.toNat % 4 ≠ 0 then misuse 4
      else handOver (.cbpush e a b ssp n) g s (.cbpush i (g.readS (s.cyc g) a) len ssp.toNat none)

/-! ## Pops -/

/-- The destination of an outstanding pop. -/
def Group.popDest (g : Group) (ticket : Nat) : Option Fld :=
  g.issued.findSome? fun p => if p.idx = ticket then (match p.op with | .cbpop _ _ d => some d | _ => none) else none

/-- The run in which a group issued a ticket goes on. -/
def Group.inRun (g : Group) (ticket : Nat) : Bool := g.stat == .running && ticket / 32 == g.tag

/-- A pop of a group is not looked at: its run goes on (R195), or the group is halted (R261). -/
def State.popHeld (s : State) (uid ticket : Nat) : Bool :=
  match s.group? uid with
  | some g => g.halt != .no || g.inRun ticket
  | none => false

/-- The oldest pop bound to a filled or failed slot of a buffer takes it, once the run of the pop is over (R195): its offset
or its failure returns. DESIGN CHOICE (log 14): a failed slot counts as popped too, and is given back by `cbfree`; what a
pop returns carries the generation that the group has when it is served, so that a pop bound before a spill and served after
the restore is not dropped (R18 against R19). -/
def State.servePop (s : State) (team i k : Nat) : State :=
  match s.team? team with
  | none => s
  | some t => match t.buf i with
    | none => s
    | some b => match b.bound.find? fun x => x.1 == k with
      | none => s
      | some (_, uid, ticket) =>
        if s.popHeld uid ticket then s
        else
        let b' := { b with bound := b.bound.erase (k, uid, ticket), slots := b.slots.set k .popped }
        let s' := (s.setTeam (t.setBuf i (some b'))).markWaited uid ticket
        let back := fun (res : Fld → Result) => match (s.group? uid).bind fun g => g.popDest ticket with
          | some d => s'.ret uid ticket (res d)
          | none => s'.retLost uid ticket t.part (t.core + i / 32)
        match b.slots.getD k .free with
        | .filled => back fun d => Result.scalar d (BitVec.ofNat 64 (b.slotAt k))
        | .failed detail taddr => back fun _ => Result.failed ⟨ticket, .asyncFailed, taddr, 0, detail, false⟩
        | _ => s

/-- The pops of a group's runs that are over looked at anew (R195). -/
def State.servePops (s : State) (uid : Nat) : State :=
  match s.group? uid with
  | none => s
  | some g => g.issued.foldl (fun s p => match p.op with
    | .cbpop i k _ => if p.st == .waiting then s.servePop g.team i k else s
    | _ => s) s

/-- What a group waits for at the end of its run, looked at once the run is over: pops whose slots are filled are served
(R195), and a pop that goes on waiting, or a part without triples, parks the group on a buffer or a queue (R17). -/
def State.parkWaits (s : State) (uid : Nat) : State :=
  let before := match s.group? uid with | some g => g.waited | none => false
  let s := s.servePops uid
  match s.group? uid with
  | none => s
  | some g =>
    let pops := s.teams.any fun t => t.uid == g.team && t.bufs.any fun b => match b with
      | some b => b.bound.any fun x => x.2.1 == uid && x.2.2 / 32 == g.tag
      | none => false
    let parts := s.pkg.convs.any fun c => c.exchanges.any fun x => x.parts.any fun p =>
      p.uid == uid && p.idx / 32 == g.tag && !p.withdrawn && p.popped.isNone
    s.setGroup { g with waited := before || (pops || parts) && g.stat == .endRun }

/-- `cbpop` (R195): it binds the next slot. -/
def execCbpop (e : Bool) (d : BitVec 7) (n : BitVec 5) (s : State) : Host.Outcome State Fault Refusal :=
  issue (.cbpop e d n) s fun g s =>
    match (s.team? g.team).bind fun t => (t.buf (t.bufIx g.core n.toNat)).map fun c => (t, t.bufIx g.core n.toNat, c) with
    | none => misuse 1
    | some (t, i, c) =>
      let k := c.nextPop
      let c := { c with nextPop := (k + 1) % c.slots.length, bound := c.bound ++ [(k, g.uid, g.ticket)] }
      deferred (.cbpop e d n) g (s.setTeam (t.setBuf i (some c))) (.cbpop i k d) 1 fun s => s.servePop t.uid i k

/-! ## Freeing -/

/-- How far the present use of a slot lies behind the oldest popped slot in ring order: one round more for each time that it
was freed before that. -/
def CBuf.age (b : CBuf) (k : Nat) : Nat :=
  b.ahead.count k * b.slots.length + (k + b.slots.length - b.oldest) % b.slots.length

/-- The oldest popped slot, in ring order (R191, R196). -/
def CBuf.oldestPopped (b : CBuf) : Option Nat :=
  ((List.range b.slots.length).filter fun k => b.slots.getD k .free == .popped).foldl (fun best k => match best with
    | none => some k
    | some j => if b.age k < b.age j then some k else some j) none

/-- The position of the oldest popped slot moved past slots that were freed already, at most `n` of them. -/
def CBuf.skipFreed (b : CBuf) : (n : Nat) → CBuf
  | 0 => b
  | n + 1 =>
    if b.ahead.contains b.oldest then
      CBuf.skipFreed { b with ahead := b.ahead.erase b.oldest, oldest := (b.oldest + 1) % b.slots.length } n
    else b

/-- A popped slot given back (R196). -/
def CBuf.giveBack (b : CBuf) (k : Nat) : CBuf :=
  let b := { b with slots := b.slots.set k .freeing, ahead := k :: b.ahead }
  b.skipFreed b.ahead.length

/-- `cbfree` (R196). -/
def execCbfree (e : Bool) (n : BitVec 5) (s : State) : Host.Outcome State Fault Refusal :=
  issue (.cbfree e n) s fun g s =>
    match (s.team? g.team).bind fun t => (t.buf (t.bufIx g.core n.toNat)).map fun c => (t, t.bufIx g.core n.toNat, c) with
    | none => misuse 1
    | some (t, i, c) => match c.oldestPopped with
      | none => misuse 5
      | some k =>
        .seq (s.setTeam (t.setBuf i (some (c.giveBack k)))) g 1

/-- The slots of a buffer that wait to be free become free: earlier path-T accesses are performed at their issue (R196). -/
def State.slotFreed (s : State) (team i : Nat) : State :=
  match s.team? team with
  | none => s
  | some t => match t.buf i with
    | none => s
    | some b => s.setTeam (t.setBuf i (some { b with
        slots := b.slots.map fun x => match x with | .freeing => .free | y => y }))

/-! ## Fills -/

/-- A push in a copy slot is the first of its ring slot that has not begun. -/
def Core.firstFor (c : Core) (slot team i k : Nat) : Bool :=
  match c.copies.find? fun e => e.2.team == team && !e.2.started && (match e.2.op with
    | .cbpush b _ _ _ x => b == i && x == some k
    | _ => false) with
  | some e => e.1 == slot
  | none => false

/-- A fill is over (R194): its slot is marked, its copy slot freed, and a pop that waits for it served. -/
def State.fillOver (s : State) (core slot : Nat) (e : EngEntry) (i k : Nat) : Copied → State
  | .poison l => s.consumeEngine e l
  | .done s fail _ =>
    let s := s.freeSlot core slot
    match s.team? e.team with
    | none => s
    | some t => match t.buf i with
      | none => s
      | some b =>
        let st : SlotSt := match fail with
          | none => .filled
          | some (c, a) => .failed (BitVec.ofNat 32 (asyncDetail c e.idx 3 e.gix + 1)) a
        (s.setTeam (t.setBuf i (some { b with slots := b.slots.set k st }))).servePop t.uid i k

/-- The window offset of the slot that a push fills. -/
def State.fillDest (s : State) (e : EngEntry) (i k : Nat) : Nat :=
  match (s.team? e.team).bind fun t => t.buf i with
  | some b => b.slotAt k
  | none => 0

/-- A push begins to fill its slot once it is free (R194); the remote side is sent. -/
def State.fillStart (s : State) (core slot : Nat) : State :=
  match s.copyEntry core slot with
  | none => s
  | some e => match e.op with
    | .cbpush i src len ssp (some k) =>
      match (s.team? e.team).bind fun t => (t.buf i).map fun b => (t, b) with
      | none => s
      | some (t, b) =>
        if e.started || b.slots.getD k .popped != .free || !(s.core core).firstFor slot e.team i k then s
        else
          let e' := { e with started := true }
          let s := (s.setTeam (t.setBuf i (some { b with slots := b.slots.set k .assigned }))).setCopy core slot e'
          if ssp = 3 && (copyMisfit 0 src len 1 3).isNone then
            match s.startBulk e' core slot src false 1 (b.slotAt k) len.toNat with
            | .sent s _ => s
            | _ => s
          else s
    | _ => s

/-- A fill that is under way becomes visible (R194). -/
def State.fillComplete (s : State) (core slot : Nat) : State :=
  match s.copyEntry core slot with
  | none => s
  | some e => match e.op with
    | .cbpush i src len ssp (some k) =>
      if !e.started || s.bulkOut core slot then s
      else
        let fail := fun (c : Cause) (a : W64) => s.fillOver core slot e i k (.done s (some (c, a)) 0)
        match copyMisfit 0 src len 1 ssp with
        | some (c, a) => fail c a
        | none =>
          if ssp = 3 then fail .remoteRefused src
          else s.fillOver core slot e i k (s.copyLocal e (s.fillDest e i k) src.toNat len.toNat 1 ssp)
    | _ => s

/-! ## Answers to the copy engine -/

/-- The units of a read that came back written where they passed their checks, each or not, freely (R186). -/
def State.writeUnits (s : State) (e : EngEntry) (dsp dst : Nat) (answers : List PktAnswer) : State :=
  answers.foldl (fun s a => match s.side e dsp .write (dst + a.t) a.data.length with
    | .ok q => if a.fail.isNone && Config.freeBool 5 s.tick a.t then s.writeRange q a.data else s
    | _ => s) s

/-- The first failure that the answers to a packet of the copy engine tell. -/
def FabReq.farFail (r : FabReq) (answers : List PktAnswer) : Option (Cause × W64) :=
  let addr := fun t => match r.pkt.threads.find? fun th => th.t == t with | some th => th.addr | none => 0
  answers.findSome? fun a => a.fail.map fun f => (answerCause f.1, addr a.t)

/-- What the answers to a packet of some units make of a copy (R186, R187): its failure, or for a read the units written. -/
def State.answeredUnits (s : State) (e : EngEntry) (r : FabReq) (answers : List PktAnswer) (dsp dst : Nat) : Copied :=
  match e.fail.orElse fun _ => r.farFail answers, r.pkt.op with
  | none, .bulkRead _ => match s.unitSides e dsp .write dst (answers.map fun a => (a.t, a.data.length)) with
    | .ok q => .done (s.writeRange q (answers.flatMap (·.data))) none 0
    | .fail c _ a => .done (s.writeUnits e dsp dst answers) (some (c, a)) 0
    | .poison l => .poison l
  | some f, .bulkRead _ => .done (s.writeUnits e dsp dst answers) (some f) 0
  | f, _ => .done s f 0

/-- What the answers of its remote side make of an operation (R186): its failure, that of its local side first, or for a
read the data written. -/
def State.answered (s : State) (e : EngEntry) (r : FabReq) (answers : List PktAnswer) (dsp dst : Nat) : Copied :=
  match e.fail.orElse fun _ => r.farFail answers, r.pkt.op with
  | none, .bulkRead n => s.writeSide e dsp dst ((answers.flatMap (·.data)).take n)
  | some f, .bulkRead _ => .done (s.writeUnits e dsp dst answers) (some f) 0
  | f, _ => .done s f 0

/-- The answer to a packet of some units of a copy taken: the copy is over with its last packet. -/
def State.unitsAnswer (s : State) (core slot : Nat) (e : EngEntry) (ab : Nat) : Copied → State
  | .poison l => s.consumeEngine e l
  | .done s f _ =>
    let e := { e with fail := f }
    if !e.started || s.bulkOut core slot then s.setCopy core slot e else s.copyOver core slot e ab (.done s f 0)

/-- The answer to a request of the copy engine taken: the operation of its slot is over, unless some of its units are still to be
sent or answered. -/
def State.copyAnswer (s : State) (r : FabReq) (core slot : Nat) (answers : List PktAnswer) : State :=
  let s := { s with fabric := { s.fabric with
    reqs := s.fabric.reqs.filter fun q => q.id != r.id
    outbox := s.fabric.outbox.filter fun i => i != r.id } }
  match s.copyEntry core slot with
  | none => s
  | some e =>
    if e.uid ≠ r.uid || e.since ≠ r.since then s
    else match e.op with
      | .cpy dst _ _ dsp _ ab =>
        if e.moved.isEmpty then s.copyOver core slot e ab (s.answered e r answers dsp dst.toNat)
        else s.unitsAnswer core slot e ab (s.answeredUnits e r answers dsp dst.toNat)
      | .cbpush i _ _ _ (some k) => s.fillOver core slot e i k (s.answered e r answers 1 (s.fillDest e i k))
      | _ => s

/-- The answers to a request taken, whether it serves an instruction or a copy slot; a list that waits for the request gets its
entry (R297). -/
def State.answer (s : State) (r : FabReq) (answers : List PktAnswer) : State :=
  let s := s.settleRemote r answers
  match r.copy with
  | none => s.takeAnswers r answers
  | some (core, slot) => s.copyAnswer r core slot answers

/-! ## What buffers do by themselves -/

/-- `CB_FILL_START` (R194). -/
def execCbFillStart (core slot : Nat) (s : State) : Host.Outcome State Fault Refusal := .next (s.fillStart core slot)

/-- `CB_FILL_COMPLETE` (R194). -/
def execCbFillComplete (core slot : Nat) (s : State) : Host.Outcome State Fault Refusal := .next (s.fillComplete core slot).sleepIfDue

/-- `CBFREE_SLOT_FREED` (R196). -/
def execCbfreeSlotFreed (team buf : Nat) (s : State) : Host.Outcome State Fault Refusal := .next (s.slotFreed team buf)

end Sys2Proof.Machine
end

