-- ==== Sys2Proof/Machine/Conv.lean ====
section
/-!
DEFINITION. Instructions at the gate: how the gate resolves and processes one that arrives (R198 to R232), the steps that
wait, the crossing of words, and how an exchange completes.
-/

namespace Sys2Proof.Machine

open Sys2Proof

/-! ## Resolving a role register -/

/-- The world of a group. -/
def Group.world (g : Group) : Nat := worldId g.part g.ctx

/-- A role register resolved at the gate (R198, R199, R208, R231): the state after a failure, or the conversation and the
role. -/
inductive Resolved where
  | failed (s : State)
  | ok (c : Conv) (role : Nat)
deriving DecidableEq, Repr

/-- A party is needed where none stands: the role of a share instruction, an accept or a burn, or the role that a deal
names (R208, reason 3). -/
def DOp.lacksParty (op : DOp) (c : Conv) (role : Nat) : Bool :=
  match op with
  | .taccept _ _ _ _ | .tburn _ _ _ | .gate _ _ _ _ => decide (c.np ≤ role)
  | .tsend _ _ _ _ dst => decide (c.np ≤ dst)
  | _ => false

/-- The checks of a bound role that come first in the order of R208: its conversation is not aborted (R231), a party where
one is needed, and the role held by the caller's world. None: it passes. -/
def State.barred (s : State) (g : Group) (idx : Nat) (c : Conv) (role : Nat) (op : DOp) : Option State :=
  let fail := fun (cause : Cause) (why : Nat) =>
    some (s.gateFail g.uid idx cause (gateDetail c.num c.state role (stepKind op) why) op.gateThreads 0)
  if c.aborted then fail .convAborted 0
  else if op.lacksParty c role then fail .outOfTurn 3
  else if (c.role role).world ≠ g.world then fail .outOfTurn 6
  else none

/-- A role register resolved for an instruction, in the order of R208: unbound, of an aborted conversation, not a party
where one is needed, or no longer held by the caller's world. -/
def State.resolve (s : State) (g : Group) (idx reg : Nat) (op : DOp) : Resolved :=
  let v := g.gateRole.getD reg 0
  let role := roleNum v
  if v = 0 then .failed (s.gateFail g.uid idx .outOfTurn (gateDetail 0 0 0 (stepKind op) 3) op.gateThreads 0)
  else match s.conv? (roleConv v) with
    | none => .failed (s.gateFail g.uid idx .convAborted (gateDetail (roleConv v) 0 role (stepKind op) 0) op.gateThreads 0)
    | some c => match s.barred g idx c role op with
      | some s => .failed s
      | none => .ok c role

/-! ## Steps -/

/-- A group's role register as the gate has it, replaced. -/
def State.setGateRole (s : State) (uid reg : Nat) (v : W64) : State :=
  match s.group? uid with
  | some g => s.setGroup { g with gateRole := g.gateRole.set reg v }
  | none => s

/-- The gate counts a role register of a group as bound to a conversation (R306). -/
def State.setBound (s : State) (uid reg cn : Nat) : State :=
  match s.group? uid with
  | some g => s.setGroup { g with bound := g.bound.set reg (some cn) }
  | none => s

/-- `cdeleg` at the gate (R213). DESIGN CHOICE (log 16): where the target is the caller's own world, its pending receives and its other
bindings stay, since the role is still its. -/
def State.gateDeleg (s : State) (c : Conv) (role uid idx reg : Nat) (v : W64) : State :=
  let fail := fun (why : Nat) => s.convFail c role 0 uid idx .outOfTurn why
  let target := bits v.toNat 11 0
  let allowed := match s.choreo? c.choreo with | some ch => ch.deleg.getD c.state false | none => false
  if bits v.toNat 31 12 ≠ 0 || !c.permits.contains (Config.ownDevice, target) then fail 5
  else if c.exchanges.any fun x => match x.part? role with | some p => !p.finished | none => false then fail 9
  else if !allowed then fail 5
  else
    let ro := c.role role
    let moved := target ≠ ro.world
    let waits := if moved then ro.recvs.map (fun w => (w.1, w.2.1, w.2.2))
      ++ (c.party role).accepts.map (fun w => (w.1, w.2.1, 0)) else []
    let c' := c.setRole role { ro with
      world := target, ticket := BitVec.ofNat 32 (bits v.toNat 63 32), recvs := if moved then [] else ro.recvs }
    let c' := if moved then c'.setParty role { c'.party role with accepts := [] } else c'
    let s := waits.foldl (fun s (uid, idx, k) => s.convFail c role k uid idx .outOfTurn 6) (s.setConv c')
    (s.setGateRole uid reg 0).ret uid idx { Result.empty with roles := [(reg, 0)] }

/-- A range of the issuing group read by an `xopen` (R227), or its failure. -/
inductive TileRead where
  | bytes (bs : List Byte)
  | failed (s : State)
  | poison (line : Nat)
deriving DecidableEq, Repr

/-- The bytes that a gate share instruction reads: those of an `xopen`. -/
def State.tileRead (s : State) (g : Group) (idx : Nat) : GateOp → TileRead
  | .xopen _ src len _ srcSlice =>
    match s.range g.part g.ctx g.team srcSlice .read src.toNat len.toNat with
    | .fail cause d a => .failed (s.ret g.uid idx (Result.failed ⟨idx, cause, a, 0, accessDetail d false false,
        cause.replayable⟩))
    | .poison l => .poison l
    | .ok pls => match s.badIn pls with
      | some l => .poison l
      | none => .bytes (s.readRange pls)
  | _ => .bytes []

/-- A step of a role, or a gate share instruction, whose role is resolved, processed in its turn (R206, R207): none while
it waits for room. The bytes of an `xopen` are read once R207 lets it open or join an exchange (R222). -/
def State.takeStep (s : State) (g : Group) (c : Conv) (role idx since : Nat) : DOp → Option State
  | .csend _ kind payload choose => s.gateSend c role g.uid idx kind payload choose
  | .cdeleg reg v => some (s.gateDeleg c role g.uid idx reg v)
  | .tsend _ q addr len dst => match s.gateDeal c role g.uid idx q addr len dst since with
    | .done s => some s
    | .waits => none
    | .poison l => some (s.lineError l (some (g.namedAt idx)))
  | .gate op k items dst =>
    let refused := if (op == .sltz || op == .sb2a) && c.np ≠ 2 then some 8 else s.shareRefused c role op
    match refused with
    | some why => some (s.gateFail g.uid idx .outOfTurn (gateDetail c.num c.state role op.kind why) (gateMask op items) 0)
    | none => match s.tileRead g idx op with
      | .failed s => some s
      | .poison l => some (s.lineError l (some (g.namedAt idx)))
      | .bytes bs => some (s.gateShare c role g.uid idx op k dst items bs)
  | _ => some s

/-! ## Other instructions -/

/-- `cbind` at the gate (R209): the checks in their order, then the binding. -/
def State.gateBind (s : State) (g : Group) (idx reg : Nat) (h : W64) : State :=
  let role := roleNum h
  let prot := fun (why : Nat) => s.gateFail g.uid idx .protection (BitVec.ofNat 32 (why * 2 ^ 16)) 0 0
  match s.conv? (roleConv h) with
  | none => prot 1
  | some c =>
    if c.destroyed then prot 1
    else if c.aborted then s.gateFail g.uid idx .convAborted (gateDetail c.num c.state role 0 0) 0 0
    else if !(c.role role).used || (c.role role).world ≠ g.world then prot 2
    else if (c.role role).ticket ≠ (h >>> 32).setWidth 32 then prot 3
    else if bits h.toNat 19 2 ≠ 0 then prot 4
    else
      let v := roleValue c.np c.choreo c.num role
      ((s.setGateRole g.uid reg v).setBound g.uid reg c.num).ret g.uid idx { Result.empty with roles := [(reg, v)] }

/-- `cstate` at the gate (R214): it completes on an aborted conversation too. -/
def State.gateState (s : State) (g : Group) (idx reg : Nat) (d : Fld) : State :=
  let v := g.gateRole.getD reg 0
  let role := roleNum v
  match if v = 0 then none else s.conv? (roleConv v) with
  | none => s.gateFail g.uid idx .outOfTurn (gateDetail 0 0 0 0 3) 0 0
  | some c =>
    if (c.role role).world ≠ g.world then s.convFail c role 0 g.uid idx .outOfTurn 6
    else
      let next := if c.np ≤ role then 0 else if c.aborted then (c.party role).nextA else (c.party role).headIdx 0
      s.ret g.uid idx (Result.scalar d (BitVec.ofNat 64
        (next % 2 ^ 32 * 2 ^ 32 + (c.role role).queue.length * 2 ^ 20 + (if c.aborted then 2 else 1) * 2 ^ 8 + c.state)))

/-- `tburn` at the gate (R220): what it frees may let an accept go on (R218). -/
def State.gateBurn (s : State) (c : Conv) (role uid idx q : Nat) (n : W64) : State :=
  let pa := c.party role
  ((s.setConv (c.setParty role (pa.setQueue q ((pa.queue q).drop n.toNat)))).ret uid idx Result.empty).settle c.num

/-- A receive at the gate, once its role is resolved (R211). -/
def State.gateRecv (s : State) (c : Conv) (role uid idx kind : Nat) : State :=
  if 12 ≤ kind then s.convFail c role kind uid idx .outOfTurn 2
  else
    let ro := c.role role
    (s.setConv (c.setRole role { ro with recvs := ro.recvs ++ [(uid, idx, kind)] })).serveRecvs c.num role
      (ro.recvs ++ [(uid, idx, kind)])

/-- An accept at the gate, once its role is resolved (R218). -/
def State.gateAccept (s : State) (c : Conv) (role uid idx q : Nat) : State :=
  let pa := c.party role
  (s.setConv (c.setParty role { pa with accepts := pa.accepts ++ [(uid, idx, q)] })).settle c.num

/-- An instruction that the gate processes in its turn (R198): its role register is resolved now. None while it waits for
room; `since` is the step of its arrival. -/
def State.process (s : State) (uid idx since : Nat) (op : DOp) : Option State :=
  match s.group? uid with
  | none => some s
  | some g =>
    match op with
    | .cbind reg h => some (s.gateBind g idx reg h)
    | .cstate reg d => some (s.gateState g idx reg d)
    | _ => match s.resolve g idx (op.roleReg.getD 0) op with
      | .failed s => some s
      | .ok c role => match op with
        | .crecv _ kind _ => some (s.gateRecv c role uid idx kind)
        | .cabort _ => some ((s.abortBy c.num 3 g.world).ret uid idx Result.empty)
        | .taccept _ q _ _ => some (s.gateAccept c role uid idx q)
        | .tburn _ q n => some (s.gateBurn c role uid idx q n)
        | _ => s.takeStep g c role idx since op

/-- A conversation or gate instruction that arrives at the gate (R198, R210, R232): it waits behind the instructions of its
group and of its role that wait there, and else is processed at once, unless it must wait for room. -/
def State.gateArrive (s : State) (uid idx : Nat) (op : DOp) : State :=
  let d : Delayed := ⟨uid, idx, op, s.tick⟩
  let wait : State := { s with pkg := { s.pkg with waits := s.pkg.waits ++ [d] } }
  if op.roleReg.isNone || (s.group? uid).isNone then s
  else if d.behind s s.pkg.waits then wait
  else (s.process uid idx s.tick op).getD wait

/-! ## What happens at the gate by itself -/

/-- The first instruction that waits at the gate for its turn, stands behind no other one, and is of a role or of none: it is
processed, if there is room now (R198, R210, R218, R232). DESIGN CHOICE (log 16): a step that waited is
checked anew, in the state as it is at its acceptance, since its world may have lost the role and other roles' steps may have gone
before it. -/
def State.acceptStep (s : State) (cn role : Nat) : Option State :=
  match s.firstWaits.find? fun x => (x.2.role s).all fun r => r == (cn, role) with
  | none => none
  | some (before, d) =>
    State.process { s with pkg := { s.pkg with waits := before ++ s.pkg.waits.drop (before.length + 1) } }
      d.uid d.idx d.since d.op

/-- The words of an OPEN exchange delivered to the roles of its recipient mask that are no party (R227, R267). -/
def Conv.tell (c : Conv) (x : Exchange) (party : Nat) (ws : List Nat) : Conv :=
  { c with roles := c.roles.mapIdx fun r ro =>
      if c.np ≤ r && ro.used && x.sends party r then { ro with opened := ro.opened ++ ws } else ro }

/-- `n` more words of a party's part of an exchange cross the gate (R222). -/
def State.crossWords (s : State) (cn ex party n : Nat) : State :=
  match s.conv? cn with
  | none => s
  | some c => match c.exchanges.find? fun x => x.num == ex with
    | none => s
    | some x => match x.part? party with
      | none => s
      | some pt =>
        if pt.popped.isNone then s
        else
          let m := min (pt.crossed + n) pt.nwords
          s.setConv ((c.setExchange (x.setPart { pt with crossed := m })).tell x party
            ((pt.openWords.drop pt.crossed).take (m - pt.crossed)))

/-- A party's part of an exchange is to complete: every party has joined, its own words have crossed, and so have those
bound for it. -/
def Conv.partReady (c : Conv) (x : Exchange) (pt : Part) : Bool :=
  !pt.finished && pt.joined && x.allJoined c.np && decide (pt.nwords ≤ pt.crossed) && x.got c.np pt.party

/-- A party's part of an exchange completes (R222); the exchange closes with its last part (R207). -/
def State.completePart (s : State) (cn ex party : Nat) : State :=
  match s.conv? cn with
  | none => s
  | some c => match c.exchanges.find? fun x => x.num == ex with
    | none => s
    | some x => match x.part? party with
      | none => s
      | some pt =>
        if !c.partReady x pt then s
        else
          let x' := x.setPart { pt with finished := true }
          let closed := x'.allJoined c.np && x'.parts.all fun p => p.finished
          let c' := if closed then { c with exchanges := c.exchanges.filter fun y => y.num != ex } else c.setExchange x'
          (s.setConv c').finishPart c x pt

/-- A part whose queue is short of triples withdraws from its exchange (R229): the instruction fails with triple starvation.
A halted group's wait does not count (R260). The parts that it held back go on. -/
def State.starve (s : State) (uid idx : Nat) : State :=
  match s.group? uid with
  | none => s
  | some g =>
    let limited := match s.part? g.part with | some p => p.stalllim ≠ 0 | none => false
    let found := s.pkg.convs.findSome? fun c => c.exchanges.findSome? fun x =>
      (x.parts.find? fun p => p.uid == uid && p.idx == idx && !p.withdrawn && p.popped.isNone).map fun p => (c, x, p)
    match found with
    | none => s
    | some (c, x, p) =>
      let (q, n) := p.op.need p.k p.items.length
      let short := decide (((c.party p.party).queue q).length < n)
      if !limited || !short || g.halt ≠ .no then s
      else ((s.setConv (c.setExchange (x.setPart { p with withdrawn := true }))).gateFail uid idx .tripleStarvation
        (gateDetail c.num c.state p.party x.kind 0) (gateMask p.op p.items) 0).settle c.num

/-- `GATE_SEND_ACCEPT` (R210, R218). -/
def execGateSendAccept (conv role : Nat) (s : State) : Host.Outcome State Fault Refusal :=
  .next ((s.acceptStep conv role).getD s)

/-- `GATE_EXCHANGE_COMPLETE` (R222). -/
def execGateExchangeComplete (conv ex party : Nat) (s : State) : Host.Outcome State Fault Refusal :=
  .next (s.completePart conv ex party)

/-- `TRIPLE_STARVATION` (R229). -/
def execTripleStarvation (g idx : Nat) (s : State) : Host.Outcome State Fault Refusal :=
  .next (s.starve g idx)

end Sys2Proof.Machine
end

