-- ==== Sys2Proof/Machine/Remote.lean ====
section
/-!
DEFINITION. Remote instructions (R162 to R169), and what happens at the fabric: packets that arrive, acknowledgements,
resends (R59, R60), and ports (R337).
-/

namespace Sys2Proof.Machine

open Sys2Proof

/-! ## Remote instructions -/

/-- Registers of a data operand by its size code (R162, Table 7). -/
def sizeRegs (size : BitVec 2) : Nat := 2 ^ size.toNat

/-- A captured remote instruction (R162): thread, rank, address and data of every active thread; `data` and `n` give the
registers that are sent. -/
def Group.remoteItems (g : Group) (a b : Fld) (data : Option (Fld × Nat)) : List RemoteItem :=
  (threads g.active g.width.n).map fun t =>
    (t, (g.v b).get t, g.pair a t, match data with | some (f, k) => BitVec.ofNat 128 (g.wide f k t) | none => 0)

/-- A remote instruction: every active thread names its rank in `v[b]` and its address in the pair `v[a]`; `data` and `n`
give the registers that are sent. -/
def remoteInstr (i : Instr) (s : State) (a b : Fld) (data : Option (Fld × Nat)) (op : Group → State → PktOp)
    (dst : Group → Nat) (n : Nat) (ret : Bool) : Host.Outcome State Fault Refusal :=
  issue i s fun g s =>
    if g.active = 0 then .seq s g (g.vcost false)
    else
      let items := g.remoteItems a b data
      deferred i g s (.remote (op g s) items (dst g) n ret) (g.vcost false) fun s =>
        s.remoteIssue g.uid g.ticket s.tick (op g s) items (dst g) n ret

/-- `xsend` (R165): its flag address is captured at issue. -/
def execXsend (e : Bool) (d a b : BitVec 7) (nf fsp sp : Bool) (size : BitVec 2) (x : BitVec 7) (s : State) :
    Host.Outcome State Fault Refusal :=
  remoteInstr (.xsend e d a b nf fsp sp size x) s a b (some (d, sizeRegs size))
    (fun g s => .send (4 * sizeRegs size) sp (if nf then none else some ⟨fsp, g.readS (s.cyc g) x⟩)) (fun _ => 0) 0 false

/-- `xget` (R165). -/
def execXget (e : Bool) (d a b : BitVec 7) (sp : Bool) (size : BitVec 2) (s : State) : Host.Outcome State Fault Refusal :=
  remoteInstr (.xget e d a b sp size) s a b none (fun _ _ => .get (4 * sizeRegs size) sp) (fun g => g.reg d)
    (sizeRegs size) true

/-- `xred` (R165). -/
def execXred (e : Bool) (d a b : BitVec 7) (op : BitVec 4) (ret sp : Bool) (size : BitVec 2) (x : BitVec 7) (s : State) :
    Host.Outcome State Fault Refusal :=
  remoteInstr (.xred e d a b op ret sp size x) s a b (some (x, sizeRegs size))
    (fun _ _ => .red op.toNat (4 * sizeRegs size) sp) (fun g => g.reg d) (sizeRegs size) ret

/-- `xapp` (R167). -/
def execXapp (e : Bool) (d a b : BitVec 7) (ret : Bool) (size : BitVec 2) (x : BitVec 7) (s : State) :
    Host.Outcome State Fault Refusal :=
  remoteInstr (.xapp e d a b ret size x) s a b (some (x, sizeRegs size)) (fun _ _ => .app (4 * sizeRegs size))
    (fun g => g.reg d) 1 ret

/-! ## Packets -/

/-- A port of a partition is up (R337). -/
def State.reachable (s : State) (part : Nat) : Bool := s.outPort part < 32

/-- A packet reaches this device (R59): one of its own that is on its way, whose answers then travel back; or one of
another device, through a port of the target partition that is up (R337), whose answers leave with the fabric. -/
def State.remoteArrive (s : State) (p : Packet) : State :=
  if p.tgtDev ≠ Config.ownDevice then s
  else if p.srcDev ≠ Config.ownDevice then (if s.reachable p.tgtPart then (s.receive p).1 else s)
  else match s.fabric.reqs.find? fun r =>
      r.pkt.srcWorld == p.srcWorld && r.pkt.tgtDev == p.tgtDev && r.pkt.seq == p.seq && s.fabric.outbox.contains r.id with
    | none => s
    | some r =>
      let s := { s with fabric := { s.fabric with outbox := s.fabric.outbox.filter fun i => i != r.id } }
      let (s, as) := s.receive r.pkt
      { s with fabric := { s.fabric with replies := s.fabric.replies ++ [⟨r.id, as⟩] } }

/-- An acknowledgement reaches its source (R164): that of this device itself as it stands, one of another device as it is
given, if it answers the packet's threads and the request left by a port that is up (R337). -/
def State.remoteAck (s : State) (req : Nat) (answers : List PktAnswer) : State :=
  match s.fabric.reqs.find? fun r => r.id == req with
  | none => { s with fabric := { s.fabric with replies := s.fabric.replies.filter fun x => x.req != req } }
  | some r =>
    if r.pkt.tgtDev = Config.ownDevice then
      match s.fabric.replies.find? fun x => x.req == req with
      | none => s
      | some x =>
        { s with fabric := { s.fabric with replies := s.fabric.replies.filter fun y => y.req != req } }.answer r x.answers
    else if r.port < 32 && answers.map (·.t) == r.pkt.threads.map (·.t) then s.answer r answers
    else s

/-- A port changed. -/
def State.updPort (s : State) (k : Nat) (f : Port → Port) : State :=
  match s.pkg.ports[k]? with
  | some p => { s with pkg := { s.pkg with ports := s.pkg.ports.set k (f p) } }
  | none => s

/-- A request sent again under its number, through the port it now leaves by (R60, R337). -/
def State.sendAgain (s : State) (r : FabReq) (counted : Bool) : State :=
  let k := s.portFor r.part r.pkt.tgtDev
  let r' := { r with resends := if counted then r.resends + 1 else r.resends, port := k }
  let s := { s with fabric := { s.fabric with
    reqs := s.fabric.reqs.map fun (q : FabReq) => if q.id == r.id then r' else q
    outbox := if r.pkt.tgtDev = Config.ownDevice && !s.fabric.outbox.contains r.id then s.fabric.outbox ++ [r.id]
      else s.fabric.outbox } }
  s.updPort k fun p => { p with resends := p.resends + 1 }

/-- A request that met no acknowledgement within its interval (R60): sent again, or failed after seven resends. -/
def State.remoteResend (s : State) (req : Nat) : State :=
  match s.fabric.reqs.find? fun r => r.id == req with
  | none => s
  | some r =>
    if r.resends < 7 then s.sendAgain r true
    else (s.updPort r.port fun p => { p with timeouts := p.timeouts + 1 }).answer r (allFail r.pkt .fabricTimeout 0)

/-! ## Ports (R337) -/

/-- A saturating count of 16 bits. -/
def sat16 (n : Nat) : Nat := min n 65535

/-- A port loses lanes, or goes down: its packets are sent again through another port of the same partition. -/
def State.portDown (s : State) (k lanes : Nat) : State :=
  match s.pkg.ports[k]? with
  | none => s
  | some p =>
    if !p.up || p.lanes ≤ lanes then s
    else if lanes ≠ 0 then (s.updPort k fun p => { p with lanes := lanes }).errPush (Cper.plain 3 3 k)
    else
      let s := (s.updPort k fun p => { p with up := false, lanes := 0, flaps := sat16 (p.flaps + 1) }).errPush
        (Cper.plain 3 0 k)
      (s.fabric.reqs.filter fun r => r.port == k).foldl (fun s r => s.sendAgain r false) s

/-- A port comes up with some lanes, or gains lanes. -/
def State.portUp (s : State) (k lanes : Nat) : State :=
  match s.pkg.ports[k]? with
  | none => s
  | some p =>
    if lanes = 0 || 4 < lanes then s
    else if p.up then (if p.lanes < lanes then s.updPort k fun p => { p with lanes := lanes } else s)
    else (s.updPort k fun p => { p with up := true, lanes := lanes, flaps := sat16 (p.flaps + 1) }).errPush
      (Cper.plain 3 3 k)

/-! ## Steps of the fabric -/

/-- `REMOTE_REQUEST` (R59). -/
def execRemoteRequest (p : Packet) (s : State) : Host.Outcome State Fault Refusal := .next (s.remoteArrive p).sleepIfDue

/-- `REMOTE_ACK` (R164). -/
def execRemoteAck (req : Nat) (answers : List PktAnswer) (s : State) : Host.Outcome State Fault Refusal :=
  .next (s.remoteAck req answers).sleepIfDue

/-- `REMOTE_RESEND` (R60). -/
def execRemoteResend (req : Nat) (s : State) : Host.Outcome State Fault Refusal := .next (s.remoteResend req).sleepIfDue

/-- `PORT_DOWN` (R337). -/
def execPortDown (port lanes : Nat) (s : State) : Host.Outcome State Fault Refusal := .next (s.portDown port lanes)

/-- `PORT_UP` (R337). -/
def execPortUp (port lanes : Nat) (s : State) : Host.Outcome State Fault Refusal := .next (s.portUp port lanes)

end Sys2Proof.Machine
end

