-- ==== Sys2Proof/Machine/Launch.lean ====
section
/-!
DEFINITION. Launch records, queues and event counters (R250 to R255, R92), where teams fit (R10, R256), and how teams
and launches complete. DEDUCED: order of placement (log 18).
-/

namespace Sys2Proof.Machine

open Sys2Proof

/-! ## Where a team fits (R10, R256) -/

/-- Register rows held on a lane. -/
structure Resident where
  core : Nat
  lane : Nat
  bytes : Nat
deriving DecidableEq, Repr

/-- A slice range held on a core. -/
structure Taken where
  core : Nat
  off : Nat
  len : Nat
deriving DecidableEq, Repr

/-- What groups and teams hold. -/
structure Occ where
  rows : List Resident
  slices : List Taken
deriving DecidableEq, Repr

/-- What a launch asks of the cores for each team. -/
structure Ask where
  pair : Bool
  len : Nat
  bytes : Nat
  ngroups : Nat
deriving DecidableEq, Repr

/-- Bytes of a register allocation (R10). -/
def rowBytes (alloc w : Nat) : Nat := alloc * w * 4

/-- The width of a code (R252, Table 2). -/
def Width.ofCode : Nat → Width
  | 0 => .w16
  | 1 => .w32
  | _ => .w64

/-- What a record asks for each team. -/
def Record.ask (r : Record) : Ask :=
  ⟨r.pair, r.slice * 4096, rowBytes ((r.regs + 1) * 16) (Width.ofCode r.wc).n, r.gpt + 1⟩

/-- The lane of a subcore that a group takes (R256): of those with room, the one with the fewest groups, then the lowest. -/
def Occ.lane (o : Occ) (core sub bytes : Nat) : Option Nat :=
  let here := fun l => o.rows.filter fun r => r.core == core && r.lane == l
  let count := fun l => (here l).length
  let cands := ((List.range 16).map fun k => 16 * sub + k).filter fun l =>
    count l < 8 && ((here l).map (·.bytes)).sum + bytes ≤ 32768
  cands.foldl (fun best l => match best with
    | none => some l
    | some b => if count l < count b then some l else some b) none

/-- The core and the subcore of group `g` of a team (R256). -/
def Ask.seat (a : Ask) (core g : Nat) : Nat × Nat := if a.pair then (core + g % 2, g / 2 % 4) else (core, g % 4)

/-- The core and lane of each group of a team, in ascending `gix`: `n` groups from `g` on. -/
def Occ.lanes (o : Occ) (a : Ask) (core : Nat) : (n g : Nat) → Option (List (Nat × Nat))
  | 0, _ => some []
  | n + 1, g =>
    let (c, sub) := a.seat core g
    match o.lane c sub a.bytes with
    | none => none
    | some l =>
      (Occ.lanes { o with rows := o.rows ++ [⟨c, l, a.bytes⟩] } a core n (g + 1)).map fun ls => (c, l) :: ls

/-- The cores of a team placed at a core. -/
def Ask.cores (a : Ask) (core : Nat) : List Nat := if a.pair then [core, core + 1] else [core]

/-- A slice range is free on the cores of a team. -/
def Occ.sliceFree (o : Occ) (cores : List Nat) (off len : Nat) : Bool :=
  off + len ≤ sliceSize && !o.slices.any fun t =>
    cores.contains t.core && decide (0 < len) && decide (0 < t.len) && decide (off < t.off + t.len)
      && decide (t.off < off + len)

/-- The lowest free slice range, at a multiple of 4 KiB (R256). -/
def Occ.sliceAt (o : Occ) (cores : List Nat) (len : Nat) : Option Nat :=
  ((List.range 513).map (· * 4096)).find? fun off => o.sliceFree cores off len

/-- Where a team fits on a core or a pair: its slice offset, and the core and lane of each group. -/
def Occ.fit (o : Occ) (a : Ask) (core : Nat) : Option (Nat × List (Nat × Nat)) :=
  match o.sliceAt (a.cores core) a.len, o.lanes a core a.ngroups 0 with
  | some off, some ls => some (off, ls)
  | _, _ => none

/-- What is held once a team stands where it fits. -/
def Occ.put (o : Occ) (a : Ask) (core off : Nat) (ls : List (Nat × Nat)) : Occ :=
  ⟨o.rows ++ ls.map fun (c, l) => ⟨c, l, a.bytes⟩, o.slices ++ (a.cores core).map fun c => ⟨c, off, a.len⟩⟩

/-- How many teams fit on a core or a pair, at most `fuel`. -/
def Occ.capacity (o : Occ) (a : Ask) (core : Nat) : (fuel : Nat) → Nat
  | 0 => 0
  | fuel + 1 => match o.fit a core with
    | none => 0
    | some (off, ls) => 1 + Occ.capacity (o.put a core off ls) a core fuel

/-- The cores on which a launch's teams may be placed (R256, R266), by the even core for pairs. -/
def Partition.eligible (p : Partition) (cres pair : Bool) : List Nat :=
  let ok := fun c => p.holdsCore c && p.resvcore.getLsbD c == cres && !p.removing.contains c
  if pair then (List.range 256).filter fun c => c % 2 == 0 && ok c && ok (c + 1)
  else (List.range 256).filter ok

/-- A team stands on a core, or will when it is restored. -/
def Team.covers (t : Team) (core : Nat) : Bool := core == t.core || t.pair && core == t.core + 1

/-- A core holds only teams of launches with CRES as given (R257): a core whose reservation was changed takes the other kind
once the teams on it have completed. -/
def State.coreOpen (s : State) (p : Partition) (cres : Bool) (core : Nat) : Bool :=
  s.teams.all fun t => !(t.part == p.num && t.covers core) || (match p.launch? t.lid with
    | some l => l.record.cres == cres
    | none => true)

/-- The candidates in the order in which they are tried (R256, R257): after the last core used, wrapping. -/
def State.candidates (s : State) (p : Partition) (cres pair : Bool) : List Nat :=
  let l := (p.eligible cres pair).filter fun c => s.coreOpen p cres c && (!pair || s.coreOpen p cres (c + 1))
  match p.lastCore with
  | none => l
  | some k => l.filter (fun c => k < c) ++ l.filter fun c => c ≤ k

/-- A cooperative launch fits the partition with every eligible core empty (R252, BADWHY 8). The cores are alike, so one
count serves them all. -/
def Partition.coopFits (p : Partition) (r : Record) : Bool :=
  r.nteam ≤ (p.eligible r.cres r.pair).length * (Occ.mk [] []).capacity r.ask 0 513

/-! ## Records (R252) -/

/-- Word `i` of a record or of a table. -/
def word64 (bs : List Byte) (i : Nat) : Nat := leNat ((bs.drop (8 * i)).take 8)

/-- A record from its 128 bytes (R252, Table 2). -/
def Record.parse (bs : List Byte) : Record :=
  let w := word64 bs
  let n := w 1
  { code := BitVec.ofNat 64 (w 0), cres := bitAt n 36, pair := bitAt n 35, coop := bitAt n 34, prio := bits n 33 32
    slice := bits n 25 16, regs := bits n 12 8, gpt := bits n 6 2, wc := bits n 1 0, nteam := bits (w 2) 24 0
    trapv := BitVec.ofNat 64 (w 3), pgt := BitVec.ofNat 64 (w 4), save := BitVec.ofNat 64 (w 5)
    slot := bits (w 6) 55 32, nslot := bits (w 6) 31 0
    deps := (List.range 4).map fun i => if bitAt (w (7 + i)) 63 then some (bits (w (7 + i)) 55 48, bits (w (7 + i)) 47 0)
      else none
    signal := if bitAt (w 11) 63 then some (bits (w 11) 55 48) else none
    args := (List.range 4).map fun i => BitVec.ofNat 64 (w (12 + i)) }

/-- The reserved fields of a record are 0 (R252, Table 2). -/
def recordClean (bs : List Byte) : Bool :=
  let w := word64 bs
  bits (w 1) 63 37 == 0 && bits (w 1) 31 26 == 0 && bits (w 1) 15 13 == 0 && !bitAt (w 1) 7 && bits (w 2) 63 25 == 0
    && bits (w 6) 63 56 == 0 && ((List.range 4).all fun i => bits (w (7 + i)) 62 56 == 0) && bits (w 11) 62 56 == 0
    && bits (w 11) 47 0 == 0

/-- The slot size that a launch needs (R264). -/
def Record.slotSize (r : Record) : Nat :=
  let a := (r.regs + 1) * 16
  let w := (Width.ofCode r.wc).n
  max (3840 + (a / 4 + 63) / 64 * 64 + w * (4 * a + 1024)) (4096 + r.slice * 4096)

/-- How the reading of a process-group table ends (R160, R161). -/
inductive TableRead where
  | ok (ranks : List RankEntry) (rank : Nat)
  | bad
  | poison (line : Nat)
deriving DecidableEq, Repr

/-- Bytes read through the page tables of a context, for a record or a table. -/
inductive CtxRead where
  | bytes (bs : List Byte)
  | fail (c : Cause) (detail : Nat) (addr : W64)
  | poison (line : Nat)
deriving DecidableEq, Repr

/-- `n` bytes of a context's global space. -/
def State.readCtx (s : State) (part ctx a n : Nat) : CtxRead :=
  match s.globalRange part ctx .read a n (n / 0x10000 + 2) with
  | .fail c d b => .fail c d b
  | .poison l => .poison l
  | .ok pls => match s.badIn pls with
    | some l => .poison l
    | none => .bytes (s.readRange pls)

/-- The process-group table of a launch in a context (R160, R161). -/
def State.readTable (s : State) (part ctx : Nat) (pgt : W64) : TableRead :=
  if pgt = 0 then .ok [] 0
  else if pgt.toNat % 64 ≠ 0 then .bad
  else match s.readCtx part ctx pgt.toNat 64 with
    | .fail _ _ _ => .bad
    | .poison l => .poison l
    | .bytes hd =>
      let n := bits (word64 hd 0) 12 0
      if bits (word64 hd 0) 63 48 ≠ 0 || bits (word64 hd 0) 47 32 ≠ 1 || bits (word64 hd 0) 31 13 ≠ 0
          || leNat (hd.drop 8) ≠ 0 || n = 0 || 4096 < n then .bad
      else match s.readCtx part ctx pgt.toNat (64 + 16 * n) with
        | .fail _ _ _ => .bad
        | .poison l => .poison l
        | .bytes bs =>
          let e := fun k => word64 bs (8 + 2 * k)
          if (List.range n).any fun k => bits (e k) 62 28 ≠ 0 || word64 bs (9 + 2 * k) ≠ 0 then .bad
          else
            let ranks := (List.range n).map fun k =>
              (⟨bitAt (e k) 63, bits (e k) 27 21, bits (e k) 20 16, bits (e k) 15 0⟩ : RankEntry)
            match (List.range n).filter fun k => match ranks[k]? with
              | some r => r.valid && r.dev == Config.ownDevice && r.part == part && r.ctx == ctx
              | none => false with
            | [k] => .ok ranks k
            | _ => .bad

/-- How the checks of a record end (R252, Table 3): the first reason that fails, a line's error, or a launch. -/
inductive Checked where
  | bad (why : Nat)
  | poison (line : Nat)
  | ok (r : Record) (ranks : List RankEntry) (rank : Nat)
deriving DecidableEq, Repr

/-- The checks of a record that has been read, from BADWHY 1 on. -/
def State.checkRecord (s : State) (p : Partition) (ctx : Nat) (bs : List Byte) : Checked :=
  let r := Record.parse bs
  if !recordClean bs || r.wc = 3 || r.nteam = 0 || 16777216 < r.nteam || 512 < r.slice then .bad 1
  else if r.code.toNat % 4 ≠ 0 || r.trapv.toNat % 4 ≠ 0 || r.save.toNat % 64 ≠ 0 then .bad 2
  else if 32768 < rowBytes ((r.regs + 1) * 16) (Width.ofCode r.wc).n then .bad 3
  else match s.readTable p.num ctx r.pgt with
    | .bad => .bad 4
    | .poison l => .poison l
    | .ok ranks rank =>
      if 0 < r.nslot && r.slot * 64 < r.slotSize then .bad 5
      else if r.cres && p.resvcore = 0 then .bad 6
      else if (r.cres && !r.coop) || (r.pair && !(List.range 128).any fun k => p.holdsCore (2 * k) && p.holdsCore (2 * k + 1))
        then .bad 7
      else if r.coop && !p.coopFits r then .bad 8
      else .ok r ranks rank

/-! ## Queues (R251, R254) -/

/-- The launches that stand in a queue, in order of acceptance. -/
def Partition.inQueue (p : Partition) (q : Nat) : List Launch := p.launches.filter fun l => l.queued && l.queue == q

/-- A queue has room for a record. -/
def Partition.queueRoom (p : Partition) (q : Nat) : Bool := (p.inQueue q).length < 64

/-- The dependences of a launch that hold now or did before (R254). -/
def Launch.hold (l : Launch) (evcnt : List W64) : Launch :=
  { l with held := (l.record.deps.zip l.held).map fun (d, h) => h || (match d with
      | none => true
      | some (c, v) => v ≤ (evcnt.getD c 0).toNat) }

/-- The launches of a partition after a change of its event counters. -/
def Partition.holdAll (p : Partition) : Partition := { p with launches := p.launches.map fun l => l.hold p.evcnt }

/-- A record accepted into a queue (R251). -/
def Partition.enqueue (p : Partition) (ctx q : Nat) (r : Record) (ranks : List RankEntry) (rank : Nat) : Partition :=
  let l : Launch := ⟨p.nextLid, ctx, q, r, ranks, rank, r.deps.map (·.isNone), 0, 0, true, false, [], none, [], false⟩
  { p with launches := p.launches ++ [l.hold p.evcnt], nextLid := p.nextLid + 1 }

/-- BAD of a queue set, with BADADDR and BADWHY (R250, R252). -/
def Partition.markBad (p : Partition) (q : Nat) (addr : W64) (why : Nat) : Partition :=
  { p with
    queues := p.queues.mapIdx fun i x => if i = q then { x with bad := true } else x
    badaddr := addr, badwhy := why }

/-- The list that tells the fate of a record that failed its checks (R255): it was discarded unplaced, and has no number.
Table 12 of R300 has no HEAD cause for it: that is free (log 23). -/
def badEntries (w q tick : Nat) : List Entry :=
  [(Why.plain ((Config.freeW32 12 tick q).toNat % 256)).head w, ⟨2, w, [q * 2 ^ 16 + 3 * 2 ^ 20, 0, 0]⟩]

/-- A record that failed its checks (R252, R255): BAD, BADADDR and BADWHY, its list, and the interrupt. -/
def State.badRecord (s : State) (p : Partition) (q ctx : Nat) (addr : W64) (why : Nat) : State :=
  let s := (s.setPart (p.markBad q addr why)).reportList p.num (badEntries (worldId p.num ctx) q s.tick)
  { s with interrupts := s.interrupts ++ [.badRecord p.num q] }

/-- The context that LQCTX of a queue holds. -/
def Partition.queueCtx (p : Partition) (q : Nat) : Nat := match p.queues[q]? with | some x => x.ctx | none => 0

/-- A context of the partition exists. -/
def Partition.hasCtx (p : Partition) (ctx : Nat) : Bool := p.contexts.any fun c => c.id == ctx

/-- A record that was read: checked, and accepted or discarded. -/
def State.takeRecord (s : State) (p : Partition) (q : Nat) (addr : W64) (bs : List Byte) : State ⊕ Nat :=
  match s.checkRecord p (p.queueCtx q) bs with
  | .bad why => .inl (s.badRecord p q (p.queueCtx q) addr why)
  | .poison l => .inr l
  | .ok r ranks rank => .inl (s.setPart (p.enqueue (p.queueCtx q) q r ranks rank))

/-- A doorbell write (R251, R252, R327). -/
def State.doorbell (s : State) (part q : Nat) (addr : W64) : State :=
  match s.part? part with
  | none => s
  | some p =>
    if 16 ≤ q then s
    else if s.launchesStop || !p.queueRoom q then
      s.setPart { p with queues := p.queues.mapIdx fun i x => if i = q then { x with drop := true } else x }
    else if !p.hasCtx (p.queueCtx q) then s.badRecord p q (p.queueCtx q) addr 9
    else if addr.toNat % 128 ≠ 0 then s.badRecord p q (p.queueCtx q) addr 10
    else match s.readCtx part (p.queueCtx q) addr.toNat 128 with
      | .fail _ _ _ => s.badRecord p q (p.queueCtx q) addr 10
      | .poison l => s.lineError l none
      | .bytes bs => match s.takeRecord p q addr bs with
        | .inl s => s
        | .inr l => s.lineError l none

/-! ## `launch` (R92) -/

/-- An instruction that was replayed before another one of the same replay has accesses outstanding (R29, R83). -/
def State.replayedBefore (s : State) (g : Group) (p : Pend) : Bool :=
  (s.fabric.reqs.any fun r => r.uid == g.uid && r.since == p.since && decide (r.idx % 32 < p.idx % 32))
    || g.issued.any fun x => x.st == .waiting && x.since == p.since && decide (x.idx % 32 < p.idx % 32) && x.op.paths.contains 4

/-- An access of a group, on any path, is outstanding that it issued before a `launch` (R92). -/
def State.launchHeld (s : State) (g : Group) (ticket : Nat) : Bool :=
  match g.issued.find? fun p => p.idx == ticket with
  | some p => s.outstanding g ⟨6, 7, 7, p.since⟩ || s.replayedBefore g p
  | none => false

/-- The record of a waiting `launch` translated, read, checked and placed in its queue, if that has room and every earlier access of the
group is performed. -/
def State.launchAccept (s : State) (uid ticket q : Nat) (addr : W64) : State :=
  match s.group? uid with
  | none => s
  | some g => match s.part? g.part with
    | none => s
    | some p =>
      let name := some (g.namedAt ticket)
      if s.launchesStop || !p.queueRoom q || s.launchHeld g ticket then s
      else match s.readCtx g.part g.ctx addr.toNat 128 with
        | .fail c d a => s.finish uid ticket
            (Result.failed ⟨ticket, c, a, 0, accessDetail d false false, c.replayable⟩)
        | .poison l => s.lineError l name
        | .bytes bs =>
          if !p.hasCtx (p.queueCtx q) then (s.badRecord p q (p.queueCtx q) addr 9).finish uid ticket Result.empty
          else match s.takeRecord p q addr bs with
            | .inl s => s.finish uid ticket Result.empty
            | .inr l => s.lineError l name

/-- A group of the partition waits to place a record in a queue. -/
def State.waitsForQueue (s : State) (part q : Nat) : Bool :=
  s.groups.any fun g => g.part == part && g.issued.any fun p => p.st == .waiting && (match p.op with
    | .launch _ k => k == q
    | _ => false)

/-- A waiting `launch` that finds its queue full, or others before it, waits; one that does not is accepted at once. -/
def State.launchIssue (s : State) (uid ticket q : Nat) (addr : W64) (others : Bool) : State :=
  if others then s else s.launchAccept uid ticket q addr

/-- `launch` (R92): its address is checked at issue. -/
def execLaunch (e : Bool) (a : BitVec 7) (q : BitVec 4) (s : State) : Host.Outcome State Fault Refusal :=
  issue (.launch e a q) s fun g s =>
    let addr := g.readS (s.cyc g) a
    if addr.toNat % 128 ≠ 0 then .seq s (g.failNow .alignment (accessDetail 0 false false) 0 addr) 1
    else
      let others := s.waitsForQueue g.part q.toNat
      deferred (.launch e a q) g s (.launch addr q.toNat) 1 fun s => s.launchIssue g.uid g.ticket q.toNat addr others

/-- The first waiting `launch` of a group whose queue has room (R92). -/
def State.launchNext (s : State) (uid : Nat) : State :=
  match s.group? uid with
  | none => s
  | some g => match g.issued.findSome? fun p => if p.st != .waiting then none else match p.op with
      | .launch a q => if (match s.part? g.part with | some x => x.queueRoom q | none => false) then some (p.idx, a, q) else none
      | _ => none with
    | some (ticket, a, q) => s.launchAccept uid ticket q a
    | none => s

/-! ## Completion (R255) -/

/-- 1 added to an event counter, and the dependences that this makes hold. -/
def Partition.signal (p : Partition) (c : Nat) : Partition :=
  { p with evcnt := p.evcnt.set c (p.evcnt.getD c 0 + 1) }.holdAll

/-- Every group of a team has exited, and every engine operation and fill of it is over. -/
def State.teamOver (s : State) (t : Team) : Bool :=
  !(s.groups.any fun g => g.team == t.uid) && !s.cores.any fun c =>
    (c.matrix.any fun e => e.team == t.uid) || c.copies.any fun e => e.2.team == t.uid

/-- A launch all of whose teams are complete is complete: its signal is added, and it is gone. -/
def State.launchOver (s : State) (part lid : Nat) : State :=
  s.updPart part fun p => match p.launch? lid with
    | none => p
    | some l =>
      if l.complete < l.record.nteam then p
      else
        let p := { p with launches := p.launches.filter fun k => k.lid != lid }
        match l.record.signal with
        | some c => p.signal c
        | none => p

/-- What was kept of the code of a launch that is gone (R65) is dropped. -/
def State.dropKept (s : State) (part lid : Nat) : State :=
  if ((s.part? part).bind fun p => p.launch? lid).isSome then s
  else { s with kept := s.kept.filter fun k => !(k.part == part && k.lid == lid) }

/-- A team that is over is freed, and counts as complete (R255), unless its launch is being ended (R262). -/
def State.teamComplete (s : State) (uid : Nat) : State :=
  match s.team? uid with
  | none => s
  | some t =>
    let ending := match (s.part? t.part).bind fun p => p.launch? t.lid with
      | some l => l.ending.isSome
      | none => false
    if !s.teamOver t || ending then s
    else
      let s := (s.removeTeam t).updPart t.part fun p => match p.launch? t.lid with
        | some l => p.setLaunch { l with complete := l.complete + 1 }
        | none => p
      (s.launchOver t.part t.lid).dropKept t.part t.lid

/-! ## Steps -/

/-- `LAUNCH_RECORD_ACCEPT` (R92). -/
def execLaunchRecordAccept (g : Nat) (s : State) : Host.Outcome State Fault Refusal := .next (s.launchNext g)

/-- `LQDOOR` (R251). -/
def execLqdoor (part q : Nat) (addr : BitVec 64) (s : State) : Host.Outcome State Fault Refusal :=
  .next (s.doorbell part q addr)

/-- A write to LQSTAT of a queue: ones clear DROP and BAD (R250). -/
def Partition.clearStat (p : Partition) (q : Nat) (v : W64) : Partition :=
  { p with queues := p.queues.mapIdx fun i x =>
    if i = q then { x with drop := x.drop && !v.getLsbD 31, bad := x.bad && !v.getLsbD 30 } else x }

/-- `LQSTAT_CLEAR` (R250): ones clear DROP and BAD. -/
def execLqstatClear (part q : Nat) (v : BitVec 64) (s : State) : Host.Outcome State Fault Refusal :=
  .next (s.updPart part fun p => p.clearStat q v)

/-- `EVCNT_WRITE` (R255). -/
def execEvcntWrite (part c : Nat) (v : BitVec 64) (s : State) : Host.Outcome State Fault Refusal :=
  .next (s.updPart part fun p => { p with evcnt := p.evcnt.set c v }.holdAll)

/-- `RESVCORE` with one of its four words written (R250): bits of cores outside the partition stay 0. -/
def Partition.writeResv (p : Partition) (w : Nat) (v : W64) : Partition :=
  let n := ((List.range 256).filter fun c =>
    p.holdsCore c && (if c / 64 = w then v.getLsbD (c % 64) else p.resvcore.getLsbD c)).map fun c => 2 ^ c
  { p with resvcore := BitVec.ofNat 256 n.sum }

/-- `RESVCORE_WRITE` (R257). -/
def execResvcoreWrite (part w : Nat) (v : BitVec 64) (s : State) : Host.Outcome State Fault Refusal :=
  .next (s.updPart part fun p => p.writeResv w v)

/-- `TEAM_COMPLETE` (R255). -/
def execTeamComplete (team : Nat) (s : State) : Host.Outcome State Fault Refusal := .next (s.teamComplete team)

end Sys2Proof.Machine
end

