-- ==== Sys2Proof/Machine/Memory.lean ====
section
/-!
DEFINITION. Loads, stores, atomics and fences (R149 to R159): classes 5 and 7. How far a fence orders is DESIGN CHOICE
(log 3).
-/

namespace Sys2Proof.Machine

open Sys2Proof

/-! ## Addresses -/

/-- The threads that access memory (R150): the active ones, or the lowest under the once mark. -/
def Group.accessing (g : Group) (once : Bool) : List Nat :=
  if once then (lowest g.active g.width.n).toList else threads g.active g.width.n

/-- A global address: a pair plus an offset, modulo 2^64 (R68). -/
def Group.globalAddr (g : Group) (a : Fld) (off : W64) (t : Nat) : W64 := g.pair a t + off

/-- A slice or distributed address: an element plus an offset, modulo 2^32 (R68). -/
def Group.sliceAddr (g : Group) (a : Fld) (off : W32) (t : Nat) : W64 := ((g.v a).get t + off).setWidth 64

/-- A global address is strided (R152): the low member of its pair is A and the high one U. -/
def Group.strideG (g : Group) (a : Fld) : Bool := (g.v a).isA && (g.v1 a).isU

/-- A signed offset scaled by an access size (R68, R155, R156). -/
def scaled {n : Nat} (off : BitVec n) (size : Nat) : W64 := off.signExtend 64 * BitVec.ofNat 64 size

/-- The threads that receive the one value of a once-marked access (R150). -/
def Group.spread (g : Group) (once : Bool) : Option W64 := if once then some g.active else none

/-- The data of a store: `n` registers of each accessing thread, with its address. -/
def Group.storeItems (g : Group) (once : Bool) (d : Fld) (n : Nat) (addr : Nat → W64) : List (Nat × W64 × BitVec 128) :=
  (g.accessing once).map fun t => (t, addr t, BitVec.ofNat 128 (g.wide d n t))

/-! ## Captured accesses -/

/-- A captured load of `n` registers from global space, `size` bytes at `off` behind each pair. -/
def Group.loadG (g : Group) (once : Bool) (d a : Fld) (off : W64) (size n : Nat) (ext : Ext) : DOp :=
  .load .global size ((g.accessing once).map fun t => (t, g.globalAddr a off t)) (g.reg d) n ext (g.spread once)

/-- A captured load of `n` registers from a slice or distributed. -/
def Group.loadS (g : Group) (sp : Space) (once : Bool) (d a : Fld) (off : W64) (size n : Nat) (ext : Ext) : DOp :=
  .load sp size ((g.accessing once).map fun t => (t, g.sliceAddr a (off.setWidth 32) t)) (g.reg d) n ext (g.spread once)

/-- A captured store of `n` registers to global space. -/
def Group.storeG (g : Group) (once : Bool) (d a : Fld) (off : W64) (size n : Nat) : DOp :=
  .store .global size (g.storeItems once d n (g.globalAddr a off))

/-- A captured store of `n` registers to a slice or distributed. -/
def Group.storeS (g : Group) (sp : Space) (once : Bool) (d a : Fld) (off : W64) (size n : Nat) : DOp :=
  .store sp size (g.storeItems once d n (g.sliceAddr a (off.setWidth 32)))

/-! ## Forms -/

/-- The requests of an instruction performed, with the cycles that those at `waits` wait for their banks, as cost and as events
(R43): the waits of its lane are over. Where an access of the instruction fails too and these events cross a threshold with action 0b01, one of the two failures
stands, and the spec does not say which. DESIGN CHOICE (log 5): `sliceAccess` keeps that of the access, which stands first;
`atoms` and `distAccess` keep the crossing, since their accesses fail only with the result. -/
def Group.conflicts (g : Group) (s : State) (strided : Bool) (places waits : List (Nat × Nat)) : State × Group × Nat :=
  let n := s.bankWait g strided waits
  let (s, g) := g.addEvents s 6 n
  (s.served g places, g, n)

/-- A slice access (R14, R27): its result is seen by the next instruction, and its failures are deferred. Where an access fails and
the bank waits cross a threshold with action 0b01, the failure of the access stands (DESIGN CHOICE, log 5). -/
def sliceAccess (i : Instr) (s : State) (cost : Group → Nat) (strided : Group → Bool) (op : Group → DOp) :
    Host.Outcome State Fault Refusal :=
  issue i s fun g s => match s.performAccess g g.ticket (strided g) (op g) with
    | .dead s => .dead s
    | .ok s r places =>
      let h := g.apply r
      let h := { h with fails := addFailures r.norm.fail.toList h.fails }
      let (s, h, n) := h.conflicts s (strided g) places places
      .seq s h (cost g + n)

/-- A global access: it is performed at its issue; what it loads travels back (R14), and a store's outcome is known at
once. With no active thread it issues nothing (R12). -/
def globalAccess (i : Instr) (s : State) (once returns : Bool) (strided : Group → Bool) (op : Group → DOp) :
    Host.Outcome State Fault Refusal :=
  issue i s fun g s =>
    if g.active = 0 then .seq s g (g.vcost once)
    else deferred i g s (op g) (g.vcost once) fun s => s.access g.uid g.ticket (strided g) returns (op g)

/-- A distributed access (R155): on the issuing group's own core its requests are formed as in the slice window; each other one
is a request of the target core's remote port. Where an access fails and the bank waits cross a threshold with action 0b01, the
crossing stands (DESIGN CHOICE, log 5). -/
def distAccess (i : Instr) (s : State) (once returns : Bool) (strided : Group → Bool) (op : Group → DOp) :
    Host.Outcome State Fault Refusal :=
  issue i s fun g s =>
    if g.active = 0 then .seq s g (g.vcost once)
    else match s.performAccess g g.ticket (strided g) (op g) with
      | .dead s => .dead s
      | .ok s r places =>
        let (s, h, n) := g.conflicts s (strided g) places (places.filter fun p => p.1 / sliceSize == g.core)
        deferred i h s (op g) (g.vcost once + n) fun s =>
          if returns then s.ret g.uid g.ticket r else s.finish g.uid g.ticket r

/-! ## Loads and stores -/

/-- `ldg` (R151). -/
def execLdg (e u : Bool) (d a : Fld) (f : BitVec 9) (s : State) : Host.Outcome State Fault Refusal :=
  globalAccess (.ldg e u d a f) s u true (fun g => g.strideG a) fun g =>
    g.loadG u d a (scaled f 4) 4 1 .zero

/-- `stg` (R151). -/
def execStg (e u : Bool) (d a : Fld) (f : BitVec 9) (s : State) : Host.Outcome State Fault Refusal :=
  globalAccess (.stg e u d a f) s u false (fun g => g.strideG a) fun g =>
    g.storeG u d a (scaled f 4) 4 1

/-- `lds` (R151). -/
def execLds (e u : Bool) (d a : Fld) (f : BitVec 9) (s : State) : Host.Outcome State Fault Refusal :=
  sliceAccess (.lds e u d a f) s (fun g => g.vcost u) (fun g => (g.v a).isA) fun g =>
    g.loadS .slice u d a (scaled f 4) 4 1 .zero

/-- `sts` (R151). -/
def execSts (e u : Bool) (d a : Fld) (f : BitVec 9) (s : State) : Host.Outcome State Fault Refusal :=
  sliceAccess (.sts e u d a f) s (fun g => g.vcost u) (fun g => (g.v a).isA) fun g =>
    g.storeS .slice u d a (scaled f 4) 4 1

/-- `ldg.w` (R151). -/
def execLdgW (e u : Bool) (d a : Fld) (f : BitVec 9) (s : State) : Host.Outcome State Fault Refusal :=
  globalAccess (.ldgW e u d a f) s u true (fun g => g.strideG a) fun g =>
    g.loadG u d a (scaled f 8) 8 2 .zero

/-- `stg.w` (R151). -/
def execStgW (e u : Bool) (d a : Fld) (f : BitVec 9) (s : State) : Host.Outcome State Fault Refusal :=
  globalAccess (.stgW e u d a f) s u false (fun g => g.strideG a) fun g =>
    g.storeG u d a (scaled f 8) 8 2

/-- `lds.w` (R151). -/
def execLdsW (e u : Bool) (d a : Fld) (f : BitVec 9) (s : State) : Host.Outcome State Fault Refusal :=
  sliceAccess (.ldsW e u d a f) s (fun g => g.vcost u) (fun g => (g.v a).isA) fun g =>
    g.loadS .slice u d a (scaled f 8) 8 2 .zero

/-- `sts.w` (R151). -/
def execStsW (e u : Bool) (d a : Fld) (f : BitVec 9) (s : State) : Host.Outcome State Fault Refusal :=
  sliceAccess (.stsW e u d a f) s (fun g => g.vcost u) (fun g => (g.v a).isA) fun g =>
    g.storeS .slice u d a (scaled f 8) 8 2

/-- `ldg.q` (R151). -/
def execLdgQ (e u : Bool) (d a : Fld) (f : BitVec 9) (s : State) : Host.Outcome State Fault Refusal :=
  globalAccess (.ldgQ e u d a f) s u true (fun g => g.strideG a) fun g =>
    g.loadG u d a (scaled f 16) 16 4 .zero

/-- `stg.q` (R151). -/
def execStgQ (e u : Bool) (d a : Fld) (f : BitVec 9) (s : State) : Host.Outcome State Fault Refusal :=
  globalAccess (.stgQ e u d a f) s u false (fun g => g.strideG a) fun g =>
    g.storeG u d a (scaled f 16) 16 4

/-- `lds.q` (R151). -/
def execLdsQ (e u : Bool) (d a : Fld) (f : BitVec 9) (s : State) : Host.Outcome State Fault Refusal :=
  sliceAccess (.ldsQ e u d a f) s (fun g => g.vcost u) (fun g => (g.v a).isA) fun g =>
    g.loadS .slice u d a (scaled f 16) 16 4 .zero

/-- `sts.q` (R151). -/
def execStsQ (e u : Bool) (d a : Fld) (f : BitVec 9) (s : State) : Host.Outcome State Fault Refusal :=
  sliceAccess (.stsQ e u d a f) s (fun g => g.vcost u) (fun g => (g.v a).isA) fun g =>
    g.storeS .slice u d a (scaled f 16) 16 4

/-- `sld` (R151): it runs once for the group. It is long-latency, and so issues nothing with no active thread (R12). -/
def execSld (e : Bool) (d a : Fld) (f : BitVec 9) (s : State) : Host.Outcome State Fault Refusal :=
  issue (.sld e d a f) s fun g s =>
    let op := DOp.sload (g.readS (s.cyc g) a + scaled f 8) d
    if g.active = 0 then .seq s g 1
    else deferred (.sld e d a f) g s op 1 fun s => s.access g.uid g.ticket false true op

/-- `sst` (R151). DESIGN CHOICE (log 37): it is issue-only, and so acts with no active thread too, as `slds` and `ssts` do, where
R12 speaks of the long-latency instructions and R74 does not list them. -/
def execSst (e : Bool) (d a : Fld) (f : BitVec 9) (s : State) : Host.Outcome State Fault Refusal :=
  issue (.sst e d a f) s fun g s =>
    let op := DOp.sstore (g.readS (s.cyc g) a + scaled f 8) (g.readS (s.cyc g) d)
    deferred (.sst e d a f) g s op 1 fun s => s.access g.uid g.ticket false false op

/-- A scalar slice address: a scalar's low 32 bits plus an offset, modulo 2^32 (R68). -/
def scalarSliceAt (x : W64) (f : BitVec 9) : W64 := (x.setWidth 32 + (scaled f 8).setWidth 32).setWidth 64

/-- The address of a scalar slice access of a group. -/
def Group.scalarSlice (g : Group) (s : State) (a : Fld) (f : BitVec 9) : W64 := scalarSliceAt (g.readS (s.cyc g) a) f

/-- `slds` (R151): seen by the next instruction. DESIGN CHOICE (log 5): its one request is a request of a lane in the sense of R43,
so that it waits at a bank that another class or lane holds, and what it waits adds to its cost and to class 6, where R129 says
of scalar instructions that they add to no class and R40 forms requests from active threads. -/
def execSlds (e : Bool) (d a : Fld) (f : BitVec 9) (s : State) : Host.Outcome State Fault Refusal :=
  issue (.slds e d a f) s fun g s =>
    let addr := g.scalarSlice s a f
    match s.readThread g .slice 8 0 addr with
    | .poison l => .dead (s.consume g l)
    | .fail x => .seq s (g.failNow x.cause (accessDetail x.detail false false) 0 addr) 1
    | .bytes bs pl =>
      let (s, h, n) := (g.writeS d (BitVec.ofNat 64 (leNat bs))).conflicts s false [(pl.addr, 8)] [(pl.addr, 8)]
      .seq s h (1 + n)

/-- `ssts` (R151). DESIGN CHOICE (log 5): it waits for its bank as `slds` does. -/
def execSsts (e : Bool) (d a : Fld) (f : BitVec 9) (s : State) : Host.Outcome State Fault Refusal :=
  issue (.ssts e d a f) s fun g s =>
    let addr := g.scalarSlice s a f
    match s.check g.part g.ctx g.team .slice addr 8 .write false with
    | .poison l => .dead (s.consume g l)
    | .fail c x => .seq s (g.failNow c (accessDetail x true false) 0 addr) 1
    | .ok pl =>
      let (s, h, n) := g.conflicts (s.writeAt pl (leBytes 8 (g.readS (s.cyc g) d).toNat)) false [(pl.addr, 8)] [(pl.addr, 8)]
      .seq s h (1 + n)

/-- The bytes of a narrow access (R154). -/
def narrowSize (half : Bool) : Nat := if half then 2 else 1

/-- The extension that a narrow load makes (R154). -/
def narrowExt (sign : Bool) : Ext := if sign then .sign else .zero

/-- A word's offset added to a scalar (R154). -/
def wordOff (x : W64) (off : BitVec 16) : W64 := x + off.signExtend 64

/-- The scalar offset and the word offset of a narrow access together (R154). -/
def Group.narrowOff (g : Group) (s : State) (b : Fld) (off : BitVec 16) : W64 :=
  wordOff (g.readS (s.cyc g) b) off

/-- `ldg.x` (R154). -/
def execLdgX (e u : Bool) (d a b : Fld) (sign half : Bool) (off : BitVec 16) (s : State) : Host.Outcome State Fault Refusal :=
  globalAccess (.ldgX e u d a b sign half off) s u true (fun g => g.strideG a) fun g =>
    g.loadG u d a (g.narrowOff s b off) (narrowSize half) 1 (narrowExt sign)

/-- `stg.x` (R154). -/
def execStgX (e u : Bool) (d a b : Fld) (half : Bool) (off : BitVec 16) (s : State) : Host.Outcome State Fault Refusal :=
  globalAccess (.stgX e u d a b half off) s u false (fun g => g.strideG a) fun g =>
    g.storeG u d a (g.narrowOff s b off) (narrowSize half) 1

/-- `lds.x` (R154). -/
def execLdsX (e u : Bool) (d a b : Fld) (sign half : Bool) (off : BitVec 16) (s : State) : Host.Outcome State Fault Refusal :=
  sliceAccess (.ldsX e u d a b sign half off) s (fun g => g.vcost u) (fun g => (g.v a).isA) fun g =>
    g.loadS .slice u d a (g.narrowOff s b off) (narrowSize half) 1 (narrowExt sign)

/-- `sts.x` (R154). -/
def execStsX (e u : Bool) (d a b : Fld) (half : Bool) (off : BitVec 16) (s : State) : Host.Outcome State Fault Refusal :=
  sliceAccess (.stsX e u d a b half off) s (fun g => g.vcost u) (fun g => (g.v a).isA) fun g =>
    g.storeS .slice u d a (g.narrowOff s b off) (narrowSize half) 1

/-- `ldd` (R155). -/
def execLdd (e u : Bool) (d a : Fld) (off : BitVec 16) (s : State) : Host.Outcome State Fault Refusal :=
  distAccess (.ldd e u d a off) s u true (fun g => (g.v a).isA) fun g =>
    g.loadS .dist u d a (scaled off 4) 4 1 .zero

/-- `std` (R155). -/
def execStd (e u : Bool) (d a : Fld) (off : BitVec 16) (s : State) : Host.Outcome State Fault Refusal :=
  distAccess (.std e u d a off) s u false (fun g => (g.v a).isA) fun g =>
    g.storeS .dist u d a (scaled off 4) 4 1

/-! ## Atomics -/

/-- The operation of an atomic by its code (R156, Table 4). -/
def AOp.ofCode : Nat → AOp
  | 0 => .add | 1 => .and | 2 => .or | 3 => .xor | 4 => .minI | 5 => .maxI | 6 => .minN | 7 => .maxN | 8 => .swap
  | 9 => .cas | 10 => .fadd | 11 => .load | _ => .store

/-- The order of an atomic by its code (R156, Table 3). -/
def AOrd.ofCode : Nat → AOrd
  | 0 => .relaxed | 1 => .acquire | 2 => .release | _ => .acqRel

/-- An operand of an atomic in a thread: an element, or a pair. -/
def Group.atomVal (g : Group) (w : Bool) (f : Fld) (t : Nat) : W64 :=
  if w then g.pair f t else ((g.v f).get t).setWidth 64

/-- The captured atomic of an instruction (R156). The comparand is the prior destination. -/
def Group.atomOp (g : Group) (sp : Space) (once : Bool) (d b : Fld) (addr : Nat → W64) (sc : BitVec 3) (ord : BitVec 2)
    (ret w : Bool) (op : BitVec 4) : DOp :=
  .atomic sp w (AOp.ofCode op.toNat) (AOrd.ofCode ord.toNat) sc.toNat ret
    ((g.accessing once).map fun t => (t, addr t, g.atomVal w b t, g.atomVal w d t)) (g.reg d) (g.spread once)

/-- `atom` (R156). -/
def execAtom (e u : Bool) (d a b : Fld) (off : BitVec 11) (sc : BitVec 3) (ord : BitVec 2) (ret w : Bool) (op : BitVec 4) (s : State) : Host.Outcome State Fault Refusal :=
  globalAccess (.atom e u d a b off sc ord ret w op) s u ret (fun g => g.strideG a) fun g =>
    g.atomOp .global u d b (g.globalAddr a (scaled off (atomSize w))) sc ord ret w op

/-- `atoms` (R156): it returns at the run's end, and its requests are those of the slice. -/
def execAtoms (e u : Bool) (d a b : Fld) (off : BitVec 11) (sc : BitVec 3) (ord : BitVec 2) (ret w : Bool) (op : BitVec 4) (s : State) : Host.Outcome State Fault Refusal :=
  issue (.atoms e u d a b off sc ord ret w op) s fun g s =>
    if g.active = 0 then .seq s g (g.vcost u)
    else
      let dop := g.atomOp .slice u d b (g.sliceAddr a ((scaled off (atomSize w)).setWidth 32)) sc ord ret w op
      match s.performAccess g g.ticket (g.v a).isA dop with
      | .dead s => .dead s
      | .ok s r places =>
        let (s, h, n) := g.conflicts s (g.v a).isA places places
        deferred (.atoms e u d a b off sc ord ret w op) h s dop (g.vcost u + n) fun s =>
          if ret then s.ret g.uid g.ticket r else s.finish g.uid g.ticket r

/-- `atomd` (R156). -/
def execAtomd (e u : Bool) (d a b : Fld) (off : BitVec 11) (sc : BitVec 3) (ord : BitVec 2) (ret w : Bool) (op : BitVec 4) (s : State) : Host.Outcome State Fault Refusal :=
  distAccess (.atomd e u d a b off sc ord ret w op) s u ret (fun g => (g.v a).isA) fun g =>
    g.atomOp .dist u d b (g.sliceAddr a ((scaled off (atomSize w)).setWidth 32)) sc ord ret w op

/-! ## Fences -/

/-- `fence` (R54, R159): it costs one cycle; the later accesses that it holds back are held before they issue. -/
def execFence (e : Bool) (q p sc : BitVec 3) (s : State) : Host.Outcome State Fault Refusal :=
  issue (.fence e q p sc) s fun g s =>
    let h := { g with fences := g.fences ++ [(⟨sc.toNat, p.toNat, q.toNat, s.tick⟩ : FenceOp)] }
    .seq s { h with fences := s.openFences h } 1

end Sys2Proof.Machine
end

