-- ==== Sys2Proof/Machine/Scalar.lean ====
section
/-!
DEFINITION. Scalar arithmetic and constants: class 3, the scalar instructions of class 4, `sli` and `vli` (R74 to R77).
-/

namespace Sys2Proof.Machine

open Sys2Proof

/-- All-ones when a compare holds, else 0 (R75). -/
def allOnes (b : Bool) : W64 := if b then 0xFFFFFFFFFFFFFFFF else 0

/-- Shift left by a whole 64-bit amount (R75). -/
def shl64 (a n : W64) : W64 := if n.toNat < 64 then a <<< n.toNat else 0
/-- Shift right with zero fill (R75). -/
def shr64 (a n : W64) : W64 := if n.toNat < 64 then a >>> n.toNat else 0
/-- Shift right with sign fill (R75). -/
def sar64 (a n : W64) : W64 := if n.toNat < 64 then a.sshiftRight n.toNat else allOnes a.msb

/-- The number of one bits (R75). -/
def popc (w x : Nat) : Nat := ((List.range w).filter fun i => bitAt x i).length

/-- Leading zero bits of a `w`-bit value: `w` for 0. -/
def clz (w x : Nat) : Nat := ((List.range w).takeWhile fun i => !bitAt x (w - 1 - i)).length

/-- Trailing zero bits of a `w`-bit value: `w` for 0. -/
def ctz (w x : Nat) : Nat := ((List.range w).takeWhile fun i => !bitAt x i).length

/-- `sadd` (R75). -/
def execSadd (e : Bool) (d a b : BitVec 7) (s : State) : Host.Outcome State Fault Refusal :=
  scalarInstr (.sadd e d a b) s d fun r => r a + r b
/-- `ssub` (R75). -/
def execSsub (e : Bool) (d a b : BitVec 7) (s : State) : Host.Outcome State Fault Refusal :=
  scalarInstr (.ssub e d a b) s d fun r => r a - r b
/-- `smul` (R75). -/
def execSmul (e : Bool) (d a b : BitVec 7) (s : State) : Host.Outcome State Fault Refusal :=
  scalarInstr (.smul e d a b) s d fun r => r a * r b
/-- `smulhi.n` (R75). -/
def execSmulhiN (e : Bool) (d a b : BitVec 7) (s : State) : Host.Outcome State Fault Refusal :=
  scalarInstr (.smulhiN e d a b) s d fun r => BitVec.ofNat 64 ((r a).toNat * (r b).toNat / 2 ^ 64)
/-- `sand` (R75). -/
def execSand (e : Bool) (d a b : BitVec 7) (s : State) : Host.Outcome State Fault Refusal :=
  scalarInstr (.sand e d a b) s d fun r => r a &&& r b
/-- `sor` (R75). -/
def execSor (e : Bool) (d a b : BitVec 7) (s : State) : Host.Outcome State Fault Refusal :=
  scalarInstr (.sor e d a b) s d fun r => r a ||| r b
/-- `sxor` (R75). -/
def execSxor (e : Bool) (d a b : BitVec 7) (s : State) : Host.Outcome State Fault Refusal :=
  scalarInstr (.sxor e d a b) s d fun r => r a ^^^ r b
/-- `sandn` (R75). -/
def execSandn (e : Bool) (d a b : BitVec 7) (s : State) : Host.Outcome State Fault Refusal :=
  scalarInstr (.sandn e d a b) s d fun r => r a &&& ~~~(r b)
/-- `sshl` (R75). -/
def execSshl (e : Bool) (d a b : BitVec 7) (s : State) : Host.Outcome State Fault Refusal :=
  scalarInstr (.sshl e d a b) s d fun r => shl64 (r a) (r b)
/-- `sshr.n` (R75). -/
def execSshrN (e : Bool) (d a b : BitVec 7) (s : State) : Host.Outcome State Fault Refusal :=
  scalarInstr (.sshrN e d a b) s d fun r => shr64 (r a) (r b)
/-- `sshr.i` (R75). -/
def execSshrI (e : Bool) (d a b : BitVec 7) (s : State) : Host.Outcome State Fault Refusal :=
  scalarInstr (.sshrI e d a b) s d fun r => sar64 (r a) (r b)
/-- `sceq` (R75). -/
def execSceq (e : Bool) (d a b : BitVec 7) (s : State) : Host.Outcome State Fault Refusal :=
  scalarInstr (.sceq e d a b) s d fun r => allOnes (r a == r b)
/-- `sclt.i` (R75). -/
def execScltI (e : Bool) (d a b : BitVec 7) (s : State) : Host.Outcome State Fault Refusal :=
  scalarInstr (.scltI e d a b) s d fun r => allOnes ((r a).slt (r b))
/-- `sclt.n` (R75). -/
def execScltN (e : Bool) (d a b : BitVec 7) (s : State) : Host.Outcome State Fault Refusal :=
  scalarInstr (.scltN e d a b) s d fun r => allOnes ((r a).ult (r b))
/-- `smin.i` (R75). -/
def execSminI (e : Bool) (d a b : BitVec 7) (s : State) : Host.Outcome State Fault Refusal :=
  scalarInstr (.sminI e d a b) s d fun r => if (r b).slt (r a) then r b else r a
/-- `smax.i` (R75). -/
def execSmaxI (e : Bool) (d a b : BitVec 7) (s : State) : Host.Outcome State Fault Refusal :=
  scalarInstr (.smaxI e d a b) s d fun r => if (r a).slt (r b) then r b else r a
/-- `smov` (R75). -/
def execSmov (e : Bool) (d a : BitVec 7) (s : State) : Host.Outcome State Fault Refusal :=
  scalarInstr (.smov e d a) s d fun r => r a
/-- `spopc` (R75). -/
def execSpopc (e : Bool) (d a : BitVec 7) (s : State) : Host.Outcome State Fault Refusal :=
  scalarInstr (.spopc e d a) s d fun r => BitVec.ofNat 64 (popc 64 (r a).toNat)
/-- `sclz` (R75). -/
def execSclz (e : Bool) (d a : BitVec 7) (s : State) : Host.Outcome State Fault Refusal :=
  scalarInstr (.sclz e d a) s d fun r => BitVec.ofNat 64 (clz 64 (r a).toNat)
/-- `sctz` (R75). -/
def execSctz (e : Bool) (d a : BitVec 7) (s : State) : Host.Outcome State Fault Refusal :=
  scalarInstr (.sctz e d a) s d fun r => BitVec.ofNat 64 (ctz 64 (r a).toNat)
/-- `sfirst` (R75). -/
def execSfirst (e : Bool) (d a : BitVec 7) (s : State) : Host.Outcome State Fault Refusal :=
  scalarInstr (.sfirst e d a) s d fun r => r a &&& -(r a)
/-- `saddi` (R76). -/
def execSaddi (e : Bool) (d a : BitVec 7) (i : BitVec 9) (s : State) : Host.Outcome State Fault Refusal :=
  scalarInstr (.saddi e d a i) s d fun r => r a + i.signExtend 64
/-- `sandi` (R76). -/
def execSandi (e : Bool) (d a : BitVec 7) (i : BitVec 9) (s : State) : Host.Outcome State Fault Refusal :=
  scalarInstr (.sandi e d a i) s d fun r => r a &&& i.signExtend 64
/-- `sori` (R76). -/
def execSori (e : Bool) (d a : BitVec 7) (i : BitVec 9) (s : State) : Host.Outcome State Fault Refusal :=
  scalarInstr (.sori e d a i) s d fun r => r a ||| i.signExtend 64
/-- `sshli` (R76): the immediate lies from 0 to 63 (R67). -/
def execSshli (e : Bool) (d a : BitVec 7) (i : BitVec 9) (s : State) : Host.Outcome State Fault Refusal :=
  scalarInstr (.sshli e d a i) s d fun r => r a <<< i.toNat
/-- `sshri.n` (R76): the immediate lies from 0 to 63 (R67). -/
def execSshriN (e : Bool) (d a : BitVec 7) (i : BitVec 9) (s : State) : Host.Outcome State Fault Refusal :=
  scalarInstr (.sshriN e d a i) s d fun r => r a >>> i.toNat
/-- `sceqi` (R76). -/
def execSceqi (e : Bool) (d a : BitVec 7) (i : BitVec 9) (s : State) : Host.Outcome State Fault Refusal :=
  scalarInstr (.sceqi e d a i) s d fun r => allOnes (r a == i.signExtend 64)
/-- `sclti.i` (R76). -/
def execScltiI (e : Bool) (d a : BitVec 7) (i : BitVec 9) (s : State) : Host.Outcome State Fault Refusal :=
  scalarInstr (.scltiI e d a i) s d fun r => allOnes ((r a).slt (i.signExtend 64))
/-- `smovi` (R76). -/
def execSmovi (e : Bool) (d : BitVec 7) (i : BitVec 9) (s : State) : Host.Outcome State Fault Refusal :=
  scalarInstr (.smovi e d i) s d fun _ => i.signExtend 64
/-- `sli` (R77). -/
def execSli (e : Bool) (d : BitVec 7) (k : BitVec 32) (s : State) : Host.Outcome State Fault Refusal :=
  scalarInstr (.sli e d k) s d fun _ => k.signExtend 64
/-- `vli` (R77): U(k) under a full mask; one cycle under the once mark. -/
def execVli (e u : Bool) (d : BitVec 7) (k : BitVec 32) (s : State) : Host.Outcome State Fault Refusal :=
  vecInstr (.vli e u d k) s u d fun _ _ => .u k

end Sys2Proof.Machine
end

