-- ==== Sys2Proof/Machine/VecInt.lean ====
section
/-!
DEFINITION. Vector integer instructions: class 0 element-wise, compares, pairs, cross-thread and modular instructions, the
vector instructions of class 4, `vlop3` and `mqld` (R93 to R111).
-/

namespace Sys2Proof.Machine

open Sys2Proof

/-! ## Values -/

/-- High 32 bits of the signed product (R94). -/
def mulhiI (a b : W32) : W32 := (a.signExtend 64 * b.signExtend 64).extractLsb' 32 32
/-- High 32 bits of the unsigned product (R94). -/
def mulhiN (a b : W32) : W32 := (a.setWidth 64 * b.setWidth 64).extractLsb' 32 32
/-- Shift left (R95). -/
def shl32 (a n : W32) : W32 := if n.toNat < 32 then a <<< n.toNat else 0
/-- Shift right with zero fill (R95). -/
def shr32 (a n : W32) : W32 := if n.toNat < 32 then a >>> n.toNat else 0
/-- Shift right with sign fill (R95). -/
def sar32 (a n : W32) : W32 := if n.toNat < 32 then a.sshiftRight n.toNat else if a.msb then 0xFFFFFFFF else 0
/-- Rotate left by the amount mod 32 (R95). -/
def rotl32 (a n : W32) : W32 := (a <<< (n.toNat % 32)) ||| (a >>> (32 - n.toNat % 32))
/-- Funnel shift left (R96): `d` is the word shifted, `a` supplies the bits shifted in. -/
def fshl (d a n : W32) : W32 := ((d ++ a) <<< (n.toNat % 32)).extractLsb' 32 32
/-- Funnel shift right (R96). -/
def fshr (d a n : W32) : W32 := ((a ++ d) >>> (n.toNat % 32)).extractLsb' 0 32
/-- Signed minimum. -/
def minI (a b : W32) : W32 := if b.slt a then b else a
/-- Signed maximum. -/
def maxI (a b : W32) : W32 := if a.slt b then b else a
/-- Unsigned minimum. -/
def minN (a b : W32) : W32 := if b.ult a then b else a
/-- Unsigned maximum. -/
def maxN (a b : W32) : W32 := if a.ult b then b else a
/-- The bits of an element in the other order (R94). -/
def brev (a : W32) : W32 := a.reverse
/-- A three-input function by its truth table (R97). -/
def lop3 (k : BitVec 8) (a b c : W32) : W32 :=
  BitVec.ofNat 32 (((List.range 32).map fun i =>
    b2n (k.getLsbD (4 * b2n (a.getLsbD i) + 2 * b2n (b.getLsbD i) + b2n (c.getLsbD i))) * 2 ^ i).sum)

/-! ## Shapes of sums, products and shifts (R24, Table 5) -/

/-- The register of `vadd` under a full mask. -/
def vaddReg : VReg → VReg → Option VReg
  | .u a, .u b => some (.u (a + b))
  | .a b st, .u u => some (.a (b + u) st)
  | .u u, .a b st => some (.a (b + u) st)
  | .a b1 s1, .a b2 s2 => some (.a (b1 + b2) (s1 + s2))
  | _, _ => none

/-- The register of `vsub` under a full mask. -/
def vsubReg : VReg → VReg → Option VReg
  | .u a, .u b => some (.u (a - b))
  | .a b st, .u u => some (.a (b - u) st)
  | .u u, .a b st => some (.a (u - b) (-st))
  | .a b1 s1, .a b2 s2 => some (.a (b1 - b2) (s1 - s2))
  | _, _ => none

/-- The register of `vmul` under a full mask. -/
def vmulReg : VReg → VReg → Option VReg
  | .u a, .u b => some (.u (a * b))
  | .a b st, .u u => some (.a (b * u) (st * u))
  | .u u, .a b st => some (.a (b * u) (st * u))
  | _, _ => none

/-- The register of `vshl` under a full mask. -/
def vshlReg : VReg → VReg → Option VReg
  | .u a, .u k => some (.u (shl32 a k))
  | .a b st, .u k => some (.a (shl32 b k) (shl32 st k))
  | _, _ => none

/-- An element-wise instruction of two registers whose result shape has rows of its own. -/
def Group.shaped (g : Group) (once : Bool) (row : VReg → VReg → Option VReg) (f : W32 → W32 → W32) (a b : VReg) : VReg :=
  match once, row a b with
  | false, some r => r
  | _, _ => g.mapV once (a.isU && b.isU) fun t => f (a.get t) (b.get t)

/-- An immediate of class 4 as a register (R101). -/
def immReg (i : BitVec 9) : VReg := .u (i.signExtend 32)

/-! ## Element-wise instructions -/

/-- `vadd` (R94). -/
def execVadd (e u : Bool) (d a b : BitVec 7) (s : State) : Host.Outcome State Fault Refusal :=
  vecInstr (.vadd e u d a b) s u d fun g _ => g.shaped u vaddReg (· + ·) (g.v a) (g.v b)
/-- `vsub` (R94). -/
def execVsub (e u : Bool) (d a b : BitVec 7) (s : State) : Host.Outcome State Fault Refusal :=
  vecInstr (.vsub e u d a b) s u d fun g _ => g.shaped u vsubReg (· - ·) (g.v a) (g.v b)
/-- `vmul` (R94). -/
def execVmul (e u : Bool) (d a b : BitVec 7) (s : State) : Host.Outcome State Fault Refusal :=
  vecInstr (.vmul e u d a b) s u d fun g _ => g.shaped u vmulReg (· * ·) (g.v a) (g.v b)
/-- `vmulhi.i` (R94). -/
def execVmulhiI (e u : Bool) (d a b : BitVec 7) (s : State) : Host.Outcome State Fault Refusal :=
  vec2 (.vmulhiI e u d a b) s u d a b mulhiI
/-- `vmulhi.n` (R94). -/
def execVmulhiN (e u : Bool) (d a b : BitVec 7) (s : State) : Host.Outcome State Fault Refusal :=
  vec2 (.vmulhiN e u d a b) s u d a b mulhiN
/-- `vmac` (R94): the prior destination is a source. -/
def execVmac (e u : Bool) (d a b : BitVec 7) (s : State) : Host.Outcome State Fault Refusal :=
  vec3 (.vmac e u d a b) s u d a b fun x y z => x + y * z
/-- `vand` (R94). -/
def execVand (e u : Bool) (d a b : BitVec 7) (s : State) : Host.Outcome State Fault Refusal :=
  vec2 (.vand e u d a b) s u d a b (· &&& ·)
/-- `vor` (R94). -/
def execVor (e u : Bool) (d a b : BitVec 7) (s : State) : Host.Outcome State Fault Refusal :=
  vec2 (.vor e u d a b) s u d a b (· ||| ·)
/-- `vxor` (R94). -/
def execVxor (e u : Bool) (d a b : BitVec 7) (s : State) : Host.Outcome State Fault Refusal :=
  vec2 (.vxor e u d a b) s u d a b (· ^^^ ·)
/-- `vandn` (R94). -/
def execVandn (e u : Bool) (d a b : BitVec 7) (s : State) : Host.Outcome State Fault Refusal :=
  vec2 (.vandn e u d a b) s u d a b fun x y => x &&& ~~~y
/-- `vshl` (R95). -/
def execVshl (e u : Bool) (d a b : BitVec 7) (s : State) : Host.Outcome State Fault Refusal :=
  vecInstr (.vshl e u d a b) s u d fun g _ => g.shaped u vshlReg shl32 (g.v a) (g.v b)
/-- `vshr.n` (R95). -/
def execVshrN (e u : Bool) (d a b : BitVec 7) (s : State) : Host.Outcome State Fault Refusal :=
  vec2 (.vshrN e u d a b) s u d a b shr32
/-- `vshr.i` (R95). -/
def execVshrI (e u : Bool) (d a b : BitVec 7) (s : State) : Host.Outcome State Fault Refusal :=
  vec2 (.vshrI e u d a b) s u d a b sar32
/-- `vrotl` (R95). -/
def execVrotl (e u : Bool) (d a b : BitVec 7) (s : State) : Host.Outcome State Fault Refusal :=
  vec2 (.vrotl e u d a b) s u d a b rotl32
/-- `vfshl` (R96). -/
def execVfshl (e u : Bool) (d a b : BitVec 7) (s : State) : Host.Outcome State Fault Refusal :=
  vec3 (.vfshl e u d a b) s u d a b fshl
/-- `vfshr` (R96). -/
def execVfshr (e u : Bool) (d a b : BitVec 7) (s : State) : Host.Outcome State Fault Refusal :=
  vec3 (.vfshr e u d a b) s u d a b fshr
/-- `vmin.i` (R94). -/
def execVminI (e u : Bool) (d a b : BitVec 7) (s : State) : Host.Outcome State Fault Refusal :=
  vec2 (.vminI e u d a b) s u d a b minI
/-- `vmax.i` (R94). -/
def execVmaxI (e u : Bool) (d a b : BitVec 7) (s : State) : Host.Outcome State Fault Refusal :=
  vec2 (.vmaxI e u d a b) s u d a b maxI
/-- `vmin.n` (R94). -/
def execVminN (e u : Bool) (d a b : BitVec 7) (s : State) : Host.Outcome State Fault Refusal :=
  vec2 (.vminN e u d a b) s u d a b minN
/-- `vmax.n` (R94). -/
def execVmaxN (e u : Bool) (d a b : BitVec 7) (s : State) : Host.Outcome State Fault Refusal :=
  vec2 (.vmaxN e u d a b) s u d a b maxN
/-- `vpopc` (R94). -/
def execVpopc (e u : Bool) (d a : BitVec 7) (s : State) : Host.Outcome State Fault Refusal :=
  vec1 (.vpopc e u d a) s u d a fun x => BitVec.ofNat 32 (popc 32 x.toNat)
/-- `vclz` (R94). -/
def execVclz (e u : Bool) (d a : BitVec 7) (s : State) : Host.Outcome State Fault Refusal :=
  vec1 (.vclz e u d a) s u d a fun x => BitVec.ofNat 32 (clz 32 x.toNat)
/-- `vbrev` (R94). -/
def execVbrev (e u : Bool) (d a : BitVec 7) (s : State) : Host.Outcome State Fault Refusal :=
  vec1 (.vbrev e u d a) s u d a brev
/-- `vmov` (R94): under a full mask the shape of the source is copied. -/
def execVmov (e u : Bool) (d a : BitVec 7) (s : State) : Host.Outcome State Fault Refusal :=
  vecInstr (.vmov e u d a) s u d fun g _ => if u then g.mapV u false (g.v a).get else g.v a
/-- `vsel` (R99): `sm` counts as a G source. -/
def execVsel (e u : Bool) (d a b : BitVec 7) (s : State) : Host.Outcome State Fault Refusal :=
  vecInstr (.vsel e u d a b) s u d fun g _ =>
    g.mapV u false fun t => if g.sm.getLsbD t then (g.v a).get t else (g.v b).get t
/-- `vlop3` (R97). -/
def execVlop3 (e u : Bool) (d a b c : BitVec 7) (k : BitVec 8) (s : State) : Host.Outcome State Fault Refusal :=
  vecInstr (.vlop3 e u d a b c k) s u d fun g _ =>
    g.mapV u ((g.v a).isU && (g.v b).isU && (g.v c).isU) fun t =>
      lop3 k ((g.v a).get t) ((g.v b).get t) ((g.v c).get t)

/-- `vaddi` (R101). -/
def execVaddi (e u : Bool) (d a : BitVec 7) (i : BitVec 9) (s : State) : Host.Outcome State Fault Refusal :=
  vecInstr (.vaddi e u d a i) s u d fun g _ => g.shaped u vaddReg (· + ·) (g.v a) (immReg i)
/-- `vmuli` (R101). -/
def execVmuli (e u : Bool) (d a : BitVec 7) (i : BitVec 9) (s : State) : Host.Outcome State Fault Refusal :=
  vecInstr (.vmuli e u d a i) s u d fun g _ => g.shaped u vmulReg (· * ·) (g.v a) (immReg i)
/-- `vandi` (R101). -/
def execVandi (e u : Bool) (d a : BitVec 7) (i : BitVec 9) (s : State) : Host.Outcome State Fault Refusal :=
  vec1 (.vandi e u d a i) s u d a fun x => x &&& i.signExtend 32
/-- `vshli` (R101): the immediate lies from 0 to 31. -/
def execVshli (e u : Bool) (d a : BitVec 7) (i : BitVec 9) (s : State) : Host.Outcome State Fault Refusal :=
  vecInstr (.vshli e u d a i) s u d fun g _ => g.shaped u vshlReg shl32 (g.v a) (immReg i)
/-- `vshri.n` (R101). -/
def execVshriN (e u : Bool) (d a : BitVec 7) (i : BitVec 9) (s : State) : Host.Outcome State Fault Refusal :=
  vec1 (.vshriN e u d a i) s u d a fun x => x >>> i.toNat
/-- `vshri.i` (R101). -/
def execVshriI (e u : Bool) (d a : BitVec 7) (i : BitVec 9) (s : State) : Host.Outcome State Fault Refusal :=
  vec1 (.vshriI e u d a i) s u d a fun x => x.sshiftRight i.toNat

/-! ## Compares (R98) -/

/-- A compare of 32-bit elements. -/
def cmp32 (i : Instr) (s : State) (d a b : Fld) (p : W32 → W32 → Bool) : Host.Outcome State Fault Refusal :=
  maskInstr i s d fun g t => p ((g.v a).get t) ((g.v b).get t)

/-- A compare of 64-bit pairs. -/
def cmp64 (i : Instr) (s : State) (d a b : Fld) (p : W64 → W64 → Bool) : Host.Outcome State Fault Refusal :=
  maskInstr i s d fun g t => p (g.pair a t) (g.pair b t)

/-- `vceq` (R98). -/
def execVceq (e : Bool) (d a b : BitVec 7) (s : State) : Host.Outcome State Fault Refusal :=
  cmp32 (.vceq e d a b) s d a b fun x y => x == y
/-- `vcne` (R98). -/
def execVcne (e : Bool) (d a b : BitVec 7) (s : State) : Host.Outcome State Fault Refusal :=
  cmp32 (.vcne e d a b) s d a b fun x y => x != y
/-- `vclt.i` (R98). -/
def execVcltI (e : Bool) (d a b : BitVec 7) (s : State) : Host.Outcome State Fault Refusal :=
  cmp32 (.vcltI e d a b) s d a b fun x y => x.slt y
/-- `vcle.i` (R98). -/
def execVcleI (e : Bool) (d a b : BitVec 7) (s : State) : Host.Outcome State Fault Refusal :=
  cmp32 (.vcleI e d a b) s d a b fun x y => x.sle y
/-- `vclt.n` (R98). -/
def execVcltN (e : Bool) (d a b : BitVec 7) (s : State) : Host.Outcome State Fault Refusal :=
  cmp32 (.vcltN e d a b) s d a b fun x y => x.ult y
/-- `vcle.n` (R98). -/
def execVcleN (e : Bool) (d a b : BitVec 7) (s : State) : Host.Outcome State Fault Refusal :=
  cmp32 (.vcleN e d a b) s d a b fun x y => x.ule y
/-- `vceq.w` (R98). -/
def execVceqW (e : Bool) (d a b : BitVec 7) (s : State) : Host.Outcome State Fault Refusal :=
  cmp64 (.vceqW e d a b) s d a b fun x y => x == y
/-- `vclt.w.i` (R98). -/
def execVcltWI (e : Bool) (d a b : BitVec 7) (s : State) : Host.Outcome State Fault Refusal :=
  cmp64 (.vcltWI e d a b) s d a b fun x y => x.slt y
/-- `vclt.w.n` (R98). -/
def execVcltWN (e : Bool) (d a b : BitVec 7) (s : State) : Host.Outcome State Fault Refusal :=
  cmp64 (.vcltWN e d a b) s d a b fun x y => x.ult y
/-- `vceqi` (R98). -/
def execVceqi (e : Bool) (d a : BitVec 7) (i : BitVec 9) (s : State) : Host.Outcome State Fault Refusal :=
  maskInstr (.vceqi e d a i) s d fun g t => (g.v a).get t == i.signExtend 32
/-- `vclti.i` (R98). -/
def execVcltiI (e : Bool) (d a : BitVec 7) (i : BitVec 9) (s : State) : Host.Outcome State Fault Refusal :=
  maskInstr (.vcltiI e d a i) s d fun g t => ((g.v a).get t).slt (i.signExtend 32)

/-! ## 64-bit pairs (R100) -/

/-- An instruction of two pairs. -/
def pair2 (i : Instr) (s : State) (u : Bool) (d a b : Fld) (f : W64 → W64 → W64) : Host.Outcome State Fault Refusal :=
  pairInstr i s u d (fun g => g.pairU a && g.pairU b) (fun g t => f (g.pair a t) (g.pair b t)) fun g => g.vcost u

/-- A shift of a pair by a 32-bit element. -/
def pairShift (i : Instr) (s : State) (u : Bool) (d a b : Fld) (f : W64 → W64 → W64) : Host.Outcome State Fault Refusal :=
  pairInstr i s u d (fun g => g.pairU a && (g.v b).isU) (fun g t => f (g.pair a t) (((g.v b).get t).setWidth 64))
    fun g => g.vcost u

/-- `vadd.w` (R100). -/
def execVaddW (e u : Bool) (d a b : BitVec 7) (s : State) : Host.Outcome State Fault Refusal :=
  pair2 (.vaddW e u d a b) s u d a b (· + ·)
/-- `vsub.w` (R100). -/
def execVsubW (e u : Bool) (d a b : BitVec 7) (s : State) : Host.Outcome State Fault Refusal :=
  pair2 (.vsubW e u d a b) s u d a b (· - ·)
/-- `vmul.w` (R100). -/
def execVmulW (e u : Bool) (d a b : BitVec 7) (s : State) : Host.Outcome State Fault Refusal :=
  pair2 (.vmulW e u d a b) s u d a b (· * ·)
/-- `vshl.w` (R100). -/
def execVshlW (e u : Bool) (d a b : BitVec 7) (s : State) : Host.Outcome State Fault Refusal :=
  pairShift (.vshlW e u d a b) s u d a b shl64
/-- `vshr.w.n` (R100). -/
def execVshrWN (e u : Bool) (d a b : BitVec 7) (s : State) : Host.Outcome State Fault Refusal :=
  pairShift (.vshrWN e u d a b) s u d a b shr64
/-- `vshr.w.i` (R100). -/
def execVshrWI (e u : Bool) (d a b : BitVec 7) (s : State) : Host.Outcome State Fault Refusal :=
  pairShift (.vshrWI e u d a b) s u d a b sar64

/-! ## Thread index and shapes -/

/-- `vtid` (R102): A(0, 1) under a full mask. -/
def execVtid (e : Bool) (d : BitVec 7) (s : State) : Host.Outcome State Fault Refusal :=
  vecInstr (.vtid e d) s false d fun _ _ => .a 0 1

/-- What `vshape` writes (R103). -/
def shapeWord : VReg → W64
  | .u v => v ++ 0#32
  | .a _ st => st ++ 1#32
  | .g _ => 2

/-- `vshape` (R103): once for the group, one cycle; it consumes no element. -/
def execVshape (e : Bool) (d a : BitVec 7) (s : State) : Host.Outcome State Fault Refusal :=
  issue (.vshape e d a) s fun g s => .seq s (g.writeS d (shapeWord (g.v a))) 1

/-- `vgen` (R104): shape G whatever the mask; threads that are not active keep their elements. -/
def execVgen (e : Bool) (d a : BitVec 7) (s : State) : Host.Outcome State Fault Refusal :=
  issue (.vgen e d a) s fun g s =>
    let old := (g.v d).toList g.width.n
    let g' := if g.active = 0 then { g with
        vregs := g.vregs.set (g.reg d) (.g old), poison := poisonAfter g.poison (g.v d) (g.reg d) g.width.n 0 }
      else g.setV d (.g ((g.v a).toList g.width.n))
    .seq s g' (g.vcost false)

/-! ## Cross-thread instructions (R106) -/

/-- An instruction that writes one register of shape G, a value for each thread. -/
def crossInstr (i : Instr) (s : State) (d : Fld) (f : Group → Nat → W32) : Host.Outcome State Fault Refusal :=
  vecInstr i s false d fun g _ => .g ((List.range g.width.n).map (f g))

/-- The sum of the elements of some threads, modulo 2^32. -/
def sumOver (v : VReg) (ts : List Nat) : W32 := ts.foldl (fun x t => x + v.get t) 0

/-- The active threads of a group. -/
def Group.ts (g : Group) : List Nat := threads g.active g.width.n

/-- `vxsh` (R106). -/
def execVxsh (e : Bool) (d a b : BitVec 7) (s : State) : Host.Outcome State Fault Refusal :=
  crossInstr (.vxsh e d a b) s d fun g t => (g.v a).get (((g.v b).get t).toNat % g.width.n)

/-- `vxshu` (R106). -/
def execVxshu (e : Bool) (d a b : BitVec 7) (s : State) : Host.Outcome State Fault Refusal :=
  vecInstr (.vxshu e d a b) s false d fun g s =>
    let k := (g.readS (s.cyc g) b).toNat
    .g ((List.range g.width.n).map fun t => (g.v a).get (if k ≤ t then t - k else t))

/-- `vscan.add` (R106). -/
def execVscanAdd (e : Bool) (d a : BitVec 7) (s : State) : Host.Outcome State Fault Refusal :=
  crossInstr (.vscanAdd e d a) s d fun g t => sumOver (g.v a) (g.ts.filter fun v => v ≤ t)

/-- `vred.add` (R106). -/
def execVredAdd (e : Bool) (d a : BitVec 7) (s : State) : Host.Outcome State Fault Refusal :=
  crossInstr (.vredAdd e d a) s d fun g _ => sumOver (g.v a) g.ts

/-- The active threads whose key equals that of a thread (R107). -/
def Group.sameKey (g : Group) (a : Fld) (t : Nat) : List Nat :=
  g.ts.filter fun v => (g.v a).get v == (g.v a).get t

/-- `vmatchr` (R107): class sums, and the mask of each class's lowest thread into `sm`; with no active thread `sm` is
left. -/
def execVmatchr (e : Bool) (d a b : BitVec 7) (s : State) : Host.Outcome State Fault Refusal :=
  issue (.vmatchr e d a b) s fun g s =>
    let sums := VReg.g ((List.range g.width.n).map fun t => sumOver (g.v b) (g.sameKey a t))
    let leaders := maskOf (g.ts.filter fun t => (g.sameKey a t).head? == some t)
    let g' := if g.active = 0 then g else { g.setV d sums with sm := leaders }
    .seq s g' (g.vcost false)

/-- The lowest of some threads whose element none beats (R108). -/
def bestThread (v : VReg) (beats : W32 → W32 → Bool) : List Nat → Nat
  | [] => 0
  | t :: ts => ts.foldl (fun b u => if beats (v.get u) (v.get b) then u else b) t

/-- A reduction to a value and the lowest thread that holds it, written as a pair of shape G (R108). -/
def redPair (i : Instr) (s : State) (d a : Fld) (beats : W32 → W32 → Bool) : Host.Outcome State Fault Refusal :=
  issue i s fun g s =>
    let b := bestThread (g.v a) beats g.ts
    let fill := fun (x : W32) => VReg.g (List.replicate g.width.n x)
    .seq s (g.setPair d (fill ((g.v a).get b)) (fill (BitVec.ofNat 32 b))) (g.vcost false)

/-- `vredmaxi.i` (R108). -/
def execVredmaxiI (e : Bool) (d a : BitVec 7) (s : State) : Host.Outcome State Fault Refusal :=
  redPair (.vredmaxiI e d a) s d a fun x y => y.slt x
/-- `vredmini.i` (R108). -/
def execVredminiI (e : Bool) (d a : BitVec 7) (s : State) : Host.Outcome State Fault Refusal :=
  redPair (.vredminiI e d a) s d a fun x y => x.slt y

/-! ## Modular arithmetic (R109 to R111) -/

/-- The modulus that `mq` selects, of the group's team (R109). -/
def State.modulus (s : State) (g : Group) : Nat :=
  match s.team? g.team with
  | some t => (t.mod.getD g.mq 0x7FFFFFFF).toNat
  | none => 0x7FFFFFFF

/-- A modular instruction (R111): sources as unsigned integers, the residue of an exact value. DESIGN CHOICE (log 37): a modulus
of 0, which R109 shuts out and only a rewritten team image can bring in (R264), leaves the value as it is. -/
def modInstr (i : Instr) (s : State) (u : Bool) (d : Fld) (allU : Group → Bool) (f : Group → Nat → Nat → Nat) :
    Host.Outcome State Fault Refusal :=
  vecInstr i s u d fun g s => g.mapV u (allU g) fun t => BitVec.ofNat 32 (f g t (s.modulus g))

/-- An element as an unsigned integer. -/
def Group.elemN (g : Group) (f : Fld) (t : Nat) : Nat := ((g.v f).get t).toNat

/-- `vaddmod` (R111). -/
def execVaddmod (e u : Bool) (d a b : BitVec 7) (s : State) : Host.Outcome State Fault Refusal :=
  modInstr (.vaddmod e u d a b) s u d (fun g => (g.v a).isU && (g.v b).isU) fun g t q => (g.elemN a t + g.elemN b t) % q
/-- `vsubmod` (R111): mathematical, never negative. -/
def execVsubmod (e u : Bool) (d a b : BitVec 7) (s : State) : Host.Outcome State Fault Refusal :=
  modInstr (.vsubmod e u d a b) s u d (fun g => (g.v a).isU && (g.v b).isU) fun g t q =>
    (((g.elemN a t : Int) - (g.elemN b t : Int)) % (q : Int)).toNat
/-- `vmulmod` (R111). -/
def execVmulmod (e u : Bool) (d a b : BitVec 7) (s : State) : Host.Outcome State Fault Refusal :=
  modInstr (.vmulmod e u d a b) s u d (fun g => (g.v a).isU && (g.v b).isU) fun g t q => (g.elemN a t * g.elemN b t) % q
/-- `vmacmod` (R111): the prior destination is a source. -/
def execVmacmod (e u : Bool) (d a b : BitVec 7) (s : State) : Host.Outcome State Fault Refusal :=
  modInstr (.vmacmod e u d a b) s u d (fun g => (g.v d).isU && (g.v a).isU && (g.v b).isU) fun g t q =>
    (g.elemN d t + g.elemN a t * g.elemN b t) % q

/-- A value may enter the modulus table (R109, R110). -/
def modulusOk (v : W64) : Bool := v.toNat < 2 ^ 31 && 2 ^ 30 < v.toNat && v.toNat % 2 == 1

/-- `mqld` (R110): a value that fails the check at issue is an illegal operand, and the table stays. DESIGN CHOICE (log 37):
another group of the team reads the new value at once, where R110 lets it read the old one until a phase of a barrier ends. -/
def execMqld (e : Bool) (a : BitVec 7) (n : BitVec 3) (s : State) : Host.Outcome State Fault Refusal :=
  issue (.mqld e a n) s fun g s =>
    let v := g.readS (s.cyc g) a
    if !modulusOk v then .trap .illegalOperand 0
    else match s.team? g.team with
      | some t => .seq (s.setTeam { t with mod := t.mod.set n.toNat (v.setWidth 32) }) g 1
      | none => .seq s g 1

end Sys2Proof.Machine
end

