-- ==== Sys2Proof/Machine/Shares.lean ====
section
/-!
DEFINITION. Secret shares, triples and conversations: class 2, `tfill`, `tburn` and `xopen` (R197 to R232).
-/

namespace Sys2Proof.Machine

open Sys2Proof

/-! ## Local share instructions (R200 to R202) -/

/-- A share as its type reads it and writes it (R113, Table 1). -/
def shareWord (k x : Nat) : W32 := BitVec.ofNat 32 (x % kmod k)

/-- An element of a register as a residue modulo 2^k. -/
def Group.share (g : Group) (k : Nat) (f : Fld) (t : Nat) : Nat := ((g.v f).get t).toNat % kmod k

/-- A local instruction of two sources. -/
def share2 (i : Instr) (s : State) (k : Nat) (d a b : Fld) (f : Nat → Nat → Nat) : Host.Outcome State Fault Refusal :=
  vecInstr i s false d fun g _ => g.mapV false ((g.v a).isU && (g.v b).isU) fun t =>
    shareWord k (f (g.share k a t) (g.share k b t))

/-- The party of `crole0`, as the group reads it, or the reason of R200 why there is none. -/
def Group.localParty (g : Group) : Option Nat :=
  let v := g.crole.getD 0 0
  if v ≠ 0 && roleNum v < roleNp v then some (roleNum v) else none

/-- A local instruction that fails in every active thread (R200): each element keeps its value. -/
def Group.shareFail (g : Group) (reason : Nat) : Group :=
  let v := g.crole.getD 0 0
  if g.active = 0 then g
  else g.failNow .outOfTurn (gateDetail (roleConv v) 0 (roleNum v) 0 reason) g.active 0

/-- `vsaddp`: the public value is added at party 0 only. -/
def shareAddPublic (i : Instr) (s : State) (k : Nat) (d a b : Fld) : Host.Outcome State Fault Refusal :=
  issue i s fun g s => match g.localParty with
    | none => .seq s (g.shareFail 3) (g.vcost false)
    | some p => .seq s (g.setV d (g.mapV false ((g.v a).isU && (g.v b).isU) fun t =>
        shareWord k (if p = 0 then g.share k a t + g.share k b t else g.share k a t))) (g.vcost false)

/-- A share divided by 2^f by a party (R202). -/
def truncShare (k f party z : Nat) : Nat :=
  if party = 0 then z / 2 ^ f
  else if z = 0 then 0
  else (kmod k - (kmod k - z) / 2 ^ f) % kmod k

/-- `vstrunc`. -/
def shareTrunc (i : Instr) (s : State) (k : Nat) (d a f : Fld) : Host.Outcome State Fault Refusal :=
  issue i s fun g s => match g.localParty with
    | none => .seq s (g.shareFail 3) (g.vcost false)
    | some p =>
      if 2 < roleNp (g.crole.getD 0 0) then .seq s (g.shareFail 8) (g.vcost false)
      else .seq s (g.setV d (g.mapV false (g.v a).isU fun t => shareWord k (truncShare k f.toNat p (g.share k a t))))
        (g.vcost false)

/-- `vsred`: the sum over the active threads, in each of them. -/
def shareSum (i : Instr) (s : State) (k : Nat) (d a : Fld) : Host.Outcome State Fault Refusal :=
  crossInstr i s d fun g _ => shareWord k ((g.ts.map (g.share k a)).sum)

/-! ## Gate instructions -/

/-- A captured gate share instruction (R222): the two source elements of each active thread. -/
def Group.gateOp (g : Group) (op : GateOp) (k : Nat) (d a b : Fld) : DOp :=
  let cap := fun (f : Fld) t => if k = 32 then (g.v f).get t else shareWord k (g.share k f t)
  .gate op k (g.ts.map fun t => (t, cap a t, cap b t)) (g.reg d)

/-- A gate share instruction (R222): its operands captured thread by thread, then handed to the gate. With no active
thread it issues nothing. -/
def gateInstr (i : Instr) (s : State) (op : GateOp) (k : Nat) (d a b : Fld) : Host.Outcome State Fault Refusal :=
  issue i s fun g s =>
    if g.active = 0 then .seq s g (g.vcost false)
    else
      let dop := g.gateOp op k d a b
      deferred i g s dop (g.vcost false) fun s => s.gateArrive g.uid g.ticket dop

/-- A conversation instruction (R74): it issues once for the group, at one cycle, and arrives at the gate. -/
def convInstr (i : Instr) (s : State) (op : (Fld → W64) → DOp) : Host.Outcome State Fault Refusal :=
  issue i s fun g s =>
    let dop := op (g.readS (s.cyc g))
    deferred i g s dop 1 fun s => s.gateArrive g.uid g.ticket dop

/-- The role register that an H field names (R198). -/
def roleReg (f : Fld) : Nat := f.toNat - 80

/-- A length of a tile (R218, R227): a multiple of 64 from 64 to 1,048,576. -/
def tileLen (n : W64) : Bool := n.toNat % 64 == 0 && 64 ≤ n.toNat && n.toNat ≤ 1048576

/-- `vsadd.s16` (R201). -/
def execVsaddS16 (e : Bool) (d a b : Fld) (s : State) : Host.Outcome State Fault Refusal :=
  share2 (.vsaddS16 e d a b) s 16 d a b fun x y => x + y

/-- `vssub.s16` (R201). -/
def execVssubS16 (e : Bool) (d a b : Fld) (s : State) : Host.Outcome State Fault Refusal :=
  share2 (.vssubS16 e d a b) s 16 d a b fun x y => subMod 16 x y

/-- `vsaddp.s16` (R200, R201). -/
def execVsaddpS16 (e : Bool) (d a b : Fld) (s : State) : Host.Outcome State Fault Refusal :=
  shareAddPublic (.vsaddpS16 e d a b) s 16 d a b

/-- `vsmulp.s16` (R201). -/
def execVsmulpS16 (e : Bool) (d a b : Fld) (s : State) : Host.Outcome State Fault Refusal :=
  share2 (.vsmulpS16 e d a b) s 16 d a b fun x y => x * y

/-- `vsmul.s16` (R223). -/
def execVsmulS16 (e : Bool) (d a b : Fld) (s : State) : Host.Outcome State Fault Refusal :=
  gateInstr (.vsmulS16 e d a b) s .smul 16 d a b

/-- `vstrunc.s16` (R202). -/
def execVstruncS16 (e : Bool) (d a f : Fld) (s : State) : Host.Outcome State Fault Refusal :=
  shareTrunc (.vstruncS16 e d a f) s 16 d a f

/-- `vsltz.s16` (R225). -/
def execVsltzS16 (e : Bool) (d a : Fld) (s : State) : Host.Outcome State Fault Refusal :=
  gateInstr (.vsltzS16 e d a) s .sltz 16 d a a

/-- `vsb2a.s16` (R226). -/
def execVsb2aS16 (e : Bool) (d a : Fld) (s : State) : Host.Outcome State Fault Refusal :=
  gateInstr (.vsb2aS16 e d a) s .sb2a 16 d a a

/-- `vsopen.s16` (R227). -/
def execVsopenS16 (e : Bool) (d a : Fld) (s : State) : Host.Outcome State Fault Refusal :=
  gateInstr (.vsopenS16 e d a) s .sopen 16 d a a

/-- `vsred.s16` (R201). -/
def execVsredS16 (e : Bool) (d a : Fld) (s : State) : Host.Outcome State Fault Refusal :=
  shareSum (.vsredS16 e d a) s 16 d a

/-- `vsadd.s32` (R201). -/
def execVsaddS32 (e : Bool) (d a b : Fld) (s : State) : Host.Outcome State Fault Refusal :=
  share2 (.vsaddS32 e d a b) s 32 d a b fun x y => x + y

/-- `vssub.s32` (R201). -/
def execVssubS32 (e : Bool) (d a b : Fld) (s : State) : Host.Outcome State Fault Refusal :=
  share2 (.vssubS32 e d a b) s 32 d a b fun x y => subMod 32 x y

/-- `vsaddp.s32` (R200, R201). -/
def execVsaddpS32 (e : Bool) (d a b : Fld) (s : State) : Host.Outcome State Fault Refusal :=
  shareAddPublic (.vsaddpS32 e d a b) s 32 d a b

/-- `vsmulp.s32` (R201). -/
def execVsmulpS32 (e : Bool) (d a b : Fld) (s : State) : Host.Outcome State Fault Refusal :=
  share2 (.vsmulpS32 e d a b) s 32 d a b fun x y => x * y

/-- `vsmul.s32` (R223). -/
def execVsmulS32 (e : Bool) (d a b : Fld) (s : State) : Host.Outcome State Fault Refusal :=
  gateInstr (.vsmulS32 e d a b) s .smul 32 d a b

/-- `vstrunc.s32` (R202). -/
def execVstruncS32 (e : Bool) (d a f : Fld) (s : State) : Host.Outcome State Fault Refusal :=
  shareTrunc (.vstruncS32 e d a f) s 32 d a f

/-- `vsltz.s32` (R225). -/
def execVsltzS32 (e : Bool) (d a : Fld) (s : State) : Host.Outcome State Fault Refusal :=
  gateInstr (.vsltzS32 e d a) s .sltz 32 d a a

/-- `vsb2a.s32` (R226). -/
def execVsb2aS32 (e : Bool) (d a : Fld) (s : State) : Host.Outcome State Fault Refusal :=
  gateInstr (.vsb2aS32 e d a) s .sb2a 32 d a a

/-- `vsopen.s32` (R227). -/
def execVsopenS32 (e : Bool) (d a : Fld) (s : State) : Host.Outcome State Fault Refusal :=
  gateInstr (.vsopenS32 e d a) s .sopen 32 d a a

/-- `vsred.s32` (R201). -/
def execVsredS32 (e : Bool) (d a : Fld) (s : State) : Host.Outcome State Fault Refusal :=
  shareSum (.vsredS32 e d a) s 32 d a

/-- `vsxor.b` (R201). -/
def execVsxorB (e : Bool) (d a b : Fld) (s : State) : Host.Outcome State Fault Refusal :=
  vec2 (.vsxorB e d a b) s false d a b fun x y => x ^^^ y

/-- `vsand.b` (R224). -/
def execVsandB (e : Bool) (d a b : Fld) (s : State) : Host.Outcome State Fault Refusal :=
  gateInstr (.vsandB e d a b) s .sandB 32 d a b

/-- `cbind` (R209). -/
def execCbind (e : Bool) (d a : Fld) (s : State) : Host.Outcome State Fault Refusal :=
  convInstr (.cbind e d a) s fun r => .cbind (roleReg d) (r a)

/-- `csend` (R210). -/
def execCsend (e : Bool) (d k b : Fld) (s : State) : Host.Outcome State Fault Refusal :=
  convInstr (.csend e d k b) s fun r => .csend (roleReg d) k.toNat (r b) false

/-- `crecv` (R211). -/
def execCrecv (e : Bool) (d a k : Fld) (s : State) : Host.Outcome State Fault Refusal :=
  convInstr (.crecv e d a k) s fun _ => .crecv (roleReg a) k.toNat d

/-- `cchoose` (R212). -/
def execCchoose (e : Bool) (d k b : Fld) (s : State) : Host.Outcome State Fault Refusal :=
  convInstr (.cchoose e d k b) s fun r => .csend (roleReg d) k.toNat (r b) true

/-- `cdeleg` (R213). -/
def execCdeleg (e : Bool) (d a : Fld) (s : State) : Host.Outcome State Fault Refusal :=
  convInstr (.cdeleg e d a) s fun r => .cdeleg (roleReg d) (r a)

/-- `cstate` (R214). -/
def execCstate (e : Bool) (d a : Fld) (s : State) : Host.Outcome State Fault Refusal :=
  convInstr (.cstate e d a) s fun _ => .cstate (roleReg a) d

/-- `cabort` (R215). -/
def execCabort (e : Bool) (d : Fld) (s : State) : Host.Outcome State Fault Refusal :=
  convInstr (.cabort e d) s fun _ => .cabort (roleReg d)

/-- `tlevel` (R219): it reads the register as the group sees it, and never fails. DESIGN CHOICE (log 16): also through a binding
whose role the group's world no longer holds it reads the level of the role's party. -/
def execTlevel (e : Bool) (d a : Fld) (s : State) : Host.Outcome State Fault Refusal :=
  issue (.tlevel e d a) s fun g s =>
    let v := g.crole.getD (roleReg a) 0
    let role := roleNum v
    let level := match if v = 0 then none else s.conv? (roleConv v) with
      | some c =>
        if c.aborted || c.np ≤ role then 0
        else (c.party role).arith.length + (c.party role).bools.length * 2 ^ 32
      | none => 0
    .seq s (g.writeS d (BitVec.ofNat 64 level)) 1

/-- `tfill` with dir send (R218): count, length and address are checked when it issues. -/
def execTfillSend (e : Bool) (d a b : Fld) (q dst : BitVec 2) (s : State) : Host.Outcome State Fault Refusal :=
  issue (.tfillSend e d a b q dst) s fun g s =>
    let r := g.readS (s.cyc g)
    let ok := if q = 2 then tileLen (r b) && (r a).toNat % 64 == 0
      else 1 ≤ (r b).toNat && (r b).toNat ≤ 4096 && (r a).toNat % 16 == 0
    if !ok then .seq s (g.failNow .alignment 0 0 (r a)) 1
    else
      let dop := DOp.tsend (roleReg d) q.toNat (r a) (r b) dst.toNat
      deferred (.tfillSend e d a b q dst) g s dop 1 fun s => s.gateArrive g.uid g.ticket dop

/-- `tfill` with dir accept (R218): for a tile the address is checked when it issues. -/
def execTfillAccept (e : Bool) (d a b : Fld) (q : BitVec 2) (s : State) : Host.Outcome State Fault Refusal :=
  issue (.tfillAccept e d a b q) s fun g s =>
    let r := g.readS (s.cyc g)
    if q = 2 && (r a).toNat % 64 ≠ 0 then .seq s (g.failNow .alignment 2 0 (r a)) 1
    else
      let dop := DOp.taccept (roleReg d) q.toNat (r a) (r b)
      deferred (.tfillAccept e d a b q) g s dop 1 fun s => s.gateArrive g.uid g.ticket dop

/-- `tburn` (R220). -/
def execTburn (e : Bool) (d a : Fld) (q : BitVec 2) (s : State) : Host.Outcome State Fault Refusal :=
  convInstr (.tburn e d a q) s fun r => .tburn (roleReg d) q.toNat (r a)

/-- `xopen` (R227): length and addresses are checked when it issues. -/
def execXopen (e : Bool) (d a b : Fld) (ty dsp ssp : Bool) (s : State) : Host.Outcome State Fault Refusal :=
  issue (.xopen e d a b ty dsp ssp) s fun g s =>
    let r := g.readS (s.cyc g)
    if !tileLen (r b) || (r a).toNat % 64 ≠ 0 then .seq s (g.failNow .alignment 0 0 (r a)) 1
    else if (r d).toNat % 64 ≠ 0 then .seq s (g.failNow .alignment 2 0 (r d)) 1
    else
      let dop := DOp.gate (.xopen (r d) (r a) (r b) dsp ssp) (if ty then 32 else 16) [] 0
      deferred (.xopen e d a b ty dsp ssp) g s dop 1 fun s => s.gateArrive g.uid g.ticket dop

end Sys2Proof.Machine
end

