-- ==== Sys2Proof/Machine/Capture.lean ====
section
/-!
DEFINITION. What an instruction captures when it issues (R15), told from its fields alone: what a fence holds back (R54,
R55, R159), what a store that is performed later holds back (R46, R53), and how an entry of a save area is read back (R32).
DESIGN CHOICE: which stores may be performed later (log 3).
-/

namespace Sys2Proof.Machine

open Sys2Proof

/-! ## Capture -/

/-- The operation that a long-latency, issue-only or engine instruction of a group captures, `r` giving its scalars; of a
scalar slice access the bytes that it reaches. -/
def Instr.capture (i : Instr) (s : State) (g : Group) (r : Fld → W64) : Option DOp :=
  let buf := fun (n : BitVec 5) => match s.team? g.team with
    | some t => t.bufIx g.core n.toNat
    | none => n.toNat
  let engine := fun (op : EngOp) => some (DOp.engine op g.fpm g.runPc)
  let global := fun (u : Bool) (d a b : Fld) (off : BitVec 11) (sc : BitVec 3) (ord : BitVec 2) (ret w : Bool) (op : BitVec 4) =>
    some (g.atomOp .global u d b (g.globalAddr a (scaled off (atomSize w))) sc ord ret w op)
  let near := fun (sp : Space) (u : Bool) (d a b : Fld) (off : BitVec 11) (sc : BitVec 3) (ord : BitVec 2) (ret w : Bool)
      (op : BitVec 4) =>
    some (g.atomOp sp u d b (g.sliceAddr a ((scaled off (atomSize w)).setWidth 32)) sc ord ret w op)
  match i with
  | .ldg _ u d a f => some (g.loadG u d a (scaled f 4) 4 1 .zero)
  | .ldgW _ u d a f => some (g.loadG u d a (scaled f 8) 8 2 .zero)
  | .ldgQ _ u d a f => some (g.loadG u d a (scaled f 16) 16 4 .zero)
  | .stg _ u d a f => some (g.storeG u d a (scaled f 4) 4 1)
  | .stgW _ u d a f => some (g.storeG u d a (scaled f 8) 8 2)
  | .stgQ _ u d a f => some (g.storeG u d a (scaled f 16) 16 4)
  | .lds _ u d a f => some (g.loadS .slice u d a (scaled f 4) 4 1 .zero)
  | .ldsW _ u d a f => some (g.loadS .slice u d a (scaled f 8) 8 2 .zero)
  | .ldsQ _ u d a f => some (g.loadS .slice u d a (scaled f 16) 16 4 .zero)
  | .sts _ u d a f => some (g.storeS .slice u d a (scaled f 4) 4 1)
  | .stsW _ u d a f => some (g.storeS .slice u d a (scaled f 8) 8 2)
  | .stsQ _ u d a f => some (g.storeS .slice u d a (scaled f 16) 16 4)
  | .sld _ d a f => some (.sload (r a + scaled f 8) d)
  | .sst _ d a f => some (.sstore (r a + scaled f 8) (r d))
  | .slds _ _ a f => some (.load .slice 8 [(0, scalarSliceAt (r a) f)] 0 0 .zero none)
  | .ssts _ d a f => some (.store .slice 8 [(0, scalarSliceAt (r a) f, (r d).setWidth 128)])
  | .ldgX _ u d a b sign half off => some (g.loadG u d a (wordOff (r b) off) (narrowSize half) 1 (narrowExt sign))
  | .stgX _ u d a b half off => some (g.storeG u d a (wordOff (r b) off) (narrowSize half) 1)
  | .ldsX _ u d a b sign half off => some (g.loadS .slice u d a (wordOff (r b) off) (narrowSize half) 1 (narrowExt sign))
  | .stsX _ u d a b half off => some (g.storeS .slice u d a (wordOff (r b) off) (narrowSize half) 1)
  | .ldd _ u d a off => some (g.loadS .dist u d a (scaled off 4) 4 1 .zero)
  | .std _ u d a off => some (g.storeS .dist u d a (scaled off 4) 4 1)
  | .atom _ u d a b off sc ord ret w op => global u d a b off sc ord ret w op
  | .atoms _ u d a b off sc ord ret w op => near .slice u d a b off sc ord ret w op
  | .atomd _ u d a b off sc ord ret w op => near .dist u d a b off sc ord ret w op
  | .xsend _ d a b nf fsp sp size x => some (.remote
      (.send (4 * sizeRegs size) sp (if nf then none else some ⟨fsp, r x⟩)) (g.remoteItems a b (some (d, sizeRegs size))) 0 0 false)
  | .xget _ d a b sp size => some (.remote (.get (4 * sizeRegs size) sp) (g.remoteItems a b none) (g.reg d) (sizeRegs size) true)
  | .xred _ d a b op ret sp size x => some (.remote (.red op.toNat (4 * sizeRegs size) sp)
      (g.remoteItems a b (some (x, sizeRegs size))) (g.reg d) (sizeRegs size) ret)
  | .xapp _ d a b ret size x => some (.remote (.app (4 * sizeRegs size))
      (g.remoteItems a b (some (x, sizeRegs size))) (g.reg d) 1 ret)
  | .launch _ a q => some (.launch (r a) q.toNat)
  | .mmloop _ d a b binc ab z _ mode nk => engine (.mmloop (if g.fromLatch i then g.latch.getD [] else g.slab a (8 * (nk.toNat + 1)))
      (r d) (r b) (nk.toNat + 1) mode.toNat binc.toNat z ab.toNat)
  | .cpy _ d a b dsp ssp ab => engine (.cpy (r d) (r a) (r b) dsp.toNat ssp.toNat ab.toNat)
  | .cunpack _ d a b ssp rows gran ty ab =>
    engine (.cunpack (r d) (r a) (r b) ssp (32 * (rows.toNat + 1)) gran.toNat ty.toNat ab.toNat)
  | .cbpush _ a b ssp n => engine (.cbpush (buf n) (r a) (r b) ssp.toNat none)
  | .vsmulS16 _ d a b => some (g.gateOp .smul 16 d a b)
  | .vsmulS32 _ d a b => some (g.gateOp .smul 32 d a b)
  | .vsltzS16 _ d a => some (g.gateOp .sltz 16 d a a)
  | .vsltzS32 _ d a => some (g.gateOp .sltz 32 d a a)
  | .vsb2aS16 _ d a => some (g.gateOp .sb2a 16 d a a)
  | .vsb2aS32 _ d a => some (g.gateOp .sb2a 32 d a a)
  | .vsopenS16 _ d a => some (g.gateOp .sopen 16 d a a)
  | .vsopenS32 _ d a => some (g.gateOp .sopen 32 d a a)
  | .vsandB _ d a b => some (g.gateOp .sandB 32 d a b)
  | .xopen _ d a b ty dsp ssp => some (.gate (.xopen (r d) (r a) (r b) dsp ssp) (if ty then 32 else 16) [] 0)
  | .cbind _ d a => some (.cbind (roleReg d) (r a))
  | .csend _ d k b => some (.csend (roleReg d) k.toNat (r b) false)
  | .crecv _ d a k => some (.crecv (roleReg a) k.toNat d)
  | .cchoose _ d k b => some (.csend (roleReg d) k.toNat (r b) true)
  | .cdeleg _ d a => some (.cdeleg (roleReg d) (r a))
  | .cstate _ d a => some (.cstate (roleReg a) d)
  | .cabort _ d => some (.cabort (roleReg d))
  | .tfillSend _ d a b q dst => some (.tsend (roleReg d) q.toNat (r a) (r b) dst.toNat)
  | .tfillAccept _ d a b q => some (.taccept (roleReg d) q.toNat (r a) (r b))
  | .tburn _ d a q => some (.tburn (roleReg d) q.toNat (r a))
  | .bar _ n => some (.bar n.toNat)
  | _ => none

/-- The operation that the next instruction of a group would capture. -/
def State.captured (s : State) (g : Group) (i : Instr) : Option DOp := Instr.capture i s g (g.readS (s.cyc g))

/-! ## Fences (R54, R55, R159) -/

/-- The next instruction of a group is held back by a fence whose earlier set is not complete (R54). -/
def State.fenced (s : State) (g : Group) (i : Instr) : Bool :=
  match s.captured g i with
  | none => false
  | some op => (s.openFences g).any (s.laterOf g op)

/-! ## Stores that are performed later (R46, R53) -/

/-- An access of a group meets one of its writes that are still to be performed. -/
def State.lateMeets (s : State) (g : Group) (sp : Space) (n : Nat) (need : Perm) (a : W64) : Bool :=
  match s.check g.part g.ctx g.team sp a n need false with
  | .ok pl => s.late.any fun l => l.uid == g.uid && l.meets pl n
  | _ => false

/-- An instruction that comes after a group's writes whatever their order towards other paths: the end of a run that other
agents see, and what another agent takes from memory on the group's behalf. -/
def Instr.closes : Instr → Bool
  | .exit _ | .bar _ _ | .abarArrive _ _ | .abarWait _ _ _ | .cbfree _ _ | .launch _ _ _ | .sys _ _ _ | .rtrap _
  | .yield _ => true
  | _ => false

/-- An atomic's order makes it a release (R46, R156). -/
def AOrd.releases : AOrd → Bool
  | .release | .acqRel => true
  | _ => false

/-- A captured access of path T comes after some of its group's writes that are still to be performed (R46, R48): it reaches
their bytes, or it is a release, and they are not of U pages. -/
def State.lateBefore (s : State) (g : Group) : DOp → Bool
  | .load sp size addrs _ _ _ _ => addrs.any fun a => s.lateMeets g sp size .read a.2
  | .sload a _ => s.lateMeets g .global 8 .read a
  | .store sp size items => items.any fun a => s.lateMeets g sp size .write a.2.1
  | .sstore a _ => s.lateMeets g .global 8 .write a
  | .atomic sp wide op ord _ _ items _ _ =>
    (ord.releases && s.late.any fun l => l.uid == g.uid && !l.upage)
      || items.any fun a => s.lateMeets g sp (atomSize wide) op.perm a.2.1
  | _ => false

/-- The next instruction of a group waits for writes that are still to be performed: they come before its accesses, or before it
in any case. -/
def State.lateHolds (s : State) (g : Group) (i : Instr) : Bool :=
  (s.late.any fun l => l.uid == g.uid) && (Instr.closes i || match s.captured g i with
    | some op => s.lateBefore g op
    | none => false)

/-- The writes of a captured store, each where it is to land: none when the store may not be performed later, since a page of
it is of kind S (R47) or a line is poisoned. -/
def State.lateWrites (s : State) (g : Group) (op : DOp) : Option (List LateStore) :=
  let one := fun (sp : Space) (size : Nat) (a : W64) (x : Nat) =>
    match s.check g.part g.ctx g.team sp a size .write false with
    | .ok (.hbm dev slot world) => match s.translate g.part g.ctx a .write with
      | .ok _ e =>
        if kindOf e = 1 then none
        else some [(⟨g.uid, g.core, some (dev, slot, world), 0, leBytes size x, s.tick, kindOf e == 2⟩ : LateStore)]
      | _ => none
    | .ok (.slice p) => some [⟨g.uid, g.core, none, p, leBytes size x, s.tick, false⟩]
    | .fail _ _ => some []
    | .poison _ => none
  if s.lines.any fun l => l.poisoned then none
  else match op with
    | .store sp size items => (items.mapM fun it => one sp size it.2.1 it.2.2.toNat).map List.flatten
    | .sstore a v => one .global 8 a v.toNat
    | _ => none

/-- A state in which the bytes of a write, and what is kept of its lines, are as they were before. -/
def State.unwritten (before s : State) (l : LateStore) : State :=
  match l.hbm with
  | some (dev, _, _) => (linesOf dev l.bytes.length).foldl (fun s a => s.setLine (before.line a))
      { s with hbm := s.hbm.writeN dev (before.hbm.readN dev l.bytes.length) }
  | none => { s with slices := s.slices.writeN l.slice (before.slices.readN l.slice l.bytes.length) }

/-- A state after a store, with its writes put off. -/
def State.putOff (before after : State) (ws : List LateStore) : State :=
  { ws.foldl (State.unwritten before) after with sliceErrs := before.sliceErrs, late := after.late ++ ws }

/-! ## Banks (R42, R43) -/

/-- The rows of the slices that a captured operation of a group needs (R40). -/
def State.rowsOf (s : State) (g : Group) (op : DOp) : List Nat :=
  let one := fun (sp : Space) (size : Nat) (need : Perm) (a : W64) =>
    match if sp == .global then Chk.fail .alignment 0 else s.check g.part g.ctx g.team sp a size need false with
    | .ok (.slice p) => [p / 64]
    | _ => []
  match op with
  | .load sp size addrs _ _ _ _ => addrs.flatMap fun a => one sp size .read a.2
  | .store sp size items => items.flatMap fun a => one sp size .write a.2.1
  | .atomic sp wide op _ _ _ items _ _ => items.flatMap fun a => one sp (atomSize wide) op.perm a.2.1
  | _ => []

end Sys2Proof.Machine
end

