-- ==== Sys2Proof/Machine/Save.lean ====
section
/-!
DEFINITION. Save areas (R32, Table 8; R31) and team images (R264, Table 4): what a spill writes, and what a restore reads
back, field by field. What the manual gives no place within a slot for (the causes of a trap record that `sel` does not name,
the run index of a withdrawn instruction, what names a pop) stays with the record of the halted work (log 31).
-/

namespace Sys2Proof.Machine

open Sys2Proof

/-! ## The group's save area -/

/-- Words of 8 bytes, least significant byte first. -/
def words8 (ws : List Nat) : List Byte := ws.flatMap (leBytes 8)

/-- Bytes padded with zeros to a multiple of 64 (R32). -/
def pad64 (bs : List Byte) : List Byte := bs ++ List.replicate ((64 - bs.length % 64) % 64) 0

/-- The code of a shape (R25). -/
def VReg.code : VReg → Nat
  | .u _ => 0
  | .a _ _ => 1
  | .g _ => 2

/-- The code of a width (R32, Table 8). -/
def Width.code : Width → Nat
  | .w16 => 0
  | .w32 => 1
  | .w64 => 2

/-- The conversation and role of a role register, as an object number of Table 8. -/
def roleObject (g : Group) (reg : Nat) : Nat := let v := g.gateRole.getD reg 0; roleConv v + roleNum v * 2 ^ 12

/-- A gate share instruction has popped its triples and joined its exchange. -/
def State.partSent (s : State) (uid idx : Nat) : Bool :=
  s.pkg.convs.any fun c => c.exchanges.any fun x => x.parts.any fun p =>
    p.uid == uid && p.idx == idx && !p.withdrawn && p.popped.isSome && decide (p.nwords ≤ p.crossed)

/-- The wait kind and object number of an instruction that waits (R32, Table 8). -/
def State.waitOf (s : State) (g : Group) (p : Pend) : Nat × Nat :=
  match p.op with
  | .cbpop b _ _ => (2, b % 32)
  | .crecv reg _ _ => (5, roleObject g reg)
  | .taccept reg _ _ _ => (6, roleObject g reg)
  | .launch _ _ => (7, 0)
  | .engine _ _ _ => (7, 0)
  | .csend reg _ _ _ => (8, roleObject g reg)
  | .tsend reg _ _ _ _ => (8, roleObject g reg)
  | .sys _ _ _ => (9, 0)
  | .gate _ _ _ _ => (if s.partSent g.uid p.idx then 10 else 4, roleObject g 0)
  | _ => (0, 0)

/-- The wait word of a group's save area (R32, Table 8): what the first of its instructions that has not returned waits for. -/
def State.waitWord (s : State) (g : Group) : Nat :=
  let (k, o) := match g.stat with
    | .atBar id => (1, id)
    | .atAbar n _ => (3, n)
    | _ => match g.pends.find? fun p => p.st == .waiting || p.st == .withdrawn with
      | some p => s.waitOf g p
      | none => (0, 0)
  k * 2 ^ 56 + o

/-- The operations that a replay would reissue now (R29). -/
def Group.replaySet (g : Group) : List Pend :=
  if g.armed then g.trap.replays.filter fun p => g.trap.rplq.getLsbD (p.idx % 32) else []

/-- The operations that were withdrawn at the halt (R261). -/
def Group.withdrawnSet (g : Group) : List Pend := g.pends.filter fun p => p.st == .withdrawn

/-- The threads that a replay of an index runs for: those of its entry, or all of an instruction that names none. -/
def TrapRec.replayMask (r : TrapRec) (i : Nat) : Option W64 :=
  match r.entries.find? fun f => f.idx == i with
  | some f => if f.tmask = 0 then none else some f.tmask
  | none => none

/-- Bytes of the captured operands of an instruction (R32, Table 8): a G image for each register, 8 for each scalar. -/
def operandBytes (w : Nat) (words : W32 × W32) : Nat :=
  match decode words.1 words.2 with
  | .error _ => 0
  | .ok (i, _) => (i.operands.map fun o => match o with
      | .ss _ | .s6 _ => 8
      | o => (operandReads 0 o).length * w * 4).sum

/-- The bytes of a captured operand. -/
def Captured.image : Captured → List Byte
  | .v xs => xs.flatMap fun x => leBytes 4 x.toNat
  | .s x => leBytes 8 x.toNat

/-- A replay or withdrawn entry (R32, Table 8): the words of its instruction, its threads, and its captured operands. -/
def Pend.image (p : Pend) (tmask : W64) : List Byte :=
  leBytes 4 p.words.1.toNat ++ leBytes 4 p.words.2.toNat ++ leBytes 8 tmask.toNat ++ List.replicate 48 0
    ++ p.caps.flatMap Captured.image

/-- The entry of a replay. -/
def Group.replayImage (g : Group) (p : Pend) : List Byte := p.image ((g.trap.replayMask (p.idx % 32)).getD 0)

/-- The regions of the replay and of the withdrawn entries (R32). -/
def Group.entryImages (g : Group) : List Byte :=
  pad64 (g.replaySet.flatMap g.replayImage) ++ pad64 (g.withdrawnSet.flatMap fun p => p.image p.mask)

/-- The stored word of a register is poisoned (R30). -/
def Group.poisoned (g : Group) (r word : Nat) : Bool := g.poison.any fun e => e.reg == r && e.word == word

/-- The image words of a register, each with whether it is poisoned: base and stride of an A register each for itself (R30). -/
def Group.regWords (g : Group) (r : Nat) : List (W32 × Bool) :=
  match g.vreg r with
  | .u v => [(v, g.poisoned r 0)]
  | .a b st => [(b, g.poisoned r 0), (st, g.poisoned r 1)]
  | .g xs => (List.range g.width.n).map fun t => (xs.getD t 0, g.poisoned r t)

/-- The image words of every register, in allocation order. -/
def Group.imageWords (g : Group) : List (W32 × Bool) := (List.range g.alloc).flatMap g.regWords

/-- The numbers of the image's lines that hold a poisoned word (R31). -/
def poisonLines (ws : List (W32 × Bool)) : List Nat :=
  (List.range ((ws.length + 15) / 16)).filter fun k => ((ws.drop (16 * k)).take 16).any (·.2)

/-- One entry of the poison region (R31, R32): the line's offset, the mask of its poisoned words, and its clean words. -/
def poisonEntry (ws : List (W32 × Bool)) (k : Nat) : List Byte :=
  let l := (ws.drop (16 * k)).take 16
  let mask := (l.mapIdx fun j w => b2n w.2 * 2 ^ j).sum
  words8 [64 * k, mask] ++ List.replicate 48 0 ++
    (l.flatMap fun w => leBytes 4 (if w.2 then 0 else w.1.toNat)) ++ List.replicate (64 - 4 * l.length) 0

/-- The shape map (R25, R32). -/
def Group.shapeMap (g : Group) : List Byte :=
  pad64 ((List.range (g.alloc / 4)).map fun j =>
    BitVec.ofNat 8 (((List.range 4).map fun i => (g.vreg (4 * j + i)).code * 4 ^ i).sum))

/-- The header, scalar and trap regions (R32, Table 8). -/
def State.saveHead (s : State) (g : Group) : List Byte :=
  let steps := match g.latch with | some l => l.length / 8 | none => 0
  let flags := b2n g.latch.isSome + steps * 2 + b2n g.armed * 2 ^ 8 + g.replaySet.length * 2 ^ 9
    + g.withdrawnSet.length * 2 ^ 14 + (poisonLines g.imageWords).length * 2 ^ 19
  words8 ([g.pc.toNat, g.exm.toNat, g.lvm.toNat, g.sm.toNat, g.fpm.toNat, g.fpf.toNat, g.mq]
    ++ (List.range 4).map (fun i => (g.crole.getD i 0).toNat)
    ++ [g.wb, g.gen.toNat * 2 ^ 32 + worldId g.part g.ctx * 2 ^ 20 + g.width.code * 2 ^ 10 + g.alloc / 16, s.waitWord g,
      flags, 0]
    ++ (List.range 64).map (fun i => (g.sregs.getD i 0).toNat)
    ++ [g.trap.tcause.toNat, g.trap.tinfo.toNat, g.trap.xpc.toNat, g.trap.taddr.toNat, g.trap.tmask.toNat,
      g.trap.rplq.toNat, 0, 0])

/-- The latch image (R32): step by step, register by register, thread 0 first. -/
def latchImage (l : List (List W32)) : List Byte := pad64 (l.flatMap fun r => r.flatMap fun w => leBytes 4 w.toNat)

/-- Offset of the vector images in a save area. -/
def Group.imageAt (g : Group) : Nat := 0x2C0 + g.shapeMap.length

/-- Offset of the latch image. -/
def Group.latchAt (g : Group) : Nat := g.imageAt + (g.imageWords.length * 4 + 63) / 64 * 64

/-- A group's save area (R32). -/
def State.saveArea (s : State) (g : Group) : List Byte :=
  let ws := g.imageWords
  s.saveHead g ++ g.shapeMap ++ pad64 (ws.flatMap fun w => leBytes 4 w.1.toNat)
    ++ (match g.latch with | some l => latchImage l | none => [])
    ++ g.entryImages ++ (poisonLines ws).flatMap (poisonEntry ws)

/-! ## Writing and reading slots -/

/-- The address of slot `k` of a launch's pool (R264). -/
def Record.slotAddr (r : Record) (k : Nat) : Nat := (r.save.toNat + k * r.slot * 64) % 2 ^ 64

/-- The device address of byte `off` of a range. -/
def placeAt (pls : List (Place × Nat)) (off : Nat) : Option Nat :=
  match pls with
  | [] => none
  | (pl, n) :: rest => if off < n then (match pl with | .hbm a _ _ => some (a + off) | .slice _ => none) else placeAt rest (off - n)

/-- An image written to a slot (R263): none when it does not fit or an access fails. -/
def State.writeSlot (s : State) (l : Launch) (part k : Nat) (bs : List Byte) : Option (State × List (Place × Nat)) :=
  if l.record.slot * 64 < bs.length then none
  else match s.globalRange part l.ctx .write (l.record.slotAddr k) bs.length (bs.length / 0x10000 + 2) with
    | .ok pls => some (s.writeRange pls bs, pls)
    | _ => none

/-- Lines of a range poisoned (R31). -/
def State.poisonSlot (s : State) (pls : List (Place × Nat)) : List Nat → State
  | [] => s
  | off :: rest =>
    let s := match placeAt pls off with
      | some a => s.setLine { s.line (lineOf a) with poisoned := true }
      | none => s
    State.poisonSlot s pls rest

/-- A group cleared by its spill (R263): its rows are cleared. Of one that is ready it does not matter how its last run ended; one
that is parked at a barrier may become ready while it is spilled, and keeps that its run ended there. What a yielded run still waits for is of an older generation from
now on, and is dropped when it returns (R19). -/
def Group.cleared (g : Group) (k : Nat) : Group :=
  { g with
    vregs := List.replicate g.alloc (.u 0), poison := [], spilled := some k
    runEnd := if g.stat = .ready then .fall else g.runEnd
    yielded := g.yielded.map fun y => { y with
      pends := y.pends.map fun p => if p.st == .waiting then { p with st := .stale } else p } }

/-- A group spilled into slot `k` (R263), if the slot can be written: its generation is bumped. -/
def State.spillGroup (s : State) (l : Launch) (g : Group) (k : Nat) : Option State :=
  let s := s.performLate g.uid
  let g := { g with gen := g.gen + 1 }
  match s.writeSlot l g.part k (s.saveArea g) with
  | none => none
  | some (s, pls) =>
    let s := s.poisonSlot pls ((poisonLines g.imageWords).map fun n => g.imageAt + 64 * n)
    some (s.setGroup (g.cleared k))

/-- A word of 8 bytes of an image. -/
def at8 (bs : List Byte) (off : Nat) : W64 := BitVec.ofNat 64 (leNat ((bs.drop off).take 8))

/-- The words of an image, with the poisoned ones, after the poison region is taken into account (R31). -/
def patchLine (ws : List (W32 × Bool)) (entry : List Byte) : List (W32 × Bool) :=
  let k := (at8 entry 0).toNat / 64
  let mask := at8 entry 8
  ws.mapIdx fun i w =>
    if i / 16 = k then (BitVec.ofNat 32 (leNat ((entry.drop (64 + 4 * (i % 16))).take 4)), mask.getLsbD (i % 16)) else w

/-- Registers and poisoned elements from shape codes and image words: register `r` comes next. -/
def loadRegs (n : Nat) : (codes : List Nat) → (r : Nat) → List (W32 × Bool) → List VReg × List Poison
  | [], _, _ => ([], [])
  | c :: cs, r, ws =>
    let used := if c = 0 then 1 else if c = 1 then 2 else n
    let mine := ws.take used
    let (vs, ps) := loadRegs n cs (r + 1) (ws.drop used)
    let w := fun i => (mine.getD i (0, false)).1
    let bad := fun i => (mine.getD i (0, false)).2
    let v : VReg := if c = 0 then .u (w 0) else if c = 1 then .a (w 0) (w 1) else .g ((List.range n).map w)
    let p := (List.range used).filter bad
    (v :: vs, p.map (fun t => (⟨r, t, 0⟩ : Poison)) ++ ps)

/-- Image words from the bytes of a slot. -/
def wordsFrom (bs : List Byte) (off : Nat) : (n : Nat) → List (W32 × Bool)
  | 0 => []
  | n + 1 => (BitVec.ofNat 32 (leNat ((bs.drop off).take 4)), false) :: wordsFrom bs (off + 4) n

/-- The shape codes of a save area. -/
def Group.codesFrom (g : Group) (bs : List Byte) : List Nat :=
  (List.range g.alloc).map fun r => leNat ((bs.drop (0x2C0 + r / 4)).take 1) / 4 ^ (r % 4) % 4

/-- Where the regions of a save area begin (R32), as its header and shape map say: the register codes, the image and its
words, the latch image with its steps, the entries with their counts, and the entries of the poison region. -/
structure SaveLayout where
  codes : List Nat
  imageAt : Nat
  count : Nat
  latchAt : Nat
  steps : Nat
  entriesAt : Nat
  replays : Nat
  withdrawn : Nat
  npoison : Nat
deriving DecidableEq, Repr

/-- A number of bytes padded to a multiple of 64. -/
def up64 (n : Nat) : Nat := (n + 63) / 64 * 64

/-- A group with the world, the width and the allocation that its save area names (R32, R264). DESIGN CHOICE (log 31): the code 3
names no width, and leaves that of the group. -/
def Group.header (g : Group) (bs : List Byte) : Group :=
  let w := (at8 bs 0x60).toNat
  { g with
    part := bits w 31 20 / 128, ctx := bits w 31 20 % 128, alloc := 16 * bits w 9 0
    width := match bits w 11 10 with | 0 => .w16 | 1 => .w32 | 2 => .w64 | _ => g.width }

/-- The layout of a group's save area, from its header and shape map. -/
def Group.layout (g : Group) (bs : List Byte) : SaveLayout :=
  let n := g.width.n
  let codes := g.codesFrom bs
  let imageAt := 0x2C0 + up64 (g.alloc / 4)
  let count := (codes.map fun c => if c = 0 then 1 else if c = 1 then 2 else n).sum
  let flags := at8 bs 0x70
  let latchAt := imageAt + up64 (count * 4)
  let steps := if flags.getLsbD 0 then bits flags.toNat 4 1 else 0
  { codes := codes, imageAt := imageAt, count := count, latchAt := latchAt, steps := steps
    entriesAt := latchAt + up64 (steps * 8 * n * 4)
    replays := bits flags.toNat 13 9, withdrawn := bits flags.toNat 18 14, npoison := bits flags.toNat 28 19 }

/-- The words of the entry at an offset. -/
def entryWords (bs : List Byte) (off : Nat) : W32 × W32 :=
  (BitVec.ofNat 32 (leNat ((bs.drop off).take 4)), BitVec.ofNat 32 (leNat ((bs.drop (off + 4)).take 4)))

/-- The bytes of `n` entries from an offset on, each to the end of its operands. -/
def entriesFrom (w : Nat) (bs : List Byte) : (n off : Nat) → List (List Byte)
  | 0, _ => []
  | n + 1, off =>
    let k := 64 + operandBytes w (entryWords bs off)
    (bs.drop off).take k :: entriesFrom w bs n (off + k)

/-- Bytes of some entries, padded. -/
def entriesLen (es : List (List Byte)) : Nat := up64 (es.map List.length).sum

/-- The entries of a save area, and where its poison region begins. -/
structure SaveEntries where
  replays : List (List Byte)
  withdrawn : List (List Byte)
  poisonAt : Nat
deriving DecidableEq, Repr

/-- The entries of a save area that has been read. -/
def SaveLayout.entries (y : SaveLayout) (w : Nat) (bs : List Byte) : SaveEntries :=
  let rs := entriesFrom w bs y.replays y.entriesAt
  let at_ := y.entriesAt + entriesLen rs
  let ws := entriesFrom w bs y.withdrawn at_
  ⟨rs, ws, at_ + entriesLen ws⟩

/-- The captured operands of an entry, and the scalars and registers that they stand for. -/
def readOperands (w wb : Nat) : List Operand → List Byte → List Captured × List (Fld × W64) × List (Nat × List W32)
  | [], _ => ([], [], [])
  | o :: os, bs => match o with
    | .ss f | .s6 f =>
      let (cs, ss, vs) := readOperands w wb os (bs.drop 8)
      (.s (at8 bs 0) :: cs, (f, at8 bs 0) :: ss, vs)
    | o =>
      let regs := operandReads wb o
      let at_ := fun k => (wordsFrom bs (4 * w * k) w).map (·.1)
      let (cs, ss, vs) := readOperands w wb os (bs.drop (4 * w * regs.length))
      ((List.range regs.length).map (fun k => Captured.v (at_ k)) ++ cs, ss, regs.mapIdx (fun k r => (r, at_ k)) ++ vs)

/-- An entry that was rewritten read back as it stands: its instruction captures the operands that the entry holds. The
issue it stands for is that of `p`. None when its words are no instruction that an entry can hold. -/
def State.rebuild (s : State) (g : Group) (p : Pend) (bs : List Byte) : Option Pend :=
  let words := entryWords bs 0
  match decode words.1 words.2 with
  | .error _ => none
  | .ok (i, _) =>
    let (cs, ss, vs) := readOperands g.width.n g.wb i.operands (bs.drop 64)
    let h := { g with
      exm := p.mask, lvm := p.mask, latch := none, vregs := vs.foldl (fun l v => l.set v.1 (.g v.2)) g.vregs }
    let r := fun (f : Fld) => ((ss.find? fun x => x.1 == f).map (·.2)).getD 0
    (Instr.capture i s h r).map fun op =>
      let op := match op, p.op with
        | .engine o _ _, .engine _ fpm xpc => DOp.engine o fpm xpc
        | o, _ => o
      { p with op := op, words := words, caps := cs }

/-- An issue of which nothing is known, for an entry beyond those that were written. -/
def Pend.blank (idx : Nat) (mask : W64) (tick : Nat) : Pend := ⟨idx, .bar 0, (0, 0), .withdrawn, tick, mask, []⟩

/-- The replay entries read back (R32): the `k`th is that of the `k`th index in `rplq`; an entry that stands as it was written
is the instruction that it was written for. -/
def State.loadReplays (s : State) (g : Group) (rplq : W64) (es : List (List Byte)) : List (Pend × W64) :=
  let idxs := (List.range 32).filter fun i => rplq.getLsbD i
  (es.mapIdx fun k bs =>
    let tm := at8 bs 8
    let idx := idxs.getD k k
    match g.replaySet[k]? with
    | some p => if g.replayImage p = bs then some ({ p with idx := idx }, tm) else (s.rebuild g { p with idx := idx } bs).map (·, tm)
    | none => (s.rebuild g (Pend.blank idx tm s.tick) bs).map (·, tm)).filterMap id

/-- The withdrawn entries read back (R32, R261). -/
def State.loadWithdrawn (s : State) (g : Group) (es : List (List Byte)) : List Pend :=
  (es.mapIdx fun k bs => match g.withdrawnSet[k]? with
    | some p => if p.image p.mask = bs then some p else s.rebuild g { p with mask := at8 bs 8 } bs
    | none => s.rebuild g (Pend.blank (k + 32 * g.tag) (at8 bs 8) s.tick) bs).filterMap id

/-- Issued instructions in ascending run index. -/
def insertPend (p : Pend) : List Pend → List Pend
  | [] => [p]
  | q :: qs => if p.idx ≤ q.idx then p :: q :: qs else q :: insertPend p qs

/-- Where a group stands as its save area says (R32, Table 8; R264), `again` saying that it has withdrawn entries, which come
first: at a barrier, unless the phase for which it was parked there when it was spilled has completed since (R84); at an asynchronous barrier,
whose parity has no place in the area; at the end of its run, for what is issued; or ready. -/
def Group.loadWait (g : Group) (word tick : Nat) (again : Bool) : GStat × RunEnd :=
  let id := bits word 3 0
  let n := bits word 4 0
  let parity := match g.stat with | .atAbar _ p => p | _ => Config.freeBool 10 tick g.uid
  match bits word 63 56 with
  | 1 =>
    if g.stat = .ready && g.runEnd = .bar id then (if again then (.endRun, .fall) else (.ready, g.runEnd))
    else if again then (.endRun, .bar id) else (.atBar id, g.runEnd)
  | 3 => if again then (.endRun, .abarWait n parity) else (.atAbar n parity, g.runEnd)
  | k =>
    if g.stat = .endRun then (.endRun, g.runEnd)
    else if k = 0 && !again then (.ready, g.runEnd)
    else (.endRun, .fall)

/-- The wait word of a save area names the wait of an instruction: an exchange may have gone from kind 4 to kind 10 since. -/
def State.namesWait (s : State) (g : Group) (word : Nat) (p : Pend) : Bool :=
  let (k, o) := s.waitOf g p
  let one := fun (k : Nat) => if k = 10 then 4 else k
  one k == one (bits word 63 56) && o == bits word 55 0

/-- The issued instructions of a spilled group that are no withdrawn entries and stand with it after its restore: those that have
returned, and, if the wait word names the wait of one, those that wait. DESIGN CHOICE (log 31): a group whose wait word was
rewritten waits for no other one any more. -/
def State.keptPends (s : State) (g : Group) (word : Nat) : List Pend :=
  let open_ := fun (p : Pend) => p.st == .waiting || p.st == .withdrawn
  let named := g.pends.any fun p => open_ p && s.namesWait g word p
  g.pends.filter fun p => p.st != .withdrawn && (named || !open_ p)

/-- The trap record of a save area (R32): the failing indices of `tinfo`, of which the one in `sel` has its cause, address,
threads and detail there; a replay has its threads in its entry. -/
def TrapRec.load (r : TrapRec) (bs : List Byte) (replays : List (Pend × W64)) : TrapRec :=
  let tinfo := (at8 bs 0x288).toNat
  let sel := bits tinfo 39 35
  let one := fun i =>
    let e := (r.entries.find? fun f => f.idx == i).getD ⟨i, 0, 0, 0, 0⟩
    let e := match replays.find? fun p => p.1.idx % 32 == i with | some p => { e with tmask := p.2 } | none => e
    if i = sel then ⟨i, at8 bs 0x280, at8 bs 0x298, at8 bs 0x2A0, BitVec.ofNat 32 tinfo⟩ else e
  { r with
    entries := ((List.range 24).filter fun i => bitAt tinfo (40 + i)).map one, sel := sel, xpc := at8 bs 0x290
    rplq := at8 bs 0x2A8, replays := replays.map (·.1) }

/-- A role register's value with its reserved bits 0 (R3, R197). -/
def roleClean (v : W64) : W64 := v &&& 0x800003FFFFF00003

/-- A group restored from its save area (R264, R265, R32), every field of it. A role register that was rewritten names its role at
the gate too. -/
def State.loadGroup (s : State) (g : Group) (bs : List Byte) : Group :=
  let word := (at8 bs 0x68).toNat
  let kept := s.keptPends g word
  let g := g.header bs
  let n := g.width.n
  let y := g.layout bs
  let es := y.entries n bs
  let ws := (List.range y.npoison).foldl (fun ws k => patchLine ws ((bs.drop (es.poisonAt + 128 * k)).take 128))
    (wordsFrom bs y.imageAt y.count)
  let (vs, poison) := loadRegs n y.codes 0 ws
  let m := g.width.full
  let flags := at8 bs 0x70
  let wb := (at8 bs 0x58).toNat
  let fpm := fixFpm (at8 bs 0x20)
  let crole := (List.range 4).map fun i => roleClean (at8 bs (0x38 + 8 * i))
  let h := { g with vregs := vs, wb := wb, fpm := fpm }
  let replays := s.loadReplays h (at8 bs 0x2A8) es.replays
  let again := s.loadWithdrawn h es.withdrawn
  let (stat, runEnd) := g.loadWait word s.tick !again.isEmpty
  { g with
    pc := at8 bs 0, exm := at8 bs 8 &&& m, lvm := at8 bs 0x10 &&& m, sm := at8 bs 0x18 &&& m
    fpm := fpm, fpf := at8 bs 0x28 &&& 0x3F, mq := (at8 bs 0x30).toNat % 8
    crole := crole
    gateRole := (List.range 4).map fun i =>
      if crole.getD i 0 = g.crole.getD i 0 then g.gateRole.getD i 0 else crole.getD i 0
    wb := wb, gen := BitVec.ofNat 32 ((at8 bs 0x60).toNat / 2 ^ 32)
    sregs := (List.range 64).map fun i => at8 bs (0x80 + 8 * i)
    armed := flags.getLsbD 8
    trap := g.trap.load bs replays
    stat := stat, runEnd := runEnd
    pends := if stat = .endRun then again.foldl (fun l p => insertPend p l) kept else []
    latch := if flags.getLsbD 0 then
        some ((List.range (y.steps * 8)).map fun r => (wordsFrom bs (y.latchAt + r * n * 4) n).map (·.1))
      else none
    vregs := vs, poison := poison, spilled := none }

/-! ## The team image (R264, Table 4) -/

/-- The words of an asynchronous barrier. -/
def Abar.image (b : Abar) : List Byte :=
  words8 [b.expected + b.pending * 2 ^ 16 + b2n b.phase * 2 ^ 32 + b2n b.failed * 2 ^ 33, b.detail.toNat, b.taddr.toNat, 0]

/-- The slot is filled or failed, and not popped. -/
def SlotSt.full : SlotSt → Bool
  | .filled | .failed _ _ => true
  | _ => false

/-- The 64 bytes of a circular buffer. -/
def CBuf.image (b : CBuf) : List Byte :=
  let n := b.slots.length
  let free := (b.slots.filter (· == .free)).length
  let full := (b.slots.filter SlotSt.full).length
  let failed := (b.slots.mapIdx fun i x => match x with | .failed _ _ => 2 ^ i | _ => 0).sum
  words8 [b.base % 2 ^ 32 + b.size % 2 ^ 16 * 2 ^ 32 + (n - 1) * 2 ^ 48 + 2 ^ 63,
      b.nextAssign + b.nextPop * 2 ^ 8 + b.oldest * 2 ^ 16 + free * 2 ^ 32 + full * 2 ^ 48,
      (match b.bound with | (k, _, _) :: _ => k + 2 ^ 63 | [] => 0), 0]
    ++ leBytes 32 failed

/-- The image of a team on its core, or on the second core of a pair, but for its slice: the stall time that a barrier has
counted since it began, or since a restore gave it one, is free (log 8). A pair has an image for each core, with the buffers
and the slice of that core; both hold its barriers and moduli (log 31). -/
def State.teamHead (s : State) (t : Team) (odd : Bool) : List Byte :=
  let first := if odd then 32 else 0
  words8 ((List.range 16).map fun k =>
      let b := t.bars.getD k ⟨0, 0⟩
      b.arrivals % 64
        + (if b.arrivals = 0 then 0 else (b.stall + (Config.freeW32 9 s.tick k).toNat) % 2 ^ 32 * 2 ^ 32))
    ++ (List.range 32).flatMap (fun k => (t.abar k).image)
    ++ (List.range 8).flatMap (fun k => leBytes 4 (t.mod.getD k 0).toNat)
    ++ (List.range 32).flatMap (fun k => match t.buf (first + k) with | some b => b.image | none => List.replicate 64 0)
    ++ List.replicate 0x360 0

/-- The slice allocation of a team on a core, byte for byte. -/
def State.teamSlice (s : State) (t : Team) (odd : Bool) : List Byte :=
  s.slices.readN (sliceSize * (t.core + b2n odd) + t.sliceOff) t.sliceLen

/-- The image of a team for one of its cores (R264, Table 4). -/
def State.teamImage (s : State) (t : Team) (odd : Bool) : List Byte := s.teamHead t odd ++ s.teamSlice t odd

/-- A slice range of a team cleared on its cores. -/
def State.clearSlice (s : State) (t : Team) : State :=
  let s := s.clearSlices (sliceSize * t.core + t.sliceOff) t.sliceLen
  if t.pair then s.clearSlices (sliceSize * (t.core + 1) + t.sliceOff) t.sliceLen else s

/-- A team image spilled into slot `k`, that of the second core of a pair into slot `k2` (R263), if they can be written. -/
def State.spillTeam (s : State) (l : Launch) (t : Team) (k k2 : Nat) : Option State :=
  let s := s.performAll
  match s.writeSlot l t.part k (s.teamImage t false) with
  | none => none
  | some (s1, _) =>
    if t.pair then
      match s1.writeSlot l t.part k2 (s.teamImage t true) with
      | none => none
      | some (s2, _) => some ((s2.clearSlice t).setTeam { t with spilled := some k, spilledOdd := some k2 })
    else some ((s1.clearSlice t).setTeam { t with spilled := some k })

/-- An asynchronous barrier with the fields of its image: with no arrival counted, its next one is the first of a phase. -/
def Abar.load (b : Abar) (bs : List Byte) : Abar :=
  let w := (at8 bs 0).toNat
  { b with
    expected := bits w 15 0, pending := bits w 31 16, phase := bitAt w 32, failed := bitAt w 33
    detail := (at8 bs 8).setWidth 32, taddr := at8 bs 16, fresh := bits w 15 0 == bits w 31 16 }

/-- The slots of a buffer that its image's positions, counts and flags describe: popped ones from the oldest to the next to
pop, then the filled ones, then free ones. The detail of a failure has no place in the image, and is free. -/
def slotsFrom (n pop oldest free full failed tick : Nat) : List SlotSt :=
  let held := if pop = oldest && free + full = 0 then n else (pop + n - oldest) % n
  (List.range n).map fun i =>
    let back := (i + n - oldest) % n
    if back < held then .popped
    else if back < held + full then
      (if bitAt failed i then .failed (Config.freeW32 13 tick i) (Config.freeW32 14 tick i ++ Config.freeW32 15 tick i) else .filled)
    else .free

/-- A circular buffer read from its image (R264, Table 4); the pop that waits is the one of `old`. -/
def loadBuf (old : Option CBuf) (bs : List Byte) (tick : Nat) : Option CBuf :=
  let w := (at8 bs 0).toNat
  let v := (at8 bs 8).toNat
  let p := (at8 bs 16).toNat
  let n := bits w 55 48 + 1
  let pop := bits v 15 8 % n
  let oldest := bits v 23 16 % n
  let waits := match old with | some b => b.bound | none => []
  if !bitAt w 63 then none
  else some
    { base := bits w 31 0, size := bits w 47 32
      slots := slotsFrom n pop oldest (bits v 40 32) (bits v 56 48) (leNat ((bs.drop 32).take 32)) tick
      nextAssign := bits v 7 0 % n, nextPop := pop, oldest := oldest, ahead := []
      bound := if bitAt p 63 then (match waits with | (_, u, x) :: rest => (bits p 7 0 % n, u, x) :: rest | [] => []) else [] }

/-- A buffer restored (R265): as it was when its image stands as it was written, else as the image says. -/
def restoreBuf (old : Option CBuf) (bs : List Byte) (tick : Nat) : Option CBuf :=
  let written := match old with | some b => b.image | none => List.replicate 64 0
  if bs.take 64 = written then old else loadBuf old bs tick

/-- A team restored from its image, and from that of its second core (R265): its slice is written by the caller. -/
def Team.load (t : Team) (bs bs2 : List Byte) (tick : Nat) : Team :=
  let buf := fun k => if k < 32 then restoreBuf (t.buf k) (bs.drop (0x4A0 + 64 * k)) tick
    else restoreBuf (t.buf k) (bs2.drop (0x4A0 + 64 * (k - 32))) tick
  { t with
    bars := (List.range 16).map fun k => let w := (at8 bs (8 * k)).toNat; ⟨bits w 5 0, bits w 63 32⟩
    abars := (List.range 32).map fun k => (t.abar k).load (bs.drop (0x80 + 32 * k))
    mod := (List.range 8).map fun k => BitVec.ofNat 32 (leNat ((bs.drop (0x480 + 4 * k)).take 4))
    bufs := (List.range 64).map fun k => if k < 32 || t.pair then buf k else t.buf k
    spilled := none, spilledOdd := none }

/-- The slice of a team on a core written back from its image. -/
def State.loadSlice (s : State) (t : Team) (odd : Bool) (bs : List Byte) : State :=
  s.writeAt (.slice (sliceSize * (t.core + b2n odd) + t.sliceOff)) ((bs.drop 0x1000).take t.sliceLen)

/-- How the reading of a slot ends. -/
inductive SlotRead where
  | bytes (bs : List Byte)
  | waits
  | poison (line : Nat)
deriving DecidableEq, Repr

/-- The first `n` bytes of slot `k` read (R265); lines that the poison region accounts for are read whatever their
poison. -/
def State.readSlot (s : State) (l : Launch) (part k n : Nat) (excused : List Nat) : SlotRead :=
  match s.globalRange part l.ctx .read (l.record.slotAddr k) n (n / 0x10000 + 2) with
  | .ok pls =>
    let lines := pls.flatMap fun p => match p.1 with
      | .hbm a slot _ => (linesOf a p.2).map fun x => (x, slot)
      | .slice _ => []
    let ok := excused.filterMap fun off => (placeAt pls off).map lineOf
    match lines.find? fun x => !s.lineReads x.1 x.2 && !ok.contains x.1 with
    | some x => .poison x.1
    | none => .bytes (s.readRange pls)
  | .poison x => .poison x
  | .fail _ _ _ => .waits

/-- The lines of the vector image of a spilled group; all of them are excused while the header is read. -/
def imageLines (at_ n : Nat) : List Nat := (List.range ((n + 63) / 64)).map fun k => at_ + 64 * k

/-- Where `n` entries of a slot end, each read for its words (R32). -/
def State.entriesEnd (s : State) (l : Launch) (part k w : Nat) (excused : List Nat) : (n off : Nat) → Except SlotRead Nat
  | 0, off => .ok off
  | n + 1, off => match s.readSlot l part k (off + 64) excused with
    | .bytes bs => State.entriesEnd s l part k w excused n (off + 64 + operandBytes w (entryWords bs off))
    | r => .error r

/-- A group's save area read (R265): the header, the shape map, then the entries, then everything with the poisoned image
lines that its poison region names. -/
def State.readArea (s : State) (l : Launch) (g : Group) (k : Nat) : SlotRead :=
  match s.readSlot l g.part k 0x80 [] with
  | .bytes header =>
    let h := g.header header
    let w := h.width.n
    match s.readSlot l g.part k (0x2C0 + up64 (h.alloc / 4)) [] with
    | .bytes head =>
      let y := h.layout head
      let image := imageLines y.imageAt (4 * y.count)
      match s.entriesEnd l g.part k w image y.replays y.entriesAt with
      | .error r => r
      | .ok a => match s.entriesEnd l g.part k w image y.withdrawn (up64 a) with
        | .error r => r
        | .ok b =>
          let n := up64 b + 128 * y.npoison
          match s.readSlot l g.part k n image with
          | .bytes bs =>
            let named := (List.range y.npoison).map fun i => y.imageAt + (at8 bs (up64 b + 128 * i)).toNat
            s.readSlot l g.part k n named
          | r => r
    | r => r
  | r => r

end Sys2Proof.Machine
end

