-- ==== Sys2Proof/Machine/Run.lean ====
section
/-!
DEFINITION. Runs of groups: returns (R19), commits (R16, R17), replays (R29), the lane's choice (R258, R259), stalls
of barriers (R86), answers to system calls (R87), and halting and resuming (R18, R260, R261). DEDUCED: corners of
commits, halts and replays (log 12, log 17).
-/

namespace Sys2Proof.Machine

open Sys2Proof

/-! ## Commit -/

/-- An issued instruction has returned, or its return is to be dropped (R19). -/
def Pend.isDone (p : Pend) : Bool := match p.st with | .done _ | .committed _ | .stale => true | _ => false

/-- An instruction whose result is committed. -/
def Pend.commit (p : Pend) : Pend := { p with st := match p.st with | .done r => .committed r | st => st }

/-- The failure of a returned instruction. -/
def Pend.failure (p : Pend) : Option Failure := match p.st with | .done r | .committed r => r.fail | _ => none

/-- A result without what later instructions of its run have committed already, in `n` threads: of two writes of one register
that of the higher run index stands (R16, R261). -/
def Result.without (r : Result) (n : Nat) (later : List Result) : Result :=
  if later.isEmpty then r
  else
    let es := later.flatMap (·.elems)
    let us := later.flatMap (·.unis)
    let hit := fun (reg t : Nat) => (es.any fun e => e.1 == reg && e.2.1 == t) || us.any fun u => u.1 == reg
    let whole := fun (u : Nat × W32) => (List.range n).all fun t => !hit u.1 t
    { r with
      elems := (r.elems.filter fun e => !hit e.1 e.2.1) ++ (r.unis.filter fun u => !whole u).flatMap fun u =>
        ((List.range n).filter fun t => !hit u.1 t).map fun t => (u.1, t, u.2)
      unis := r.unis.filter whole
      scalars := r.scalars.filter fun x => !(later.flatMap (·.scalars)).any fun y => y.1 == x.1
      roles := r.roles.filter fun x => !(later.flatMap (·.roles)).any fun y => y.1 == x.1 }

/-- The results that instructions behind a run index have committed. -/
def committedAfter (ps : List Pend) (idx : Nat) : List Result :=
  ps.filterMap fun p => match p.st with | .committed r => if idx < p.idx then some r else none | _ => none

/-- The results of returned instructions committed, in ascending run index (R16). -/
def Group.commit (g : Group) (ps : List Pend) : Group :=
  ps.foldl (fun g p => match p.st with
    | .done r => g.apply (r.without g.width.n (committedAfter ps p.idx))
    | _ => g) g

/-- A group whose run's returned instructions are committed, with their failures added to those of the run. -/
def Group.commitOwn (g : Group) : Group :=
  let h := g.commit g.pends
  { h with pends := g.pends.map Pend.commit, fails := addFailures (g.pends.filterMap Pend.failure) g.fails }

/-- A group stands in line for its lane: it is ready, and neither halted nor spilled. -/
def Group.waitsForLane (g : Group) (core lane : Nat) : Bool :=
  g.core == core && g.lane == lane && g.stat == .ready && g.halt == .no && g.spilled.isNone

/-- The yielded run has returned whole (R17). -/
def Group.yieldedDue (g : Group) : Bool :=
  match g.yielded with
  | some y => y.pends.all Pend.isDone
  | none => false

/-- No thread of the group lives. -/
def Group.dead (g : Group) : Bool := g.lvm &&& g.width.full == 0

/-- The end of a run that takes effect only once no yielded run is outstanding (R17, R81). -/
def Group.needsAll (g : Group) : Bool :=
  g.dead || g.waited || match g.runEnd with
    | .exit | .bar _ | .abarWait _ _ => true
    | _ => false

/-- The launch of a group. -/
def State.launchOf (s : State) (part lid : Nat) : Option Launch := (s.part? part).bind fun p => p.launch? lid

/-- The launch of a group is being ended. -/
def State.isEnding (s : State) (g : Group) : Bool :=
  match s.launchOf g.part g.lid with
  | some l => l.ending.isSome
  | none => false

/-! ## Replays (R29) -/

/-- A captured operation for some of its threads. -/
def DOp.restrict (m : W64) : DOp → DOp
  | .load sp size addrs dst n ext spread => .load sp size (addrs.filter fun a => m.getLsbD a.1) dst n ext spread
  | .store sp size items => .store sp size (items.filter fun a => m.getLsbD a.1)
  | .atomic sp wide op ord scope ret items dst spread =>
    .atomic sp wide op ord scope ret (items.filter fun a => m.getLsbD a.1) dst spread
  | .remote op items dst n ret => .remote op (items.filter fun a => m.getLsbD a.1) dst n ret
  | .gate op k items dst => .gate op k (items.filter fun a => m.getLsbD a.1) dst
  | op => op

/-- An issued instruction of a group given another standing. -/
def Group.setPend (g : Group) (ticket : Nat) (st : PendSt) : Group :=
  { g with pends := g.pends.map fun p => if p.idx == ticket then { p with st := st } else p }

/-- An instruction issued again with its captured operands, for a replay or after it was withdrawn. -/
def State.reissue (s : State) (uid : Nat) (p : Pend) : State :=
  match p.op with
  | .load _ _ _ _ _ _ _ | .sload _ _ => s.access uid p.idx false true p.op
  | .store _ _ _ | .sstore _ _ => s.access uid p.idx false false p.op
  | .atomic _ _ _ _ _ ret _ _ _ => s.access uid p.idx false ret p.op
  | .remote op items dst n ret => s.remoteIssue uid p.idx p.since op items dst n ret
  | .launch addr q => s.launchIssue uid p.idx q addr false
  | .bar _ => s.finish uid p.idx Result.empty
  | .sys _ _ _ | .cbpop _ _ _ | .engine _ _ _ => s
  | _ => s.gateArrive uid p.idx p.op

/-- A replay's instruction as it is issued again at a step, under a tag (R29, R83). -/
def TrapRec.replayOf (r : TrapRec) (tag tick : Nat) (p : Pend) : Pend :=
  { p with
    idx := p.idx % 32 + 32 * tag, st := .waiting, since := tick
    op := match r.replayMask (p.idx % 32) with | some m => p.op.restrict m | none => p.op }

/-- The cycles of a replay (R29): one per thread of a vector instruction, at least one. -/
def TrapRec.replayCost (r : TrapRec) (w : Nat) (p : Pend) : Nat :=
  match r.replayMask (p.idx % 32) with
  | some m => max 1 (countMask m w)
  | none => 1

/-- What is kept of remote instructions that are replayed goes on under the step of the replay (R60, R83). -/
def State.moveSent (s : State) (uid : Nat) (ps : List Pend) : State :=
  { s with fabric := { s.fabric with sent := s.fabric.sent.map fun x =>
      if (ps.any fun p => x.of uid p.since p.idx) then { x with since := s.tick } else x } }

/-- The barrier that a replay arrives at. -/
def replayBar (ps : List Pend) : Option Nat := ps.findSome? fun p => match p.op with | .bar id => some id | _ => none

/-- A fence of a group whose earlier set is not complete holds back an instruction that is replayed, as though it were issued now
(R54, R83). -/
def State.replayHeld (s : State) (g : Group) : Bool :=
  g.replaySet.any fun p => (s.openFences g).any (s.laterOf g p.op)

/-- THE RETURN FROM A TRAP (R29): the replays form one run, the trap state is disarmed, and the group goes on at the resume
address. With nothing to replay it goes on at once; with no trap armed, after the `rtrap`. The group's earlier writes are
performed first (R46); a replay that a fence holds back waits at the end of the run. -/
def State.startReplay (s : State) (g : Group) : State :=
  let s := s.performLate g.uid
  let ps := g.replaySet
  if s.replayHeld g then s.setGroup { g with stat := .endRun, runEnd := .rtrap }
  else if !g.armed then s.setGroup (g.readyAt s.tick)
  else if ps.isEmpty then s.setGroup ((g.trapReturn).readyAt s.tick)
  else
    let ops := ps.map (g.trap.replayOf g.tag s.tick)
    let cost := (ps.map (g.trap.replayCost g.width.n)).sum
    let bar := replayBar ps
    let h := { g.trapReturn with
      pends := ops, fails := [], runPc := g.trap.xpc, stat := .endRun, waited := false
      lastPc := if bar.isSome then g.trap.resume - 4 else g.trap.resume
      runEnd := match bar with | some id => .bar id | none => .replay
      runIdx := ((ops.map fun p => p.idx % 32 + 1).foldl max 0), cycles := g.cycles + cost }
    (ops.foldl (fun s p => s.reissue g.uid p) ((s.moveSent g.uid ps).setGroup h)).spend g.core cost

/-! ## Halting (R18, R260, R261) -/

/-- A group halts where it stands (R18, R259). -/
def State.halt (s : State) (g : Group) : State :=
  (s.setGroup { g with halt := .preempt, haltTime := s.tick, pass := 0 }).settleBusy g.part

/-- A group that is to halt does so at a run boundary, or on its wait on a barrier, once no yielded run is outstanding. -/
def State.haltIfDue (s : State) (uid : Nat) : State :=
  match s.group? uid with
  | none => s
  | some g =>
    let atBoundary := match g.stat with
      | .ready | .atBar _ | .atAbar _ _ => true
      | _ => false
    if g.preemptReq && g.halt == .no && g.yielded.isNone && atBoundary then s.halt g else s

/-- A gate share instruction is part of an exchange and waits for triples, or has sent all its words. -/
def State.partWaits (s : State) (uid idx : Nat) : Bool :=
  s.pkg.convs.any fun c => c.exchanges.any fun x => x.parts.any fun p =>
    p.uid == uid && p.idx == idx && !p.withdrawn && (p.popped.isNone || decide (p.nwords ≤ p.crossed))

/-- An instruction that waits at the gate for its turn or for room. -/
def State.stepWaits (s : State) (uid idx : Nat) : Bool := s.pkg.waits.any fun d => d.uid == uid && d.idx == idx

/-- An instruction that waits without limit, so that its group halts at once (R18, R261). -/
def State.unlimited (s : State) (uid : Nat) (p : Pend) : Bool :=
  match p.op with
  | .crecv _ _ _ | .taccept _ _ _ _ | .launch _ _ | .engine _ _ _ | .csend _ _ _ _ | .tsend _ _ _ _ _ | .sys _ _ _
  | .cbpop _ _ _ | .cdeleg _ _ => true
  | _ => s.partWaits uid p.idx || s.stepWaits uid p.idx

/-- An instruction is withdrawn at the halt (R261, Table 7); a system call, a pop and a part of an exchange keep their
wait. -/
def State.withdraws (s : State) (uid : Nat) (p : Pend) : Bool :=
  p.st == .waiting && (match p.op with
    | .sys _ _ _ | .cbpop _ _ _ => false
    | .gate _ _ _ _ => s.stepWaits uid p.idx
    | _ => true)

/-- What the gate holds of withdrawn instructions of a group dropped. -/
def State.withdrawAtGate (s : State) (uid : Nat) (tickets : List Nat) : State :=
  let mine := fun (u i : Nat) => u == uid && tickets.contains i
  { s with pkg := { s.pkg with
      waits := s.pkg.waits.filter fun d => !mine d.uid d.idx
      convs := s.pkg.convs.map fun c => { c with
        roles := c.roles.map fun r => { r with recvs := r.recvs.filter fun w => !mine w.1 w.2.1 }
        parties := c.parties.map fun p => { p with accepts := p.accepts.filter fun w => !mine w.1 w.2.1 } } } }

/-- The results of the yielded run are committed, or there is none (R17). -/
def Group.yieldedIn (g : Group) : Bool :=
  match g.yielded with
  | some y => y.pends.all fun p => match p.st with | .committed _ => true | _ => false
  | none => true

/-- A group parked at the end of its run halts when everything it still waits for is of R261: the other results commit,
and what Table 7 withdraws is withdrawn. -/
def State.haltWaiting (s : State) (uid : Nat) : State :=
  match s.group? uid with
  | none => s
  | some g =>
    let open_ := g.pends.filter fun p => !p.isDone
    let ok := g.preemptReq && g.halt == .no && g.stat == .endRun && g.yieldedIn && !open_.isEmpty
      && (open_.all (s.unlimited uid)) && !s.returns.any fun r => r.uid == uid
    if !ok then s
    else
      let gone := (open_.filter (s.withdraws uid)).map (·.idx)
      let h := g.commitOwn
      let h := { h with pends := h.pends.map fun p => if gone.contains p.idx then { p with st := .withdrawn } else p }
      ((s.withdrawAtGate uid gone).setGroup h).halt h

/-- A group that was halted by a pre-empt command, with its rows in place, goes on (R260, R261): withdrawn instructions are
issued again, and its waits are looked at anew. -/
def State.resumeGroup (s : State) (uid : Nat) : State :=
  match s.group? uid with
  | none => s
  | some g =>
    let away := match s.team? g.team with | some t => t.spilled.isSome | none => false
    if g.halt ≠ .preempt || g.spilled.isSome || away then s
    else
      let again := g.pends.filter fun p => p.st == .withdrawn
      let h := again.foldl (fun (h : Group) p => h.setPend p.idx .waiting) { g with
        halt := .no, preemptReq := false, readyTime := if g.stat = .ready then s.tick else g.readyTime }
      let s := (if again.isEmpty then s else s.performLate uid).setGroup h
      let s := again.foldl (fun s p => s.reissue uid p) s
      let s := (s.pkg.convs.map (·.num)).foldl State.settle s
      (s.servePops uid).wakeWaits [uid]

/-! ## Run boundaries -/

/-- A run that ended with `yield` is put aside (R17): the group is ready at once, behind the others. -/
def State.yieldRun (s : State) (g : Group) : State :=
  if g.pends.isEmpty && g.fails.isEmpty then s.setGroup (g.readyAt s.tick)
  else s.setGroup { g.readyAt s.tick with yielded := some ⟨g.pends, g.fails, g.runPc⟩, tag := 1 - g.tag }

/-- What follows the commit of a run (R28, R81, R83, R84, R175). -/
def State.boundary (s : State) (g : Group) : State :=
  if g.dead then (if g.fails.isEmpty then s.exitGroup g else s.deliver g)
  else match g.runEnd with
    | .abarWait n parity =>
      if s.waitOver g n parity then s.endWait g n else s.setGroup { g with stat := .atAbar n parity }
    | how =>
      if !g.fails.isEmpty then s.deliver g
      else match how with
        | .exit => s.exitGroup g
        | .bar id => s.arriveBar g id
        | .rtrap => s.startReplay g
        | _ => s.setGroup (g.readyAt s.tick)

/-- A group of a launch that is being ended is killed (R262): what it held goes into the launch's list. -/
def State.killGroup (s : State) (g : Group) : State :=
  let w := worldId g.part g.ctx
  let es := g.killEntry :: (s.gateEntries w [g] ++ s.waitingEngine w [g])
  (s.updPart g.part fun p => match p.launch? g.lid with
    | some l => p.setLaunch { l with gone := l.gone ++ es }
    | none => p).removeGroup g.uid

/-- A launch that is being ended is gone once no group of it is left in a run (R262). -/
def State.endIfOver (s : State) (part lid : Nat) : State :=
  match (s.launchOf part lid).bind fun l => l.ending with
  | none => s
  | some cause =>
    if (s.groupsOf part lid).isEmpty then (s.terminateLaunch part lid (Why.plain cause)).settleBusy part else s

/-- The run of a group commits (R16), when everything it issued has returned; where its own results leave no thread alive, once
the yielded run has committed too (R81). A group of a launch that is being ended is
killed at this boundary (R262). -/
def State.runCommit (s : State) (uid : Nat) : State :=
  match s.group? uid with
  | none => s
  | some g =>
    if g.stat ≠ .endRun || g.halt ≠ .no then s
    else if s.isEnding g then (s.killGroup g).endIfOver g.part g.lid
    else if g.runEnd = .yield && g.yielded.isNone && !g.dead then ((s.yieldRun g).servePops uid).haltIfDue uid
    else if !(g.pends.all Pend.isDone) then (s.parkWaits uid).haltWaiting uid
    else if g.yieldedDue || g.commitOwn.needsAll && g.yielded.isSome then s
    else ((s.boundary g.commitOwn).haltIfDue uid).settleBusy g.part

/-- The resume address when the yielded run fails at the boundary of the present one (R17, R28): the last instruction, where
its effect is still to come. -/
def Group.resumeBefore (g : Group) : W64 :=
  match g.runEnd with
  | .exit | .bar _ | .abarWait _ _ | .rtrap => g.lastPc
  | _ => if g.dead then g.lastPc else g.pc

/-- A wait that parks a group at a boundary of its own (R17, R18): on a circular buffer or a triple queue, or, for a group
that is to halt, any of R261. -/
def State.parksAt (s : State) (g : Group) (p : Pend) : Bool :=
  p.isDone || (match p.op with
    | .cbpop _ _ _ => true
    | .gate _ _ _ _ => s.pkg.convs.any fun c => c.exchanges.any fun x => x.parts.any fun q =>
        q.uid == g.uid && q.idx == p.idx && !q.withdrawn && q.popped.isNone
    | _ => false) || (g.preemptReq && s.unlimited g.uid p)

/-- A group that was ready already and is ready still, since the same moment (R258). -/
def State.readySince (s : State) (uid tick : Nat) : State :=
  match s.group? uid with
  | some g => s.setGroup { g with readyTime := tick }
  | none => s

/-- The yielded run of a group commits at a run boundary (R17), over what the runs since have written. With a failure it is
delivered there, or at the end of the wait on which the present run is parked; the present run's failures follow it. -/
def State.yieldedCommit (s : State) (uid : Nat) : State :=
  match s.group? uid with
  | none => s
  | some g => match g.yielded with
    | none => s
    | some y =>
      let parked := g.stat == .endRun
      let whole := g.pends.all Pend.isDone
      let atBoundary := g.stat == .ready || (parked && g.pends.all (s.parksAt g))
      if !g.yieldedDue || !atBoundary || g.halt ≠ .no || g.spilled.isSome || s.isEnding g then s
      else
        let fs := addFailures (y.pends.filterMap Pend.failure) y.fails
        let k := if parked && whole then g.commitOwn else g
        let h := { k.commit y.pends with yielded := none }
        let rest : Option Yielded := if fs.isEmpty then none else some { y with pends := y.pends.map Pend.commit }
        if parked && !whole then
          if g.yieldedIn then s else (s.setGroup { h with yielded := rest }).haltWaiting uid
        else
        let s' :=
          if fs.isEmpty then s.setGroup h
          else if !parked then (s.takeTrap { h with pends := [], fails := [] } fs y.xpc h.pc y.pends).readySince uid g.readyTime
          else
            let resume := k.resumeBefore
            let s1 := s.takeTrap { h with pends := [], fails := [] } fs y.xpc resume y.pends
            if h.fails.isEmpty then s1
            else match s1.group? uid with
              | some k1 => s1.takeTrap k1 h.fails g.runPc resume h.pends
              | none => s1
        (s'.haltIfDue uid).settleBusy g.part

/-! ## The lane's choice (R258, R259) -/

/-- A group can be chosen by its lane: it stands in line, and is to be neither halted nor ended at this boundary. -/
def State.inLine (s : State) (core lane : Nat) (g : Group) : Bool :=
  g.waitsForLane core lane && !g.preemptReq && !s.isEnding g

/-- Order of acceptance of a launch: its place among those of its partition. -/
def State.acceptedAt (s : State) (g : Group) : Nat :=
  match s.part? g.part with
  | some p => p.launches.findIdx fun l => l.lid == g.lid
  | none => 0

/-- One group is before another of equal standing (R258): ready time, acceptance of the launch, `tix`, `gix`. -/
def State.earlier (s : State) (g h : Group) : Bool :=
  if g.readyTime ≠ h.readyTime then g.readyTime < h.readyTime
  else if s.acceptedAt g ≠ s.acceptedAt h then s.acceptedAt g < s.acceptedAt h
  else if g.tix ≠ h.tix then g.tix < h.tix
  else g.gix < h.gix

/-- One group is chosen before another (R258). -/
def State.precedes (s : State) (g h : Group) : Bool :=
  if g.promoted ≠ h.promoted then g.promoted
  else if g.promoted then s.earlier g h
  else if g.prio ≠ h.prio then h.prio < g.prio
  else s.earlier g h

/-- The group that a lane chooses. -/
def State.choice (s : State) (core lane : Nat) : Option Group :=
  (s.groups.filter (s.inLine core lane)).foldl (fun best g => match best with
    | none => some g
    | some b => if s.precedes g b then some g else some b) none

/-- The pass count of a group that stands in line while another is chosen (R259). -/
def Group.passed (g : Group) (chosen : Group) : Group :=
  if g.prio < chosen.prio && !chosen.promoted then
    { g with pass := g.pass + 1, promoted := g.promoted || decide (16 ≤ g.pass + 1) }
  else g

/-- A lane that is free chooses its next group (R258), which begins a run; one whose yielded run has returned whole commits it
first (R17). The core's local cycles go on by the time in
between, which is free (log 8). -/
def State.laneChoice (s : State) (core lane : Nat) : State :=
  if s.groups.any fun g => g.core == core && g.lane == lane && g.stat == .running then s
  else match s.choice core lane with
    | none => s
    | some c =>
      if c.yieldedDue then s
      else
      let turn := fun (g : Group) =>
        if g.uid == c.uid then
          { g with stat := .running, runPc := g.pc, runIdx := 0, pends := [], fails := [], pass := 0, promoted := false, waited := false }
        else if g.waitsForLane core lane then g.passed c
        else g
      let s := s.setCore ((s.core core).waitDone lane)
      State.spend { s with groups := s.groups.map turn } core (Config.freeW32 8 s.tick core).toNat

/-! ## Returns -/

/-- The `n`th return that is on its way arrives (R19). -/
def State.asyncReturn (s : State) (n : Nat) : State :=
  match s.returns[n]? with
  | none => s
  | some r =>
    let s := { s with returns := s.returns.eraseIdx n }
    match s.group? r.uid with
    | some g => if g.gen == r.gen then s.finish r.uid r.idx r.res else s.genDrop r.part r.core
    | none => s.genDrop r.part r.core

/-- The group's system call that waits at a run index since a step. -/
def Group.sysAt (g : Group) (idx since : Nat) : Option (Nat × Fld) :=
  g.issued.findSome? fun p => if p.idx % 32 = idx && p.since = since && p.st == .waiting then
    (match p.op with | .sys _ _ d => some (p.idx, d) | _ => none) else none

/-- A system call request is that of a group and run index. -/
def Interrupt.isSys (uid idx : Nat) : Interrupt → Bool
  | .sysCall _ _ u i _ _ _ => u == uid && i == idx
  | _ => false

/-- A system call answered (R87). The answer for a group that is gone, or for an instruction of a generation before the present
one, is dropped, and counts (R19). -/
def State.sysAnswer (s : State) (uid idx : Nat) (v : W64) : State :=
  match s.interrupts.find? (Interrupt.isSys uid idx) with
  | some (.sysCall part core _ _ since _ _) =>
    let s := { s with interrupts := s.interrupts.eraseP (Interrupt.isSys uid idx) }
    match s.group? uid with
    | none => s.genDrop part core
    | some g => match g.sysAt idx since with
      | some (ticket, d) => s.ret uid ticket (Result.scalar d v)
      | none => s.genDrop part core
  | _ => s

/-! ## Barrier stalls (R86) -/

/-- A group parked at a barrier that stalled traps: its arrival is withdrawn, and its `bar` can be replayed. -/
def State.stallGroup (s : State) (g : Group) (id : Nat) : State :=
  let idx := g.runIdx - 1
  let f : Failure := ⟨idx, .barrierStall, 0, 0, 0, true⟩
  let p : Pend := ⟨g.ticket - 1, .bar id, instrWords (.bar true (BitVec.ofNat 4 id)), .done (Result.failed f), s.tick, 0, []⟩
  s.takeTrap { g with pends := [], fails := [] } [f] g.runPc g.pc [p]

/-- The stall time of a barrier exceeds the limit (R86). It does not count while a group parked there is halted (R260). -/
def State.barrierStall (s : State) (team id : Nat) : State :=
  match s.team? team with
  | none => s
  | some t =>
    let gs := s.groups.filter fun g => g.team == team && g.stat == .atBar id
    let limited := match s.part? t.part with | some p => p.stalllim ≠ 0 | none => false
    if gs.isEmpty || !limited || (gs.any fun g => g.halt != .no || g.spilled.isSome) then s
    else
      let s := s.setTeam { t with bars := t.bars.set id ⟨0, 0⟩ }
      gs.foldl (fun s g => s.stallGroup g id) s

/-! ## Event windows -/

/-- The windows of a core restart (R89): EVWIN 0 means one window without end. -/
def State.windowRestart (s : State) (core : Nat) : State :=
  match s.parts.find? fun p => p.holdsCore core with
  | none => s
  | some p =>
    if p.evwin = 0 then s
    else s.setCore { s.core core with window := List.replicate 8 0, crossed := List.replicate 8 false }

/-! ## Commands (R260, R262) -/

/-- NOLID of the last command (R250). -/
def State.setNolid (s : State) (part : Nat) (b : Bool) : State := s.updPart part fun p => { p with nolid := b }

/-- A launch pre-empted: its groups halt at once, or at their next run boundaries. -/
def State.preemptLaunch (s : State) (part lid : Nat) : State :=
  let s := s.updPart part fun p => match p.launch? lid with
    | some l => p.setLaunch { l with preempted := true }
    | none => p
  let uids := (s.groupsOf part lid).map (·.uid)
  let s := { s with groups := s.groups.map fun (g : Group) =>
    if g.part == part && g.lid == lid then { g with preemptReq := true } else g }
  uids.foldl (fun (s : State) u => ((s.haltIfDue u).yieldedCommit u).haltWaiting u) s

/-- A launch resumed: its halted groups go on, each once its rows are back in place. -/
def State.resumeLaunch (s : State) (part lid : Nat) : State :=
  let s := s.updPart part fun p => match p.launch? lid with
    | some l => p.setLaunch { l with preempted := false }
    | none => p
  let uids := (s.groupsOf part lid).map (·.uid)
  let s := { s with groups := s.groups.map fun (g : Group) =>
    if g.part == part && g.lid == lid then { g with preemptReq := false } else g }
  uids.foldl State.resumeGroup s

/-- A launch is being ended (R262): its unplaced teams are discarded; its groups that are halted, ready or parked are killed
at once, and each of the others at its run boundary. -/
def State.endLaunch (s : State) (part lid cause : Nat) : State :=
  let s := s.updPart part fun p => match p.launch? lid with
    | some l => p.setLaunch { l with ending := some cause, queued := false }
    | none => p
  (((s.groupsOf part lid).filter fun g => g.stat != .running || g.halt != .no).foldl State.killGroup s).endIfOver part lid

/-- The accepted, incomplete launch that a launch number names: the last of that number (R251). -/
def Partition.named (p : Partition) (n : Nat) : Option Launch :=
  (p.launches.filter fun l => launchNumber l.lid == n).getLast?

/-- A command on a launch, if its number names one that is accepted and incomplete; BUSY is set while it takes effect. -/
def State.command (s : State) (part n c : Nat) (act : Launch → State → State) : State :=
  match (s.part? part).bind fun p => p.named n with
  | none => (s.updPart part fun p => { p with cmd := none, busy := false }).setNolid part true
  | some l => (act l ((s.updPart part fun p => { p with cmd := some (c, l.lid) }).setNolid part false)).settleBusy part

/-- Command 1 (R260). -/
def State.preemptCommand (s : State) (part n : Nat) : State :=
  s.command part n 1 fun l s => if l.preempted || l.ending.isSome then s else s.preemptLaunch part l.lid

/-- Command 2 (R260); nothing runs a group during retain-sleep (R327). -/
def State.resumeCommand (s : State) (part n : Nat) : State :=
  s.command part n 2 fun l s =>
    if l.preempted && !s.launchesStop then s.resumeLaunch part l.lid
    else if l.preempted then s.updPart part fun p => { p with cmd := none }
    else s

/-- Command 3 (R262). -/
def State.terminateCommand (s : State) (part n : Nat) : State :=
  s.command part n 3 fun l s => if l.ending.isSome then s else s.endLaunch part l.lid 4

/-! ## Steps -/

/-- `LANE_CHOICE` (R258). -/
def execLaneChoice (core lane : Nat) (s : State) : Host.Outcome State Fault Refusal := .next (s.laneChoice core lane)

/-- `ASYNC_RETURN` (R19). -/
def execAsyncReturn (n : Nat) (s : State) : Host.Outcome State Fault Refusal := .next (s.asyncReturn n).sleepIfDue

/-- `RUN_COMMIT` (R16). -/
def execRunCommit (g : Nat) (s : State) : Host.Outcome State Fault Refusal := .next (s.runCommit g).sleepIfDue

/-- `YIELDED_RUN_COMMIT` (R17). -/
def execYieldedRunCommit (g : Nat) (s : State) : Host.Outcome State Fault Refusal := .next (s.yieldedCommit g).sleepIfDue

/-- `BARRIER_STALL` (R86). -/
def execBarrierStall (team bar : Nat) (s : State) : Host.Outcome State Fault Refusal := .next (s.barrierStall team bar)

/-- `EVENT_WINDOW_RESTART` (R89). -/
def execEventWindowRestart (core : Nat) (s : State) : Host.Outcome State Fault Refusal := .next (s.windowRestart core)

/-- `SYS_ANSWER` (R87). -/
def execSysAnswer (g idx : Nat) (v : BitVec 64) (s : State) : Host.Outcome State Fault Refusal := .next (s.sysAnswer g idx v)

/-- `PREEMPT` (R260). -/
def execPreempt (part lid : Nat) (s : State) : Host.Outcome State Fault Refusal := .next (s.preemptCommand part lid)

/-- `RESUME` (R260). -/
def execResume (part lid : Nat) (s : State) : Host.Outcome State Fault Refusal := .next (s.resumeCommand part lid)

/-- `TERMINATE` (R262). -/
def execTerminate (part lid : Nat) (s : State) : Host.Outcome State Fault Refusal := .next (s.terminateCommand part lid)

end Sys2Proof.Machine
end

