-- ==== Sys2Proof/Machine/Place.lean ====
section
/-!
DEFINITION. Placement of teams (R254, R256, R257, R253), claims on halted work and spills (R263), and restores (R265).
DESIGN CHOICE: ties among claims (log 19).
-/

namespace Sys2Proof.Machine

open Sys2Proof

/-! ## What stands on the cores -/

/-- The rows that a group holds. -/
def Group.holds (g : Group) : Resident := ⟨g.core, g.lane, rowBytes g.alloc g.width.n⟩

/-- The slice ranges that a team holds. -/
def Team.holds (t : Team) : List Taken := t.cores.map fun c => ⟨c, t.sliceOff, t.sliceLen⟩

/-- A launch is resumed, or was never halted, and is not being ended. -/
def State.goesOn (s : State) (part lid : Nat) : Bool :=
  match s.launchOf part lid with
  | some l => !l.preempted && l.ending.isNone
  | none => false

/-- Room is kept for the spilled work of a launch that goes on, against placements of equal or lower priority (R265). -/
def State.reserves (s : State) (part lid prio : Nat) : Bool :=
  s.goesOn part lid && (match s.launchOf part lid with | some l => prio ≤ l.record.prio | none => false)

/-- What is held against a placement of a priority. -/
def State.occ (s : State) (prio : Nat) : Occ :=
  ⟨(s.groups.filter fun g => g.spilled.isNone || s.reserves g.part g.lid prio).map Group.holds,
    (s.teams.filter fun t => t.spilled.isNone || s.reserves t.part t.lid prio).flatMap Team.holds⟩

/-! ## Claims (R263) -/

/-- Halted work of a launch may be claimed by a placement of a priority: the launch is pre-empted, has save slots, and
stands at or below it. -/
def State.claimable (s : State) (part lid prio : Nat) : Bool :=
  match s.launchOf part lid with
  | some l => l.preempted && l.ending.isNone && 0 < l.record.nslot && l.record.prio ≤ prio
  | none => false

/-- The free save slots of a launch. -/
def Launch.slotsLeft (l : Launch) : Nat := l.record.nslot - l.slots.length

/-- The lowest free save slot of a launch. -/
def Launch.freeSlot (l : Launch) : Option Nat :=
  (List.range (l.slots.length + 1)).find? fun k => k < l.record.nslot && !l.slots.contains k

/-- Claims take halted work of lowest priority first, and among equals the most recently halted. -/
def Group.claimFirst (g h : Group) : Bool :=
  if g.prio ≠ h.prio then g.prio < h.prio else h.haltTime < g.haltTime

/-- A group put into the order of claims. -/
def Group.insertClaim (g : Group) : List Group → List Group
  | [] => [g]
  | h :: hs => if g.claimFirst h then g :: h :: hs else h :: Group.insertClaim g hs

/-- The save slots that a team image takes: one for each core of the team (log 31). -/
def Team.slotCount (t : Team) : Nat := t.cores.length

/-- The groups whose rows may be claimed on some cores, in the order of claims. -/
def State.claimGroups (s : State) (cores : List Nat) (prio : Nat) : List Group :=
  (s.groups.filter fun g =>
    cores.contains g.core && g.spilled.isNone && g.halt != .no && s.claimable g.part g.lid prio).foldl (fun l g => g.insertClaim l) []

/-- The launch of a group has a free slot for it beside those that other groups and team images of a claim take. -/
def State.slotFor (s : State) (done : List Group) (images : List Team) (g : Group) : Bool :=
  let mine := (done.filter fun h => h.part == g.part && h.lid == g.lid).length
    + ((images.filter fun t => t.part == g.part && t.lid == g.lid).map Team.slotCount).sum
  match s.launchOf g.part g.lid with
  | some x => mine < x.slotsLeft
  | none => false

/-- A team's image may be claimed: all its groups are halted, and none of its engine operations is in flight. -/
def State.claimTeam (s : State) (t : Team) (prio : Nat) : Bool :=
  t.spilled.isNone && s.claimable t.part t.lid prio
    && (s.groups.all fun g => g.team != t.uid || g.halt != .no)
    && !(s.cores.any fun c => (c.matrix.any fun e => e.team == t.uid) || c.copies.any fun e => e.2.team == t.uid)
    && (match s.launchOf t.part t.lid with | some l => t.slotCount ≤ l.slotsLeft | none => false)

/-- The rows held when some groups are taken away. -/
def Occ.without (o : Occ) (gs : List Group) : Occ := { o with rows := gs.foldl (fun l g => l.erase g.holds) o.rows }

/-- A team's groups find lanes once some groups are taken away. -/
def Occ.roomWithout (o : Occ) (a : Ask) (core : Nat) (gs : List Group) : Bool :=
  ((o.without gs).lanes a core a.ngroups 0).isSome

/-- Groups claimed one after another until a team's groups find lanes: `done` are claimed. One that would leave no slot for a
group that is needed is passed over. -/
def State.claimUntil (s : State) (o : Occ) (a : Ask) (core : Nat) (images : List Team) (done : List Group) :
    List Group → Option (List Group)
  | [] => if o.roomWithout a core done then some done else none
  | g :: gs =>
    if o.roomWithout a core done then some done
    else if !o.roomWithout a core (done ++ g :: gs) then none
    else match if s.slotFor done images g then State.claimUntil s o a core images (done ++ [g]) gs else none with
      | some r => some r
      | none => State.claimUntil s o a core images done gs

/-- Of claimed groups only those kept that the team needs. -/
def Occ.prune (o : Occ) (a : Ask) (core : Nat) (kept : List Group) : List Group → List Group
  | [] => kept
  | g :: gs =>
    if o.roomWithout a core (kept ++ gs) then Occ.prune o a core kept gs
    else Occ.prune o a core (kept ++ [g]) gs

/-- A team's range overlaps a range on some cores. -/
def Team.meets (t : Team) (cores : List Nat) (off len : Nat) : Bool :=
  t.holds.any fun x => cores.contains x.core && decide (0 < len) && decide (0 < x.len) && decide (off < x.off + x.len)
    && decide (x.off < off + len)

/-- The priority of a team's launch, and the moment at which the last of its groups halted, by which claims are put in
order. -/
def State.claimKey (s : State) (t : Team) : Nat × Nat :=
  ((match s.launchOf t.part t.lid with | some l => l.record.prio | none => 0),
    ((s.groups.filter fun g => g.team == t.uid).map (·.haltTime)).foldl max 0)

/-- A team put into the order of claims. -/
def State.insertTeam (s : State) (t : Team) : List Team → List Team
  | [] => [t]
  | u :: us =>
    let a := s.claimKey t
    let b := s.claimKey u
    if a.1 < b.1 || (a.1 == b.1 && b.2 < a.2) then t :: u :: us else u :: State.insertTeam s t us

/-- Where a slice allocation fits, with the team images that have to be claimed for it: none when a range is free, else as few
of the claimable teams, in the order of claims, as leave a range, the lowest one, and of these those that overlap it. -/
def State.claimSlice (s : State) (o : Occ) (cores : List Nat) (len prio : Nat) : Option (Nat × List Team) :=
  let ts := (s.teams.filter fun t => s.claimTeam t prio).foldl (fun l t => s.insertTeam t l) []
  let left := fun (us : List Team) =>
    ({ o with slices := us.foldl (fun l t => t.holds.foldl (fun l x => l.erase x) l) o.slices } : Occ)
  (List.range (ts.length + 1)).findSome? fun k =>
    ((left (ts.take k)).sliceAt cores len).map fun off => (off, (ts.take k).filter fun t => t.meets cores off len)

/-- Where a team goes: its core, slice offset and lanes, and what is spilled for it. -/
structure Site where
  core : Nat
  off : Nat
  lanes : List (Nat × Nat)
  groups : List Group
  images : List Team
deriving DecidableEq, Repr

/-- Every launch has a free slot for each image of a claim. -/
def State.slotsSuffice (s : State) (gs : List Group) (ts : List Team) : Bool :=
  let keys := gs.map (fun g => (g.part, g.lid)) ++ ts.flatMap fun t => List.replicate t.slotCount (t.part, t.lid)
  keys.all fun k => match s.launchOf k.1 k.2 with
    | some l => keys.countP (· == k) ≤ l.slotsLeft
    | none => false

/-- Where a team fits on a candidate once halted work there is claimed. -/
def State.claimSite (s : State) (a : Ask) (prio core : Nat) : Option Site :=
  let o := s.occ prio
  match s.claimSlice o (a.cores core) a.len prio with
  | none => none
  | some (off, images) => match s.claimUntil o a core images [] (s.claimGroups (a.cores core) prio) with
    | none => none
    | some gs =>
      let kept := o.prune a core [] gs.reverse
      match (o.without kept).lanes a core a.ngroups 0 with
      | none => none
      | some ls => if s.slotsSuffice kept images then some ⟨core, off, ls, kept, images⟩ else none

/-! ## Spills -/

/-- The slots of a launch after one was taken. -/
def State.takeSlot (s : State) (part lid k : Nat) : State :=
  s.updPart part fun p => match p.launch? lid with
    | some l => p.setLaunch { l with slots := l.slots ++ [k] }
    | none => p

/-- The slots of a launch after one was freed (R265). -/
def State.dropSlot (s : State) (part lid k : Nat) : State :=
  s.updPart part fun p => match p.launch? lid with
    | some l => p.setLaunch { l with slots := l.slots.filter (· != k) }
    | none => p

/-- How the spills of a claim end: written, or failed at a slot address of a partition, for the group or the team `uid` as it halted. -/
inductive Spilled where
  | ok (s : State)
  | fail (part : Nat) (addr : W64) (uid halted : Nat)
deriving DecidableEq, Repr

/-- A group spilled into the lowest free slot of its launch. -/
def State.spillOne (s : State) (g : Group) : Spilled :=
  match s.launchOf g.part g.lid with
  | none => .ok s
  | some l => match l.freeSlot with
    | none => .ok s
    | some k => match s.spillGroup l g k with
      | some s' => .ok (s'.takeSlot g.part g.lid k)
      | none => .fail g.part (BitVec.ofNat 64 (l.record.slotAddr k)) g.uid g.haltTime

/-- A team image spilled into the lowest free slot of its launch, and that of the second core of a pair into the next one. -/
def State.spillTeamOne (s : State) (t : Team) : Spilled :=
  match s.launchOf t.part t.lid with
  | none => .ok s
  | some l => match l.freeSlot with
    | none => .ok s
    | some k =>
      let k2 := if t.pair then ({ l with slots := l.slots ++ [k] } : Launch).freeSlot.getD k else k
      match s.spillTeam l t k k2 with
      | some s' =>
        let s' := s'.takeSlot t.part t.lid k
        .ok (if t.pair then s'.takeSlot t.part t.lid k2 else s')
      | none =>
        let bad := if (s.performAll.writeSlot l t.part k (s.performAll.teamImage t false)).isNone then k else k2
        .fail t.part (BitVec.ofNat 64 (l.record.slotAddr bad)) t.uid (s.claimKey t).2

/-- Groups spilled one after another. -/
def State.spillGroups (s : State) : List Group → Spilled
  | [] => .ok s
  | g :: gs => match s.spillOne g with
    | .ok s' => State.spillGroups s' gs
    | r => r

/-- Team images spilled one after another. -/
def State.spillTeams (s : State) : List Team → Spilled
  | [] => .ok s
  | t :: ts => match s.spillTeamOne t with
    | .ok s' => State.spillTeams s' ts
    | r => r

/-- Everything that a claim takes spilled. -/
def State.spillAll (s : State) (x : Site) : Spilled :=
  match s.spillGroups x.groups with
  | .ok s' => s'.spillTeams x.images
  | r => r

/-- The interrupt of a spill that failed (R263). -/
def State.spillFailed (s : State) (part : Nat) (addr : W64) (k : FailedClaim) : State :=
  { s with interrupts := s.interrupts ++ [.spillFailed part addr k] }

/-- A slice line with an error that the spill of a claim's team images would read (R344). -/
def State.imageError (s : State) (x : Site) : Option Nat :=
  x.images.findSome? fun t => t.cores.findSome? fun c => s.badLine (.slice (sliceSize * c + t.sliceOff)) t.sliceLen

/-! ## Placing one team -/

/-- A team and its groups at their start (R6, R7, R9, R253), on the lanes that they were given. -/
def State.putTeam (s : State) (part : Nat) (l : Launch) (x : Site) : State :=
  let r := l.record
  let t := Team.fresh s.nextUid part l.ctx l.lid l.placed x.core r.pair x.off (r.slice * 4096) (r.gpt + 1)
  let nrank := if l.ranks.isEmpty then 1 else l.ranks.length
  let gs := x.lanes.mapIdx fun i (c, ln) =>
    Group.fresh (s.nextUid + 1 + i) t i c ln (Width.ofCode r.wc) ((r.regs + 1) * 16) r.code r.trapv r.args r.nteam l.rank
      nrank r.prio s.tick
  let s : State := { s with
    teams := s.teams ++ [t], groups := s.groups ++ gs, nextUid := s.nextUid + 1 + gs.length }
  s.updPart part fun p =>
    let p := match p.launch? l.lid with
      | some l => p.setLaunch { l with placed := l.placed + 1, queued := l.placed + 1 < l.record.nteam }
      | none => p
    { p with lastCore := some x.core, nextQueue := p.nextQueue.set r.prio ((l.queue + 1) % 16) }

/-- The first candidate where a team fits with what is free. -/
def State.freeSite (s : State) (a : Ask) (prio : Nat) : List Nat → Option Site
  | [] => none
  | c :: cs => match (s.occ prio).fit a c with
    | some (off, ls) => some ⟨c, off, ls, [], []⟩
    | none => State.freeSite s a prio cs

/-- A team placed on the first candidate where a claim makes room; a spill that fails withdraws its claim, and the next
candidate is tried. The Bool says whether the team was placed, or a spill has consumed the error of a slice line (R344). -/
def State.placeClaim (s : State) (part : Nat) (l : Launch) : List Nat → State × Bool
  | [] => (s, false)
  | c :: cs => match s.claimSite l.record.ask l.record.prio c with
    | none => State.placeClaim s part l cs
    | some x => match s.imageError x with
      | some line => (s.lineError line none, true)
      | none => match s.spillAll x with
        | .ok s' => (s'.putTeam part l x, true)
        | .fail q addr uid halted => State.placeClaim (s.spillFailed q addr ⟨l.lid, l.placed, c, uid, halted⟩) part l cs

/-- The next team of a launch placed, if it can be (R256, R263). -/
def State.placeNext (s : State) (part : Nat) (l : Launch) : State × Bool :=
  match s.part? part with
  | none => (s, false)
  | some p =>
    let cands := s.candidates p l.record.cres l.record.pair
    match s.freeSite l.record.ask l.record.prio cands with
    | some x => (s.putTeam part l x, true)
    | none => s.placeClaim part l cands

/-! ## The placement unit (R254, R256) -/

/-- The heads of the queues that have a priority, in the order of the turns of that priority. -/
def Partition.heads (p : Partition) (pr : Nat) : List Launch :=
  ((List.range 16).filterMap fun k => (p.inQueue ((p.nextQueue.getD pr 0 + k) % 16)).head?).filter fun l => l.record.prio == pr

/-- A head is ready to place: its dependences hold, and it is neither pre-empted nor being ended. -/
def Launch.readyToPlace (l : Launch) : Bool := l.held.all id && !l.preempted && l.ending.isNone

/-- The ready heads in the order in which they are served. -/
def Partition.readyHeads (p : Partition) : List Launch :=
  [3, 2, 1, 0].flatMap fun pr => (p.heads pr).filter Launch.readyToPlace

/-- The cooperative head that is served first. -/
def Partition.coopHead (p : Partition) : Option Launch := p.readyHeads.find? fun l => l.record.coop

/-- The heads that may place a team: those that no cooperative head of equal or higher priority holds back. -/
def Partition.servable (p : Partition) : List Launch :=
  p.readyHeads.filter fun l => !l.record.coop && (match p.coopHead with
    | some c => c.record.prio < l.record.prio
    | none => true)

/-- The first of some heads that can place its next team places it; the others are passed over. -/
def State.placeFirst (s : State) (part : Nat) : List Launch → State × Bool
  | [] => (s, false)
  | l :: ls => match s.placeNext part l with
    | (s', true) => (s', true)
    | (s', false) => State.placeFirst s' part ls

/-- The placement unit places one team. -/
def State.placeTeam (s : State) (part : Nat) : State :=
  match s.part? part with
  | none => s
  | some p => if s.launchesStop then s else (s.placeFirst part p.servable).1

/-- The remaining teams of a cooperative launch placed one after another: `n` of them. -/
def State.placeCoop (s : State) (part lid : Nat) : (n : Nat) → State × Bool
  | 0 => (s, true)
  | n + 1 => match s.launchOf part lid with
    | none => (s, false)
    | some l => match s.placeNext part l with
      | (s', true) => State.placeCoop s' part lid n
      | (s', false) => (s', false)

/-- A cooperative launch that reached the head of its queue after a removal of cores completed (R266). -/
def Partition.recheckHead (p : Partition) : Option Launch :=
  (List.range 16).findSome? fun q => (p.inQueue q).head?.filter fun l => l.record.coop && l.recheck && l.ending.isNone

/-- Such a launch is checked anew, and discarded when it no longer fits (R266, BADWHY 8). -/
def State.recheckCoop (s : State) (part : Nat) (p : Partition) (l : Launch) : State :=
  if p.coopFits l.record then s.updPart part fun p => p.setLaunch { l with recheck := false }
  else s.terminateLaunch part l.lid (Why.plain 5)

/-- A cooperative head places all its teams, or none; until it can, it stays (R256), and of the attempt only the interrupts of
spills that failed are left (R263), or the error that a spill consumed (R344). One that a completed removal leaves to
be checked anew is checked first (R266). A head of higher priority that can place a team is served first. -/
def State.coopPlace (s : State) (part : Nat) : State :=
  match s.part? part with
  | none => s
  | some p => if s.launchesStop then s else match p.recheckHead with
    | some l => s.recheckCoop part p l
    | none => match p.coopHead with
    | none => s
    | some l =>
      if (s.placeFirst part p.servable).2 then s
      else
        let (s', ok) := s.placeCoop part l.lid (l.record.nteam - l.placed)
        match s.sliceErrs.find? fun e => !s'.sliceErrs.contains e with
        | some e => s.lineError (sliceMark + e.1) none
        | none => if ok then s' else { s with interrupts := s'.interrupts }

/-- What the placement unit does by itself: a claim whose spill failed it does not try again (R256, R263; DESIGN CHOICE, log 19) while
its spill fails as it did, for the same team on the same core and the same halted work. -/
def State.noNewInterrupt (s t : State) : State :=
  if t = { s with interrupts := t.interrupts } && (t.interrupts.drop s.interrupts.length).all s.interrupts.contains then s else t

/-! ## Restores (R265) -/

/-- The slice range of a team is free on its cores. -/
def State.rangeFree (s : State) (t : Team) : Bool :=
  let o : Occ := ⟨[], (s.teams.filter fun u => u.spilled.isNone).flatMap Team.holds⟩
  o.sliceFree t.cores t.sliceOff t.sliceLen

/-- The rows of a group fit on its own lane. -/
def State.rowsFree (s : State) (g : Group) : Bool :=
  let here := s.groups.filter fun h => h.spilled.isNone && h.core == g.core && h.lane == g.lane
  here.length < 8 && (here.map fun h => h.holds.bytes).sum + g.holds.bytes ≤ 32768

/-- A spilled team image restored on its own core, at its own offset. The groups whose rows are in place go on. -/
def State.restoreTeam (s : State) (uid : Nat) : State :=
  match s.team? uid with
  | none => s
  | some t => match t.spilled, s.launchOf t.part t.lid with
    | some k, some l =>
      if !s.goesOn t.part t.lid || !s.rangeFree t then s
      else
        let k2 := t.spilledOdd.getD k
        match s.readSlot l t.part k (0x1000 + t.sliceLen) [], s.readSlot l t.part k2 (0x1000 + t.sliceLen) [] with
        | .bytes bs, .bytes bs2 =>
          let s := s.loadSlice t false bs
          let s := if t.pair then s.loadSlice t true bs2 else s
          let s := ((s.setTeam (t.load bs bs2 s.tick)).dropSlot t.part t.lid k).dropSlot t.part t.lid k2
          (((s.groups.filter fun g => g.team == uid).map (·.uid)).foldl State.resumeGroup s).settleBusy t.part
        | .poison x, _ | _, .poison x => s.lineError x none
        | _, _ => s
    | _, _ => s

/-- A spilled group restored on its own lane, after the image of its team. -/
def State.restoreGroup (s : State) (uid : Nat) : State :=
  match s.group? uid with
  | none => s
  | some g => match g.spilled, s.launchOf g.part g.lid with
    | some k, some l =>
      let back := match s.team? g.team with | some t => t.spilled.isNone | none => false
      if !back || !s.goesOn g.part g.lid || !s.rowsFree g then s
      else match s.readArea l g k with
        | .waits => s
        | .poison x => s.lineError x none
        | .bytes bs => (((s.setGroup (s.loadGroup g bs)).dropSlot g.part g.lid k).resumeGroup uid).settleBusy g.part
    | _, _ => s

/-! ## Steps -/

/-- `PLACE_TEAM` (R256). -/
def execPlaceTeam (part : Nat) (s : State) : Host.Outcome State Fault Refusal := .next (s.placeTeam part)

/-- `COOP_PLACE` (R256). -/
def execCoopPlace (part : Nat) (s : State) : Host.Outcome State Fault Refusal := .next (s.coopPlace part)

/-- `GROUP_RESTORE` (R265). -/
def execGroupRestore (teamImage : Bool) (uid : Nat) (s : State) : Host.Outcome State Fault Refusal :=
  .next (if teamImage then s.restoreTeam uid else s.restoreGroup uid)

end Sys2Proof.Machine
end

