-- ==== Sys2Proof/Machine/Control.lean ====
section
/-!
DEFINITION. Control flow, the window, run ends, system calls and event configuration (R78 to R84, R87, R91).
-/

namespace Sys2Proof.Machine

open Sys2Proof

/-! ## Branches (R78, R79) -/

/-- The target of a branch word at an address (R69, R78). -/
def branchTarget (pc : W64) (t : BitVec 16) : W64 := pc + 4 * t.signExtend 64

/-- A branch that is taken, or not, as a test of the group decides. -/
def branchInstr (i : Instr) (s : State) (t : BitVec 16) (taken : (Fld → W64) → Group → Bool) :
    Host.Outcome State Fault Refusal :=
  issue i s fun g s =>
    if taken (g.readS (s.cyc g)) g then .jump s g 1 (branchTarget g.pc t) else .seq s g 1

/-- `br` (R78). -/
def execBr (e : Bool) (t : BitVec 16) (s : State) : Host.Outcome State Fault Refusal :=
  branchInstr (.br e t) s t fun _ _ => true

/-- `bz` (R78). -/
def execBz (e : Bool) (c : BitVec 7) (t : BitVec 16) (s : State) : Host.Outcome State Fault Refusal :=
  branchInstr (.bz e c t) s t fun r _ => r c == 0

/-- `bnz` (R78). -/
def execBnz (e : Bool) (c : BitVec 7) (t : BitVec 16) (s : State) : Host.Outcome State Fault Refusal :=
  branchInstr (.bnz e c t) s t fun r _ => r c != 0

/-- `bmz` (R78). -/
def execBmz (e : Bool) (c : BitVec 7) (t : BitVec 16) (s : State) : Host.Outcome State Fault Refusal :=
  branchInstr (.bmz e c t) s t fun r g => r c &&& g.lvm == 0

/-- `bmnz` (R78). -/
def execBmnz (e : Bool) (c : BitVec 7) (t : BitVec 16) (s : State) : Host.Outcome State Fault Refusal :=
  branchInstr (.bmnz e c t) s t fun r g => r c &&& g.lvm != 0

/-- `call` (R78): the address after the branch word is kept. -/
def execCall (e : Bool) (c : BitVec 7) (t : BitVec 16) (s : State) : Host.Outcome State Fault Refusal :=
  issue (.call e c t) s fun g s => .jump s (g.writeS c (g.pc + 4)) 1 (branchTarget g.pc t)

/-- `jr` (R78): bits 1:0 of the target are 0. -/
def execJr (e : Bool) (c : BitVec 7) (s : State) : Host.Outcome State Fault Refusal :=
  issue (.jr e c) s fun g s =>
    let t := g.readS (s.cyc g) c
    if t.toNat % 4 ≠ 0 then .trap .illegalOperand 0 else .jump s g 1 t

/-- `loop` (R78): 0 wraps to all ones, and is taken. -/
def execLoop (e : Bool) (c : BitVec 7) (t : BitVec 16) (s : State) : Host.Outcome State Fault Refusal :=
  issue (.loop e c t) s fun g s =>
    let n := g.readS (s.cyc g) c - 1
    let h := g.writeS c n
    if n ≠ 0 then .jump s h 1 (branchTarget g.pc t) else .seq s h 1

/-! ## The window, traps and run ends -/

/-- `trap` (R82): its code is the detail. -/
def execTrap (e : Bool) (k : BitVec 8) (s : State) : Host.Outcome State Fault Refusal :=
  issue (.trap e k) s fun _ _ => .trap .userTrap (k.setWidth 32)

/-- `wbase` (R80, R20): a window that begins outside the allocation is a trap. -/
def execWbase (e : Bool) (n : BitVec 5) (s : State) : Host.Outcome State Fault Refusal :=
  issue (.wbase e n) s fun g s =>
    if g.alloc ≤ 16 * n.toNat then .trap .wbaseRange 0 else .seq s { g with wb := 16 * n.toNat } 1

/-- `bar` (R84): the group arrives once its run has committed. -/
def execBar (e : Bool) (n : BitVec 4) (s : State) : Host.Outcome State Fault Refusal :=
  issue (.bar e n) s fun g s => .stop s g 1 (.bar n.toNat)

/-- `exit` (R81): the group exits once its run has committed. -/
def execExit (e : Bool) (s : State) : Host.Outcome State Fault Refusal :=
  issue (.exit e) s fun g s => .stop s g 1 .exit

/-- `yield` (R82, R17). -/
def execYield (e : Bool) (s : State) : Host.Outcome State Fault Refusal :=
  issue (.yield e) s fun g s => .stop s g 1 .yield

/-- `rtrap` (R83, R29): the return from a trap follows the commit of its run. -/
def execRtrap (e : Bool) (s : State) : Host.Outcome State Fault Refusal :=
  issue (.rtrap e) s fun g s => .stop s g 1 .rtrap

/-! ## System calls and events -/

/-- What `sys` captures of its group (R87): s0 to s7, `world`, `tix`, `gix` and the run's `xpc`. -/
def Group.sysArgs (g : Group) : List W64 :=
  (List.range 8).map (fun i => g.sregs.getD i 0)
    ++ [BitVec.ofNat 64 (worldId g.part g.ctx), BitVec.ofNat 64 g.tix, BitVec.ofNat 64 g.gix, g.runPc]

/-- `sys` (R87): the request goes to the control core, and the answer commits at the end of the run. -/
def execSys (e : Bool) (c : BitVec 7) (n : BitVec 8) (s : State) : Host.Outcome State Fault Refusal :=
  issue (.sys e c n) s fun g s =>
    deferred (.sys e c n) g s (.sys n.toNat g.sysArgs c) 1 fun s =>
      { s with interrupts := s.interrupts ++ [.sysCall g.part g.core g.uid g.runIdx s.tick n.toNat g.sysArgs] }

/-- `fpm` with the action of a class replaced (R91). -/
def setAction (fpm : W64) (k : Nat) (a : BitVec 2) : W64 :=
  (fpm &&& ~~~((3#64) <<< (2 * k + 32))) ||| ((a.setWidth 64) <<< (2 * k + 32))

/-- `evcfg` (R91). -/
def execEvcfg (e : Bool) (d : BitVec 7) (set : Bool) (action : BitVec 2) (cls : BitVec 3) (s : State) :
    Host.Outcome State Fault Refusal :=
  issue (.evcfg e d set action cls) s fun g s =>
    let h := g.writeS d (BitVec.ofNat 64 ((s.core g.core).window.getD cls.toNat 0))
    .seq s (if set then { h with fpm := setAction h.fpm cls.toNat action } else h) 1

end Sys2Proof.Machine
end

