-- ==== Sys2Proof/Machine/Service.lean ====
section
/-!
DEFINITION. The service calls of a partition (R287, R318): contexts, trapped groups, choreographies, conversations,
the channel key, measurement and tensor slots; and its invalidations (R292) and report ring (R299). DEDUCED: order and
codes of statuses (log 20, log 21, log 22).
-/

namespace Sys2Proof.Machine

open Sys2Proof

/-! ## Calls and their results -/

/-- How a call ends: with a status and a value, and with the state after it where it is not refused. -/
inductive CallEnd where
  | done (s : State) (v : W64)
  | pending (s : State) (v : W64)
  | refused (status : Int) (v : W64)
  /-- A line that the call reads has an error (R344). -/
  | poison (line : Nat)
deriving DecidableEq, Repr

/-- A status and a value in a0 and a1 of a control core (R287). -/
def State.svcRet (s : State) (part cc : Nat) (status : Int) (v : W64) : State :=
  { s with svc := (s.svc.filter fun r => !(r.part == part && r.cc == cc)) ++ [⟨part, cc, status, v⟩] }

/-- The state after a call. -/
def State.endCall (s : State) (c : Call) : CallEnd → State
  | .done s' v => s'.svcRet c.part c.cc 0 v
  | .pending s' v => s'.svcRet c.part c.cc (-5) v
  | .refused st v => s.svcRet c.part c.cc st v
  | .poison l => (s.lineError l none).svcRet c.part c.cc (-2) 0

/-- A call of a control core of a partition (R287). One made during retain-sleep entry returns after the wake (R327), and
another of the same control core before then is refused. -/
def State.service (s : State) (c : Call) (f : Partition → CallEnd) : State :=
  match s.part? c.part with
  | none => s
  | some p =>
    if !p.ccs.getLsbD c.cc then s
    else if s.pkg.heldCalls.any fun h => h.part == c.part && h.cc == c.cc then s.svcRet c.part c.cc (-4) 0
    else if s.launchesStop then { s with pkg := { s.pkg with heldCalls := s.pkg.heldCalls ++ [c] } }
    else s.endCall c (f p)

/-- An address argument whose bytes lie below BOUND, at a multiple of `align` (R287). -/
def Partition.argOk (p : Partition) (a : W64) (n align : Nat) : Bool := a.toNat % align == 0 && a.toNat + n ≤ p.bound

/-- Bytes of a partition read for a call: none where a line has an error. -/
def State.readPart (s : State) (p : Partition) (a : W64) (n : Nat) : List Byte ⊕ Nat :=
  match s.badLine (.hbm (p.base + a.toNat) 0 noWorld) n with
  | some l => .inr l
  | none => .inl (s.readAt (.hbm (p.base + a.toNat) 0 noWorld) n)

/-! ## Measurement (R312) -/

/-- The bytes of a digest, most significant first. -/
def digestBytes (d : BitVec 384) : List Byte := (leBytes 48 d.toNat).reverse

/-- A measurement register extended with the SHA-384 of some bytes. -/
def extendReg (m : BitVec 384) (bs : List Byte) : BitVec 384 :=
  Config.sha384 (digestBytes m ++ digestBytes (Config.sha384 bs))

/-- MREG `i` extended. -/
def State.measure (s : State) (i : Nat) (bs : List Byte) : State :=
  { s with pkg := { s.pkg with mreg := s.pkg.mreg.set i (extendReg (s.pkg.mreg.getD i 0) bs) } }

/-- PMREG `i` of a partition extended. -/
def State.measurePart (s : State) (part i : Nat) (bs : List Byte) : State :=
  s.updPart part fun p => { p with pmreg := p.pmreg.set i (extendReg (p.pmreg.getD i 0) bs) }

/-! ## Contexts -/

/-- CTX_CREATE. -/
def State.ctxCreate (s : State) (c : Call) (p : Partition) : CallEnd :=
  let n := c.a0.toNat
  if n = 0 || 127 < n then .refused (-2) 0
  else if p.hasCtx n then .refused (-4) 0
  else .done (s.setPart { p with contexts := p.contexts ++ [⟨n, none⟩] }) 0

/-- CTX_DESTROY (R294). -/
def State.ctxDestroy (s : State) (c : Call) (p : Partition) : CallEnd :=
  let n := c.a0.toNat
  if c.a1.toNat / 2 ≠ 0 then .refused (-1) 0
  else if n = 0 || !p.hasCtx n then .refused (-2) 0
  else if !c.a1.getLsbD 0 && p.launches.any fun l => l.ctx == n then .refused (-4) 0
  else .done ((s.terminateWorlds [worldId p.num n] (Why.plain 7)).updPart p.num fun p =>
    { p with contexts := p.contexts.filter fun x => x.id != n }) 0

/-- CTX_ROOT: for walks that begin after the return. -/
def State.ctxRoot (s : State) (c : Call) (p : Partition) : CallEnd :=
  let n := c.a0.toNat
  if !p.hasCtx n || c.a1.toNat % 4096 ≠ 0 || p.bound ≤ c.a1.toNat then .refused (-2) 0
  else .done (s.setPart { p with contexts := p.contexts.map fun x =>
    if x.id = n then { x with root := some c.a1.toNat } else x }) 0

/-! ## Trapped groups (R301) -/

/-- A replay run set up for a group whose launch is pre-empted: the group stays halted, and the instructions are issued when
it goes on (R260, R29). -/
def Group.replayHeld (g : Group) (tick : Nat) : Group :=
  let ps := g.replaySet
  if ps.isEmpty then { g.trapReturn with halt := .preempt, stat := .ready, pends := [], fails := [] }
  else
    let ops := (ps.map (g.trap.replayOf g.tag tick)).map fun p => { p with st := .withdrawn }
    let bar := replayBar ps
    { g.trapReturn with
      pends := ops, fails := [], runPc := g.trap.xpc, stat := .endRun, halt := .preempt, waited := false
      lastPc := if bar.isSome then g.trap.resume - 4 else g.trap.resume
      runEnd := match bar with | some id => .bar id | none => .replay
      runIdx := ((ops.map fun p => p.idx % 32 + 1).foldl max 0)
      cycles := g.cycles + (ps.map (g.trap.replayCost g.width.n)).sum }

/-- A trapped group that goes on, by replay or at its resume address, and stays halted while its launch is pre-empted. -/
def Group.untrapHeld (g : Group) (skip : Bool) (tick : Nat) : Group :=
  if skip then { g.trapReturn with halt := .preempt, stat := .ready, pends := [], fails := [] } else g.replayHeld tick

/-- A trapped group of a pre-empted launch that goes on. Replays that a fence holds back are left to its resume (R54, R83). -/
def State.untrapped (s : State) (g : Group) (skip : Bool) : Group :=
  if !skip && s.replayHeld g then { g with halt := .preempt, stat := .endRun, runEnd := .rtrap, pends := [], fails := [] }
  else g.untrapHeld skip s.tick

/-- GROUP_RESUME of a group whose rows are spilled: its image is taken up, changed and written back to its slot. -/
def State.untrapSpilled (s : State) (l : Launch) (g : Group) (k : Nat) (skip : Bool) : CallEnd :=
  match s.readArea l g k with
  | .waits => .refused (-4) 0
  | .poison x => .poison x
  | .bytes bs =>
    let h := s.loadGroup g bs
    match (if skip || s.replayHeld h then s else s.moveSent h.uid h.replaySet).spillGroup l (s.untrapped h skip) k with
    | some s' => .done (s'.settleBusy g.part) 0
    | none => .refused (-4) 0

/-- GROUP_RESUME: replay, skip or kill. -/
def State.groupResume (s : State) (c : Call) (p : Partition) : CallEnd :=
  if c.a1.toNat / 2 ^ 29 ≠ 0 || 3 < c.a2.toNat then .refused (-1) 0
  else
    let tix := bits c.a1.toNat 23 0
    let gix := bits c.a1.toNat 28 24
    match p.named c.a0.toNat with
    | none => .refused (-2) 0
    | some l => match s.groups.find? fun g =>
        g.part == p.num && g.lid == l.lid && g.tix == tix && g.gix == gix && g.halt == .trap && g.armed with
      | none => .refused (-2) 0
      | some g =>
        match c.a2.toNat with
        | 2 =>
          let s := match g.spilled with | some k => s.dropSlot g.part g.lid k | none => s
          .done ((s.exitGroup g).settleBusy g.part) 0
        | 3 => .refused (-2) 0
        | m =>
          match g.spilled with
          | some k => s.untrapSpilled l g k (m == 1)
          | none =>
            if l.preempted then
              let t := if m = 1 || s.replayHeld g then s else s.moveSent g.uid g.replaySet
              .done ((t.setGroup (s.untrapped g (m == 1))).settleBusy g.part) 0
            else
              let h := { g with halt := .no }
              .done (if m = 1 then s.setGroup (h.trapReturn.readyAt s.tick) else s.startReplay h) 0

/-! ## Choreographies (R203, R204, R303) -/

/-- A bit of an image. -/
def imgByte (bs : List Byte) (i : Nat) : Nat := (bs.getD i 0).toNat

/-- A choreography from its image (R204). -/
def Choreo.parse (num part : Nat) (bs : List Byte) : Choreo :=
  let h := leNat (bs.take 8)
  { num := num, part := part, orphan := false, np := (match bits h 19 18 with | 0 => 0 | n => n + 1), roles := bits h 17 16 + 1
    states := bits h 13 8 + 1, init := bits h 5 0, choice := BitVec.ofNat 16 (leNat ((bs.drop 8).take 2))
    deleg := (List.range 64).map fun st => bitAt (imgByte bs (0x40 + st)) 0
    entries := (List.range 4096).map fun i => BitVec.ofNat 16 (imgByte bs (0x80 + 2 * i) + 256 * imgByte bs (0x81 + 2 * i)) }

/-- The reserved bits of an image are 0. -/
def choreoClean (bs : List Byte) : Bool :=
  let h := leNat (bs.take 8)
  bits h 63 20 == 0 && bits h 15 14 == 0 && bits h 7 6 == 0 && ((bs.drop 10).take 54).all (· == 0)
    && ((List.range 64).all fun st => imgByte bs (0x40 + st) / 2 == 0)
    && (List.range 4096).all fun i => imgByte bs (0x81 + 2 * i) &&& 0x70 == 0 && imgByte bs (0x80 + 2 * i) / 64 == 0

/-- Every entry of a choreography, by state, role and kind. -/
def Choreo.all (c : Choreo) (p : Nat → Nat → Nat → BitVec 16 → Bool) : Bool :=
  (List.range 64).all fun st => (List.range 4).all fun r => (List.range 16).all fun k =>
    !entryValid (c.entry st r k) || p st r k (c.entry st r k)

/-- The parties but one, as a mask. -/
def partyMask (np r : Nat) : Nat := 2 ^ np - 1 - 2 ^ r

/-- The first reason for which an image is refused (R204), or none. -/
def Choreo.refusal (c : Choreo) (clean : Bool) : Option Nat :=
  if !clean || c.roles < c.np || c.states ≤ c.init || !c.all (fun st r _ _ => st < c.states && r < c.roles)
      || ((List.range 64).any fun st => c.states ≤ st && c.deleg.getD st false) then some 1
  else if !c.all (fun _ _ _ e => entryNext e < c.states) then some 2
  else if bits c.choice.toNat 15 12 ≠ 0 then some 3
  else if !c.all (fun _ r k _ => !(12 ≤ k && k ≤ 14) || r < c.np) then some 4
  else if !c.all (fun _ r k _ => k ≠ 15 || c.np ≤ r) then some 5
  else if !c.all (fun st r k e => !(12 ≤ k && k ≤ 14 && decide (r < c.np)) || (List.range c.np).all fun q =>
      entryValid (c.entry st q k) && entryNext (c.entry st q k) == entryNext e) then some 6
  else if !c.all (fun _ r k e => !(k == 12 || k == 13) || entryMask e == partyMask c.np r) then some 7
  else none

/-- CHOREO_LOAD: the image is copied (R303), and measured into MREG5 (R312). -/
def State.choreoLoad (s : State) (c : Call) (p : Partition) : CallEnd :=
  if !p.argOk c.a0 8320 64 then .refused (-2) 0
  else match s.readPart p c.a0 8320 with
    | .inr l => .poison l
    | .inl bs => match (Choreo.parse 0 p.num bs).refusal (choreoClean bs) with
      | some why => .refused (-6) (BitVec.ofNat 64 why)
      | none => match (List.range 256).find? fun n => !s.pkg.choreos.any fun k => k.num == n with
        | none => .refused (-3) 0
        | some n =>
          .done (({ s with pkg := { s.pkg with choreos := s.pkg.choreos ++ [Choreo.parse n p.num bs] } } : State).measure 5 bs)
            (BitVec.ofNat 64 n)

/-- A conversation, or a pending set of one, uses a choreography. -/
def State.choreoUsed (s : State) (n : Nat) : Bool :=
  (s.pkg.convs.any fun c => !c.destroyed && c.choreo == n) || s.pkg.pendConvs.any fun c => leNat (c.desc.take 1) == n

/-- Choreographies whose partition is gone unloaded once unused (R288). -/
def State.dropChoreos (s : State) : State :=
  { s with pkg := { s.pkg with choreos := s.pkg.choreos.filter fun k => !k.orphan || s.choreoUsed k.num } }

/-- CHOREO_UNLOAD. -/
def State.choreoUnload (s : State) (c : Call) (p : Partition) : CallEnd :=
  match s.pkg.choreos.find? fun k => k.num == c.a0.toNat with
  | none => .refused (-2) 0
  | some k =>
    if s.choreoUsed k.num then .refused (-4) 0
    else if k.part ≠ p.num || k.orphan then .refused (-6) 0
    else .done { s with pkg := { s.pkg with choreos := s.pkg.choreos.filter fun x => x.num != k.num } } 0

/-! ## Conversations (R304 to R306) -/

/-- Role `r` of a description is used; its world. -/
def descRole (bs : List Byte) (r : Nat) : Bool × Nat := (bitAt (word64 bs (1 + r)) 63, bits (word64 bs (1 + r)) 11 0)

/-- The queue capacities of party `r` of a description. -/
def descCap (bs : List Byte) (r : Nat) : Nat × Nat := (bits (word64 bs (5 + r)) 31 0, bits (word64 bs (5 + r)) 63 32)

/-- The permit entries of a description: device and world. -/
def descPermits (bs : List Byte) : List (Nat × Nat) :=
  ((List.range 8).filter fun j => bitAt (word64 bs (9 + j)) 63).map fun j =>
    (bits (word64 bs (9 + j)) 27 12, bits (word64 bs (9 + j)) 11 0)

/-- A description is valid for a choreography (R304, R305). -/
def descOk (bs : List Byte) (k : Choreo) : Bool :=
  bits (word64 bs 0) 63 8 == 0
    && ((List.range 4).all fun r => bits (word64 bs (1 + r)) 62 12 == 0 && (descRole bs r).1 == decide (r < k.roles)
      && (let (a, b) := descCap bs r
        if r < k.np then 4 ≤ a && a ≤ 65536 && 4 ≤ b && b ≤ 65536 else a == 0 && b == 0))
    && ((List.range 8).all fun j => bits (word64 bs (9 + j)) 62 28 == 0)
    && ((descPermits bs).all fun x => x.1 == Config.ownDevice)
    && (bs.drop 0x90).all (· == 0)

/-- The mask of a call names a role, and only roles that worlds of the partition hold. -/
def claimOk (bs : List Byte) (k : Choreo) (part m : Nat) : Bool :=
  m ≠ 0 && m < 2 ^ k.roles && (List.range 4).all fun r => !bitAt m r || (descRole bs r).2 / 128 == part

/-- A role register of some group is bound to a conversation number (R306). -/
def State.convBound (s : State) (n : Nat) : Bool :=
  s.groups.any fun g => g.bound.any fun b => b == some n

/-- A conversation number is in use. -/
def State.convTaken (s : State) (n : Nat) : Bool :=
  (s.pkg.convs.any fun c => c.num == n && (!c.destroyed || s.convBound n)) || s.pkg.pendConvs.any fun c => c.num == n

/-- The queue capacities that conversations and pending sets hold in the triple store (R305). -/
def State.storeUsed (s : State) : Nat × Nat :=
  let cs := (s.pkg.convs.filter fun c => !c.destroyed).flatMap (·.parties)
  ((cs.map (·.capA)).sum + (s.pkg.pendConvs.map (·.capA)).sum, (cs.map (·.capB)).sum + (s.pkg.pendConvs.map (·.capB)).sum)

/-- A conversation as the call that completes its set creates it. -/
def Conv.create (num : Nat) (bs : List Byte) (k : Choreo) (claimed : List (Nat × BitVec 32)) : Conv where
  num := num
  aborted := false
  destroyed := false
  choreo := k.num
  state := k.init
  roles := (List.range 4).map fun r =>
    ⟨(descRole bs r).1, (descRole bs r).2, (match claimed.find? fun x => x.1 == r with | some x => x.2 | none => 0), [], [], []⟩
  parties := (List.range k.np).map fun r => ⟨[], [], 0, 0, none, none, none, (descCap bs r).1, (descCap bs r).2, []⟩
  exchanges := []
  nextEx := 0
  permits := descPermits bs

/-- Roles claimed in a set whose number and capacities are reserved: pending, or created. -/
def State.claim (s : State) (part : Nat) (k : Choreo) (x : PendConv) (m : Nat) (ticket : BitVec 32) : CallEnd :=
  let mine := (List.range 4).filter (bitAt m)
  if mine.any fun r => x.claimed.any fun y => y.1 == r then .refused (-4) 0
  else
    let x := { x with claimed := x.claimed ++ mine.map fun r => (r, ticket) }
    let rest := s.pkg.pendConvs.filter fun y => y.num != x.num
    let v := BitVec.ofNat 64 x.num
    if x.claimed.length < k.roles then .pending { s with pkg := { s.pkg with pendConvs := rest ++ [x] } } v
    else
      let convs := (s.pkg.convs.filter fun c => c.num != x.num) ++ [Conv.create x.num x.desc k x.claimed]
      .done (({ s with pkg := { s.pkg with pendConvs := rest, convs := convs } } : State).measurePart part 2 x.desc) v

/-- CONV_CREATE (R305). -/
def State.convCreate (s : State) (c : Call) (p : Partition) : CallEnd :=
  if c.a1.toNat / 2 ^ 32 ≠ 0 || c.a2.toNat / 16 ≠ 0 then .refused (-1) 0
  else if !p.argOk c.a0 256 64 then .refused (-2) 0
  else match s.readPart p c.a0 256 with
    | .inr l => .poison l
    | .inl bs => match s.choreo? (leNat (bs.take 1)) with
      | none => .refused (-6) 0
      | some k =>
        if !descOk bs k || !claimOk bs k p.num c.a2.toNat then .refused (-6) 0
        else match s.pkg.pendConvs.find? fun x => x.desc == bs with
          | some x => s.claim p.num k x c.a2.toNat (c.a1.setWidth 32)
          | none =>
            let capA := ((List.range k.np).map fun r => (descCap bs r).1).sum
            let capB := ((List.range k.np).map fun r => (descCap bs r).2).sum
            let used := s.storeUsed
            match (List.range 4096).find? fun n => !s.convTaken n with
            | none => .refused (-3) 0
            | some n =>
              if 2 ^ 20 < used.1 + capA || 2 ^ 20 < used.2 + capB then .refused (-3) 0
              else s.claim p.num k ⟨n, bs, [], capA, capB⟩ c.a2.toNat (c.a1.setWidth 32)

/-- A pending set dropped: its number and its capacities are free again (R305). -/
def State.dropPending (s : State) (n : Nat) : State :=
  ({ s with pkg := { s.pkg with pendConvs := s.pkg.pendConvs.filter fun x => x.num != n } } : State).dropChoreos

/-- CONV_DESTROY (R306): aborted as by `cabort`, with cause 7, and released. -/
def State.convDestroy (s : State) (c : Call) (p : Partition) : CallEnd :=
  match s.conv? c.a0.toNat with
  | none => .refused (-2) 0
  | some x =>
    if x.destroyed then .refused (-2) 0
    else match x.worlds.find? fun w => w / 128 == p.num with
      | none => .refused (-6) 0
      | some w =>
        let s := if x.aborted then s else s.abortBy x.num 7 w
        .done ({ s with pkg := { s.pkg with convs := s.pkg.convs.map fun y =>
          if y.num == x.num then { y with destroyed := true } else y } } : State).dropChoreos 0

/-! ## The channel key, measurement and tensor slots (R318, R321, R324, R325) -/

/-- A channel changed: 0 is the infrastructure's, k that of partition k − 1. -/
def State.updChannel (s : State) (k : Nat) (f : Channel → Channel) : State :=
  match s.pkg.channels[k]? with
  | some x => { s with pkg := { s.pkg with channels := s.pkg.channels.set k (f x) } }
  | none => s

/-- CHAN_KEY. The source bytes of the record are zeroed before the return. -/
def State.chanKey (s : State) (c : Call) (p : Partition) : CallEnd :=
  let log := c.a2.toNat
  if log < 4 || 12 < log || !p.argOk c.a0 36 1 || !p.argOk c.a1 1 4096 then .refused (-2) 0
  else match s.readPart p c.a0 36 with
    | .inr l => .poison l
    | .inl bs =>
      let s := s.updChannel (p.num + 1) fun x => { x with
        key := bs.take 32, salt := bs.drop 32, keyed := true, next := 1, expired := false, inboxBase := c.a1, inboxLog := log }
      .done (s.writePart p c.a0.toNat (List.replicate 36 0)) 0

/-- MEAS_EXTEND. -/
def State.measExtend (s : State) (c : Call) (p : Partition) : CallEnd :=
  if !p.argOk c.a0 48 1 then .refused (-2) 0
  else match s.readPart p c.a0 48 with
    | .inr l => .poison l
    | .inl bs => .done (s.measurePart p.num 3 bs) 0

/-- The lowest free tensor slot. -/
def Package.freeTensor (k : Package) : Option Nat :=
  ((List.range 16383).map (· + 1)).find? fun n => !k.tensors.any fun t => t.slot == n

/-- TENSOR_OPEN (R324): a fresh ID, version 0 and two fresh keys. Once the IDs are used up no slot is opened, since none is to
repeat (log 22). -/
def State.tensorOpen (s : State) (_ : Call) (p : Partition) : CallEnd :=
  match s.pkg.freeTensor with
  | none => .refused (-3) 0
  | some n =>
    let k := s.pkg
    if 0xFFFFFFFF ≤ k.tensorCount then .refused (-3) 0 else
    let t : Tensor := ⟨n, p.num, BitVec.ofNat 32 (k.tensorCount + 1), 0, Config.randomKey 0 k.keyDraws,
      Config.randomKey 0 (k.keyDraws + 1)⟩
    .done { s with pkg := { k with
      tensors := k.tensors ++ [t], tensorCount := k.tensorCount + 1, keyDraws := k.keyDraws + 2 } } (BitVec.ofNat 64 n)

/-- The tensor slot of a partition that a call names. -/
def State.tensorOf (s : State) (c : Call) (p : Partition) : Option Tensor :=
  s.pkg.tensors.find? fun t => t.slot == c.a0.toNat && t.part == p.num

/-- The cached lines of a slot written back under its present entry, and dropped (R325, step 1). -/
def State.castSlot (s : State) (slot : Nat) : State :=
  s.castLines fun l => l.slot == slot

/-- TENSOR_BUMP (R325). -/
def State.tensorBump (s : State) (c : Call) (p : Partition) : CallEnd :=
  match s.tensorOf c p with
  | none => .refused (-2) 0
  | some t =>
    if t.version = 0xFFFFFFFF then .refused (-3) 0
    else
      let s := s.castSlot t.slot
      .done { s with pkg := { s.pkg with tensors := s.pkg.tensors.map fun x =>
        if x.slot == t.slot then { x with version := x.version + 1 } else x } } 0

/-- What a search of page tables meets first: a leaf that names the slot, or a line with an error (R344). -/
inductive Found where
  | leaf
  | poison (line : Nat)
deriving DecidableEq, Repr

/-- The first valid leaf that names a slot in a table at some depth, or in one below it, unless a line with an error stands
before it; the sizes of the levels left are given. -/
def State.tableNames (s : State) (p : Partition) (slot : Nat) : List Nat → Nat → Option Found
  | [], _ => none
  | n :: ns, table => if p.bound ≤ table then none else (List.range n).findSome? fun i =>
    let a := p.base + table + 8 * i
    let e := leNat (s.hbm.readN a 8)
    if !s.lineReads (lineOf a) 0 then some (.poison (lineOf a))
    else if !bitAt e 0 then none
    else if bitAt e 6 then (if bits e 63 50 = slot then some .leaf else none)
    else State.tableNames s p slot ns (pteAddr e)

/-- A leaf of a partition's page tables names a slot (R325). -/
def State.leafNames (s : State) (p : Partition) (slot : Nat) : Option Found :=
  p.contexts.findSome? fun c => c.root.bind fun r => s.tableNames p slot [512, 512, 512, 32] r

/-- TENSOR_CLOSE (R325). -/
def State.tensorClose (s : State) (c : Call) (p : Partition) : CallEnd :=
  match s.tensorOf c p with
  | none => .refused (-2) 0
  | some t => match s.leafNames p t.slot with
    | some (.poison l) => .poison l
    | some .leaf => .refused (-4) 0
    | none => .done { s with pkg := { s.pkg with tensors := s.pkg.tensors.filter fun x => x.slot != t.slot } } 0

/-! ## Calls of any function number -/

/-- A call as its function number says (R287, Table 3; R318, Table 9), as one that was made during retain-sleep entry is
performed after the wake (R327). -/
def State.replayCall (s : State) (c : Call) : State :=
  s.service c fun p => match c.fn with
    | 0 => s.ctxCreate c p
    | 1 => s.ctxDestroy c p
    | 2 => s.ctxRoot c p
    | 3 => s.groupResume c p
    | 4 => s.choreoLoad c p
    | 5 => s.choreoUnload c p
    | 6 => s.convCreate c p
    | 7 => s.convDestroy c p
    | 8 => s.chanKey c p
    | 9 => s.measExtend c p
    | 10 => s.tensorOpen c p
    | 11 => if c.a1 = 0 then s.tensorBump c p else if c.a1 = 1 then s.tensorClose c p else .refused (-1) 0
    | _ => .refused (-1) 0

/-! ## Invalidations (R292) -/

/-- A write to TLBCMD: discarded while an invalidation is in effect. -/
def State.invalidate (s : State) (part scope ctx : Nat) : State :=
  s.updPart part fun p => if p.tlbBusy then p else { p with tlbBusy := true, tlbCmd := (scope, ctx, p.tlbva) }

/-- The low bit of the index of a level (R290). -/
def levelLow (level : Nat) : Nat := match walkLevels.find? fun l => l.1 == level with | some l => l.2.2 | none => 16

/-- A copy lies in the scope of an invalidation: that of a page takes in the entries of every level that lead to it. -/
def TlbEntry.inScope (t : TlbEntry) (part scope ctx : Nat) (va : W64) : Bool :=
  t.part == part && (match scope with
    | 0 => t.ctx == ctx && t.vpage == bits va.toNat 47 (levelLow t.level)
    | 1 => t.ctx == ctx
    | _ => true)

/-- The scrubber takes up the first granule of its queue (R302). -/
def Package.scrubNext (k : Package) : Package :=
  match k.scrubQueue with
  | [] => k
  | i :: _ => { k with grans := k.grans.set i .scrubbing }

/-- Granules released to the scrub queue, in order (R302); a retired one stays retired (R336). -/
def State.queueScrub (s : State) (l : List Nat) : State :=
  { s with pkg := { s.pkg with
      grans := s.pkg.grans.mapIdx fun i g => if l.contains i && g != Gran.retired then .queued else g
      scrubQueue := s.pkg.scrubQueue ++ l.filter fun i => s.pkg.grans.getD i .retired != Gran.retired }.scrubNext }

/-- The granules of a partition above its bound released to the scrub queue (R288, R302). -/
def State.releaseAbove (s : State) (p : Partition) : State :=
  let mine := (List.range 512).filter fun i => s.pkg.grans.getD i .retired == .held p.num && p.baseGran + p.nGran ≤ i
  s.queueScrub mine

/-- An invalidation completes, and BUSY falls: the copies in its scope are dropped, and the accesses that were translated
through one of them have been performed (R292). -/
def State.invalidated (s : State) (part : Nat) : State :=
  match s.part? part with
  | none => s
  | some p =>
    if !p.tlbBusy then s
    else
      let (scope, ctx, va) := p.tlbCmd
      let s := s.performAll
      let s : State := { s with tlb := s.tlb.filter fun t => !t.inScope part scope ctx va }
      let p := { p with tlbBusy := false }
      (s.setPart p).releaseAbove p

/-! ## The report ring (R299) -/

/-- Every entry that the ring has room for written, at most the reserve and the count lost. -/
def State.ringCatchUp (s : State) (part : Nat) : State := s.ringFlush part 1026

/-- RINGBASE or RINGLOG written. -/
def State.ringConfig (s : State) (part : Nat) (isBase : Bool) (v : W64) : State :=
  (s.updPart part fun p => if isBase then { p with ringBase := BitVec.ofNat 64 (v.toNat / 4096 * 4096) }
    else { p with ringLog := v.toNat % 32 }).ringCatchUp part

/-- RINGTAIL written: entries are consumed. -/
def State.ringTailWrite (s : State) (part : Nat) (v : W64) : State :=
  (s.updPart part fun p => { p with ringTail := v.setWidth 32 }).ringCatchUp part

/-! ## Steps -/

/-- `CTX_CREATE` (R287). -/
def execCtxCreate (part cc : Nat) (a0 : BitVec 64) (s : State) : Host.Outcome State Fault Refusal :=
  let c : Call := ⟨part, cc, 0, a0, 0, 0⟩
  .next (s.service c (s.ctxCreate c))

/-- `CTX_DESTROY` (R294). -/
def execCtxDestroy (part cc : Nat) (a0 a1 : BitVec 64) (s : State) : Host.Outcome State Fault Refusal :=
  let c : Call := ⟨part, cc, 1, a0, a1, 0⟩
  .next (s.service c (s.ctxDestroy c))

/-- `CTX_ROOT` (R287). -/
def execCtxRoot (part cc : Nat) (a0 a1 : BitVec 64) (s : State) : Host.Outcome State Fault Refusal :=
  let c : Call := ⟨part, cc, 2, a0, a1, 0⟩
  .next (s.service c (s.ctxRoot c))

/-- `GROUP_RESUME` (R287, R301). -/
def execGroupResume (part cc : Nat) (a0 a1 a2 : BitVec 64) (s : State) : Host.Outcome State Fault Refusal :=
  let c : Call := ⟨part, cc, 3, a0, a1, a2⟩
  .next (s.service c (s.groupResume c))

/-- `CHOREO_LOAD` (R204, R303). -/
def execChoreoLoad (part cc : Nat) (a0 : BitVec 64) (s : State) : Host.Outcome State Fault Refusal :=
  let c : Call := ⟨part, cc, 4, a0, 0, 0⟩
  .next (s.service c (s.choreoLoad c))

/-- `CHOREO_UNLOAD` (R287). -/
def execChoreoUnload (part cc : Nat) (a0 : BitVec 64) (s : State) : Host.Outcome State Fault Refusal :=
  let c : Call := ⟨part, cc, 5, a0, 0, 0⟩
  .next (s.service c (s.choreoUnload c))

/-- `CONV_CREATE` (R305). -/
def execConvCreate (part cc : Nat) (a0 a1 a2 : BitVec 64) (s : State) : Host.Outcome State Fault Refusal :=
  let c : Call := ⟨part, cc, 6, a0, a1, a2⟩
  .next (s.service c (s.convCreate c))

/-- `CONV_CREATE_TIMEOUT` (R305). -/
def execConvCreateTimeout (conv : Nat) (s : State) : Host.Outcome State Fault Refusal := .next (s.dropPending conv)

/-- `CONV_DESTROY` (R306). -/
def execConvDestroy (part cc : Nat) (a0 : BitVec 64) (s : State) : Host.Outcome State Fault Refusal :=
  let c : Call := ⟨part, cc, 7, a0, 0, 0⟩
  .next (s.service c (s.convDestroy c))

/-- `CHAN_KEY` (R318). -/
def execChanKey (part cc : Nat) (a0 a1 a2 : BitVec 64) (s : State) : Host.Outcome State Fault Refusal :=
  let c : Call := ⟨part, cc, 8, a0, a1, a2⟩
  .next (s.service c (s.chanKey c))

/-- `MEAS_EXTEND` (R318). -/
def execMeasExtend (part cc : Nat) (a0 : BitVec 64) (s : State) : Host.Outcome State Fault Refusal :=
  let c : Call := ⟨part, cc, 9, a0, 0, 0⟩
  .next (s.service c (s.measExtend c))

/-- `TENSOR_OPEN` (R324). -/
def execTensorOpen (part cc : Nat) (s : State) : Host.Outcome State Fault Refusal :=
  let c : Call := ⟨part, cc, 10, 0, 0, 0⟩
  .next (s.service c (s.tensorOpen c))

/-- `TENSOR_BUMP` (R325). -/
def execTensorBump (part cc : Nat) (a0 : BitVec 64) (s : State) : Host.Outcome State Fault Refusal :=
  let c : Call := ⟨part, cc, 11, a0, 0, 0⟩
  .next (s.service c (s.tensorBump c))

/-- `TENSOR_CLOSE` (R325). -/
def execTensorClose (part cc : Nat) (a0 : BitVec 64) (s : State) : Host.Outcome State Fault Refusal :=
  let c : Call := ⟨part, cc, 11, a0, 1, 0⟩
  .next (s.service c (s.tensorClose c))

/-- `TLB_INVALIDATE_PAGE` (R292). -/
def execTlbInvalidatePage (part ctx : Nat) (s : State) : Host.Outcome State Fault Refusal := .next (s.invalidate part 0 ctx)

/-- `TLB_INVALIDATE_CONTEXT` (R292). -/
def execTlbInvalidateContext (part ctx : Nat) (s : State) : Host.Outcome State Fault Refusal :=
  .next (s.invalidate part 1 ctx)

/-- `TLB_INVALIDATE_PARTITION` (R292). -/
def execTlbInvalidatePartition (part : Nat) (s : State) : Host.Outcome State Fault Refusal := .next (s.invalidate part 2 0)

/-- `TLB_INVALIDATE_DONE` (R292). -/
def execTlbInvalidateDone (part : Nat) (s : State) : Host.Outcome State Fault Refusal := .next (s.invalidated part)

/-- `RING_CONFIG_WRITE` (R299). -/
def execRingConfigWrite (part : Nat) (isBase : Bool) (v : BitVec 64) (s : State) : Host.Outcome State Fault Refusal :=
  .next (s.ringConfig part isBase v)

/-- `RINGTAIL_WRITE` (R299). -/
def execRingtailWrite (part : Nat) (v : BitVec 64) (s : State) : Host.Outcome State Fault Refusal :=
  .next (s.ringTailWrite part v)

end Sys2Proof.Machine
end

