-- ==== Sys2Proof/Machine/Manage.lean ====
section
/-!
DEFINITION. Management commands (R288, R326, R336, R340): partitions and what they hold, retain-sleep entry, granules
and the scrubber (R302), and firmware (R311, R340). DEDUCED: order and codes of replies (log 23, log 24).
-/

namespace Sys2Proof.Machine

open Sys2Proof

/-! ## Commands -/

/-- What is replied to a command. -/
def State.replied (s : State) (r : Reply) : State := { s with pkg := { s.pkg with reply := r } }

/-- The channel takes management commands: power is on, and an image was accepted (R310). -/
def State.takesCommands (s : State) : Bool := s.pkg.powered && s.pkg.stage ≠ 3

/-- An accepted command measured into MREG6 (R312). -/
def State.measureCommand (s : State) (cmd : Nat) (args : List Nat) : State := s.measure 6 (Config.commandRecord cmd args)

/-- A command that completes at once. -/
def State.commandDone (s : State) (cmd : Nat) (args : List Nat) : State := (s.measureCommand cmd args).replied .done

/-- The number and the arguments of a command on a partition, as they are measured. -/
def WaitCmd.record (part : Nat) : WaitCmd → Nat × List Nat
  | .create clus ccs gran ports image => (0, [clus.toNat, ccs.toNat, gran, ports.toNat] ++ image.map (·.toNat))
  | .destroy => (1, [part])
  | .coreAdd clus => (2, [part, clus.toNat])
  | .coreRemove clus force => (3, [part, clus.toNat, b2n force])
  | .grow n => (4, [part, n])
  | .shrink n => (5, [part, n])
  | .portSet ports => (6, [part, ports.toNat])

/-- What becomes of a command now. -/
inductive Verdict where
  | refused
  | waits (s : State)
  | go (s : State)
deriving DecidableEq, Repr

/-! ## What partitions hold -/

/-- The clusters that partitions hold. -/
def State.clusHeld (s : State) : BitVec 32 := s.parts.foldl (fun m p => m ||| p.clus) 0

/-- The control cores that partitions hold. -/
def State.ccsHeld (s : State) : BitVec 32 := s.parts.foldl (fun m p => m ||| p.ccs) 0

/-- A port of a mask is held by a partition other than one. -/
def State.portsHeld (s : State) (ports : BitVec 32) (except : Nat) : Bool :=
  (List.range 32).any fun k => ports.getLsbD k && (match s.pkg.ports[k]? with
    | some p => p.owner ≠ 31 && p.owner ≠ except
    | none => false)

/-- The owner of the ports of a mask set. -/
def State.ownPorts (s : State) (ports : BitVec 32) (owner : Nat) : State :=
  let ps := s.pkg.ports.mapIdx fun k p => if ports.getLsbD k then { p with owner := owner } else p
  { s with pkg := { s.pkg with ports := ps } }

/-- The cores of clusters. -/
def coresOf (clus : BitVec 32) : List Nat := (List.range 256).filter fun c => clus.getLsbD (c / 8)

/-- What cores kept of their own dropped: a partition starts on them anew, or leaves them. -/
def State.freshCores (s : State) (clus : BitVec 32) : State :=
  { s with cores := s.cores.filter fun c => !(coresOf clus).contains c.id }

/-- The granules from `i` on, `n` of them. -/
def granRange (i n : Nat) : List Nat := (List.range n).map (i + ·)

/-- Every granule of a range is in a state. -/
def Package.gransAll (k : Package) (i n : Nat) (p : Gran → Bool) : Bool :=
  (granRange i n).all fun j => match k.grans[j]? with | some g => p g | none => false

/-- Granules held. -/
def State.holdGrans (s : State) (l : List Nat) (owner : Nat) : State :=
  let gs := s.pkg.grans.mapIdx fun i g => if l.contains i then .held owner else g
  { s with pkg := { s.pkg with grans := gs } }

/-! ## Creation and destruction -/

/-- The lowest contiguous range of clean granules. -/
def Package.cleanRange (k : Package) (n : Nat) : Option Nat :=
  (List.range 513).find? fun i => i + n ≤ 512 && k.gransAll i n (· == .clean)

/-- Loermey loads the system image of a partition into its HBM (R288). -/
def State.loadImage (s : State) (p : Partition) : State :=
  let off := Config.imageAt p.nGran % (p.bound + 1)
  s.writePart p off (p.image.take (p.bound - off))

/-- A partition created (R288): what it holds, its image loaded and measured (R312), its function enabled (R313). -/
def State.created (s : State) (num : Nat) (clus ccs : BitVec 32) (base gran : Nat) (ports : BitVec 32) (image : List Byte) :
    State :=
  let p : Partition := { Partition.fresh num clus ccs ports base gran with image := image }
  let s := ((s.holdGrans (granRange base gran) num).ownPorts ports num).freshCores clus
  let k := s.pkg
  let s : State := { s with
    parts := s.parts ++ [p]
    pkg := { k with
      vfEnabled := k.vfEnabled.set (num + 1) true
      mailboxes := k.mailboxes.set (num + 1) Mailbox.reset, channels := k.channels.set (num + 1) Channel.reset } }
  ((s.loadImage p).measurePart num 0 image).measurePart num 1
    (Config.commandRecord 0 [clus.toNat, ccs.toNat, gran, ports.toNat])

/-- What becomes of a PART_CREATE (R288, R309): a partition has at least one cluster and one control core (R1). In stage 0, that
of a wake among them, no cluster is available, and it waits (R308). DESIGN CHOICE (log 23): with a granule count of 0 the partition
is created all the same, and its BOUND is 0. -/
def State.judgeCreate (s : State) (clus ccs : BitVec 32) (gran : Nat) (ports : BitVec 32) (image : List Byte) : Verdict :=
  match (List.range 24).find? fun n => (s.part? n).isNone with
  | none => .refused
  | some num =>
    if ccs = 0 || clus = 0 || clus &&& s.clusHeld ≠ 0 || ccs &&& s.ccsHeld ≠ 0 || s.portsHeld ports 32 then .refused
    else match s.pkg.cleanRange gran with
      | none => .waits s
      | some base => if clus &&& ~~~s.pkg.clavail ≠ 0 then .waits s else .go (s.created num clus ccs base gran ports image)

/-- The worlds of a partition that hold a role in a conversation. -/
def State.roleWorlds (s : State) (part : Nat) : List Nat :=
  (s.pkg.convs.flatMap Conv.worlds).filter fun w => w / 128 == part

/-- Every context of a partition terminated, and the conversations that hold its worlds aborted (R288): once, since a partition
has context 0 before. -/
def State.contextsEnded (s : State) (p : Partition) : State :=
  if p.contexts.isEmpty then s
  else (s.terminateWorlds (p.worlds ++ s.roleWorlds p.num).dedup (Why.plain 8)).closeLists.updPart p.num fun p => { p with contexts := [] }

/-- Contexts of a partition are terminating: a list of theirs is not written yet (R288, R297). -/
def State.partEnding (s : State) (part : Nat) : Bool := s.openLists.any fun o => o.world / 128 == part

/-- A partition destroyed (R288), its contexts terminated before: everything it held is cleared and free; its choreographies are
unloaded once they are unused. -/
def State.destroyed (s : State) (p : Partition) : State :=
  let mine := (List.range 512).filter fun i => s.pkg.grans.getD i .retired == .held p.num
  let k := s.pkg
  let s : State := { s with
    parts := s.parts.filter fun q => q.num != p.num
    tlb := s.tlb.filter fun t => t.part != p.num
    svc := s.svc.filter fun r => r.part != p.num
    pkg := { k with
      vfEnabled := k.vfEnabled.set (p.num + 1) false, heldCalls := k.heldCalls.filter fun c => c.part != p.num
      mailboxes := k.mailboxes.set (p.num + 1) Mailbox.reset, channels := k.channels.set (p.num + 1) Channel.reset
      tensors := k.tensors.filter fun t => t.part != p.num
      choreos := k.choreos.map fun c => if c.part = p.num then { c with orphan := true } else c } }
  (((s.freshCores p.clus).ownPorts p.ports 31).queueScrub mine).dropChoreos

/-! ## Cores (R266) -/

/-- A launch has a team on one of some cores, or a spilled image that must return to one. -/
def State.standsOn (s : State) (part lid : Nat) (cores : List Nat) : Bool :=
  s.teams.any fun t => t.part == part && t.lid == lid && t.cores.any cores.contains

/-- A cooperative launch holds up the removal of cores (Table 6): it is resident on them, or, not placed yet, it fits with them
and does not without them (R252, BADWHY 8). -/
def State.coopOn (s : State) (p : Partition) (l : Launch) : Bool :=
  l.record.coop && (s.standsOn p.num l.lid p.removing
    || (l.queued && Partition.coopFits { p with removing := [] } l.record && !p.coopFits l.record))

/-- A forced removal ends the launches that stand in its way (Table 6), each of their groups as R262 kills it. -/
def State.forceOff (s : State) (part : Nat) : State :=
  match s.part? part with
  | none => s
  | some p => p.launches.foldl (fun s l =>
      if l.ending.isSome then s
      else if s.coopOn p l then s.endLaunch part l.lid 6
      else if s.standsOn part l.lid p.removing then s.endLaunch part l.lid 5
      else s) s

/-- The cores being removed hold nothing any more. -/
def State.removalDue (s : State) (p : Partition) : Bool :=
  !(s.teams.any fun t => t.part == p.num && t.cores.any p.removing.contains) && !p.launches.any (s.coopOn p)

/-- The cores of a mask leave a partition, and cooperative launches that still stand in a queue are to be checked anew when
they reach its head (R266). -/
def State.coresGone (s : State) (part : Nat) (clus : BitVec 32) : State :=
  (s.updPart part fun p =>
    let p := { p with
      clus := p.clus &&& ~~~clus, removing := []
      launches := p.launches.map fun (l : Launch) => if l.record.coop && l.queued then { l with recheck := true } else l }
    { p with resvcore := BitVec.ofNat 256 (((List.range 256).filter fun c =>
      p.holdsCore c && p.resvcore.getLsbD c).map fun c => 2 ^ c).sum }).freshCores clus

/-- What becomes of a CORE_REMOVE: placement stops on the cores, a forced one ends what is there. -/
def State.judgeRemove (s : State) (p : Partition) (clus : BitVec 32) (force : Bool) : Verdict :=
  let m := clus &&& p.clus
  if p.clus &&& ~~~m = 0 then .refused
  else
    let s := s.setPart { p with removing := coresOf m }
    let s := if force then s.forceOff p.num else s
    match s.part? p.num with
    | none => .refused
    | some q => if s.removalDue q then .go (s.coresGone p.num m) else .waits s

/-! ## Commands on a partition -/

/-- What becomes of a command on a partition (R288, Table 4). -/
def State.judge (s : State) (p : Partition) : WaitCmd → Verdict
  | .create _ _ _ _ _ => .refused
  | .destroy =>
    let t := s.contextsEnded p
    if t.partEnding p.num then .waits t else .go (t.destroyed p)
  | .coreAdd clus =>
    if clus &&& s.clusHeld ≠ 0 then .refused
    else if clus &&& ~~~s.pkg.clavail ≠ 0 then .waits s
    else .go ((s.setPart { p with clus := p.clus ||| clus }).freshCores clus)
  | .coreRemove clus force => s.judgeRemove p clus force
  | .grow n =>
    let top := p.baseGran + p.nGran
    if !s.pkg.gransAll top n (fun g => g == .clean || g == .queued || g == .scrubbing) then .refused
    else if !s.pkg.gransAll top n (· == .clean) then .waits s
    else .go (((s.holdGrans (granRange top n) p.num).setPart { p with nGran := p.nGran + n }).ringCatchUp p.num)
  | .shrink n =>
    if p.nGran ≤ n then .refused
    else if p.tlbBusy && p.tlbCmd.1 == 2 then .waits s
    else .go (s.setPart { p with nGran := p.nGran - n, tlbBusy := true, tlbCmd := (2, 0, 0) })
  | .portSet ports =>
    let gone := p.ports &&& ~~~ports
    if s.portsHeld ports p.num then .refused
    else if s.fabric.reqs.any fun r => r.part == p.num && r.port < 32 && gone.getLsbD r.port then .waits s
    else .go (((s.ownPorts gone 31).ownPorts ports p.num).setPart { p with ports := ports })

/-- The first waiting command of a partition dropped. -/
def State.dropHead (s : State) (part : Nat) : State := s.updPart part fun p => { p with waiting := p.waiting.tail }

/-- The first waiting command of a partition marked as accepted. -/
def State.markHead (s : State) (part : Nat) : State :=
  s.updPart part fun p => match p.waiting with
    | (c, _) :: rest => { p with waiting := (c, true) :: rest }
    | [] => p

/-- The first waiting command of a partition proceeds if it can. -/
def State.headCommand (s : State) (part : Nat) : State :=
  match s.part? part with
  | none => s
  | some p => match p.waiting with
    | [] => s
    | (c, accepted) :: _ =>
      let (cmd, args) := c.record part
      let measured := fun (s : State) => if accepted then s else s.measureCommand cmd args
      match s.judge p c with
      | .refused => (s.dropHead part).replied .refused
      | .waits s' => ((measured s').markHead part).replied .waits
      | .go s' => ((measured s').dropHead part).replied .done

/-- A saved state whose partition has one more command to wait for. -/
def SleepImage.addWaiting (x : SleepImage) (part : Nat) (c : WaitCmd) : SleepImage :=
  { x with parts := x.parts.map fun p => if p.num == part then { p with waiting := p.waiting ++ [(c, false)] } else p }

/-- A command on a partition arrives: behind one that waits it waits too. In stage 0 of a wake it waits for the partition that
is still to be restored (R308, R328). -/
def State.partCommand (s : State) (part : Nat) (c : WaitCmd) : State :=
  if !s.takesCommands then s
  else match s.part? part with
    | none => match s.pkg.sleepImage with
      | some x =>
        if x.parts.any fun p => p.num == part then
          State.replied { s with pkg := { s.pkg with sleepImage := some (x.addWaiting part c) } } .waits
        else s.replied .refused
      | none => s.replied .refused
    | some p =>
      let s' := s.setPart { p with waiting := p.waiting ++ [(c, false)] }
      if p.waiting.isEmpty then s'.headCommand part else s'.replied .waits

/-- PART_CREATE arrives. -/
def State.createCommand (s : State) (clus ccs : BitVec 32) (gran : Nat) (ports : BitVec 32) (image : List Byte) : State :=
  if !s.takesCommands then s
  else
    let c := WaitCmd.create clus ccs gran ports image
    let (cmd, args) := c.record 0
    match s.judgeCreate clus ccs gran ports image with
    | .refused => s.replied .refused
    | .waits s' =>
      let s' := (s'.measureCommand cmd args).replied .waits
      { s' with pkg := { s'.pkg with waitCreate := s'.pkg.waitCreate ++ [c] } }
    | .go s' => s'.commandDone cmd args

/-- The first waiting PART_CREATE that can proceed, or is now refused, does so. -/
def State.resumeCreate (s : State) : List WaitCmd → State
  | [] => s
  | c :: cs => match c with
    | .create clus ccs gran ports image => match s.judgeCreate clus ccs gran ports image with
      | .waits _ => State.resumeCreate s cs
      | .refused => { s with pkg := { s.pkg with waitCreate := s.pkg.waitCreate.erase c } }.replied .refused
      | .go s' => { s' with pkg := { s'.pkg with waitCreate := s'.pkg.waitCreate.erase c } }.replied .done
    | _ => State.resumeCreate s cs

/-- A waiting command proceeds: that of a partition, or the first PART_CREATE that can. -/
def State.waitingResume (s : State) (part : Nat) : State :=
  match s.part? part with
  | some _ => s.headCommand part
  | none => s.resumeCreate s.pkg.waitCreate

/-- A removal completes (R266). -/
def State.removeComplete (s : State) (part : Nat) : State :=
  match s.part? part with
  | none => s
  | some p => match p.waiting with
    | (.coreRemove _ _, true) :: _ => s.headCommand part
    | _ => s

/-! ## Retain-sleep entry (R326, R327) -/

/-- A command waits. -/
def State.someWait (s : State) : Bool := !s.pkg.waitCreate.isEmpty || s.parts.any fun p => !p.waiting.isEmpty

/-- The cooperative launches that are resident, by partition and number. -/
def State.coopResident (s : State) : List (Nat × Nat) :=
  s.parts.flatMap fun p => (p.launches.filter fun l =>
    l.record.coop && s.teams.any fun t => t.part == p.num && t.lid == l.lid).map fun l => (p.num, l.lid)

/-- SLEEP: refused by Table 13, or the entry begins: queues and placement stop, and every launch is pre-empted. -/
def State.sleep (s : State) (force : Bool) : State :=
  if !s.takesCommands then s
  else if s.pkg.cold || s.pkg.sleepSt != .awake || s.someWait || (!force && !s.coopResident.isEmpty) then s.replied .refused
  else
    let s := s.commandDone 7 [b2n force]
    let s : State := { s with pkg := { s.pkg with retained := true } }
    let s := s.coopResident.foldl (fun s x => s.endLaunch x.1 x.2 6) s
    let held := s.parts.flatMap fun p => (p.launches.filter fun l => !l.preempted && l.ending.isNone).map fun l => (p.num, l.lid)
    let s : State := { s with pkg := { s.pkg with sleepSt := .entering, sleepHeld := held } }
    (held.foldl (fun s x => (s.preemptLaunch x.1 x.2).settleBusy x.1) s).sleepIfDue

/-- WAKEMODE. -/
def State.wakemode (s : State) (mode : W64) : State :=
  if !s.takesCommands then s
  else ({ s with pkg := { s.pkg with wakeMode := mode } } : State).commandDone 8 [mode.toNat]

/-! ## Granules (R302, R336) -/

/-- A granule retired, with its record. -/
def State.retireGran (s : State) (i : Nat) : State :=
  ({ s with pkg := { s.pkg with
      grans := s.pkg.grans.set i .retired
      scrubQueue := s.pkg.scrubQueue.filter (· != i) } } : State).errPush { Cper.plain 2 3 i with flags := 4 }

/-- GRAN_RETIRE. -/
def State.granRetire (s : State) (i : Nat) : State :=
  if !s.takesCommands then s
  else match s.pkg.grans[i]? with
    | none | some (.held _) => s.replied .refused
    | some .retired => s.commandDone 9 [i]
    | some .scrubbing => ({ s with pkg := { s.pkg with retireAfter := true } } : State).commandDone 9 [i]
    | some _ => (s.retireGran i).commandDone 9 [i]

/-- Granules that Loermey holds. -/
def Package.ownGrans (k : Package) : Nat := k.grans.countP (· == .held 31)

/-- The granule that is being scrubbed is done: every line of it is written with zeros, or it is retired. Loermey takes the
first eight that become clean (R330). -/
def State.scrubDone (s : State) (fails : Bool) : State :=
  match s.pkg.scrubQueue with
  | [] => s
  | i :: rest =>
    let k := s.pkg
    let s : State := { s with
      hbm := s.hbm.clear (gib * i) gib
      lines := s.lines.filter fun l => l.addr < gib * i || gib * (i + 1) ≤ l.addr
      pkg := { k with scrubQueue := rest, retireAfter := false, scrubDone := if fails then k.scrubDone else k.scrubDone + 1 } }
    let s := if fails || k.retireAfter then s.retireGran i
      else { s with pkg := { s.pkg with grans := s.pkg.grans.set i (if k.ownGrans < 8 then .held 31 else .clean) } }
    { s with pkg := s.pkg.scrubNext }

/-! ## Firmware images (R311, R340) -/

/-- Bytes of an image. -/
def Flash.bytes (f : Flash) (off n : Nat) : List Byte := (f.drop off).take n
/-- A little-endian field of an image. -/
def Flash.num (f : Flash) (off n : Nat) : Nat := leNat (Flash.bytes f off n)
/-- The security version of an image. -/
def Flash.svn (f : Flash) : Nat := Flash.num f 8 4
/-- The key index of an image. -/
def Flash.kidx (f : Flash) : Nat := Flash.num f 12 4 % 4
/-- The bytes that both signatures cover. -/
def Flash.header (f : Flash) : List Byte := Flash.bytes f 0 0x808

/-- 64 MiB, the size of a slot. -/
def flashSize : Nat := 0x4000000

/-- The header of an image is well formed, and the slot holds it (R311, check 1). -/
def Flash.wellFormed (f : Flash) : Bool :=
  Flash.bytes f 0 4 == [0x53, 0x59, 0x47, 0x46] && Flash.num f 4 4 == 1 && Flash.num f 12 4 < 4
    && Flash.num f 0x10 8 % 64 == 0 && 0x1600 + Flash.num f 0x10 8 ≤ f.length && (Flash.bytes f 0x1535 203).all (· == 0)

/-- The seven checks of an image in order (R311), with the FAIL code of the first that fails (R310, Table 3). -/
def Package.imageFails (k : Package) (f : Flash) : Option Nat :=
  let hash := fun (bs : List Byte) => Config.sha384 bs
  let ed := Flash.bytes f 0x48 32
  let ml := Flash.bytes f 0x68 1952
  if !Flash.wellFormed f then some 5
  else if digestBytes (hash (Flash.bytes f 0x1600 (Flash.num f 0x10 8))) ≠ Flash.bytes f 0x18 48 then some 6
  else if hash ed ≠ Config.fusedHash false (Flash.kidx f) || hash ml ≠ Config.fusedHash true (Flash.kidx f) then some 7
  else if k.revoked.getLsbD (Flash.kidx f) then some 3
  else if Flash.svn f < k.fuseSvn.toNat then some 2
  else if !Config.ed25519Verify ed (Flash.header f) (Flash.bytes f 0x808 64) then some 1
  else if !Config.mldsaVerify ml (Flash.header f) (Flash.bytes f 0x848 3309) then some 1
  else none

/-- Firmware commands are taken in stage 2, and by the boot ROM's management service in stage 3 (R340). -/
def State.takesFirmware (s : State) : Bool := s.pkg.powered && (s.pkg.stage == 2 || s.pkg.stage == 3)

/-- A firmware command: refused, or with its effect. -/
def State.firmware (s : State) (cmd : Nat) (args : List Nat) (ok : Bool) (eff : State → State) : State :=
  if !s.takesFirmware then s
  else if ok then (eff s).commandDone cmd args
  else s.replied .refused

/-- Bytes written into a slot. -/
def Flash.write (f : Flash) (off : Nat) (bs : List Byte) : Flash :=
  (f ++ List.replicate (off - f.length) 0).take off ++ bs ++ f.drop (off + bs.length)

/-- FW_WRITE. -/
def State.fwWrite (s : State) (off : Nat) (bs : List Byte) : State :=
  s.firmware 10 (off :: bs.map (·.toNat)) (off + bs.length ≤ flashSize && bs.length ≤ 4000) fun s =>
    { s with pkg := { s.pkg with flashB := Flash.write s.pkg.flashB off bs, bChecked := false } }

/-- FW_CHECK. -/
def State.fwCheck (s : State) : State :=
  if !s.takesFirmware then s
  else match s.pkg.imageFails s.pkg.flashB with
    | some code => (s.measureCommand 11 []).replied (.failed code)
    | none => ({ s with pkg := { s.pkg with bChecked := true } } : State).commandDone 11 []

/-- A record of kind 6 (R332). -/
def State.firmwareRecord (s : State) : State := s.errPush (Cper.plain 6 3 0)

/-- FW_COMMIT: the slots change places. -/
def State.fwCommit (s : State) : State :=
  s.firmware 12 [] s.pkg.bChecked fun s =>
    ({ s with pkg := { s.pkg with
      flashA := s.pkg.flashB, flashB := s.pkg.flashA, bChecked := false, cold := true } } : State).firmwareRecord

/-- FW_SVN. -/
def State.fwSvn (s : State) (v : BitVec 32) : State :=
  let k := s.pkg
  s.firmware 13 [v.toNat] (v.toNat ≤ Flash.svn k.flashA && v.toNat ≤ Flash.svn k.flashB && k.fuseSvn ≤ v) fun s =>
    ({ s with pkg := { s.pkg with fuseSvn := v } } : State).firmwareRecord

/-- A slot holds an image, which names a key (R340): a slot without a well-formed header holds none. -/
def Flash.names (f : Flash) (key : Nat) : Bool := Flash.wellFormed f && Flash.kidx f == key

/-- FW_REVOKE: the last index that is not revoked stays. -/
def State.fwRevoke (s : State) (key : Nat) : State :=
  let k := s.pkg
  let others := (List.range 4).any fun i => i ≠ key && !k.revoked.getLsbD i
  s.firmware 14 [key] (key < 4 && !Flash.names k.flashA key && !Flash.names k.flashB key && others) fun s =>
    ({ s with pkg := { s.pkg with revoked := s.pkg.revoked ||| (1#4 <<< key) } } : State).firmwareRecord

/-! ## Steps -/

/-- `PART_CREATE` (R288). -/
def execPartCreate (clus ccs : BitVec 32) (gran : Nat) (ports : BitVec 32) (image : List (BitVec 8)) (s : State) :
    Host.Outcome State Fault Refusal := .next (s.createCommand clus ccs gran ports image)

/-- `PART_DESTROY` (R288). -/
def execPartDestroy (part : Nat) (s : State) : Host.Outcome State Fault Refusal := .next (s.partCommand part .destroy)

/-- `CORE_ADD` (R288). -/
def execCoreAdd (part : Nat) (clus : BitVec 32) (s : State) : Host.Outcome State Fault Refusal :=
  .next (s.partCommand part (.coreAdd clus))

/-- `CORE_REMOVE` (R266). -/
def execCoreRemove (part : Nat) (clus : BitVec 32) (force : Bool) (s : State) : Host.Outcome State Fault Refusal :=
  .next (s.partCommand part (.coreRemove clus force))

/-- `CORE_REMOVE_COMPLETE` (R266). -/
def execCoreRemoveComplete (part : Nat) (s : State) : Host.Outcome State Fault Refusal := .next (s.removeComplete part)

/-- `HBM_GROW` (R288). -/
def execHbmGrow (part n : Nat) (s : State) : Host.Outcome State Fault Refusal := .next (s.partCommand part (.grow n))

/-- `HBM_SHRINK` (R288). -/
def execHbmShrink (part n : Nat) (s : State) : Host.Outcome State Fault Refusal := .next (s.partCommand part (.shrink n))

/-- `PORT_SET` (R288). -/
def execPortSet (part : Nat) (ports : BitVec 32) (s : State) : Host.Outcome State Fault Refusal :=
  .next (s.partCommand part (.portSet ports))

/-- `WAITING_COMMAND_RESUME` (R288). -/
def execWaitingCommandResume (part : Nat) (s : State) : Host.Outcome State Fault Refusal := .next (s.waitingResume part)

/-- `SLEEP` (R326). -/
def execSleep (force : Bool) (s : State) : Host.Outcome State Fault Refusal := .next (s.sleep force)

/-- `WAKEMODE` (R326). -/
def execWakemode (mode : BitVec 64) (s : State) : Host.Outcome State Fault Refusal := .next (s.wakemode mode)

/-- `GRAN_RETIRE` (R336). -/
def execGranRetire (gran : Nat) (s : State) : Host.Outcome State Fault Refusal := .next (s.granRetire gran)

/-- `GRANULE_SCRUB_DONE` (R302). -/
def execGranuleScrubDone (fails : Bool) (s : State) : Host.Outcome State Fault Refusal := .next (s.scrubDone fails)

/-- `FW_WRITE` (R340). -/
def execFwWrite (off : Nat) (bytes : List (BitVec 8)) (s : State) : Host.Outcome State Fault Refusal :=
  .next (s.fwWrite off bytes)

/-- `FW_CHECK` (R340). -/
def execFwCheck (s : State) : Host.Outcome State Fault Refusal := .next s.fwCheck

/-- `FW_COMMIT` (R340). -/
def execFwCommit (s : State) : Host.Outcome State Fault Refusal := .next s.fwCommit

/-- `FW_SVN` (R340). -/
def execFwSvn (v : BitVec 32) (s : State) : Host.Outcome State Fault Refusal := .next (s.fwSvn v)

/-- `FW_REVOKE` (R340). -/
def execFwRevoke (key : Nat) (s : State) : Host.Outcome State Fault Refusal := .next (s.fwRevoke key)

end Sys2Proof.Machine
end

