-- ==== Sys2Proof/Machine/Start.lean ====
section
/-!
DEFINITION. Start of the package (R307 to R313, R329), the wake from retain-sleep (R328), and resets. DESIGN CHOICE:
the self-test, and what a reset keeps (log 25, log 26).
-/

namespace Sys2Proof.Machine

open Sys2Proof

/-! ## Cold starts (R329) -/

/-- What of the package a loss of power leaves: flash and fuses, and the records that stand in the host's memory. The random
source never gives a draw twice: its count goes on. -/
def Package.bare (k : Package) : Package :=
  { Package.reset with
    errRing := k.errRing, flashA := k.flashA, flashB := k.flashB, fuseSvn := k.fuseSvn, revoked := k.revoked
    keyDraws := k.keyDraws }

/-- The machine once it is stopped and nothing of its work is held: what HBM held is lost, or scrubbed before anything reads
it (R329, R339). The interrupts that the host was given stand (R331). -/
def State.stopped (s : State) : State :=
  { s with
    hbm := [], slices := [], lines := [], tlb := [], groups := [], teams := [], cores := [], parts := []
    pkg := s.pkg.bare, fabric := { Fabric.reset with coldStarts := s.fabric.coldStarts }
    returns := [], interrupts := s.interrupts.filter (· == .msix), svc := [], latent := [], late := [], sliceErrs := []
    kept := [], openLists := [], cur := none }

/-- The image that the boot ROM accepts, slot A before slot B, or the FAIL code of the last slot tried (R311). -/
def Package.accepted (k : Package) : Flash ⊕ Nat :=
  match k.imageFails k.flashA with
  | none => .inl k.flashA
  | some _ => match k.imageFails k.flashB with
    | none => .inl k.flashB
    | some code => .inr code

/-- What is measured in stage 0 (R312, Table 5). -/
def State.measureStart (s : State) (f : Flash) : State :=
  let s := (s.measure 0 (Config.bootRecord s.pkg.fuseSvn s.pkg.revoked)).measure 1 (Flash.header f)
  let s := s.measure 2 Config.loermeyConfig
  (s.measure 3 (leBytes 4 s.pkg.fuseSvn.toNat ++ leBytes 4 s.pkg.revoked.toNat)).measure 4 Config.controlFirmware

/-- A cold start (R308, R310, R329): the tag key of slot 0 is drawn (R321); stage 0 with a verified image, or stage 3 with the
reason. Whether the infrastructure
control cores pass their self-test is free (log 8). -/
def State.coldStart (s : State) : State :=
  let s := s.stopped
  let s : State := { s with
    pkg := { s.pkg with
      powered := true, keyDraws := s.pkg.keyDraws + 1, tagKey0 := Config.randomKey 0 s.pkg.keyDraws }
    fabric := { s.fabric with coldStarts := s.fabric.coldStarts + 1 } }
  let failed := fun (code : Nat) => { s with pkg := { s.pkg with stage := 3, fail := code } }
  if Config.freeBool 8 s.tick 0 then failed 4
  else match s.pkg.accepted with
    | .inr code => failed code
    | .inl f => ({ s with pkg := { s.pkg with bootHeader := Flash.header f } } : State).measureStart f

/-! ## Clusters and clock steps -/

/-- The clusters of a compute die: eight, numbered from 8·die. -/
def dieClusters (d : Nat) : List Nat := (List.range 8).map (8 * d + ·)

/-- The lowest-numbered cluster of some that passes self-test, once it is known which that is. -/
def firstPassed (clusters : List Train) : List Nat → Option Nat
  | [] => none
  | c :: cs => match clusters.getD c .waiting with
    | .passed => some c
    | .failed => firstPassed clusters cs
    | .waiting => none

/-- The clusters available in a stage (R307, R308). -/
def Package.available (k : Package) (stage : Nat) : BitVec 32 :=
  let l := if stage = 1 then (List.range 4).filterMap fun d => firstPassed k.clusters (dieClusters d)
    else if stage = 2 then (List.range 32).filter fun c => k.clusters.getD c .waiting == .passed
    else []
  BitVec.ofNat 32 (l.map fun c => 2 ^ c).sum

/-- The clock step that the sources demand (R338). -/
def Package.demand (k : Package) : Nat := max k.demPower (max k.demThermal k.demCool)

/-- THROT (R330, R338): the sources whose demand is the step, when that is above 0. -/
def Package.holders (k : Package) (step : Nat) : BitVec 3 :=
  if step = 0 then 0
  else BitVec.ofNat 3 (b2n (k.demPower == step) + 2 * b2n (k.demThermal == step) + 4 * b2n (k.demCool == step))

/-- A clock step with the sources that hold it. -/
def Package.clocked (k : Package) (step : Nat) : Package := { k with clkStep := step, throt := k.holders step }

/-! ## The wake (R328) -/

/-- A record of kind 4 for each stack or cluster out of service (R332). -/
def State.degradedRecords (s : State) : State :=
  let out := (List.range 8).filter fun i => s.pkg.trained.getD i .waiting == .failed
  let clus := (List.range 32).filter fun i => s.pkg.clusters.getD i .waiting == .failed
  (out.map (· * 16) ++ clus).foldl (fun s u => s.errPush (Cper.plain 4 3 u)) s

/-- Steps 4 to 6 of the wake, once every stack is trained again and every cluster's self-test is over (R308): the saved state
is opened with the sleep key, stage 2 is reached at the clock step that the sources demand (R338), with its records while
DEGR is set (R332). When the image cannot be opened the start becomes a cold start. -/
def State.wakeUp (s : State) : State :=
  let k := s.pkg
  if (k.trained.any fun t => t == .waiting) || k.clusters.any fun t => t == .waiting then s
  else match k.sleepImage with
  | none => s.coldStart
  | some x =>
    if x.key ≠ k.sleepKey then s.coldStart
    else
      let s := s.awakened x
      let degr := k.degr || k.trained.any (· == .failed) || k.clusters.any (· == .failed)
      let s : State := { s with pkg := { s.pkg.clocked s.pkg.demand with
        stage := 2, woke := true, sleepSt := .awake, retained := false, sleepHeld := [], heldCalls := [], degr := degr
        clavail := k.available 2 } }
      let s := if degr then s.degradedRecords else s
      let s := k.sleepHeld.foldl (fun s x => (s.resumeLaunch x.1 x.2).settleBusy x.1) s
      k.heldCalls.foldl State.replayCall s

/-- The wake path: an image with the same header, SLEEPCNT measured, and the stacks trained again. When the image is not
the same, the start becomes a cold start. -/
def State.wake (s : State) : State :=
  let k := s.pkg
  match k.accepted with
  | .inr _ => s.coldStart
  | .inl f =>
    if Flash.header f ≠ k.bootHeader then s.coldStart
    else
      let s : State := { s with pkg := { k with
        powered := true, stage := 0, fail := 0, woke := false, sleepSt := .waking, sleepcnt := k.sleepcnt + 1, clavail := 0
        trained := k.trained.map fun t => if t = .passed then .waiting else t } }
      (s.measure 11 (leBytes 8 s.pkg.sleepcnt.toNat)).wakeUp

/-- PERST# is deasserted: the wake path after a retain-sleep entry, unless COLD was written or the retention SRAM lost
power; else a cold start. -/
def State.perstUp (s : State) : State :=
  if s.pkg.powered then s
  else if s.pkg.sleepSt == .asleep && s.pkg.retained && !s.pkg.cold then s.wake
  else s.coldStart

/-- PERST# is asserted: the device stops, unless it is asleep (R313). -/
def State.perstDown (s : State) : State := if s.pkg.sleepSt == .asleep then s else s.stopped

/-- The always-on domain loses power (R328). -/
def State.alwaysOnLoss (s : State) : State :=
  match s.pkg.sleepSt with
  | .asleep => s.stopped
  | .waking => s.coldStart
  | _ => { s with pkg := { s.pkg with retained := false } }

/-! ## Stages (R308, R309) -/

/-- Stage 1 or stage 2 entered when its condition holds; in stage 1 clusters join as they are known. -/
def State.stageUp (s : State) : State :=
  let k := s.pkg
  let k := if k.stage = 0 && k.trained.any (· == .passed) then { k.clocked 2 with stage := 1 } else k
  let all := !(k.trained.any (· == .waiting)) && !k.clusters.any (· == .waiting)
  if k.stage = 1 && all then
    let degr := k.trained.any (· == .failed) || k.clusters.any (· == .failed)
    let s : State := { s with pkg := { k.clocked k.demand with stage := 2, degr := degr, clavail := k.available 2 } }
    if degr then s.degradedRecords else s
  else { s with pkg := { k with clavail := k.available k.stage } }

/-- A stack trains or fails (R308, R309): its granules join the scrub queue, or are retired, those that are not yet (R336). While the
package wakes, a failure makes the start a cold one (R328), and the granules of a stack that had not trained before the entry
join the queue. -/
def State.stackDone (s : State) (i : Nat) (ok : Bool) : State :=
  let k := s.pkg
  if !k.powered || 1 < k.stage || k.trained.getD i .failed != .waiting then s
  else
    let s' : State := { s with pkg := { k with trained := k.trained.set i (if ok then .passed else .failed) } }
    let new := (granRange (64 * i) 64).filter fun j => k.grans.getD j .retired == .queued && !k.scrubQueue.contains j
    if k.sleepSt == .waking then (if ok then (s'.queueScrub new).wakeUp else s.coldStart)
    else if ok then (s'.queueScrub (granRange (64 * i) 64)).stageUp
    else (((granRange (64 * i) 64).filter fun j => s'.pkg.grans.getD j .retired != .retired).foldl State.retireGran s').stageUp

/-- A cluster passes or fails self-test (R309). -/
def State.clusterDone (s : State) (i : Nat) (ok : Bool) : State :=
  let k := s.pkg
  if !k.powered || 1 < k.stage || k.clusters.getD i .failed != .waiting then s
  else
    let s : State := { s with pkg := { k with clusters := k.clusters.set i (if ok then .passed else .failed) } }
    if k.sleepSt == .waking then s.wakeUp else s.stageUp

/-! ## Function-level resets (R313) -/

/-- A function of the device takes accesses: PF0 while power is on, VF k while partition k − 1 exists. In stage 0 of a wake there is
no partition yet (R308, Table 2). -/
def Package.functionOn (k : Package) (f : Nat) : Bool :=
  k.powered && (f == 0 || (k.vfEnabled.getD f false && k.sleepSt != .waking))

/-- The ring registers of a channel cleared; its key, counts and expected number are kept. -/
def Channel.ringsCleared (c : Channel) : Channel := { c with ringBase := 0, replyBase := 0, log := 0, head := 0, tail := 0 }

/-- A function reset: its mailbox and its channel's ring registers. -/
def State.resetFunction (s : State) (f : Nat) : State :=
  if !s.pkg.functionOn f then s
  else
    let s : State := { s with pkg := { s.pkg with mailboxes := s.pkg.mailboxes.set f Mailbox.reset } }
    s.updChannel f Channel.ringsCleared

/-- COLD written (R307): a write of 1. -/
def State.coldWrite (s : State) (v : W64) : State :=
  if s.pkg.powered && v.getLsbD 0 then { s with pkg := { s.pkg with cold := true } } else s

/-! ## Steps -/

/-- `PERST_DEASSERT` (R308). -/
def execPerstDeassert (s : State) : Host.Outcome State Fault Refusal := .next s.perstUp

/-- `PERST_ASSERT` (R313). -/
def execPerstAssert (s : State) : Host.Outcome State Fault Refusal := .next s.perstDown

/-- `HOT_RESET` (R313). -/
def execHotReset (s : State) : Host.Outcome State Fault Refusal := .next (if s.pkg.powered then s.coldStart else s)

/-- `ALWAYS_ON_POWER_LOSS` (R328). -/
def execAlwaysOnPowerLoss (s : State) : Host.Outcome State Fault Refusal := .next s.alwaysOnLoss

/-- `HBM_STACK_TRAINED` (R308). -/
def execHbmStackTrained (stack : Nat) (ok : Bool) (s : State) : Host.Outcome State Fault Refusal :=
  .next (s.stackDone stack ok)

/-- `CLUSTER_SELF_TEST_DONE` (R309). -/
def execClusterSelfTestDone (clu : Nat) (ok : Bool) (s : State) : Host.Outcome State Fault Refusal :=
  .next (s.clusterDone clu ok)

/-- `VF_FLR` (R313). -/
def execVfFlr (vf : Nat) (s : State) : Host.Outcome State Fault Refusal := .next (if vf = 0 then s else s.resetFunction vf)

/-- `PF0_FLR` (R313). -/
def execPf0Flr (s : State) : Host.Outcome State Fault Refusal := .next ((List.range 25).foldl State.resetFunction s)

/-- `COLD_WRITE` (R307): a write of 1. -/
def execColdWrite (v : BitVec 64) (s : State) : Host.Outcome State Fault Refusal :=
  .next (s.coldWrite v)

end Sys2Proof.Machine
end

