-- ==== Sys2Proof/Machine/Errors.lean ====
section
/-!
DEFINITION. Uncorrectable errors and their domains (R296, R297, R30), corrected errors (R335), the error ring (R331),
and the clock, power and cooling (R330, R338, R339). DEDUCED: what demands are relative to, clamps (log 28).
-/

namespace Sys2Proof.Machine

open Sys2Proof

/-! ## Domains (R296, Table 8) -/

/-- What an error brings down: the worlds of its domain, whether the domain is widened, the unit and the address that the
report names. -/
structure Domain where
  worlds : List Nat
  wide : Bool
  unit : Nat
  addr : Nat
deriving DecidableEq, Repr

/-- The world of an engine operation. -/
def EngEntry.world (e : EngEntry) : Nat := worldId e.part e.ctx

/-- The group, register and thread that the entry of a register row names. -/
def siteRow (x : ErrSite) : Nat × Nat × Nat := (x.entry / 65536, x.entry / 64 % 1024, x.entry % 64)

/-- The worlds of groups on lanes of a core. -/
def State.worldsOnLanes (s : State) (core : Nat) (p : Nat → Bool) : List Nat :=
  (s.groups.filter fun g => g.core == core && p g.lane && g.spilled.isNone).map Group.world

/-- The worlds of what may be in flight on the mesh, the links and at the gate: remote requests, returns on their way, instructions
that wait for a return or at the gate, exchanges, copies, and writes that are performed later. -/
def State.inFlight (s : State) : List Nat :=
  ((s.fabric.reqs.map fun r => r.pkt.srcWorld)
    ++ (s.returns.filterMap fun r => (s.group? r.uid).map Group.world)
    ++ ((s.groups.filter fun g => g.issued.any fun p => p.st == .waiting).map Group.world)
    ++ (s.pkg.convs.flatMap fun c => c.exchanges.flatMap fun x => x.parts.map fun pt => (c.role pt.party).world)
    ++ (s.cores.flatMap fun c => c.copies.map fun e => e.2.world)
    ++ s.late.filterMap fun l => (s.group? l.uid).map Group.world).dedup

/-- The worlds that may have a walk in flight on a die (R296, class 7): those of groups in a run or whose accesses are parked, of
operations of its copy engines, of instructions at the gate, and of remote requests that reach this device. -/
def State.walking (s : State) (die : Nat) : List Nat :=
  ((s.groups.filter fun g => g.core / 64 == die && (g.stat == .running || g.issued.any fun p => p.st == .waiting)).map Group.world
    ++ ((s.cores.filter fun c => c.id / 64 == die).flatMap fun c => c.copies.map fun e => e.2.world)
    ++ (s.pkg.waits.filterMap fun d => (s.group? d.uid).map Group.world)
    ++ ((s.fabric.reqs.filter fun r => r.pkt.tgtDev == Config.ownDevice).map fun r => worldId r.pkt.tgtPart r.pkt.tgtCtx)).dedup

/-- The worlds of a list that the bits of a number pick: which of them an error meets is a matter of time (log 27). -/
def pickBits (bits : Nat) (ws : List Nat) : List Nat :=
  (ws.mapIdx fun i w => (i, w)).filterMap fun e => if bitAt bits e.1 then some e.2 else none

/-- The domain of an error (R296, Table 8), of the classes that have worlds of their own. -/
def State.domainOf (s : State) (x : ErrSite) : Domain :=
  let core := s.core x.unit
  let of := fun (mine every : List Nat) (addr : Nat) =>
    (⟨if x.readable then mine else every, !x.readable, x.unit, addr⟩ : Domain)
  match x.cls with
  | 0 =>
    let g := (s.group? (siteRow x).1).toList
    of (g.map Group.world) (g.flatMap fun g => s.worldsOnLanes g.core (· == g.lane)) 0
  | 1 =>
    let g := (s.group? x.entry).toList
    of (g.map Group.world) (g.flatMap fun g => s.worldsOnLanes g.core fun l => l / 16 == g.lane / 16) 0
  | 2 => of (s.sliceDomain x.unit x.entry true) (s.sliceDomain x.unit x.entry false) x.entry
  | 3 => of ((s.team? x.entry).toList.map Team.world) ((s.teamsOn x.unit).map Team.world) 0
  | 4 => of ((core.matrix[x.entry]?).toList.map EngEntry.world) (core.matrix.map EngEntry.world) 0
  | 5 => of ((core.copies.filter fun e => e.1 == x.entry).map fun e => e.2.world) (core.copies.map fun e => e.2.world) 0
  | 7 => of (if (s.part? (x.entry / 128)).isSome then [x.entry] else []) (pickBits x.entry (s.walking (x.unit / 16))) 0
  | 11 | 12 => ⟨((s.conv? x.entry).toList.flatMap Conv.worlds), false, x.unit, 0⟩
  | 13 => of ((s.fabric.reqs.filter fun r => r.id == x.entry).map fun r => r.pkt.srcWorld)
      (s.fabric.reqs.map fun r => r.pkt.srcWorld) 0
  | 14 => of (pickBits x.entry s.inFlight) (pickBits x.entry s.inFlight) 0
  | 15 => ⟨(s.parts.filter fun p => x.unit < 32 && p.ccs.getLsbD x.unit).flatMap Partition.worlds, false, x.unit, 0⟩
  | _ => ⟨[], false, x.unit, 0⟩

/-! ## Corrected errors (R335) -/

/-- A corrected error of a class: an addition that leaves its count at the limit or above gives the one record of the
window. -/
def State.corrected (s : State) (c : Nat) : State :=
  let k := s.pkg
  if 16 ≤ c || !k.powered then s
  else
    let now := satAdd (k.cecnt.getD c 0).toNat 1
    let lim := (k.celim.getD c 0).toNat
    let cross := lim ≠ 0 && lim ≤ now && !k.ceSeen.getD c false
    let s : State := { s with pkg := { k with
      cecnt := k.cecnt.set c (BitVec.ofNat 32 now), ceSeen := if cross then k.ceSeen.set c true else k.ceSeen } }
    if cross then s.errPush { Cper.plain 1 2 0 with cls := c } else s

/-! ## Uncorrectable errors (R297) -/

/-- The instruction that consumes the data, by the first word of its run and its run index. -/
def State.namedBy (s : State) (x : ErrSite) : Option (Nat × Nat) :=
  (x.finder.bind s.group?).map fun g => (g.runPc.toNat, g.runIdx)

/-- The words in which a register is stored (R24). -/
def VReg.words (n : Nat) : VReg → Nat
  | .u _ => 1
  | .a _ _ => 2
  | .g _ => n

/-- A register element poisoned by a read that does not consume it (R30), and logged as a latent error. -/
def State.poisonReg (s : State) (x : ErrSite) : State :=
  let (uid, r, w) := siteRow x
  match s.group? uid with
  | none => s
  | some g =>
    if g.alloc ≤ r || (g.vreg r).words g.width.n ≤ w then s
    else
      let p : Poison := ⟨r, w, x.half % 3⟩
      { s.setGroup { g with poison := if g.poison.contains p then g.poison else g.poison ++ [p] } with
        latent := s.latent ++ [⟨worldId g.part g.ctx, uid, g.core, p⟩] }

/-- A failing entry of a slice cleared (R297, steps 1 and 6). -/
def State.clearLine (s : State) (x : ErrSite) : State :=
  if x.cls = 2 && x.entry < sliceSize then
    s.clearSlices (sliceSize * x.unit + lineOf x.entry) 64
  else s

/-- Worlds with teams on both of two dies between which no route remains (R297). -/
def State.splitWorlds (s : State) (d e : Nat) : List Nat :=
  let on := fun d => (s.teams.filter fun t => t.cores.any fun c => c / 64 == d).map Team.world
  ((on d).filter (on e).contains).dedup

/-- The worlds that an error of class 14 ends for want of a route (R297). -/
def State.cutWorlds (s : State) (x : ErrSite) : List Nat :=
  match if x.cls = 14 then x.cut else none with
  | some (d, e) => s.splitWorlds d e
  | none => []

/-- The failed unit of class 14 taken out of service; where no route remains, the worlds that stand on both sides end with
cause 9 (R297). -/
def State.outOfService (s : State) (x : ErrSite) (cut : List Nat) (rep : Nat) : State :=
  if x.cls ≠ 14 then s
  else
    let s : State := { s with pkg := { s.pkg with unitsOut := s.pkg.unitsOut ++ [(14, x.unit)] } }
    if cut.isEmpty then s else s.terminateWorlds cut ⟨9, 14, false, rep, x.unit, 0, none⟩

/-- A control core of class 15 restarted with its partition's measured image (R297, step 7): nothing is left of its calls. -/
def State.restartCore (s : State) (x : ErrSite) : State :=
  if x.cls ≠ 15 then s
  else match s.parts.find? fun p => p.ccs.getLsbD x.unit with
    | none => s
    | some p =>
      let s := s.loadImage p
      { s with
        svc := s.svc.filter fun r => !(r.part == p.num && r.cc == x.unit)
        pkg := { s.pkg with heldCalls := s.pkg.heldCalls.filter fun c => !(c.part == p.num && c.cc == x.unit) } }

/-- An uncorrectable error, or an unreadable tag, is found (R297). -/
def State.uncorrectable (s : State) (x : ErrSite) : State :=
  let rep := s.pkg.reportNum
  if !s.pkg.powered then s
  else if x.cls = 0 && x.latent then s.poisonReg x
  else if x.cls = 6 then State.corrected { s with tlb := s.tlb.eraseIdx x.entry } 6
  else if x.cls = 8 then
    let l := s.line (lineOf x.entry)
    State.corrected (if l.cached && !l.dirty then s.setLine (s.lineCast l) else s) 8
  else if x.cls = 9 || x.cls = 10 then s.lineError (lineOf x.entry) (s.namedBy x)
  else if x.cls = 15 && 32 ≤ x.unit then
    s.errPush { Cper.plain 0 0 x.unit with cause := 1, cls := 15, partMask := 1#32 <<< 31 }
  else if 15 < x.cls then s
  else
    let d := s.domainOf x
    let cut := s.cutWorlds x
    (((s.contain x.cls d.worlds cut d.wide false d.unit d.addr 0 (s.namedBy x)).clearLine x).outOfService x cut rep).restartCore x

/-! ## The error ring (R331) -/

/-- Kept records written while there is room, and then the count lost. -/
def State.errCatchUp (s : State) : State := s.errFlush 258

/-- A thermal trip (R339): its record, and power removed. -/
def State.trip (s : State) : State := (s.errPush { Cper.plain 5 1 0 with flags := 16 }).stopped

/-- The ring has room for the record of a trip at once. -/
def Package.tripRoom (k : Package) : Bool := k.errRoom && k.errHeld.isEmpty

/-- A trip that waited for room in the ring happens once there is room. -/
def State.tripIfRoom (s : State) : State := if s.pkg.tripping && s.pkg.tripRoom then s.trip else s

/-- ERRBASE or ERRLOG written. -/
def State.errConfig (s : State) (isBase : Bool) (v : W64) : State :=
  let k := s.pkg
  if isBase then { s with pkg := { k with errBase := BitVec.ofNat 64 (v.toNat / 4096 * 4096) } }
  else (State.errCatchUp { s with pkg := { k with errLog := v.toNat % 16 } }).tripIfRoom

/-- ERRTAIL written: records are consumed. -/
def State.errTailSet (s : State) (v : W64) : State :=
  (State.errCatchUp { s with pkg := { s.pkg with errTail := v.setWidth 32 } }).tripIfRoom

/-! ## Clock, power and cooling (R338, R339) -/

/-- The demand of the power source: one step more than now above the cap; after 10 ms below nine tenths of it, one step less
than it demanded (log 28). -/
def Package.powerStep (k : Package) (x : ThermalSample) : Package :=
  let low := decide (10 * x.pwrAvg < 9 * k.pwrCap)
  let ms := if low then k.lowPowerMs + 1 else 0
  if k.pwrCap < x.pwrAvg then { k with demPower := min 2 (k.clkStep + 1), lowPowerMs := 0 }
  else if 10 ≤ ms then { k with demPower := k.demPower - 1, lowPowerMs := 0 }
  else { k with lowPowerMs := ms }

/-- The demand of the thermal source: one step more each ms at 100 °C or above, one step less after 100 ms at 90 °C or
below. -/
def Package.thermalStep (k : Package) (x : ThermalSample) : Package :=
  let ms := if x.tj ≤ 90 then k.coolTjMs + 1 else 0
  if 100 ≤ x.tj then { k with demThermal := min 2 (k.demThermal + 1), coolTjMs := 0 }
  else if 100 ≤ ms then { k with demThermal := k.demThermal - 1, coolTjMs := 0 }
  else { k with coolTjMs := ms }

/-- The demand of the coolant source. -/
def Package.coolantStep (k : Package) (x : ThermalSample) : Package :=
  { k with demCool := if 40 < x.inlet || x.flow < 30 then 2 else 0 }

/-- What the sensors read, as the fleet block shows it. -/
def Package.sensed (k : Package) (x : ThermalSample) : Package :=
  { k with
    pwrAvg := min x.pwrAvg 65535, pwrPeak := max k.pwrPeak (min x.pwr1ms 65535), tj := min x.tj 255
    inlet := min x.inlet 255, flow := min x.flow 255, hotMs := if 100 ≤ x.tj && k.clkStep = 2 then k.hotMs + 1 else 0 }

/-- The clock step set from the demands (R338), which reduced service holds at 2 (R309); a trip overrides every step. It waits for room in the ring until the next
evaluation, 1 ms later. -/
def State.clockEvaluation (s : State) (x : ThermalSample) : State :=
  if !s.pkg.powered then s
  else
    let k := s.pkg.sensed x
    let n := ((k.powerStep x).thermalStep x).coolantStep x
    let step := if n.stage = 1 then 2 else n.demand
    let s' : State := { s with pkg := n.clocked step }
    if s.pkg.tripping then s'.trip
    else if 110 ≤ x.tj || 1000 ≤ k.hotMs then
      if s'.pkg.tripRoom then s'.trip else { s' with pkg := { s'.pkg with tripping := true } }
    else if step ≠ k.clkStep && n.demThermal ≠ k.demThermal then s'.errPush (Cper.plain 5 3 0)
    else s'

/-! ## Steps -/

/-- `UNCORRECTABLE_ERROR` (R297). -/
def execUncorrectableError (site : ErrSite) (s : State) : Host.Outcome State Fault Refusal := .next (s.uncorrectable site)

/-- `CORRECTED_ERROR` (R335). -/
def execCorrectedError (cls : Nat) (s : State) : Host.Outcome State Fault Refusal := .next (s.corrected cls)

/-- `CE_WINDOW_RESTART` (R335). -/
def execCeWindowRestart (s : State) : Host.Outcome State Fault Refusal :=
  .next { s with pkg := { s.pkg with cecnt := List.replicate 16 0, ceSeen := List.replicate 16 false } }

/-- `CELIM_WRITE` (R335): from the next addition. -/
def execCelimWrite (cls : Nat) (v : BitVec 64) (s : State) : Host.Outcome State Fault Refusal :=
  .next { s with pkg := { s.pkg with celim := s.pkg.celim.set cls (v.setWidth 16) } }

/-- `ERR_RING_CONFIG_WRITE` (R331). -/
def execErrRingConfigWrite (isBase : Bool) (v : BitVec 64) (s : State) : Host.Outcome State Fault Refusal :=
  .next (s.errConfig isBase v)

/-- `ERRTAIL_WRITE` (R331). -/
def execErrtailWrite (v : BitVec 64) (s : State) : Host.Outcome State Fault Refusal :=
  .next (s.errTailSet v)

/-- `PWRPEAK_READ` (R330): the read clears the peak. -/
def execPwrpeakRead (s : State) : Host.Outcome State Fault Refusal := .next { s with pkg := { s.pkg with pwrPeak := 0 } }

/-- `RETRYINT_WRITE` (R337): for timers started after the write. -/
def execRetryintWrite (v : BitVec 64) (s : State) : Host.Outcome State Fault Refusal :=
  .next { s with pkg := { s.pkg with retryInt := max 1000 (v.toNat % 2 ^ 24) } }

/-- `CLOCK_EVALUATION` (R338). -/
def execClockEvaluation (smp : ThermalSample) (s : State) : Host.Outcome State Fault Refusal := .next (s.clockEvaluation smp)

end Sys2Proof.Machine
end

