-- ==== Sys2Proof/Machine/Channel.lean ====
section
/-!
DEFINITION. The authenticated command channels (R319, R320) and the SPDM responders (R314 to R317). PRESUMED: what the
manual takes from SPDM 1.2 (log 29).
-/

namespace Sys2Proof.Machine

open Sys2Proof

/-! ## Channels (R319) -/

/-- The fields of a message: SEQ, LEN, payload and tag. -/
structure ChanMsg where
  seq : Nat
  len : Nat
  aad : List Byte
  payload : List Byte
  tag : List Byte
deriving DecidableEq, Repr

/-- A message as it stands in its slot. -/
def ChanMsg.parse (bs : List Byte) : ChanMsg :=
  let len := leNat ((bs.drop 8).take 4)
  ⟨leNat (bs.take 8), len, bs.take 16, (bs.drop 16).take len, (bs.drop (16 + len)).take 16⟩

/-- The payload of a message, if its tag verifies under the channel key: the IV is the salt and SEQ, the first 16 bytes are
authenticated. A payload longer than 4,064 bytes has no tag. -/
def Channel.opened (c : Channel) (m : ChanMsg) : Option (List Byte) :=
  if 4064 < m.len then none else Config.gcmOpen c.key (c.salt ++ m.aad.take 8) m.aad m.payload m.tag

/-- The bytes of a reply in its slot, laid out as a message is (log 29): its number, the length and its kind, then what it
carries, which only SEQGAP does, sealed under the channel key with the salt's bit 31 flipped, or in clear with a zero tag. -/
def Channel.sealed (c : Channel) (num kind : Nat) (carries : W64) (clear : Bool) : List Byte :=
  let pt := if kind = 1 then leBytes 8 carries.toNat else []
  let head := leBytes 8 num ++ leBytes 4 pt.length ++ leBytes 4 kind
  let salt := (c.salt.take 3) ++ (c.salt.drop 3).map fun b => b ^^^ 0x80
  head ++ (if clear then pt ++ leBytes 16 0 else Config.gcmSeal c.key (salt ++ leBytes 8 num) head pt)

/-- A reply put on the reply ring, with the next number, in its slot of 4,096 bytes. -/
def Channel.reply (c : Channel) (kind : Nat) (carries : W64) (clear : Bool) : Channel :=
  let num := c.replies.length + 1
  let slot := c.replyBase + BitVec.ofNat 64 (4096 * (c.replies.length % 2 ^ c.log))
  { c with replies := c.replies ++ [⟨num, kind, carries, clear, slot, c.sealed num kind carries clear⟩] }

/-- A message decided (R319, Table 10). The Bool says that it was delivered. -/
def Channel.take (c : Channel) (m : ChanMsg) : Channel × Bool :=
  let e := c.next.toNat
  if !c.keyed then (c.reply 3 0 true, false)
  else if c.expired then (c.reply 2 0 false, false)
  else if m.seq < e then ({ c with dup := c.dup + 1 }, false)
  else match c.opened m with
    | none => ({ c with badtag := c.badtag + 1 }, false)
    | some pt =>
      if e < m.seq then ({ c.reply 1 c.next false with gap := c.gap + 1 }, false)
      else
        let c := { c with inbox := c.inbox ++ [pt] }
        (if m.seq = 2 ^ 64 - 1 then { c with expired := true } else { c with next := c.next + 1 }, true)

/-- A channel has a message to read: it is enabled, and its ring is not empty. -/
def Channel.waits (c : Channel) : Bool := 1 ≤ c.log && c.log ≤ 15 && c.head != c.tail

/-- A payload that was delivered written to the inbox of its partition, then the interrupt (R319). Entries are 4,096 bytes long
and used in turn (DESIGN CHOICE, log 29). -/
def State.toInbox (s : State) (ch : Nat) (c : Channel) : State :=
  let s := match c.inbox.getLast?, s.part? (ch - 1) with
    | some pt, some p =>
      if ch = 0 then s
      else s.writePart p (c.inboxBase.toNat + 4096 * ((c.inbox.length - 1) % 2 ^ c.inboxLog)) pt
    | _, _ => s
  { s with interrupts := s.interrupts ++ [.inbox ch] }

/-- The device reads the next message of a channel. In stage 3 only the management service answers (R310). -/
def State.channelMessage (s : State) (ch : Nat) (bs : List Byte) : State :=
  match s.pkg.channels[ch]? with
  | none => s
  | some c =>
    if !s.pkg.functionOn ch || s.pkg.stage = 3 || !c.waits then s
    else
      let (c, delivered) := { c with tail := c.tail + 1 }.take (ChanMsg.parse bs)
      let s : State := { s with pkg := { s.pkg with channels := s.pkg.channels.set ch c } }
      if delivered then s.toInbox ch c else s

/-! ## Requests (R314, R315) -/

/-- The bytes of a request. -/
def SpdmReq.bytes (r : SpdmReq) (code : BitVec 8) : List Byte := [r.version, code, r.p1, r.p2] ++ r.body

/-- The error that a request receives whatever its state (R315, Table 7), if any. -/
def State.spdmError (s : State) (r : SpdmReq) (code : BitVec 8) (formed : Bool) : Option Nat :=
  if r.version ≠ (if code = 0x84 then 0x10 else 0x12) then some 0x41
  else if s.launchesStop then some 0x03
  else if !formed then some 0x01
  else none

/-- Which of the transcripts of SPDM 1.2 a request and its answer join (log 29): that of the version, of the rest of the
negotiation, of digests and certificates, of a challenge, or of measurements, which a signature ends. -/
inductive SpdmPhase where
  | version | negotiate | auth | challenge
  | meas (signed : Bool)
deriving DecidableEq, Repr

/-- The messages that stand before a request in its transcript: M1/M2 begin with the negotiation and go on with digests and
certificates, L1/L2 begin with it and go on with measurements. -/
def Mailbox.transcript (m : Mailbox) : SpdmPhase → List Byte
  | .version => []
  | .negotiate => m.vca
  | .auth | .challenge => m.vca ++ m.auth
  | .meas _ => m.vca ++ m.meas

/-- A mailbox once a request and its answer are exchanged, `bs` their bytes. -/
def Mailbox.exchanged (m : Mailbox) (ph : SpdmPhase) (next : SpdmSt) (bs : List Byte) (a : SpdmResp) : Mailbox :=
  match ph with
  | .version => ⟨next, bs, [], [], some a⟩
  | .negotiate => ⟨next, m.vca ++ bs, [], [], some a⟩
  | .auth => ⟨next, m.vca, m.auth ++ bs, [], some a⟩
  | .challenge => ⟨next, m.vca, [], [], some a⟩
  | .meas signed => ⟨next, m.vca, [], if signed then [] else m.meas ++ bs, some a⟩

/-- A request: its error, or its answer, whose bytes join the transcript (R315). -/
def State.spdm (s : State) (mb : Nat) (r : SpdmReq) (code : BitVec 8) (ph : SpdmPhase) (formed : Bool)
    (allowed : SpdmSt → Bool) (next : SpdmSt) (answer : List Byte → SpdmResp × List Byte) : State :=
  match s.pkg.mailboxes[mb]? with
  | none => s
  | some m =>
    if !s.pkg.functionOn mb || s.pkg.stage = 3 then s
    else
      let m' : Mailbox := match s.spdmError r code formed with
        | some e => { m with resp := some (.error e) }
        | none =>
          if !allowed m.st then { m with resp := some (.error 0x04) }
          else
            let q := SpdmReq.bytes r code
            let (a, bs) := answer (m.transcript ph ++ q)
            m.exchanged ph next (q ++ bs) a
      { s with pkg := { s.pkg with mailboxes := s.pkg.mailboxes.set mb m' } }

/-- A responder has negotiated. -/
def SpdmSt.isNegotiated (st : SpdmSt) : Bool := st == .negotiated

/-- Flags of CAPABILITIES: CERT_CAP, CHAL_CAP, and MEAS_CAP = 0b10. -/
def capFlags : Nat := 0x16

/-- A 4-byte field. -/
def field4 (n : Nat) : List Byte := leBytes 4 n

/-- The digest of a certificate slot's chain, as bytes. -/
def chainDigest (slot : Nat) : BitVec 384 := Config.sha384 (Config.certChain slot)

/-- The measurement blocks of a mailbox (R317, Table 8): index, type of the value, and content. -/
def State.blocks (s : State) (mb : Nat) : List MeasBlock :=
  (List.range 12).map (fun i => ⟨i + 1, .manifestDigest, digestBytes (s.pkg.mreg.getD i 0)⟩)
    ++ [⟨13, .raw, leBytes 8 s.pkg.sleepcnt.toNat⟩]
    ++ (if mb = 0 then [] else match s.part? (mb - 1) with
      | some p => (List.range 4).map fun i => ⟨17 + i, .manifestDigest, digestBytes (p.pmreg.getD i 0)⟩
      | none => [])

/-- The blocks that an index asks for: all for 0xFF. -/
def State.blocksFor (s : State) (mb idx : Nat) : List MeasBlock :=
  (s.blocks mb).filter fun b => idx == 0xFF || b.idx == idx

/-- DMTFSpecMeasurementValueType of SPDM 1.2 (PRESUMED, log 29): bit 7 tells a raw bit stream from a digest, and 4 is a
measurement manifest. -/
def MeasType.code : MeasType → BitVec 8
  | .manifestDigest => 0x04
  | .raw => 0x80

/-- A measurement block in the DMTF form of SPDM 1.2 (PRESUMED, log 29): index, specification, size, then type, size and
value. -/
def MeasBlock.encoded (b : MeasBlock) : List Byte :=
  [BitVec.ofNat 8 b.idx, 1] ++ leBytes 2 (b.bytes.length + 3) ++ [b.ty.code] ++ leBytes 2 b.bytes.length ++ b.bytes

/-- OpaqueData (R316): its head, the ML-DSA-65 signature, and three zero bytes. -/
def opaqueData (sig : List Byte) : List Byte :=
  [0x53, 0x59, 0x47, 0x53] ++ leBytes 2 1 ++ leBytes 2 3309 ++ sig ++ [0, 0, 0]

/-- What is signed: the prefix of the response and the digest of the transcript. -/
def signedBytes (code : Nat) (t : List Byte) : List Byte := Config.spdmPrefix code ++ digestBytes (Config.sha384 t)

/-- The two signatures of a response (R316): OpaqueData, and the signature over everything before it. -/
def signatures (code : Nat) (t : List Byte) : List Byte × List Byte :=
  let o := opaqueData (leBytes 3309 (Config.mldsaSign (signedBytes code t)).toNat)
  (o, leBytes 64 (Config.ed25519Sign (signedBytes code (t ++ leBytes 2 o.length ++ o))).toNat)

/-- A nonce of 32 bytes from the device's random source. -/
def State.nonce (s : State) : List Byte := leBytes 32 (Config.randomKey 1 s.pkg.keyDraws).toNat

/-- One draw of the random source made. -/
def State.drawn (s : State) : State := { s with pkg := { s.pkg with keyDraws := s.pkg.keyDraws + 1 } }

/-- GET_VERSION: always allowed, and begins the transcript. -/
def State.getVersion (s : State) (mb : Nat) (r : SpdmReq) : State :=
  s.spdm mb r 0x84 .version r.body.isEmpty (fun _ => true) .afterVersion fun _ => (.version, Config.spdmEncode 0x04 [])

/-- GET_CAPABILITIES. -/
def State.getCapabilities (s : State) (mb : Nat) (r : SpdmReq) : State :=
  s.spdm mb r 0xE1 .negotiate (r.body.length == 16) (· == .afterVersion) .afterCaps fun _ =>
    (.capabilities capFlags 21 8192 8192, Config.spdmEncode 0x61 [field4 capFlags, field4 21, field4 8192, field4 8192])

/-- Where `n` algorithm structures that begin at an offset of a body end, each with its external algorithms. -/
def algStructsEnd (body : List Byte) : (n off : Nat) → Nat
  | 0, off => off
  | n + 1, off => algStructsEnd body n (off + 4 + 4 * ((body.getD (off + 1) 0).toNat % 16))

/-- The body of NEGOTIATE_ALGORITHMS is well formed (PRESUMED from SPDM 1.2, log 29): its length field counts the whole
request, and its fixed fields, external algorithms and structures fill it. -/
def negotiateFormed (r : SpdmReq) : Bool :=
  let n := r.body.length
  28 ≤ n && leNat (r.body.take 2) == n + 4
    && algStructsEnd r.body r.p1.toNat (28 + 4 * ((r.body.getD 24 0).toNat + (r.body.getD 25 0).toNat)) == n

/-- NEGOTIATE_ALGORITHMS: it must offer Ed25519 and SHA-384. -/
def State.negotiate (s : State) (mb : Nat) (r : SpdmReq) : State :=
  let asym := leNat ((r.body.drop 4).take 4)
  let hash := leNat ((r.body.drop 8).take 4)
  s.spdm mb r 0xE3 .negotiate (negotiateFormed r && bitAt asym 10 && bitAt hash 1) (· == .afterCaps) .negotiated fun _ =>
    (.algorithms (2 ^ 10) 2 4, Config.spdmEncode 0x63 [field4 (2 ^ 10), field4 2, field4 4])

/-- GET_DIGESTS: both slots. -/
def State.getDigests (s : State) (mb : Nat) (r : SpdmReq) : State :=
  let ds := [chainDigest 0, chainDigest 1]
  s.spdm mb r 0x81 .auth r.body.isEmpty SpdmSt.isNegotiated .negotiated fun _ =>
    (.digests ds, Config.spdmEncode 0x01 (ds.map digestBytes))

/-- GET_CERTIFICATE: a portion of a chain, from an offset within it. -/
def State.getCertificate (s : State) (mb : Nat) (r : SpdmReq) : State :=
  let slot := r.p1.toNat
  let chain := Config.certChain slot
  let off := leNat (r.body.take 2)
  let portion := (chain.drop off).take (leNat ((r.body.drop 2).take 2))
  let rest := chain.length - off - portion.length
  s.spdm mb r 0x82 .auth (r.body.length == 4 && slot < 2 && off < chain.length) SpdmSt.isNegotiated .negotiated fun _ =>
    (.certificate slot portion rest, Config.spdmEncode 0x02 [[r.p1], portion, leBytes 2 rest])

/-- CHALLENGE: slot 0 only. -/
def State.challenge (s : State) (mb : Nat) (r : SpdmReq) : State :=
  let n := s.nonce
  let summary := if r.p2 = 0 then [] else digestBytes (Config.sha384 ((s.blocks mb).flatMap MeasBlock.encoded))
  let body := Config.spdmEncode 0x03 [digestBytes (chainDigest 0), n, summary]
  (s.spdm mb r 0x83 .challenge (r.body.length == 32 && r.p1 == 0) SpdmSt.isNegotiated .negotiated fun t =>
    let (o, sig) := signatures 0x03 (t ++ body)
    (.challengeAuth n o sig, body ++ leBytes 2 o.length ++ o ++ sig)).drawn

/-- GET_MEASUREMENTS: one block or all, signed when attribute bit 0 asks for it, by slot 0 only. -/
def State.getMeasurements (s : State) (mb : Nat) (r : SpdmReq) : State :=
  let sign := r.p1.getLsbD 0
  let bl := s.blocksFor mb r.p2.toNat
  let n := s.nonce
  let ok := !bl.isEmpty && (if sign then r.body.length == 33 && r.body.getD 32 1 == 0 else r.body.isEmpty)
  let body := Config.spdmEncode 0x60 (bl.map MeasBlock.encoded ++ [if sign then n else []])
  (s.spdm mb r 0xE0 (.meas sign) ok SpdmSt.isNegotiated .negotiated fun t =>
    if sign then
      let (o, sig) := signatures 0x60 (t ++ body)
      (.measurements bl n o sig, body ++ leBytes 2 o.length ++ o ++ sig)
    else (.measurements bl [] [] [], body)).drawn

/-- The request codes of R314. -/
def spdmCodes : List (BitVec 8) := [0x84, 0xE1, 0xE3, 0x81, 0x82, 0x83, 0xE0]

/-- A request with another code (R315, Table 7). -/
def State.unsupported (s : State) (mb : Nat) (code : BitVec 8) : State :=
  match s.pkg.mailboxes[mb]? with
  | none => s
  | some m =>
    if !s.pkg.functionOn mb || s.pkg.stage = 3 || spdmCodes.contains code then s
    else { s with pkg := { s.pkg with mailboxes := s.pkg.mailboxes.set mb { m with resp := some (.error 0x07) } } }

/-! ## Steps -/

/-- `CHANNEL_MESSAGE` (R319). -/
def execChannelMessage (ch : Nat) (msg : List (BitVec 8)) (s : State) : Host.Outcome State Fault Refusal :=
  .next (s.channelMessage ch msg)

/-- `GET_VERSION` (R315). -/
def execGetVersion (mb : Nat) (r : SpdmReq) (s : State) : Host.Outcome State Fault Refusal := .next (s.getVersion mb r)

/-- `GET_CAPABILITIES` (R314). -/
def execGetCapabilities (mb : Nat) (r : SpdmReq) (s : State) : Host.Outcome State Fault Refusal :=
  .next (s.getCapabilities mb r)

/-- `NEGOTIATE_ALGORITHMS` (R314). -/
def execNegotiateAlgorithms (mb : Nat) (r : SpdmReq) (s : State) : Host.Outcome State Fault Refusal :=
  .next (s.negotiate mb r)

/-- `GET_DIGESTS` (R316). -/
def execGetDigests (mb : Nat) (r : SpdmReq) (s : State) : Host.Outcome State Fault Refusal := .next (s.getDigests mb r)

/-- `GET_CERTIFICATE` (R316). -/
def execGetCertificate (mb : Nat) (r : SpdmReq) (s : State) : Host.Outcome State Fault Refusal :=
  .next (s.getCertificate mb r)

/-- `CHALLENGE` (R316). -/
def execChallenge (mb : Nat) (r : SpdmReq) (s : State) : Host.Outcome State Fault Refusal := .next (s.challenge mb r)

/-- `GET_MEASUREMENTS` (R317). -/
def execGetMeasurements (mb : Nat) (r : SpdmReq) (s : State) : Host.Outcome State Fault Refusal :=
  .next (s.getMeasurements mb r)

/-- `SPDM_UNSUPPORTED_REQUEST` (R315). -/
def execSpdmUnsupportedRequest (mb : Nat) (code : BitVec 8) (_ : SpdmReq) (s : State) :
    Host.Outcome State Fault Refusal := .next (s.unsupported mb code)

end Sys2Proof.Machine
end

