-- ==== Sys2Proof/Machine/Float.lean ====
section
/-!
DEFINITION. Floating-point instructions: class 1 (R132 to R148).
-/

namespace Sys2Proof.Machine

open Sys2Proof

/-! ## Forms -/

/-- What one thread of an instruction computes: a low and a high word, and the flags of each of its elements. -/
structure Elem where
  lo : W32
  hi : W32
  fl : List Flags
deriving DecidableEq, Repr

/-- One element of one word. -/
def FRes.elem (r : FRes) : Elem := ⟨BitVec.ofNat 32 r.x, 0, [r.fl]⟩

/-- One element of a pair. -/
def Pair.elem (p : Pair) : Elem := ⟨BitVec.ofNat 32 p.hi, BitVec.ofNat 32 p.lo, [p.fl]⟩

/-- The threads that compute an element of their own (R11, R132): the active ones, or the lowest under the once mark. -/
def Group.computing (g : Group) (once : Bool) : List Nat :=
  if once then (lowest g.active g.width.n).toList else threads g.active g.width.n

/-- An instruction of one result per thread (R132). -/
def floatVec (i : Instr) (s : State) (once : Bool) (d : Fld) (srcU : Group → Bool) (f : Group → Nat → Elem) :
    Host.Outcome State Fault Refusal :=
  issue i s fun g s =>
    let (s, h) := g.raise s ((g.computing once).flatMap fun t => (f g t).fl)
    .seq s (h.setV d (g.mapV once (srcU g) fun t => (f g t).lo)) (g.vcost once)

/-- An exact-pair or double-word instruction (R133, R140, R141): hi in the even register. -/
def floatPair (i : Instr) (s : State) (once : Bool) (d : Fld) (srcU : Group → Bool) (f : Group → Nat → Elem) :
    Host.Outcome State Fault Refusal :=
  issue i s fun g s =>
    let (s, h) := g.raise s ((g.computing once).flatMap fun t => (f g t).fl)
    .seq s (h.setPair d (g.mapV once (srcU g) fun t => (f g t).lo) (g.mapV once (srcU g) fun t => (f g t).hi))
      (g.pcost once)

/-- The number that an element of a V field reads as. -/
def Group.el (g : Group) (f : Fld) (t : Nat) : Nat := ((g.v f).get t).toNat

/-- The number that an element of the second register of a P field reads as. -/
def Group.el1 (g : Group) (f : Fld) (t : Nat) : Nat := ((g.v1 f).get t).toNat

/-- An instruction of one source. -/
def float1 (i : Instr) (s : State) (once : Bool) (d a : Fld) (f : RMode → Nat → FRes) :
    Host.Outcome State Fault Refusal :=
  floatVec i s once d (fun g => (g.v a).isU) fun g t => (f g.rm (g.el a t)).elem

/-- An instruction of two sources. -/
def float2 (i : Instr) (s : State) (once : Bool) (d a b : Fld) (f : RMode → Nat → Nat → FRes) :
    Host.Outcome State Fault Refusal :=
  floatVec i s once d (fun g => (g.v a).isU && (g.v b).isU) fun g t => (f g.rm (g.el a t) (g.el b t)).elem

/-- An instruction of two sources and the prior destination, which comes first. -/
def float3 (i : Instr) (s : State) (once : Bool) (d a b : Fld) (f : RMode → Nat → Nat → Nat → FRes) :
    Host.Outcome State Fault Refusal :=
  floatVec i s once d (fun g => (g.v d).isU && (g.v a).isU && (g.v b).isU) fun g t =>
    (f g.rm (g.el d t) (g.el a t) (g.el b t)).elem

/-- Two packed elements computed independently (R115, R144). -/
def packed (r0 r1 : FRes) : Elem := ⟨BitVec.ofNat 32 (r0.x + r1.x * 2 ^ 16), 0, [r0.fl, r1.fl]⟩

/-- The two packed elements of a word. -/
def half (x i : Nat) : Nat := if i = 0 then x % 2 ^ 16 else x / 2 ^ 16

/-- A packed instruction of two sources. -/
def pack2 (i : Instr) (s : State) (once : Bool) (d a b : Fld) (f : RMode → Nat → Nat → FRes) :
    Host.Outcome State Fault Refusal :=
  floatVec i s once d (fun g => (g.v a).isU && (g.v b).isU) fun g t =>
    let r := fun k => f g.rm (half (g.el a t) k) (half (g.el b t) k)
    packed (r 0) (r 1)

/-- A packed instruction of two sources and the prior destination. -/
def pack3 (i : Instr) (s : State) (once : Bool) (d a b : Fld) (f : RMode → Nat → Nat → Nat → FRes) :
    Host.Outcome State Fault Refusal :=
  floatVec i s once d (fun g => (g.v d).isU && (g.v a).isU && (g.v b).isU) fun g t =>
    let r := fun k => f g.rm (half (g.el d t) k) (half (g.el a t) k) (half (g.el b t) k)
    packed (r 0) (r 1)

/-- A compare (R138, Table 4): its condition where neither operand is a NaN, its value where one is, and whether a quiet
NaN raises NV too. DESIGN CHOICE (log 37): where the mask goes to `fpf`, it replaces the flags that the compare raised. -/
def floatCmp (i : Instr) (s : State) (d a b : Fld) (cond : Int → Int → Bool) (onNan quietNv : Bool) :
    Host.Outcome State Fault Refusal :=
  issue i s fun g s =>
    let nan := fun t => fp32.isNan (g.el a t) || fp32.isNan (g.el b t)
    let nv := fun t => fp32.isSig (g.el a t) || fp32.isSig (g.el b t) || (quietNv && nan t)
    let key := fun x => if fp32.neg x then -(fp32.mag x : Int) else fp32.mag x
    let ts := threads g.active g.width.n
    let (s, h) := g.raise s (ts.map fun t => { Flags.zero with nv := nv t })
    .seq s (h.writeS d (maskOf (ts.filter fun t => if nan t then onNan else cond (key (g.el a t)) (key (g.el b t)))))
      (g.vcost false)

/-! ## Reductions (R142, R143) -/

/-- Running sums of elements in thread order, with each step's flags. -/
def runSum (md : RMode) (acc : Nat) : List Nat → List Nat × List Flags
  | [] => ([acc], [])
  | x :: xs =>
    let r := fp32.add md acc x
    let (ys, fs) := runSum md r.x xs
    (acc :: ys, r.fl :: fs)

/-- The running sums over the active threads and the flags of the reduction. -/
def Group.sums (g : Group) (a : Fld) : List Nat × List Flags :=
  match (threads g.active g.width.n).map (g.el a) with
  | [] => ([], [])
  | x :: xs =>
    if fp32.isSig x then let (ys, fs) := runSum g.rm (fp32.quiet x) xs; (ys, Flags.invalid :: fs)
    else runSum g.rm x xs

/-- The double-word sum of pairs in thread order, with each step's flags. -/
def runDw (acc : Pair) : List (Nat × Nat) → Pair × List Flags
  | [] => (acc, [])
  | x :: xs =>
    let r := dwAdd acc.hi acc.lo x.1 x.2
    let (z, fs) := runDw r xs
    (z, r.fl :: fs)

/-- The extreme of elements in thread order, each with its thread (R143). -/
def extreme (max : Bool) : List (Nat × Nat) → Nat × Nat
  | [] => (0, 0)
  | x :: xs =>
    let better := fun (y z : Nat × Nat) => if max then fp32.rank z.1 < fp32.rank y.1 else fp32.rank y.1 < fp32.rank z.1
    xs.foldl (fun z y => if better y z then y else z) x

/-- `vfredmaxi` and `vfredmini` (R143). -/
def floatArg (i : Instr) (s : State) (d a : Fld) (max : Bool) : Host.Outcome State Fault Refusal :=
  issue i s fun g s =>
    let xs := (threads g.active g.width.n).map fun t => (g.el a t, t)
    let z := match xs.find? fun x => fp32.isNan x.1 with
      | some x => (fp32.quiet x.1, x.2)
      | none => extreme max xs
    let nv := xs.any fun x => fp32.isSig x.1
    let (s, h) := g.raise s (if nv then [Flags.invalid] else [])
    let all := fun (v : Nat) => VReg.g (List.replicate g.width.n (BitVec.ofNat 32 v))
    .seq s (h.setPair d (all z.1) (all z.2)) (g.vcost false)

/-! ## Instructions -/

/-- `vfadd` (R134). -/
def execVfadd (e u : Bool) (d a b : Fld) (s : State) : Host.Outcome State Fault Refusal :=
  float2 (.vfadd e u d a b) s u d a b fp32.add

/-- `vfsub` (R134). -/
def execVfsub (e u : Bool) (d a b : Fld) (s : State) : Host.Outcome State Fault Refusal :=
  float2 (.vfsub e u d a b) s u d a b fp32.sub

/-- `vfmul` (R134). -/
def execVfmul (e u : Bool) (d a b : Fld) (s : State) : Host.Outcome State Fault Refusal :=
  float2 (.vfmul e u d a b) s u d a b fp32.mul

/-- `vffma` (R134). -/
def execVffma (e u : Bool) (d a b : Fld) (s : State) : Host.Outcome State Fault Refusal :=
  float3 (.vffma e u d a b) s u d a b fp32.fma

/-- `vfmin` (R135). -/
def execVfmin (e u : Bool) (d a b : Fld) (s : State) : Host.Outcome State Fault Refusal :=
  float2 (.vfmin e u d a b) s u d a b fun _ => fp32.minmax false false

/-- `vfmax` (R135). -/
def execVfmax (e u : Bool) (d a b : Fld) (s : State) : Host.Outcome State Fault Refusal :=
  float2 (.vfmax e u d a b) s u d a b fun _ => fp32.minmax true false

/-- `vfminn` (R135). -/
def execVfminn (e u : Bool) (d a b : Fld) (s : State) : Host.Outcome State Fault Refusal :=
  float2 (.vfminn e u d a b) s u d a b fun _ => fp32.minmax false true

/-- `vfmaxn` (R135). -/
def execVfmaxn (e u : Bool) (d a b : Fld) (s : State) : Host.Outcome State Fault Refusal :=
  float2 (.vfmaxn e u d a b) s u d a b fun _ => fp32.minmax true true

/-- `vfabs` (R136): bit 31 cleared. -/
def execVfabs (e u : Bool) (d a : Fld) (s : State) : Host.Outcome State Fault Refusal :=
  float1 (.vfabs e u d a) s u d a fun _ x => ⟨fp32.mag x, Flags.zero⟩

/-- `vfneg` (R136): bit 31 inverted. -/
def execVfneg (e u : Bool) (d a : Fld) (s : State) : Host.Outcome State Fault Refusal :=
  float1 (.vfneg e u d a) s u d a fun _ x => ⟨flipSign x, Flags.zero⟩

/-- `vfceq` (R138). -/
def execVfceq (e : Bool) (d a b : Fld) (s : State) : Host.Outcome State Fault Refusal :=
  floatCmp (.vfceq e d a b) s d a b (fun x y => x == y) false false

/-- `vfclt` (R138). -/
def execVfclt (e : Bool) (d a b : Fld) (s : State) : Host.Outcome State Fault Refusal :=
  floatCmp (.vfclt e d a b) s d a b (fun x y => decide (x < y)) false true

/-- `vfcle` (R138). -/
def execVfcle (e : Bool) (d a b : Fld) (s : State) : Host.Outcome State Fault Refusal :=
  floatCmp (.vfcle e d a b) s d a b (fun x y => decide (x ≤ y)) false true

/-- `vfcun` (R138). -/
def execVfcun (e : Bool) (d a b : Fld) (s : State) : Host.Outcome State Fault Refusal :=
  floatCmp (.vfcun e d a b) s d a b (fun _ _ => false) true false

/-- `vfrcp` (R139). -/
def execVfrcp (e u : Bool) (d a : Fld) (s : State) : Host.Outcome State Fault Refusal :=
  float1 (.vfrcp e u d a) s u d a fun _ x => approxRcp (BitVec.ofNat 32 x)

/-- `vfrsq` (R139). -/
def execVfrsq (e u : Bool) (d a : Fld) (s : State) : Host.Outcome State Fault Refusal :=
  float1 (.vfrsq e u d a) s u d a fun _ x => approxRsq (BitVec.ofNat 32 x)

/-- `vfexp2` (R139). -/
def execVfexp2 (e u : Bool) (d a : Fld) (s : State) : Host.Outcome State Fault Refusal :=
  float1 (.vfexp2 e u d a) s u d a fun _ x => approxExp2 (BitVec.ofNat 32 x)

/-- `vflog2` (R139). -/
def execVflog2 (e u : Bool) (d a : Fld) (s : State) : Host.Outcome State Fault Refusal :=
  float1 (.vflog2 e u d a) s u d a fun _ x => approxLog2 (BitVec.ofNat 32 x)

/-- `vfsqrt` (R134). -/
def execVfsqrt (e u : Bool) (d a : Fld) (s : State) : Host.Outcome State Fault Refusal :=
  float1 (.vfsqrt e u d a) s u d a fp32.sqrt

/-- `vfdiv` (R134). -/
def execVfdiv (e u : Bool) (d a b : Fld) (s : State) : Host.Outcome State Fault Refusal :=
  float2 (.vfdiv e u d a b) s u d a b fp32.div

/-- `vfadd.x` (R140). -/
def execVfaddX (e u : Bool) (d a b : Fld) (s : State) : Host.Outcome State Fault Refusal :=
  floatPair (.vfaddX e u d a b) s u d (fun g => (g.v a).isU && (g.v b).isU) fun g t =>
    (twoSum (g.el a t) (g.el b t)).elem

/-- `vfsub.x` (R140): the sign bit of b inverted, NaNs included. -/
def execVfsubX (e u : Bool) (d a b : Fld) (s : State) : Host.Outcome State Fault Refusal :=
  floatPair (.vfsubX e u d a b) s u d (fun g => (g.v a).isU && (g.v b).isU) fun g t =>
    (twoSum (g.el a t) (flipSign (g.el b t))).elem

/-- `vfmul.x` (R140). -/
def execVfmulX (e u : Bool) (d a b : Fld) (s : State) : Host.Outcome State Fault Refusal :=
  floatPair (.vfmulX e u d a b) s u d (fun g => (g.v a).isU && (g.v b).isU) fun g t =>
    (twoProd (g.el a t) (g.el b t)).elem

/-- `vdwadd` (R141). -/
def execVdwadd (e u : Bool) (d a b : Fld) (s : State) : Host.Outcome State Fault Refusal :=
  floatPair (.vdwadd e u d a b) s u d (fun g => g.pairU a && g.pairU b) fun g t =>
    (dwAdd (g.el a t) (g.el1 a t) (g.el b t) (g.el1 b t)).elem

/-- `vdwsub` (R141). -/
def execVdwsub (e u : Bool) (d a b : Fld) (s : State) : Host.Outcome State Fault Refusal :=
  floatPair (.vdwsub e u d a b) s u d (fun g => g.pairU a && g.pairU b) fun g t =>
    (dwAdd (g.el a t) (g.el1 a t) (flipSign (g.el b t)) (flipSign (g.el1 b t))).elem

/-- `vdwmul` (R141). -/
def execVdwmul (e u : Bool) (d a b : Fld) (s : State) : Host.Outcome State Fault Refusal :=
  floatPair (.vdwmul e u d a b) s u d (fun g => g.pairU a && g.pairU b) fun g t =>
    (dwMul (g.el a t) (g.el1 a t) (g.el b t) (g.el1 b t)).elem

/-- `vdwmulf` (R141). -/
def execVdwmulf (e u : Bool) (d a b : Fld) (s : State) : Host.Outcome State Fault Refusal :=
  floatPair (.vdwmulf e u d a b) s u d (fun g => g.pairU a && (g.v b).isU) fun g t =>
    (dwMulF (g.el a t) (g.el1 a t) (g.el b t)).elem

/-- `vdwren` (R141). -/
def execVdwren (e u : Bool) (d a : Fld) (s : State) : Host.Outcome State Fault Refusal :=
  floatPair (.vdwren e u d a) s u d (fun g => g.pairU a) fun g t => (dwRen (g.el a t) (g.el1 a t)).elem

/-- `vfred.add` (R142). -/
def execVfredAdd (e : Bool) (d a : Fld) (s : State) : Host.Outcome State Fault Refusal :=
  issue (.vfredAdd e d a) s fun g s =>
    let (ys, fs) := g.sums a
    let (s, h) := g.raise s fs
    .seq s (h.setV d (.g (List.replicate g.width.n (BitVec.ofNat 32 (ys.getLastD 0))))) (g.vcost false)

/-- `vfred.x` (R142). -/
def execVfredX (e : Bool) (d a : Fld) (s : State) : Host.Outcome State Fault Refusal :=
  issue (.vfredX e d a) s fun g s =>
    let (z, fs) := match (threads g.active g.width.n).map fun t => (g.el a t, g.el1 a t) with
      | [] => ((⟨0, 0, Flags.zero⟩ : Pair), [])
      | x :: xs => let r := dwRen x.1 x.2; let (z, fs) := runDw r xs; (z, r.fl :: fs)
    let (s, h) := g.raise s fs
    let all := fun (v : Nat) => VReg.g (List.replicate g.width.n (BitVec.ofNat 32 v))
    .seq s (h.setPair d (all z.hi) (all z.lo)) (g.pcost false)

/-- `vfredmaxi` (R143). -/
def execVfredmaxi (e : Bool) (d a : Fld) (s : State) : Host.Outcome State Fault Refusal :=
  floatArg (.vfredmaxi e d a) s d a true

/-- `vfredmini` (R143). -/
def execVfredmini (e : Bool) (d a : Fld) (s : State) : Host.Outcome State Fault Refusal :=
  floatArg (.vfredmini e d a) s d a false

/-- `vfscan.add` (R142). -/
def execVfscanAdd (e : Bool) (d a : Fld) (s : State) : Host.Outcome State Fault Refusal :=
  issue (.vfscanAdd e d a) s fun g s =>
    let ts := threads g.active g.width.n
    let (ys, fs) := g.sums a
    let (s, h) := g.raise s fs
    let at? := fun t => (ts.zip ys).find? fun p => p.1 == t
    .seq s (h.setV d (.g ((List.range g.width.n).map fun t =>
      BitVec.ofNat 32 (match at? t with | some p => p.2 | none => 0)))) (g.vcost false)

/-- `vhadd.bf` (R144). -/
def execVhaddBf (e u : Bool) (d a b : Fld) (s : State) : Host.Outcome State Fault Refusal :=
  pack2 (.vhaddBf e u d a b) s u d a b bf16.add

/-- `vhmul.bf` (R144). -/
def execVhmulBf (e u : Bool) (d a b : Fld) (s : State) : Host.Outcome State Fault Refusal :=
  pack2 (.vhmulBf e u d a b) s u d a b bf16.mul

/-- `vhfma.bf` (R144). -/
def execVhfmaBf (e u : Bool) (d a b : Fld) (s : State) : Host.Outcome State Fault Refusal :=
  pack3 (.vhfmaBf e u d a b) s u d a b bf16.fma

/-- `vhadd.h` (R144). -/
def execVhaddH (e u : Bool) (d a b : Fld) (s : State) : Host.Outcome State Fault Refusal :=
  pack2 (.vhaddH e u d a b) s u d a b fp16.add

/-- `vhmul.h` (R144). -/
def execVhmulH (e u : Bool) (d a b : Fld) (s : State) : Host.Outcome State Fault Refusal :=
  pack2 (.vhmulH e u d a b) s u d a b fp16.mul

/-- `vhfma.h` (R144). -/
def execVhfmaH (e u : Bool) (d a b : Fld) (s : State) : Host.Outcome State Fault Refusal :=
  pack3 (.vhfmaH e u d a b) s u d a b fp16.fma

/-- d + a.0 · b.0 + a.1 · b.1 (R145): exact products, exact sum, one rounding. -/
def dot2 (md : RMode) (d a b : Nat) : FRes :=
  let wide := fun x k => half x k * 2 ^ 16
  let v := fun x k => fp32.val (wide x k)
  match fp32.propagate [wide a 0, wide a 1, wide b 0, wide b 1, d] with
  | some r => r
  | none => fp32.round md (FVal.sum md [fp32.val d, (v a 0).mul (v b 0), (v a 1).mul (v b 1)])

/-- `vhdot.bf` (R145). -/
def execVhdotBf (e u : Bool) (d a b : Fld) (s : State) : Host.Outcome State Fault Refusal :=
  float3 (.vhdotBf e u d a b) s u d a b dot2

/-- `vcvt` (R146): code and mode of its selector. -/
def execVcvt (e u : Bool) (d a sel : Fld) (s : State) : Host.Outcome State Fault Refusal :=
  float1 (.vcvt e u d a sel) s u d a fun _ x =>
    convert (bits sel.toNat 6 2) (RMode.ofBits sel.toNat) x

/-- `vfclass` (R137). -/
def execVfclass (e u : Bool) (d a : Fld) (s : State) : Host.Outcome State Fault Refusal :=
  float1 (.vfclass e u d a) s u d a fun _ x => ⟨2 ^ classBit x, Flags.zero⟩

/-- `vfscale` (R134). -/
def execVfscale (e u : Bool) (d a b : Fld) (s : State) : Host.Outcome State Fault Refusal :=
  float2 (.vfscale e u d a b) s u d a b fun md x n => fp32.scale md x (sextNat 32 n)

end Sys2Proof.Machine
end

