-- ==== Sys2Proof/Machine/Registers.lean ====
section
/-!
DEFINITION. The memory-mapped registers, as a write of one stores and as a read of one gives (R88, R181, R250, R286,
R295, R296, R307, R319, R330), the bytes of an error record (R333, R334), stores of a control core (R292), and
write-backs of the memory-side caches (R323). Reads of registers are functions of the state (log 33).
-/

namespace Sys2Proof.Machine

open Sys2Proof

/-! ## Writes

A write to a reserved field, to a read-only register or to an offset that holds none is discarded (R3, R286). A register
with behaviour of its own behaves here as in its own step. -/

/-- An index of a table of `n` registers, eight bytes each, that starts at `base`. -/
def regIndex (base n off : Nat) : Option Nat :=
  if base ≤ off && off < base + 8 * n && off % 8 == 0 then some ((off - base) / 8) else none

/-- A host address with bits 11:0 zero. -/
def pageAddr (v : W64) : W64 := BitVec.ofNat 64 (v.toNat / 4096 * 4096)

/-- The partition control block (R286, Table 2). -/
def State.writeControl (s : State) (part off : Nat) (v : W64) : State :=
  match off with
  | 0x18 => s.updPart part fun p => { p with tlbva := BitVec.ofNat 64 (v.toNat / 65536 * 65536) }
  | 0x20 => let scope := bits v.toNat 17 16
    if scope = 3 then s else s.invalidate part scope (bits v.toNat 14 8)
  | 0x30 => s.ringConfig part true v
  | 0x38 => s.ringConfig part false v
  | 0x48 => s.ringTailWrite part v
  | _ => s

/-- The event block (R88, Table 8). -/
def Partition.writeEvent (p : Partition) (off : Nat) (v : W64) : Partition :=
  if off = 0 then { p with evwin := v.setWidth 32 }
  else if off = 0x48 then { p with evdrop := if v.toNat % 4 = 2 then 2 else 0 }
  else if off = 0x50 then { p with stalllim := v.setWidth 32 }
  else match regIndex 0x08 8 off with
    | some k => { p with evlim := p.evlim.set k (v.setWidth 32) }
    | none => p

/-- The launch number and the command of a write to CMD (R250, R260, R262). -/
def State.writeCmd (s : State) (part : Nat) (v : W64) : State :=
  let lid := v.toNat % 65536
  match bits v.toNat 63 60 with
  | 1 => s.preemptCommand part lid
  | 2 => s.resumeCommand part lid
  | 3 => s.terminateCommand part lid
  | _ => s

/-- The launch block (R250, Table 1). -/
def State.writeLaunch (s : State) (part off : Nat) (v : W64) : State :=
  match regIndex 0 16 off, regIndex 0x80 16 off, regIndex 0x100 16 off, regIndex 0x190 4 off, regIndex 0x400 256 off with
  | some q, _, _, _, _ => s.doorbell part q v
  | _, some q, _, _, _ => s.updPart part fun p => p.clearStat q v
  | _, _, some q, _, _ => s.updPart part fun p => { p with
      queues := p.queues.mapIdx fun i x => if i = q then { x with ctx := v.toNat % 128 } else x }
  | _, _, _, some w, _ => s.updPart part fun p => p.writeResv w v
  | _, _, _, _, some c => s.updPart part fun p => { p with evcnt := p.evcnt.set c v }.holdAll
  | _, _, _, _, _ => if off = 0x1B0 then s.writeCmd part v else s

/-- A grant table entry from its word (R295, Table 7). -/
def Grant.parse (v : W64) : Grant :=
  ⟨v.getLsbD 63, v.getLsbD 62, bits v.toNat 27 12, bits v.toNat 11 0⟩

/-- The grant table. -/
def Partition.writeGrant (p : Partition) (off : Nat) (v : W64) : Partition :=
  match regIndex 0 64 off with
  | some k => { p with grants := p.grants.set k (Grant.parse v) }
  | none => p

/-- The registers of a channel (R319, Table 11). -/
def Channel.write (c : Channel) (off : Nat) (v : W64) : Channel :=
  match off with
  | 0x00 => { c with ringBase := pageAddr v }
  | 0x08 => { c with replyBase := pageAddr v }
  | 0x10 => { c with log := v.toNat % 16 }
  | 0x18 => { c with head := v.setWidth 32 }
  | _ => c

/-- A value of a field of `n` bits stored within bounds. -/
def clamp (lo hi n : Nat) (v : W64) : Nat := max lo (min hi (v.toNat % 2 ^ n))

/-- The fleet block (R330, Table 1). -/
def State.writeFleet (s : State) (off : Nat) (v : W64) : State :=
  match off with
  | 0x2000 => s.errConfig true v
  | 0x2008 => s.errConfig false v
  | 0x2018 => s.errTailSet v
  | 0x2100 => { s with pkg := { s.pkg with pwrCap := clamp 600 1800 11 v } }
  | 0x2208 => { s with pkg := { s.pkg with scrubBw := clamp 8 64 7 v } }
  | 0x2380 => { s with pkg := { s.pkg with cewin := max 1 (v.toNat % 65536) } }
  | 0x2600 => { s with pkg := { s.pkg with retryInt := max 1000 (v.toNat % 2 ^ 24) } }
  | _ => match regIndex 0x2300 16 off with
    | some c => { s with pkg := { s.pkg with celim := s.pkg.celim.set c (v.setWidth 16) } }
    | none => s

/-- A write to a register: nothing is reached without power, and nothing of a function that is not enabled. -/
def State.regWrite (s : State) (b : RegBlock) (off : Nat) (v : W64) : State :=
  if !s.pkg.powered then s
  else match b with
    | .control part => s.writeControl part off v
    | .event part => s.updPart part fun p => p.writeEvent off v
    | .launch part => s.writeLaunch part off v
    | .grant part => s.updPart part fun p => p.writeGrant off v
    | .domain _ => s
    | .channel ch => if s.pkg.functionOn ch then s.updChannel ch fun c => c.write off v else s
    | .management => if off = 0x18 then s.coldWrite v else s
    | .fleet => s.writeFleet off v

/-! ## Reads -/

/-- A word with the value of each field at its lowest bit. -/
def fields (fs : List (Nat × Nat)) : W64 := BitVec.ofNat 64 (fs.map fun f => f.2 * 2 ^ f.1).sum

/-- The bits set in a mask of 32. -/
def popcount32 (m : BitVec 32) : Nat := (List.range 32).countP fun i => m.getLsbD i

/-- The 128-bit value of CTXLIVE, by word. -/
def Partition.ctxLive (p : Partition) (w : Nat) : W64 :=
  fields ((List.range 64).map fun i => (i, b2n (p.hasCtx (64 * w + i))))

/-- The partition control block (R286, Table 2). -/
def Partition.readControl (p : Partition) (off : Nat) : W64 :=
  match off with
  | 0x00 => fields [(0, p.num), (8, popcount32 p.ccs), (16, popcount32 p.clus)]
  | 0x08 => fields [(0, p.clus.toNat), (32, p.ports.toNat)]
  | 0x10 => BitVec.ofNat 64 p.bound
  | 0x18 => p.tlbva
  | 0x28 => fields [(0, b2n p.tlbBusy)]
  | 0x30 => p.ringBase
  | 0x38 => BitVec.ofNat 64 p.ringLog
  | 0x40 => p.ringHead.setWidth 64
  | 0x48 => p.ringTail.setWidth 64
  | 0x50 => p.ringLost
  | 0x60 => p.ctxLive 0
  | 0x68 => p.ctxLive 1
  | _ => 0

/-- The event block (R88, R181). -/
def Partition.readEvent (p : Partition) (off : Nat) : W64 :=
  match regIndex 0x08 8 off, regIndex 0x58 8 off with
  | some k, _ => (p.evlim.getD k 0).setWidth 64
  | _, some k => p.evsum.getD k 0
  | _, _ => match off with
    | 0x00 => p.evwin.setWidth 64
    | 0x48 => BitVec.ofNat 64 p.evdrop
    | 0x50 => p.stalllim.setWidth 64
    | 0x98 => p.latchbyp
    | _ => 0

/-- LQSTAT of a queue: HEADLID, PEND, DROP and BAD (R250). -/
def Partition.readStat (p : Partition) (q : Nat) : W64 :=
  match p.queues[q]? with
  | none => 0
  | some x =>
    let l := p.inQueue q
    fields [(48, (l.map fun x => launchNumber x.lid).headD 0), (32, l.length), (31, b2n x.drop), (30, b2n x.bad)]

/-- The launch block (R250, Table 1). -/
def Partition.readLaunch (p : Partition) (off : Nat) : W64 :=
  match regIndex 0x80 16 off, regIndex 0x100 16 off, regIndex 0x190 4 off, regIndex 0x400 256 off with
  | some q, _, _, _ => p.readStat q
  | _, some q, _, _ => BitVec.ofNat 64 (p.queueCtx q)
  | _, _, some w, _ => (p.resvcore >>> (64 * w)).setWidth 64
  | _, _, _, some c => p.evcnt.getD c 0
  | _, _, _, _ => match off with
    | 0x180 => p.badaddr
    | 0x188 => BitVec.ofNat 64 p.badwhy
    | 0x1B8 => fields [(0, b2n p.busy), (1, b2n p.nolid)]
    | _ => 0

/-- A grant table entry as its word. -/
def Grant.word (g : Grant) : W64 := fields [(63, b2n g.valid), (62, b2n g.anyCtx), (12, g.dev), (0, g.world)]

/-- The grant table. -/
def Partition.readGrant (p : Partition) (off : Nat) : W64 :=
  match regIndex 0 64 off with
  | some k => match p.grants[k]? with | some g => g.word | none => 0
  | none => 0

/-- An entry of the containment domain table: CLASS, TAGAT and WIDEN, all equal to the class (R296). -/
def readDomain (off : Nat) : W64 :=
  match regIndex 0 16 off with
  | some c => fields [(0, c), (8, c), (16, c)]
  | none => 0

/-- The registers of a channel (R319, Table 11). -/
def Channel.read (c : Channel) (off : Nat) : W64 :=
  match off with
  | 0x00 => c.ringBase
  | 0x08 => c.replyBase
  | 0x10 => BitVec.ofNat 64 c.log
  | 0x18 => c.head.setWidth 64
  | 0x20 => c.tail.setWidth 64
  | 0x28 => c.next
  | 0x30 => fields [(0, b2n c.keyed), (1, b2n c.expired)]
  | 0x38 => c.dup
  | 0x40 => c.badtag
  | 0x48 => c.gap
  | _ => 0

/-- HBMOK: the stacks trained and in service (R307). -/
def Package.hbmOk (k : Package) : Nat := ((List.range 8).map fun i => b2n (k.trained.getD i .waiting == .passed) * 2 ^ i).sum

/-- The management block (R307, Table 1). -/
def Package.readManagement (k : Package) (off : Nat) : W64 :=
  match off with
  | 0x00 => fields [(0, k.stage), (3, b2n k.degr), (4, b2n k.woke), (8, k.hbmOk), (16, k.fail)]
  | 0x08 => k.clavail.setWidth 64
  | 0x10 => k.sleepcnt
  | 0x18 => fields [(1, b2n (k.sleepSt == .entering))]
  | _ => 0

/-- HELD, CLEAN, QUEUED and RETIRED, read as one snapshot (R330). -/
def Package.granWord (k : Package) : W64 :=
  let n := fun (p : Gran → Bool) => k.grans.countP p
  fields [(0, n fun g => match g with | .held _ => true | _ => false), (12, n (· == .clean)),
    (24, n fun g => g == .queued || g == .scrubbing), (36, n (· == .retired))]

/-- Word `w` of a fabric port (R330). -/
def Port.word (p : Port) (w : Nat) : W64 :=
  if w = 0 then fields [(63, b2n p.up), (60, p.lanes), (48, p.owner), (32, p.flaps), (0, p.feccor.toNat)]
  else fields [(32, p.resends.toNat), (0, p.timeouts.toNat)]

/-- The fleet block (R330, Table 1). A read of PWRPEAK also clears it, in its own step. -/
def Package.readFleet (k : Package) (off : Nat) : W64 :=
  match regIndex 0x2300 16 off, regIndex 0x2400 64 off with
  | some c, _ => fields [(32, (k.cecnt.getD c 0).toNat), (0, (k.celim.getD c 0).toNat)]
  | _, some i => match k.ports[i / 2]? with | some p => p.word (i % 2) | none => 0
  | _, _ => match off with
    | 0x2000 => k.errBase
    | 0x2008 => BitVec.ofNat 64 k.errLog
    | 0x2010 => k.errHead.setWidth 64
    | 0x2018 => k.errTail.setWidth 64
    | 0x2020 => k.errLost
    | 0x2100 => BitVec.ofNat 64 k.pwrCap
    | 0x2108 => fields [(0, k.pwrAvg), (16, k.pwrPeak)]
    | 0x2110 => fields [(0, k.clkStep), (8, k.throt.toNat)]
    | 0x2118 => fields [(0, k.flow), (8, k.inlet), (16, k.tj)]
    | 0x2200 => k.granWord
    | 0x2208 => BitVec.ofNat 64 k.scrubBw
    | 0x2210 => k.scrubDone
    | 0x2380 => BitVec.ofNat 64 k.cewin
    | 0x2600 => BitVec.ofNat 64 k.retryInt
    | _ => 0

/-- A register of a partition as a read gives it; 0 for a partition that does not exist. -/
def State.readPartReg (s : State) (part : Nat) (f : Partition → W64) : W64 :=
  match s.part? part with
  | some p => f p
  | none => 0

/-- A register as a read gives it; none where the read completes as an unsupported request, as one of a function that is not
enabled does (R313). -/
def State.regRead (s : State) (b : RegBlock) (off : Nat) : Option W64 :=
  match b with
  | .control part => some (s.readPartReg part fun p => p.readControl off)
  | .event part => some (s.readPartReg part fun p => p.readEvent off)
  | .launch part => some (s.readPartReg part fun p => p.readLaunch off)
  | .grant part => some (s.readPartReg part fun p => p.readGrant off)
  | .domain _ => some (readDomain off)
  | .channel ch => if s.pkg.functionOn ch then s.pkg.channels[ch]?.map fun c => c.read off else none
  | .management => some (s.pkg.readManagement off)
  | .fleet => some (s.pkg.readFleet off)

/-! ## An error record as the host reads it (R333, R334) -/

/-- The Syrnastad containment section of a record (R334, Table 4): the lowest 1,024 worlds at most, with flag bit 3 for a list
that is cut. -/
def Cper.section (c : Cper) : List Byte :=
  let cut := decide (1024 < c.worlds.length)
  let ws := c.worlds.take 1024
  let flags := if cut then c.flags ||| 8 else c.flags
  leBytes 4 1 ++ leBytes 4 c.report ++ leBytes 1 c.kind ++ leBytes 1 c.cause ++ leBytes 1 c.cls ++ leBytes 1 flags
    ++ leBytes 4 c.partMask.toNat ++ leBytes 8 c.unit ++ leBytes 8 c.addr ++ leBytes 2 ws.length ++ leBytes 6 0
    ++ ws.flatMap (leBytes 2) ++ leBytes ((8 - 2 * ws.length % 8) % 8) 0

/-- The bytes of a GUID {53594E53-<k>-4753-8E37-000000000724} (R333): its first three fields low byte first (PRESUMED,
log 28). -/
def cperGuid (k : Nat) : List Byte :=
  leBytes 4 0x53594E53 ++ leBytes 2 k ++ leBytes 2 0x4753 ++ [0x8E, 0x37, 0, 0, 0, 0, 0x07, 0x24]

/-- The 128 bytes of the header of a record with `n` bytes of section (R333, Table 3; the fields' places PRESUMED from the CPER
format, log 28). -/
def Cper.header (c : Cper) (n : Nat) : List Byte :=
  [0x43, 0x50, 0x45, 0x52] ++ leBytes 2 0x0100 ++ leBytes 4 0 ++ leBytes 2 1 ++ leBytes 4 c.severity ++ leBytes 4 0
    ++ leBytes 4 (200 + n) ++ leBytes 8 0 ++ leBytes 16 0 ++ leBytes 16 0 ++ cperGuid 0 ++ cperGuid 1
    ++ leBytes 8 c.report ++ leBytes 4 0 ++ leBytes 8 0 ++ leBytes 12 0

/-- The 72 bytes of the section descriptor (R333, Table 3). -/
def Cper.descriptor (c : Cper) (n : Nat) : List Byte :=
  leBytes 4 200 ++ leBytes 4 n ++ leBytes 2 0 ++ leBytes 1 0 ++ leBytes 1 0 ++ leBytes 4 0 ++ cperGuid 2 ++ leBytes 16 0
    ++ leBytes 4 c.severity ++ leBytes 20 0

/-- A record as it stands in its slot: header, descriptor and section. -/
def Cper.bytes (c : Cper) : List Byte :=
  c.header c.section.length ++ c.descriptor c.section.length ++ c.section

/-! ## Steps -/

/-- A control core stores to its partition's HBM, below its bound (R289, R292). -/
def State.coreStore (s : State) (part addr : Nat) (bs : List Byte) : State :=
  match s.part? part with
  | none => s
  | some p => if !s.pkg.powered || p.bound < addr + bs.length then s else s.writePart p addr bs

/-- A modified line of a memory-side cache written back: HBM holds it under the entry of its slot as it stands now (R322,
R323). -/
def State.writeBack (s : State) (line : Nat) : State :=
  let l := s.line (lineOf line)
  if l.dirty then s.setLine (s.lineStored l) else s

/-- `REGISTER_WRITE` (R3). -/
def execRegisterWrite (blk : RegBlock) (off : Nat) (v : BitVec 64) (s : State) : Host.Outcome State Fault Refusal :=
  .next (s.regWrite blk off v)

/-- `CONTROL_CORE_STORE` (R292). -/
def execControlCoreStore (part addr : Nat) (bytes : List (BitVec 8)) (s : State) : Host.Outcome State Fault Refusal :=
  .next (s.coreStore part addr bytes)

/-- `MEMORY_SIDE_CACHE_WRITE_BACK` (R323). -/
def execMemorySideCacheWriteBack (line : Nat) (s : State) : Host.Outcome State Fault Refusal := .next (s.writeBack line)

end Sys2Proof.Machine
end

