-- ==== Sys2Proof/Machine/Dispatch.lean ====
section
/-!
DEFINITION. One arm for every step of the opcode table: each is a direct call of its meaning.
-/

namespace Sys2Proof.Machine

open Sys2Proof

/-- The meaning of one step of the device. -/
def exec (i : Instr) (s : State) : Host.Outcome State Fault Refusal :=
  match i with
  | .vadd e u d a b => Sys2Proof.Machine.execVadd e u d a b s
  | .vsub e u d a b => Sys2Proof.Machine.execVsub e u d a b s
  | .vmul e u d a b => Sys2Proof.Machine.execVmul e u d a b s
  | .vmulhiI e u d a b => Sys2Proof.Machine.execVmulhiI e u d a b s
  | .vmulhiN e u d a b => Sys2Proof.Machine.execVmulhiN e u d a b s
  | .vmac e u d a b => Sys2Proof.Machine.execVmac e u d a b s
  | .vand e u d a b => Sys2Proof.Machine.execVand e u d a b s
  | .vor e u d a b => Sys2Proof.Machine.execVor e u d a b s
  | .vxor e u d a b => Sys2Proof.Machine.execVxor e u d a b s
  | .vandn e u d a b => Sys2Proof.Machine.execVandn e u d a b s
  | .vshl e u d a b => Sys2Proof.Machine.execVshl e u d a b s
  | .vshrN e u d a b => Sys2Proof.Machine.execVshrN e u d a b s
  | .vshrI e u d a b => Sys2Proof.Machine.execVshrI e u d a b s
  | .vrotl e u d a b => Sys2Proof.Machine.execVrotl e u d a b s
  | .vfshl e u d a b => Sys2Proof.Machine.execVfshl e u d a b s
  | .vfshr e u d a b => Sys2Proof.Machine.execVfshr e u d a b s
  | .vminI e u d a b => Sys2Proof.Machine.execVminI e u d a b s
  | .vmaxI e u d a b => Sys2Proof.Machine.execVmaxI e u d a b s
  | .vminN e u d a b => Sys2Proof.Machine.execVminN e u d a b s
  | .vmaxN e u d a b => Sys2Proof.Machine.execVmaxN e u d a b s
  | .vpopc e u d a => Sys2Proof.Machine.execVpopc e u d a s
  | .vclz e u d a => Sys2Proof.Machine.execVclz e u d a s
  | .vbrev e u d a => Sys2Proof.Machine.execVbrev e u d a s
  | .vceq e d a b => Sys2Proof.Machine.execVceq e d a b s
  | .vcne e d a b => Sys2Proof.Machine.execVcne e d a b s
  | .vcltI e d a b => Sys2Proof.Machine.execVcltI e d a b s
  | .vcleI e d a b => Sys2Proof.Machine.execVcleI e d a b s
  | .vcltN e d a b => Sys2Proof.Machine.execVcltN e d a b s
  | .vcleN e d a b => Sys2Proof.Machine.execVcleN e d a b s
  | .vsel e u d a b => Sys2Proof.Machine.execVsel e u d a b s
  | .vmov e u d a => Sys2Proof.Machine.execVmov e u d a s
  | .vaddW e u d a b => Sys2Proof.Machine.execVaddW e u d a b s
  | .vsubW e u d a b => Sys2Proof.Machine.execVsubW e u d a b s
  | .vshlW e u d a b => Sys2Proof.Machine.execVshlW e u d a b s
  | .vshrWN e u d a b => Sys2Proof.Machine.execVshrWN e u d a b s
  | .vshrWI e u d a b => Sys2Proof.Machine.execVshrWI e u d a b s
  | .vceqW e d a b => Sys2Proof.Machine.execVceqW e d a b s
  | .vcltWI e d a b => Sys2Proof.Machine.execVcltWI e d a b s
  | .vcltWN e d a b => Sys2Proof.Machine.execVcltWN e d a b s
  | .vmulW e u d a b => Sys2Proof.Machine.execVmulW e u d a b s
  | .vtid e d => Sys2Proof.Machine.execVtid e d s
  | .vxsh e d a b => Sys2Proof.Machine.execVxsh e d a b s
  | .vxshu e d a b => Sys2Proof.Machine.execVxshu e d a b s
  | .vscanAdd e d a => Sys2Proof.Machine.execVscanAdd e d a s
  | .vredAdd e d a => Sys2Proof.Machine.execVredAdd e d a s
  | .vmatchr e d a b => Sys2Proof.Machine.execVmatchr e d a b s
  | .vredmaxiI e d a => Sys2Proof.Machine.execVredmaxiI e d a s
  | .vredminiI e d a => Sys2Proof.Machine.execVredminiI e d a s
  | .vaddmod e u d a b => Sys2Proof.Machine.execVaddmod e u d a b s
  | .vsubmod e u d a b => Sys2Proof.Machine.execVsubmod e u d a b s
  | .vmulmod e u d a b => Sys2Proof.Machine.execVmulmod e u d a b s
  | .vmacmod e u d a b => Sys2Proof.Machine.execVmacmod e u d a b s
  | .vshape e d a => Sys2Proof.Machine.execVshape e d a s
  | .vgen e d a => Sys2Proof.Machine.execVgen e d a s
  | .vlop3 e u d a b c k => Sys2Proof.Machine.execVlop3 e u d a b c k s
  | .mqld e a n => Sys2Proof.Machine.execMqld e a n s
  | .vfadd e u d a b => Sys2Proof.Machine.execVfadd e u d a b s
  | .vfsub e u d a b => Sys2Proof.Machine.execVfsub e u d a b s
  | .vfmul e u d a b => Sys2Proof.Machine.execVfmul e u d a b s
  | .vffma e u d a b => Sys2Proof.Machine.execVffma e u d a b s
  | .vfmin e u d a b => Sys2Proof.Machine.execVfmin e u d a b s
  | .vfmax e u d a b => Sys2Proof.Machine.execVfmax e u d a b s
  | .vfminn e u d a b => Sys2Proof.Machine.execVfminn e u d a b s
  | .vfmaxn e u d a b => Sys2Proof.Machine.execVfmaxn e u d a b s
  | .vfabs e u d a => Sys2Proof.Machine.execVfabs e u d a s
  | .vfneg e u d a => Sys2Proof.Machine.execVfneg e u d a s
  | .vfceq e d a b => Sys2Proof.Machine.execVfceq e d a b s
  | .vfclt e d a b => Sys2Proof.Machine.execVfclt e d a b s
  | .vfcle e d a b => Sys2Proof.Machine.execVfcle e d a b s
  | .vfcun e d a b => Sys2Proof.Machine.execVfcun e d a b s
  | .vfrcp e u d a => Sys2Proof.Machine.execVfrcp e u d a s
  | .vfrsq e u d a => Sys2Proof.Machine.execVfrsq e u d a s
  | .vfsqrt e u d a => Sys2Proof.Machine.execVfsqrt e u d a s
  | .vfdiv e u d a b => Sys2Proof.Machine.execVfdiv e u d a b s
  | .vfexp2 e u d a => Sys2Proof.Machine.execVfexp2 e u d a s
  | .vflog2 e u d a => Sys2Proof.Machine.execVflog2 e u d a s
  | .vfaddX e u d a b => Sys2Proof.Machine.execVfaddX e u d a b s
  | .vfsubX e u d a b => Sys2Proof.Machine.execVfsubX e u d a b s
  | .vfmulX e u d a b => Sys2Proof.Machine.execVfmulX e u d a b s
  | .vdwadd e u d a b => Sys2Proof.Machine.execVdwadd e u d a b s
  | .vdwsub e u d a b => Sys2Proof.Machine.execVdwsub e u d a b s
  | .vdwmul e u d a b => Sys2Proof.Machine.execVdwmul e u d a b s
  | .vdwmulf e u d a b => Sys2Proof.Machine.execVdwmulf e u d a b s
  | .vdwren e u d a => Sys2Proof.Machine.execVdwren e u d a s
  | .vfredAdd e d a => Sys2Proof.Machine.execVfredAdd e d a s
  | .vfredX e d a => Sys2Proof.Machine.execVfredX e d a s
  | .vfredmaxi e d a => Sys2Proof.Machine.execVfredmaxi e d a s
  | .vfredmini e d a => Sys2Proof.Machine.execVfredmini e d a s
  | .vfscanAdd e d a => Sys2Proof.Machine.execVfscanAdd e d a s
  | .vhaddBf e u d a b => Sys2Proof.Machine.execVhaddBf e u d a b s
  | .vhmulBf e u d a b => Sys2Proof.Machine.execVhmulBf e u d a b s
  | .vhfmaBf e u d a b => Sys2Proof.Machine.execVhfmaBf e u d a b s
  | .vhaddH e u d a b => Sys2Proof.Machine.execVhaddH e u d a b s
  | .vhmulH e u d a b => Sys2Proof.Machine.execVhmulH e u d a b s
  | .vhfmaH e u d a b => Sys2Proof.Machine.execVhfmaH e u d a b s
  | .vhdotBf e u d a b => Sys2Proof.Machine.execVhdotBf e u d a b s
  | .vcvt e u d a sel => Sys2Proof.Machine.execVcvt e u d a sel s
  | .vfclass e u d a => Sys2Proof.Machine.execVfclass e u d a s
  | .vfscale e u d a b => Sys2Proof.Machine.execVfscale e u d a b s
  | .vsaddS16 e d a b => Sys2Proof.Machine.execVsaddS16 e d a b s
  | .vssubS16 e d a b => Sys2Proof.Machine.execVssubS16 e d a b s
  | .vsaddS32 e d a b => Sys2Proof.Machine.execVsaddS32 e d a b s
  | .vssubS32 e d a b => Sys2Proof.Machine.execVssubS32 e d a b s
  | .vsaddpS16 e d a b => Sys2Proof.Machine.execVsaddpS16 e d a b s
  | .vsaddpS32 e d a b => Sys2Proof.Machine.execVsaddpS32 e d a b s
  | .vsmulpS16 e d a b => Sys2Proof.Machine.execVsmulpS16 e d a b s
  | .vsmulpS32 e d a b => Sys2Proof.Machine.execVsmulpS32 e d a b s
  | .vsmulS16 e d a b => Sys2Proof.Machine.execVsmulS16 e d a b s
  | .vsmulS32 e d a b => Sys2Proof.Machine.execVsmulS32 e d a b s
  | .vstruncS16 e d a f => Sys2Proof.Machine.execVstruncS16 e d a f s
  | .vstruncS32 e d a f => Sys2Proof.Machine.execVstruncS32 e d a f s
  | .vsltzS16 e d a => Sys2Proof.Machine.execVsltzS16 e d a s
  | .vsltzS32 e d a => Sys2Proof.Machine.execVsltzS32 e d a s
  | .vsb2aS16 e d a => Sys2Proof.Machine.execVsb2aS16 e d a s
  | .vsb2aS32 e d a => Sys2Proof.Machine.execVsb2aS32 e d a s
  | .vsxorB e d a b => Sys2Proof.Machine.execVsxorB e d a b s
  | .vsandB e d a b => Sys2Proof.Machine.execVsandB e d a b s
  | .vsopenS16 e d a => Sys2Proof.Machine.execVsopenS16 e d a s
  | .vsopenS32 e d a => Sys2Proof.Machine.execVsopenS32 e d a s
  | .vsredS16 e d a => Sys2Proof.Machine.execVsredS16 e d a s
  | .vsredS32 e d a => Sys2Proof.Machine.execVsredS32 e d a s
  | .cbind e d a => Sys2Proof.Machine.execCbind e d a s
  | .csend e d k b => Sys2Proof.Machine.execCsend e d k b s
  | .crecv e d a k => Sys2Proof.Machine.execCrecv e d a k s
  | .cchoose e d k b => Sys2Proof.Machine.execCchoose e d k b s
  | .cdeleg e d a => Sys2Proof.Machine.execCdeleg e d a s
  | .cstate e d a => Sys2Proof.Machine.execCstate e d a s
  | .cabort e d => Sys2Proof.Machine.execCabort e d s
  | .tlevel e d a => Sys2Proof.Machine.execTlevel e d a s
  | .tfillSend e d a b q dst => Sys2Proof.Machine.execTfillSend e d a b q dst s
  | .tfillAccept e d a b q => Sys2Proof.Machine.execTfillAccept e d a b q s
  | .tburn e d a q => Sys2Proof.Machine.execTburn e d a q s
  | .xopen e d a b ty dsp ssp => Sys2Proof.Machine.execXopen e d a b ty dsp ssp s
  | .sadd e d a b => Sys2Proof.Machine.execSadd e d a b s
  | .ssub e d a b => Sys2Proof.Machine.execSsub e d a b s
  | .smul e d a b => Sys2Proof.Machine.execSmul e d a b s
  | .smulhiN e d a b => Sys2Proof.Machine.execSmulhiN e d a b s
  | .sand e d a b => Sys2Proof.Machine.execSand e d a b s
  | .sor e d a b => Sys2Proof.Machine.execSor e d a b s
  | .sxor e d a b => Sys2Proof.Machine.execSxor e d a b s
  | .sandn e d a b => Sys2Proof.Machine.execSandn e d a b s
  | .sshl e d a b => Sys2Proof.Machine.execSshl e d a b s
  | .sshrN e d a b => Sys2Proof.Machine.execSshrN e d a b s
  | .sshrI e d a b => Sys2Proof.Machine.execSshrI e d a b s
  | .sceq e d a b => Sys2Proof.Machine.execSceq e d a b s
  | .scltI e d a b => Sys2Proof.Machine.execScltI e d a b s
  | .scltN e d a b => Sys2Proof.Machine.execScltN e d a b s
  | .sminI e d a b => Sys2Proof.Machine.execSminI e d a b s
  | .smaxI e d a b => Sys2Proof.Machine.execSmaxI e d a b s
  | .smov e d a => Sys2Proof.Machine.execSmov e d a s
  | .spopc e d a => Sys2Proof.Machine.execSpopc e d a s
  | .sclz e d a => Sys2Proof.Machine.execSclz e d a s
  | .sctz e d a => Sys2Proof.Machine.execSctz e d a s
  | .sfirst e d a => Sys2Proof.Machine.execSfirst e d a s
  | .vaddi e u d a im => Sys2Proof.Machine.execVaddi e u d a im s
  | .vmuli e u d a im => Sys2Proof.Machine.execVmuli e u d a im s
  | .vandi e u d a im => Sys2Proof.Machine.execVandi e u d a im s
  | .vshli e u d a im => Sys2Proof.Machine.execVshli e u d a im s
  | .vshriN e u d a im => Sys2Proof.Machine.execVshriN e u d a im s
  | .vshriI e u d a im => Sys2Proof.Machine.execVshriI e u d a im s
  | .vceqi e d a im => Sys2Proof.Machine.execVceqi e d a im s
  | .vcltiI e d a im => Sys2Proof.Machine.execVcltiI e d a im s
  | .saddi e d a im => Sys2Proof.Machine.execSaddi e d a im s
  | .sandi e d a im => Sys2Proof.Machine.execSandi e d a im s
  | .sori e d a im => Sys2Proof.Machine.execSori e d a im s
  | .sshli e d a im => Sys2Proof.Machine.execSshli e d a im s
  | .sshriN e d a im => Sys2Proof.Machine.execSshriN e d a im s
  | .sceqi e d a im => Sys2Proof.Machine.execSceqi e d a im s
  | .scltiI e d a im => Sys2Proof.Machine.execScltiI e d a im s
  | .smovi e d im => Sys2Proof.Machine.execSmovi e d im s
  | .sli e d k => Sys2Proof.Machine.execSli e d k s
  | .vli e u d k => Sys2Proof.Machine.execVli e u d k s
  | .ldg e u d a f => Sys2Proof.Machine.execLdg e u d a f s
  | .stg e u d a f => Sys2Proof.Machine.execStg e u d a f s
  | .ldgW e u d a f => Sys2Proof.Machine.execLdgW e u d a f s
  | .stgW e u d a f => Sys2Proof.Machine.execStgW e u d a f s
  | .ldgQ e u d a f => Sys2Proof.Machine.execLdgQ e u d a f s
  | .stgQ e u d a f => Sys2Proof.Machine.execStgQ e u d a f s
  | .lds e u d a f => Sys2Proof.Machine.execLds e u d a f s
  | .sts e u d a f => Sys2Proof.Machine.execSts e u d a f s
  | .ldsW e u d a f => Sys2Proof.Machine.execLdsW e u d a f s
  | .stsW e u d a f => Sys2Proof.Machine.execStsW e u d a f s
  | .ldsQ e u d a f => Sys2Proof.Machine.execLdsQ e u d a f s
  | .stsQ e u d a f => Sys2Proof.Machine.execStsQ e u d a f s
  | .sld e d a f => Sys2Proof.Machine.execSld e d a f s
  | .sst e d a f => Sys2Proof.Machine.execSst e d a f s
  | .slds e d a f => Sys2Proof.Machine.execSlds e d a f s
  | .ssts e d a f => Sys2Proof.Machine.execSsts e d a f s
  | .ldgX e u d a b sign half off => Sys2Proof.Machine.execLdgX e u d a b sign half off s
  | .stgX e u d a b half off => Sys2Proof.Machine.execStgX e u d a b half off s
  | .ldsX e u d a b sign half off => Sys2Proof.Machine.execLdsX e u d a b sign half off s
  | .stsX e u d a b half off => Sys2Proof.Machine.execStsX e u d a b half off s
  | .ldd e u d a off => Sys2Proof.Machine.execLdd e u d a off s
  | .std e u d a off => Sys2Proof.Machine.execStd e u d a off s
  | .atom e u d a b off sc ord ret w op => Sys2Proof.Machine.execAtom e u d a b off sc ord ret w op s
  | .atoms e u d a b off sc ord ret w op => Sys2Proof.Machine.execAtoms e u d a b off sc ord ret w op s
  | .atomd e u d a b off sc ord ret w op => Sys2Proof.Machine.execAtomd e u d a b off sc ord ret w op s
  | .fence e q p sc => Sys2Proof.Machine.execFence e q p sc s
  | .xsend e d a b nf fsp sp size x => Sys2Proof.Machine.execXsend e d a b nf fsp sp size x s
  | .xget e d a b sp size => Sys2Proof.Machine.execXget e d a b sp size s
  | .xred e d a b op ret sp size x => Sys2Proof.Machine.execXred e d a b op ret sp size x s
  | .xapp e d a b ret size x => Sys2Proof.Machine.execXapp e d a b ret size x s
  | .mmloop e d a b binc ab z reuse mode nk => Sys2Proof.Machine.execMmloop e d a b binc ab z reuse mode nk s
  | .cpy e d a b dsp ssp ab => Sys2Proof.Machine.execCpy e d a b dsp ssp ab s
  | .cunpack e d a b ssp rows gran ty ab => Sys2Proof.Machine.execCunpack e d a b ssp rows gran ty ab s
  | .cbinit e a b n => Sys2Proof.Machine.execCbinit e a b n s
  | .cbpush e a b ssp n => Sys2Proof.Machine.execCbpush e a b ssp n s
  | .cbpop e d n => Sys2Proof.Machine.execCbpop e d n s
  | .cbfree e n => Sys2Proof.Machine.execCbfree e n s
  | .abarInit e a n => Sys2Proof.Machine.execAbarInit e a n s
  | .abarArrive e n => Sys2Proof.Machine.execAbarArrive e n s
  | .abarWait e a n => Sys2Proof.Machine.execAbarWait e a n s
  | .launch e a q => Sys2Proof.Machine.execLaunch e a q s
  | .evcfg e d set action cls => Sys2Proof.Machine.execEvcfg e d set action cls s
  | .br e t => Sys2Proof.Machine.execBr e t s
  | .bz e c t => Sys2Proof.Machine.execBz e c t s
  | .bnz e c t => Sys2Proof.Machine.execBnz e c t s
  | .bmz e c t => Sys2Proof.Machine.execBmz e c t s
  | .bmnz e c t => Sys2Proof.Machine.execBmnz e c t s
  | .call e c t => Sys2Proof.Machine.execCall e c t s
  | .jr e c => Sys2Proof.Machine.execJr e c s
  | .loop e c t => Sys2Proof.Machine.execLoop e c t s
  | .trap e k => Sys2Proof.Machine.execTrap e k s
  | .wbase e n => Sys2Proof.Machine.execWbase e n s
  | .bar e n => Sys2Proof.Machine.execBar e n s
  | .exit e => Sys2Proof.Machine.execExit e s
  | .yield e => Sys2Proof.Machine.execYield e s
  | .sys e c n => Sys2Proof.Machine.execSys e c n s
  | .rtrap e => Sys2Proof.Machine.execRtrap e s
  | .laneChoice core lane => Sys2Proof.Machine.execLaneChoice core lane s
  | .asyncReturn n => Sys2Proof.Machine.execAsyncReturn n s
  | .runCommit g => Sys2Proof.Machine.execRunCommit g s
  | .yieldedRunCommit g => Sys2Proof.Machine.execYieldedRunCommit g s
  | .barrierStall team bar => Sys2Proof.Machine.execBarrierStall team bar s
  | .tripleStarvation g idx => Sys2Proof.Machine.execTripleStarvation g idx s
  | .eventWindowRestart core => Sys2Proof.Machine.execEventWindowRestart core s
  | .engineAccept g => Sys2Proof.Machine.execEngineAccept g s
  | .mmloopComplete core => Sys2Proof.Machine.execMmloopComplete core s
  | .copyComplete core slot => Sys2Proof.Machine.execCopyComplete core slot s
  | .cbFillComplete core slot => Sys2Proof.Machine.execCbFillComplete core slot s
  | .cbFillStart core slot => Sys2Proof.Machine.execCbFillStart core slot s
  | .abarArrivalCount team bar => Sys2Proof.Machine.execAbarArrivalCount team bar s
  | .cbfreeSlotFreed team buf => Sys2Proof.Machine.execCbfreeSlotFreed team buf s
  | .sysAnswer g idx v => Sys2Proof.Machine.execSysAnswer g idx v s
  | .launchRecordAccept g => Sys2Proof.Machine.execLaunchRecordAccept g s
  | .lqdoor part q addr => Sys2Proof.Machine.execLqdoor part q addr s
  | .lqstatClear part q v => Sys2Proof.Machine.execLqstatClear part q v s
  | .preempt part lid => Sys2Proof.Machine.execPreempt part lid s
  | .resume part lid => Sys2Proof.Machine.execResume part lid s
  | .terminate part lid => Sys2Proof.Machine.execTerminate part lid s
  | .evcntWrite part c v => Sys2Proof.Machine.execEvcntWrite part c v s
  | .resvcoreWrite part w v => Sys2Proof.Machine.execResvcoreWrite part w v s
  | .placeTeam part => Sys2Proof.Machine.execPlaceTeam part s
  | .coopPlace part => Sys2Proof.Machine.execCoopPlace part s
  | .groupRestore teamImage uid => Sys2Proof.Machine.execGroupRestore teamImage uid s
  | .teamComplete team => Sys2Proof.Machine.execTeamComplete team s
  | .coreRemoveComplete part => Sys2Proof.Machine.execCoreRemoveComplete part s
  | .gateSendAccept conv role => Sys2Proof.Machine.execGateSendAccept conv role s
  | .gateExchangeComplete conv ex party => Sys2Proof.Machine.execGateExchangeComplete conv ex party s
  | .remoteRequest p => Sys2Proof.Machine.execRemoteRequest p s
  | .remoteAck req answers => Sys2Proof.Machine.execRemoteAck req answers s
  | .remoteResend req => Sys2Proof.Machine.execRemoteResend req s
  | .portDown port lanes => Sys2Proof.Machine.execPortDown port lanes s
  | .portUp port lanes => Sys2Proof.Machine.execPortUp port lanes s
  | .ctxCreate part cc a0 => Sys2Proof.Machine.execCtxCreate part cc a0 s
  | .ctxDestroy part cc a0 a1 => Sys2Proof.Machine.execCtxDestroy part cc a0 a1 s
  | .ctxRoot part cc a0 a1 => Sys2Proof.Machine.execCtxRoot part cc a0 a1 s
  | .groupResume part cc a0 a1 a2 => Sys2Proof.Machine.execGroupResume part cc a0 a1 a2 s
  | .choreoLoad part cc a0 => Sys2Proof.Machine.execChoreoLoad part cc a0 s
  | .choreoUnload part cc a0 => Sys2Proof.Machine.execChoreoUnload part cc a0 s
  | .convCreate part cc a0 a1 a2 => Sys2Proof.Machine.execConvCreate part cc a0 a1 a2 s
  | .convCreateTimeout conv => Sys2Proof.Machine.execConvCreateTimeout conv s
  | .convDestroy part cc a0 => Sys2Proof.Machine.execConvDestroy part cc a0 s
  | .chanKey part cc a0 a1 a2 => Sys2Proof.Machine.execChanKey part cc a0 a1 a2 s
  | .measExtend part cc a0 => Sys2Proof.Machine.execMeasExtend part cc a0 s
  | .tensorOpen part cc => Sys2Proof.Machine.execTensorOpen part cc s
  | .tensorBump part cc a0 => Sys2Proof.Machine.execTensorBump part cc a0 s
  | .tensorClose part cc a0 => Sys2Proof.Machine.execTensorClose part cc a0 s
  | .tlbInvalidatePage part ctx => Sys2Proof.Machine.execTlbInvalidatePage part ctx s
  | .tlbInvalidateContext part ctx => Sys2Proof.Machine.execTlbInvalidateContext part ctx s
  | .tlbInvalidatePartition part => Sys2Proof.Machine.execTlbInvalidatePartition part s
  | .tlbInvalidateDone part => Sys2Proof.Machine.execTlbInvalidateDone part s
  | .ringConfigWrite part isBase v => Sys2Proof.Machine.execRingConfigWrite part isBase v s
  | .ringtailWrite part v => Sys2Proof.Machine.execRingtailWrite part v s
  | .partCreate clus ccs gran ports image => Sys2Proof.Machine.execPartCreate clus ccs gran ports image s
  | .partDestroy part => Sys2Proof.Machine.execPartDestroy part s
  | .coreAdd part clus => Sys2Proof.Machine.execCoreAdd part clus s
  | .coreRemove part clus force => Sys2Proof.Machine.execCoreRemove part clus force s
  | .hbmGrow part n => Sys2Proof.Machine.execHbmGrow part n s
  | .hbmShrink part n => Sys2Proof.Machine.execHbmShrink part n s
  | .portSet part ports => Sys2Proof.Machine.execPortSet part ports s
  | .sleep force => Sys2Proof.Machine.execSleep force s
  | .wakemode mode => Sys2Proof.Machine.execWakemode mode s
  | .granRetire gran => Sys2Proof.Machine.execGranRetire gran s
  | .fwWrite off bytes => Sys2Proof.Machine.execFwWrite off bytes s
  | .fwCheck => Sys2Proof.Machine.execFwCheck s
  | .fwCommit => Sys2Proof.Machine.execFwCommit s
  | .fwSvn v => Sys2Proof.Machine.execFwSvn v s
  | .fwRevoke key => Sys2Proof.Machine.execFwRevoke key s
  | .waitingCommandResume part => Sys2Proof.Machine.execWaitingCommandResume part s
  | .granuleScrubDone fails => Sys2Proof.Machine.execGranuleScrubDone fails s
  | .uncorrectableError site => Sys2Proof.Machine.execUncorrectableError site s
  | .correctedError cls => Sys2Proof.Machine.execCorrectedError cls s
  | .ceWindowRestart => Sys2Proof.Machine.execCeWindowRestart s
  | .celimWrite cls v => Sys2Proof.Machine.execCelimWrite cls v s
  | .errRingConfigWrite isBase v => Sys2Proof.Machine.execErrRingConfigWrite isBase v s
  | .errtailWrite v => Sys2Proof.Machine.execErrtailWrite v s
  | .pwrpeakRead => Sys2Proof.Machine.execPwrpeakRead s
  | .retryintWrite v => Sys2Proof.Machine.execRetryintWrite v s
  | .clockEvaluation smp => Sys2Proof.Machine.execClockEvaluation smp s
  | .registerWrite blk off v => Sys2Proof.Machine.execRegisterWrite blk off v s
  | .coldWrite v => Sys2Proof.Machine.execColdWrite v s
  | .perstDeassert => Sys2Proof.Machine.execPerstDeassert s
  | .hotReset => Sys2Proof.Machine.execHotReset s
  | .hbmStackTrained stack ok => Sys2Proof.Machine.execHbmStackTrained stack ok s
  | .clusterSelfTestDone clu ok => Sys2Proof.Machine.execClusterSelfTestDone clu ok s
  | .vfFlr vf => Sys2Proof.Machine.execVfFlr vf s
  | .pf0Flr => Sys2Proof.Machine.execPf0Flr s
  | .channelMessage ch msg => Sys2Proof.Machine.execChannelMessage ch msg s
  | .getVersion mb r => Sys2Proof.Machine.execGetVersion mb r s
  | .getCapabilities mb r => Sys2Proof.Machine.execGetCapabilities mb r s
  | .negotiateAlgorithms mb r => Sys2Proof.Machine.execNegotiateAlgorithms mb r s
  | .getDigests mb r => Sys2Proof.Machine.execGetDigests mb r s
  | .getCertificate mb r => Sys2Proof.Machine.execGetCertificate mb r s
  | .challenge mb r => Sys2Proof.Machine.execChallenge mb r s
  | .getMeasurements mb r => Sys2Proof.Machine.execGetMeasurements mb r s
  | .spdmUnsupportedRequest mb code r => Sys2Proof.Machine.execSpdmUnsupportedRequest mb code r s
  | .controlCoreStore part addr bytes => Sys2Proof.Machine.execControlCoreStore part addr bytes s
  | .memorySideCacheWriteBack line => Sys2Proof.Machine.execMemorySideCacheWriteBack line s
  | .perstAssert => Sys2Proof.Machine.execPerstAssert s
  | .alwaysOnPowerLoss => Sys2Proof.Machine.execAlwaysOnPowerLoss s

end Sys2Proof.Machine
end

