-- ==== Sys2Proof/Machine/Next.lean ====
section
/-!
DEFINITION. What the next step is: a move that stands in the queue, the next instruction of a group in the middle of a
run, or a step that the device takes by itself. Fetching and decoding an instruction (R63, R64, R72). DESIGN CHOICE:
the order of the device's own steps (log 2), what stands for an installation (log 6).
-/

namespace Sys2Proof.Machine

open Sys2Proof

/-! ## Fetch -/

/-- How a fetch ends: with the word, in a failure, or by consuming the error of a line. -/
inductive Fetched where
  | word (w : W32)
  | fail (c : Cause) (detail : Nat)
  | poison (line : Nat)
deriving DecidableEq, Repr

/-- The word that a fetch of a launch's code gives at a device address (R65): what memory holds, or, freely, a word that was
kept of it since the launch began. -/
def State.codeWord (s : State) (part lid dev : Nat) : W32 :=
  let old := (s.kept.filter fun k => k.part == part && k.lid == lid && k.dev == dev).map (·.word)
  (old.mapIdx fun i w => (i, w)).foldl
    (fun w o => if Config.freeBool 11 s.tick (o.1 * 2 ^ 50 + dev) then o.2 else w)
    (BitVec.ofNat 32 (leNat (s.hbm.readN dev 4)))

/-- One instruction word of a launch in a context (R63): little-endian, from a page with execute permission. DESIGN CHOICE (log 31): at
a pc whose bits 1:0 are not 0, which only a rewritten save area can give (R264), the four bytes there are the word. -/
def State.fetchWord (s : State) (part ctx lid : Nat) (pc : W64) : Fetched :=
  match s.translate part ctx pc .fetch with
  | .fail c d => .fail c d
  | .poison l => .poison l
  | .ok dev e => match s.badLine (.hbm dev (slotOf e) (worldId part ctx)) 4 with
    | some l => .poison l
    | none => .word (s.codeWord part lid dev)

/-- A fetch that fails ends the run before the instruction (R64). -/
def State.fetchFault (s : State) (g : Group) (addr : W64) (c : Cause) (detail : Nat) : State :=
  s.setGroup { g with
    fails := addFailure ⟨g.runIdx, c, addr, 0, BitVec.ofNat 32 (detail + 1), false⟩ g.fails
    lastPc := g.pc, stat := .endRun, runEnd := .fall }

/-- What a group is about to do. -/
inductive Fetch where
  /-- It executes an instruction, or traps because its words are none (R72, step 2). -/
  | instr (i : Instr)
  | illegal (len : W64)
  /-- The fetch of a word fails (R64), or consumes an error (R344). -/
  | fail (addr : W64) (c : Cause) (detail : Nat)
  | poison (line : Nat)
deriving DecidableEq, Repr

/-- Words decoded. -/
def Fetch.ofWords (w1 w2 : W32) : Fetch :=
  match decode w1 w2 with
  | .error _ => .illegal (if hasSecond w1 then 8 else 4)
  | .ok (i, _) => .instr i

/-- The next instruction of a group (R63, R64, R72). -/
def State.fetch (s : State) (g : Group) : Fetch :=
  match s.fetchWord g.part g.ctx g.lid g.pc with
  | .fail c d => .fail g.pc c d
  | .poison l => .poison l
  | .word w1 =>
    if hasSecond w1 then
      match s.fetchWord g.part g.ctx g.lid (g.pc + 4) with
      | .fail c d => .fail (g.pc + 4) c d
      | .poison l => .poison l
      | .word w2 => Fetch.ofWords w1 w2
    else Fetch.ofWords w1 0

/-- A group in the middle of a run is held back by a fence (R54), or by writes of its own that are performed later (R46). -/
def State.holds (s : State) (g : Group) : Bool :=
  (!g.fences.isEmpty || s.late.any fun l => l.uid == g.uid) && (match s.fetch g with
    | .instr i => s.fenced g i || s.lateHolds g i
    | _ => false)

/-- A group is on its lane, in the middle of a run, and neither a fence nor a write of its own holds its next instruction back. -/
def State.ready (s : State) (g : Group) : Bool := s.pkg.powered && g.stat == .running && !s.holds g

/-- What the next instruction of a group accesses. -/
def State.nextAccess (s : State) (g : Group) : Option DOp :=
  match s.fetch g with
  | .instr i => s.captured g i
  | _ => none

/-- The rows of the slices that the next instruction of a group needs. -/
def State.nextRows (s : State) (g : Group) : List Nat := ((s.nextAccess g).map (s.rowsOf g)).getD []

/-- A row of a bank of a core. -/
def onBank (core bank row : Nat) : Bool := rowCore row == core && rowBank row == bank

/-- The next instruction of a group waits at the remote port of another core for a row of a bank. DESIGN CHOICE (log 5): so do the
accesses of a paired team's window to the other core of the pair, of which R35 speaks for distributed addresses alone. -/
def State.atPort (s : State) (g : Group) (core bank : Nat) : Bool :=
  g.core != core && s.ready g && (s.nextRows g).any (onBank core bank)

/-- The groups whose requests arrived before that of a group at a remote port at which both wait. -/
def State.queuedBefore (s : State) (g : Group) : List Group :=
  s.cores.flatMap fun c => c.banks.flatMap fun b =>
    if !b.2.port.contains (.group g.uid) || !s.atPort g c.id b.1 then []
    else (b.2.port.takeWhile (· != .group g.uid)).filterMap fun x => match x with
      | .group u => (s.group? u).filter fun h => s.atPort h c.id b.1
      | _ => none

/-- A remote port holds the request of a group back (R42): before it stands that of a group before which no other stands. -/
def State.portHolds (s : State) (g : Group) : Bool := (s.queuedBefore g).any fun h => (s.queuedBefore h).isEmpty

/-- A group issues: it is on its lane, in the middle of a run, and nothing holds its next instruction back. -/
def State.issues (s : State) (g : Group) : Bool := s.ready g && !s.portHolds g

/-- The next instruction of a group in the middle of a run. -/
def State.runGroup (s : State) (g : Group) : Host.Outcome State Fault Refusal :=
  match s.fetch g with
  | .fail a c d => .next (s.fetchFault g a c d)
  | .poison l => .next (s.consumeFetch g l)
  | .illegal len => .next (s.immediate g len .illegalInstruction 0)
  | .instr i => exec i { s with cur := some g.uid }

/-- The next instruction of a group, its writes performed later if it is a store that may wait (R46, R53). One that traps writes
nothing. -/
def State.runLate (s : State) (g : Group) : Host.Outcome State Fault Refusal :=
  match s.fetch g with
  | .instr i => match s.captured g i with
    | none => s.runGroup g
    | some op => match s.lateWrites g op, s.runGroup g with
      | some ws, .next t =>
        .next (if g.operandsOk i && (g.consumes i).isNone && (t.group? g.uid).isSome then State.putOff s t ws else t)
      | _, o => o
  | _ => s.runGroup g

/-! ## What the device does by itself -/

/-- The first of several steps that changes the state; none may. -/
def State.firstChange (s : State) : List (State → State) → State
  | [] => s
  | f :: fs =>
    let t := f s
    if t = s then State.firstChange s fs else t

/-- Steps that groups take part in: returns, commits, lane choices, engine queues, launches, restores. -/
def State.groupSteps (s : State) : List (State → State) :=
  [fun s => s.asyncReturn 0] ++ s.groups.flatMap fun g =>
    [fun s => s.runCommit g.uid, fun s => s.yieldedCommit g.uid, fun s => s.laneChoice g.core g.lane,
      fun s => s.engineAccept g.uid, fun s => s.launchNext g.uid, fun s => s.restoreGroup g.uid]

/-- Steps of the engines, and of the barriers and buffers of teams. -/
def State.engineSteps (s : State) : List (State → State) :=
  (s.cores.flatMap fun c => [fun (s : State) => s.matrixComplete c.id] ++ c.copies.flatMap fun e =>
      [fun s => s.fillStart c.id e.1, fun s => s.fillComplete c.id e.1, fun s => s.copyComplete c.id e.1])
    ++ s.teams.flatMap fun t =>
      ((List.range 32).map fun n => fun (s : State) => s.countAbar t.uid n)
        ++ ((List.range 64).map fun i => fun (s : State) => s.slotFreed t.uid i)
        ++ [fun s => s.teamComplete t.uid, fun s => s.restoreTeam t.uid]

/-- Steps of the gate: waiting steps accepted, words that cross, exchanges that complete. -/
def State.gateSteps (s : State) : List (State → State) :=
  (fun (s : State) => (s.acceptStep 0 0).getD s) :: s.pkg.convs.flatMap fun c =>
    ((List.range 4).map fun r => fun (s : State) => (s.acceptStep c.num r).getD s)
      ++ c.exchanges.flatMap fun x => x.parts.flatMap fun p =>
        [fun (s : State) => s.crossWords c.num x.num p.party p.nwords, fun s => s.completePart c.num x.num p.party]

/-- Steps of the fabric engine: packets to this device itself, and their answers. -/
def State.fabricSteps (s : State) : List (State → State) :=
  (s.fabric.reqs.map fun r => fun (s : State) => s.remoteArrive r.pkt)
    ++ s.fabric.replies.map fun r => fun (s : State) => s.remoteAck r.req []

/-- Steps of partitions: placement, invalidations, waiting commands. -/
def State.partSteps (s : State) : List (State → State) :=
  (s.parts.flatMap fun p => [fun (s : State) => s.noNewInterrupt (s.placeTeam p.num),
      fun s => s.noNewInterrupt (s.coopPlace p.num),
      fun s => s.invalidated p.num, fun s => s.removeComplete p.num, fun s => s.waitingResume p.num])
    ++ [fun s => s.waitingResume 32]

/-- What the device does when no group issues: the first of its steps that has something to do, in a fixed order. The queue
of moves gives any other order (log 2). -/
def State.autoStep (s : State) : State :=
  if !s.pkg.powered then s
  else s.firstChange (s.groupSteps ++ s.engineSteps ++ s.gateSteps ++ s.fabricSteps ++ s.partSteps
    ++ (s.late.map (·.uid)).dedup.map (fun u => fun (s : State) => s.performLate u) ++ [fun s => s.sleepIfDue])

/-! ## The next step -/

/-- An event that reaches the package without power: PERST#, and the loss of the always-on domain (R308, R313, R328). -/
def powerEvent : Instr → Bool
  | .perstDeassert | .perstAssert | .alwaysOnPowerLoss => true
  | _ => false

/-- A TLB or a walker keeps copies of the entries that a walk for an address reads (R292), valid or not. -/
def State.keepCopy (s : State) (part ctx : Nat) (va : W64) : State :=
  match s.part? part with
  | none => s
  | some p => match (p.contexts.find? fun c => c.id == ctx).bind (·.root) with
    | none => s
    | some r =>
      let cs := if bits va.toNat 63 48 ≠ 0 then [] else s.walkCopies p ctx va.toNat walkLevels r
      { s with tlb := cs ++ s.tlb.filter fun u => !cs.any fun c => c.part == u.part && c.ctx == u.ctx
        && c.level == u.level && c.vpage == u.vpage && c.at_ == u.at_ }

/-- The present word at a device address kept for later fetches of a launch's code (R65). -/
def State.keepWord (s : State) (part lid dev : Nat) : State :=
  if ((s.part? part).bind fun p => p.launch? lid).isNone then s
  else { s with kept := s.kept ++ [⟨part, lid, dev, BitVec.ofNat 32 (leNat (s.hbm.readN dev 4))⟩] }

/-- Forward error correction has corrected `n` codewords on a port (R330). -/
def State.fecCorrected (s : State) (port n : Nat) : State :=
  let ps := s.pkg.ports.mapIdx fun i p => if i = port then { p with feccor := p.feccor + BitVec.ofNat 32 n } else p
  { s with pkg := { s.pkg with ports := ps } }

/-- The group of a lane whose next instruction needs a row. -/
def State.onRow (s : State) (core row lane : Nat) : Option Group :=
  s.groups.find? fun g => g.core == core && g.lane == lane && s.issues g && (s.nextRows g).contains row

/-- The rows of the slices that a packet to this device reaches. -/
def State.packetRows (s : State) (p : Packet) : List Nat :=
  let one := fun (size : Nat) (dist : Bool) => p.threads.filterMap fun th =>
    match s.check p.tgtPart p.tgtCtx 0 (targetSpace dist) th.addr size .read false with
    | .ok (.slice a) => some (a / 64)
    | _ => none
  match p.op with
  | .send size dist _ | .get size dist | .red _ size dist => one size dist
  | _ => []

/-- A request of the remote port waits for a row of a bank. -/
def State.requestsPort (s : State) (core bank : Nat) : BankX → Bool
  | .group u => (s.group? u).any fun g => s.atPort g core bank
  | .packet p => s.pkg.powered && (s.packetRows p).any (onBank core bank)
  | .rest => (s.core core).remote.any (onBank core bank)

/-- A row granted to the lanes that ask for it (R41, R44): in ascending lane order each performs the instruction of its group that
needs it, one after another, and that row of it is done. -/
def State.performRow (s : State) (core row : Nat) : List Nat → Host.Outcome State Fault Refusal
  | [] => .next s
  | lane :: lanes => match s.onRow core row lane with
    | none => State.performRow s core row lanes
    | some g => match s.runGroup g with
      | .next t =>
        let k := t.core core
        State.performRow { t.setCore { k with rest := k.rest.filter fun e => e != (lane, row) } with tick := t.tick + 1 } core row lanes
      | o => o

/-- A bank granted to a request of the remote port: its row is done. -/
def State.portDone (s : State) (core bank : Nat) : State :=
  let k := s.core core
  s.setCore { k with remote := k.remote.eraseP (onBank core bank) }

/-- A request of the remote port performed. -/
def State.performPort (s : State) (core bank : Nat) (x : BankX) : Host.Outcome State Fault Refusal :=
  let o := match x with
    | .group u => match s.group? u with
      | some g => s.runGroup g
      | none => .next s
    | .packet p => execRemoteRequest p s
    | .rest => .next s
  match o with
  | .next t => .next (t.portDone core bank)
  | o => o

/-- A request that a remote port refuses in a cycle waits for its bank: one of a paired team's window is a request of its group's
lane (R43; DESIGN CHOICE, log 5). -/
def State.refusePort (s : State) : BankX → State
  | .group u => match s.group? u with
    | some g => match s.nextAccess g with
      | some (.load .slice ..) | some (.store .slice ..) | some (.atomic .slice ..) =>
        s.setCore ((s.core g.core).waitMore g.lane)
      | _ => s
    | none => s
  | _ => s

/-- One cycle of a bank of a core (R41 to R44): of those that are said to request it, the matrix engine and the copy engine while
they have operations, the requests of the remote port that wait there, in their order of arrival, and each lane, once, whose next
instruction needs the row, or else whose last one needed it. What is granted is performed. A lane whose instruction has been performed
does not wait any more (DESIGN CHOICE, log 5): no cycle refuses it. -/
def State.bankCycle (s : State) (core bank : Nat) (m c : Bool) (port : List BankX) (lanes : List (Nat × Nat)) :
    Host.Outcome State Fault Refusal :=
  let k := s.core core
  let asks := fun (e : Nat × Nat) => onBank core bank e.2 && (k.rest.contains e || (s.onRow core e.2 e.1).isSome)
  let asking := (lanes.filter asks).foldl (fun l e => if l.any fun f => f.1 == e.1 then l else l ++ [e]) []
  let old := (k.bank bank).port
  let waiting := (old ++ port.dedup.filter fun x => !old.contains x).filter (s.requestsPort core bank)
  let (k', granted) := k.arbitrate bank (m && !k.matrix.isEmpty) (c && !k.copies.isEmpty) waiting asking
  let held := asking.filter fun e => (s.onRow core e.2 e.1).isNone
  let s' := ((k'.bank bank).port).foldl State.refusePort (s.setCore k')
  match granted with
  | .row row =>
    if held.any fun e => e.2 != row then .next s
    else
      let k := s'.core core
      State.performRow (s'.setCore { k with rest := k.rest.filter fun e => !held.contains e }) core row
        ((List.range 64).filter fun l => asking.contains (l, row) && !held.contains (l, row))
  | .port x => if held.isEmpty then s'.performPort core bank x else .next s
  | .none => if held.isEmpty then .next s' else .next s

/-- A move of the queue. A word of an instruction is no event: a group issues it. -/
def State.doMove (s : State) : Move → Host.Outcome State Fault Refusal
  | .event i => if i.isWord || !(s.pkg.powered || powerEvent i) then .next s else exec i s
  | .group uid => match s.group? uid with
    | some g => if s.issues g then s.runGroup g else .next s
    | none => .next s
  | .late uid => match s.group? uid with
    | some g => if s.issues g then s.runLate g else .next s
    | none => .next s
  | .perform uid => .next (s.performLate uid)
  | .grants core n => .next (s.matrixGrants core n)
  | .words conv ex party n => .next (s.crossWords conv ex party n)
  | .keepCopy part ctx va => .next (s.keepCopy part ctx va)
  | .keepWord part lid dev => .next (s.keepWord part lid dev)
  | .call c => .next (if s.pkg.powered then s.replayCall c else s)
  | .fecCorrected port n => .next (s.fecCorrected port n)
  | .performOne uid n => .next (s.performNth uid n)
  | .fillLine line slot world => .next (s.fillLine line slot world)
  | .flipLine line bits => .next (s.flipLine line bits)
  | .spoilSlice line readable => .next (s.spoilSlice line readable)
  | .bankCycle core bank m c port lanes => s.bankCycle core bank m c port lanes
  | .piece core slot off n => .next (s.copyPiece core slot off n)
  | .badLine line named => .next (s.lineError line named)

/-- A move that can find an error while worlds are being terminated (R298). -/
def Move.findsError : Move → Bool
  | .event (.uncorrectableError _) | .badLine _ _ => true
  | _ => false

/-- What happens next: lists of a termination that can be written are, unless another error is found first (R298); else the first move
of the queue; else the next instruction of the first group that issues; else what the device does by itself. -/
def State.act (s : State) : Host.Outcome State Fault Refusal :=
  if s.listsReady && !s.moves.head?.any Move.findsError then .next s.closeLists else
  match s.moves with
  | m :: ms => State.doMove { s with moves := ms } m
  | [] => match s.groups.find? fun g => s.issues g with
    | some g => s.runGroup g
    | none => .next s.autoStep

/-- A state with a line's flipped bits replaced. -/
def State.flipped (s : State) (line : Nat) (bits : BitVec 576) : State := s.setLine { s.line line with flip := bits }

/-- The lines with flipped bits that their codes correct (R322). -/
def State.correctable (s : State) : List Line := s.lines.filter fun l => l.flip != 0 && wrongSymbols l.flip ≤ 1

/-- What happens next reads a line in storage: with all of the line's bits flipped, which no code corrects, it would not end as it
does, whatever the flipped bits are. -/
def State.readsStored (s t : State) (l : Line) : Bool :=
  match (s.flipped l.addr (BitVec.allOnes 576)).act with
  | .next u => u.flipped l.addr 0 != t.flipped l.addr 0
  | _ => true

/-- The step: what happens next; of each line whose flipped bits a read of it has corrected, one corrected error of class 10 is counted
(R322, R335). -/
def State.nextStep (s : State) : Host.Outcome State Fault Refusal :=
  let s1 := { s with tick := s.tick + 1 }
  if s1.correctable.isEmpty then s1.act
  else match s1.act with
    | .next t => .next ((s1.correctable.filter (s1.readsStored t)).foldl (fun t _ => t.corrected 10) t)
    | o => o

/-! ## Placing an instruction where it is fetched next -/

/-- The device addresses of the two words at a group's pc, if both can be fetched. -/
def State.fetchPlaces (s : State) (g : Group) : Option (Nat × Nat) :=
  match s.fetchWord g.part g.ctx g.lid g.pc, s.fetchWord g.part g.ctx g.lid (g.pc + 4) with
  | .word _, .word _ =>
    match s.translate g.part g.ctx g.pc .fetch, s.translate g.part g.ctx (g.pc + 4) .fetch with
    | .ok d1 _, .ok d2 _ => some (d1, d2)
    | _, _ => none
  | _, _ => none

/-- A partition, a context with page tables, a team and a group about to fetch at 0x100000: what a start, a launch and a
placement leave, with the tables a system image builds (log 6). -/
def State.installed (s : State) (code : List Byte) : State :=
  let p := { Partition.fresh 0 1 1 0 8 1 with contexts := [⟨0, some 0x1000⟩] }
  let t := Team.fresh 0 0 0 1 0 0 false 0 0x200000 1
  let g := { Group.fresh 1 t 0 0 0 .w16 512 0x100000 0x100000 [] 1 0 1 0 0 with stat := .running }
  let m := s.hbm.writeN (p.base + 0x1000) (leBytes 8 0x2001)
  let m := m.writeN (p.base + 0x2000) (leBytes 8 0x3001)
  let m := m.writeN (p.base + 0x3000) (leBytes 8 0x4F)
  { s with
    hbm := m.writeN (p.base + 0x100000) code, lines := [], tlb := [], sliceErrs := []
    groups := [g], teams := [t], parts := [p], late := [], kept := [], openLists := [], moves := [], nextUid := 2
    pkg := { s.pkg with powered := true, stage := 2, waits := [] } }

/-- The state with an instruction of at most 8 bytes stored where `step` fetches next: at the pc of the first group in the
middle of a run, if that is the one that issues. -/
def State.placeWord (s : State) (nbits w : Nat) : State :=
  let code := leBytes 8 (w % 2 ^ nbits)
  match s.groups.find? fun g => g.stat == .running with
  | none => s.installed code
  | some g =>
    if !s.pkg.powered || !g.fences.isEmpty || !s.late.isEmpty || !s.openLists.isEmpty then s.installed code
    else match State.fetchPlaces { s with tick := s.tick + 1, moves := [] } g with
      | none => s.installed code
      | some (d1, d2) => { s with hbm := (s.hbm.writeN d1 (code.take 4)).writeN d2 (code.drop 4), kept := [], moves := [] }

end Sys2Proof.Machine
end

