-- ==== Sys2Proof/Safety.lean ====
section
/-!
DEFINITION. What counts as a safe state, in the terms that claims use: memory in its canonical form, and every group's
registers in the form that the manual gives them.
-/

namespace Sys2Proof.Machine

open Sys2Proof

/-- The bits of a mask at and above the group's width are 0 (R22). -/
def Group.masksOk (g : Group) : Bool :=
  g.exm &&& g.width.full == g.exm && g.lvm &&& g.width.full == g.lvm && g.sm &&& g.width.full == g.sm

/-- The reserved bits of `fpm` and `fpf` are 0, and `mq` selects an entry of the table (R22, R122). -/
def Group.fpOk (g : Group) : Bool := fixFpm g.fpm == g.fpm && g.fpf &&& 0x3F == g.fpf && g.mq < 8

/-- The slices that retain-sleep has saved are in their canonical form, as the wake will read them (R327, R328). -/
def Package.savedOk (k : Package) : Bool := match k.sleepImage with | some x => Memory.wf x.slices | none => true

/-- Memory is in its canonical form. -/
def State.memOk (s : State) : Bool := Memory.wf s.hbm && Memory.wf s.slices && s.pkg.savedOk

/-- Every group's masks, modes and flags are legal. -/
def State.groupsOk (s : State) : Bool := s.groups.all fun g => g.masksOk && g.fpOk

end Sys2Proof.Machine
end

