-- ==== Sys2Proof/WellFormed.lean ====
section
/-!
DEFINITION. Which terms of Instr are steps of the manual: for an instruction, those whose word decode steps 2 and 3
accept (R72) whatever the group's allocation; for another step of the device, those whose numbers name something that
the package has.
-/

namespace Sys2Proof

/-- Decode step 3 on the fields of an instruction, but for the bound of the allocation (R66, R72). -/
def Instr.fieldsOk (i : Instr) : Bool := i.operands.all Operand.static

/-- The numbers that a step of the device carries name a core, a partition, a queue or another numbered thing of the
package (R1, R250, R286, R330). -/
def Instr.namesOk : Instr → Bool
  | .laneChoice core lane => core < 256 && lane < 64
  | .eventWindowRestart core => core < 256
  | .mmloopComplete core => core < 256
  | .copyComplete core slot => core < 256 && slot < 64
  | .cbFillComplete core slot => core < 256 && slot < 64
  | .cbFillStart core slot => core < 256 && slot < 64
  | .barrierStall _ b => b < 16
  | .abarArrivalCount _ b => b < 32
  | .cbfreeSlotFreed _ buf => buf < 64
  | .lqdoor part q _ => part < 24 && q < 16
  | .lqstatClear part q _ => part < 24 && q < 16
  | .evcntWrite part c _ => part < 24 && c < 256
  | .resvcoreWrite part w _ => part < 24 && w < 4
  | .portDown port lanes => port < 32 && lanes < 4
  | .portUp port lanes => port < 32 && 0 < lanes && lanes ≤ 4
  | .correctedError cls => cls < 16
  | .celimWrite cls _ => cls < 16
  | .uncorrectableError site => site.cls < 16
  | .hbmStackTrained stack _ => stack < 8
  | .clusterSelfTestDone clu _ => clu < 32
  | .vfFlr vf => 0 < vf && vf < 25
  | .granRetire gran => gran < 512
  | .channelMessage ch _ => ch < 25
  | _ => true

/-- The term is a step of the manual. -/
def Instr.wf (i : Instr) : Bool := i.form && i.fieldsOk && i.namesOk

end Sys2Proof
end

