-- ==== Sys2Proof/Certificates/Slice0/Obligations.lean ====
section
/-!
DEFINITION. The statements for the provers, and what they are about. Statements of one instruction or of one step of the
device say which next state `exec` answers; frames say what stays as it was.
-/

/-! ## What the statements are about -/

namespace Sys2Proof.Claims

open Sys2Proof Sys2Proof.Machine

/-- Group `g` issues `i` in `s`: it is the group whose instruction is executed, the fields of `i` are legal and name
registers of its allocation (R72, step 3), and `i` reads no poisoned element of it (R30). -/
abbrev Issues (i : Instr) (s : State) (g : Group) : Prop :=
  s.curGroup = some g ∧ g.operandsOk i = true ∧ g.consumes i = none

/-- Thread `t` of a group is active: its bit is set in `exm` and in `lvm` (R6). -/
def Active (g : Group) (t : Nat) : Prop :=
  t < g.width.n ∧ g.exm.getLsbD t = true ∧ g.lvm.getLsbD t = true

/-- Thread `l` is the lowest active thread of a group (R11). -/
def IsLowest (g : Group) (l : Nat) : Prop := Active g l ∧ ∀ t, Active g t → l ≤ t

/-- The number of active threads. -/
def activeCount (g : Group) : Nat :=
  ((List.range g.width.n).filter fun t => g.exm.getLsbD t && g.lvm.getLsbD t).length

/-- Lane cycles of a vector instruction (R8): one per active thread, at least one; one under the once mark. -/
def cycles (g : Group) (once : Bool) : Nat := if once then 1 else max 1 (activeCount g)

/-- Lane cycles of an exact-pair instruction (R8): two per active thread, at least two; one under the once mark. -/
def pairCycles (g : Group) (once : Bool) : Nat := if once then 1 else 2 * max 1 (activeCount g)

/-- Bytes of an instruction (R63). -/
def lengthOf (i : Instr) : W64 := if i.two then 8 else 4

/-- How the run of a group ends after `i` by itself (R13): by the E bit, or because `i` is the 24th instruction. -/
def endsRun (i : Instr) (h : Group) : Option RunEnd :=
  if i.ebit = true ∨ 23 ≤ h.runIdx then some .fall else none

/-- The state `s` in which the issuing group has become `h`, one instruction of its run has gone by at a cost in lane
cycles, which the core's local cycles count, the group's next instruction is at `pc`, and its run has ended if `ends`
says how. Nothing else of `s` changes. -/
def after (s : State) (h : Group) (cost : Nat) (pc : W64) (ends : Option RunEnd) : State :=
  let k := { h with
    lastPc := h.pc, pc := pc, runIdx := h.runIdx + 1, cycles := h.cycles + cost
    stat := if ends.isSome then .endRun else h.stat
    runEnd := ends.getD h.runEnd }
  let c := s.core h.core
  (s.setGroup k).setCore { c with cyc := c.cyc + BitVec.ofNat 64 cost }

/-- `i` makes of the issuing group `g` the group `h`, at a cost, and the run goes on with the next word. -/
def Gives (i : Instr) (s : State) (g h : Group) (cost : Nat) : Prop :=
  Issues i s g → exec i s = .next (after s h cost (h.pc + lengthOf i) (endsRun i h))

/-- `i` is an immediate trap (R27) with a cause and a detail: it costs one cycle, has no effect but the failure that is
added to those of the run, and ends the run. -/
def Traps (i : Instr) (s : State) (g : Group) (c : Cause) (detail : W32) : Prop :=
  Issues i s g → exec i s = .next (after s
    { g with fails := addFailure ⟨g.runIdx, c, 0, 0, detail, false⟩ g.fails } 1 (g.pc + lengthOf i) (some .fall))

/-- `i` writes one vector register and does nothing else: in every active thread the value `val` of that thread (R93), or
under the once mark the value of the lowest active thread (R11). Without the once mark the register that is written is
U when `uni` holds, and G when it does not (R24). -/
def Writes (i : Instr) (s : State) (g : Group) (once : Bool) (d : Fld) (uni : Prop) (val : Nat → W32) : Prop :=
  Issues i s g → ∃ v : VReg,
    exec i s = .next (after s (g.setV d v) (cycles g once) ((g.setV d v).pc + lengthOf i) (endsRun i (g.setV d v))) ∧
    (once = false → (∀ t, t < g.width.n → v.get t = val t) ∧ (uni → v.isU = true) ∧
      (¬uni → v.isU = false ∧ v.isA = false)) ∧
    (once = true → ∀ l, IsLowest g l → v = .u (val l))

/-- The same of a register whose shape has a row of its own in Table 5 of R24. -/
def WritesShaped (i : Instr) (s : State) (g : Group) (once : Bool) (d : Fld) (val : Nat → W32) : Prop :=
  Issues i s g → ∃ v : VReg,
    exec i s = .next (after s (g.setV d v) (cycles g once) ((g.setV d v).pc + lengthOf i) (endsRun i (g.setV d v))) ∧
    (once = false → ∀ t, t < g.width.n → v.get t = val t) ∧
    (once = true → ∀ l, IsLowest g l → v = .u (val l))

/-- `i` writes a pair of vector registers (R21, R100): in every active thread the two halves of `val` of that thread, or
under the once mark of the lowest one. -/
def WritesPair (i : Instr) (s : State) (g : Group) (once : Bool) (d : Fld) (uni : Prop) (val : Nat → W64) : Prop :=
  Issues i s g → ∃ lo hi : VReg,
    exec i s = .next (after s (g.setPair d lo hi) (cycles g once) ((g.setPair d lo hi).pc + lengthOf i)
      (endsRun i (g.setPair d lo hi))) ∧
    (once = false → (∀ t, t < g.width.n → pair64 (lo.get t) (hi.get t) = val t) ∧
      (uni → lo.isU = true ∧ hi.isU = true) ∧
      (¬uni → lo.isU = false ∧ lo.isA = false ∧ hi.isU = false ∧ hi.isA = false)) ∧
    (once = true → ∀ l, IsLowest g l → ∃ x y, lo = .u x ∧ hi = .u y ∧ pair64 x y = val l)

/-- `i` writes a scalar mask: bit t for each active thread t for which `cond` holds, 0 elsewhere (R98). -/
def WritesMask (i : Instr) (s : State) (g : Group) (d : Fld) (cond : Nat → Prop) : Prop :=
  Issues i s g → ∃ m : W64, (∀ t, t < 64 → (m.getLsbD t = true ↔ Active g t ∧ cond t)) ∧
    exec i s = .next (after s (g.writeS d m) (cycles g false) ((g.writeS d m).pc + lengthOf i)
      (endsRun i (g.writeS d m)))

/-- `k` is the number of one bits of a number below 2^w. -/
def IsPopcount (w x k : Nat) : Prop := k = ((List.range w).filter fun j => x.testBit j).length

/-- `k` is the number of leading zero bits of a number of `w` bits. -/
def IsClz (w x k : Nat) : Prop :=
  k ≤ w ∧ (∀ j, j < k → x.testBit (w - 1 - j) = false) ∧ (k < w → x.testBit (w - 1 - k) = true)

/-- `k` is the number of trailing zero bits of a number of `w` bits. -/
def IsCtz (w x k : Nat) : Prop :=
  k ≤ w ∧ (∀ j, j < k → x.testBit j = false) ∧ (k < w → x.testBit k = true)

/-- All ones if a condition holds, else 0 (R75). -/
def ones (b : Bool) : W64 := if b then 0xFFFFFFFFFFFFFFFF else 0

/-- An immediate extended to 64 bits (R67). -/
def simm (i : BitVec 9) : W64 := i.signExtend 64

/-- An immediate extended to 32 bits (R67). -/
def vimm (i : BitVec 9) : W32 := i.signExtend 32

end Sys2Proof.Claims

open Sys2Proof Sys2Proof.Machine Sys2Proof.Claims

/-! ## Scalar registers -/

/-- R75: every class 3 scalar instruction writes s[d] with the value of Table 1, at one cycle, whatever the mask. What a
write to a special register or to `zero` does is `ScalarFieldWrites`. -/
def Sys2Proof.Claims.ScalarRegisterResults : Prop :=
  ∀ (s : State) (g : Group) (e : Bool) (d a b : Fld),
    let r := g.readS (s.cyc g)
    Gives (.sadd e d a b) s g (g.writeS d (r a + r b)) 1 ∧
    Gives (.ssub e d a b) s g (g.writeS d (r a - r b)) 1 ∧
    Gives (.smul e d a b) s g (g.writeS d (r a * r b)) 1 ∧
    Gives (.smulhiN e d a b) s g (g.writeS d (BitVec.ofNat 64 ((r a).toNat * (r b).toNat / 2 ^ 64))) 1 ∧
    Gives (.sand e d a b) s g (g.writeS d (r a &&& r b)) 1 ∧
    Gives (.sor e d a b) s g (g.writeS d (r a ||| r b)) 1 ∧
    Gives (.sxor e d a b) s g (g.writeS d (r a ^^^ r b)) 1 ∧
    Gives (.sandn e d a b) s g (g.writeS d (r a &&& ~~~(r b))) 1 ∧
    Gives (.sshl e d a b) s g (g.writeS d (r a <<< (r b).toNat)) 1 ∧
    Gives (.sshrN e d a b) s g (g.writeS d (r a >>> (r b).toNat)) 1 ∧
    Gives (.sshrI e d a b) s g (g.writeS d ((r a).sshiftRight (r b).toNat)) 1 ∧
    Gives (.sceq e d a b) s g (g.writeS d (ones (decide (r a = r b)))) 1 ∧
    Gives (.scltI e d a b) s g (g.writeS d (ones (decide ((r a).toInt < (r b).toInt)))) 1 ∧
    Gives (.scltN e d a b) s g (g.writeS d (ones (decide ((r a).toNat < (r b).toNat)))) 1 ∧
    Gives (.sminI e d a b) s g (g.writeS d (if (r a).toInt ≤ (r b).toInt then r a else r b)) 1 ∧
    Gives (.smaxI e d a b) s g (g.writeS d (if (r a).toInt ≤ (r b).toInt then r b else r a)) 1 ∧
    Gives (.smov e d a) s g (g.writeS d (r a)) 1 ∧
    (∃ k, IsPopcount 64 (r a).toNat k ∧ Gives (.spopc e d a) s g (g.writeS d (BitVec.ofNat 64 k)) 1) ∧
    (∃ k, IsClz 64 (r a).toNat k ∧ Gives (.sclz e d a) s g (g.writeS d (BitVec.ofNat 64 k)) 1) ∧
    (∃ k, IsCtz 64 (r a).toNat k ∧ Gives (.sctz e d a) s g (g.writeS d (BitVec.ofNat 64 k)) 1) ∧
    Gives (.sfirst e d a) s g (g.writeS d (r a &&& -(r a))) 1

/-- R76, R77: the class 4 scalar instructions write s[d] as Table 2 gives, with the immediate sign-extended to 64 bits,
and `sli` its second word sign-extended. -/
def Sys2Proof.Claims.ScalarImmediateResults : Prop :=
  ∀ (s : State) (g : Group) (e : Bool) (d a : Fld) (i : BitVec 9) (k : W32),
    let r := g.readS (s.cyc g)
    Gives (.saddi e d a i) s g (g.writeS d (r a + simm i)) 1 ∧
    Gives (.sandi e d a i) s g (g.writeS d (r a &&& simm i)) 1 ∧
    Gives (.sori e d a i) s g (g.writeS d (r a ||| simm i)) 1 ∧
    Gives (.sshli e d a i) s g (g.writeS d (r a <<< i.toNat)) 1 ∧
    Gives (.sshriN e d a i) s g (g.writeS d (r a >>> i.toNat)) 1 ∧
    Gives (.sceqi e d a i) s g (g.writeS d (ones (decide (r a = simm i)))) 1 ∧
    Gives (.scltiI e d a i) s g (g.writeS d (ones (decide ((r a).toInt < (simm i).toInt)))) 1 ∧
    Gives (.smovi e d i) s g (g.writeS d (simm i)) 1 ∧
    Gives (.sli e d k) s g (g.writeS d (k.signExtend 64)) 1

/-- R75 to R77: the scalar instructions of class 3, and those of class 4 with `sli`, write s[d] with the value of their
row, and do nothing else. -/
def Obligations.ScalarResults : Prop :=
  ScalarRegisterResults ∧ ScalarImmediateResults

/-- R22, R89: what a write of `v` to each scalar field does. Masks hold bits W−1:0, `lvm` and `rplq` are only cleared, `mq`
holds three bits and `fpf` six, a write of 0 to `tcause` disarms the trap state and the entry that `sel` names holds the value,
none when it names no failing index (the model's reading, log 12, DEDUCED), a write to `tinfo` sets `sel`, a write to `zero` is
discarded, and no write changes another register. `fpm` keeps its rounding mode and its eight action fields, an action of 0b11
becoming 0b00, and no other bit. -/
def Sys2Proof.Claims.ScalarFieldWrites : Prop :=
  ∀ (g : Group) (d : Fld) (v : W64),
    (d.toNat < 64 → g.writeS d v = { g with sregs := g.sregs.set d.toNat v }) ∧
    (d = 64#7 → ∃ m, g.writeS d v = { g with exm := m } ∧
      ∀ t, m.getLsbD t = (v.getLsbD t && decide (t < g.width.n))) ∧
    (d = 65#7 → ∃ m, g.writeS d v = { g with lvm := m } ∧ ∀ t, m.getLsbD t = (g.lvm.getLsbD t && v.getLsbD t)) ∧
    (d = 66#7 → ∃ m, g.writeS d v = { g with sm := m } ∧
      ∀ t, m.getLsbD t = (v.getLsbD t && decide (t < g.width.n))) ∧
    (d = 77#7 → ∃ m, g.writeS d v = { g with fpm := m } ∧
      m.toNat % 4 = v.toNat % 4 ∧ m.toNat / 4 % 2 ^ 30 = 0 ∧ m.toNat / 2 ^ 48 = 0 ∧
      ∀ k, k < 8 → m.toNat / 2 ^ (2 * k + 32) % 4 =
        (if v.toNat / 2 ^ (2 * k + 32) % 4 = 3 then 0 else v.toNat / 2 ^ (2 * k + 32) % 4)) ∧
    (d = 78#7 → ∃ m, g.writeS d v = { g with fpf := m } ∧ m.toNat = v.toNat % 64) ∧
    (d = 79#7 → g.writeS d v = { g with mq := v.toNat % 8 }) ∧
    (d = 84#7 → g.writeS d v = { g with
      trap := { g.trap with entries := g.trap.entries.map fun x => if x.idx = g.trap.sel then { x with cause := v } else x }
      armed := g.armed && decide (v ≠ 0) }) ∧
    (d = 85#7 → g.writeS d v = { g with trap := { g.trap with sel := v.toNat / 2 ^ 35 % 32 } }) ∧
    (d = 89#7 → ∃ m, g.writeS d v = { g with trap := { g.trap with rplq := m } } ∧
      ∀ t, m.getLsbD t = (g.trap.rplq.getLsbD t && v.getLsbD t)) ∧
    (d = 127#7 → g.writeS d v = g)

/-- R22, R23: what each scalar field reads. `zero` reads 0; the trap registers show the entry that `sel` names, and 0
when it names none; the other fields of `tinfo` are the failing set, `sel` and three bits of 0 (Table 4). -/
def Obligations.ScalarReadByField : Prop :=
  ∀ (g : Group) (cyc : W64),
    (∀ d : Fld, d.toNat < 64 → g.readS cyc d = g.sregs.getD d.toNat 0) ∧
    g.readS cyc 64 = g.exm ∧ g.readS cyc 65 = g.lvm ∧ g.readS cyc 66 = g.sm ∧
    g.readS cyc 67 = BitVec.ofNat 64 g.gix ∧ g.readS cyc 68 = BitVec.ofNat 64 g.width.n ∧
    g.readS cyc 69 = BitVec.ofNat 64 g.tix ∧ g.readS cyc 70 = BitVec.ofNat 64 g.nteam ∧
    g.readS cyc 71 = BitVec.ofNat 64 g.wb ∧ g.readS cyc 72 = BitVec.ofNat 64 g.rank ∧
    g.readS cyc 73 = BitVec.ofNat 64 g.nrank ∧ g.readS cyc 74 = BitVec.ofNat 64 g.part ∧
    g.readS cyc 75 = BitVec.ofNat 64 (128 * g.part + g.ctx) ∧ g.readS cyc 76 = cyc ∧ g.readS cyc 77 = g.fpm ∧
    g.readS cyc 78 = g.fpf ∧ g.readS cyc 79 = BitVec.ofNat 64 g.mq ∧
    (∀ k, k < 4 → g.readS cyc (BitVec.ofNat 7 (80 + k)) = g.crole.getD k 0) ∧
    g.readS cyc 86 = g.trap.xpc ∧ g.readS cyc 89 = g.trap.rplq ∧
    g.readS cyc 90 = g.gen.setWidth 64 ∧ g.readS cyc 127 = 0 ∧
    (∀ f, g.trap.entries.find? (fun x => x.idx == g.trap.sel) = some f →
      g.readS cyc 84 = f.cause ∧ g.readS cyc 87 = f.taddr ∧ g.readS cyc 88 = f.tmask ∧
      (g.readS cyc 85).setWidth 32 = f.detail) ∧
    (g.trap.entries.find? (fun x => x.idx == g.trap.sel) = none →
      g.readS cyc 84 = 0 ∧ g.readS cyc 87 = 0 ∧ g.readS cyc 88 = 0 ∧ (g.readS cyc 85).setWidth 32 = 0) ∧
    (∀ k, k < 24 → ((g.readS cyc 85).getLsbD (40 + k) = true ↔ ∃ f ∈ g.trap.entries, f.idx = k)) ∧
    (g.readS cyc 85).toNat / 2 ^ 35 % 32 = g.trap.sel % 32 ∧ (g.readS cyc 85).toNat / 2 ^ 32 % 8 = 0

/-- R23: writing `sel` changes the cause, the address, the thread mask and the detail together, to those of the entry it
names; every one is 0 when it names no failing index. -/
def Sys2Proof.Claims.SelectingATrapEntry : Prop :=
  ∀ (g : Group) (v cyc : W64),
    let h := g.writeS 85 v
    (∀ f, g.trap.entries.find? (fun x => x.idx == v.toNat / 2 ^ 35 % 32) = some f →
      h.readS cyc 84 = f.cause ∧ h.readS cyc 87 = f.taddr ∧ h.readS cyc 88 = f.tmask ∧
      (h.readS cyc 85).setWidth 32 = f.detail) ∧
    (g.trap.entries.find? (fun x => x.idx == v.toNat / 2 ^ 35 % 32) = none →
      h.readS cyc 84 = 0 ∧ h.readS cyc 87 = 0 ∧ h.readS cyc 88 = 0 ∧ (h.readS cyc 85).setWidth 32 = 0)

/-- R22, R23, R89: what a write of each scalar field does, and what the trap registers then read after a write of `sel`. That
a write of `tcause` is held by the entry that `sel` names, and by none when it names no failing index, is the model's reading
(log 12, DEDUCED). -/
def Obligations.ScalarWriteByField : Prop :=
  ScalarFieldWrites ∧ SelectingATrapEntry

/-! ## Vector registers -/

/-- R12, R20, R24: what writing a vector register in the active threads does. With no active thread the group is
unchanged. Else the elements of active threads are the new ones, the elements of the others are as they were, and no
other register of the allocation changes; under a full mask the register takes the value's shape, under any other it has
shape G. -/
def Obligations.VectorWriteByMask : Prop :=
  ∀ (g : Group) (d : Fld) (v : VReg), g.wb + d.toNat < g.vregs.length →
    ((¬∃ t, Active g t) → g.setV d v = g) ∧
    ((∃ t, Active g t) →
      (∀ t, t < g.width.n → ((g.setV d v).v d).get t = if g.exm.getLsbD t && g.lvm.getLsbD t then v.get t
        else (g.v d).get t) ∧
      (∀ r, r ≠ g.wb + d.toNat → (g.setV d v).vreg r = g.vreg r) ∧
      ((∀ t, t < g.width.n → Active g t) → (g.setV d v).v d = v) ∧
      ((¬∀ t, t < g.width.n → Active g t) → ∃ xs, (g.setV d v).v d = .g xs) ∧
      ∃ vs ps, g.setV d v = { g with vregs := vs, poison := ps })

/-- R94 to R97, R99, R102: the element-wise integer instructions write in each active thread the value of Tables 1 to 3,
arithmetic being modulo 2^32, and cost one cycle per active thread. -/
def Obligations.VectorIntegerResults : Prop :=
  ∀ (s : State) (g : Group) (e u : Bool) (d a b c : Fld) (k : BitVec 8),
    let x := fun t => (g.v a).get t
    let y := fun t => (g.v b).get t
    let z := fun t => (g.v d).get t
    let u2 := (g.v a).isU = true ∧ (g.v b).isU = true
    let u1 := (g.v a).isU = true
    let u3 := (g.v d).isU = true ∧ (g.v a).isU = true ∧ (g.v b).isU = true
    WritesShaped (.vadd e u d a b) s g u d (fun t => x t + y t) ∧
    WritesShaped (.vsub e u d a b) s g u d (fun t => x t - y t) ∧
    WritesShaped (.vmul e u d a b) s g u d (fun t => x t * y t) ∧
    Writes (.vmulhiI e u d a b) s g u d u2 (fun t => BitVec.ofInt 32 ((x t).toInt * (y t).toInt / 2 ^ 32)) ∧
    Writes (.vmulhiN e u d a b) s g u d u2 (fun t => BitVec.ofNat 32 ((x t).toNat * (y t).toNat / 2 ^ 32)) ∧
    Writes (.vmac e u d a b) s g u d u3 (fun t => z t + x t * y t) ∧
    Writes (.vand e u d a b) s g u d u2 (fun t => x t &&& y t) ∧
    Writes (.vor e u d a b) s g u d u2 (fun t => x t ||| y t) ∧
    Writes (.vxor e u d a b) s g u d u2 (fun t => x t ^^^ y t) ∧
    Writes (.vandn e u d a b) s g u d u2 (fun t => x t &&& ~~~(y t)) ∧
    WritesShaped (.vshl e u d a b) s g u d (fun t => x t <<< (y t).toNat) ∧
    Writes (.vshrN e u d a b) s g u d u2 (fun t => x t >>> (y t).toNat) ∧
    Writes (.vshrI e u d a b) s g u d u2 (fun t => (x t).sshiftRight (y t).toNat) ∧
    Writes (.vrotl e u d a b) s g u d u2 (fun t => (x t).rotateLeft (y t).toNat) ∧
    Writes (.vfshl e u d a b) s g u d u3
      (fun t => BitVec.ofNat 32 (((z t).toNat * 2 ^ 32 + (x t).toNat) * 2 ^ ((y t).toNat % 32) / 2 ^ 32)) ∧
    Writes (.vfshr e u d a b) s g u d u3
      (fun t => BitVec.ofNat 32 (((x t).toNat * 2 ^ 32 + (z t).toNat) / 2 ^ ((y t).toNat % 32))) ∧
    Writes (.vminI e u d a b) s g u d u2 (fun t => if (x t).toInt ≤ (y t).toInt then x t else y t) ∧
    Writes (.vmaxI e u d a b) s g u d u2 (fun t => if (x t).toInt ≤ (y t).toInt then y t else x t) ∧
    Writes (.vminN e u d a b) s g u d u2 (fun t => if (x t).toNat ≤ (y t).toNat then x t else y t) ∧
    Writes (.vmaxN e u d a b) s g u d u2 (fun t => if (x t).toNat ≤ (y t).toNat then y t else x t) ∧
    (∃ f : Nat → Nat, (∀ t, IsPopcount 32 (x t).toNat (f t)) ∧
      Writes (.vpopc e u d a) s g u d u1 (fun t => BitVec.ofNat 32 (f t))) ∧
    (∃ f : Nat → Nat, (∀ t, IsClz 32 (x t).toNat (f t)) ∧
      Writes (.vclz e u d a) s g u d u1 (fun t => BitVec.ofNat 32 (f t))) ∧
    (∃ f : Nat → W32, (∀ t j, j < 32 → (f t).getLsbD j = (x t).getLsbD (31 - j)) ∧
      Writes (.vbrev e u d a) s g u d u1 f) ∧
    WritesShaped (.vmov e u d a) s g u d x ∧
    Writes (.vsel e u d a b) s g u d False (fun t => if g.sm.getLsbD t then x t else y t) ∧
    WritesShaped (.vtid e d) s g false d (fun t => BitVec.ofNat 32 t) ∧
    (∃ f : Nat → W32, (∀ t j, j < 32 → (f t).getLsbD j =
        k.getLsbD (4 * ((x t).getLsbD j).toNat + 2 * ((y t).getLsbD j).toNat + (((g.v c).get t).getLsbD j).toNat)) ∧
      Writes (.vlop3 e u d a b c k) s g u d ((g.v a).isU = true ∧ (g.v b).isU = true ∧ (g.v c).isU = true) f)

/-- R24, Table 5: the register of each row that has a shape of its own, of sums, differences, products, shifts and copies
and of `vtid`, an immediate counting as U, and that of any other sources, which has shape G. Under a partial mask
`VectorWriteByMask` says what writing it leaves. The once mark is the subject of `VectorIntegerResults` and
`VectorImmediateAndCompareResults`. -/
def Obligations.VectorShapes : Prop :=
  ∀ (s : State) (g : Group) (e : Bool) (d a b : Fld) (i : BitVec 9),
    let makes := fun (w : Instr) (r : VReg) => Gives w s g (g.setV d r) (cycles g false)
    let x := fun t => (g.v a).get t
    let y := fun t => (g.v b).get t
    let isG := fun (r : VReg) => r.isU = false ∧ r.isA = false
    let makesG := fun (w : Instr) (f : Nat → W32) => makes w (.g ((List.range g.width.n).map f))
    (∀ p q, g.v a = .u p → g.v b = .u q →
      makes (.vadd e false d a b) (.u (p + q)) ∧ makes (.vsub e false d a b) (.u (p - q)) ∧
      makes (.vmul e false d a b) (.u (p * q)) ∧ makes (.vshl e false d a b) (.u (p <<< q.toNat))) ∧
    (∀ p q st, g.v a = .a p st → g.v b = .u q →
      makes (.vadd e false d a b) (.a (p + q) st) ∧ makes (.vsub e false d a b) (.a (p - q) st) ∧
      makes (.vmul e false d a b) (.a (p * q) (st * q)) ∧
      makes (.vshl e false d a b) (.a (p <<< q.toNat) (st <<< q.toNat))) ∧
    (∀ p q st, g.v a = .u p → g.v b = .a q st →
      makes (.vadd e false d a b) (.a (q + p) st) ∧ makes (.vsub e false d a b) (.a (p - q) (-st)) ∧
      makes (.vmul e false d a b) (.a (q * p) (st * p))) ∧
    (∀ p q p1 q1, g.v a = .a p p1 → g.v b = .a q q1 →
      makes (.vadd e false d a b) (.a (p + q) (p1 + q1)) ∧ makes (.vsub e false d a b) (.a (p - q) (p1 - q1))) ∧
    (∀ p st, g.v a = .a p st →
      makes (.vaddi e false d a i) (.a (p + vimm i) st) ∧ makes (.vmuli e false d a i) (.a (p * vimm i) (st * vimm i)) ∧
      (i.toNat < 32 → makes (.vshli e false d a i) (.a (p <<< i.toNat) (st <<< i.toNat)))) ∧
    (∀ p, g.v a = .u p →
      makes (.vaddi e false d a i) (.u (p + vimm i)) ∧ makes (.vmuli e false d a i) (.u (p * vimm i)) ∧
      (i.toNat < 32 → makes (.vshli e false d a i) (.u (p <<< i.toNat)))) ∧
    (isG (g.v a) ∨ isG (g.v b) →
      makesG (.vadd e false d a b) (fun t => x t + y t) ∧ makesG (.vsub e false d a b) (fun t => x t - y t) ∧
      makesG (.vmul e false d a b) (fun t => x t * y t) ∧ makesG (.vshl e false d a b) (fun t => x t <<< (y t).toNat)) ∧
    ((g.v a).isA = true ∧ (g.v b).isA = true → makesG (.vmul e false d a b) (fun t => x t * y t)) ∧
    ((g.v b).isA = true → makesG (.vshl e false d a b) (fun t => x t <<< (y t).toNat)) ∧
    (isG (g.v a) →
      makesG (.vaddi e false d a i) (fun t => x t + vimm i) ∧ makesG (.vmuli e false d a i) (fun t => x t * vimm i) ∧
      (i.toNat < 32 → makesG (.vshli e false d a i) (fun t => x t <<< i.toNat))) ∧
    makes (.vmov e false d a) (g.v a) ∧ makes (.vtid e d) (.a 0 1)

/-- R77, R101: the vector instructions of class 4, whose immediate is sign-extended, and `vli`. -/
def Sys2Proof.Claims.VectorImmediateResults : Prop :=
  ∀ (s : State) (g : Group) (e u : Bool) (d a : Fld) (i : BitVec 9) (k : W32),
    let x := fun t => (g.v a).get t
    let u1 := (g.v a).isU = true
    WritesShaped (.vaddi e u d a i) s g u d (fun t => x t + vimm i) ∧
    WritesShaped (.vmuli e u d a i) s g u d (fun t => x t * vimm i) ∧
    Writes (.vandi e u d a i) s g u d u1 (fun t => x t &&& vimm i) ∧
    WritesShaped (.vshli e u d a i) s g u d (fun t => x t <<< i.toNat) ∧
    Writes (.vshriN e u d a i) s g u d u1 (fun t => x t >>> i.toNat) ∧
    Writes (.vshriI e u d a i) s g u d u1 (fun t => (x t).sshiftRight i.toNat) ∧
    Writes (.vli e u d k) s g u d True (fun _ => k)

/-- R98: a vector compare writes the scalar mask of the active threads for which its condition holds, bits of other threads
being 0; signed and unsigned order are those of the elements' values. -/
def Sys2Proof.Claims.VectorCompareResults : Prop :=
  ∀ (s : State) (g : Group) (e : Bool) (d a b : Fld) (i : BitVec 9),
    let x := fun t => (g.v a).get t
    let y := fun t => (g.v b).get t
    WritesMask (.vceq e d a b) s g d (fun t => x t = y t) ∧
    WritesMask (.vcne e d a b) s g d (fun t => x t ≠ y t) ∧
    WritesMask (.vcltI e d a b) s g d (fun t => (x t).toInt < (y t).toInt) ∧
    WritesMask (.vcleI e d a b) s g d (fun t => (x t).toInt ≤ (y t).toInt) ∧
    WritesMask (.vcltN e d a b) s g d (fun t => (x t).toNat < (y t).toNat) ∧
    WritesMask (.vcleN e d a b) s g d (fun t => (x t).toNat ≤ (y t).toNat) ∧
    WritesMask (.vceqW e d a b) s g d (fun t => g.pair a t = g.pair b t) ∧
    WritesMask (.vcltWI e d a b) s g d (fun t => (g.pair a t).toInt < (g.pair b t).toInt) ∧
    WritesMask (.vcltWN e d a b) s g d (fun t => (g.pair a t).toNat < (g.pair b t).toNat) ∧
    WritesMask (.vceqi e d a i) s g d (fun t => x t = vimm i) ∧
    WritesMask (.vcltiI e d a i) s g d (fun t => (x t).toInt < (vimm i).toInt)

/-- R77, R98, R101: the vector instructions with an immediate, and the compares, which write a scalar mask. -/
def Obligations.VectorImmediateAndCompareResults : Prop :=
  VectorImmediateResults ∧ VectorCompareResults

/-- R100: the 64-bit pair instructions write the pair of each active thread, the low half in the even register, a shift
taking its amount from a 32-bit element; both members are U when every source member is U. -/
def Obligations.VectorPairResults : Prop :=
  ∀ (s : State) (g : Group) (e u : Bool) (d a b : Fld),
    let p := fun t => g.pair a t
    let q := fun t => g.pair b t
    let n := fun t => ((g.v b).get t).toNat
    let pu := (g.v a).isU = true ∧ (g.v1 a).isU = true
    let u2 := pu ∧ (g.v b).isU = true ∧ (g.v1 b).isU = true
    let us := pu ∧ (g.v b).isU = true
    WritesPair (.vaddW e u d a b) s g u d u2 (fun t => p t + q t) ∧
    WritesPair (.vsubW e u d a b) s g u d u2 (fun t => p t - q t) ∧
    WritesPair (.vmulW e u d a b) s g u d u2 (fun t => p t * q t) ∧
    WritesPair (.vshlW e u d a b) s g u d us (fun t => p t <<< n t) ∧
    WritesPair (.vshrWN e u d a b) s g u d us (fun t => p t >>> n t) ∧
    WritesPair (.vshrWI e u d a b) s g u d us (fun t => (p t).sshiftRight (n t))

/-- R103, R104, R106 to R108: the instructions that tell or set shapes, and those that combine the elements of several
threads: only active threads contribute, but for `vxsh` and `vxshu`, which read a thread whether or not it is active. With
no active thread a reduction writes nothing (R12). -/
def Obligations.CrossThreadResults : Prop :=
  ∀ (s : State) (g : Group) (e : Bool) (d a b : Fld),
    let x := fun t => (g.v a).get t
    let act := (List.range g.width.n).filter fun t => g.exm.getLsbD t && g.lvm.getLsbD t
    let sumOf := fun (f : Nat → W32) (ts : List Nat) => (ts.map f).sum
    let same := fun t => act.filter fun v => x v == x t
    Gives (.vshape e d a) s g (g.writeS d (match g.v a with
      | .u v => BitVec.ofNat 64 (v.toNat * 2 ^ 32)
      | .a _ st => BitVec.ofNat 64 (st.toNat * 2 ^ 32 + 1)
      | .g _ => 2)) 1 ∧
    (Issues (.vgen e d a) s g → ∃ h, exec (.vgen e d a) s = .next (after s h (cycles g false)
        (h.pc + lengthOf (.vgen e d a)) (endsRun (.vgen e d a) h)) ∧
      (g.wb + d.toNat < g.vregs.length → (∃ xs, h.v d = .g xs) ∧
        ∀ t, t < g.width.n → (h.v d).get t = if g.exm.getLsbD t && g.lvm.getLsbD t then x t else (g.v d).get t)) ∧
    Writes (.vxsh e d a b) s g false d False (fun t => x (((g.v b).get t).toNat % g.width.n)) ∧
    Writes (.vxshu e d a b) s g false d False
      (fun t => if (g.readS (s.cyc g) b).toNat ≤ t then x (t - (g.readS (s.cyc g) b).toNat) else x t) ∧
    Writes (.vscanAdd e d a) s g false d False (fun t => sumOf x (act.filter fun v => v ≤ t)) ∧
    Writes (.vredAdd e d a) s g false d False (fun _ => sumOf x act) ∧
    (Issues (.vmatchr e d a b) s g → ∃ (v : VReg) (m : W64) (h : Group),
      exec (.vmatchr e d a b) s = .next (after s h (cycles g false) (h.pc + lengthOf (.vmatchr e d a b))
        (endsRun (.vmatchr e d a b) h)) ∧
      (act = [] → h = g) ∧ (act ≠ [] → h = { g.setV d v with sm := m }) ∧
      (∀ t, t < g.width.n → v.get t = sumOf (fun w => (g.v b).get w) (same t)) ∧
      ∀ t, t < 64 → (m.getLsbD t = true ↔ t ∈ act ∧ ∀ w, w ∈ act → x w = x t → t ≤ w)) ∧
    (∀ w ∈ act, (∀ v ∈ act, (x v).toInt ≤ (x w).toInt) → (∀ v ∈ act, x v = x w → w ≤ v) →
      Gives (.vredmaxiI e d a) s g (g.setPair d (.g (List.replicate g.width.n (x w)))
        (.g (List.replicate g.width.n (BitVec.ofNat 32 w)))) (cycles g false)) ∧
    (∀ w ∈ act, (∀ v ∈ act, (x w).toInt ≤ (x v).toInt) → (∀ v ∈ act, x v = x w → w ≤ v) →
      Gives (.vredminiI e d a) s g (g.setPair d (.g (List.replicate g.width.n (x w)))
        (.g (List.replicate g.width.n (BitVec.ofNat 32 w)))) (cycles g false)) ∧
    (act = [] → Gives (.vredAdd e d a) s g g (cycles g false) ∧ Gives (.vscanAdd e d a) s g g (cycles g false) ∧
      Gives (.vredmaxiI e d a) s g g (cycles g false) ∧ Gives (.vredminiI e d a) s g g (cycles g false))

/-- R109 to R111: the modular instructions write the residue of the exact result modulo the entry that `mq` selects of
the team's table; `mqld` stores an odd value between 2^30 and 2^31 in the entry it names, and is an illegal operand with
any other value. That an entry of 0, which no `mqld` leaves, gives the exact result modulo 2^32, and that every group of the team has
the new entry at once, is the model's choice (assumption log 37, DESIGN CHOICE). -/
def Obligations.ModularResults : Prop :=
  ∀ (s : State) (g : Group) (tm : Team) (e u : Bool) (d a b : Fld) (n : BitVec 3),
    s.team? g.team = some tm → tm.mod.length = 8 → g.mq < 8 →
    let q := (tm.mod.getD g.mq 0).toNat
    let x := fun t => ((g.v a).get t).toNat
    let y := fun t => ((g.v b).get t).toNat
    let z := fun t => ((g.v d).get t).toNat
    let u2 := (g.v a).isU = true ∧ (g.v b).isU = true
    let u3 := (g.v d).isU = true ∧ (g.v a).isU = true ∧ (g.v b).isU = true
    let m := g.readS (s.cyc g) a
    Writes (.vaddmod e u d a b) s g u d u2 (fun t => BitVec.ofNat 32 ((x t + y t) % q)) ∧
    Writes (.vsubmod e u d a b) s g u d u2 (fun t => BitVec.ofNat 32 (((x t : Int) - (y t : Int)) % (q : Int)).toNat) ∧
    Writes (.vmulmod e u d a b) s g u d u2 (fun t => BitVec.ofNat 32 ((x t * y t) % q)) ∧
    Writes (.vmacmod e u d a b) s g u d u3 (fun t => BitVec.ofNat 32 ((z t + x t * y t) % q)) ∧
    (2 ^ 30 < m.toNat ∧ m.toNat < 2 ^ 31 ∧ m.toNat % 2 = 1 → Issues (.mqld e a n) s g →
      exec (.mqld e a n) s = .next (after (s.setTeam { tm with mod := tm.mod.set n.toNat (m.setWidth 32) }) g 1
        (g.pc + lengthOf (.mqld e a n)) (endsRun (.mqld e a n) g))) ∧
    (¬(2 ^ 30 < m.toNat ∧ m.toNat < 2 ^ 31 ∧ m.toNat % 2 = 1) → Traps (.mqld e a n) s g .illegalOperand 0)

/-! ## Floating point -/

namespace Sys2Proof.Claims

/-- The active threads of a group in ascending order. -/
def actives (g : Group) : List Nat := (List.range g.width.n).filter fun t => g.exm.getLsbD t && g.lvm.getLsbD t

/-- The threads that compute an element (R11, R123): the active ones, or under the once mark the lowest of them. -/
def computing (g : Group) (once : Bool) : List Nat := if once then (actives g).take 1 else actives g

/-- `i` computes an element in each computing thread, with the flags `fl`, which it raises (R123, R129), and writes it as
`Writes` says (R132). The state and group that raising the flags leaves are `Group.raise`, of which `FloatFlagsAndEvents`
says what it does. -/
def Floats (i : Instr) (s : State) (g : Group) (once : Bool) (d : Fld) (uni : Prop) (val : Nat → W32)
    (fl : Nat → List Flags) : Prop :=
  Issues i s g → ∃ v : VReg,
    let r := g.raise s ((computing g once).flatMap fl)
    let h := r.2.setV d v
    exec i s = .next (after r.1 h (cycles g once) (h.pc + lengthOf i) (endsRun i h)) ∧
    (once = false → (∀ t, t < g.width.n → v.get t = val t) ∧ (uni → v.isU = true) ∧
      (¬uni → v.isU = false ∧ v.isA = false)) ∧
    (once = true → ∀ l, IsLowest g l → v = .u (val l))

/-- The same of one FP32 result per thread. -/
def Float1 (i : Instr) (s : State) (g : Group) (once : Bool) (d : Fld) (uni : Prop) (f : Nat → FRes) : Prop :=
  Floats i s g once d uni (fun t => BitVec.ofNat 32 (f t).x) fun t => [(f t).fl]

/-- The same of an exact pair or a double word, which is written hi first and costs two cycles per thread (R8, R133). -/
def FloatPairs (i : Instr) (s : State) (g : Group) (once : Bool) (d : Fld) (uni : Prop) (f : Nat → Pair) : Prop :=
  Issues i s g → ∃ hi lo : VReg,
    let r := g.raise s ((computing g once).map fun t => (f t).fl)
    let h := r.2.setPair d hi lo
    exec i s = .next (after r.1 h (pairCycles g once) (h.pc + lengthOf i) (endsRun i h)) ∧
    (once = false → (∀ t, t < g.width.n → hi.get t = BitVec.ofNat 32 (f t).hi ∧ lo.get t = BitVec.ofNat 32 (f t).lo) ∧
      (uni → hi.isU = true ∧ lo.isU = true) ∧
      (¬uni → hi.isU = false ∧ hi.isA = false ∧ lo.isU = false ∧ lo.isA = false)) ∧
    (once = true → ∀ l, IsLowest g l →
      hi = .u (BitVec.ofNat 32 (f l).hi) ∧ lo = .u (BitVec.ofNat 32 (f l).lo))

/-- `i` writes the mask of the active threads for which `cond` holds, and raises NV for those for which `nv` does (R138). -/
def FloatMask (i : Instr) (s : State) (g : Group) (d : Fld) (cond : Nat → Prop) (nv : Nat → Bool) : Prop :=
  Issues i s g → ∃ m : W64, (∀ t, t < 64 → (m.getLsbD t = true ↔ Active g t ∧ cond t)) ∧
    let r := g.raise s ((actives g).map fun t => { Flags.zero with nv := nv t })
    let h := r.2.writeS d m
    exec i s = .next (after r.1 h (cycles g false) (h.pc + lengthOf i) (endsRun i h))

/-- The rational number that a finite value is, without its sign. -/
def magnitude : FVal → Rat
  | .fin _ m e => (m : Rat) * (2 : Rat) ^ e
  | _ => 0

/-- The value of the magnitude `k` of a format. -/
def magOf (f : Fmt) (k : Nat) : Rat := magnitude (f.val k)

/-- The order of FP32 elements that are no NaN, +0 and −0 being equal: the signed magnitude. -/
def order (x : Nat) : Int := if x.testBit 31 then -((x % 2 ^ 31 : Nat) : Int) else ((x % 2 ^ 31 : Nat) : Int)

/-- The number that a finite bit pattern of a format is. -/
def valueOf (f : Fmt) (k : Nat) : Rat := if f.neg k = true then -magnitude (f.val k) else magnitude (f.val k)

/-- `r` is the exact value `x` rounded into a format in a mode (R122 to R124, IEEE 754): a result that overflows stands for a
value beyond the largest finite one; any other is a finite value of the sign of `x`, inexact exactly when it differs from `x`,
and no finite value of the format is better: none is nearer, or equally near while `r` is odd; none lies between `r` and `x`. -/
def RoundsTo (f : Fmt) (md : RMode) (x : ℝ) (r : FRes) : Prop :=
  let v := fun k => ((valueOf f k : Rat) : ℝ)
  (r.fl.ovf = true → v f.maxMag < |x|) ∧
  (r.fl.ovf = false → (f.val r.x).isFin = true ∧ (r.fl.nx = true ↔ v r.x ≠ x) ∧
    (0 < x → f.neg r.x = false) ∧ (x < 0 → f.neg r.x = true) ∧
    ∀ k, (f.val k).isFin = true →
      match md with
      | .rne => v k = v r.x ∨ |v r.x - x| < |v k - x| ∨ (|v r.x - x| = |v k - x| ∧ r.x % 2 = 0)
      | .rz => |v r.x| ≤ |x| ∧ (|v k| ≤ |x| → |v k| ≤ |v r.x|)
      | .ru => x ≤ v r.x ∧ (x ≤ v k → v r.x ≤ v k)
      | .rd => v r.x ≤ x ∧ (v k ≤ x → v k ≤ v r.x))

/-- An FP32 element is a NaN: its exponent is all ones and its fraction is not 0 (R115). -/
def IsNaN (x : Nat) : Prop := 0x7F800000 < x % 2 ^ 31

/-- The result for a NaN operand: the operand with its top fraction bit set, NV being raised when it is signalling, with that
bit clear (R121). -/
def quieted (x : Nat) : FRes := ⟨x ||| 2 ^ 22, { Flags.zero with nv := !x.testBit 22 }⟩

/-- The order of R135 on elements that are no NaN: that of their values, with −0 below +0. -/
def Below (x y : Nat) : Prop :=
  order x < order y ∨ order x = order y ∧ x.testBit 31 = true ∧ y.testBit 31 = false

/-- The results of R135: Table 2 where an operand is a NaN, `num` being set for `vfminn` and `vfmaxn`; else the smaller or the
larger operand, and a for equal values, without a flag. -/
def Extremum (max num : Bool) (a b : Nat) (r : FRes) : Prop :=
  let nv := { Flags.zero with nv := fp32.isSig a || fp32.isSig b }
  (IsNaN a → (num = false ∨ IsNaN b) → r = ⟨(quieted a).x, nv⟩) ∧
  (¬IsNaN a → IsNaN b → num = false → r = ⟨(quieted b).x, nv⟩) ∧
  (IsNaN a → ¬IsNaN b → num = true → r = ⟨b, nv⟩) ∧
  (¬IsNaN a → IsNaN b → num = true → r = ⟨a, nv⟩) ∧
  (¬IsNaN a → ¬IsNaN b → r.fl = Flags.zero ∧
    (if max = true then (Below a b → r.x = b) ∧ (¬Below a b → r.x = a)
      else (Below b a → r.x = b) ∧ (¬Below b a → r.x = a)))

/-- The class of an element by its bit in Table 3 of R137. -/
def IsClass (x k : Nat) : Prop :=
  let v := valueOf fp32 x
  (k = 9 ↔ IsNaN x ∧ x.testBit 22 = true) ∧ (k = 8 ↔ IsNaN x ∧ x.testBit 22 = false) ∧
  (k = 7 ↔ x = 0x7F800000) ∧ (k = 6 ↔ (2 : Rat) ^ (-126 : Int) ≤ v) ∧
  (k = 5 ↔ 0 < v ∧ v < (2 : Rat) ^ (-126 : Int)) ∧ (k = 4 ↔ x = 0) ∧ (k = 3 ↔ x = 2 ^ 31) ∧
  (k = 2 ↔ v < 0 ∧ -(2 : Rat) ^ (-126 : Int) < v) ∧ (k = 1 ↔ v ≤ -(2 : Rat) ^ (-126 : Int)) ∧
  (k = 0 ↔ x = 0xFF800000)

/-- `r` is the element `x` scaled by 2^n (R134): a NaN is propagated, a zero and an infinity are returned as they are, and a
finite value is scaled exactly and rounded once. -/
def IsScaled (md : RMode) (x : Nat) (n : Int) (r : FRes) : Prop :=
  (IsNaN x → r = quieted x) ∧ (x % 2 ^ 31 = 0 ∨ x % 2 ^ 31 = 0x7F800000 → r = ⟨x, Flags.zero⟩) ∧
  (x % 2 ^ 31 < 0x7F800000 → RoundsTo fp32 md (((valueOf fp32 x : Rat) : ℝ) * (2 : ℝ) ^ n) r)

/-- `r` is one of the two finite FP32 values that bracket `y`, or `y` itself where that is one: no FP32 value lies between the
two, nor does any but `r` equal `y`. A zero has the sign of `y`. -/
def Brackets (y : ℝ) (r : FRes) : Prop :=
  let v := fun k => ((valueOf fp32 k : Rat) : ℝ)
  (fp32.val r.x).isFin = true ∧ (0 < y → fp32.neg r.x = false) ∧ (y < 0 → fp32.neg r.x = true) ∧
  ∀ k, (fp32.val k).isFin = true →
    (v r.x ≤ y → v r.x < v k → y < v k) ∧ (y ≤ v r.x → v k < v r.x → v k < y)

/-- The flags of an approximate result that is not exact: NX, and UF where it is subnormal or zero (R139). -/
def inexact (r : FRes) : Flags := { Flags.zero with nx := true, uf := decide (r.x % 2 ^ 31 < 2 ^ 23) }

/-- `r` approximates the exact result `y` (R139): exactly and without a flag where `y` is an FP32 value, and else as one of the
two values that bracket it. -/
def Approximates (y : ℝ) (r : FRes) : Prop :=
  Brackets y r ∧
  ((∃ k, (fp32.val k).isFin = true ∧ ((valueOf fp32 k : Rat) : ℝ) = y) → r.fl = Flags.zero) ∧
  ((¬∃ k, (fp32.val k).isFin = true ∧ ((valueOf fp32 k : Rat) : ℝ) = y) → r.fl = inexact r)

/-- `vfrcp` (R139, Table 5). -/
def IsReciprocal (a : W32) (r : FRes) : Prop :=
  let v := ((valueOf fp32 a.toNat : Rat) : ℝ)
  let inf := if a.getLsbD 31 = true then 0xFF800000 else 0x7F800000
  (IsNaN a.toNat → r = quieted a.toNat) ∧
  (a.toNat % 2 ^ 31 = 0 → r = ⟨inf, { Flags.zero with dz := true }⟩) ∧
  (a.toNat % 2 ^ 31 = 0x7F800000 → r = ⟨inf - 0x7F800000, Flags.zero⟩) ∧
  (0 < |v| → |v| ≤ (2 : ℝ) ^ (-128 : Int) → r = ⟨inf, { Flags.zero with ovf := true, nx := true }⟩) ∧
  ((2 : ℝ) ^ (-128 : Int) < |v| → Approximates (1 / v) r)

/-- `vfrsq` (R139, Table 5). -/
def IsRootReciprocal (a : W32) (r : FRes) : Prop :=
  let v := ((valueOf fp32 a.toNat : Rat) : ℝ)
  (IsNaN a.toNat → r = quieted a.toNat) ∧
  (a = 0 → r = ⟨0x7F800000, { Flags.zero with dz := true }⟩) ∧
  (a = 0x80000000 → r = ⟨0xFF800000, { Flags.zero with dz := true }⟩) ∧
  (a = 0x7F800000 → r = ⟨0, Flags.zero⟩) ∧
  (a = 0xFF800000 ∨ v < 0 → r = ⟨0x7FC00000, Flags.invalid⟩) ∧
  (0 < v → Approximates (1 / Real.sqrt v) r)

/-- `vfexp2` (R139, Table 5), the value that is bracketed being 2^a to one part in 2^100. -/
def IsExp2 (a : W32) (r : FRes) : Prop :=
  let v := ((valueOf fp32 a.toNat : Rat) : ℝ)
  let y := (2 : ℝ) ^ v
  (IsNaN a.toNat → r = quieted a.toNat) ∧
  (a.toNat % 2 ^ 31 = 0 → r = ⟨0x3F800000, Flags.zero⟩) ∧
  (a = 0x7F800000 → r = ⟨0x7F800000, Flags.zero⟩) ∧ (a = 0xFF800000 → r = ⟨0, Flags.zero⟩) ∧
  (128 ≤ v → r = ⟨0x7F800000, { Flags.zero with ovf := true, nx := true }⟩) ∧
  (v < -149 → r.x ≤ 1 ∧ r.fl = { Flags.zero with nx := true, uf := true }) ∧
  (∀ n : Int, -149 ≤ n → n ≤ 127 → n ≠ 0 → v = n → r.x < 2 ^ 31 ∧ ((valueOf fp32 r.x : Rat) : ℝ) = y ∧ r.fl = Flags.zero) ∧
  (-149 < v → v < 128 → (¬∃ n : Int, v = n) →
    r.fl = inexact r ∧ ∃ z : ℝ, |z - y| ≤ y / 2 ^ 100 ∧ Brackets z r)

/-- `vflog2` (R139, Table 5), the value that is bracketed differing from log2 a by at most 2^−70. -/
def IsLog2 (a : W32) (r : FRes) : Prop :=
  let v := ((valueOf fp32 a.toNat : Rat) : ℝ)
  let y := Real.logb 2 v
  (IsNaN a.toNat → r = quieted a.toNat) ∧
  (a.toNat % 2 ^ 31 = 0 → r = ⟨0xFF800000, { Flags.zero with dz := true }⟩) ∧
  (a = 0x7F800000 → r = ⟨0x7F800000, Flags.zero⟩) ∧
  (a = 0xFF800000 ∨ v < 0 → r = ⟨0x7FC00000, Flags.invalid⟩) ∧
  (∀ n : Int, v = (2 : ℝ) ^ n → fp32.neg r.x = decide (n < 0) ∧ ((valueOf fp32 r.x : Rat) : ℝ) = n ∧ r.fl = Flags.zero) ∧
  (0 < v → (¬∃ n : Int, v = (2 : ℝ) ^ n) →
    r.fl = { Flags.zero with nx := true } ∧ ∃ z : ℝ, |z - y| ≤ 1 / 2 ^ 70 ∧ Brackets z r)

end Sys2Proof.Claims

/-- R121, R134 to R137: the FP32 element instructions compute, in each active thread, the value that their entry gives: sums,
products, quotients and roots rounded once in `fpm`.RM (whose rounding is the subject of `RoundingIsCorrect`), scaled values,
minima and maxima, signs and classes; each element raises its flags. -/
def Sys2Proof.Claims.FloatElementResults : Prop :=
  ∀ (s : State) (g : Group) (e u : Bool) (d a b : Fld),
    let x := fun t => ((g.v a).get t).toNat
    let y := fun t => ((g.v b).get t).toNat
    let z := fun t => ((g.v d).get t).toNat
    let rm := RMode.ofBits (g.fpm.toNat % 4)
    let u1 := (g.v a).isU = true
    let u2 := (g.v a).isU = true ∧ (g.v b).isU = true
    let u3 := (g.v d).isU = true ∧ (g.v a).isU = true ∧ (g.v b).isU = true
    Float1 (.vfadd e u d a b) s g u d u2 (fun t => fp32.add rm (x t) (y t)) ∧
    Float1 (.vfsub e u d a b) s g u d u2 (fun t => fp32.sub rm (x t) (y t)) ∧
    Float1 (.vfmul e u d a b) s g u d u2 (fun t => fp32.mul rm (x t) (y t)) ∧
    Float1 (.vffma e u d a b) s g u d u3 (fun t => fp32.fma rm (z t) (x t) (y t)) ∧
    Float1 (.vfdiv e u d a b) s g u d u2 (fun t => fp32.div rm (x t) (y t)) ∧
    Float1 (.vfsqrt e u d a) s g u d u1 (fun t => fp32.sqrt rm (x t)) ∧
    (∃ f, (∀ t, IsScaled rm (x t) ((g.v b).get t).toInt (f t)) ∧ Float1 (.vfscale e u d a b) s g u d u2 f) ∧
    (∃ f, (∀ t, Extremum false false (x t) (y t) (f t)) ∧ Float1 (.vfmin e u d a b) s g u d u2 f) ∧
    (∃ f, (∀ t, Extremum true false (x t) (y t) (f t)) ∧ Float1 (.vfmax e u d a b) s g u d u2 f) ∧
    (∃ f, (∀ t, Extremum false true (x t) (y t) (f t)) ∧ Float1 (.vfminn e u d a b) s g u d u2 f) ∧
    (∃ f, (∀ t, Extremum true true (x t) (y t) (f t)) ∧ Float1 (.vfmaxn e u d a b) s g u d u2 f) ∧
    Float1 (.vfabs e u d a) s g u d u1 (fun t => ⟨x t % 2 ^ 31, Flags.zero⟩) ∧
    Float1 (.vfneg e u d a) s g u d u1 (fun t => ⟨(x t + 2 ^ 31) % 2 ^ 32, Flags.zero⟩) ∧
    (∃ f : Nat → Nat, (∀ t, IsClass (x t) (f t)) ∧ Float1 (.vfclass e u d a) s g u d u1 (fun t => ⟨2 ^ f t, Flags.zero⟩))

/-- R139: the approximate functions. Each is one function of the operand’s bits, the same in every state; it gives the results
of Table 5, exact results exactly, and else one of the two FP32 values that bracket the exact one. -/
def Sys2Proof.Claims.ApproximateResults : Prop :=
  ∃ rcp rsq exp2 log2 : W32 → FRes,
    (∀ a, IsReciprocal a (rcp a) ∧ IsRootReciprocal a (rsq a) ∧ IsExp2 a (exp2 a) ∧ IsLog2 a (log2 a)) ∧
    ∀ (s : State) (g : Group) (e u : Bool) (d a : Fld),
      let u1 := (g.v a).isU = true
      Float1 (.vfrcp e u d a) s g u d u1 (fun t => rcp ((g.v a).get t)) ∧
      Float1 (.vfrsq e u d a) s g u d u1 (fun t => rsq ((g.v a).get t)) ∧
      Float1 (.vfexp2 e u d a) s g u d u1 (fun t => exp2 ((g.v a).get t)) ∧
      Float1 (.vflog2 e u d a) s g u d u1 (fun t => log2 ((g.v a).get t))

/-- R121, R134 to R137, R139: the FP32 element instructions write the values of their entries, and raise their flags. What the
brackets of `vfexp2` and `vflog2` enclose is the exact result to one part in 2^100 and to 2^−70. -/
def Obligations.FloatResults : Prop :=
  FloatElementResults ∧ ApproximateResults

/-- R138: the floating-point compares. No condition holds with a NaN operand but that of `vfcun`; +0 and −0 are equal; a
signalling NaN raises NV, and a quiet one too in `vfclt` and `vfcle`. -/
def Sys2Proof.Claims.FloatCompareResults : Prop :=
  ∀ (s : State) (g : Group) (e : Bool) (d a b : Fld),
    let x := fun t => ((g.v a).get t).toNat
    let y := fun t => ((g.v b).get t).toNat
    let nan := fun t => fp32.isNan (x t) || fp32.isNan (y t)
    let sig := fun t => fp32.isSig (x t) || fp32.isSig (y t)
    FloatMask (.vfceq e d a b) s g d (fun t => nan t = false ∧ order (x t) = order (y t)) sig ∧
    FloatMask (.vfclt e d a b) s g d (fun t => nan t = false ∧ order (x t) < order (y t)) nan ∧
    FloatMask (.vfcle e d a b) s g d (fun t => nan t = false ∧ order (x t) ≤ order (y t)) nan ∧
    FloatMask (.vfcun e d a b) s g d (fun t => nan t = true) sig

/-- R126, R140, R141: the exact-pair instructions write TwoSum and TwoProd, and the double-word instructions the pairs of
their pseudocode, hi in the even register, at two cycles per active thread. -/
def Sys2Proof.Claims.FloatPairResults : Prop :=
  ∀ (s : State) (g : Group) (e u : Bool) (d a b : Fld),
    let x := fun t => ((g.v a).get t).toNat
    let x1 := fun t => ((g.v1 a).get t).toNat
    let y := fun t => ((g.v b).get t).toNat
    let y1 := fun t => ((g.v1 b).get t).toNat
    let neg := fun n : Nat => (n + 2 ^ 31) % 2 ^ 32
    let v2 := (g.v a).isU = true ∧ (g.v b).isU = true
    let p1 := (g.v a).isU = true ∧ (g.v1 a).isU = true
    let p2 := p1 ∧ (g.v b).isU = true ∧ (g.v1 b).isU = true
    FloatPairs (.vfaddX e u d a b) s g u d v2 (fun t => twoSum (x t) (y t)) ∧
    FloatPairs (.vfsubX e u d a b) s g u d v2 (fun t => twoSum (x t) (neg (y t))) ∧
    FloatPairs (.vfmulX e u d a b) s g u d v2 (fun t => twoProd (x t) (y t)) ∧
    FloatPairs (.vdwadd e u d a b) s g u d p2 (fun t => dwAdd (x t) (x1 t) (y t) (y1 t)) ∧
    FloatPairs (.vdwsub e u d a b) s g u d p2 (fun t => dwAdd (x t) (x1 t) (neg (y t)) (neg (y1 t))) ∧
    FloatPairs (.vdwmul e u d a b) s g u d p2 (fun t => dwMul (x t) (x1 t) (y t) (y1 t)) ∧
    FloatPairs (.vdwmulf e u d a b) s g u d (p1 ∧ (g.v b).isU = true) (fun t => dwMulF (x t) (x1 t) (y t)) ∧
    FloatPairs (.vdwren e u d a) s g u d p1 (fun t => dwRen (x t) (x1 t))

/-- R123, R126, R138, R140, R141: the floating-point compares, and the exact-pair and double-word instructions. That a compare whose
destination is `fpf` leaves its mask there, written over the flag that it raises, is the model's choice (assumption log 37, DESIGN
CHOICE). -/
def Obligations.FloatCompareAndPairResults : Prop :=
  FloatCompareResults ∧ FloatPairResults

/-- R142, R143: the floating-point reductions and the scan run over the active threads in ascending order; the greatest and
the least element are those of the order with −0 below +0, the lowest thread winning ties, and a NaN, quieted, wins over
every number. With no active thread nothing is written and no flag is raised (R12). -/
def Obligations.FloatReductionResults : Prop :=
  ∀ (s : State) (g : Group) (e : Bool) (d a : Fld),
    let x := fun t => ((g.v a).get t).toNat
    let x1 := fun t => ((g.v1 a).get t).toNat
    let all := fun n : Nat => VReg.g (List.replicate g.width.n (BitVec.ofNat 32 n))
    let sum := runSum (RMode.ofBits (g.fpm.toNat % 4))
    (∀ t ts, actives g = t :: ts →
      let first := if fp32.isSig (x t) then fp32.quiet (x t) else x t
      let ys := (sum first (ts.map x)).1
      let fl := (if fp32.isSig (x t) then [Flags.invalid] else []) ++ (sum first (ts.map x)).2
      let r := g.raise s fl
      (Issues (.vfredAdd e d a) s g → let h := r.2.setV d (all (ys.getLastD 0))
        exec (.vfredAdd e d a) s = .next (after r.1 h (cycles g false) (h.pc + lengthOf (.vfredAdd e d a))
          (endsRun (.vfredAdd e d a) h))) ∧
      (Issues (.vfscanAdd e d a) s g → ∃ v : VReg, let h := r.2.setV d v
        exec (.vfscanAdd e d a) s = .next (after r.1 h (cycles g false) (h.pc + lengthOf (.vfscanAdd e d a))
          (endsRun (.vfscanAdd e d a) h)) ∧
        ∀ k w, (t :: ts)[k]? = some w → v.get w = BitVec.ofNat 32 (ys.getD k 0)) ∧
      (Issues (.vfredX e d a) s g →
        let p := dwRen (x t) (x1 t)
        let z := runDw p (ts.map fun w => (x w, x1 w))
        let r := g.raise s (p.fl :: z.2)
        let h := r.2.setPair d (all z.1.hi) (all z.1.lo)
        exec (.vfredX e d a) s = .next (after r.1 h (pairCycles g false) (h.pc + lengthOf (.vfredX e d a))
          (endsRun (.vfredX e d a) h)))) ∧
    (∀ w ∈ actives g,
      let nv := (actives g).any fun t => fp32.isSig (x t)
      let r := g.raise s (if nv then [Flags.invalid] else [])
      let h := r.2.setPair d (all (if fp32.isNan (x w) then fp32.quiet (x w) else x w)) (all w)
      let nanFirst := fp32.isNan (x w) = true ∧ ∀ t ∈ actives g, fp32.isNan (x t) = true → w ≤ t
      let noNan := ∀ t ∈ actives g, fp32.isNan (x t) = false
      ((nanFirst ∨ noNan ∧ (∀ t ∈ actives g, fp32.rank (x t) ≤ fp32.rank (x w)) ∧
          ∀ t ∈ actives g, x t = x w → w ≤ t) → Issues (.vfredmaxi e d a) s g →
        exec (.vfredmaxi e d a) s = .next (after r.1 h (cycles g false) (h.pc + lengthOf (.vfredmaxi e d a))
          (endsRun (.vfredmaxi e d a) h))) ∧
      ((nanFirst ∨ noNan ∧ (∀ t ∈ actives g, fp32.rank (x w) ≤ fp32.rank (x t)) ∧
          ∀ t ∈ actives g, x t = x w → w ≤ t) → Issues (.vfredmini e d a) s g →
        exec (.vfredmini e d a) s = .next (after r.1 h (cycles g false) (h.pc + lengthOf (.vfredmini e d a))
          (endsRun (.vfredmini e d a) h)))) ∧
    (actives g = [] → Gives (.vfredAdd e d a) s g g (cycles g false) ∧ Gives (.vfscanAdd e d a) s g g (cycles g false) ∧
      Gives (.vfredX e d a) s g g (pairCycles g false) ∧ Gives (.vfredmaxi e d a) s g g (cycles g false) ∧
      Gives (.vfredmini e d a) s g g (cycles g false))

/-- R115, R144 to R148: the packed instructions compute the two halves of each word independently, `vhdot.bf` rounds an
exact sum of two products and the prior destination once, and `vcvt` converts as its selector says, in the mode of its
low two bits. -/
def Obligations.PackedAndConversionResults : Prop :=
  ∀ (s : State) (g : Group) (e u : Bool) (d a b sel : Fld),
    let x := fun t => ((g.v a).get t).toNat
    let y := fun t => ((g.v b).get t).toNat
    let z := fun t => ((g.v d).get t).toNat
    let lo := fun n : Nat => n % 2 ^ 16
    let hi := fun n : Nat => n / 2 ^ 16
    let rm := RMode.ofBits (g.fpm.toNat % 4)
    let u2 := (g.v a).isU = true ∧ (g.v b).isU = true
    let u3 := (g.v d).isU = true ∧ (g.v a).isU = true ∧ (g.v b).isU = true
    let two := fun (i : Instr) (uni : Prop) (f : Nat → FRes × FRes) =>
      Floats i s g u d uni (fun t => BitVec.ofNat 32 ((f t).1.x + 2 ^ 16 * (f t).2.x)) fun t => [(f t).1.fl, (f t).2.fl]
    two (.vhaddBf e u d a b) u2 (fun t => (bf16.add rm (lo (x t)) (lo (y t)), bf16.add rm (hi (x t)) (hi (y t)))) ∧
    two (.vhmulBf e u d a b) u2 (fun t => (bf16.mul rm (lo (x t)) (lo (y t)), bf16.mul rm (hi (x t)) (hi (y t)))) ∧
    two (.vhfmaBf e u d a b) u3 (fun t => (bf16.fma rm (lo (z t)) (lo (x t)) (lo (y t)),
      bf16.fma rm (hi (z t)) (hi (x t)) (hi (y t)))) ∧
    two (.vhaddH e u d a b) u2 (fun t => (fp16.add rm (lo (x t)) (lo (y t)), fp16.add rm (hi (x t)) (hi (y t)))) ∧
    two (.vhmulH e u d a b) u2 (fun t => (fp16.mul rm (lo (x t)) (lo (y t)), fp16.mul rm (hi (x t)) (hi (y t)))) ∧
    two (.vhfmaH e u d a b) u3 (fun t => (fp16.fma rm (lo (z t)) (lo (x t)) (lo (y t)),
      fp16.fma rm (hi (z t)) (hi (x t)) (hi (y t)))) ∧
    Float1 (.vhdotBf e u d a b) s g u d u3 (fun t => dot2 rm (z t) (x t) (y t)) ∧
    Float1 (.vcvt e u d a sel) s g u d ((g.v a).isU = true)
      (fun t => convert (sel.toNat / 4) (RMode.ofBits (sel.toNat % 4)) (x t))

/-- R122 to R124: rounding toward zero in FP32, BF16, FP16 and E5M2. A magnitude that does not overflow is rounded to the
greatest one of the format that does not exceed it; the result is flagged inexact exactly when it differs. -/
def Sys2Proof.Claims.RoundingTowardZeroBrackets : Prop :=
  ∀ (f : Fmt), f ∈ [fp32, bf16, fp16, e5m2] → ∀ (neg : Bool) (m : Nat) (e : Int),
    let r := f.roundMag .rz neg m e
    let x := (m : Rat) * (2 : Rat) ^ e
    r.2.ovf = false →
      r.1 ≤ f.maxMag ∧ magOf f r.1 ≤ x ∧ (r.1 < f.maxMag → x < magOf f (r.1 + 1)) ∧
      (r.2.nx = true ↔ magOf f r.1 ≠ x)

/-- R122 to R125: rounding to nearest, ties to even, in the same formats: no other finite magnitude of the format is closer
to the exact value, and of two that are equally close the even one is delivered. -/
def Sys2Proof.Claims.RoundingToNearestIsNearest : Prop :=
  ∀ (f : Fmt), f ∈ [fp32, bf16, fp16, e5m2] → ∀ (neg : Bool) (m : Nat) (e : Int),
    let r := f.roundMag .rne neg m e
    let x := (m : Rat) * (2 : Rat) ^ e
    r.2.ovf = false →
      r.1 ≤ f.maxMag ∧ (r.2.nx = true ↔ magOf f r.1 ≠ x) ∧
      ∀ k, k ≤ f.maxMag → k ≠ r.1 →
        |magOf f r.1 - x| < |magOf f k - x| ∨ (|magOf f r.1 - x| = |magOf f k - x| ∧ r.1 % 2 = 0)

/-- R122 to R124: rounding toward +∞ and toward −∞, in the same formats: away from zero for one sign, where the magnitude
delivered is the least one of the format that is not below the exact one, and toward zero for the other. -/
def Sys2Proof.Claims.DirectedRoundingBrackets : Prop :=
  ∀ (f : Fmt), f ∈ [fp32, bf16, fp16, e5m2] → ∀ (md : RMode) (neg : Bool) (m : Nat) (e : Int), md = .ru ∨ md = .rd →
    let r := f.roundMag md neg m e
    let x := (m : Rat) * (2 : Rat) ^ e
    r.2.ovf = false →
      r.1 ≤ f.maxMag ∧ (r.2.nx = true ↔ magOf f r.1 ≠ x) ∧
      (neg = decide (md = .ru) → magOf f r.1 ≤ x ∧ (r.1 < f.maxMag → x < magOf f (r.1 + 1))) ∧
      (neg = decide (md = .rd) → x ≤ magOf f r.1 ∧ (0 < r.1 → magOf f (r.1 - 1) < x))

/-- R121 to R124, R134, R144: on finite operands the sum, difference, product and fused sum of FP32, BF16 and FP16 are the exact
ones rounded once, and so are the FP32 quotient by a divisor that is not 0 and the square root of a value that is not
negative. A sum that is exactly 0 has the sign of both operands where these are zeros of one sign, and else is −0 under RD and
+0 under the other modes. -/
def Sys2Proof.Claims.OperationsRoundTheExactValue : Prop :=
  (∀ (f : Fmt), f ∈ [fp32, bf16, fp16] → ∀ (md : RMode) (a b d : Nat),
    (f.val a).isFin = true → (f.val b).isFin = true → (f.val d).isFin = true →
    let v := fun k => ((valueOf f k : Rat) : ℝ)
    RoundsTo f md (v a + v b) (f.add md a b) ∧ RoundsTo f md (v a - v b) (f.sub md a b) ∧
    RoundsTo f md (v a * v b) (f.mul md a b) ∧ RoundsTo f md (v d + v a * v b) (f.fma md d a b) ∧
    (valueOf f a + valueOf f b = 0 → f.neg (f.add md a b).x =
      if f.mag a = 0 ∧ f.neg a = f.neg b then f.neg a else decide (md = .rd))) ∧
  (∀ (md : RMode) (a b : Nat), (fp32.val a).isFin = true →
    let v := fun k => ((valueOf fp32 k : Rat) : ℝ)
    ((fp32.val b).isFin = true → valueOf fp32 b ≠ 0 → RoundsTo fp32 md (v a / v b) (fp32.div md a b)) ∧
    (0 ≤ valueOf fp32 a → RoundsTo fp32 md (Real.sqrt (v a)) (fp32.sqrt md a)))

/-- R121 to R125, R134, R144: a magnitude that does not overflow is rounded as IEEE 754 says, in each of the four modes, in FP32,
BF16, FP16 and E5M2, and is flagged inexact exactly when it changes; and sums, products, fused sums, quotients and square roots
of finite operands are the exact ones so rounded. -/
def Obligations.RoundingIsCorrect : Prop :=
  RoundingTowardZeroBrackets ∧ RoundingToNearestIsNearest ∧ DirectedRoundingBrackets ∧ OperationsRoundTheExactValue

/-- R122, R123, R129, R130: raising the flags of an instruction's elements sets them in `fpf`, where they stay, and adds for
each of the five classes NV, OF, UF, NX and PL one event per element that raises it to the partition's EVSUM. It leaves
memory alone unless an action field of `fpm` asks for an interrupt. -/
def Obligations.FloatFlagsAndEvents : Prop :=
  ∀ (s : State) (g : Group) (p : Partition) (fls : List Flags), s.part? g.part = some p → p.evsum.length = 8 →
    let r := g.raise s fls
    r.2.fpf = g.fpf ||| BitVec.ofNat 64 (fls.foldl Flags.join Flags.zero).toNat ∧
    (∃ q, r.1.part? g.part = some q ∧ ∀ k, k < 5 →
      q.evsum.getD k 0 = p.evsum.getD k 0 + BitVec.ofNat 64 (fls.filter fun x => x.event k).length) ∧
    ((∀ k, k < 5 → g.fpm.toNat / 2 ^ (2 * k + 32) % 4 ≠ 2) → r.1.hbm = s.hbm ∧ r.1.slices = s.slices)

/-! ## Secret shares and conversations -/

namespace Sys2Proof.Claims

/-- From the state `s0`, in which `i` executes, a captured operation is issued with the state `s` and the issuing group `g` as
`i` has left them (R15): it joins what the run has issued, under its run index and with its words, its outcome still open;
it is handed on by `act`; and the run goes on, at a cost, unless handing it on ended the group. -/
def HandsIn (i : Instr) (s0 s : State) (g : Group) (op : DOp) (cost : Nat) (act : State → State) : Prop :=
  ∃ t, exec i s0 = .next t ∧
    let p : Pend := ⟨g.runIdx + 32 * g.tag, op, instrWords i, .waiting, s.tick, g.active, g.captures (s.cyc g) i⟩
    let u := act (s.setGroup { g with pends := g.pends ++ [p] })
    (∀ h, u.group? g.uid = some h → t = after u h cost (h.pc + lengthOf i) (endsRun i h)) ∧
    (u.group? g.uid = none → t = u)

/-- `i` issues a captured operation, and does nothing else of its own. -/
def Hands (i : Instr) (s : State) (g : Group) (op : DOp) (cost : Nat) (act : State → State) : Prop :=
  Issues i s g → HandsIn i s s g op cost act

/-- `i` fails when it issues, and the run goes on (R26, R27): a deferred failure with a cause, a detail, failing threads
and an address joins those of the run; nothing else happens. -/
def FailsNow (i : Instr) (s : State) (g : Group) (c : Cause) (detail : W32) (mask addr : W64) (cost : Nat) : Prop :=
  Gives i s g { g with fails := addFailure ⟨g.runIdx, c, addr, mask, detail, c.replayable⟩ g.fails } cost

/-- The mask of a group's active threads. -/
def activeMask (g : Group) : W64 := g.exm &&& g.lvm &&& g.width.full

/-- The party of `crole0` as the group reads it (R197): its role, when the register is bound and the role is a party's. -/
abbrev IsParty (g : Group) (p : Nat) : Prop :=
  g.crole.getD 0 0 ≠ 0 ∧ p = roleNum (g.crole.getD 0 0) ∧ p < roleNp (g.crole.getD 0 0)

end Sys2Proof.Claims

/-- R113, R200 to R202: the share instructions that need no gate. Shares are residues modulo 2^k, a `.s16` share being
written with bits 31:16 zero; a public value is added at party 0 only; `vstrunc` drops f bits of the share at party 0 and
of its negation at party 1; `vsred` sums over the active threads. With no active thread nothing is written and nothing fails
(R12). -/
def Obligations.LocalShareResults : Prop :=
  ∀ (s : State) (g : Group) (e : Bool) (d a b f : Fld),
    let x := fun t => ((g.v a).get t).toNat
    let y := fun t => ((g.v b).get t).toNat
    let m := fun (k n : Nat) => BitVec.ofNat 32 (n % 2 ^ k)
    let u1 := (g.v a).isU = true
    let u2 := (g.v a).isU = true ∧ (g.v b).isU = true
    let sub := fun (n p q : Nat) => p % 2 ^ n + (2 ^ n - q % 2 ^ n)
    let addp := fun (p n q : Nat) => if p = 0 then n + q else n
    let trunc := fun (k p n : Nat) => if p = 0 then n % 2 ^ k / 2 ^ f.toNat
      else 2 ^ k - (2 ^ k - n % 2 ^ k) % 2 ^ k / 2 ^ f.toNat
    let total := fun (k : Nat) => ((actives g).map fun t => x t % 2 ^ k).sum
    Writes (.vsaddS16 e d a b) s g false d u2 (fun t => m 16 (x t + y t)) ∧
    Writes (.vsaddS32 e d a b) s g false d u2 (fun t => m 32 (x t + y t)) ∧
    Writes (.vssubS16 e d a b) s g false d u2 (fun t => m 16 (sub 16 (x t) (y t))) ∧
    Writes (.vssubS32 e d a b) s g false d u2 (fun t => m 32 (sub 32 (x t) (y t))) ∧
    Writes (.vsmulpS16 e d a b) s g false d u2 (fun t => m 16 (x t * y t)) ∧
    Writes (.vsmulpS32 e d a b) s g false d u2 (fun t => m 32 (x t * y t)) ∧
    Writes (.vsxorB e d a b) s g false d u2 (fun t => (g.v a).get t ^^^ (g.v b).get t) ∧
    Writes (.vsredS16 e d a) s g false d False (fun _ => m 16 (total 16)) ∧
    Writes (.vsredS32 e d a) s g false d False (fun _ => m 32 (total 32)) ∧
    (∀ p, IsParty g p →
      Writes (.vsaddpS16 e d a b) s g false d u2 (fun t => m 16 (addp p (x t) (y t))) ∧
      Writes (.vsaddpS32 e d a b) s g false d u2 (fun t => m 32 (addp p (x t) (y t))) ∧
      (roleNp (g.crole.getD 0 0) = 2 →
        (f.toNat ≤ 16 → Writes (.vstruncS16 e d a f) s g false d u1 (fun t => m 16 (trunc 16 p (x t)))) ∧
        (f.toNat ≤ 32 → Writes (.vstruncS32 e d a f) s g false d u1 (fun t => m 32 (trunc 32 p (x t)))))) ∧
    (∀ p, IsParty g p → 2 < roleNp (g.crole.getD 0 0) → (∃ t, Active g t) →
      let detail := gateDetail (roleConv (g.crole.getD 0 0)) 0 p 0 8
      FailsNow (.vstruncS16 e d a f) s g .outOfTurn detail (activeMask g) 0 (cycles g false) ∧
      FailsNow (.vstruncS32 e d a f) s g .outOfTurn detail (activeMask g) 0 (cycles g false)) ∧
    ((¬∃ t, Active g t) →
      Gives (.vsredS16 e d a) s g g (cycles g false) ∧ Gives (.vsredS32 e d a) s g g (cycles g false) ∧
      Gives (.vsaddpS16 e d a b) s g g (cycles g false) ∧ Gives (.vsaddpS32 e d a b) s g g (cycles g false) ∧
      Gives (.vstruncS16 e d a f) s g g (cycles g false) ∧ Gives (.vstruncS32 e d a f) s g g (cycles g false)) ∧
    ((¬∃ p, IsParty g p) → (∃ t, Active g t) →
      let detail := gateDetail (roleConv (g.crole.getD 0 0)) 0 (roleNum (g.crole.getD 0 0)) 0 3
      FailsNow (.vsaddpS16 e d a b) s g .outOfTurn detail (activeMask g) 0 (cycles g false) ∧
      FailsNow (.vsaddpS32 e d a b) s g .outOfTurn detail (activeMask g) 0 (cycles g false) ∧
      FailsNow (.vstruncS16 e d a f) s g .outOfTurn detail (activeMask g) 0 (cycles g false) ∧
      FailsNow (.vstruncS32 e d a f) s g .outOfTurn detail (activeMask g) 0 (cycles g false))

/-- R207, R222 to R227: a share instruction that needs the gate captures the elements of its active threads, goes to the
gate and leaves its destination for the end of the run; with no active thread it issues nothing (R12). `xopen` captures
its two addresses and its length, once for the group, or fails with alignment: at its source when the length or the source
is misaligned, else at its destination. -/
def Sys2Proof.Claims.GateSharesAreCaptured : Prop :=
  ∀ (s : State) (g : Group) (e : Bool) (d a b : Fld) (ty dsp ssp : Bool),
    let el := fun (k : Nat) (f : Fld) t => if k = 32 then (g.v f).get t else BitVec.ofNat 32 (((g.v f).get t).toNat % 2 ^ k)
    let op := fun (o : GateOp) (k : Nat) (f h : Fld) =>
      DOp.gate o k ((actives g).map fun t => (t, el k f t, el k h t)) (g.wb + d.toNat)
    let goes := fun (i : Instr) (o : DOp) (cost : Nat) =>
      Hands i s g o cost fun s => s.gateArrive g.uid (g.runIdx + 32 * g.tag) o
    let share := fun (i : Instr) (o : DOp) =>
      ((∃ t, Active g t) → goes i o (cycles g false)) ∧ ((¬∃ t, Active g t) → Gives i s g g 1)
    let r := g.readS (s.cyc g)
    share (.vsmulS16 e d a b) (op .smul 16 a b) ∧ share (.vsmulS32 e d a b) (op .smul 32 a b) ∧
    share (.vsandB e d a b) (op .sandB 32 a b) ∧
    share (.vsltzS16 e d a) (op .sltz 16 a a) ∧ share (.vsltzS32 e d a) (op .sltz 32 a a) ∧
    share (.vsb2aS16 e d a) (op .sb2a 16 a a) ∧ share (.vsb2aS32 e d a) (op .sb2a 32 a a) ∧
    share (.vsopenS16 e d a) (op .sopen 16 a a) ∧ share (.vsopenS32 e d a) (op .sopen 32 a a) ∧
    ((r b).toNat % 64 = 0 → 64 ≤ (r b).toNat → (r b).toNat ≤ 1048576 → (r a).toNat % 64 = 0 → (r d).toNat % 64 = 0 →
      goes (.xopen e d a b ty dsp ssp)
        (.gate (.xopen (r d) (r a) (r b) dsp ssp) (if ty then 32 else 16) [] 0) 1) ∧
    ((r b).toNat % 64 ≠ 0 ∨ (r b).toNat < 64 ∨ 1048576 < (r b).toNat ∨ (r a).toNat % 64 ≠ 0 →
      FailsNow (.xopen e d a b ty dsp ssp) s g .alignment 0 0 (r a) 1) ∧
    ((r b).toNat % 64 = 0 → 64 ≤ (r b).toNat → (r b).toNat ≤ 1048576 → (r a).toNat % 64 = 0 → (r d).toNat % 64 ≠ 0 →
      FailsNow (.xopen e d a b ty dsp ssp) s g .alignment 2 0 (r d) 1)

namespace Sys2Proof.Claims

/-- The instruction `d` waits at the gate before one of `g` that names the role register `reg`: it is of the same group, or
of the role to which the register is bound (R198, R232). `cbind` and an unbound register name no role. -/
def StandsBefore (s : State) (g : Group) (reg : Nat) (d : Delayed) : Prop :=
  let v := g.gateRole.getD reg 0
  d.uid = g.uid ∨ v ≠ 0 ∧ d.role s = some (roleConv v, roleNum v)

/-- An instruction of `g` that names the role register `reg` finds it bound, as the gate has it, to a role of `c`, and
stands behind none that waits there (R198). -/
def AtGate (s : State) (g : Group) (reg : Nat) (c : Conv) (role : Nat) : Prop :=
  s.group? g.uid = some g ∧ (∀ d ∈ s.pkg.waits, ¬StandsBefore s g reg d) ∧ g.gateRole.getD reg 0 ≠ 0 ∧
    role = roleNum (g.gateRole.getD reg 0) ∧ s.conv? (roleConv (g.gateRole.getD reg 0)) = some c

/-- The conversation goes on, and the role is held by the group's world (R208). -/
def InTurn (s : State) (g : Group) (reg : Nat) (c : Conv) (role : Nat) : Prop :=
  AtGate s g reg c role ∧ c.aborted = false ∧ (c.role role).world = g.part * 128 + g.ctx

/-- Nothing waits at a conversation for triples: no exchange is open, and no accept waits. -/
def Quiet (c : Conv) : Prop := c.exchanges = [] ∧ ∀ p ∈ c.parties, p.accepts = []

/-- The captured operation `op` stands among those that the group's run has issued, under `idx`, and no other does. -/
def Pending (g : Group) (idx : Nat) (op : DOp) : Prop :=
  g.yielded = none ∧ ∃ ps p, g.pends = ps ++ [p] ∧ p.idx = idx ∧ p.op = op ∧ ∀ x ∈ ps, x.idx ≠ idx

/-- The instruction joins those that wait at the gate, as the last. -/
def gateWaits (s : State) (g : Group) (idx : Nat) (op : DOp) : State :=
  { s with pkg := { s.pkg with waits := s.pkg.waits ++ [⟨g.uid, idx, op, s.tick⟩] } }

/-- The part that an instruction has in a joint exchange, with the triples that it has popped. -/
def partOf (g : Group) (role idx : Nat) (gop : GateOp) (k dst : Nat) (items : List (Nat × W32 × W32)) (bytes : List Byte)
    (popped : Option (List Triple)) : Sys2Proof.Machine.Part :=
  ⟨role, g.uid, idx, gop, k, items, dst, popped, bytes, 0, false, false, g.core⟩

end Sys2Proof.Claims

/-- R207, R222, R228, R229: a gate share instruction at the gate when no exchange is open. A permitted kind opens an exchange,
which is a step: the conversation takes the entry's next state, and the record holds the attributes of its first part. The
part pops its triples when its queue holds enough of them, and waits otherwise. A kind that is not permitted fails with
reason 1, and `vsltz` and `vsb2a` with more than two parties with reason 8. -/
def Sys2Proof.Claims.GateShareOpens : Prop :=
  ∀ (s : State) (g : Group) (c : Conv) (role idx k dst : Nat) (gop : GateOp) (items : List (Nat × W32 × W32))
    (bytes : List Byte), InTurn s g 0 c role → Quiet c → role < c.parties.length → s.tileRead g idx gop = .bytes bytes →
    let arrives := s.gateArrive g.uid idx (.gate gop k items dst)
    let fails := fun why => s.gateFail g.uid idx .outOfTurn (gateDetail c.num c.state role gop.kind why) (gateMask gop items) 0
    let two := (gop = .sltz ∨ gop = .sb2a) → c.parties.length = 2
    let (q, n) := gop.need k items.length
    let queue := (c.party role).queue q
    (¬two → arrives = fails 8) ∧
    (two → s.permitted c role gop.kind = none → arrives = fails 1) ∧
    (∀ e ch, two → s.permitted c role gop.kind = some e → s.choreo? c.choreo = some ch → g.halt = .no → g.stat = .running →
      let record := fun first popped => (⟨c.nextEx, gop.kind, first, gateCount gop items, gateTy gop k,
        (List.range c.parties.length).map (fun p => (ch.entry c.state p gop.kind).toNat / 256 % 16),
        [partOf g role idx gop k dst items bytes popped], s.tick⟩ : Exchange)
      let opened := { c with state := e.toNat % 64, nextEx := c.nextEx + 1 }
      (n ≤ queue.length → arrives = s.setConv { opened with
        parties := c.parties.set role ((c.party role).setQueue q (queue.drop n))
        exchanges := [record (if n = 0 then none else (queue.head?).map (·.idx)) (some (queue.take n))] }) ∧
      (queue.length < n → arrives = s.setConv { opened with exchanges := [record none none] }))

/-- R207, R222, R228: a gate share instruction at the gate when one exchange is open that its party has not joined, whose
parts have their triples. It fails with reason 7 when its kind is another one. It joins when its attributes are those of the
record; otherwise both instructions fail with triple mismatch, whose reason is the first attribute that differs, and the
exchange is over. That the thread count of a `vsopen` and the length of an `xopen` that meet in an exchange are compared as plain
numbers is the model's choice (assumption log 16). -/
def Sys2Proof.Claims.GateShareJoins : Prop :=
  ∀ (s : State) (g : Group) (c : Conv) (x : Exchange) (role idx k dst : Nat) (gop : GateOp) (items : List (Nat × W32 × W32))
    (bytes : List Byte), InTurn s g 0 c role → c.exchanges = [x] → (∀ p ∈ c.parties, p.accepts = []) →
    x.parts.all (fun p => p.party != role && p.popped.isSome) = true →
    role < c.parties.length → s.tileRead g idx gop = .bytes bytes → ((gop = .sltz ∨ gop = .sb2a) → c.parties.length = 2) →
    let arrives := s.gateArrive g.uid idx (.gate gop k items dst)
    let (q, n) := gop.need k items.length
    let queue := (c.party role).queue q
    let first := if n = 0 then 0 else ((queue.head?).map (·.idx)).getD 0
    let differs1 := n ≠ 0 ∧ ∃ i, x.first = some i ∧ i ≠ first
    let differs2 := x.count ≠ gateCount gop items
    let differs3 := x.ty ≠ gateTy gop k
    (x.kind ≠ gop.kind → arrives = s.gateFail g.uid idx .outOfTurn (gateDetail c.num c.state role gop.kind 7)
      (gateMask gop items) 0) ∧
    (x.kind = gop.kind → n ≤ queue.length → g.halt = .no →
      let part := partOf g role idx gop k dst items bytes (some (queue.take n))
      let spent := { c with parties := c.parties.set role ((c.party role).setQueue q (queue.drop n)) }
      (¬differs1 → ¬differs2 → ¬differs3 → arrives = s.setConv { spent with exchanges := [{ x with
        parts := x.parts ++ [part], first := if n ≠ 0 ∧ x.first = none then some first else x.first }] }) ∧
      (∀ o why, x.parts = [o] → o.withdrawn = false → o.finished = false →
        (differs1 ∧ why = 1 ∨ ¬differs1 ∧ differs2 ∧ why = 2 ∨ ¬differs1 ∧ ¬differs2 ∧ differs3 ∧ why = 3) →
        arrives = ((s.setConv { spent with exchanges := [] }).gateFail o.uid o.idx .tripleMismatch
            (gateDetail c.num c.state o.party x.kind why) (gateMask o.op o.items) o.firstIdx).gateFail g.uid idx
          .tripleMismatch (gateDetail c.num c.state role x.kind why) (gateMask gop items) first))

/-- R207, R222 to R228: a gate share instruction is captured and handed to the gate, where it opens a joint exchange, joins
one, or fails. That counts of threads and of bytes are compared as plain numbers is the model's choice (log 16). -/
def Obligations.GateShareInstructionsIssue : Prop :=
  GateSharesAreCaptured ∧ GateShareOpens ∧ GateShareJoins

/-- R223, R224: multiplication of shares is right. When the triples that two parties spend are the two halves of a valid
triple, the two results that the gate's words D and E give are shares of the product, modulo 2^k; for `vsand.b` their XOR
is the AND. -/
def Sys2Proof.Claims.SharedProductIsTheProduct : Prop :=
  ∀ (x0 x1 y0 y1 : W32) (t0 t1 : Triple),
    (∀ k, k = 16 ∨ k = 32 →
      (t0.a.toNat + t1.a.toNat) * (t0.b.toNat + t1.b.toNat) % 2 ^ k = (t0.c.toNat + t1.c.toNat) % 2 ^ k →
      let w0 := maskedWords .smul k 0 x0 y0 t0
      let w1 := maskedWords .smul k 1 x1 y1 t1
      let dd := combine .smul k [w0.1, w1.1]
      let ee := combine .smul k [w0.2, w1.2]
      (shareResult .smul k 0 x0 t0 dd ee + shareResult .smul k 1 x1 t1 dd ee) % 2 ^ k =
        (x0.toNat + x1.toNat) * (y0.toNat + y1.toNat) % 2 ^ k) ∧
    ((t0.a ^^^ t1.a) &&& (t0.b ^^^ t1.b) = t0.c ^^^ t1.c →
      let w0 := maskedWords .sandB 32 0 x0 y0 t0
      let w1 := maskedWords .sandB 32 1 x1 y1 t1
      let dd := combine .sandB 32 [w0.1, w1.1]
      let ee := combine .sandB 32 [w0.2, w1.2]
      shareResult .sandB 32 0 x0 t0 dd ee ^^^ shareResult .sandB 32 1 x1 t1 dd ee =
        ((x0 ^^^ x1) &&& (y0 ^^^ y1)).toNat)

/-- R226: the two results of `vsb2a` are shares, modulo 2^k, of the bit of which the two inputs hold the XOR. -/
def Sys2Proof.Claims.SharedBitIsConverted : Prop :=
  ∀ (k : Nat) (x0 x1 : W32) (t0 t1 : Triple), k = 16 ∨ k = 32 →
    (t0.a.toNat + t1.a.toNat) * (t0.b.toNat + t1.b.toNat) % 2 ^ k = (t0.c.toNat + t1.c.toNat) % 2 ^ k →
    let w0 := maskedWords .sb2a k 0 x0 x0 t0
    let w1 := maskedWords .sb2a k 1 x1 x1 t1
    let dd := combine .sb2a k [w0.1, w1.1]
    let ee := combine .sb2a k [w0.2, w1.2]
    (shareResult .sb2a k 0 x0 t0 dd ee + shareResult .sb2a k 1 x1 t1 dd ee) % 2 ^ k =
      (x0.toNat % 2 + x1.toNat % 2) % 2

/-- R223, R224, R226: what the parties of an exchange compute are shares of the product, the AND, and the bit. -/
def Obligations.SharedResultsAreShares : Prop :=
  SharedProductIsTheProduct ∧ SharedBitIsConverted

/-- R198, R209 to R215, R218 to R220: a conversation instruction captures its operands, once for the group, and goes to the
gate under its run index; `tlevel` reads the levels of its party's two queues at once, and 0 of an unbound register, of a
role that is no party, and of a conversation that is aborted or gone. That it reads them whatever world holds the role is the
model's choice (assumption log 16). -/
def Sys2Proof.Claims.ConversationInstructionsAreCaptured : Prop :=
  ∀ (s : State) (g : Group) (e : Bool) (d a b k : Fld) (q dst : BitVec 2),
    let r := g.readS (s.cyc g)
    let reg := fun f : Fld => f.toNat - 80
    let goes := fun (i : Instr) (o : DOp) => Hands i s g o 1 fun s => s.gateArrive g.uid (g.runIdx + 32 * g.tag) o
    let v := g.crole.getD (reg a) 0
    let len := (r b).toNat
    let adr := (r a).toNat
    goes (.cbind e d a) (.cbind (reg d) (r a)) ∧
    goes (.csend e d k b) (.csend (reg d) k.toNat (r b) false) ∧
    goes (.crecv e d a k) (.crecv (reg a) k.toNat d) ∧
    goes (.cchoose e d k b) (.csend (reg d) k.toNat (r b) true) ∧
    goes (.cdeleg e d a) (.cdeleg (reg d) (r a)) ∧
    goes (.cstate e d a) (.cstate (reg a) d) ∧
    goes (.cabort e d) (.cabort (reg d)) ∧
    goes (.tburn e d a q) (.tburn (reg d) q.toNat (r a)) ∧
    ((q = 2 ∧ len % 64 = 0 ∧ 64 ≤ len ∧ len ≤ 1048576 ∧ adr % 64 = 0) ∨ (q ≠ 2 ∧ 1 ≤ len ∧ len ≤ 4096 ∧ adr % 16 = 0) →
      goes (.tfillSend e d a b q dst) (.tsend (reg d) q.toNat (r a) (r b) dst.toNat)) ∧
    (¬((q = 2 ∧ len % 64 = 0 ∧ 64 ≤ len ∧ len ≤ 1048576 ∧ adr % 64 = 0) ∨
        (q ≠ 2 ∧ 1 ≤ len ∧ len ≤ 4096 ∧ adr % 16 = 0)) →
      FailsNow (.tfillSend e d a b q dst) s g .alignment 0 0 (r a) 1) ∧
    ((q = 2 → adr % 64 = 0) → goes (.tfillAccept e d a b q) (.taccept (reg d) q.toNat (r a) (r b))) ∧
    (q = 2 ∧ adr % 64 ≠ 0 → FailsNow (.tfillAccept e d a b q) s g .alignment 2 0 (r a) 1) ∧
    (v = 0 → Gives (.tlevel e d a) s g (g.writeS d 0) 1) ∧
    (s.conv? (roleConv v) = none → Gives (.tlevel e d a) s g (g.writeS d 0) 1) ∧
    (∀ c, s.conv? (roleConv v) = some c → c.aborted = true ∨ c.parties.length ≤ roleNum v →
      Gives (.tlevel e d a) s g (g.writeS d 0) 1) ∧
    (∀ c, v ≠ 0 → s.conv? (roleConv v) = some c → c.aborted = false → roleNum v < c.parties.length →
      Gives (.tlevel e d a) s g (g.writeS d (BitVec.ofNat 64
        ((c.party (roleNum v)).arith.length + 2 ^ 32 * (c.party (roleNum v)).bools.length))) 1)

/-- R198, R232: the gate takes the instructions of one group in their order, and those of one role in the order in which
they arrive: an instruction waits there while another of its group or of its role does. -/
def Sys2Proof.Claims.GateKeepsTheOrder : Prop :=
  ∀ (s : State) (g : Group) (reg idx : Nat) (op : DOp), op.roleReg = some reg → s.group? g.uid = some g →
    (∃ d ∈ s.pkg.waits, d.uid = g.uid ∨ (∀ h, op ≠ .cbind reg h) ∧ StandsBefore s g reg d) →
    s.gateArrive g.uid idx op = gateWaits s g idx op

/-- R198, R199, R208, R231: the role register of a conversation instruction other than `cbind` and `cstate`, and of a gate
share instruction, as the gate checks it: unbound, it fails with reason 3; of a conversation that is gone or aborted, with
cause 0x0D; then with reason 3 where a party is needed and none stands; then with reason 6 where the caller's world no
longer holds the role. The detail's kind is the step's or the exchange's; that a receive gives the kind it names, and every
other instruction 0, is the model's choice, and so is that `cabort` of an aborted conversation fails with cause 0x0D too
(assumption log 16). -/
def Sys2Proof.Claims.RoleRegistersAreChecked : Prop :=
  ∀ (s : State) (g : Group) (reg idx : Nat) (op : DOp), op.roleReg = some reg → (∀ h, op ≠ .cbind reg h) →
    (∀ d, op ≠ .cstate reg d) → s.group? g.uid = some g → (∀ d ∈ s.pkg.waits, ¬StandsBefore s g reg d) →
    let v := g.gateRole.getD reg 0
    let fails := fun (cause : Cause) (cn st role why : Nat) =>
      s.gateArrive g.uid idx op = s.gateFail g.uid idx cause (gateDetail cn st role (stepKind op) why) op.gateThreads 0
    (v = 0 → fails .outOfTurn 0 0 0 3) ∧
    (v ≠ 0 → s.conv? (roleConv v) = none → fails .convAborted (roleConv v) 0 (roleNum v) 0) ∧
    ∀ c, v ≠ 0 → s.conv? (roleConv v) = some c →
      let needs := (∃ q a n, op = .taccept reg q a n) ∨ (∃ q n, op = .tburn reg q n) ∨ (∃ o k is d, op = .gate o k is d)
      let noParty := needs ∧ c.parties.length ≤ roleNum v ∨ ∃ q a n dst, op = .tsend reg q a n dst ∧ c.parties.length ≤ dst
      (c.aborted = true → fails .convAborted c.num c.state (roleNum v) 0) ∧
      (c.aborted = false → noParty → fails .outOfTurn c.num c.state (roleNum v) 3) ∧
      (c.aborted = false → ¬noParty → (c.role (roleNum v)).world ≠ g.part * 128 + g.ctx →
        fails .outOfTurn c.num c.state (roleNum v) 6)

/-- R206, R208, R210, R212: `csend` (`choose` false) and `cchoose` (true) at the gate. A kind of 12 or more fails with reason
2, one that is a choice kind exactly when it must not be with reason 4, and one that the current state does not permit with
reason 1. While a recipient's delivery queue is full the step waits. It is accepted otherwise: the message joins the
recipients' queues, the conversation takes the entry's next state, and the recipients' receives are served. -/
def Sys2Proof.Claims.SendsAtTheGate : Prop :=
  ∀ (s : State) (g : Group) (c : Conv) (reg role kind idx : Nat) (payload : W64) (choose : Bool),
    let op := DOp.csend reg kind payload choose
    let arrives := s.gateArrive g.uid idx op
    let fails := fun why => s.gateFail g.uid idx .outOfTurn (gateDetail c.num c.state role kind why) 0 0
    InTurn s g reg c role →
      (12 ≤ kind → arrives = fails 2) ∧
      (kind < 12 → s.choiceKind c kind ≠ choose → arrives = fails 4) ∧
      (kind < 12 → s.choiceKind c kind = choose → s.permitted c role kind = none → arrives = fails 1) ∧
      ∀ e, kind < 12 → s.choiceKind c kind = choose → s.permitted c role kind = some e →
        let gets := fun r => r < 4 ∧ e.toNat.testBit (8 + r) = true ∧ (c.role r).used = true
        let m : Msg := ⟨kind, if choose then BitVec.ofNat 64 (payload.toNat % 2 ^ 60) else payload⟩
        ((∃ r, gets r ∧ 16 ≤ (c.role r).queue.length) → arrives = gateWaits s g idx op) ∧
        ((∀ r, gets r → (c.role r).queue.length < 16) →
          ∃ x : Conv, x = { c with roles := x.roles, state := e.toNat % 64 } ∧ x.roles.length = c.roles.length ∧
            (∀ (r : Nat) (o : Role), c.roles[r]? = some o → x.roles[r]? = some (if gets r then { o with queue := o.queue ++ [m] }
              else o)) ∧
            arrives = ((s.setConv x).serveRoles c.num ((List.range 4).filter fun r => e.toNat.testBit (8 + r))).ret g.uid idx
              Result.empty)

/-- R208, R211: `crecv` at the gate, of a role for which no receive waits. A kind of 12 or more fails with reason 2. The
oldest message that the receive takes leaves the queue and is committed, its own payload, or under a choice kind its kind in
bits 63:60 over the payload's low 60 bits; while there is none, the receive waits. -/
def Sys2Proof.Claims.ReceivesAtTheGate : Prop :=
  ∀ (s : State) (g : Group) (c : Conv) (reg role kind idx : Nat) (d : Fld), InTurn s g reg c role → (c.role role).recvs = [] → Pending g idx (.crecv reg kind d) →
    let arrives := s.gateArrive g.uid idx (.crecv reg kind d)
    let takes := fun m : Msg => m.kind = kind ∨ s.choiceKind c kind = true ∧ s.choiceKind c m.kind = true
    let with_ := fun (q : List Msg) (ws : List (Nat × Nat × Nat)) =>
      s.setConv { c with roles := c.roles.set role { c.role role with queue := q, recvs := ws } }
    (12 ≤ kind → arrives = s.gateFail g.uid idx .outOfTurn (gateDetail c.num c.state role kind 2) 0 0) ∧
    (kind < 12 → (∀ m ∈ (c.role role).queue, ¬takes m) → arrives = with_ (c.role role).queue [(g.uid, idx, kind)]) ∧
    (∀ before m rest, kind < 12 → (c.role role).queue = before ++ m :: rest → (∀ x ∈ before, ¬takes x) → takes m →
      arrives = (with_ (before ++ rest) []).ret g.uid idx (Result.scalar d
        (if s.choiceKind c kind = true then BitVec.ofNat 64 (m.kind * 2 ^ 60 + m.payload.toNat % 2 ^ 60) else m.payload)))

/-- R213: `cdeleg` at the gate. A device or a world that is not permitted, or a state that does not allow delegation, fails
with reason 5, and a role that is a party of an unfinished exchange with reason 9. It hands the role on otherwise: to a
world, with a ticket, and unbinds the register; what waits for the role on behalf of the world that loses it fails with
reason 6. -/
def Sys2Proof.Claims.DelegationAtTheGate : Prop :=
  ∀ (s : State) (g : Group) (c : Conv) (reg role idx : Nat) (v : W64), InTurn s g reg c role →
    let arrives := s.gateArrive g.uid idx (.cdeleg reg v)
    let fails := fun why => s.gateFail g.uid idx .outOfTurn (gateDetail c.num c.state role 0 why) 0 0
    let target := v.toNat % 2 ^ 12
    let names := v.toNat / 2 ^ 12 % 2 ^ 20 = 0 ∧ (Config.ownDevice, target) ∈ c.permits
    let busy := ∃ x ∈ c.exchanges, ∃ p, x.part? role = some p ∧ p.finished = false
    let allowed := ∃ ch, s.choreo? c.choreo = some ch ∧ ch.deleg.getD c.state false = true
    (¬names → arrives = fails 5) ∧ (names → busy → arrives = fails 9) ∧ (names → ¬busy → ¬allowed → arrives = fails 5) ∧
    (names → ¬busy → allowed →
      let ro := c.role role
      let given := fun ws => s.setConv { c with roles := c.roles.set role ({ ro with
        world := target, ticket := BitVec.ofNat 32 (v.toNat / 2 ^ 32), recvs := ws } : Role) }
      let done := fun t : State => (t.setGateRole g.uid reg 0).ret g.uid idx { Result.empty with roles := [(reg, 0)] }
      (target = ro.world → arrives = done (given ro.recvs)) ∧
      (target ≠ ro.world → (c.party role).accepts = [] →
        (ro.recvs = [] → arrives = done (given [])) ∧
        (∀ u i k, ro.recvs = [(u, i, k)] → arrives = done ((given []).gateFail u i .outOfTurn
          (gateDetail c.num c.state role k 6) 0 0))))

/-- R214, R231: `cstate` at the gate. It reads the state, the status, the number of messages in the role's delivery queue and
the index of the party's next arithmetic triple, of an aborted conversation too. -/
def Sys2Proof.Claims.StateReadAtTheGate : Prop :=
  ∀ (s : State) (g : Group) (c : Conv) (reg role idx : Nat) (d : Fld),
    let arrives := s.gateArrive g.uid idx (.cstate reg d)
    let v := g.gateRole.getD reg 0
    let fails := fun (cn st role why : Nat) => s.gateFail g.uid idx .outOfTurn (gateDetail cn st role 0 why) 0 0
    (s.group? g.uid = some g → (∀ d ∈ s.pkg.waits, ¬StandsBefore s g reg d) → v = 0 ∨ s.conv? (roleConv v) = none →
      arrives = fails 0 0 0 3) ∧
    (AtGate s g reg c role → (c.role role).world ≠ g.part * 128 + g.ctx → arrives = fails c.num c.state role 6) ∧
    (AtGate s g reg c role → (c.role role).world = g.part * 128 + g.ctx →
      let reads := fun next status : Nat => arrives = s.ret g.uid idx (Result.scalar d (BitVec.ofNat 64
        (next % 2 ^ 32 * 2 ^ 32 + (c.role role).queue.length * 2 ^ 20 + status * 2 ^ 8 + c.state)))
      (c.parties.length ≤ role → reads 0 (if c.aborted then 2 else 1)) ∧
      (role < c.parties.length → c.aborted = true → reads (c.party role).nextA 2) ∧
      (∀ t ts, role < c.parties.length → c.aborted = false → (c.party role).arith = t :: ts → reads t.idx 1) ∧
      (role < c.parties.length → c.aborted = false → (c.party role).arith = [] → (c.party role).inA = none →
        reads (c.party role).nextA 1))

/-- R215, R230: `cabort` at the gate aborts the conversation and returns. The abort empties what the conversation holds. Every
receive that waits at it fails with cause 0x0D, and so does an instruction that waits at the gate by itself for its turn in
it; a `cstate`, and what waits for a role of another conversation, goes on waiting. -/
def Sys2Proof.Claims.AbortAtTheGate : Prop :=
  (∀ (s : State) (g : Group) (c : Conv) (reg role idx : Nat), InTurn s g reg c role →
    s.gateArrive g.uid idx (.cabort reg) = (s.abortBy c.num 3 (g.part * 128 + g.ctx)).ret g.uid idx Result.empty) ∧
  (∀ (s : State) (c : Conv) (cause world : Nat), s.conv? c.num = some c → c.aborted = false →
    (s.abortBy c.num cause world).conv? c.num = some { c with
      aborted := true, exchanges := []
      roles := c.roles.map fun r => { r with queue := [], recvs := [] }
      parties := c.parties.map fun p => { p with
        arith := [], bools := [], inA := none, inB := none, inT := none, accepts := [] } }) ∧
  (∀ (s : State) (c : Conv) (gone : List Nat) (h : Group) (r idx k : Nat), s.conv? c.num = some c → c.aborted = false →
    r < 4 → (h.uid, idx, k) ∈ (c.role r).recvs → s.group? h.uid = some h → h.halt = .no →
    ∃ y ∈ (s.abortConv c.num gone).s.returns, y.uid = h.uid ∧ (waitsIn h.issued idx = true → y.gen = h.gen) ∧ y.idx = idx ∧
      y.res = (Result.failed ⟨idx % 32, .convAborted, 0, 0, gateDetail c.num c.state r k 0, Cause.convAborted.replayable⟩)) ∧
  (∀ (s : State) (c : Conv) (gone : List Nat), s.conv? c.num = some c → c.aborted = false →
    let after := (s.abortConv c.num gone).s
    (∀ d ∈ s.pkg.waits, (∃ reg f, d.op = .cstate reg f) ∨ (∀ r, d.role s ≠ some (c.num, r)) → d ∈ after.pkg.waits) ∧
    (∀ (d : Delayed) (h : Group) (r : Nat), d ∈ s.pkg.waits → (∀ e ∈ s.pkg.waits, e.uid = d.uid → e = d) →
      d.role s = some (c.num, r) → (∀ reg f, d.op ≠ .cstate reg f) → s.group? d.uid = some h → h.halt = .no →
      d ∉ after.pkg.waits ∧
      ∃ y ∈ after.returns, y.uid = d.uid ∧ y.idx = d.idx ∧ y.res = (Result.failed ⟨d.idx % 32, .convAborted, 0,
        d.op.gateThreads, gateDetail c.num c.state r (stepKind d.op) 0, Cause.convAborted.replayable⟩)))

/-- R217, R218, R220: `tburn` and `tfill` at the gate while nothing else waits there for triples. A burn takes triples from the
head of a queue. A deal that is not permitted fails with reason 1; it waits while the recipient's inbox is full; it takes its
entries, with consecutive indices, from memory, and fails with reason 4 when an index would pass 2^32. An accept waits for a
batch and for room; one whose length is not the batch's fails with reason 5 and the batch is dropped. -/
def Sys2Proof.Claims.TriplesAtTheGate : Prop :=
  (∀ (s : State) (g : Group) (c : Conv) (reg role idx q : Nat) (n : W64), InTurn s g reg c role →
    role < c.parties.length → Quiet c →
    let pa := c.party role
    let left := if q = 0 then { pa with arith := pa.arith.drop n.toNat } else { pa with bools := pa.bools.drop n.toNat }
    s.gateArrive g.uid idx (.tburn reg q n) =
      (s.setConv { c with parties := c.parties.set role left }).ret g.uid idx Result.empty) ∧
  (∀ (s : State) (g : Group) (c : Conv) (reg role idx q dst : Nat) (addr len : W64), InTurn s g reg c role →
    dst < c.parties.length → q < 2 →
    let op := DOp.tsend reg q addr len dst
    let arrives := s.gateArrive g.uid idx op
    let fails := fun (cause : Cause) (why : Nat) => s.gateFail g.uid idx cause (gateDetail c.num c.state role 15 why) 0 0
    let pa := c.party dst
    (s.permitted c role 15 = none → arrives = fails .outOfTurn 1) ∧
    ∀ e, s.permitted c role 15 = some e →
      ((pa.inbox q).isSome = true → arrives = gateWaits s g idx op) ∧
      (∀ cause x a, pa.inbox q = none → s.range g.part g.ctx g.team false .read addr.toNat (16 * len.toNat) = .fail cause x a →
        arrives = s.ret g.uid idx (Result.failed ⟨idx, cause, a, 0, BitVec.ofNat 32 x, cause.replayable⟩)) ∧
      (∀ pls, pa.inbox q = none → s.range g.part g.ctx g.team false .read addr.toNat (16 * len.toNat) = .ok pls →
        s.badIn pls = none →
        (2 ^ 32 < pa.next q + len.toNat → arrives = fails .tripleMismatch 4) ∧
        (pa.next q + len.toNat ≤ 2 ^ 32 → Quiet c → ∃ b : Batch, b.len = len.toNat ∧ b.bytes = [] ∧
          b.triples.length = len.toNat ∧
          (∀ i, i < len.toNat →
            let w := fun k => BitVec.ofNat 32 (leNat (((s.readRange pls).drop (16 * i + 4 * k)).take 4))
            b.triples[i]? = some ⟨pa.next q + i, w 0, w 1, w 2⟩) ∧
          let dealt := if q = 0 then { pa with inA := some b, nextA := pa.nextA + len.toNat }
            else { pa with inB := some b, nextB := pa.nextB + len.toNat }
          arrives = (s.setConv { c with state := e.toNat % 64, parties := c.parties.set dst dealt }).ret g.uid idx
            Result.empty))) ∧
  (∀ (s : State) (g : Group) (c : Conv) (reg role idx q : Nat) (addr len : W64), InTurn s g reg c role →
    role < c.parties.length → Quiet c → q < 2 →
    Pending g idx (.taccept reg q addr len) →
    let arrives := s.gateArrive g.uid idx (.taccept reg q addr len)
    let pa := c.party role
    let becomes := fun p : Party => s.setConv { c with parties := c.parties.set role p }
    let taken := if q = 0 then { pa with inA := none } else { pa with inB := none }
    let waits := becomes { pa with accepts := [(g.uid, idx, q)] }
    (pa.inbox q = none → arrives = waits) ∧
    (∀ b, pa.inbox q = some b →
      (len.toNat ≠ b.len → arrives = (becomes taken).gateFail g.uid idx .tripleMismatch (gateDetail c.num c.state role 0 5) 0 0) ∧
      (len.toNat = b.len → (if q = 0 then pa.capA else pa.capB) < (pa.queue q).length + b.triples.length → arrives = waits) ∧
      (len.toNat = b.len → (pa.queue q).length + b.triples.length ≤ (if q = 0 then pa.capA else pa.capB) →
        arrives = (becomes (if q = 0 then { taken with arith := pa.arith ++ b.triples }
          else { taken with bools := pa.bools ++ b.triples })).ret g.uid idx Result.empty)))

/-- R218, R305: `tfill` of a tile queue at the gate. A send that is not permitted fails with reason 1; it waits while the
recipient's inbox holds a tile, or its bytes would pass the tile pool; one that meets a failing check fails with its cause, and
nothing is dealt; else its bytes, read from memory, stand in the inbox as a batch of that length, the pool holds them, and the
conversation takes the entry's next state. An accept waits for a batch; one whose length is not the batch's fails with reason 5
and the batch is dropped; else the batch's bytes are written to memory. -/
def Sys2Proof.Claims.TilesAtTheGate : Prop :=
  (∀ (s : State) (g : Group) (c : Conv) (reg role idx dst : Nat) (addr len : W64), InTurn s g reg c role →
    dst < c.parties.length → (∀ d ∈ s.pkg.waits, ∀ r a n p, d.op ≠ .tsend r 2 a n p) →
    let op := DOp.tsend reg 2 addr len dst
    let arrives := s.gateArrive g.uid idx op
    let pa := c.party dst
    (s.permitted c role 15 = none →
      arrives = s.gateFail g.uid idx .outOfTurn (gateDetail c.num c.state role 15 1) 0 0) ∧
    ∀ e, s.permitted c role 15 = some e →
      (pa.inT ≠ none ∨ 2 ^ 32 < s.pkg.tilePool + len.toNat → arrives = gateWaits s g idx op) ∧
      (pa.inT = none → s.pkg.tilePool + len.toNat ≤ 2 ^ 32 →
        (∀ cause x a, s.range g.part g.ctx g.team false .read addr.toNat len.toNat = .fail cause x a →
          arrives = s.ret g.uid idx (Result.failed ⟨idx, cause, a, 0, BitVec.ofNat 32 x, cause.replayable⟩)) ∧
        (∀ pls, s.range g.part g.ctx g.team false .read addr.toNat len.toNat = .ok pls → s.badIn pls = none → Quiet c →
          let t := s.setConv { c with
            state := e.toNat % 64, parties := c.parties.set dst { pa with inT := some ⟨[], s.readRange pls, len.toNat⟩ } }
          arrives = State.ret { t with pkg := { t.pkg with tilePool := s.pkg.tilePool + len.toNat } } g.uid idx
            Result.empty))) ∧
  (∀ (s : State) (g : Group) (c : Conv) (reg role idx : Nat) (addr len : W64), InTurn s g reg c role →
    role < c.parties.length → Quiet c → Pending g idx (.taccept reg 2 addr len) →
    let arrives := s.gateArrive g.uid idx (.taccept reg 2 addr len)
    let pa := c.party role
    let taken := fun n : Nat =>
      let t := s.setConv { c with parties := c.parties.set role { pa with inT := none } }
      ({ t with pkg := { t.pkg with tilePool := s.pkg.tilePool - n } } : State)
    (pa.inT = none →
      arrives = s.setConv { c with parties := c.parties.set role { pa with accepts := [(g.uid, idx, 2)] } }) ∧
    (∀ b, pa.inT = some b →
      (len.toNat ≠ b.len → arrives =
        (taken b.len).gateFail g.uid idx .tripleMismatch (gateDetail c.num c.state role 0 5) 0 0) ∧
      (∀ pls, len.toNat = b.len → s.range g.part g.ctx g.team false .write addr.toNat b.len = .ok pls →
        arrives = ((taken b.len).writeRange pls b.bytes).ret g.uid idx Result.empty)))

/-- R198, R199, R206 to R220, R230, R231: a conversation instruction is captured and handed to the gate, which checks its role
register and gives it its effect. That `tlevel` reads the levels whatever world holds the role, that `cabort` of a conversation
that is aborted already fails with cause 0x0D, and the kind in some details, are the model's choice (log 16). -/
def Obligations.ConversationInstructionsIssue : Prop :=
  ConversationInstructionsAreCaptured ∧ GateKeepsTheOrder ∧ RoleRegistersAreChecked ∧ SendsAtTheGate ∧ ReceivesAtTheGate ∧
    DelegationAtTheGate ∧ StateReadAtTheGate ∧ AbortAtTheGate ∧ TriplesAtTheGate ∧ TilesAtTheGate

/-- R208, R209: a `cbind` whose handle names a live conversation, a role that the caller's world holds, and its ticket,
binds the register, unless an instruction of the group still waits at the gate: its value, with the party count, the
choreography, the conversation and the role, comes back. Each handle that does not fails, with the cause and the reason of its first failing
check: 1 for a conversation that is missing or destroyed, cause 0x0D for an aborted one, 2 for a role of another world, 3
for the ticket, 4 for reserved bits. -/
def Obligations.BindingARole : Prop :=
  ∀ (s : State) (g : Group) (idx reg : Nat) (h : W64), s.group? g.uid = some g → (∀ d ∈ s.pkg.waits, d.uid ≠ g.uid) →
    let role := h.toNat % 4
    let answer := fun r : Result => State.ret s g.uid idx r
    let refuse := fun n : Nat => answer (Result.failed ⟨idx, .protection, 0, 0, BitVec.ofNat 32 (n * 2 ^ 16), true⟩)
    (s.conv? (h.toNat / 2 ^ 20 % 2 ^ 12) = none → s.gateArrive g.uid idx (.cbind reg h) = refuse 1) ∧
    ∀ c : Conv, s.conv? (h.toNat / 2 ^ 20 % 2 ^ 12) = some c →
    let ro := c.role role
    let mine := ro.used = true ∧ ro.world = 128 * g.part + g.ctx
    (c.destroyed = false → c.aborted = true → s.gateArrive g.uid idx (.cbind reg h) =
      answer (Result.failed ⟨idx, .convAborted, 0, 0, gateDetail c.num c.state role 0 0, Cause.convAborted.replayable⟩)) ∧
    (c.destroyed = true → s.gateArrive g.uid idx (.cbind reg h) = refuse 1) ∧
    (c.destroyed = false → c.aborted = false → ¬mine → s.gateArrive g.uid idx (.cbind reg h) = refuse 2) ∧
    (c.destroyed = false → c.aborted = false → mine → ro.ticket.toNat ≠ h.toNat / 2 ^ 32 →
      s.gateArrive g.uid idx (.cbind reg h) = refuse 3) ∧
    (c.destroyed = false → c.aborted = false → mine → ro.ticket.toNat = h.toNat / 2 ^ 32 → h.toNat / 4 % 2 ^ 18 ≠ 0 →
      s.gateArrive g.uid idx (.cbind reg h) = refuse 4) ∧
    (c.destroyed = false → c.aborted = false → mine → ro.ticket.toNat = h.toNat / 2 ^ 32 → h.toNat / 4 % 2 ^ 18 = 0 →
      c.parties.length - 1 < 4 → c.choreo < 2 ^ 8 → c.num < 2 ^ 12 →
      ∃ v : W64, v.toNat = 2 ^ 63 + (c.parties.length - 1) * 2 ^ 40 + c.choreo * 2 ^ 32 + c.num * 2 ^ 20 + role ∧
        s.gateArrive g.uid idx (.cbind reg h) =
          (s.setGroup { g with gateRole := g.gateRole.set reg v, bound := g.bound.set reg (some c.num) }).ret g.uid idx
            { Result.empty with roles := [(reg, v)] })

/-! ## Memory -/

namespace Sys2Proof.Claims

/-- A signed offset in units of `n` bytes (R68), in 64 bits. -/
def off64 {k : Nat} (f : BitVec k) (n : Nat) : W64 := BitVec.ofInt 64 (f.toInt * n)

/-- The global address of a thread (R68): the pair that `a` names, plus an offset. -/
def gaddr (g : Group) (a : Fld) (off : W64) (t : Nat) : W64 := g.pair a t + off

/-- The slice or distributed address of a thread (R68): the element that `a` names, plus an offset, modulo 2^32. -/
def saddr (g : Group) (a : Fld) (off : W64) (t : Nat) : W64 := ((g.v a).get t + off.setWidth 32).setWidth 64

/-- The data that a thread stores from 1, 2 or 4 registers, the lowest least significant (R66, R151). -/
def stored (g : Group) (d : Fld) (n t : Nat) : BitVec 128 :=
  let r := fun k : Nat => (g.vreg (g.wb + d.toNat + k)).get t
  if n = 1 then (r 0).setWidth 128 else if n = 2 then (r 1 ++ r 0).setWidth 128 else r 3 ++ r 2 ++ r 1 ++ r 0

/-- The captured load of `size` bytes per accessing thread into `n` registers from `d` on (R151, R154): under the once mark
the lowest active thread loads, and every active thread receives the value (R150). -/
def loadOp (g : Group) (u : Bool) (sp : Space) (size n : Nat) (ext : Ext) (d : Fld) (addr : Nat → W64) : DOp :=
  .load sp size ((computing g u).map fun t => (t, addr t)) (g.wb + d.toNat) n ext (if u then some (activeMask g) else none)

/-- The captured store of `size` bytes per accessing thread from `n` registers. -/
def storeOp (g : Group) (u : Bool) (sp : Space) (size n : Nat) (d : Fld) (addr : Nat → W64) : DOp :=
  .store sp size ((computing g u).map fun t => (t, addr t, stored g d n t))

/-- The captured atomic (R156): its operand is `b`, and its comparand the prior destination. -/
def atomicOp (g : Group) (u : Bool) (sp : Space) (d b : Fld) (addr : Nat → W64) (sc : BitVec 3) (ord : BitVec 2)
    (ret w : Bool) (op : BitVec 4) : DOp :=
  let x := fun (f : Fld) t => if w then g.pair f t else ((g.v f).get t).setWidth 64
  .atomic sp w (AOp.ofCode op.toNat) (AOrd.ofCode ord.toNat) sc.toNat ret
    ((computing g u).map fun t => (t, addr t, x b t, x d t)) (g.wb + d.toNat) (if u then some (activeMask g) else none)

/-- Bytes of an atomic (R156). -/
def width (w : Bool) : Nat := if w then 8 else 4

/-- Bytes of a narrow access (R154). -/
def narrow (half : Bool) : Nat := if half then 2 else 1

/-- How a narrow load extends its value (R154). -/
def extend (sign : Bool) : Ext := if sign then .sign else .zero

/-- A global access: performed at its issue through `State.access`, its result on the way (performed at its issue by the
model's choice, assumption log 3); nothing with no active thread (R12). -/
def Global (i : Instr) (s : State) (g : Group) (u strided returns : Bool) (op : DOp) : Prop :=
  ((∃ t, Active g t) → Hands i s g op (cycles g u) fun w => w.access g.uid (g.runIdx + 32 * g.tag) strided returns op) ∧
  ((¬∃ t, Active g t) → Gives i s g g 1)

/-- The state and the group after an access of some places has met `n` bank conflicts, events of class 6 (R43, R129): its lane waits no
more, and its rows are those of its lane on its own core, and of the remote ports on others (R42). -/
def conflicted (s : State) (g : Group) (places : List (Nat × Nat)) (n : Nat) : State × Group :=
  let r := g.addEvents s 6 n
  let k := (r.1.core r.2.core).waitDone r.2.lane
  let rows := (places.map fun p => p.1 / 64).dedup
  let own := rows.filter fun x => x / 32768 == r.2.core
  let far := rows.filter fun x => x / 32768 != r.2.core
  (far.foldl State.remotePort (r.1.setCore { k with
    rest := own.map (fun x => (r.2.lane, x)) ++ k.rest.filter fun e => e.1 != r.2.lane }), r.2)

/-- An access is performed, unless it reads a slice line that holds an uncorrectable error, which it consumes (R297, R344): it
ends there. With no such line in the slices it is performed. -/
def Performed (i : Instr) (s : State) (g : Group) (strided : Bool) (op : DOp) : Prop :=
  let done := s.performAccess g (g.runIdx + 32 * g.tag) strided op
  (s.sliceErrs = [] → ∃ t r places, done = .ok t r places) ∧ (∀ t, done = .dead t → exec i s = .next t)

/-- A slice access (R14): performed when it issues, its result seen by the next instruction, its failure among those of the
run; it waits for its banks, which it adds to its cost and counts (R43, assumption log 5). -/
def Slice (i : Instr) (s : State) (g : Group) (u : Bool) (strided : Bool) (op : DOp) : Prop :=
  Issues i s g → Performed i s g strided op ∧
    ∀ t r places, s.performAccess g (g.runIdx + 32 * g.tag) strided op = .ok t r places →
      let h := g.apply r
      let n := t.bankWait g strided places
      let c := conflicted t { h with fails := addFailures r.norm.fail.toList h.fails } places n
      exec i s = .next (after c.1 c.2 (cycles g u + n) (c.2.pc + lengthOf i) (endsRun i c.2))

/-- A slice atomic or a distributed access (R14, R155): performed when it issues (the model's choice, assumption log 3), after
which its result is on the way, or its outcome is known; `count` tells the places at whose banks it waits (R43, assumption
log 5). -/
def Returning (i : Instr) (s : State) (g : Group) (u strided returns : Bool) (op : DOp) (count : Nat × Nat → Bool) : Prop :=
  (Issues i s g → (∃ t, Active g t) → Performed i s g strided op ∧
    ∀ t r places, s.performAccess g (g.runIdx + 32 * g.tag) strided op = .ok t r places →
      let n := t.bankWait g strided (places.filter count)
      let c := conflicted t g places n
      HandsIn i s c.1 c.2 op (cycles g u + n) fun w =>
        if returns then w.ret g.uid (g.runIdx + 32 * g.tag) r else w.finish g.uid (g.runIdx + 32 * g.tag) r) ∧
  ((¬∃ t, Active g t) → Gives i s g g 1)

end Sys2Proof.Claims

/-- R68, R149 to R154, R156: a global load, store or atomic captures its threads, addresses and data; a load, or an atomic
that returns, travels back. `sld` and `sst` run once for the group; with no thread active `sld`, which is long-latency, issues
nothing (R12), and that `sst` acts all the same is the model's choice (assumption log 37). That `exec` performs the access in
the step that issues it is the model's choice (assumption log 3): R46 to R49 leave open when it is performed. -/
def Obligations.GlobalAccessInstructionsIssue : Prop :=
  ∀ (s : State) (g : Group) (e u : Bool) (d a b : Fld) (f : BitVec 9) (o : BitVec 16) (f11 : BitVec 11) (sign half ret w : Bool)
    (sc : BitVec 3) (ord : BitVec 2) (op : BitVec 4),
    let st := (g.v a).isA && (g.v1 a).isU
    let r := g.readS (s.cyc g)
    let ld := fun (i : Instr) (size n : Nat) (x : Ext) (off : W64) =>
      Global i s g u st true (loadOp g u .global size n x d (gaddr g a off))
    let sto := fun (i : Instr) (size n : Nat) (off : W64) =>
      Global i s g u st false (storeOp g u .global size n d (gaddr g a off))
    ld (.ldg e u d a f) 4 1 .zero (off64 f 4) ∧ sto (.stg e u d a f) 4 1 (off64 f 4) ∧
    ld (.ldgW e u d a f) 8 2 .zero (off64 f 8) ∧ sto (.stgW e u d a f) 8 2 (off64 f 8) ∧
    ld (.ldgQ e u d a f) 16 4 .zero (off64 f 16) ∧ sto (.stgQ e u d a f) 16 4 (off64 f 16) ∧
    ld (.ldgX e u d a b sign half o) (narrow half) 1 (extend sign) (r b + off64 o 1) ∧
    sto (.stgX e u d a b half o) (narrow half) 1 (r b + off64 o 1) ∧
    Global (.atom e u d a b f11 sc ord ret w op) s g u st ret
      (atomicOp g u .global d b (gaddr g a (off64 f11 (width w))) sc ord ret w op) ∧
    ((∃ t, Active g t) → Hands (.sld e d a f) s g (.sload (r a + off64 f 8) d) 1
      (fun w => w.access g.uid (g.runIdx + 32 * g.tag) false true (.sload (r a + off64 f 8) d))) ∧
    ((¬∃ t, Active g t) → Gives (.sld e d a f) s g g 1) ∧
    Hands (.sst e d a f) s g (.sstore (r a + off64 f 8) (r d)) 1
      (fun w => w.access g.uid (g.runIdx + 32 * g.tag) false false (.sstore (r a + off64 f 8) (r d)))

/-- R14, R27, R34, R43, R151, R154, R156: slice accesses are performed when they issue; `slds` writes, and `ssts` stores, the
eight bytes that the team's window gives, or fails with alignment or slice bounds and goes on. An access waits at its banks
for its own rows of one bank, and as long as another class or lane held its bank before it: that these cycles pass before the
access issues, and that `slds` and `ssts` wait and count as a lane's request does, is the model's choice (assumption log 5). That
an atomic is performed in the step that issues it is the model's choice (assumption log 3). So is that `slds` and `ssts` act
with no thread active (assumption log 37). -/
def Sys2Proof.Claims.SliceAccessResults : Prop :=
  ∀ (s : State) (g : Group) (tm : Team) (e u : Bool) (d a b : Fld) (f : BitVec 9) (o : BitVec 16) (f11 : BitVec 11)
    (sign half ret w : Bool) (sc : BitVec 3) (ord : BitVec 2) (op : BitVec 4),
    let st := (g.v a).isA
    let r := g.readS (s.cyc g)
    let ld := fun (i : Instr) (size n : Nat) (x : Ext) (off : W64) =>
      Slice i s g u st (loadOp g u .slice size n x d (saddr g a off))
    let sto := fun (i : Instr) (size n : Nat) (off : W64) =>
      Slice i s g u st (storeOp g u .slice size n d (saddr g a off))
    ld (.lds e u d a f) 4 1 .zero (off64 f 4) ∧ sto (.sts e u d a f) 4 1 (off64 f 4) ∧
    ld (.ldsW e u d a f) 8 2 .zero (off64 f 8) ∧ sto (.stsW e u d a f) 8 2 (off64 f 8) ∧
    ld (.ldsQ e u d a f) 16 4 .zero (off64 f 16) ∧ sto (.stsQ e u d a f) 16 4 (off64 f 16) ∧
    ld (.ldsX e u d a b sign half o) (narrow half) 1 (extend sign) (r b + off64 o 1) ∧
    sto (.stsX e u d a b half o) (narrow half) 1 (r b + off64 o 1) ∧
    Returning (.atoms e u d a b f11 sc ord ret w op) s g u st ret
      (atomicOp g u .slice d b (saddr g a (off64 f11 (width w))) sc ord ret w op) (fun _ => true) ∧
    (∀ strided places, conflictCycles strided places ≤ s.bankWait g strided places ∧
      ((∀ n, (g.lane, n) ∉ (s.core g.core).laneWaits) → s.bankWait g strided places = conflictCycles strided places)) ∧
    (s.team? g.team = some tm →
      let x : W64 := ((r a).setWidth 32 + BitVec.ofInt 32 (f.toInt * 8)).setWidth 64
      (∀ p, x.toNat % 8 = 0 → tm.window x.toNat 8 = some p →
        let n := (s.core g.core).waited g.lane
        (s.badLine (.slice p) 8 = none → Issues (.slds e d a f) s g →
          let c := conflicted s (g.writeS d (BitVec.ofNat 64 (leNat (s.slices.readN p 8)))) [(p, 8)] n
          exec (.slds e d a f) s = .next (after c.1 c.2 (1 + n) (c.2.pc + lengthOf (.slds e d a f))
            (endsRun (.slds e d a f) c.2))) ∧
        (Issues (.ssts e d a f) s g →
          let c := conflicted (s.writeAt (.slice p) (leBytes 8 (r d).toNat)) g [(p, 8)] n
          exec (.ssts e d a f) s = .next (after c.1 c.2 (1 + n) (c.2.pc + lengthOf (.ssts e d a f))
            (endsRun (.ssts e d a f) c.2)) ∧
          (s.writeAt (.slice p) (leBytes 8 (r d).toNat)).slices = s.slices.writeN p (leBytes 8 (r d).toNat))) ∧
      (x.toNat % 8 = 0 → tm.window x.toNat 8 = none →
        FailsNow (.slds e d a f) s g .sliceBounds 0 0 x 1 ∧ FailsNow (.ssts e d a f) s g .sliceBounds 2 0 x 1) ∧
      (x.toNat % 8 ≠ 0 →
        FailsNow (.slds e d a f) s g .alignment 0 0 x 1 ∧ FailsNow (.ssts e d a f) s g .alignment 2 0 x 1))

/-- R42, R155, R156: distributed accesses return at the run's end; on the group's own core their requests are those of the slice
window, and on another they join those of its remote port. That they are performed when they issue is the model's choice
(assumption log 3). -/
def Sys2Proof.Claims.DistributedAccessResults : Prop :=
  ∀ (s : State) (g : Group) (e u : Bool) (d a b : Fld) (o : BitVec 16) (f11 : BitVec 11) (ret w : Bool)
    (sc : BitVec 3) (ord : BitVec 2) (op : BitVec 4),
    let st := (g.v a).isA
    let own := fun p : Nat × Nat => p.1 / 2097152 == g.core
    Returning (.ldd e u d a o) s g u st true (loadOp g u .dist 4 1 .zero d (saddr g a (off64 o 4))) own ∧
    Returning (.std e u d a o) s g u st false (storeOp g u .dist 4 1 d (saddr g a (off64 o 4))) own ∧
    Returning (.atomd e u d a b f11 sc ord ret w op) s g u st ret
      (atomicOp g u .dist d b (saddr g a (off64 f11 (width w))) sc ord ret w op) own

/-- R149 to R156: accesses of the slice window and of the distributed space. By the model's choice distributed accesses and
atomics are performed in the step that issues them (assumption log 3), and the cycles for which other classes and lanes hold a
bank pass before an access issues (assumption log 5). -/
def Obligations.SliceAndDistributedAccessResults : Prop :=
  SliceAccessResults ∧ DistributedAccessResults

/-- R2, R150, R151, R154: what a load returns. It changes no memory. Each thread whose check passes, and whose bytes read,
receives in its registers the little-endian value of `size` bytes, zero- or sign-extended; each thread whose check fails
receives nothing and is in the mask of the failure. Under the once mark every thread of the captured mask receives it. -/
def Sys2Proof.Claims.LoadsReturnMemory : Prop :=
  ∀ (s t : State) (g : Group) (idx size dst n : Nat) (strided : Bool) (sp : Space) (ext : Ext) (r : Result)
    (spread : Option W64) (addrs : List (Nat × W64)) (places : List (Nat × Nat)),
    s.performAccess g idx strided (.load sp size addrs dst n ext spread) = .ok t r places →
    (addrs.map (·.1)).Nodup → (∀ x ∈ addrs, x.1 < 64) →
    let chk := fun a => s.check g.part g.ctx g.team sp a size .read false
    let val := fun p => match ext with
      | .zero => leNat (s.readAt p size)
      | .sign => (BitVec.ofInt 32 (sextNat (8 * size) (leNat (s.readAt p size)))).toNat
    t = s ∧
    (spread = none → ∀ th a, (th, a) ∈ addrs →
      (∀ p, chk a = .ok p → ∀ k, k < n → ∀ w, (dst + k, th, w) ∈ r.elems ↔ w = BitVec.ofNat 32 (val p / 2 ^ (32 * k))) ∧
      (∀ c x, chk a = .fail c x → (∀ k w, (k, th, w) ∉ r.elems) ∧ ∃ f, r.fail = some f ∧ f.tmask.getLsbD th = true)) ∧
    (∀ m th a p, spread = some m → addrs = [(th, a)] → chk a = .ok p → m ≠ g.width.full →
      ∀ v, v < g.width.n → ∀ k, k < n → ∀ w,
        (dst + k, v, w) ∈ r.elems ↔ m.getLsbD v = true ∧ w = BitVec.ofNat 32 (val p / 2 ^ (32 * k))) ∧
    (∀ m th a p, spread = some m → addrs = [(th, a)] → chk a = .ok p → m = g.width.full →
      ∀ k, k < n → ∀ w, (dst + k, w) ∈ r.unis ↔ w = BitVec.ofNat 32 (val p / 2 ^ (32 * k)))

/-- R2, R149, R151: what `sld` returns, and what `sst` stores. `sld` reads the eight bytes at its address, least significant
first, into the scalar; `sst` writes the eight bytes of the scalar there and nothing else; each fails with the cause of its
address's check, with no thread named. -/
def Sys2Proof.Claims.ScalarAccessesOfMemory : Prop :=
  ∀ (s : State) (g : Group) (idx : Nat) (a x : W64) (d : Fld),
    let loads := s.performAccess g idx false (.sload a d)
    let stores := s.performAccess g idx false (.sstore a x)
    let reads := s.check g.part g.ctx g.team .global a 8 .read false
    let writes := s.check g.part g.ctx g.team .global a 8 .write false
    (∀ pl, reads = .ok pl → s.badLine pl 8 = none →
      ∃ v : W64, v.toNat = leNat (s.readAt pl 8) ∧ loads = .ok s { Result.empty with scalars := [(d, v)] } []) ∧
    (∀ c n, reads = .fail c n → loads = .ok s { Result.empty with
      fail := some ⟨idx, c, a, 0, BitVec.ofNat 32 n, c.replayable⟩ } []) ∧
    (∀ c n, writes = .fail c n → stores = .ok s { Result.empty with
      fail := some ⟨idx, c, a, 0, BitVec.ofNat 32 (n + 2), c.replayable⟩ } []) ∧
    (∀ dev slot world, writes = .ok (.hbm dev slot world) → s.hbm.wf = true → ∃ t, stores = .ok t Result.empty [] ∧ t.slices = s.slices ∧
      (∀ k, k < 8 → t.hbm.read (dev + k) = BitVec.ofNat 8 (x.toNat / 2 ^ (8 * k))) ∧
      ∀ y, y < dev ∨ dev + 8 ≤ y → t.hbm.read y = s.hbm.read y)

/-- R149: the failure of an access with several threads takes its cause and its address from the lowest failing thread, names
every failing thread in its mask, and can be replayed only if every failing thread's cause can. Here of a load; the
failures of a store and an atomic are gathered alike, thread by thread. -/
def Sys2Proof.Claims.LowestFailingThreadNamesTheFailure : Prop :=
  ∀ (s t : State) (g : Group) (idx size dst n : Nat) (strided : Bool) (sp : Space) (ext : Ext) (r : Result)
    (spread : Option W64) (addrs pre post : List (Nat × W64)) (places : List (Nat × Nat)) (th : Nat) (a : W64)
    (c : Cause) (x : Nat),
    s.performAccess g idx strided (.load sp size addrs dst n ext spread) = .ok t r places →
    addrs = pre ++ (th, a) :: post → (∀ y ∈ addrs, y.1 < 64) →
    let chk := fun a => s.check g.part g.ctx g.team sp a size .read false
    (∀ y ∈ pre, ∃ p, chk y.2 = .ok p) → chk a = .fail c x →
    ∃ f, r.fail = some f ∧ f.idx = idx ∧ f.cause = c ∧ f.taddr = a ∧
      (∀ v, v < 64 → (f.tmask.getLsbD v = true ↔ ∃ y ∈ addrs, y.1 = v ∧ ∃ c x, chk y.2 = .fail c x)) ∧
      (f.replay = true ↔ ∀ y ∈ addrs, ∀ c x, chk y.2 = .fail c x → c.replayable = true)

/-- R2, R149 to R151, R154: what a load returns to each thread, what names its failure, and what the scalar accesses read
and store. -/
def Obligations.LoadsReadMemory : Prop :=
  LoadsReturnMemory ∧ LowestFailingThreadNamesTheFailure ∧ ScalarAccessesOfMemory

/-- R2, R149, R157: what a store does. Thread by thread in ascending order, the first item is checked and, if it passes, its
bytes are written least significant first and nothing else is; the others follow in the state that it leaves. -/
def Obligations.StoresWriteMemory : Prop :=
  ∀ (s : State) (g : Group) (sp : Space) (size th : Nat) (a : W64) (x : BitVec 128) (rest : List (Nat × W64 × BitVec 128)),
    let chk := s.check g.part g.ctx g.team sp a size .write false
    let out := s.storeAll g sp size ((th, a, x) :: rest)
    (∀ dev slot world, s.hbm.wf = true → chk = .ok (.hbm dev slot world) → ∃ u : State,
      out.s = (u.storeAll g sp size rest).s ∧ u.slices = s.slices ∧
      (∀ k, k < size → u.hbm.read (dev + k) = BitVec.ofNat 8 (x.toNat / 2 ^ (8 * k))) ∧
      (∀ y, y < dev ∨ dev + size ≤ y → u.hbm.read y = s.hbm.read y)) ∧
    (∀ p, s.slices.wf = true → chk = .ok (.slice p) → ∃ u : State,
      out.s = (u.storeAll g sp size rest).s ∧ u.hbm = s.hbm ∧
      (∀ k, k < size → u.slices.read (p + k) = BitVec.ofNat 8 (x.toNat / 2 ^ (8 * k))) ∧
      (∀ y, y < p ∨ p + size ≤ y → u.slices.read y = s.slices.read y)) ∧
    (∀ c d, chk = .fail c d → out.s = (s.storeAll g sp size rest).s ∧ ⟨th, c, a, d⟩ ∈ out.fails)

/-- R149, R156, R157, Table 4: what an atomic does with one location. In ascending thread order, the location's value before
is read, and what the operation makes of it and of the operand is written back, in one step; `load` writes nothing, and `store`
goes on where the line that it reads holds an error. A thread whose check fails reads and writes nothing, is among the failures
with the cause and the detail of its check, and the threads behind it go on. -/
def Obligations.AtomicsUpdateMemory : Prop :=
  ∀ (s : State) (g : Group) (sp : Space) (w : Bool) (op : AOp) (ordered : Bool) (th : Nat) (a x e : W64)
    (rest : List (Nat × W64 × W64 × W64)),
    let n := 8 * width w
    let chk := s.check g.part g.ctx g.team sp a (width w) op.perm ordered
    let out := s.atomAll g sp w op ordered ((th, a, x, e) :: rest)
    (∀ c d, chk = .fail c d → out.s = (s.atomAll g sp w op ordered rest).s ∧
      out.olds = (s.atomAll g sp w op ordered rest).olds ∧ ⟨th, c, a, d⟩ ∈ out.fails) ∧
    ∀ p, chk = .ok p → (op = .store ∨ s.badLine p (width w) = none) →
    let old := leNat (s.readAt p (width w))
    let xv := x.toNat % 2 ^ n
    let ev := e.toNat % 2 ^ n
    let sgn := fun v : Nat => (BitVec.ofNat n v).toInt
    ∃ new : Nat,
      (op = .add → new = (old + xv) % 2 ^ n) ∧ (op = .and → new = old &&& xv) ∧ (op = .or → new = old ||| xv) ∧
      (op = .xor → new = old ^^^ xv) ∧
      (op = .minI → new = if sgn xv < sgn old then xv else old) ∧ (op = .maxI → new = if sgn old < sgn xv then xv else old) ∧
      (op = .minN → new = min old xv) ∧ (op = .maxN → new = max old xv) ∧ (op = .swap → new = xv) ∧
      (op = .cas → new = if old = ev then xv else old) ∧ (op = .fadd → new = (fp32.add .rne old xv).x) ∧
      (op = .store → new = xv) ∧
      let u := if op = .load then s else s.writeAt p (leBytes (width w) new)
      out.s = (u.atomAll g sp w op ordered rest).s ∧ (th, old) ∈ out.olds

/-- R2: memory answers what was last written, in little-endian order. A write of bytes below 2^8 each gives those bytes at
their addresses and leaves every other address as it was, and a value written is the value read. -/
def Obligations.MemoryReadAfterWrite : Prop :=
  ∀ (m : Memory) (a n x : Nat) (bs : List Byte), m.wf = true →
    (∀ k, k < bs.length → (m.writeN a bs).read (a + k) = bs.getD k 0) ∧
    (∀ y, y < a ∨ a + bs.length ≤ y → (m.writeN a bs).read y = m.read y) ∧
    leNat ((m.writeN a (leBytes n x)).readN a n) = x % 2 ^ (8 * n) ∧
    (∀ y, (m.clear a n).read y = if a ≤ y ∧ y < a + n then 0 else m.read y) ∧
    (m.writeN a bs).wf = true ∧ (m.clear a n).wf = true

/-- R36, R149, R290, R291, R321: translation of a global address. Bits 63:48 must be 0; the walk of the context's tables must
reach a leaf; the leaf must permit the access, the address that it gives, in a page of either size, lie below BOUND, and its
tensor slot be open to the partition. -/
def Sys2Proof.Claims.TranslationOfAnAddress : Prop :=
  ∀ (s : State) (p : Partition) (c : Ctx) (root : Nat) (va : W64) (need : Perm),
    s.part? p.num = some p → p.contexts.find? (fun x => x.id == c.id) = some c → c.root = some root →
    let go := s.translate p.num c.id va need
    let bits := match need with | .read => 2 | .write => 4 | .both => 6 | .fetch => 8
    (2 ^ 48 ≤ va.toNat → go = .fail .translation 0) ∧
    (va.toNat < 2 ^ 48 →
      (∀ lev, s.walkFrom p c.id va.toNat walkLevels root = .fault lev → go = .fail .translation (lev * 256)) ∧
      (∀ e : W64, ∀ big : Bool, s.walkFrom p c.id va.toNat walkLevels root = .leaf e big →
        let size := if big then 2 ^ 21 else 2 ^ 16
        let pa := e.toNat / 2 ^ 8 % 2 ^ 42 * 256 / size * size + va.toNat % size
        let slot := e.toNat / 2 ^ 50
        ((e.toNat &&& 14) &&& bits ≠ bits → go = .fail .protection 0) ∧
        ((e.toNat &&& 14) &&& bits = bits → p.bound ≤ pa → go = .fail .translation ((if big then 3 else 4) * 256)) ∧
        ((e.toNat &&& 14) &&& bits = bits → pa < p.bound →
          (slot = 0 ∨ (∃ x ∈ s.pkg.tensors, x.slot = slot ∧ x.part = p.num) → go = .ok (p.base + pa) e) ∧
          (slot ≠ 0 → (¬∃ x ∈ s.pkg.tensors, x.slot = slot ∧ x.part = p.num) → go = .fail .protection 8))))

/-- R290, R291, Table 5: one level of a walk. A table at or above BOUND, an entry that is not valid or has bit 7 set, a leaf
above level 3 or a table entry at level 4, a leaf with a misaligned or forbidden address or kind code 3, and a table entry
with reserved bits or a misaligned address are each a fault at that level; a table entry goes on at its address. The entry is
what memory holds, or a copy of it that a TLB or a walker keeps for the context (R292). -/
def Sys2Proof.Claims.OneLevelOfAWalk : Prop :=
  ∀ (s : State) (p : Partition) (ctx va table lev hi lo : Nat) (rest : List (Nat × Nat × Nat)),
    (lev, hi, lo) ∈ walkLevels →
    let go := s.walkFrom p ctx va ((lev, hi, lo) :: rest) table
    let bound := p.bound
    let at_ := p.base + table + 8 * (va / 2 ^ lo % 2 ^ (hi + 1 - lo))
    ∃ e : Nat, (e = leNat (s.hbm.readN at_ 8) ∨
      ∃ k, s.tlbHit p.num ctx lev (va / 2 ^ lo % 2 ^ (48 - lo)) at_ = some k ∧ e = k.entry.toNat) ∧
    let adr := e / 2 ^ 8 % 2 ^ 42 * 256
    let size := if lev = 3 then 2 ^ 21 else 2 ^ 16
    (bound ≤ table → go = .fault lev) ∧
    (table < bound → s.lineReads (at_ / 64 * 64) 0 = false → go = .poison (at_ / 64 * 64)) ∧
    (table < bound → s.lineReads (at_ / 64 * 64) 0 = true →
      (e.testBit 0 = false ∨ e.testBit 7 = true → go = .fault lev) ∧
      (e.testBit 0 = true → e.testBit 7 = false →
        (e.testBit 6 = true → lev < 3 → go = .fault lev) ∧
        (e.testBit 6 = false → lev = 4 → go = .fault lev) ∧
        (e.testBit 6 = true → 3 ≤ lev → adr % size ≠ 0 ∨ e / 16 % 4 = 3 ∨ bound ≤ adr → go = .fault lev) ∧
        (e.testBit 6 = true → 3 ≤ lev → adr % size = 0 → e / 16 % 4 ≠ 3 → adr < bound →
          go = .leaf (BitVec.ofNat 64 e) (lev == 3)) ∧
        (e.testBit 6 = false → lev < 4 → e / 2 ^ 50 ≠ 0 ∨ e / 2 % 32 ≠ 0 ∨ (lev < 3 ∧ adr % 4096 ≠ 0) → go = .fault lev) ∧
        (e.testBit 6 = false → lev < 4 → e / 2 ^ 50 = 0 → e / 2 % 32 = 0 → (lev < 3 → adr % 4096 = 0) →
          go = s.walkFrom p ctx va rest adr)))

/-- R36, R149, R290, R291, R321: translation of a global address, and each level of a walk. -/
def Obligations.TranslationByTheTables : Prop :=
  TranslationOfAnAddress ∧ OneLevelOfAWalk

/-- R34, R35: the slice window and the distributed space. A window offset is on the team's core below the slice allocation,
and in a core pair on the second core above it; no access reaches both. A distributed address names a core of the partition
and an offset that lies in an allocation of a team of the same world. -/
def Sys2Proof.Claims.SliceWindowAndDistributedSpace : Prop :=
  ∀ (t : Team) (o n : Nat), 0 < n → t.sliceLen ≤ 2097152 →
    (o + n ≤ t.sliceLen → t.window o n = some (t.core * 2097152 + t.sliceOff + o)) ∧
    (t.pair = true → t.sliceLen ≤ o → o + n ≤ 2 * t.sliceLen →
      t.window o n = some ((t.core + 1) * 2097152 + t.sliceOff + (o - t.sliceLen))) ∧
    (t.pair = false → t.sliceLen < o + n → t.window o n = none) ∧
    (t.pair = true → o < t.sliceLen → t.sliceLen < o + n → t.window o n = none) ∧
    (2 * t.sliceLen < o + n → t.window o n = none) ∧
    ∀ (s : State) (p : Partition) (ctx a : Nat), s.part? p.num = some p →
      let core := a / 2 ^ 21 % 2 ^ 8
      let off := a % 2 ^ 21
      let own := a < 2 ^ 29 ∧ p.clus.getLsbD (core / 8) = true ∧ ∃ u ∈ s.teams, u.part = p.num ∧ u.ctx = ctx ∧
        (core = u.core ∧ u.spilled = none ∨ u.pair = true ∧ core = u.core + 1 ∧ u.spilledOdd = none) ∧
        u.sliceOff ≤ off ∧ off + n ≤ u.sliceOff + u.sliceLen
      (own → s.distributed p.num ctx a n = some (core * 2097152 + off)) ∧
      (¬own → s.distributed p.num ctx a n = none)

/-- The order of the checks of an access (R149): alignment first; then, by the space, translation and page kind, the slice
window, or the distributed allocation. -/
def Sys2Proof.Claims.AccessChecks : Prop :=
  ∀ (s : State) (part ctx team size : Nat) (a : W64) (need : Perm) (ordered : Bool),
    let chk := fun sp => s.check part ctx team sp a size need ordered
    (a.toNat % size ≠ 0 → ∀ sp, chk sp = .fail .alignment 0) ∧
    (a.toNat % size = 0 →
      (∀ c d, s.translate part ctx a need = .fail c d → chk .global = .fail c d) ∧
      (∀ dev e, s.translate part ctx a need = .ok dev e →
        (ordered = true → e.toNat / 16 % 4 = 2 → chk .global = .fail .orderingKind 0) ∧
        (ordered = false ∨ e.toNat / 16 % 4 ≠ 2 → chk .global = .ok (.hbm dev (e.toNat / 2 ^ 50) (part * 128 + ctx)))) ∧
      (∀ t, s.team? team = some t →
        (∀ p, t.window a.toNat size = some p → chk .slice = .ok (.slice p)) ∧
        (t.window a.toNat size = none → chk .slice = .fail .sliceBounds 0)) ∧
      (∀ p, s.distributed part ctx a.toNat size = some p → chk .dist = .ok (.slice p)) ∧
      (s.distributed part ctx a.toNat size = none → chk .dist = .fail .distBounds 0))

/-- R34, R35, R149: the checks of an access in their order, and what the slice window and the distributed space hold. That all 64
bits of a distributed address count where an operand has so many is the model's choice (assumption log 15, DESIGN CHOICE). -/
def Obligations.ChecksInOrder : Prop :=
  AccessChecks ∧ SliceWindowAndDistributedSpace

/-- The frame of the stores and the atomics (R150, R151, R154 to R156): each leaves every byte of HBM and of the slices as it
was, but for those it stores to: `size` bytes at each place that the checks of its items give, computed in the state in
which it is performed. A global store's own bytes are in HBM, those of a slice or distributed store in the slices; a report that a
bank conflict's threshold asks for is the one other write, to the report ring. No poisoned line is met. -/
def Sys2Proof.Claims.StoresFrame : Prop :=
  ∀ (s t : State) (g : Group) (e u : Bool) (d a b : Fld) (f : BitVec 9) (o : BitVec 16) (f11 : BitVec 11) (half ret w : Bool)
    (sc : BitVec 3) (ord : BitVec 2) (op : BitVec 4),
    let r := g.readS (s.cyc g)
    let frame := fun (sp : Space) (places : List (Nat × Nat)) =>
      let hit := fun x : Nat => ∃ q ∈ places, q.1 ≤ x ∧ x < q.1 + q.2
      (sp = .global → (∀ x, ¬hit x → t.hbm.read x = s.hbm.read x) ∧ t.slices = s.slices) ∧
      (sp ≠ .global → (∀ x, ¬hit x → t.slices.read x = s.slices.read x) ∧
        (fpmAction g.fpm 6 ≠ 2 → t.hbm = s.hbm))
    let issued := fun (i : Instr) (op : DOp) (sp : Space) =>
      let p : Pend := ⟨g.runIdx + 32 * g.tag, op, instrWords i, .waiting, s.tick, g.active, g.captures (s.cyc g) i⟩
      if sp = .global then s.setGroup { g with pends := g.pends ++ [p] } else s
    let sto := fun (sp : Space) (i : Instr) (size n : Nat) (addr : Nat → W64) =>
      Issues i s g → exec i s = .next t →
      let out := (issued i (storeOp g u sp size n d addr) sp).storeAll g sp size
        ((computing g u).map fun t => (t, addr t, stored g d n t))
      out.poison = none → frame sp out.places
    let ato := fun (sp : Space) (i : Instr) (addr : Nat → W64) =>
      Issues i s g → exec i s = .next t →
      let x := fun (f : Fld) t => if w then g.pair f t else ((g.v f).get t).setWidth 64
      let out := (issued i (atomicOp g u sp d b addr sc ord ret w op) sp).atomAll g sp w (AOp.ofCode op.toNat)
        (AOrd.ofCode ord.toNat != .relaxed) ((computing g u).map fun t => (t, addr t, x b t, x d t))
      out.poison = none → frame sp out.places
    sto .global (.stg e u d a f) 4 1 (gaddr g a (off64 f 4)) ∧ sto .slice (.sts e u d a f) 4 1 (saddr g a (off64 f 4)) ∧
    sto .global (.stgW e u d a f) 8 2 (gaddr g a (off64 f 8)) ∧ sto .slice (.stsW e u d a f) 8 2 (saddr g a (off64 f 8)) ∧
    sto .global (.stgQ e u d a f) 16 4 (gaddr g a (off64 f 16)) ∧
    sto .slice (.stsQ e u d a f) 16 4 (saddr g a (off64 f 16)) ∧
    sto .global (.stgX e u d a b half o) (narrow half) 1 (gaddr g a (r b + off64 o 1)) ∧
    sto .slice (.stsX e u d a b half o) (narrow half) 1 (saddr g a (r b + off64 o 1)) ∧
    sto .dist (.std e u d a o) 4 1 (saddr g a (off64 o 4)) ∧
    ato .global (.atom e u d a b f11 sc ord ret w op) (gaddr g a (off64 f11 (width w))) ∧
    ato .slice (.atoms e u d a b f11 sc ord ret w op) (saddr g a (off64 f11 (width w))) ∧
    ato .dist (.atomd e u d a b f11 sc ord ret w op) (saddr g a (off64 f11 (width w))) ∧
    (∀ pl, Issues (.sst e d a f) s g → exec (.sst e d a f) s = .next t →
      s.check g.part g.ctx g.team .global (r a + off64 f 8) 8 .write false = .ok pl → frame .global [(pl.addr, 8)]) ∧
    (∀ c x, Issues (.sst e d a f) s g → exec (.sst e d a f) s = .next t →
      s.check g.part g.ctx g.team .global (r a + off64 f 8) 8 .write false = .fail c x → frame .global []) ∧
    (∀ tm, Issues (.ssts e d a f) s g → exec (.ssts e d a f) s = .next t → s.team? g.team = some tm →
      let x := ((r a).setWidth 32 + BitVec.ofInt 32 (f.toInt * 8)).toNat
      (fpmAction g.fpm 6 ≠ 2 → t.hbm = s.hbm) ∧
      ∀ y, (∀ p, x % 8 = 0 → tm.window x 8 = some p → y < p ∨ p + 8 ≤ y) → t.slices.read y = s.slices.read y)

/-- The frame of the loads: no byte of HBM or of a slice changes, but for a report that a bank conflict's threshold asks
for, or the record of an error that the load consumes. -/
def Sys2Proof.Claims.LoadsFrame : Prop :=
  ∀ (s t : State) (g : Group) (e u : Bool) (d a b : Fld) (f : BitVec 9) (o : BitVec 16) (sign half : Bool),
    let r := g.readS (s.cyc g)
    let ldg := fun (i : Instr) (size : Nat) (addr : Nat → W64) => Issues i s g → exec i s = .next t →
      (∀ th x p, Active g th → addr th = x → s.check g.part g.ctx g.team .global x size .read false = .ok p →
        s.badLine p size = none) →
      (∀ th x l, Active g th → addr th = x → s.check g.part g.ctx g.team .global x size .read false ≠ .poison l) →
      t.hbm = s.hbm ∧ t.slices = s.slices ∧ t.lines = s.lines
    let sld := Issues (.sld e d a f) s g → exec (.sld e d a f) s = .next t →
      (∀ l, s.readThread g .global 8 0 (r a + off64 f 8) ≠ .poison l) →
      t.hbm = s.hbm ∧ t.slices = s.slices ∧ t.lines = s.lines
    let lds := fun (i : Instr) (sp : Space) (size : Nat) (addr : Nat → W64) => Issues i s g → exec i s = .next t →
      (∀ th p, Active g th → s.check g.part g.ctx g.team sp (addr th) size .read false = .ok p → s.badLine p size = none) →
      t.slices = s.slices ∧ (fpmAction g.fpm 6 ≠ 2 → t.hbm = s.hbm ∧ t.lines = s.lines)
    let slds := Issues (.slds e d a f) s g → exec (.slds e d a f) s = .next t →
      (∀ l, s.readThread g .slice 8 0 (((r a).setWidth 32 + BitVec.ofInt 32 (f.toInt * 8)).setWidth 64) ≠ .poison l) →
      t.slices = s.slices ∧ (fpmAction g.fpm 6 ≠ 2 → t.hbm = s.hbm ∧ t.lines = s.lines)
    ldg (.ldg e u d a f) 4 (gaddr g a (off64 f 4)) ∧ ldg (.ldgW e u d a f) 8 (gaddr g a (off64 f 8)) ∧
    ldg (.ldgQ e u d a f) 16 (gaddr g a (off64 f 16)) ∧
    ldg (.ldgX e u d a b sign half o) (narrow half) (gaddr g a (r b + off64 o 1)) ∧
    lds (.lds e u d a f) .slice 4 (saddr g a (off64 f 4)) ∧ lds (.ldsW e u d a f) .slice 8 (saddr g a (off64 f 8)) ∧
    lds (.ldsQ e u d a f) .slice 16 (saddr g a (off64 f 16)) ∧
    lds (.ldsX e u d a b sign half o) .slice (narrow half) (saddr g a (r b + off64 o 1)) ∧
    lds (.ldd e u d a o) .dist 4 (saddr g a (off64 o 4)) ∧ slds ∧ sld

/-- R150, R151, R154 to R156: the frames of the stores, the atomics and the loads: which bytes of memory stay as they
were. -/
def Obligations.AccessFrames : Prop :=
  StoresFrame ∧ LoadsFrame

/-- R54, R159: a fence costs one cycle and orders; it completes at once, and is kept, with its scope and its paths, while an
access of its first paths that its group issued earlier is outstanding. While it is kept it holds back the group's later
accesses of its second paths: here a load, store or atomic of the slice window or the distributed space under a second path
T or all, and a remote instruction under a second path F or all, one of whose ranks is at this device or, under scope fabric,
at any. -/
def Obligations.FencesComplete : Prop :=
  (∀ (s : State) (g : Group) (e : Bool) (q p sc : BitVec 3), Issues (.fence e q p sc) s g → ∃ l,
    exec (.fence e q p sc) s = .next (after s { g with fences := l } 1 (g.pc + lengthOf (.fence e q p sc))
      (endsRun (.fence e q p sc) { g with fences := l })) ∧
    ∀ f, f ∈ l ↔ (f ∈ g.fences ∨ f = ⟨sc.toNat, p.toNat, q.toNat, s.tick⟩) ∧
      s.outstanding { g with fences := g.fences ++ [⟨sc.toNat, p.toNat, q.toNat, s.tick⟩] } f = true) ∧
  (∀ (s : State) (g : Group) (i : Instr) (op : DOp) (f : FenceOp), f ∈ g.fences → s.outstanding g f = true →
    s.captured g i = some op →
    (op.globalOnly = none → op.paths = [0] → f.second = 0 ∨ f.second = 7 → s.fenced g i = true) ∧
    (∀ o items dst n ret, op = .remote o items dst n ret → f.second = 3 ∨ f.second = 7 →
      (∃ x ∈ items, ∃ t, s.rankOf g.part g.ctx g.lid x.2.1.toNat = some t ∧ (f.scope = 6 ∨ t.dev = Config.ownDevice)) →
      s.fenced g i = true) ∧
    (s.fenced g i = true → ∃ k ∈ g.fences, s.outstanding g k = true)) ∧
  (∀ (s : State) (g : Group) (i : Instr), s.fetch g = .instr i → g.fences ≠ [] → s.fenced g i = true → s.issues g = false)

/-! ## Remote instructions, engines, buffers and barriers -/

namespace Sys2Proof.Claims

/-- A core has room for an engine operation (R171): a free entry of the matrix queue, or a free copy slot, and no group of
the core waits for the same. -/
def HasRoom (s : State) (core : Nat) (op : EngOp) : Prop :=
  (if op.isMatrix = true then (s.core core).matrix.length < 16
    else ∃ k, k < 64 ∧ ∀ e ∈ (s.core core).copies, e.1 ≠ k) ∧
  ∀ h ∈ s.groups, h.core = core → ∀ p ∈ h.issued, p.st = .waiting → ∀ o f x, p.op = .engine o f x →
    o.isMatrix ≠ op.isMatrix

/-- What an engine keeps of an operation that group `g` issues (R171, R90), with the fences that stand before it (R54). -/
def entryOf (s : State) (g : Group) (op : EngOp) : EngEntry :=
  ⟨op, g.team, g.part, g.ctx, g.lid, g.uid, g.gix, g.runIdx, g.runPc, g.fpm, g.width, false, s.tick, MmDone.start, none, [],
    g.fences.filter fun f => f.since < s.tick⟩

/-- The core with an operation in its lowest free copy slot. -/
def inCopySlot (s : State) (core : Nat) (e : EngEntry) (k : Nat) : State :=
  s.setCore { s.core core with copies := (s.core core).copies ++ [(k, e)] }

/-- `k` is the lowest free copy slot of a core. -/
def LowestCopySlot (s : State) (core k : Nat) : Prop :=
  k < 64 ∧ (∀ e ∈ (s.core core).copies, e.1 ≠ k) ∧ ∀ j, j < k → ∃ e ∈ (s.core core).copies, e.1 = j

/-- From the state `s0`, in which the group `g` issues `i`, an operation goes to an engine with the state `s` as `i` has left
it, and with the group's A latch as `i` leaves that (R171, R181): with room, the engine accepts it, in the state that
`takes` gives; without, the operation waits among what the run has issued. -/
def EngineIn (i : Instr) (s0 s : State) (g : Group) (latch : Option (List (List W32))) (op : EngOp)
    (takes : State → State → Prop) : Prop :=
  (HasRoom (s.setGroup g) g.core op → ∃ t, takes (s.setGroup g) t ∧
    let h := { g with latch := latch }
    exec i s0 = .next (after t h 1 (h.pc + lengthOf i) (endsRun i h))) ∧
  (¬HasRoom (s.setGroup g) g.core op →
    let p : Pend := ⟨g.runIdx + 32 * g.tag, .engine op g.fpm g.runPc, instrWords i, .waiting, s.tick, g.active,
      g.captures (s.cyc g) i⟩
    let h := { g with latch := latch, pends := g.pends ++ [p] }
    exec i s0 = .next (after (s.setGroup g) h 1 (h.pc + lengthOf i) (endsRun i h)))

/-- The same, where `i` has changed nothing. -/
def Engine (i : Instr) (s : State) (g : Group) (op : EngOp) (takes : State → State → Prop) : Prop :=
  EngineIn i s s g g.latch op takes

/-- Barrier `n` of the group's team is initialised (R174). -/
def BarrierSet (s : State) (g : Group) (n : BitVec 5) : Prop :=
  ∃ t, s.team? g.team = some t ∧ (t.abar n.toNat).expected ≠ 0

end Sys2Proof.Claims

/-- R162, R163, R165, R167: a remote instruction captures its operands per active thread and goes to the fabric engine,
which refuses the threads whose rank is not valid and sends the others' packets; with no active thread it issues nothing. -/
def Sys2Proof.Claims.RemoteInstructionsIssue : Prop :=
  ∀ (s : State) (g : Group) (e : Bool) (d a b x : Fld) (nf fsp sp ret : Bool) (size : BitVec 2) (op : BitVec 4),
    let n := 2 ^ size.toNat
    let items := fun (data : Nat → BitVec 128) =>
      (actives g).map fun t => (t, (g.v b).get t, g.pair a t, data t)
    let goes := fun (i : Instr) (o : PktOp) (data : Nat → BitVec 128) (dst regs : Nat) (r : Bool) =>
      ((∃ t, Active g t) → Hands i s g (.remote o (items data) dst regs r) (cycles g false) fun w =>
        w.remoteIssue g.uid (g.runIdx + 32 * g.tag) s.tick o (items data) dst regs r) ∧
      ((¬∃ t, Active g t) → Gives i s g g 1)
    (size.toNat ≤ 2 →
      goes (.xsend e d a b nf fsp sp size x)
        (.send (4 * n) sp (if nf then none else some ⟨fsp, g.readS (s.cyc g) x⟩)) (stored g d n) 0 0 false ∧
      goes (.xget e d a b sp size) (.get (4 * n) sp) (fun _ => 0) (g.wb + d.toNat) n true ∧
      goes (.xred e d a b op ret sp size x) (.red op.toNat (4 * n) sp) (stored g x n) (g.wb + d.toNat) n ret ∧
      goes (.xapp e d a b ret size x) (.app (4 * n)) (stored g x n) (g.wb + d.toNat) 1 ret)

/-- R42, R165, R168, R295: one thread of a packet at its target. A send writes the data's bytes and a get returns the bytes at the
thread's address, and a reduction returns what it updates; in a slice each is a request of the core's remote port. A thread
whose check fails changes nothing, and is answered with `remote refused` or `ordering kind`; one that reads a line with an error
consumes it. -/
def Sys2Proof.Claims.RemoteThreadsAtTheirTarget : Prop :=
  ∀ (s : State) (p : Packet) (th : PktThread) (size : Nat) (dist : Bool),
    let chk := fun need => s.check p.tgtPart p.tgtCtx 0 (if dist then .dist else .global) th.addr size need false
    let refused : Cause → Remote := fun c =>
      if c = .translation ∨ c = .protection then .refused .remoteRefused 3
      else if c = .orderingKind then .refused .orderingKind 0 else .refused .remoteRefused 4
    (∀ f pl, p.op = .send size dist f → chk .write = .ok pl →
      s.remoteThread p th = .done ((s.writeAt pl (th.data.take size)).viaPort pl) ⟨th.t, none, []⟩) ∧
    (∀ f c x, p.op = .send size dist f → chk .write = .fail c x → s.remoteThread p th = refused c) ∧
    (∀ pl, p.op = .get size dist → chk .read = .ok pl → s.badLine pl size = none →
      s.remoteThread p th = .done (s.viaPort pl) ⟨th.t, none, s.readAt pl size⟩) ∧
    (∀ pl l, p.op = .get size dist → chk .read = .ok pl → s.badLine pl size = some l → s.remoteThread p th = .poison l) ∧
    (∀ c x, p.op = .get size dist → chk .read = .fail c x → s.remoteThread p th = refused c) ∧
    (∀ pl op, p.op = .red op size dist → op < 8 ∨ op = 10 → chk .both = .ok pl → s.badLine pl size = none →
      let old := leNat (s.readAt pl size)
      s.remoteThread p th = .done ((s.writeAt pl (leBytes size ((AOp.ofCode op).result (8 * size) old
        (leNat (th.data.take size)) 0))).viaPort pl) ⟨th.t, none, leBytes size old⟩) ∧
    (∀ c x op, p.op = .red op size dist → chk .both = .fail c x → s.remoteThread p th = refused c) ∧
    (∀ q, s.part? p.tgtPart = some q → p.srcDev ≠ Config.ownDevice → s.foreignStop = false →
      (s.granted p = true ↔ (∃ c ∈ q.contexts, c.id = p.tgtCtx) ∧ ∃ x ∈ q.grants, x.valid = true ∧ x.dev = p.srcDev ∧
        (if x.anyCtx = true then x.world / 128 = p.srcWorld / 128 else x.world = p.srcWorld)))

/-- R166, R167, R168: an append at its target. A descriptor that is not on a multiple of 32 bytes, or whose fields are not
legal, is refused with detail 6, and one whose descriptor or flag fails its check as such checks are refused. Otherwise TAIL
goes up by one; at or past the capacity the answer is 0xFFFFFFFF and nothing else happens; below it the row is written, the
flag, if there is one, goes up by one, and the answer is the tail before. A row whose check fails leaves TAIL as it has
become. -/
def Sys2Proof.Claims.AppendsAtTheirTarget : Prop :=
  ∀ (s : State) (p : Packet) (th : PktThread) (size : Nat), p.op = .app size →
    let out := s.remoteThread p th
    let chk := fun (t : State) (a : W64) (n : Nat) need ordered => t.check p.tgtPart p.tgtCtx 0 .global a n need ordered
    let refused : Cause → Remote := fun c =>
      if c = .translation ∨ c = .protection then .refused .remoteRefused 3
      else if c = .orderingKind then .refused .orderingKind 0 else .refused .remoteRefused 4
    (th.addr.toNat % 32 ≠ 0 → out = .refused .remoteRefused 6) ∧
    (th.addr.toNat % 32 = 0 →
      (∀ c x, chk s th.addr 16 .both false = .fail c x → out = refused c) ∧
      ∀ pl, chk s th.addr 16 .both false = .ok pl → s.badLine pl 32 = none →
        let word := fun k => leNat (((s.readAt pl 32).drop (8 * k)).take 8)
        let tail := word 0
        let cap := word 1 % 2 ^ 32
        let legal := cap ≤ 0xFFFFFFFE ∧ word 1 / 2 ^ 32 = 0 ∧ word 2 % size = 0 ∧ word 3 % 8 = 0
        let flag := chk s (BitVec.ofNat 64 (word 3)) 8 .both true
        let u := s.writeAt pl (leBytes 8 ((tail + 1) % 2 ^ 64))
        let row := chk u (BitVec.ofNat 64 (word 2 + tail * size)) size .write false
        (¬legal → out = .refused .remoteRefused 6) ∧
        (∀ c x, legal → word 3 ≠ 0 → flag = .fail c x → out = refused c) ∧
        (∀ fl, legal → word 3 ≠ 0 → flag = .ok fl → s.badLine fl 8 ≠ none → ∃ l, out = .poison l) ∧
        (legal → word 3 = 0 ∨ (∃ fl, flag = .ok fl ∧ s.badLine fl 8 = none) →
          (cap ≤ tail → out = .done u ⟨th.t, none, leBytes 4 0xFFFFFFFF⟩) ∧
          (tail < cap → ∀ c x, row = .fail c x → ∃ d, out = .done u ⟨th.t, some d, []⟩) ∧
          (∀ q, tail < cap → row = .ok q →
            let w := u.writeAt q (th.data.take size)
            (word 3 = 0 → out = .done w ⟨th.t, none, leBytes 4 tail⟩) ∧
            (∀ fl, word 3 ≠ 0 → flag = .ok fl →
              out = .done ((w.writeAt fl (leBytes 8 ((leNat (w.readAt fl 8) + 1) % 2 ^ 64))).viaPort fl)
                ⟨th.t, none, leBytes 4 tail⟩))))

/-- R58, R165, R168, R295, R344: what surrounds a packet's threads at the target. A thread of a packet that is not granted is
refused with detail 5, one of an `xsend` whose flag fails its check as such checks are refused, and one that consumes a line's
error, which is recorded, with detail 7; and once every thread that an `xsend`
sent to a rank has been performed, its flag goes up by one, once. -/
def Sys2Proof.Claims.FlagsAtTheirTarget : Prop :=
  (∀ (s : State) (p : Packet) (th : PktThread), s.granted p = false →
    s.remoteThreads p [th] = (s, [(⟨th.t, some (Cause.remoteRefused.code, 5), []⟩, false)])) ∧
  (∀ (s : State) (p : Packet) (th : PktThread) (size : Nat) (dist : Bool) (f : RemFlag) (c : Cause) (x : Nat),
    s.granted p = true → p.op = .send size dist (some f) →
    s.check p.tgtPart p.tgtCtx 0 (if f.dist then .dist else .global) f.addr 8 .both true = .fail c x →
    let d := if c = .translation ∨ c = .protection then (Cause.remoteRefused, 3)
      else if c = .orderingKind then (Cause.orderingKind, 0) else (Cause.remoteRefused, 4)
    s.remoteThreads p [th] = (s, [(⟨th.t, some (d.1.code, d.2), []⟩, false)])) ∧
  (∀ (s : State) (p : Packet) (th : PktThread) (l : Nat), s.granted p = true →
    (∀ size dist f, p.op ≠ .send size dist (some f)) → s.remoteThread p th = .poison l →
    s.remoteThreads p [th] = (s.lineError l none, [(⟨th.t, some (Cause.remoteRefused.code, 7), []⟩, false)])) ∧
  (∀ (s : State) (f : Filter) (e : Executed) (size : Nat) (dist : Bool) (fl : RemFlag) (pl : Place), f.entries = [e] →
    e.op = .send size dist (some fl) → e.last = some 1 →
    s.check e.tgtPart e.tgtCtx 0 (if fl.dist then .dist else .global) fl.addr 8 .both true = .ok pl → s.badLine pl 8 = none →
    let all := ∀ t ∈ e.threads, ∃ a ∈ e.answers, a.t = t ∧ a.fail = none
    (all → e.flagged = false → s.countFlags f =
      ((s.writeAt pl (leBytes 8 ((leNat (s.readAt pl 8) + 1) % 2 ^ 64))).viaPort pl).setFilter
        { f with entries := [{ e with flagged := true }] }) ∧
    (¬all ∨ e.flagged = true → s.countFlags f = s.setFilter f))

/-- R163, R164, R168: what a remote instruction returns once its packets are answered. A thread whose rank is not valid is
refused at the source, with detail 2. The lowest failing thread gives cause, address and detail, every failing thread is in
the mask, and the failure can be replayed only if every failing thread's cause can; with no failing thread there is no failure.
The threads that were performed receive their values, and no other does. -/
def Sys2Proof.Claims.RemoteReturns : Prop :=
  (∀ (s : State) (g : Group) (idx since dst n : Nat) (op : PktOp) (items : List RemoteItem) (ret : Bool) (x : RemoteItem),
    s.group? g.uid = some g → g.halt = .no → waitsIn g.issued idx = true → items = [x] →
    s.rankOf g.part g.ctx g.lid x.2.1.toNat = none →
    (∀ y ∈ s.fabric.sent, ¬(y.uid = g.uid ∧ y.since = since ∧ y.idx = idx % 32)) → x.1 < 64 →
    let t := s.remoteIssue g.uid idx since op items dst n ret
    t.fabric.reqs = s.fabric.reqs ∧ t.returns = s.returns ++ [⟨g.uid, g.gen, idx, g.part, g.core, (Result.failed
      ⟨idx % 32, .remoteRefused, x.2.2.1, BitVec.ofNat 64 (2 ^ x.1), 2, Cause.remoteRefused.replayable⟩)⟩]) ∧
  (∀ (idx dst n : Nat) (items : List RemoteItem) (ret : Bool) (x : Sent),
    (items.map (·.1)).Nodup → (∀ i ∈ items, i.1 < 64) →
    let r := remoteResult idx items dst n ret x
    let answer := fun th : Nat => x.answers.find? fun a => a.t == th
    let fails := fun th : Nat => if th ∈ x.refused then some (Cause.remoteRefused.code, 2) else (answer th).bind (·.fail)
    (∀ (pre post : List RemoteItem) (th : Nat) (rank : W32) (a : W64) (data : BitVec 128) (c : Cause) (d : Nat),
      items = pre ++ (th, rank, a, data) :: post → (∀ i ∈ pre, fails i.1 = none) → fails th = some (c.code, d) →
      c = .remoteRefused ∨ c = .orderingKind ∨ c = .fabricTimeout →
      ∃ f, r.fail = some f ∧ f.idx = idx ∧ f.cause = c ∧ f.taddr = a ∧ f.detail = BitVec.ofNat 32 d ∧
        (∀ v, v < 64 → (f.tmask.getLsbD v = true ↔ ∃ i ∈ items, i.1 = v ∧ fails v ≠ none)) ∧
        (f.replay = true ↔ ∀ i ∈ items, ∀ code e, fails i.1 = some (code, e) → (answerCause code).replayable = true)) ∧
    ((∀ i ∈ items, fails i.1 = none) → r.fail = none) ∧
    (∀ i ∈ items, ∀ a, i.1 ∉ x.refused → answer i.1 = some a → a.fail = none → ret = true → ∀ k, k < n →
      (dst + k, i.1, BitVec.ofNat 32 (leNat ((a.data.drop (4 * k)).take 4))) ∈ r.elems) ∧
    (∀ i ∈ items, fails i.1 ≠ none → ∀ k w, (k, i.1, w) ∉ r.elems))

/-- R58, R162 to R168, R295: remote instructions at their source and at their target, and what they return. -/
def Obligations.RemoteInstructionResults : Prop :=
  RemoteInstructionsIssue ∧ RemoteThreadsAtTheirTarget ∧ AppendsAtTheirTarget ∧ FlagsAtTheirTarget ∧ RemoteReturns

/-- R171, R178 to R181, R185, R188, R194: engine instructions are accepted into the matrix queue or the lowest free copy slot,
or wait at the end of their run when there is none. `mmloop` needs a full mask, an initialised barrier, and a latch of its
own size when its group holds one. That the copy slot is the lowest free one, and that a group finds no room while another
group of its core waits for the same resource, is the model's choice (assumption log 4): R171 names no slot and no order. -/
def Obligations.EngineInstructionsIssue : Prop :=
  ∀ (s : State) (g : Group) (e : Bool) (d a b : Fld) (binc : BitVec 11) (ab : BitVec 5) (z reuse ssl : Bool)
    (mode dsp ssp rows gran : BitVec 2) (nk ty : BitVec 3),
    let r := g.readS (s.cyc g)
    let mm : Instr := .mmloop e d a b binc ab z reuse mode nk
    let cp : Instr := .cpy e d a b dsp ssp ab
    let un : Instr := .cunpack e d a b ssl rows gran ty ab
    let cpOp : EngOp := .cpy (r d) (r a) (r b) dsp.toNat ssp.toNat ab.toNat
    let unOp : EngOp := .cunpack (r d) (r a) (r b) ssl (32 * (rows.toNat + 1)) gran.toNat ty.toNat ab.toNat
    let mmOp := fun regs : List (List W32) =>
      EngOp.mmloop regs (r d) (r b) (nk.toNat + 1) mode.toNat binc.toNat z ab.toNat
    let queued := fun (op : EngOp) (w t : State) =>
      t = w.setCore { w.core g.core with matrix := (w.core g.core).matrix ++ [entryOf s g op] }
    let copied := fun (op : EngOp) (w t : State) =>
      ∃ k, LowestCopySlot w g.core k ∧ t = inCopySlot w g.core (entryOf s g op) k
    let regs := (List.range (8 * (nk.toNat + 1))).map fun k =>
      (List.range g.width.n).map fun t => (g.vreg (g.wb + a.toNat + k)).get t
    ((¬∀ t, t < g.width.n → Active g t) → Traps mm s g .maskPartial 0) ∧
    ((∀ t, t < g.width.n → Active g t) → ¬BarrierSet s g ab → Traps mm s g .illegalOperand 0) ∧
    ((∀ t, t < g.width.n → Active g t) → BarrierSet s g ab →
      (∀ l, g.latch = some l → l.length ≠ 8 * (nk.toNat + 1) → Traps mm s g .illegalOperand 0) ∧
      (∀ l, g.latch = some l → l.length = 8 * (nk.toNat + 1) → Issues mm s g →
        EngineIn mm s s g (if reuse then some l else none) (mmOp l) (queued (mmOp l))) ∧
      (g.latch = none → reuse = false → Issues mm s g → Engine mm s g (mmOp regs) (queued (mmOp regs))) ∧
      (g.latch = none → reuse = true → Issues mm s g →
        (∀ h ∈ s.groups, h.uid ≠ g.uid → h.core = g.core → h.lane / 16 = g.lane / 16 → h.latch = none) →
        EngineIn mm s s g (some regs) (mmOp regs) (queued (mmOp regs))) ∧
      (g.latch = none → reuse = true → Issues mm s g →
        (∃ h ∈ s.groups, h.uid ≠ g.uid ∧ h.core = g.core ∧ h.lane / 16 = g.lane / 16 ∧ h.latch ≠ none) →
        EngineIn mm s (s.updPart g.part fun p => { p with latchbyp := p.latchbyp + 1 }) g none (mmOp regs)
          (queued (mmOp regs)))) ∧
    (¬BarrierSet s g ab → Traps cp s g .illegalOperand 0 ∧ Traps un s g .illegalOperand 0) ∧
    (BarrierSet s g ab →
      (r b ≠ 0 ∨ copyMisfit (r d) (r a) (r b) dsp.toNat ssp.toNat ≠ none → Issues cp s g →
        Engine cp s g cpOp (copied cpOp)) ∧
      (r b = 0 → copyMisfit (r d) (r a) (r b) dsp.toNat ssp.toNat = none → Issues cp s g →
        Engine cp s g cpOp fun w t => t = w.countArrival g.team ab.toNat none []) ∧
      (Issues un s g → Engine un s g unOp (copied unOp)))

/-- R192 to R196: circular buffers. `cbinit` initialises a buffer of a valid geometry with every slot free, and with geometry 0
releases one; `cbpush` takes the next slot of a ring and goes to the copy engine; `cbpop` binds the next slot to pop;
`cbfree` gives back the oldest popped slot in ring order, a slot that was freed before that standing one round later. Each
misuse is a trap with its code. Which code of several is the model's choice (assumption log 14), and so are the lowest free copy
slot that a push takes and the order of operations that wait for one (assumption log 4): R171 and R194 name neither. -/
def Obligations.CircularBufferResults : Prop :=
  ∀ (s : State) (g : Group) (t : Team) (e : Bool) (d a b : Fld) (ssp : BitVec 2) (n : BitVec 5),
    s.team? g.team = some t →
    let r := g.readS (s.cyc g)
    let i := n.toNat + 32 * (g.core - t.core)
    let put := fun c : Option CBuf => s.setTeam { t with bufs := t.bufs.set i c }
    let goes := fun (w : Instr) (u : State) =>
      Issues w s g → exec w s = .next (after u g 1 (g.pc + lengthOf w) (endsRun w g))
    let mis := fun (w : Instr) (code : Nat) => Traps w s g .cbMisuse (BitVec.ofNat 32 code)
    let size := (r b).toNat % 2 ^ 16
    let slots := (r b).toNat / 2 ^ 16 % 2 ^ 8 + 1
    let fits := 1 ≤ size ∧ size ≤ 1024 ∧ (r b).toNat < 2 ^ 24 ∧ (r a).toNat % 64 = 0 ∧
      (r a).toNat + slots * size * 64 ≤ (if t.pair then 2 * t.sliceLen else t.sliceLen)
    let len := (r b).toNat
    (s.bufTaken t g.core n.toNat = true → mis (.cbinit e a b n) 2) ∧
    (s.bufTaken t g.core n.toNat = false →
      (t.buf i = none → fits →
        goes (.cbinit e a b n) (put (some ⟨(r a).toNat, size, List.replicate slots .free, 0, 0, 0, [], []⟩))) ∧
      (t.buf i = none → ¬fits → mis (.cbinit e a b n) 3) ∧
      (∀ c, t.buf i = some c → r b ≠ 0 → mis (.cbinit e a b n) 2) ∧
      (∀ c, t.buf i = some c → r b = 0 → s.fillsOut t.uid g.core i = false → c.bound = [] →
        (∀ x ∈ c.slots, x ≠ .popped ∧ x ≠ .freeing) → goes (.cbinit e a b n) (put none)) ∧
      (∀ c, t.buf i = some c → r b = 0 → s.fillsOut t.uid g.core i = true ∨ c.bound ≠ [] ∨
        (∃ x ∈ c.slots, x = .popped ∨ x = .freeing) → mis (.cbinit e a b n) 6)) ∧
    (t.buf i = none → mis (.cbpush e a b ssp n) 1 ∧ mis (.cbpop e d n) 1 ∧ mis (.cbfree e n) 1) ∧
    (∀ c, t.buf i = some c →
      let next := { c with nextAssign := (c.nextAssign + 1) % c.slots.length }
      (len = 0 ∨ c.size * 64 < len ∨ len % 4 ≠ 0 → mis (.cbpush e a b ssp n) 4) ∧
      (len ≠ 0 → len ≤ c.size * 64 → len % 4 = 0 → Issues (.cbpush e a b ssp n) s g →
        Engine (.cbpush e a b ssp n) s g (.cbpush i (r a) (r b) ssp.toNat none) fun w u => ∃ k, LowestCopySlot w g.core k ∧
          u = inCopySlot (w.setTeam { t with bufs := t.bufs.set i (some next) }) g.core
            (entryOf s g (.cbpush i (r a) (r b) ssp.toNat (some c.nextAssign))) k) ∧
      (Issues (.cbpop e d n) s g →
        let c' := { c with
          nextPop := (c.nextPop + 1) % c.slots.length, bound := c.bound ++ [(c.nextPop, g.uid, g.runIdx + 32 * g.tag)] }
        HandsIn (.cbpop e d n) s (put (some c')) g (.cbpop i c.nextPop d) 1 fun w => w.servePop t.uid i c.nextPop) ∧
      ((∀ x ∈ c.slots, x ≠ .popped) → mis (.cbfree e n) 5) ∧
      (∀ k, c.slots[k]? = some .popped →
        let age := fun j => c.ahead.count j * c.slots.length + (j + c.slots.length - c.oldest) % c.slots.length
        (∀ j, c.slots[j]? = some .popped → j ≠ k → age k < age j) →
        goes (.cbfree e n) (put (some (c.giveBack k))) ∧
        (c.ahead = [] → c.giveBack k = if k = c.oldest then
            { c with slots := c.slots.set k .freeing, oldest := (k + 1) % c.slots.length }
          else { c with slots := c.slots.set k .freeing, ahead := [k] })))

/-- R174, R175: asynchronous barriers. `init` sets the expected and the pending count to a value from 1 to 65,535, with phase
bit 0 and no failure; `arrive` leaves one arrival to be counted; `wait` is the last instruction of its run, which parks the
group for the parity in bit 0 of its operand. A barrier that is not initialised, or another count, is an illegal operand. -/
def Sys2Proof.Claims.AsyncBarrierInstructions : Prop :=
  ∀ (s : State) (g : Group) (t : Team) (e : Bool) (a : Fld) (n : BitVec 5), s.team? g.team = some t →
    let v := (g.readS (s.cyc g) a).toNat
    let b := t.abar n.toNat
    let put := fun x : Abar => s.setTeam { t with abars := t.abars.set n.toNat x }
    let goes := fun (w : Instr) (u : State) =>
      Issues w s g → exec w s = .next (after u g 1 (g.pc + lengthOf w) (endsRun w g))
    (1 ≤ v → v ≤ 65535 →
      let u := put ⟨v, v, false, false, 0, 0, true, b.arrivals, [], b.missed ++ b.crossed⟩
      goes (.abarInit e a n) (u.wakeWaits ((u.groups.filter fun h => h.team == g.team).map (·.uid)))) ∧
    (v = 0 ∨ 65535 < v → Traps (.abarInit e a n) s g .illegalOperand 0) ∧
    (b.expected ≠ 0 →
      goes (.abarArrive e n) (put { b with arrivals := b.arrivals + 1 }) ∧
      (Issues (.abarWait e a n) s g → exec (.abarWait e a n) s =
        .next (after s g 1 (g.pc + lengthOf (.abarWait e a n)) (some (.abarWait n.toNat (v % 2 == 1)))))) ∧
    (b.expected = 0 →
      Traps (.abarArrive e n) s g .illegalOperand 0 ∧ Traps (.abarWait e a n) s g .illegalOperand 0)

/-- R174, R176: one arrival. It counts the pending arrivals down; the last one flips the phase bit and sets the count to the
expected one again; the first failure of a phase sets the flag and the record, with a count of 1, and each later one counts
up to 255; the first arrival of a phase clears the record of the phase before. -/
def Sys2Proof.Claims.OneArrivalOnABarrier : Prop :=
  ∀ (b : Abar) (fail : Option (Nat × W64)),
    let c := b.arrive fail []
    (2 ≤ b.pending → c.pending = b.pending - 1 ∧ c.phase = b.phase) ∧
    (b.pending ≤ 1 → c.pending = b.expected ∧ c.phase = !b.phase ∧ c.fresh = true) ∧
    c.expected = b.expected ∧
    (fail = none → b.fresh = true → c.failed = false ∧ c.detail = 0 ∧ c.taddr = 0) ∧
    (fail = none → b.fresh = false → c.failed = b.failed ∧ c.detail = b.detail ∧ c.taddr = b.taddr) ∧
    (∀ d x, fail = some (d, x) → b.fresh = true ∨ b.failed = false →
      c.failed = true ∧ c.detail = BitVec.ofNat 32 (d + 1) ∧ c.taddr = x) ∧
    (∀ d x, fail = some (d, x) → b.fresh = false → b.failed = true →
      c.failed = true ∧ c.taddr = b.taddr ∧
      c.detail = if b.detail.toNat % 256 < 255 then b.detail + 1 else b.detail)

/-- R174 to R176: the instructions of asynchronous barriers, and one arrival. -/
def Obligations.AsyncBarrierResults : Prop :=
  AsyncBarrierInstructions ∧ OneArrivalOnABarrier

/-! ## Control flow, run ends and exceptions -/

/-- R69, R78: branches. A taken branch ends the run and goes on at the word's own address plus four times the offset; one
that is not taken goes on with the next word. `bmz` and `bmnz` look only at bits of `lvm`; `call` keeps the address after
its word; `jr` needs a multiple of 4; `loop` decrements, and is taken unless the result is 0. Each costs one cycle. -/
def Obligations.BranchResults : Prop :=
  ∀ (s : State) (g : Group) (e : Bool) (c : Fld) (t : BitVec 16),
    let v := g.readS (s.cyc g) c
    let target := g.pc + BitVec.ofInt 64 (4 * t.toInt)
    let taken := fun (i : Instr) (h : Group) (pc : W64) => Issues i s g → exec i s = .next (after s h 1 pc (some .fall))
    let branch := fun (i : Instr) (p : Prop) => (p → taken i g target) ∧ (¬p → Gives i s g g 1)
    taken (.br e t) g target ∧
    branch (.bz e c t) (v = 0) ∧ branch (.bnz e c t) (v ≠ 0) ∧
    branch (.bmz e c t) (∀ k, k < 64 → ¬(v.getLsbD k = true ∧ g.lvm.getLsbD k = true)) ∧
    branch (.bmnz e c t) (∃ k, k < 64 ∧ v.getLsbD k = true ∧ g.lvm.getLsbD k = true) ∧
    taken (.call e c t) (g.writeS c (g.pc + 4)) target ∧
    (v.toNat % 4 = 0 → taken (.jr e c) g v) ∧ (v.toNat % 4 ≠ 0 → Traps (.jr e c) s g .illegalOperand 0) ∧
    (v ≠ 1 → taken (.loop e c t) (g.writeS c (v - 1)) target) ∧
    (v = 1 → Gives (.loop e c t) s g (g.writeS c 0) 1)

/-- R80 to R84, R87, R91, R92: the window, traps, run ends, system calls, event configuration and `launch`. `wbase` sets the
window to sixteen times its operand, unless that is outside the allocation; `trap` ends the run with a user trap whose
detail is its code; `exit`, `yield`, `bar` and `rtrap` are the last instruction of their run whatever their E bit; `sys`
hands s0 to s7, `world`, `tix`, `gix` and `xpc` to the control core; `evcfg` reads the window's count of its class, and
when it sets, the class's action field of `fpm`; `launch` needs an address that is a multiple of 128. That a launch waits behind
others of its partition that wait for the same queue is the model's reading (assumption log 18, DEDUCED). -/
def Obligations.SystemInstructionResults : Prop :=
  ∀ (s : State) (g : Group) (e : Bool) (a c : Fld) (k n8 : BitVec 8) (n : BitVec 5) (id q : BitVec 4) (act : BitVec 2)
    (cls : BitVec 3),
    let ends := fun (i : Instr) (how : RunEnd) =>
      Issues i s g → exec i s = .next (after s g 1 (g.pc + lengthOf i) (some how))
    let addr := g.readS (s.cyc g) a
    let args : List W64 := (List.range 8).map (fun i => g.sregs.getD i 0) ++
      [BitVec.ofNat 64 (g.part * 128 + g.ctx), BitVec.ofNat 64 g.tix, BitVec.ofNat 64 g.gix, g.runPc]
    let count := BitVec.ofNat 64 ((s.core g.core).window.getD cls.toNat 0)
    let h := g.writeS c count
    (16 * n.toNat < g.alloc → Gives (.wbase e n) s g { g with wb := 16 * n.toNat } 1) ∧
    (g.alloc ≤ 16 * n.toNat → Traps (.wbase e n) s g .wbaseRange 0) ∧
    Traps (.trap e k) s g .userTrap (k.setWidth 32) ∧
    ends (.exit e) .exit ∧ ends (.yield e) .yield ∧ ends (.bar e id) (.bar id.toNat) ∧ ends (.rtrap e) .rtrap ∧
    Hands (.sys e c n8) s g (.sys n8.toNat args c) 1 (fun w => { w with
      interrupts := w.interrupts ++ [.sysCall g.part g.core g.uid g.runIdx w.tick n8.toNat args] }) ∧
    Gives (.evcfg e c false act cls) s g h 1 ∧
    (∃ m : W64, Gives (.evcfg e c true act cls) s g { h with fpm := m } 1 ∧ ∀ j, j < 64 →
      m.getLsbD j = if j = 2 * cls.toNat + 32 then act.getLsbD 0 else if j = 2 * cls.toNat + 33 then act.getLsbD 1
        else h.fpm.getLsbD j) ∧
    (addr.toNat % 128 ≠ 0 → FailsNow (.launch e a q) s g .alignment 0 0 addr 1) ∧
    (addr.toNat % 128 = 0 → Hands (.launch e a q) s g (.launch addr q.toNat) 1 fun w =>
      w.launchIssue g.uid (g.runIdx + 32 * g.tag) q.toNat addr (s.waitsForQueue g.part q.toNat))

/-- R27, R30, R64, R72: what happens before an instruction has its own effect. A fetch that fails ends the run before it,
as a failure at its run index; words that are no instruction, and a field that is illegal or names a register outside the
allocation, are immediate traps; an instruction that reads a poisoned element has no effect, and its world ends. -/
def Obligations.WhatPrecedesAnEffect : Prop :=
  ∀ (s : State) (g : Group) (i : Instr),
    (∀ a c d, s.fetch g = .fail a c d → ∃ h, s.runGroup g = .next (s.setGroup h) ∧ h = { g with
      fails := addFailure ⟨g.runIdx, c, a, 0, BitVec.ofNat 32 (d + 1), false⟩ g.fails
      lastPc := g.pc, stat := .endRun, runEnd := .fall }) ∧
    (∀ len, s.fetch g = .illegal len → s.runGroup g = .next (after s
      { g with fails := addFailure ⟨g.runIdx, .illegalInstruction, 0, 0, 0, false⟩ g.fails } 1 (g.pc + len)
      (some .fall))) ∧
    (i.isWord = true → s.curGroup = some g → g.operandsOk i = false → exec i s = .next (after s
      { g with fails := addFailure ⟨g.runIdx, .illegalOperand, 0, 0, 0, false⟩ g.fails } 1 (g.pc + lengthOf i)
      (some .fall))) ∧
    (∀ r, i.isWord = true → s.curGroup = some g → g.operandsOk i = true → g.consumes i = some r → exec i s =
      .next (s.contain 0 [g.part * 128 + g.ctx] [] false false g.core 0 0 (some (g.runPc.toNat, g.runIdx))))

/-- R26, R28: taking a trap. The record holds the run's failures; `sel` names the lowest, whose cause `tcause` reads; `xpc` is the
run's first address; `rplq` has a bit for each index that can be replayed. A group that is not armed is armed, and goes on at
its trap vector with its masks as they were, unless a cause is the control core's: then it halts at the resume address and
the record is reported. An armed group halts, keeps its earlier record, and the new one is reported as a double trap. -/
def Obligations.TakingATrap : Prop :=
  ∀ (s : State) (g : Group) (f : Failure) (fs : List Failure) (xpc resume : W64) (pends : List Pend),
    (∀ x ∈ f :: fs, x.idx < 32) → (∀ x ∈ fs, f.idx ≤ x.idx) →
    let all := f :: fs
    let r := TrapRec.make all xpc resume pends
    r.entries = all.map (fun x => ⟨x.idx, BitVec.ofNat 64 x.cause.code, x.taddr, x.tmask, x.detail⟩) ∧ r.sel = f.idx ∧ r.tcause = BitVec.ofNat 64 f.cause.code ∧ r.xpc = xpc ∧ r.resume = resume ∧
    (∀ k, k < 64 → (r.rplq.getLsbD k = true ↔ ∃ x ∈ all, x.idx = k ∧ x.replay = true)) ∧
    (g.armed = false → (∀ x ∈ all, x.cause.control = false) →
      s.takeTrap g all xpc resume pends =
        s.setGroup { g with pc := g.trapv, stat := .ready, armed := true, trap := r, readyTime := s.tick }) ∧
    (g.armed = false → (∃ x ∈ all, x.cause.control = true) →
      s.takeTrap g all xpc resume pends =
        (s.setGroup { g with
          pc := resume, stat := .ready, halt := .trap, haltTime := s.tick, pass := 0, armed := true, trap := r }).reportList
            g.part [trapEntry g r false]) ∧
    (g.armed = true →
      s.takeTrap g all xpc resume pends =
        (s.setGroup { g with pc := resume, stat := .ready, halt := .trap, haltTime := s.tick, pass := 0 }).reportList g.part
          [trapEntry g r true])

/-- R29: returning from a trap. The trap state is disarmed. With no replay left in `rplq` the group goes on at the resume
address; with some, each goes into one run at its own index with its captured operands, for the threads that failed, at one
cycle for each thread of it and at least one, and the group goes on at the resume address after that run. With no trap
armed the group goes on after the `rtrap`. The group's earlier writes are performed before (R46), and as long as a fence of the
group holds back one of the instructions (R54, R83), the group waits at the end of its run. That the trap is disarmed when the
replay begins, and that a replay counts as issued in the step of the replay, is the model's choice (assumption log 12). -/
def Obligations.ReturningFromATrap : Prop :=
  ∀ (s : State) (g : Group),
    let w := s.performLate g.uid
    let held := ∃ p ∈ g.replaySet, ∃ f ∈ g.fences, w.outstanding g f = true ∧ w.laterOf g p.op f = true
    ((∀ l ∈ s.late, l.uid ≠ g.uid) → w = s) ∧ (∀ l ∈ w.late, l.uid ≠ g.uid) ∧
    (held → s.startReplay g = w.setGroup { g with stat := .endRun, runEnd := .rtrap }) ∧
    (g.armed = false → s.startReplay g = w.setGroup { g with stat := .ready, readyTime := w.tick, pends := [], fails := [] }) ∧
    (g.armed = true → (∀ p ∈ g.trap.replays, g.trap.rplq.getLsbD (p.idx % 32) = false) →
      s.startReplay g = w.setGroup { g with
        armed := false, pc := g.trap.resume, stat := .ready, readyTime := w.tick, pends := [], fails := [] }) ∧
    (g.armed = true → ¬held → (∃ p ∈ g.trap.replays, g.trap.rplq.getLsbD (p.idx % 32) = true) → ∃ h : Group,
      let ops := g.replaySet.map (g.trap.replayOf g.tag w.tick)
      let cost := (g.replaySet.map (g.trap.replayCost g.width.n)).sum
      h.pends = ops ∧ h.cycles = g.cycles + cost ∧ h.armed = false ∧ h.pc = g.trap.resume ∧ h.runPc = g.trap.xpc ∧
      h.stat = .endRun ∧ h.fails = [] ∧ h.vregs = g.vregs ∧ h.sregs = g.sregs ∧ h.exm = g.exm ∧ h.lvm = g.lvm ∧
      s.startReplay g = (ops.foldl (fun w p => w.reissue g.uid p) ((w.moveSent g.uid g.replaySet).setGroup h)).spend
        g.core cost) ∧
    (g.armed = true → g.replaySet = g.trap.replays.filter fun p => g.trap.rplq.getLsbD (p.idx % 32)) ∧
    (∀ q : Pend,
      let p := g.trap.replayOf g.tag s.tick q
      let named := g.trap.entries.find? fun x => x.idx == q.idx % 32
      p.idx = q.idx % 32 + 32 * g.tag ∧ p.st = .waiting ∧ p.since = s.tick ∧ p.words = q.words ∧ p.caps = q.caps ∧
      ((∀ x, named = some x → x.tmask = 0) → p.op = q.op ∧ g.trap.replayCost g.width.n q = 1) ∧
      (∀ x, named = some x → x.tmask ≠ 0 → p.op = q.op.restrict x.tmask ∧ g.trap.replayCost g.width.n q =
        max 1 ((List.range g.width.n).filter fun t => x.tmask.getLsbD t).length))

/-! ## Runs: lanes, returns, commits -/

namespace Sys2Proof.Claims

/-- A step of the device that is no instruction leads from `s` to `t`, once a retain-sleep entry that it lets end has ended
(R327). -/
def Steps (i : Instr) (s t : State) : Prop := exec i s = .next t.sleepIfDue

/-- Group `c` is the one that a free lane chooses (R258): it stands in line for the lane, and no other that does comes
before it. -/
def Chosen (s : State) (core lane : Nat) (c : Group) : Prop :=
  c ∈ s.groups ∧ s.inLine core lane c = true ∧ ∀ h ∈ s.groups, s.inLine core lane h = true → s.precedes h c = false

/-- Every instruction of a list has returned. -/
def AllReturned (ps : List Pend) : Prop := ∀ p ∈ ps, ∃ r, p.st = .done r

/-- The failures of a list of returned instructions. -/
def failuresOf (ps : List Pend) : List Failure :=
  ps.filterMap fun p => match p.st with | .done r => r.fail | _ => none

/-- A group once the results of its run are written in ascending run index, its failures with those of the run (R16). -/
def committed (g : Group) : Group := { g.commit g.pends with fails := addFailures (failuresOf g.pends) g.fails }

/-- A group that is ready for its next run since the step `tick`. -/
def readied (g : Group) (tick : Nat) : Group := { g with stat := .ready, readyTime := tick, pends := [], fails := [] }

/-- What ends a boundary of a group (R18, R260): it halts if a pre-empt command waits for it, and BUSY is set anew. -/
def settled (s : State) (g : Group) : State := (s.haltIfDue g.uid).settleBusy g.part

end Sys2Proof.Claims

/-- R19, R28, R43, R86, R87, R89, R229, R258 to R260: a free lane chooses the ready group that R258 puts first, which begins a
run at its next address, and has waited at no bank yet, unless its yielded run has returned whole and is to commit first; a
ready group of lower priority that is passed over counts it, and is promoted at 16. A return that carries its group's generation
gives its instruction its result; any other is dropped and counts as a gen-drop event. A system call's answer becomes a return
with the value. A core's event counts restart. A barrier that stalls lets its groups trap, and so does starvation for triples,
while the part's queue is short of them and its group is not halted. That a halted group is left out of both, since its wait
does not count against the limit, is the model's reading (assumption log 17, DEDUCED). -/
def Obligations.RunEvents : Prop :=
  (∀ (s : State) (core lane : Nat), (∀ g ∈ s.groups, g.core = core → g.lane = lane → g.stat ≠ .running) →
    (∃ g ∈ s.groups, s.inLine core lane g = true) → ∃ (c : Group) (n : W64), Chosen s core lane c ∧
      let turn := fun (g : Group) =>
        if g.uid = c.uid then { g with
          stat := .running, runPc := g.pc, runIdx := 0, pends := [], fails := [], pass := 0, promoted := false
          waited := false }
        else if (g.core = core ∧ g.lane = lane ∧ g.stat = .ready ∧ g.halt = .no ∧ g.spilled = none) ∧ g.prio < c.prio ∧
            c.promoted = false then
          { g with pass := g.pass + 1, promoted := g.promoted || decide (16 ≤ g.pass + 1) }
        else g
      let w := s.setCore ((s.core core).waitDone lane)
      (c.yieldedDue = true → exec (.laneChoice core lane) s = .next s) ∧
      (c.yieldedDue = false → exec (.laneChoice core lane) s = .next (State.setCore { w with groups := s.groups.map turn }
        { w.core core with cyc := (w.core core).cyc + n }))) ∧
  (∀ (s : State) (n : Nat) (r : Ret) (g : Group), s.returns[n]? = some r → s.group? r.uid = some g →
    let w := { s with returns := s.returns.eraseIdx n }
    (g.gen = r.gen → ∃ h, Steps (.asyncReturn n) s (w.setGroup h) ∧ h.vregs = g.vregs ∧ h.sregs = g.sregs ∧
      h.pends.length = g.pends.length ∧
      ∀ (k : Nat) (p : Pend), g.pends[k]? = some p →
        (p.idx = r.idx ∧ p.st = .waiting → h.pends[k]? = some { p with st := .done r.res.norm }) ∧
        (¬(p.idx = r.idx ∧ p.st = .waiting) → h.pends[k]? = some p)) ∧
    (g.gen ≠ r.gen → ∃ t, Steps (.asyncReturn n) s t ∧ t.groups = s.groups ∧ t.returns = s.returns.eraseIdx n ∧
      ∀ p, s.part? r.part = some p → ∃ q, t.part? r.part = some q ∧ q.evsum = p.evsum.set 7 (p.evsum.getD 7 0 + 1))) ∧
  (∀ (s : State) (uid idx part core x since n : Nat) (args : List W64) (v : W64) (g : Group) (ticket : Nat) (d : Fld),
    s.interrupts.find? (Interrupt.isSys uid idx) = some (.sysCall part core uid x since n args) → s.group? uid = some g →
    g.sysAt idx since = some (ticket, d) → g.halt = .no →
    exec (.sysAnswer uid idx v) s = .next { s with
      interrupts := s.interrupts.eraseP (Interrupt.isSys uid idx)
      returns := s.returns ++ [⟨uid, g.gen, ticket, g.part, g.core, (Result.scalar d v).norm⟩] }) ∧
  (∀ (s : State) (core : Nat) (p : Partition), s.parts.find? (fun p => p.holdsCore core) = some p →
    exec (.eventWindowRestart core) s = .next (if p.evwin = 0 then s else
      s.setCore { s.core core with window := List.replicate 8 0, crossed := List.replicate 8 false })) ∧
  (∀ (s : State) (team id : Nat) (t : Team) (p : Partition) (gs : List Group),
    s.team? team = some t → s.part? t.part = some p → p.stalllim ≠ 0 →
    gs = (s.groups.filter fun h => h.team == team && h.stat == .atBar id) → gs ≠ [] →
    (∀ g ∈ gs, g.halt = .no ∧ g.spilled = none) →
    let f := fun (g : Group) => (⟨g.runIdx - 1, .barrierStall, 0, 0, 0, true⟩ : Failure)
    exec (.barrierStall team id) s = .next (gs.foldl (fun w g => w.takeTrap { g with pends := [], fails := [] } [f g]
      g.runPc g.pc [⟨g.runIdx + 32 * g.tag - 1, .bar id, instrWords (.bar true (BitVec.ofNat 4 id)),
        .done { Result.empty with fail := some (f g) }, w.tick, 0, []⟩]) (s.setTeam { t with bars := t.bars.set id ⟨0, 0⟩ }))) ∧
  (∀ (s : State) (uid idx : Nat) (g : Group) (p : Partition) (c : Conv) (x : Exchange) (pt : Sys2Proof.Machine.Part),
    s.group? uid = some g → s.part? g.part = some p → p.stalllim ≠ 0 → c ∈ s.pkg.convs → x ∈ c.exchanges → pt ∈ x.parts →
    (∀ d ∈ s.pkg.convs, ∀ y ∈ d.exchanges, ∀ q ∈ y.parts, q.uid = uid → q.idx = idx → d = c ∧ y = x ∧ q = pt) →
    pt.uid = uid → pt.idx = idx → pt.withdrawn = false → pt.popped = none →
    let (q, n) := pt.op.need pt.k pt.items.length
    let short := ((c.party pt.party).queue q).length < n
    (short → g.halt = .no → exec (.tripleStarvation uid idx) s = .next
      (((s.setConv (c.setExchange (x.setPart { pt with withdrawn := true }))).gateFail uid idx .tripleStarvation
        (gateDetail c.num c.state pt.party x.kind 0) (gateMask pt.op pt.items) 0).settle c.num)) ∧
    (¬short ∨ g.halt ≠ .no → exec (.tripleStarvation uid idx) s = .next s))

/-- R16, R17, R28, R29, R81, R84, R175: the commit of a run, when everything it issued has returned and no yielded run is
outstanding. The results are written in ascending run index. Then, for a group with a live thread: failures are delivered as
one trap record; or, without a failure, the group is ready, exits, arrives at its barrier, waits for its asynchronous
barrier, or returns from its trap, as the run's last instruction says; after `yield` what is still outstanding is put aside.
That an `rtrap` whose own run has a failure delivers it and replays nothing is the model's choice (assumption log 12), and so
is that returned results which were committed before are not written again here (assumption log 17). -/
def Sys2Proof.Claims.RunCommitAtABoundary : Prop :=
  ∀ (s : State) (uid : Nat) (g : Group), s.group? uid = some g → g.stat = .endRun → g.halt = .no → g.yielded = none →
    (∀ l, s.launchOf g.part g.lid = some l → l.ending = none) → (∃ t, t < g.width.n ∧ g.lvm.getLsbD t = true) →
    (g.runEnd = .yield → ∃ t, exec (.runCommit uid) s = .next t ∧
      (g.pends = [] ∧ g.fails = [] → t = ((s.setGroup (readied g s.tick)).haltIfDue uid).sleepIfDue) ∧
      (g.pends ≠ [] ∨ g.fails ≠ [] → t = (((s.setGroup { readied g s.tick with
        yielded := some ⟨g.pends, g.fails, g.runPc⟩, tag := 1 - g.tag }).servePops uid).haltIfDue uid).sleepIfDue)) ∧
    (g.runEnd ≠ .yield → AllReturned g.pends → (∃ t, t < g.width.n ∧ (committed g).lvm.getLsbD t = true) →
      ∃ h, h = { committed g with pends := h.pends } ∧
      let none? := h.fails = []
      let goes := fun (u : State) => Steps (.runCommit uid) s (settled u g)
      (h.fails ≠ [] → (∀ n p, g.runEnd ≠ .abarWait n p) → ∃ resume : W64,
        ((∃ id, g.runEnd = .bar id) ∨ g.runEnd = .exit → resume = g.lastPc) ∧
        ((∀ id, g.runEnd ≠ .bar id) → g.runEnd ≠ .exit → resume = g.pc) ∧
        goes (s.takeTrap { h with pends := [], fails := [] } h.fails g.runPc resume h.pends)) ∧
      (none? → g.runEnd = .fall ∨ g.runEnd = .replay → goes (s.setGroup (readied h s.tick))) ∧
      (none? → g.runEnd = .exit → goes (s.exitGroup h)) ∧
      (none? → g.runEnd = .rtrap → goes (s.startReplay h)) ∧
      (none? → ∀ id t, g.runEnd = .bar id → s.team? g.team = some t →
        let b := t.bars.getD id ⟨0, 0⟩
        goes (((s.setTeam { t with bars := t.bars.set id ⟨b.arrivals + 1, b.stall⟩ }).setGroup
          { h with stat := .atBar id, pends := [], fails := [] }).releaseBars t.uid)) ∧
      (∀ n p t, g.runEnd = .abarWait n p → s.team? g.team = some t →
        ((t.abar n).phase = p → goes (s.setGroup { h with stat := .atAbar n p })) ∧
        ((t.abar n).phase ≠ p → goes (s.endWait h n))))

/-- R17: the yielded run of a group commits at the first run boundary after everything it issued has returned: its results
are written in ascending run index, over those of the run that ends there, which are written first, and without a failure the
group goes on as it was; with one, its trap record is delivered there: between two runs the run that would have followed is
the resume address, and at the end of a run the last instruction where its effect is still to come. That the wait of an `rtrap`
or of an asynchronous barrier is still to come is the model's choice (assumption log 12). -/
def Sys2Proof.Claims.YieldedRunCommits : Prop :=
  ∀ (s : State) (uid : Nat) (g : Group) (y : Yielded), s.group? uid = some g → g.yielded = some y → AllReturned y.pends →
    g.halt = .no → g.spilled = none → (∀ l, s.launchOf g.part g.lid = some l → l.ending = none) →
    let fs := addFailures (failuresOf y.pends) y.fails
    let k := if g.stat = .endRun then g.commitOwn else g
    let h := { k.commit y.pends with yielded := none }
    (fs = [] → g.stat = .ready ∨ (g.stat = .endRun ∧ AllReturned g.pends) →
      Steps (.yieldedRunCommit uid) s (settled (s.setGroup h) g)) ∧
    (fs ≠ [] → g.stat = .ready → Steps (.yieldedRunCommit uid) s
      (settled (s.takeTrap { h with pends := [], fails := [] } fs y.xpc g.pc y.pends) g)) ∧
    (fs ≠ [] → g.stat = .endRun → AllReturned g.pends → h.fails = [] →
      (∃ t, t < g.width.n ∧ g.lvm.getLsbD t = true) → ∃ resume : W64,
      (g.runEnd = .exit ∨ g.runEnd = .rtrap ∨ (∃ id, g.runEnd = .bar id) ∨ (∃ n p, g.runEnd = .abarWait n p) →
        resume = g.lastPc) ∧
      (g.runEnd = .fall ∨ g.runEnd = .replay ∨ g.runEnd = .yield → resume = g.pc) ∧
      Steps (.yieldedRunCommit uid) s
        (settled (s.takeTrap { h with pends := [], fails := [] } fs y.xpc resume y.pends) g))

/-- R81, R84: an exit frees the group and counts it as arrived at every barrier of its team; a barrier of a team at which
every group of the team that has not exited has arrived releases them, and begins its next phase. -/
def Sys2Proof.Claims.ExitsAndTeamBarriers : Prop :=
  (∀ (s : State) (g : Group), (s.exitGroup g).group? g.uid = none) ∧
  ∀ (s : State) (team : Nat) (t : Team), s.team? team = some t →
    let due := fun (b : Bar) => b.arrivals ≠ 0 ∧ t.ngroups ≤ b.arrivals + t.exited
    let u := s.releaseBars team
    (∀ id, id < t.bars.length → ∃ x, u.team? team = some x ∧
      (due (t.bars.getD id ⟨0, 0⟩) → x.bars.getD id ⟨0, 0⟩ = ⟨0, 0⟩) ∧
      (¬due (t.bars.getD id ⟨0, 0⟩) → x.bars.getD id ⟨0, 0⟩ = t.bars.getD id ⟨0, 0⟩)) ∧
    u.groups.length = s.groups.length ∧
    ∀ k (hk : k < s.groups.length),
      let free := ∃ id, s.groups[k].stat = .atBar id ∧ s.groups[k].team = team ∧ due (t.bars.getD id ⟨0, 0⟩)
      (free → u.groups[k]? = some (readied s.groups[k] s.tick)) ∧ (¬free → u.groups[k]? = some s.groups[k])

/-- R16, R17, R28, R29, R81, R84, R175: the commit of a run and of a yielded run, exits, and team barriers. Where a yielded
run's failure finds an `rtrap` or a wait, the resume address is assumption log 12; early commits are assumption log 17. -/
def Obligations.RunsEndAtBoundaries : Prop :=
  RunCommitAtABoundary ∧ YieldedRunCommits ∧ ExitsAndTeamBarriers

/-! ## Engines and buffers by themselves -/

namespace Sys2Proof.Claims

/-- An engine accepts an operation from `s` to `t` (R171): an `mmloop` at the end of the matrix queue, another in the lowest
free copy slot; a push is assigned the next slot of its ring (R194), and a copy of length 0 that is aligned arrives (R186). -/
def Accepts (s : State) (core : Nat) (e : EngEntry) (t : State) : Prop :=
  match e.op with
  | .mmloop _ _ _ _ _ _ _ _ => t = s.setCore { s.core core with matrix := (s.core core).matrix ++ [e] }
  | .cpy dst src len dsp ssp ab =>
    (len = 0 ∧ copyMisfit dst src len dsp ssp = none → t = s.countArrival e.team ab none []) ∧
    (¬(len = 0 ∧ copyMisfit dst src len dsp ssp = none) → ∃ k, LowestCopySlot s core k ∧ t = inCopySlot s core e k)
  | .cunpack _ _ _ _ _ _ _ _ => ∃ k, LowestCopySlot s core k ∧ t = inCopySlot s core e k
  | .cbpush buf src len ssp _ => ∃ k, LowestCopySlot s core k ∧ ∀ (m : Team) (c : CBuf),
      s.team? e.team = some m → m.buf buf = some c →
      let next := { c with nextAssign := (c.nextAssign + 1) % c.slots.length }
      t = inCopySlot (s.setTeam { m with bufs := m.bufs.set buf (some next) }) core
        { e with op := .cbpush buf src len ssp (some c.nextAssign) } k

/-- There is a matrix-queue entry or a copy slot for an operation (R171). -/
def EngineHasRoom (s : State) (core : Nat) (op : EngOp) : Prop :=
  if op.isMatrix = true then (s.core core).matrix.length < 16
  else ∃ k, k < 64 ∧ ∀ e ∈ (s.core core).copies, e.1 ≠ k

/-- A core without the operation of a copy slot. -/
def slotGone (s : State) (core slot : Nat) : State :=
  s.setCore { s.core core with copies := (s.core core).copies.filter fun e => e.1 != slot }

end Sys2Proof.Claims

/-- R171: an operation that waits is accepted once there is room. That a group's operations for one resource are accepted in
their order, and that a copy slot is the lowest free one, is the model's choice (assumption log 4). -/
def Sys2Proof.Claims.EngineAccepts : Prop :=
  ∀ (s : State) (uid : Nat) (g : Group) (l1 l2 : List Pend) (p : Pend) (op : EngOp) (fpm xpc : W64),
    s.group? uid = some g → g.issued = l1 ++ p :: l2 → p.op = .engine op fpm xpc → p.st = .waiting →
    EngineHasRoom s g.core op →
    (∀ q ∈ l1, q.st = .waiting → ∀ o f x, q.op = .engine o f x → o.isMatrix ≠ op.isMatrix ∧ ¬EngineHasRoom s g.core o) →
    ∃ t, Accepts s g.core ⟨op, g.team, g.part, g.ctx, g.lid, g.uid, g.gix, p.idx % 32, xpc, fpm, g.width, false, p.since,
      MmDone.start, none, [], g.fences.filter fun f => f.since < p.since⟩ t ∧
      exec (.engineAccept uid) s = .next (t.finish uid p.idx Result.empty)

/-- R179, R180, R182, R184: the operation at the head of a matrix queue completes, whatever row grants it has had before: it
leaves the queue, its updates are visible, its events are counted, and it arrives on its barrier, unless it reads a slice line
that holds an uncorrectable error, which it consumes (R344). A misaligned C or B fails it with no update, B being looked at
after C by the model's choice (assumption log 30); it fails on nothing when all rows of C and of its tiles lie in the window; and
it writes no byte but those of the rows of C. -/
def Sys2Proof.Claims.MatrixLoopCompletes : Prop :=
  ∀ (s : State) (core : Nat) (e : EngEntry) (rest : List EngEntry) (x : Matrix) (ab : Nat) (t : Team),
    (s.core core).matrix = e :: rest → e.matrix = some (x, ab) → s.team? e.team = some t →
    let u := s.setCore { s.core core with matrix := rest }
    let r := x.run s t e.width.n e.mm
    (s.sliceErrs = [] → ∃ o f, r = .done o f) ∧
    (∀ l, r = .poison l → Steps (.mmloopComplete core) s (s.consumeEngine e l)) ∧
    ∀ o f, r = .done o f →
      let v := State.engineEvents { u with slices := o.slices } core e 0 o.nans
      let w := v.1.engineEvents core e 1 o.infs
      Steps (.mmloopComplete core) s (w.1.arriveFor e ab f (v.2 ++ w.2)) ∧
      (x.c % 64 ≠ 0 → f = some (.alignment, BitVec.ofNat 64 x.c) ∧ o.slices = s.slices) ∧
      (x.c % 64 = 0 → x.b % 64 ≠ 0 → f = some (.alignment, BitVec.ofNat 64 x.b) ∧ o.slices = s.slices) ∧
      (x.c % 64 = 0 → x.b % 64 = 0 → (∀ q, q < 4 * e.width.n → t.window (x.c + 64 * q) 64 ≠ none) →
        (∀ j q, j < x.nk → q < 32 → t.window (x.b + j * x.binc * 64 + 64 * q) 64 ≠ none) → f = none) ∧
      (∀ a, (∀ q b, q < 4 * e.width.n → t.window (x.c + 64 * q) 64 = some b → a < b ∨ b + 64 ≤ a) →
        o.slices.read a = s.slices.read a)

namespace Sys2Proof.Claims

/-- What the slice window of a team holds at an offset: a number of `n` bytes (R34). -/
def windowNat (m : Memory) (t : Team) (o n : Nat) : Nat := match t.window o n with
  | some a => leNat (m.readN a n)
  | none => 0

/-- A element (m, kj + i) of a matrix loop: half i mod 2 of a register, or a register in ring-32 (R179, Table 5). -/
def elemA (x : Matrix) (m j i : Nat) : Nat :=
  if x.mode = 2 then ((x.regs.getD (8 * j + i) []).getD m 0).toNat
  else ((x.regs.getD (8 * j + i / 2) []).getD m 0).toNat / 2 ^ (16 * (i % 2)) % 2 ^ 16

/-- B element (kj + i, n) of a matrix loop (R179, Table 5). -/
def elemB (s : State) (t : Team) (x : Matrix) (j i n : Nat) : Nat :=
  if x.mode = 2 then windowNat s.slices t (x.b + j * x.binc * 64 + 256 * i + 4 * n) 4
  else windowNat s.slices t (x.b + j * x.binc * 64 + 128 * i + 2 * n) 2

/-- `y` is S_j of R127 for the 16 factors of a step: the exact sum of the exact products rounded once; 0x7FC00000 when a product
is not a number or infinite products have both signs; else an infinite product's infinity. -/
def IsStepSum (as bs : Nat → Nat) (y : Nat) : Prop :=
  let nan := fun k : Nat => 0x7F80 < k % 2 ^ 15
  let inf := fun k : Nat => k % 2 ^ 15 = 0x7F80
  let zero := fun k : Nat => k % 2 ^ 15 = 0
  let bad := ∃ i, i < 16 ∧ (nan (as i) ∨ nan (bs i) ∨ inf (as i) ∧ zero (bs i) ∨ zero (as i) ∧ inf (bs i))
  let big := fun n : Bool => ∃ i, i < 16 ∧ (inf (as i) ∨ inf (bs i)) ∧ ((as i).testBit 15 ^^ (bs i).testBit 15) = n
  let v := fun k => ((valueOf bf16 k : Rat) : ℝ)
  let sum := ∑ i ∈ Finset.range 16, v (as i) * v (bs i)
  (bad ∨ big true ∧ big false → y = 0x7FC00000) ∧
  (∀ n, ¬bad → big n → ¬big (!n) → y = if n = true then 0xFF800000 else 0x7F800000) ∧
  (¬bad → ¬big true → ¬big false → ∃ r : FRes, r.x = y ∧ RoundsTo fp32 .rne sum r ∧
    (r.fl.ovf = true → y = if sum < 0 then 0xFF800000 else 0x7F800000))

/-- The sum p of the steps of group `g` of four (R127), in ascending order, with one rounding each. -/
def groupSum (S : Nat → Nat) (nk g : Nat) : Nat :=
  (((List.range 3).map fun i => 4 * g + 1 + i).filter fun j => j < nk).foldl (fun p j => (fp32.add .rne p (S j)).x) (S (4 * g))

/-- An accumulator element with a sum added: every NaN is 0x7FC00000 (R127). -/
def accumulated (acc p : Nat) : Nat :=
  let r := (fp32.add .rne acc p).x
  if 0x7F800000 < r % 2 ^ 31 then 0x7FC00000 else r

/-- The rows of the accumulator lie in the window of the team, and apart from each other and from the tiles of the second group of
steps, which the loop reads when it has updated the accumulator once (R183); the tiles lie in the window too. -/
def LaidOut (t : Team) (w : Nat) (x : Matrix) : Prop :=
  x.c % 64 = 0 ∧ x.b % 64 = 0 ∧ 1 ≤ x.nk ∧ x.nk ≤ 8 ∧ x.mode < 3 ∧
  (∀ q, q < 4 * w → t.window (x.c + 64 * q) 64 ≠ none) ∧
  (∀ j q, j < x.nk → q < 32 → t.window (x.b + j * x.binc * 64 + 64 * q) 64 ≠ none) ∧
  (∀ q r a b, q < r → r < 4 * w → t.window (x.c + 64 * q) 64 = some a → t.window (x.c + 64 * r) 64 = some b →
    a + 64 ≤ b ∨ b + 64 ≤ a) ∧
  (∀ j q r a b, 4 ≤ j → j < x.nk → q < 4 * w → r < 32 → t.window (x.c + 64 * q) 64 = some a →
    t.window (x.b + j * x.binc * 64 + 64 * r) 64 = some b → a + 64 ≤ b ∨ b + 64 ≤ a)

end Sys2Proof.Claims

/-- R127, R179, R180: the values that a matrix loop writes. Accumulator element (m, n) stands at C + 256m + 4n; in BF16 its prior
value, 0 with z, is updated with the sum of each group of four steps; in the ring modes it is the prior value and all products
summed modulo 2^16 or 2^32, the word's other bits being 0 (R113). However many row grants the loop has had when it completes, the
values are these. -/
def Sys2Proof.Claims.MatrixLoopValues : Prop :=
  ∀ (s : State) (t : Team) (w : Nat) (x : Matrix), s.sliceErrs = [] → LaidOut t w x → 0 < w →
    ∃ (o : MmOut) (S : Nat → Nat → Nat → Nat), x.run s t w MmDone.start = .done o none ∧
      (∀ n, let d := x.grants t w n (s.slices, MmDone.start)
        x.run { s with slices := d.1 } t w d.2 = .done o none) ∧
      (x.mode = 0 → ∀ m n j, m < w → n < 64 → j < x.nk →
        IsStepSum (elemA x m j) (fun i => elemB s t x j i n) (S m n j)) ∧
      ∀ m n, m < w → n < 64 →
        let prior := if x.z = true then 0 else windowNat s.slices t (x.c + 256 * m + 4 * n) 4
        let once := accumulated prior (groupSum (S m n) x.nk 0)
        let products := fun k => ((List.range x.nk).map fun j =>
          ((List.range k).map fun i => elemA x m j i * elemB s t x j i n).sum).sum
        windowNat o.slices t (x.c + 256 * m + 4 * n) 4 =
          if x.mode = 0 then (if x.nk ≤ 4 then once else accumulated once (groupSum (S m n) x.nk 1))
          else if x.mode = 1 then (prior + products 16) % 2 ^ 16 else (prior + products 8) % 2 ^ 32

/-- R127, R171, R179, R180, R182, R184: waiting operations are accepted by their engine, and a matrix operation completes, with the
values that it gives its accumulator. The order of waiting operations and the lowest free copy slot are assumption log 4, C before
B is assumption log 30. -/
def Obligations.EngineQueueEvents : Prop :=
  EngineAccepts ∧ MatrixLoopCompletes ∧ MatrixLoopValues

/-- R49, R54, R185 to R187: an operation of the copy engine ends: its slot is free, and it arrives on its barrier. A copy that
fails by its length or its operands, or of which a part has failed before, copies nothing more; one whose source is readable and whose
destination is writable moves every byte, unless a fence that its group had executed before it holds back some of its units, when it
waits; one with a remote source or destination sends its packet, and ends with the answer. An unpack ends in the same way. By the
model's choice the remote side of a copy, where no part of it was sent before, is one packet with a thread for each unit (assumption
log 15), and an unpack looks at the scale's layout before the alignment of its
source (assumption log 30). -/
def Sys2Proof.Claims.CopiesComplete : Prop :=
  (∀ (s : State) (core slot : Nat) (e : EngEntry) (dst src len : W64) (dsp ssp ab : Nat),
    s.copyEntry core slot = some e → e.op = .cpy dst src len dsp ssp ab → s.bulkOut core slot = false →
    (∀ c a, copyMisfit dst src len dsp ssp = some (c, a) →
      Steps (.copyComplete core slot) s ((slotGone s core slot).arriveFor e ab (some (c, a)) [])) ∧
    (∀ pls qls, copyMisfit dst src len dsp ssp = none → dsp ≠ 3 → ssp ≠ 3 →
      s.side e ssp .read src.toNat len.toNat = .ok pls → s.side e dsp .write dst.toNat len.toNat = .ok qls →
      s.badIn pls = none → rangesMeet pls qls = false → e.moved = [] → e.fail = none → len ≠ 0 →
      s.heldBack e (unitsOf dst.toNat len.toNat) = false →
      Steps (.copyComplete core slot) s
        ((slotGone (s.writeRange qls (s.readRange pls)) core slot).arriveFor e ab none [])) ∧
    (copyMisfit dst src len dsp ssp = none → e.moved = [] → e.fail = none → len ≠ 0 →
      s.heldBack e (unitsOf dst.toNat len.toNat) = true → Steps (.copyComplete core slot) s s) ∧
    (∀ c a, copyMisfit dst src len dsp ssp = none → e.fail = some (c, a) →
      Steps (.copyComplete core slot) s ((slotGone s core slot).arriveFor e ab (some (c, a)) [])) ∧
    (∀ t, copyMisfit dst src len dsp ssp = none → dsp ≠ 3 → ssp = 3 → src.toNat < 2 ^ 60 → e.moved = [] → e.fail = none →
      len ≠ 0 → s.heldBack e (unitsOf dst.toNat len.toNat) = false →
      s.rankOf e.part e.ctx e.lid (src.toNat / 2 ^ 48) = some t →
      Steps (.copyComplete core slot) s ((s.sendBulk e core slot (src.toNat / 2 ^ 48) t (.bulkRead len.toNat)
        ((unitsOf dst.toNat len.toNat).map fun u => ⟨u.1, BitVec.ofNat 64 (src.toNat % 2 ^ 48 + u.1), []⟩)).setCopy core slot
          { e with started := true, fail := none })) ∧
    (∀ t pls, copyMisfit dst src len dsp ssp = none → dsp = 3 → dst.toNat < 2 ^ 60 → e.moved = [] → e.fail = none → len ≠ 0 →
      s.heldBack e (unitsOf dst.toNat len.toNat) = false →
      s.rankOf e.part e.ctx e.lid (dst.toNat / 2 ^ 48) = some t →
      s.side e ssp .read src.toNat len.toNat = .ok pls → s.badIn pls = none →
      Steps (.copyComplete core slot) s ((s.sendBulk e core slot (dst.toNat / 2 ^ 48) t .bulkWrite
        ((unitsOf (dst.toNat % 2 ^ 48) len.toNat).map fun u => ⟨u.1, BitVec.ofNat 64 (dst.toNat % 2 ^ 48 + u.1),
          ((s.readRange pls).drop u.1).take u.2⟩)).setCopy core slot { e with started := true, fail := none }))) ∧
  (∀ (s : State) (core slot : Nat) (e : EngEntry) (dst src scale : W64) (sl : Bool) (rows gran ty ab : Nat),
    s.copyEntry core slot = some e → e.op = .cunpack dst src scale sl rows gran ty ab →
    (gran ≠ 0 → scale.toNat % (if gran = 2 then 1024 else 512) ≠ 0 → Steps (.copyComplete core slot) s
      ((slotGone s core slot).arriveFor e ab (some (.scaleLayout, scale)) [])) ∧
    (gran = 0 ∨ scale.toNat % (if gran = 2 then 1024 else 512) = 0 → src.toNat % 64 ≠ 0 →
      Steps (.copyComplete core slot) s ((slotGone s core slot).arriveFor e ab (some (.alignment, src)) [])) ∧
    (∀ w f n, s.unpackRun e ⟨dst.toNat, src.toNat, scale.toNat, sl, rows, gran, ty⟩ = .done w f n →
      let u := (slotGone w core slot).engineEvents core e 5 n
      Steps (.copyComplete core slot) s (u.1.arriveFor e ab f u.2)))

/-- R175, R194, R196: a push begins to fill its slot once that is free, and ends by marking it filled, or failed with its
detail, and serving a pop that waits for it. An arrival of a group is counted, one at a time; slots that `cbfree` gave back
become free. -/
def Sys2Proof.Claims.BufferAndBarrierEvents : Prop :=
  (∀ (s : State) (core slot : Nat) (e : EngEntry) (i k ssp : Nat) (src len : W64) (t : Team) (c : CBuf),
    s.copyEntry core slot = some e → e.op = .cbpush i src len ssp (some k) → s.team? e.team = some t → t.buf i = some c →
    let put := fun (w : State) (st : SlotSt) =>
      w.setTeam { t with bufs := t.bufs.set i (some { c with slots := c.slots.set k st }) }
    (e.started = false → c.slots.getD k .popped = .free → (s.core core).firstFor slot e.team i k = true → ssp ≠ 3 →
      exec (.cbFillStart core slot) s = .next ((put s .assigned).setCopy core slot { e with started := true })) ∧
    (e.started = true → s.bulkOut core slot = false → ssp ≠ 3 →
      (∀ x a, copyMisfit 0 src len 1 ssp = some (x, a) → Steps (.cbFillComplete core slot) s
        ((put (slotGone s core slot)
          (.failed (BitVec.ofNat 32 (asyncDetail x e.idx 3 e.gix + 1)) a)).servePop t.uid i k)) ∧
      (∀ pls qls, copyMisfit 0 src len 1 ssp = none → s.side e ssp .read src.toNat len.toNat = .ok pls →
        s.side e 1 .write (c.base + k * c.size * 64) len.toNat = .ok qls → s.badIn pls = none → rangesMeet pls qls = false →
        Steps (.cbFillComplete core slot) s ((put (slotGone (s.writeRange qls (s.readRange pls)) core slot)
          .filled).servePop t.uid i k)))) ∧
  (∀ (s : State) (team n : Nat) (t : Team), s.team? team = some t → (t.abar n).arrivals ≠ 0 →
    let b := { t.abar n with arrivals := (t.abar n).arrivals - 1 }
    exec (.abarArrivalCount team n) s =
      .next ((s.setTeam { t with abars := t.abars.set n b }).countArrival team n none [])) ∧
  (∀ (s : State) (team i : Nat) (t : Team) (c : CBuf), s.team? team = some t → t.buf i = some c → ∃ d : CBuf,
    exec (.cbfreeSlotFreed team i) s = .next (s.setTeam { t with bufs := t.bufs.set i (some d) }) ∧
    d = { c with slots := d.slots } ∧ d.slots.length = c.slots.length ∧ ∀ (k : Nat) (x : SlotSt), c.slots[k]? = some x →
      d.slots[k]? = some (if x = .freeing then .free else x))

namespace Sys2Proof.Claims

/-- `v` is the value of a posit8 byte that is neither 0 nor NaR, as the pseudocode of R118 gives it: `m` is the length of the run
that starts at bit 6, and the bits below it and its end hold e and f. -/
def IsPosit (p : Nat) (v : Rat) : Prop :=
  let q := if p.testBit 7 = true then 256 - p else p
  ∃ m : Nat, 1 ≤ m ∧ m ≤ 7 ∧ (∀ i, i < m → q.testBit (6 - i) = q.testBit 6) ∧ (m < 7 → q.testBit (6 - m) ≠ q.testBit 6) ∧
    let k : Int := if q.testBit 6 = true then (m : Int) - 1 else -(m : Int)
    let rest : Nat := q % 2 ^ (6 - m)
    let e : Nat := rest * 4 / 2 ^ (6 - m)
    let nf : Nat := 6 - m - 2
    v = (if p.testBit 7 = true then -1 else 1) * (16 : Rat) ^ k * (2 : Rat) ^ e * (1 + ((rest % 2 ^ nf : Nat) : Rat) / (2 : Rat) ^ nf)

/-- The width of an element by its type code (R116, Table 3). -/
def widthOf (ty : Nat) : Nat := if ty = 0 ∨ ty = 1 ∨ ty = 5 then 8 else if ty = 4 then 4 else 6

/-- `v` is the value of an element that is finite, by its type code (R116, R118, Table 3): sign, exponent and mantissa with the
format's bias, a biased exponent of 0 being subnormal; or a posit. -/
def IsElement (ty x : Nat) (v : Rat) : Prop :=
  let mant : Nat := if ty = 0 ∨ ty = 3 then 3 else if ty = 4 then 1 else 2
  let bias : Int := if ty = 0 then 7 else if ty = 1 then 15 else if ty = 2 then 3 else 1
  let mag := x % 2 ^ (widthOf ty - 1)
  let ex := mag / 2 ^ mant
  let size := if ex = 0 then (mag : Rat) * (2 : Rat) ^ (1 - bias - mant)
    else ((2 ^ mant + mag % 2 ^ mant : Nat) : Rat) * (2 : Rat) ^ ((ex : Int) - bias - mant)
  if ty = 5 then x = 0 ∧ v = 0 ∨ IsPosit x v
  else v = if x.testBit (widthOf ty - 1) = true then -size else size

/-- `y` is what the element `x` unpacks to in BF16 under a scale byte, no scale standing for 1, with an unpack-overflow event or
without (R119, R120, Table 4). -/
def IsUnpacked (ty x : Nat) (scale : Option Nat) (y : Nat) (event : Bool) : Prop :=
  let sign := if x.testBit (widthOf ty - 1) = true then 2 ^ 15 else 0
  let nan := ty = 0 ∧ x % 2 ^ 7 = 0x7F ∨ ty = 1 ∧ 0x7C < x % 2 ^ 7 ∨ ty = 5 ∧ x = 0x80
  let inf := ty = 1 ∧ x % 2 ^ 7 = 0x7C
  (scale = some 0xFF ∨ nan → y = 0x7FC0 + sign ∧ event = false) ∧
  (scale ≠ some 0xFF → inf → y = 0x7F80 + sign ∧ event = false) ∧
  (scale ≠ some 0xFF → ¬nan → ¬inf → ∃ v, IsElement ty x v ∧
    let z := match scale with
      | some b => v * (2 : Rat) ^ ((b : Int) - 127)
      | none => v
    (valueOf bf16 bf16.maxMag < |z| → y = 0x7F80 + sign ∧ event = true) ∧
    (|z| ≤ valueOf bf16 bf16.maxMag → y / 2 ^ 15 * 2 ^ 15 = sign ∧ event = false ∧
      ((∃ k : Int, z = k * (2 : Rat) ^ (-133 : Int)) ∨ (2 : Rat) ^ (-126 : Int) ≤ |z| → valueOf bf16 y = z) ∧
      ∃ r : FRes, r.x = y ∧ r.fl.ovf = false ∧ RoundsTo bf16 .rne (z : ℝ) r))

end Sys2Proof.Claims

/-- R117, R119, R120, R189: the values and the layout that an unpack of readable rows writes, where its destination lies in the
slice window apart from what it reads. Element i of row r is the r-th row's bits from i·n on, and its scale the byte that the
layout of scales gives; what it unpacks to stands in panel i div 64, in the BF16 row r of that panel. Its events are the
elements that overflow. -/
def Sys2Proof.Claims.UnpackedValues : Prop :=
  ∀ (s : State) (e : EngEntry) (t : Team) (x : Unpack) (src : Nat → List (Place × Nat)) (sc : Nat → Nat → List (Place × Nat))
      (out : Nat → Nat), s.team? e.team = some t → x.ty ≤ 5 → x.gran ≤ 3 → x.rows ≤ 128 → x.src % 64 = 0 → x.dst % 128 = 0 →
    (x.gran ≠ 0 → x.scale % (if x.gran = 2 then 1024 else 512) = 0) →
    let n := widthOf x.ty
    let space := if x.srcSlice = true then 1 else 0
    let scaleAt := fun r i : Nat =>
      let (tile, kb) := if x.gran = 1 then (0, i / 32) else if x.gran = 2 then (i / 64, i / 16 % 4) else (0, 0)
      x.scale + 512 * tile + r % 32 * 16 + r / 32 * 4 + kb
    (∀ r, r < x.rows → s.side e space .read (x.src + r * (16 * n)) (16 * n) = .ok (src r) ∧ s.badIn (src r) = none) →
    (x.gran ≠ 0 → ∀ r i, r < x.rows → i < 128 →
      s.side e space .read (scaleAt r i) 1 = .ok (sc r i) ∧ s.badIn (sc r i) = none) →
    (∀ k, k < 16 * x.rows → t.window (x.dst + 16 * k) 16 = some (out k)) →
    (∀ k l, k < l → l < 16 * x.rows → out k + 16 ≤ out l ∨ out l + 16 ≤ out k) →
    (∀ k r i, k < 16 * x.rows → r < x.rows → i < 128 → rangesMeet (src r) [(.slice (out k), 16)] = false ∧
      (x.gran ≠ 0 → rangesMeet (sc r i) [(.slice (out k), 16)] = false)) →
    ∃ (u : State) (Y : Nat → Nat → Nat) (V : Nat → Nat → Bool),
      s.unpackRun e x = .done u none ((List.range x.rows).map fun r => ((List.range 128).filter (V r)).length).sum ∧
      ∀ r i, r < x.rows → i < 128 →
        IsUnpacked x.ty (leNat (s.readRange (src r)) / 2 ^ (i * n) % 2 ^ n)
          (if x.gran = 0 then none else some (leNat (s.readRange (sc r i)))) (Y r i) (V r i) ∧
        ∃ a, t.window (x.dst + i / 64 * (x.rows * 128) + r * 128 + 2 * (i % 64)) 2 = some a ∧
          leNat (u.slices.readN a 2) = Y r i

/-- R120, R175, R185 to R189, R194, R196: the copy engine's operations end, an unpack with the values that it writes; buffers
fill; arrivals are counted. -/
def Obligations.CopyAndBufferEvents : Prop :=
  CopiesComplete ∧ UnpackedValues ∧ BufferAndBarrierEvents

/-! ## Launches and placement -/

namespace Sys2Proof.Claims

/-- A record's dependence holds with some event counters (R254). -/
def DepHolds (evcnt : List W64) (d : Option (Nat × Nat)) : Prop := ∀ c n, d = some (c, n) → n ≤ (evcnt.getD c 0).toNat

/-- `q` is `p` with the record of a launch accepted at the end of queue `k` (R251): the next launch number, dependences that
hold at once, nothing placed. -/
def Accepted (p q : Partition) (ctx k : Nat) (r : Record) (ranks : List RankEntry) (rank : Nat) : Prop :=
  ∃ l : Launch, q = { p with launches := p.launches ++ [l], nextLid := p.nextLid + 1 } ∧
    l.lid = p.nextLid ∧ l.ctx = ctx ∧ l.queue = k ∧ l.record = r ∧ l.ranks = ranks ∧ l.rank = rank ∧ l.placed = 0 ∧
    l.complete = 0 ∧ l.queued = true ∧ l.preempted = false ∧ l.slots = [] ∧ l.ending = none ∧
    l.gone = [] ∧ l.recheck = false ∧ l.held.length = r.deps.length ∧
    ∀ (i : Nat) (d : Option (Nat × Nat)), r.deps[i]? = some d → ∃ b : Bool, l.held[i]? = some b ∧ (b = true ↔ DepHolds p.evcnt d)

/-- A record that failed its checks (R252, R255): BAD of its queue, BADADDR and BADWHY, a list that tells its fate, whose
HEAD cause is free (log 23), and an interrupt. -/
def rejected (s : State) (p : Partition) (k ctx : Nat) (addr : W64) (why : Nat) : State :=
  let w := worldId p.num ctx
  let u := (s.setPart { p with
    queues := p.queues.mapIdx fun i x => if i = k then { x with bad := true } else x
    badaddr := addr, badwhy := why }).reportList p.num
      [(Why.plain ((Config.freeW32 12 s.tick k).toNat % 256)).head w, ⟨2, w, [k * 2 ^ 16 + 3 * 2 ^ 20, 0, 0]⟩]
  { u with interrupts := u.interrupts ++ [.badRecord p.num k] }

end Sys2Proof.Claims

/-- R251, R252, R92: a doorbell write to a full queue, or while launches are stopped, sets DROP; one whose context does not
exist is bad with reason 9, and one whose address is misaligned or not readable with reason 10; a record that fails its
checks is bad with their reason; and one that passes is accepted. A `launch` that waited goes on once its queue has room and
the group's earlier accesses are performed: a record that cannot be read fails the instruction, and one that was read is
checked, its context first, and accepted or found bad, and the instruction returns. Until then it waits. That a launch's record
is read before any check of Table 3 is the model's choice (assumption log 18): R252 says that nothing is read of a record that
is bad with reason 9. The HEAD cause of the list on a bad record is free (assumption log 23). -/
def Sys2Proof.Claims.RecordsAccepted : Prop :=
  ∀ (s : State) (p : Partition) (part q : Nat), s.part? part = some p → q < 16 →
    let ctx := p.queueCtx q
    (∀ addr : W64,
      (s.launchesStop = true ∨ 64 ≤ (p.inQueue q).length → exec (.lqdoor part q addr) s = .next (s.setPart
        { p with queues := p.queues.mapIdx fun i x => if i = q then { x with drop := true } else x })) ∧
      (s.launchesStop = false → (p.inQueue q).length < 64 →
        ((∀ c ∈ p.contexts, c.id ≠ ctx) → exec (.lqdoor part q addr) s = .next (rejected s p q ctx addr 9)) ∧
        ((∃ c ∈ p.contexts, c.id = ctx) →
          (addr.toNat % 128 ≠ 0 → exec (.lqdoor part q addr) s = .next (rejected s p q ctx addr 10)) ∧
          (addr.toNat % 128 = 0 →
            (∀ c d a, s.readCtx part ctx addr.toNat 128 = .fail c d a →
              exec (.lqdoor part q addr) s = .next (rejected s p q ctx addr 10)) ∧
            (∀ bs why, s.readCtx part ctx addr.toNat 128 = .bytes bs → s.checkRecord p ctx bs = .bad why →
              exec (.lqdoor part q addr) s = .next (rejected s p q ctx addr why)) ∧
            (∀ bs r ranks rank, s.readCtx part ctx addr.toNat 128 = .bytes bs →
              s.checkRecord p ctx bs = .ok r ranks rank → ∃ u, Accepted p u ctx q r ranks rank ∧
                exec (.lqdoor part q addr) s = .next (s.setPart u)))))) ∧
    (∀ (g : Group) (w : Pend) (addr : W64), s.group? g.uid = some g → g.part = part → g.issued = [w] → w.st = .waiting →
      w.op = .launch addr q →
      let goesOn := fun (u : State) => exec (.launchRecordAccept g.uid) s = .next (u.finish g.uid w.idx Result.empty)
      (64 ≤ (p.inQueue q).length ∨ s.launchesStop = true ∨ s.outstanding g ⟨6, 7, 7, w.since⟩ = true →
        exec (.launchRecordAccept g.uid) s = .next s) ∧
      ((p.inQueue q).length < 64 → s.launchesStop = false → s.outstanding g ⟨6, 7, 7, w.since⟩ = false →
        (∀ c d a, s.readCtx part g.ctx addr.toNat 128 = .fail c d a → exec (.launchRecordAccept g.uid) s = .next
          (s.finish g.uid w.idx (Result.failed ⟨w.idx, c, a, 0, accessDetail d false false, c.replayable⟩))) ∧
        (∀ bs, s.readCtx part g.ctx addr.toNat 128 = .bytes bs →
          ((∀ c ∈ p.contexts, c.id ≠ ctx) → goesOn (rejected s p q ctx addr 9)) ∧
          ((∃ c ∈ p.contexts, c.id = ctx) →
            (∀ why, s.checkRecord p ctx bs = .bad why → goesOn (rejected s p q ctx addr why)) ∧
            (∀ r ranks rank, s.checkRecord p ctx bs = .ok r ranks rank → ∃ u, Accepted p u ctx q r ranks rank ∧
              goesOn (s.setPart u)))))) ∧
    (∀ (uid : Nat), (∀ g, s.group? uid = some g → ∀ w ∈ g.issued, w.st = .waiting → ∀ a k, w.op ≠ .launch a k) →
      exec (.launchRecordAccept uid) s = .next s)

/-- R250, R254, R255, R257: writes to LQSTAT, EVCNT and RESVCORE. Ones clear DROP and BAD; a counter's new value may make
dependences hold, which then stay held; bits of cores that the partition does not hold stay 0. -/
def Sys2Proof.Claims.LaunchRegistersWritten : Prop :=
  ∀ (s : State) (p : Partition) (part : Nat) (v : W64), s.part? part = some p →
    (∀ q, ∃ u, exec (.lqstatClear part q v) s = .next (s.setPart { p with queues := u }) ∧ u.length = p.queues.length ∧
      ∀ (i : Nat) (x : Queue), p.queues[i]? = some x → u[i]? = some (if i = q then
        { x with drop := x.drop && !v.getLsbD 31, bad := x.bad && !v.getLsbD 30 } else x)) ∧
    (∀ c, ∃ ls, exec (.evcntWrite part c v) s = .next (s.setPart { p with evcnt := p.evcnt.set c v, launches := ls }) ∧
      ls.length = p.launches.length ∧ ∀ (i : Nat) (l : Launch), p.launches[i]? = some l → ∃ h : List Bool,
        ls[i]? = some { l with held := h } ∧ ∀ (k : Nat) (d : Option (Nat × Nat)) (b : Bool), l.record.deps[k]? = some d → l.held[k]? = some b →
          ∃ b' : Bool, h[k]? = some b' ∧ (b' = true ↔ b = true ∨ DepHolds (p.evcnt.set c v) d)) ∧
    (∀ w, ∃ r : BitVec 256, exec (.resvcoreWrite part w v) s = .next (s.setPart { p with resvcore := r }) ∧
      ∀ c, c < 256 → (r.getLsbD c = true ↔
        p.holdsCore c = true ∧ (if c / 64 = w then v.getLsbD (c % 64) else p.resvcore.getLsbD c) = true))

/-- R250, R251, R260, R262: commands on a launch. One whose number names no accepted, incomplete launch sets NOLID, and one for
a launch that is already as it asks has no effect; else it is the command that BUSY is for, until it has taken effect. A
pre-empt asks every group to halt: one that is ready, at a barrier, or parked on waits without limit halts at once, and one in
a run goes on to its end; a resume lets the halted groups go on; a terminate kills the launch's groups at once, but for those
in a run, with which the launch goes on to its end; without one, the teams and the launch are gone. R262 names the halted and
the parked groups; that a ready one ends at once as well is the model's choice (assumption log 18). -/
def Sys2Proof.Claims.LaunchCommands : Prop :=
  ∀ (s : State) (p : Partition) (part n : Nat), s.part? part = some p →
    ((∀ l ∈ p.launches, launchNumber l.lid ≠ n) → ∀ i ∈ [Instr.preempt part n, .resume part n, .terminate part n],
      exec i s = .next (s.setPart { p with cmd := none, busy := false, nolid := true })) ∧
    (∀ l, p.named n = some l → p.launch? l.lid = some l →
      let named := fun (c : Option (Nat × Nat)) => { p with cmd := c, nolid := false }
      let idle := fun (c : Nat) => .next ((s.setPart (named (some (c, l.lid)))).settleBusy part)
      let mine := fun (g : Group) => g.part = part ∧ g.lid = l.lid
      (l.preempted = true ∨ l.ending ≠ none → exec (.preempt part n) s = idle 1) ∧
      (l.preempted = false → exec (.resume part n) s = idle 2) ∧
      (l.preempted = true → s.launchesStop = true → exec (.resume part n) s =
        .next ((s.setPart (named none)).settleBusy part)) ∧
      (l.ending ≠ none → exec (.terminate part n) s = idle 3) ∧
      (l.preempted = false → l.ending = none → ∃ t, exec (.preempt part n) s = .next t ∧
        (∃ q m, t.part? part = some q ∧ q.nolid = false ∧ q.launch? l.lid = some m ∧ m.preempted = true ∧
          (q.busy = true ↔ ∃ g ∈ t.groups, g.part = p.num ∧ g.lid = l.lid ∧ g.halt = .no)) ∧
        ∀ g, s.group? g.uid = some g → mine g → g.halt = .no → ∃ h, t.group? g.uid = some h ∧
          (g.stat = .running → h = { g with preemptReq := true }) ∧
          (g.stat = .ready ∨ (∃ id, g.stat = .atBar id) ∨ (∃ b ph, g.stat = .atAbar b ph) → g.yielded = none →
            h = { g with preemptReq := true, halt := .preempt, haltTime := s.tick, pass := 0 }) ∧
          (g.stat = .endRun → g.yielded = none → (∃ w ∈ g.pends, w.isDone = false) →
            (∀ w ∈ g.pends, w.isDone = false → s.unlimited g.uid w = true) → (∀ r ∈ s.returns, r.uid ≠ g.uid) →
            h.halt = .preempt ∧ h.haltTime = s.tick)) ∧
      (l.preempted = true → s.launchesStop = false →
        let uids := (s.groups.filter fun g => g.part == part && g.lid == l.lid).map (·.uid)
        let w := s.setPart ((named (some (2, l.lid))).setLaunch { l with preempted := false })
        let u := { w with groups := w.groups.map fun (g : Group) =>
          if g.part = part ∧ g.lid = l.lid then { g with preemptReq := false } else g }
        exec (.resume part n) s = .next ((uids.foldl State.resumeGroup u).settleBusy part)) ∧
      (l.ending = none → ∃ t, exec (.terminate part n) s = .next t ∧
        (∀ g ∈ t.groups, g ∈ s.groups ∧ (mine g → g.stat = .running ∧ g.halt = .no)) ∧
        (∀ g ∈ s.groups, (∀ h ∈ s.groups, h.uid = g.uid → h = g) → ¬mine g ∨ (g.stat = .running ∧ g.halt = .no) →
          g ∈ t.groups) ∧
        ((∃ g ∈ t.groups, mine g) → ∃ q m, t.part? part = some q ∧ q.launch? l.lid = some m ∧ m.ending = some 4 ∧
          m.queued = false) ∧
        ((∀ g ∈ s.groups, mine g → g.stat ≠ .running ∨ g.halt ≠ .no) → (∀ x ∈ t.teams, x ∈ s.teams ∧ ¬(x.part = part ∧ x.lid = l.lid)) ∧
          ∃ q, t.part? part = some q ∧ q.launch? l.lid = none))) ∧
    (∀ (g : Group), s.group? g.uid = some g → g.halt = .preempt → g.spilled = none → g.pends = [] → g.stat = .ready →
      s.pkg.convs = [] → (∀ t, s.team? g.team = some t → t.spilled = none) → ∃ h, (s.resumeGroup g.uid).group? g.uid = some h ∧
        h = { g with halt := .no, preemptReq := false, readyTime := s.tick })

/-- R92, R250 to R252, R254, R255, R257, R260, R262: records, queue registers and commands on launches. When a launch's record is
read and what a terminate does to ready groups is assumption log 18; the list on a bad record is assumption log 23. -/
def Obligations.LaunchQueueEvents : Prop :=
  RecordsAccepted ∧ LaunchRegistersWritten ∧ LaunchCommands

/-- R6, R7, R9, R253 to R256: a ready head places its next team on the first candidate core where it fits: the team and its
groups begin, with the launch's arguments, at the kernel's first instruction; the next turn of its priority is the next
queue's. Nothing fits: the head stays. A cooperative launch places all its teams or none, and until it can it stays; one that
a completed removal leaves to be checked anew is discarded when it no longer fits (R266). That the queues of one priority take
turns among themselves, and that such a discard is the end of the launch with HEAD cause 5 and fate 3, is the model's choice
(assumption log 18). -/
def Sys2Proof.Claims.TeamsPlaced : Prop :=
  (∀ (s : State) (p : Partition) (part : Nat) (l : Launch) (ls : List Launch) (x : Site), s.part? part = some p →
    s.launchesStop = false → p.servable = l :: ls → p.launch? l.lid = some l →
    s.freeSite l.record.ask l.record.prio (s.candidates p l.record.cres l.record.pair) = some x →
    ∃ (u : State) (t : Team) (gs : List Group) (q : Partition), exec (.placeTeam part) s = .next u ∧
      u = { u with groups := s.groups ++ gs, teams := s.teams ++ [t], nextUid := s.nextUid + 1 + gs.length } ∧
      u.hbm = s.hbm ∧ u.slices = s.slices ∧ u.cores = s.cores ∧ u.pkg = s.pkg ∧
      t.uid = s.nextUid ∧ t.part = part ∧ t.ctx = l.ctx ∧ t.lid = l.lid ∧ t.tix = l.placed ∧ t.core = x.core ∧
      t.pair = l.record.pair ∧ t.sliceOff = x.off ∧ t.sliceLen = l.record.slice * 4096 ∧ t.exited = 0 ∧
      t.ngroups = l.record.gpt + 1 ∧ gs.length = x.lanes.length ∧
      (∀ (i : Nat) (g : Group), gs[i]? = some g → g.uid = s.nextUid + 1 + i ∧ g.team = t.uid ∧ g.gix = i ∧
        x.lanes[i]? = some (g.core, g.lane) ∧ g.width = Width.ofCode l.record.wc ∧ g.alloc = (l.record.regs + 1) * 16 ∧
        g.pc = l.record.code ∧ g.trapv = l.record.trapv ∧ g.exm = g.width.full ∧ g.lvm = g.width.full ∧ g.stat = .ready ∧
        g.armed = false ∧ g.wb = 0 ∧ g.prio = l.record.prio ∧ (∀ r, g.vreg r = .u 0) ∧
        (∀ k, k < 4 → k < l.record.args.length → g.sregs.getD k 0 = l.record.args.getD k 0) ∧
        ∀ k, 4 ≤ k → g.sregs.getD k 0 = 0) ∧
      u.part? part = some q ∧ q.lastCore = some x.core ∧
      q.nextQueue = p.nextQueue.set l.record.prio ((l.queue + 1) % 16) ∧
      q.launch? l.lid = some { l with placed := l.placed + 1, queued := decide (l.placed + 1 < l.record.nteam) }) ∧
  (∀ (s : State) (p : Partition) (part : Nat), s.part? part = some p →
    (s.launchesStop = true ∨ p.servable = [] → exec (.placeTeam part) s = .next s)) ∧
  (∀ (s s' : State) (p : Partition) (part : Nat) (l : Launch), s.part? part = some p → s.launchesStop = false →
    (p.recheckHead = none → p.coopHead = some l → p.servable = [] → (∀ e ∈ s.sliceErrs, e ∈ s'.sliceErrs) →
      (s.placeCoop part l.lid (l.record.nteam - l.placed) = (s', true) → exec (.coopPlace part) s = .next s') ∧
      (s.placeCoop part l.lid (l.record.nteam - l.placed) = (s', false) →
        exec (.coopPlace part) s = .next { s with interrupts := s'.interrupts })) ∧
    (p.recheckHead = some l →
      (p.coopFits l.record = false → exec (.coopPlace part) s = .next (s.terminateLaunch part l.lid (Why.plain 5))) ∧
      (p.coopFits l.record = true →
        exec (.coopPlace part) s = .next (s.setPart (p.setLaunch { l with recheck := false })))))

/-- R255, R265: a team that is over is freed, its slice allocation cleared, and counts as complete; the launch of the last one
is complete, and signals its event counter. A spilled image is restored to its own place, and its save slot is free. -/
def Sys2Proof.Claims.TeamsCompletedAndRestored : Prop :=
  (∀ (s : State) (t : Team) (p : Partition) (l : Launch), s.team? t.uid = some t → (∀ g ∈ s.groups, g.team ≠ t.uid) →
    (∀ c ∈ s.cores, (∀ e ∈ c.matrix, e.team ≠ t.uid) ∧ ∀ e ∈ c.copies, e.2.team ≠ t.uid) →
    s.part? t.part = some p → p.launch? t.lid = some l → l.ending = none → s.late = [] → t.unacquired = [] →
    ∃ (u : State) (q : Partition), exec (.teamComplete t.uid) s = .next u ∧ u.team? t.uid = none ∧ u.groups = s.groups ∧
      u.part? t.part = some q ∧
      (t.spilled = none → ∀ a, sliceSize * t.core + t.sliceOff ≤ a → a < sliceSize * t.core + t.sliceOff + t.sliceLen →
        u.slices.read a = 0) ∧
      (l.complete + 1 < l.record.nteam → q.launch? t.lid = some { l with complete := l.complete + 1 } ∧ q.evcnt = p.evcnt) ∧
      (l.record.nteam ≤ l.complete + 1 → q.launch? t.lid = none ∧ (l.record.signal = none → q.evcnt = p.evcnt) ∧
        ∀ c, l.record.signal = some c → q.evcnt = p.evcnt.set c (p.evcnt.getD c 0 + 1))) ∧
  (∀ (s : State) (g : Group) (t : Team) (l : Launch) (k : Nat) (bs : List Byte), s.group? g.uid = some g →
    g.spilled = some k → s.launchOf g.part g.lid = some l → l.preempted = false → l.ending = none →
    s.team? g.team = some t → t.spilled = none → s.rowsFree g = true → s.readArea l g k = .bytes bs →
    exec (.groupRestore false g.uid) s =
      .next ((((s.setGroup (s.loadGroup g bs)).dropSlot g.part g.lid k).resumeGroup g.uid).settleBusy g.part)) ∧
  (∀ (s : State) (t : Team) (l : Launch) (k k2 : Nat) (bs bs2 : List Byte), s.team? t.uid = some t → t.spilled = some k →
    (t.spilledOdd = some k2 ∨ (t.spilledOdd = none ∧ k2 = k)) →
    s.launchOf t.part t.lid = some l → l.preempted = false → l.ending = none → s.rangeFree t = true →
    s.readSlot l t.part k (0x1000 + t.sliceLen) [] = .bytes bs →
    s.readSlot l t.part k2 (0x1000 + t.sliceLen) [] = .bytes bs2 →
    let v := if t.pair = true then (s.loadSlice t false bs).loadSlice t true bs2 else s.loadSlice t false bs
    let w := ((v.setTeam (t.load bs bs2 s.tick)).dropSlot t.part t.lid k).dropSlot t.part t.lid k2
    exec (.groupRestore true t.uid) s = .next
      ((((w.groups.filter fun g => g.team == t.uid).map (·.uid)).foldl State.resumeGroup w).settleBusy t.part))

/-- R6, R7, R9, R253 to R256, R265, R266: teams are placed, completed and restored. The turns of queues and the discard of a
cooperative launch are assumption log 18. -/
def Obligations.PlacementEvents : Prop :=
  TeamsPlaced ∧ TeamsCompletedAndRestored

/-! ## The gate and the fabric by themselves -/

/-- R198, R207, R210, R222: the send that has waited longest at the gate is accepted once every recipient's delivery queue has
room: the message joins those queues, the conversation takes the entry's next state, receives are served, and the sender's
instruction returns. An exchange gives a party its elements once every party has joined and the words have crossed, and closes
with its last part. -/
def Sys2Proof.Claims.GateStepsComplete : Prop :=
  (∀ (s : State) (cn role kind reg uid idx since : Nat) (c : Conv) (g : Group) (v payload : W64) (choose : Bool)
      (rest : List Delayed) (e : BitVec 16), s.conv? cn = some c → role < c.roles.length →
    c.aborted = false → s.pkg.waits = ⟨uid, idx, .csend reg kind payload choose, since⟩ :: rest →
    s.group? uid = some g → g.gateRole.getD reg 0 = v → v ≠ 0 → roleConv v = cn → roleNum v = role →
    (c.role role).world = g.part * 128 + g.ctx → kind < 12 → s.choiceKind c kind = choose →
    s.permitted c role kind = some e →
    (∀ r, r < 4 → e.toNat.testBit (8 + r) = true → (c.role r).used = true → (c.role r).queue.length < 16) →
    let w : State := { s with pkg := { s.pkg with waits := rest } }
    let m : Msg := ⟨kind, if choose then BitVec.ofNat 64 (payload.toNat % 2 ^ 60) else payload⟩
    ∃ x : Conv, x = { c with roles := x.roles, state := e.toNat % 64 } ∧ x.roles.length = c.roles.length ∧
      (∀ (r : Nat) (o : Role), c.roles[r]? = some o → x.roles[r]? = some (if r < 4 ∧ e.toNat.testBit (8 + r) = true ∧ o.used = true
        then { o with queue := o.queue ++ [m] } else o)) ∧
      exec (.gateSendAccept cn role) s = .next
        (((w.setConv x).serveRoles cn ((List.range 4).filter fun r => e.toNat.testBit (8 + r))).ret uid idx Result.empty)) ∧
  (∀ (s : State) (cn ex party : Nat) (c : Conv) (x : Exchange) (pt : Sys2Proof.Machine.Part) (g : Group),
    s.conv? cn = some c → c.exchanges.find? (fun x => x.num == ex) = some x → x.part? party = some pt →
    c.partReady x pt = true → s.group? pt.uid = some g → (∀ a b l u v, pt.op ≠ .xopen a b l u v) →
    let done := { pt with finished := true }
    let others := x.parts.filter fun p => p.party != party
    let res : Result := { Result.empty with elems := x.elems cn c.np party pt }
    ((∃ p ∈ others, p.finished = false) → exec (.gateExchangeComplete cn ex party) s = .next
      ((s.setConv (c.setExchange { x with parts := others ++ [done] })).ret pt.uid pt.idx res)) ∧
    ((∀ p ∈ others, p.finished = true) → exec (.gateExchangeComplete cn ex party) s = .next
      ((s.setConv { c with exchanges := c.exchanges.filter fun y => y.num != ex }).ret pt.uid pt.idx res)))

/-- R222, R227: a party's part of an exchange that `xopen` began completes as its last one or not. A party that receives every
other party's share writes the opened tile to its destination, in which each element is the sum of all parties' elements modulo
2^k, or fails with the cause of the destination's failing check; a party that does not writes nothing, and has no failure. -/
def Sys2Proof.Claims.OpenedTilesAreWritten : Prop :=
  ∀ (s : State) (cn ex party : Nat) (c : Conv) (x : Exchange) (pt : Sys2Proof.Machine.Part) (g : Group) (dst src len : W64)
      (dsl ssl : Bool),
    s.conv? cn = some c → c.exchanges.find? (fun x => x.num == ex) = some x → x.part? party = some pt →
    c.partReady x pt = true → s.group? pt.uid = some g → pt.op = .xopen dst src len dsl ssl → pt.k = 16 ∨ pt.k = 32 →
    len.toNat % 64 = 0 → (∀ p q, p < c.parties.length → x.part? p = some q → q.bytes.length = len.toNat) →
    let completes := fun t : State => exec (.gateExchangeComplete cn ex party) s = .next t
    let others := x.parts.filter fun p => p.party != party
    let left := s.setConv (if others.all (fun p => p.finished) then
        { c with exchanges := c.exchanges.filter fun y => y.num != ex }
      else c.setExchange { x with parts := others ++ [{ pt with finished := true }] })
    let opens := ∀ p, p < c.parties.length → p ≠ party → (x.recips.getD p 0).testBit party = true
    let elem := fun (i : Nat) (bs : List Byte) => leNat ((bs.drop (pt.k / 8 * i)).take (pt.k / 8))
    (opens → ∃ bs : List Byte, bs.length = len.toNat ∧
      (∀ i, pt.k / 8 * i < len.toNat → elem i bs =
        ((List.range c.parties.length).map fun p => elem i (((x.part? p).map (·.bytes)).getD [])).sum % 2 ^ pt.k) ∧
      (∀ pls, s.range g.part g.ctx g.team dsl .write dst.toNat len.toNat = .ok pls →
        completes ((left.writeRange pls bs).ret pt.uid pt.idx Result.empty)) ∧
      (∀ cause d a, s.range g.part g.ctx g.team dsl .write dst.toNat len.toNat = .fail cause d a →
        completes (left.ret pt.uid pt.idx
          (Result.failed ⟨pt.idx, cause, a, 0, BitVec.ofNat 32 (d + 2), cause.replayable⟩)))) ∧
    (¬opens → completes (left.ret pt.uid pt.idx Result.empty))

/-- R198, R207, R210, R222, R227: what happens at the gate by itself. -/
def Obligations.GateEvents : Prop :=
  GateStepsComplete ∧ OpenedTilesAreWritten

/-- R59, R60, R164, R337: the fabric. A packet older than the window of its filter is refused with no effect; one of this
device travels back with its answers, and one of another device arrives by a port of the target partition that is up. An
acknowledgement that answers every thread completes its request, and the last one of an instruction lets it return under the
generation that it carries. A request without acknowledgement is sent again up to
seven times, and then fails with `fabric timeout`. A port that goes down hands its requests to another port. That a packet of this device to itself crosses no port, that one of
another device enters only by a port that is up, that a resend takes the lowest port that is up, and that the first transmission
is not among the seven, is the model's choice (assumption log 15). -/
def Obligations.FabricEvents : Prop :=
  (∀ (s : State) (p : Packet) (f : Filter) (n : BitVec 32), s.filter? p.srcDev p.srcWorld = some f → f.epoch = p.epoch →
    f.newest = some n → 2 ^ 31 ≤ (p.seq - n).toNat → (p.seq - n).toNat ≤ 2 ^ 32 - 4096 → p.tgtDev = Config.ownDevice →
    p.srcDev ≠ Config.ownDevice → Steps (.remoteRequest p) s s) ∧
  (∀ (s : State) (p : Packet), p.tgtDev = Config.ownDevice → p.srcDev ≠ Config.ownDevice →
    Steps (.remoteRequest p) s (if s.outPort p.tgtPart < 32 then (s.receive p).1 else s)) ∧
  (∀ (s : State) (p : Packet) (r : FabReq), p.tgtDev = Config.ownDevice → p.srcDev = Config.ownDevice →
    s.fabric.reqs.find? (fun r => r.pkt.srcWorld == p.srcWorld && r.pkt.tgtDev == p.tgtDev && r.pkt.seq == p.seq &&
      s.fabric.outbox.contains r.id) = some r →
    let w := { s with fabric := { s.fabric with outbox := s.fabric.outbox.filter fun i => i != r.id } }
    let u := (w.receive r.pkt).1
    Steps (.remoteRequest p) s
      { u with fabric := { u.fabric with replies := u.fabric.replies ++ [⟨r.id, (w.receive r.pkt).2⟩] } }) ∧
  (∀ (s : State) (r : FabReq) (as : List PktAnswer) (x : Sent) (g : Group) (p : Pend) (op : PktOp)
      (items : List RemoteItem) (dst n : Nat) (ret : Bool),
    s.fabric.reqs.find? (fun q => q.id == r.id) = some r → r.pkt.tgtDev ≠ Config.ownDevice → r.port < 32 →
    r.copy = none →
    as.map (·.t) = r.pkt.threads.map (·.t) →
    s.fabric.sent.find? (fun y => y.uid == r.uid && y.since == r.since && y.idx == r.idx % 32) = some x →
    (∀ q ∈ s.fabric.reqs, q.id ≠ r.id → ¬(q.uid = r.uid ∧ q.since = r.since ∧ q.idx % 32 = r.idx % 32)) →
    s.group? r.uid = some g → g.pendAt r.since r.idx = some p → p.op = .remote op items dst n ret →
    ∃ t, Steps (.remoteAck r.id as) s t ∧ (∀ q, q ∈ t.fabric.reqs ↔ q ∈ s.fabric.reqs ∧ q.id ≠ r.id) ∧ t.groups = s.groups ∧
      t.returns = s.returns ++ [⟨r.uid, r.gen, r.idx, r.part, r.core,
        (remoteResult r.idx items dst n ret { x with answers := x.answers ++ as }).norm⟩]) ∧
  (∀ (s : State) (r : FabReq), s.fabric.reqs.find? (fun q => q.id == r.id) = some r →
    let port := if r.pkt.tgtDev = Config.ownDevice then 32 else s.outPort r.part
    (r.resends < 7 → ∃ t, Steps (.remoteResend r.id) s t ∧
      t.fabric.reqs = (s.fabric.reqs.map fun q =>
        if q.id = r.id then { r with resends := r.resends + 1, port := port } else q) ∧
      (∀ q, s.pkg.ports[port]? = some q → t.pkg.ports[port]? = some { q with resends := q.resends + 1 }) ∧
      ∀ k, k ≠ port → t.pkg.ports[k]? = s.pkg.ports[k]?) ∧
    (7 ≤ r.resends → Steps (.remoteResend r.id) s
      ((s.updPort r.port fun p => { p with timeouts := p.timeouts + 1 }).answer r
        (r.pkt.threads.map fun th => ⟨th.t, some (Cause.fabricTimeout.code, 0), []⟩)))) ∧
  (∀ (s : State) (k lanes : Nat) (p : Port), k < 32 → s.pkg.ports[k]? = some p →
    (p.up = true → lanes = 0 → 0 < p.lanes → ∃ t, exec (.portDown k lanes) s = .next t ∧
      t.pkg.ports[k]? = some { p with up := false, lanes := 0, flaps := min (p.flaps + 1) 65535 } ∧
      ∀ r ∈ t.fabric.reqs, r.port ≠ k) ∧
    (p.up = true → 0 < lanes → lanes < p.lanes → ∃ t, exec (.portDown k lanes) s = .next t ∧
      t.pkg.ports[k]? = some { p with lanes := lanes } ∧ t.fabric = s.fabric) ∧
    (p.up = false → 0 < lanes → lanes ≤ 4 → ∃ t, exec (.portUp k lanes) s = .next t ∧
      t.pkg.ports[k]? = some { p with up := true, lanes := lanes, flaps := min (p.flaps + 1) 65535 } ∧ t.fabric = s.fabric))

/-! ## Service calls of a partition -/

namespace Sys2Proof.Claims

/-- Control core `cc` of the partition `p` may call (R287): it is the partition's, no call of it is held, and the package is
awake (R327). -/
def CanCall (s : State) (p : Partition) (part cc : Nat) : Prop :=
  s.part? part = some p ∧ p.ccs.getLsbD cc = true ∧ (∀ h ∈ s.pkg.heldCalls, ¬(h.part = part ∧ h.cc = cc)) ∧
    s.pkg.sleepSt = .awake

/-- A call returns a status and a value in a0 and a1 of its control core, in a state that is otherwise `u`. -/
def Answers (i : Instr) (s : State) (part cc : Nat) (status : Int) (v : W64) (u : State) : Prop :=
  exec i s = .next { u with svc :=
    (u.svc.filter fun r => !(r.part == part && r.cc == cc)) ++ [⟨part, cc, status, v⟩] }

/-- The package with some part of it changed. -/
def withPkg (s : State) (k : Package) : State := { s with pkg := k }

/-- `x` is the lowest number below `n` that satisfies a condition. -/
def LowestFree (x n : Nat) (free : Nat → Prop) : Prop := x < n ∧ free x ∧ ∀ y, y < x → ¬free y

/-- A trapped, armed group that GROUP_RESUME names by launch, `tix` and `gix` (R301). -/
def Trapped (s : State) (part lid tix gix : Nat) (g : Group) : Prop :=
  s.groups.find? (fun g => g.part == part && g.lid == lid && g.tix == tix && g.gix == gix && g.halt == .trap && g.armed)
    = some g

end Sys2Proof.Claims

/-- R287, R294, R301: the calls on contexts and trapped groups, with their statuses. A context is created without a root,
destroyed with everything of its world, and given a root; a trapped group is replayed, skipped or killed, and
while its launch is pre-empted it stays halted, which is the model's choice (assumption log 19). So are the order in which the
statuses are judged, -2 for mode 3 and -1 for reserved bits (assumption log 20). -/
def Sys2Proof.Claims.ContextCalls : Prop :=
  ∀ (s : State) (p : Partition) (part cc : Nat) (a0 a1 a2 : W64), CanCall s p part cc →
    let n := a0.toNat
    let has := ∃ c ∈ p.contexts, c.id = n
    let create : Instr := .ctxCreate part cc a0
    let destroy : Instr := .ctxDestroy part cc a0 a1
    let root : Instr := .ctxRoot part cc a0 a1
    (n = 0 ∨ 127 < n → Answers create s part cc (-2) 0 s) ∧
    (n ≠ 0 → n ≤ 127 → has → Answers create s part cc (-4) 0 s) ∧
    (n ≠ 0 → n ≤ 127 → ¬has → Answers create s part cc 0 0 (s.setPart { p with contexts := p.contexts ++ [⟨n, none⟩] })) ∧
    (2 ≤ a1.toNat → Answers destroy s part cc (-1) 0 s) ∧
    (a1.toNat < 2 → n = 0 ∨ ¬has → Answers destroy s part cc (-2) 0 s) ∧
    (a1 = 0 → n ≠ 0 → has → (∃ l ∈ p.launches, l.ctx = n) → Answers destroy s part cc (-4) 0 s) ∧
    (a1.toNat < 2 → n ≠ 0 → has → n < 128 → a1 = 1 ∨ (∀ l ∈ p.launches, l.ctx ≠ n) → ∃ u q, Answers destroy s part cc 0 0 u ∧
      u.part? part = some q ∧ q.contexts = (p.contexts.filter fun c => c.id != n) ∧ (∀ l ∈ q.launches, l.ctx ≠ n) ∧
      (∀ g ∈ u.groups, ∀ l ∈ p.launches, l.ctx = n → ¬(g.part = part ∧ g.lid = l.lid)) ∧
      ∀ e ∈ u.tlb, ¬(e.part = part ∧ e.ctx = n)) ∧
    (¬has ∨ a1.toNat % 4096 ≠ 0 ∨ p.bound ≤ a1.toNat → Answers root s part cc (-2) 0 s) ∧
    (has → a1.toNat % 4096 = 0 → a1.toNat < p.bound → Answers root s part cc 0 0 (s.setPart
      { p with contexts := p.contexts.map fun c => if c.id = n then { c with root := some a1.toNat } else c })) ∧
    (∀ (g : Group) (l : Launch), a1.toNat < 2 ^ 29 → p.named n = some l →
      Trapped s part l.lid (a1.toNat % 2 ^ 24) (a1.toNat / 2 ^ 24) g → g.spilled = none →
      let resume : Instr := .groupResume part cc a0 a1 a2
      (l.preempted = false → a2 = 0 → Answers resume s part cc 0 0 (s.startReplay { g with halt := .no })) ∧
      (l.preempted = false → a2 = 1 → Answers resume s part cc 0 0 (s.setGroup { g with
        halt := .no, armed := false, pc := g.trap.resume, stat := .ready, readyTime := s.tick, pends := [], fails := [] })) ∧
      (l.preempted = true → a2 = 1 → Answers resume s part cc 0 0 ((s.setGroup { g with
        halt := .preempt, armed := false, pc := g.trap.resume, stat := .ready, pends := [], fails := [] }).settleBusy part)) ∧
      (a2 = 2 → Answers resume s part cc 0 0 ((s.exitGroup g).settleBusy part)) ∧
      (a2 = 3 → Answers resume s part cc (-2) 0 s) ∧ (4 ≤ a2.toNat → Answers resume s part cc (-1) 0 s))

/-- R305: CONV_CREATE. A call with bits that it does not use, or with an address that it may not read, or with a description
that is not valid for its choreography, or a mask that claims a role of another partition, is refused. The first call for a
description takes the lowest free number and reserves the capacities of its parties; a description's roles are claimed in
one or more calls, a role only once; and the call that claims the last of them creates the conversation in its initial state,
with empty queues and with the tickets of the calls that claimed its roles, and measures the description into PMREG2. The
lowest free number and the order of the refusals are the model's choice (assumption log 21). -/
def Sys2Proof.Claims.CreationCalls : Prop :=
  ∀ (s : State) (p : Partition) (part cc : Nat) (a0 a1 a2 : W64), CanCall s p part cc →
    let create := Instr.convCreate part cc a0 a1 a2
    (2 ^ 32 ≤ a1.toNat ∨ 16 ≤ a2.toNat → Answers create s part cc (-1) 0 s) ∧
    (a1.toNat < 2 ^ 32 → a2.toNat < 16 → a0.toNat % 64 ≠ 0 ∨ p.bound < a0.toNat + 256 →
      Answers create s part cc (-2) 0 s) ∧
    (∀ bs : List Byte, a1.toNat < 2 ^ 32 → a2.toNat < 16 → a0.toNat % 64 = 0 → a0.toNat + 256 ≤ p.bound →
      s.readPart p a0 256 = .inl bs →
      (s.choreo? (leNat (bs.take 1)) = none → Answers create s part cc (-6) 0 s) ∧
      ∀ k, s.choreo? (leNat (bs.take 1)) = some k →
        (descOk bs k = false ∨ claimOk bs k part a2.toNat = false → Answers create s part cc (-6) 0 s) ∧
        (descOk bs k = true → claimOk bs k part a2.toNat = true →
          let mine := ((List.range 4).filter fun r => a2.toNat.testBit r).map fun r => (r, a1.setWidth 32)
          let capA := ((List.range k.np).map fun r => (descCap bs r).1).sum
          let capB := ((List.range k.np).map fun r => (descCap bs r).2).sum
          let claims := fun x : PendConv =>
            let all := x.claimed ++ mine
            let others := s.pkg.pendConvs.filter fun y => y.num != x.num
            (all.length < k.roles → Answers create s part cc (-5) (BitVec.ofNat 64 x.num)
              (withPkg s { s.pkg with pendConvs := others ++ [{ x with claimed := all }] })) ∧
            (k.roles ≤ all.length → ∃ (c : Conv) (u : State), c.num = x.num ∧ c.choreo = k.num ∧ c.state = k.init ∧
              c.aborted = false ∧ c.destroyed = false ∧ c.exchanges = [] ∧ c.parties.length = k.np ∧
              (∀ r, r < 4 → (c.role r).world = (descRole bs r).2 ∧ (c.role r).queue = [] ∧ (c.role r).recvs = [] ∧
                ∀ n, (r, n) ∈ all → (∀ m, (r, m) ∈ all → m = n) → (c.role r).ticket = n) ∧
              u.pkg.convs = (s.pkg.convs.filter fun y => y.num != x.num) ++ [c] ∧ u.pkg.pendConvs = others ∧
              u.part? part = some { p with pmreg := p.pmreg.set 2 (extendReg (p.pmreg.getD 2 0) bs) } ∧
              u.groups = s.groups ∧ u.hbm = s.hbm ∧ Answers create s part cc 0 (BitVec.ofNat 64 x.num) u)
          (∀ x, s.pkg.pendConvs.find? (fun x => x.desc == bs) = some x →
            ((∃ m ∈ mine, ∃ y ∈ x.claimed, y.1 = m.1) → Answers create s part cc (-4) 0 s) ∧
            ((∀ m ∈ mine, ∀ y ∈ x.claimed, y.1 ≠ m.1) → claims x)) ∧
          ((∀ x ∈ s.pkg.pendConvs, x.desc ≠ bs) →
            ((∀ n, n < 4096 → s.convTaken n = true) → Answers create s part cc (-3) 0 s) ∧
            ∀ n, LowestFree n 4096 (fun n => s.convTaken n = false) →
              (2 ^ 20 < s.storeUsed.1 + capA ∨ 2 ^ 20 < s.storeUsed.2 + capB → Answers create s part cc (-3) 0 s) ∧
              (s.storeUsed.1 + capA ≤ 2 ^ 20 → s.storeUsed.2 + capB ≤ 2 ^ 20 → claims ⟨n, bs, [], capA, capB⟩))))

/-- R203, R204, R303, R305, R306: the other calls on choreographies and conversations. An image that passes its checks takes
the lowest free number; a set that times out is dropped; a destroyed conversation is aborted and released. The lowest free
number and, for CHOREO_UNLOAD, that -2 and -4 come before -6, are the model's choice (assumption log 21). -/
def Sys2Proof.Claims.ConversationCalls : Prop :=
  (∀ (s : State) (p : Partition) (part cc : Nat) (a0 : W64) (bs : List Byte), CanCall s p part cc →
    (let load : Instr := .choreoLoad part cc a0
     (a0.toNat % 64 ≠ 0 ∨ p.bound < a0.toNat + 8320 → Answers load s part cc (-2) 0 s) ∧
     (a0.toNat % 64 = 0 → a0.toNat + 8320 ≤ p.bound → s.readPart p a0 8320 = .inl bs →
       (∀ why, (Choreo.parse 0 part bs).refusal (choreoClean bs) = some why →
         Answers load s part cc (-6) (BitVec.ofNat 64 why) s) ∧
       ((Choreo.parse 0 part bs).refusal (choreoClean bs) = none →
         ((∀ n, n < 256 → ∃ k ∈ s.pkg.choreos, k.num = n) → Answers load s part cc (-3) 0 s) ∧
         ∀ n, LowestFree n 256 (fun n => ∀ k ∈ s.pkg.choreos, k.num ≠ n) → Answers load s part cc 0 (BitVec.ofNat 64 n)
           (withPkg s { s.pkg with
             choreos := s.pkg.choreos ++ [Choreo.parse n part bs]
             mreg := s.pkg.mreg.set 5 (extendReg (s.pkg.mreg.getD 5 0) bs) })))) ∧
    (let unload : Instr := .choreoUnload part cc a0
     ((∀ k ∈ s.pkg.choreos, k.num ≠ a0.toNat) → Answers unload s part cc (-2) 0 s) ∧
     ∀ k, s.pkg.choreos.find? (fun k => k.num == a0.toNat) = some k →
       (s.choreoUsed k.num = true → Answers unload s part cc (-4) 0 s) ∧
       (s.choreoUsed k.num = false → k.part ≠ part ∨ k.orphan = true → Answers unload s part cc (-6) 0 s) ∧
       (s.choreoUsed k.num = false → k.part = part → k.orphan = false → Answers unload s part cc 0 0
         (withPkg s { s.pkg with choreos := s.pkg.choreos.filter fun x => x.num != k.num }))) ∧
    (let destroy : Instr := .convDestroy part cc a0
     (s.conv? a0.toNat = none → Answers destroy s part cc (-2) 0 s) ∧
     ∀ x, s.conv? a0.toNat = some x → (x.destroyed = true → Answers destroy s part cc (-2) 0 s) ∧
       (x.destroyed = false → (∀ w ∈ x.worlds, w / 128 ≠ part) → Answers destroy s part cc (-6) 0 s) ∧
       (x.destroyed = false → (∃ w ∈ x.worlds, w / 128 = part) → ∃ u y, Answers destroy s part cc 0 0 u ∧
         u.conv? a0.toNat = some y ∧ y.destroyed = true ∧ y.aborted = true))) ∧
  (∀ (s : State) (n : Nat), ∃ u, exec (.convCreateTimeout n) s = .next u ∧ u.pkg.convs = s.pkg.convs ∧
    u.pkg.pendConvs = s.pkg.pendConvs.filter fun x => x.num != n)

/-- R287, R312, R318, R324, R325: the calls on the channel key, on measurement and on tensor slots. The key's source bytes
are zeroed; a tensor slot opens with version 0 and two keys that are drawn for it, while IDs are left (log 22), counts its
version up, and closes when no leaf of the partition's page tables names it. The lowest free slot, IDs that end, and -3 then are
the model's choice (assumption log 22); so is -2 where a table that TENSOR_CLOSE reads is poisoned (assumption log 20). -/
def Sys2Proof.Claims.KeyAndTensorCalls : Prop :=
  ∀ (s : State) (p : Partition) (part cc : Nat) (a0 a1 a2 : W64) (bs : List Byte), CanCall s p part cc →
    (∀ x, a0.toNat + 36 ≤ p.bound → a1.toNat % 4096 = 0 → a1.toNat + 1 ≤ p.bound → 4 ≤ a2.toNat → a2.toNat ≤ 12 →
      s.readPart p a0 36 = .inl bs → s.pkg.channels[part + 1]? = some x →
      let y := { x with
        key := bs.take 32, salt := bs.drop 32, keyed := true, next := 1, expired := false, inboxBase := a1,
        inboxLog := a2.toNat }
      Answers (.chanKey part cc a0 a1 a2) s part cc 0 0
        ((withPkg s { s.pkg with channels := s.pkg.channels.set (part + 1) y }).writePart p a0.toNat
          (List.replicate 36 0))) ∧
    (a2.toNat < 4 ∨ 12 < a2.toNat ∨ p.bound < a0.toNat + 36 ∨ a1.toNat % 4096 ≠ 0 ∨ p.bound < a1.toNat + 1 →
      Answers (.chanKey part cc a0 a1 a2) s part cc (-2) 0 s) ∧
    (a0.toNat + 48 ≤ p.bound → s.readPart p a0 48 = .inl bs → Answers (.measExtend part cc a0) s part cc 0 0
      (s.setPart { p with pmreg := p.pmreg.set 3 (extendReg (p.pmreg.getD 3 0) bs) })) ∧
    (p.bound < a0.toNat + 48 → Answers (.measExtend part cc a0) s part cc (-2) 0 s) ∧
    ((∀ n, n ≠ 0 → n < 16384 → ∃ t ∈ s.pkg.tensors, t.slot = n) ∨ 0xFFFFFFFF ≤ s.pkg.tensorCount →
      Answers (.tensorOpen part cc) s part cc (-3) 0 s) ∧
    (∀ n, LowestFree n 16384 (fun n => n ≠ 0 ∧ ∀ t ∈ s.pkg.tensors, t.slot ≠ n) → s.pkg.tensorCount < 0xFFFFFFFF →
      ∃ k1 k2 : BitVec 256,
      Answers (.tensorOpen part cc) s part cc 0 (BitVec.ofNat 64 n) (withPkg s { s.pkg with
        tensors := s.pkg.tensors ++ [⟨n, part, BitVec.ofNat 32 (s.pkg.tensorCount + 1), 0, k1, k2⟩]
        tensorCount := s.pkg.tensorCount + 1, keyDraws := s.pkg.keyDraws + 2 })) ∧
    ((∀ t ∈ s.pkg.tensors, ¬(t.slot = a0.toNat ∧ t.part = part)) →
      Answers (.tensorBump part cc a0) s part cc (-2) 0 s ∧ Answers (.tensorClose part cc a0) s part cc (-2) 0 s) ∧
    (∀ t, s.pkg.tensors.find? (fun t => t.slot == a0.toNat && t.part == part) = some t →
      (t.version = 0xFFFFFFFF → Answers (.tensorBump part cc a0) s part cc (-3) 0 s) ∧
      (t.version ≠ 0xFFFFFFFF → ∃ u, Answers (.tensorBump part cc a0) s part cc 0 0 u ∧ u.hbm = s.hbm ∧
        (∀ l ∈ u.lines, ¬(l.slot = a0.toNat ∧ l.cached = true)) ∧
        u.pkg.tensors = s.pkg.tensors.map fun x => if x.slot = t.slot then { x with version := x.version + 1 } else x) ∧
      (s.leafNames p t.slot = some .leaf → Answers (.tensorClose part cc a0) s part cc (-4) 0 s) ∧
      (∀ l, s.leafNames p t.slot = some (.poison l) →
        Answers (.tensorClose part cc a0) s part cc (-2) 0 (s.lineError l none)) ∧
      (s.leafNames p t.slot = none → Answers (.tensorClose part cc a0) s part cc 0 0
        (withPkg s { s.pkg with tensors := s.pkg.tensors.filter fun x => x.slot != t.slot })))

/-- R292, R299: invalidations and the report ring. A write to TLBCMD sets BUSY with its scope, and the copies in that scope
are gone when BUSY falls; a write to the ring's registers lets what is held be written while there is room. -/
def Sys2Proof.Claims.InvalidationsAndRings : Prop :=
  ∀ (s : State) (p : Partition) (part ctx : Nat) (v : W64), s.part? part = some p →
    (p.tlbBusy = false →
      exec (.tlbInvalidatePage part ctx) s = .next (s.setPart { p with tlbBusy := true, tlbCmd := (0, ctx, p.tlbva) }) ∧
      exec (.tlbInvalidateContext part ctx) s = .next (s.setPart { p with tlbBusy := true, tlbCmd := (1, ctx, p.tlbva) }) ∧
      exec (.tlbInvalidatePartition part) s = .next (s.setPart { p with tlbBusy := true, tlbCmd := (2, 0, p.tlbva) })) ∧
    (p.tlbBusy = true → ∃ u, exec (.tlbInvalidateDone part) s = .next u ∧
      u.part? part = some { p with tlbBusy := false } ∧
      ∀ e ∈ s.tlb, e ∈ u.tlb ↔ ¬(e.part = part ∧ (p.tlbCmd.1 = 0 → e.ctx = p.tlbCmd.2.1 ∧
        e.vpage = p.tlbCmd.2.2.toNat % 2 ^ 48 / 2 ^ levelLow e.level) ∧ (p.tlbCmd.1 = 1 → e.ctx = p.tlbCmd.2.1))) ∧
    exec (.ringConfigWrite part true v) s =
      .next ((s.setPart { p with ringBase := BitVec.ofNat 64 (v.toNat / 4096 * 4096) }).ringFlush part 1026) ∧
    exec (.ringConfigWrite part false v) s = .next ((s.setPart { p with ringLog := v.toNat % 32 }).ringFlush part 1026) ∧
    exec (.ringtailWrite part v) s = .next ((s.setPart { p with ringTail := v.setWidth 32 }).ringFlush part 1026)

/-- R203, R204, R287, R292, R294, R299, R301, R303 to R306, R312, R318, R324, R325: a partition's service calls and its
writes of invalidation and ring registers. The model's choices among them are assumption logs 19 to 22. -/
def Obligations.ServiceCalls : Prop :=
  ContextCalls ∧ CreationCalls ∧ ConversationCalls ∧ KeyAndTensorCalls ∧ InvalidationsAndRings

/-! ## Management commands, start and resets -/

namespace Sys2Proof.Claims

/-- A command that completes at once (R288, R312): it is measured into MREG6, and the reply says so. -/
def completed (u : State) (cmd : Nat) (args : List Nat) : State := (u.measure 6 (Config.commandRecord cmd args)).replied .done

/-- The package takes management commands: it has power, and an image was accepted (R310). -/
def Commanded (s : State) : Prop := s.pkg.powered = true ∧ s.pkg.stage ≠ 3

/-- The package takes firmware commands (R340). -/
def FirmwareReady (s : State) : Prop := s.pkg.powered = true ∧ (s.pkg.stage = 2 ∨ s.pkg.stage = 3)

/-- A cold start of `s` ends in `t` (R308, R310, R311, R329): nothing of what ran is left; with an image that passes its
checks, slot A before slot B, the start is in stage 0, and otherwise in stage 3 with the reason. Whether the infrastructure
control cores pass their self-test (reason 4) is left open. -/
def ColdStarted (s t : State) : Prop :=
  t.pkg.powered = true ∧ t.groups = [] ∧ t.teams = [] ∧ t.parts = [] ∧ t.hbm = [] ∧ t.slices = [] ∧ t.tlb = [] ∧
  t.pkg.flashA = s.pkg.flashA ∧ t.pkg.flashB = s.pkg.flashB ∧ t.pkg.fuseSvn = s.pkg.fuseSvn ∧
  t.pkg.revoked = s.pkg.revoked ∧ t.fabric.coldStarts = s.fabric.coldStarts + 1 ∧ t.pkg.cold = false ∧
  ((t.pkg.stage = 3 ∧ t.pkg.fail = 4) ∨
    ((s.pkg.imageFails s.pkg.flashA = none → t.pkg.stage = 0 ∧ t.pkg.fail = 0 ∧
      t.pkg.bootHeader = Flash.header s.pkg.flashA) ∧
    (s.pkg.imageFails s.pkg.flashA ≠ none → s.pkg.imageFails s.pkg.flashB = none → t.pkg.stage = 0 ∧ t.pkg.fail = 0 ∧
      t.pkg.bootHeader = Flash.header s.pkg.flashB) ∧
    (s.pkg.imageFails s.pkg.flashA ≠ none → ∀ code, s.pkg.imageFails s.pkg.flashB = some code →
      t.pkg.stage = 3 ∧ t.pkg.fail = code)))

/-- Functions of the device that take accesses (R313). -/
def functionsOn (k : Package) (f : Nat) : Prop := k.powered = true ∧ (f = 0 ∨ k.vfEnabled.getD f false = true)

end Sys2Proof.Claims

/-- R288, R309, R266: the commands on partitions. Each is refused, waits, or completes, by Table 4; a partition is created on
free clusters, control cores and ports and on the lowest range of clean granules; cores, granules and ports join it and leave
it; one is destroyed once no remote request of it is in flight, and no list of a context of it is to be written; a command that
waits completes when its condition holds. That a PART_CREATE without a cluster is refused, and that the range is the lowest, is
the model's choice (assumption log 23). -/
def Sys2Proof.Claims.PartitionCommands : Prop :=
  (∀ (s : State) (clus ccs ports : BitVec 32) (gran num base : Nat) (image : List Byte), Commanded s →
    LowestFree num 24 (fun n => s.part? n = none) →
    let create : Instr := .partCreate clus ccs gran ports image
    (ccs = 0 ∨ clus = 0 ∨ (∃ p ∈ s.parts, p.clus &&& clus ≠ 0 ∨ p.ccs &&& ccs ≠ 0) → exec create s = .next (s.replied .refused)) ∧
    (ccs ≠ 0 → clus ≠ 0 → (∀ p ∈ s.parts, p.clus &&& clus = 0 ∧ p.ccs &&& ccs = 0) → s.portsHeld ports 32 = false →
      LowestFree base 513 (fun i => i + gran ≤ 512 ∧ ∀ j, i ≤ j → j < i + gran → s.pkg.grans[j]? = some .clean) →
      clus &&& ~~~s.pkg.clavail = 0 → ∃ t q, exec create s = .next t ∧ t.parts = s.parts ++ [q] ∧ q.num = num ∧
        q.clus = clus ∧ q.ccs = ccs ∧ q.ports = ports ∧ q.baseGran = base ∧ q.nGran = gran ∧ q.contexts = [⟨0, none⟩] ∧
        q.launches = [] ∧ q.image = image ∧ (∀ j, base ≤ j → j < base + gran → t.pkg.grans[j]? = some (.held num)) ∧
        t.pkg.reply = .done)) ∧
  (∀ (s : State) (p : Partition) (part n : Nat) (clus ports : BitVec 32), Commanded s → s.part? part = some p →
    p.waiting = [] →
    ((∀ o ∈ s.openLists, o.world / 128 ≠ part) → (∀ r ∈ s.fabric.reqs, r.part ≠ part) →
      ∃ t, exec (.partDestroy part) s = .next t ∧ t.part? part = none ∧ t.pkg.reply = .done ∧
        ∀ i, i < 512 → s.pkg.grans[i]? = some (.held part) →
          t.pkg.grans[i]? = some .queued ∨ t.pkg.grans[i]? = some .scrubbing) ∧
    (p.contexts = [] → (∃ o ∈ s.openLists, o.world / 128 = part) → ∃ t q, exec (.partDestroy part) s = .next t ∧
      t.part? part = some q ∧ q.waiting = [(.destroy, true)] ∧ t.pkg.reply = .waits) ∧
    ((∃ q ∈ s.parts, q.clus &&& clus ≠ 0) → ∃ t, exec (.coreAdd part clus) s = .next t ∧ t.part? part = some p ∧
      t.pkg.reply = .refused) ∧
    ((∀ q ∈ s.parts, q.clus &&& clus = 0) → clus &&& ~~~s.pkg.clavail = 0 → ∃ t, exec (.coreAdd part clus) s = .next t ∧
      t.part? part = some { p with clus := p.clus ||| clus } ∧ t.pkg.reply = .done) ∧
    (p.clus &&& ~~~clus = 0 → ∃ t, exec (.coreRemove part clus false) s = .next t ∧ t.part? part = some p ∧
      t.pkg.reply = .refused) ∧
    (p.clus &&& ~~~clus ≠ 0 → (∀ l ∈ p.launches, l.record.coop = false) →
      ((∀ t ∈ s.teams, t.part = part → ∀ c ∈ t.cores, c < 256 → ((clus &&& p.clus).getLsbD (c / 8)) = false) →
        ∃ u q, exec (.coreRemove part clus false) s = .next u ∧ u.part? part = some q ∧ q.clus = p.clus &&& ~~~clus ∧
          q.removing = [] ∧ q.launches = p.launches ∧ u.pkg.reply = .done) ∧
      ((∃ t ∈ s.teams, t.part = part ∧ ∃ c ∈ t.cores, c < 256 ∧ ((clus &&& p.clus).getLsbD (c / 8)) = true) →
        ∃ u q, exec (.coreRemove part clus false) s = .next u ∧ u.part? part = some q ∧ q.clus = p.clus ∧
          q.removing = coresOf (clus &&& p.clus) ∧ u.pkg.reply = .waits)) ∧
    ((∀ j, p.baseGran + p.nGran ≤ j → j < p.baseGran + p.nGran + n → s.pkg.grans[j]? = some .clean) →
      ∃ t q, exec (.hbmGrow part n) s = .next t ∧ t.part? part = some q ∧ q.nGran = p.nGran + n ∧ t.pkg.reply = .done ∧
        ∀ j, p.baseGran + p.nGran ≤ j → j < p.baseGran + p.nGran + n → t.pkg.grans[j]? = some (.held part)) ∧
    (p.nGran ≤ n → ∃ t, exec (.hbmShrink part n) s = .next t ∧ t.part? part = some p ∧ t.pkg.reply = .refused) ∧
    (n < p.nGran → p.tlbBusy = false → ∃ t, exec (.hbmShrink part n) s = .next t ∧ t.pkg.reply = .done ∧
      t.part? part = some { p with nGran := p.nGran - n, tlbBusy := true, tlbCmd := (2, 0, 0) }) ∧
    ((∀ k, k < 32 → ports.getLsbD k = true → ∃ x, s.pkg.ports[k]? = some x ∧ (x.owner = 31 ∨ x.owner = part)) →
      (∀ r ∈ s.fabric.reqs, r.part = part → r.port < 32 → (p.ports &&& ~~~ports).getLsbD r.port = false) →
      ∃ t, exec (.portSet part ports) s = .next t ∧ t.part? part = some { p with ports := ports } ∧ t.pkg.reply = .done ∧
        ∀ k, k < 32 → ports.getLsbD k = true → ∃ x, t.pkg.ports[k]? = some x ∧ x.owner = part)) ∧
  (∀ (s s' : State) (p : Partition) (part : Nat) (c : WaitCmd) (rest : List (WaitCmd × Bool)), s.part? part = some p →
    p.waiting = (c, true) :: rest →
    (s.judge p c = .go s' → exec (.waitingCommandResume part) s =
      .next ((s'.updPart part fun p => { p with waiting := p.waiting.tail }).replied .done)) ∧
    (s.judge p c = .refused → exec (.waitingCommandResume part) s =
      .next ((s.setPart { p with waiting := rest }).replied .refused)) ∧
    (∀ clus force, c = .coreRemove clus force → s.judge p c = .go s' → exec (.coreRemoveComplete part) s =
      .next ((s'.updPart part fun p => { p with waiting := p.waiting.tail }).replied .done)))

/-- R302, R310, R311, R326, R336, R340: the commands on sleep, granules and firmware. A key is in use while a slot with a
well-formed header names it. That a write of more than 4,000 bytes is refused, that slot B is unchecked after a commit, and that
a granule which a partition holds is not retired, is the model's choice (assumption log 24). -/
def Sys2Proof.Claims.DeviceCommands : Prop :=
  (∀ (s : State) (force : Bool) (mode : W64), Commanded s →
    (s.pkg.cold = true ∨ s.pkg.sleepSt ≠ .awake → exec (.sleep force) s = .next (s.replied .refused)) ∧
    (s.pkg.cold = false → s.pkg.sleepSt = .awake → s.pkg.waitCreate = [] → (∀ p ∈ s.parts, p.waiting = []) →
      force = true ∨ s.coopResident = [] → ∃ t, exec (.sleep force) s = .next t ∧ t.pkg.reply = .done ∧
        (t.pkg.sleepSt = .entering ∨ (t.pkg.sleepSt = .asleep ∧ t.pkg.powered = false ∧ t.tlb = []))) ∧
    exec (.wakemode mode) s = .next (completed { s with pkg := { s.pkg with wakeMode := mode } } 8 [mode.toNat])) ∧
  (∀ (s : State) (i : Nat), Commanded s →
    (∀ p, s.pkg.grans[i]? = some (.held p) → exec (.granRetire i) s = .next (s.replied .refused)) ∧
    (s.pkg.grans[i]? = some .scrubbing →
      exec (.granRetire i) s = .next (completed { s with pkg := { s.pkg with retireAfter := true } } 9 [i])) ∧
    (s.pkg.grans[i]? = some .clean ∨ s.pkg.grans[i]? = some .queued → ∃ t, exec (.granRetire i) s = .next t ∧
      t.pkg.grans = s.pkg.grans.set i .retired ∧ t.pkg.reply = .done ∧
      t.pkg.scrubQueue = s.pkg.scrubQueue.filter (· != i))) ∧
  (∀ (s : State) (fails : Bool) (i : Nat) (rest : List Nat), s.pkg.scrubQueue = i :: rest → i ∉ rest →
    i < s.pkg.grans.length → ∃ t, exec (.granuleScrubDone fails) s = .next t ∧ t.pkg.scrubQueue = rest ∧
      (∀ a, i * 2 ^ 30 ≤ a → a < (i + 1) * 2 ^ 30 → t.hbm.read a = 0) ∧
      (∀ a, a < i * 2 ^ 30 ∨ (i + 1) * 2 ^ 30 ≤ a → t.hbm.read a = s.hbm.read a) ∧
      (fails = true ∨ s.pkg.retireAfter = true → t.pkg.grans[i]? = some .retired) ∧
      (fails = false → s.pkg.retireAfter = false → 8 ≤ s.pkg.grans.countP (· == .held 31) →
        t.pkg.grans[i]? = some .clean) ∧
      ∀ j, rest.head? = some j → j < s.pkg.grans.length → t.pkg.grans[j]? = some .scrubbing) ∧
  (∀ (s : State) (off key : Nat) (bs : List Byte) (v : BitVec 32), FirmwareReady s →
    let names := fun f : Flash => Flash.wellFormed f = true ∧ Flash.kidx f = key
    (off + bs.length ≤ 0x4000000 → bs.length ≤ 4000 → ∃ t, exec (.fwWrite off bs) s = .next t ∧ t.pkg.bChecked = false ∧
      t.pkg.reply = .done ∧ t.pkg.flashA = s.pkg.flashA ∧
      (∀ k, k < bs.length → t.pkg.flashB[off + k]? = bs[k]?) ∧
      ∀ k, k < s.pkg.flashB.length → k < off ∨ off + bs.length ≤ k → t.pkg.flashB[k]? = s.pkg.flashB[k]?) ∧
    (0x4000000 < off + bs.length ∨ 4000 < bs.length → exec (.fwWrite off bs) s = .next (s.replied .refused)) ∧
    (s.pkg.imageFails s.pkg.flashB = none →
      exec .fwCheck s = .next (completed { s with pkg := { s.pkg with bChecked := true } } 11 [])) ∧
    (∀ c, s.pkg.imageFails s.pkg.flashB = some c →
      exec .fwCheck s = .next ((s.measure 6 (Config.commandRecord 11 [])).replied (.failed c))) ∧
    (s.pkg.bChecked = false → exec .fwCommit s = .next (s.replied .refused)) ∧
    (s.pkg.bChecked = true → ∃ t, exec .fwCommit s = .next t ∧ t.pkg.flashA = s.pkg.flashB ∧
      t.pkg.flashB = s.pkg.flashA ∧ t.pkg.bChecked = false ∧ t.pkg.cold = true ∧ t.pkg.reply = .done) ∧
    (v.toNat ≤ Flash.svn s.pkg.flashA → v.toNat ≤ Flash.svn s.pkg.flashB → s.pkg.fuseSvn.toNat ≤ v.toNat →
      ∃ t, exec (.fwSvn v) s = .next t ∧ t.pkg.fuseSvn = v ∧ t.pkg.reply = .done) ∧
    (v.toNat < s.pkg.fuseSvn.toNat ∨ Flash.svn s.pkg.flashA < v.toNat ∨ Flash.svn s.pkg.flashB < v.toNat →
      exec (.fwSvn v) s = .next (s.replied .refused)) ∧
    (key < 4 → ¬names s.pkg.flashA → ¬names s.pkg.flashB →
      (∃ i, i < 4 ∧ i ≠ key ∧ s.pkg.revoked.getLsbD i = false) → ∃ t, exec (.fwRevoke key) s = .next t ∧
        t.pkg.reply = .done ∧ ∀ i, i < 4 → t.pkg.revoked.getLsbD i = (s.pkg.revoked.getLsbD i || decide (i = key))) ∧
    (names s.pkg.flashA ∨ names s.pkg.flashB →
      exec (.fwRevoke key) s = .next (s.replied .refused)))

/-- R266, R288, R302, R309 to R311, R326, R336, R340: the management commands, on partitions and on the device. The model's
choices among them are assumption logs 23 and 24. -/
def Obligations.ManagementCommands : Prop :=
  PartitionCommands ∧ DeviceCommands

/-- R307 to R313, R328, R329: start and resets. A cold start follows the deassertion of PERST# or a hot reset; after
retain-sleep the deassertion wakes the package, which restores what it saved once its stacks are trained, if the image opens with
the key that it kept, and else starts cold; stages 1 and 2 follow the training of the stacks and the self-tests of the
clusters; an assertion of PERST# stops the device; function-level resets reach mailboxes and ring registers. That all memory
reads 0 after a cold start, where R329 only queues the granules for scrubbing, is the model's choice (assumption logs 9 and 26);
so are what the wake restores and keeps, and that the loss of the always-on domain is acted on at once (assumption log 25). -/
def Obligations.StartEvents : Prop :=
  ∀ (s : State) (i : Nat) (v : W64),
    (s.pkg.powered = false → s.pkg.sleepSt ≠ .asleep ∨ s.pkg.retained = false ∨ s.pkg.cold = true →
      ∃ t, exec .perstDeassert s = .next t ∧ ColdStarted s t) ∧
    (s.pkg.powered = false → s.pkg.sleepSt = .asleep → s.pkg.retained = true → s.pkg.cold = false →
      s.pkg.imageFails s.pkg.flashA = none → Flash.header s.pkg.flashA = s.pkg.bootHeader →
      (∃ x ∈ s.pkg.trained, x = .passed) → ∃ t, exec .perstDeassert s = .next t ∧ t.pkg.powered = true ∧ t.pkg.stage = 0 ∧
        t.pkg.sleepSt = .waking ∧ t.pkg.sleepcnt = s.pkg.sleepcnt + 1 ∧ t.groups = s.groups ∧ t.hbm = s.hbm ∧
        t.pkg.clavail = 0 ∧ ∀ x ∈ t.pkg.trained, x ≠ .passed) ∧
    (∀ x, s.pkg.powered = true → s.pkg.stage = 0 → s.pkg.sleepSt = .waking → s.pkg.trained[i]? = some .waiting →
      (∀ y ∈ s.pkg.trained.set i .passed, y ≠ .waiting) → (∀ y ∈ s.pkg.clusters, y ≠ .waiting) →
      s.pkg.sleepImage = some x → s.pkg.sleepHeld = [] → s.pkg.heldCalls = [] →
      (x.key = s.pkg.sleepKey → ∃ t, exec (.hbmStackTrained i true) s = .next t ∧ t.pkg.stage = 2 ∧ t.pkg.sleepSt = .awake ∧
        t.groups = x.groups ∧ t.teams = x.teams ∧ t.slices = x.slices ∧ t.parts = x.parts ∧ t.pkg.convs = x.convs ∧
        t.pkg.clkStep = max s.pkg.demPower (max s.pkg.demThermal s.pkg.demCool)) ∧
      (x.key ≠ s.pkg.sleepKey → ∃ t, exec (.hbmStackTrained i true) s = .next t ∧ t.groups = [] ∧ t.parts = [])) ∧
    (s.pkg.sleepSt = .asleep → exec .perstAssert s = .next s) ∧
    (s.pkg.sleepSt ≠ .asleep → ∃ t, exec .perstAssert s = .next t ∧ t.pkg.powered = false ∧ t.groups = [] ∧ t.parts = [] ∧
      t.slices = [] ∧ t.pkg.stage = 0 ∧ t.pkg.flashA = s.pkg.flashA ∧ t.pkg.fuseSvn = s.pkg.fuseSvn) ∧
    (s.pkg.powered = true → ∃ t, exec .hotReset s = .next t ∧ ColdStarted s t) ∧
    (s.pkg.sleepSt = .awake ∨ s.pkg.sleepSt = .entering →
      exec .alwaysOnPowerLoss s = .next { s with pkg := { s.pkg with retained := false } }) ∧
    (s.pkg.sleepSt = .asleep → ∃ t, exec .alwaysOnPowerLoss s = .next t ∧ t.groups = [] ∧ t.parts = [] ∧
      t.pkg.sleepSt = .awake ∧ t.pkg.retained = false) ∧
    (s.pkg.powered = true → s.pkg.stage ≤ 1 → s.pkg.sleepSt ≠ .waking → s.pkg.trained[i]? = some .waiting →
      (∃ t, exec (.hbmStackTrained i true) s = .next t ∧ t.pkg.trained = s.pkg.trained.set i .passed ∧
        (((∀ x ∈ s.pkg.trained.set i .passed, x ≠ .waiting) ∧ ∀ x ∈ s.pkg.clusters, x ≠ .waiting) → t.pkg.stage = 2) ∧
        (((∃ x ∈ s.pkg.trained.set i .passed, x = .waiting) ∨ ∃ x ∈ s.pkg.clusters, x = .waiting) → t.pkg.stage = 1) ∧
        t.pkg.scrubQueue = s.pkg.scrubQueue ++
          ((List.range 64).map (64 * i + ·)).filter fun j => s.pkg.grans.getD j .retired != .retired) ∧
      (∃ t, exec (.hbmStackTrained i false) s = .next t ∧ t.pkg.trained = s.pkg.trained.set i .failed ∧
        ∀ j, 64 * i ≤ j → j < 64 * i + 64 → j < s.pkg.grans.length → t.pkg.grans[j]? = some .retired)) ∧
    (∀ ok, s.pkg.powered = true → s.pkg.stage ≤ 1 → s.pkg.sleepSt ≠ .waking → s.pkg.clusters[i]? = some .waiting →
      ∃ t, exec (.clusterSelfTestDone i ok) s = .next t ∧
        t.pkg.clusters = s.pkg.clusters.set i (if ok then .passed else .failed) ∧
        (t.pkg.stage = 2 ↔ (s.pkg.stage = 1 ∨ ∃ x ∈ s.pkg.trained, x = .passed) ∧ (∀ x ∈ s.pkg.trained, x ≠ .waiting) ∧
          ∀ x ∈ t.pkg.clusters, x ≠ .waiting) ∧
        (t.pkg.stage = 2 → ∀ c, c < 32 → (t.pkg.clavail.getLsbD c = true ↔ t.pkg.clusters[c]? = some .passed))) ∧
    (i ≠ 0 → functionsOn s.pkg i → ∀ m c, s.pkg.mailboxes[i]? = some m → s.pkg.channels[i]? = some c →
      exec (.vfFlr i) s = .next { s with pkg := { s.pkg with
        mailboxes := s.pkg.mailboxes.set i ⟨.none, [], [], [], none⟩
        channels := s.pkg.channels.set i { c with ringBase := 0, replyBase := 0, log := 0, head := 0, tail := 0 } } }) ∧
    (functionsOn s.pkg i → i < 25 → ∀ m c, s.pkg.mailboxes[i]? = some m → s.pkg.channels[i]? = some c →
      ∃ t, exec .pf0Flr s = .next t ∧ t.pkg.mailboxes[i]? = some ⟨.none, [], [], [], none⟩ ∧
        t.pkg.channels[i]? = some { c with ringBase := 0, replyBase := 0, log := 0, head := 0, tail := 0 } ∧
        t.groups = s.groups ∧ t.parts = s.parts) ∧
    (s.pkg.powered = true → v.getLsbD 0 = true → exec (.coldWrite v) s = .next { s with pkg := { s.pkg with cold := true } })

/-! ## Errors, fleet registers, channels and attestation -/

namespace Sys2Proof.Claims

/-- A saturating count of 32 bits. -/
def sat32 (n : Nat) : Nat := min (n + 1) 0xFFFFFFFF

/-- What a mailbox holds after a request that is answered (R314, R315): the new state, the messages that negotiated it, those
of digests and certificates since, those of measurements since, and the answer. -/
def spdmAnswered (s : State) (mb : Nat) (next : SpdmSt) (vca auth meas : List Byte) (a : SpdmResp) : State :=
  { s with pkg := { s.pkg with mailboxes := s.pkg.mailboxes.set mb ⟨next, vca, auth, meas, some a⟩ } }

/-- A mailbox with another answer, and nothing else of it changed. -/
def spdmRefused (s : State) (mb : Nat) (m : Mailbox) (code : Nat) : State :=
  { s with pkg := { s.pkg with mailboxes := s.pkg.mailboxes.set mb { m with resp := some (.error code) } } }

/-- A message as Table 10 of R319 decides it for a channel whose expected number is e. A reply takes the next number and the next
slot of the reply ring; its layout there is the model's choice (log 29). -/
def Decides (c d : Channel) (m : ChanMsg) : Prop :=
  let e := c.next.toNat
  let answers := fun (kind : Nat) (carries : W64) (clear : Bool) =>
    c.replies ++ [(⟨c.replies.length + 1, kind, carries, clear,
      c.replyBase + BitVec.ofNat 64 (4096 * (c.replies.length % 2 ^ c.log)),
      c.sealed (c.replies.length + 1) kind carries clear⟩ : ChanReply)]
  (c.keyed = false → d = { c with replies := answers 3 0 true }) ∧
  (c.keyed = true → c.expired = true → d = { c with replies := answers 2 0 false }) ∧
  (c.keyed = true → c.expired = false →
    (m.seq < e → d = { c with dup := c.dup + 1 }) ∧
    (e ≤ m.seq → c.opened m = none → d = { c with badtag := c.badtag + 1 }) ∧
    (e < m.seq → c.opened m ≠ none → d = { c with gap := c.gap + 1, replies := answers 1 c.next false }) ∧
    (e = m.seq → ∀ pt, c.opened m = some pt →
      (m.seq = 2 ^ 64 - 1 → d = { c with inbox := c.inbox ++ [pt], expired := true }) ∧
      (m.seq ≠ 2 ^ 64 - 1 → d = { c with inbox := c.inbox ++ [pt], next := c.next + 1 })))

end Sys2Proof.Claims

/-- R30, R296, R297, R335: errors. An uncorrectable error ends the launches of its domain's worlds, unless they are being
terminated already; one of an HBM line, or of a modified line of a memory-side cache, poisons the line and ends every context
of the partition that owns it; those of classes 6 and 8 drop the entry or the clean copy and are corrected errors; one of
class 14 takes the unit out of service and ends the worlds that stand on two dies without a route; one of class 15 restarts
its control core, and that of an infrastructure core is only recorded; a register element that is read and not consumed is
poisoned and logged with its owner. Corrected errors are counted, and an addition that leaves a count at its limit or above is
reported once in a window. That an infrastructure core's error is only recorded, with bit 31 of the partition mask, and that the
event of class 14 says which dies are cut off, is the model's choice (assumption logs 27 and 28). -/
def Sys2Proof.Claims.ErrorEvents : Prop :=
  (∀ (s : State) (x : ErrSite), s.pkg.powered = true → s.openLists = [] →
    (x.cls ∈ [1, 2, 3, 4, 5, 7, 11, 12, 13, 14] ∨ (x.cls = 15 ∧ x.unit < 32) ∨ (x.cls = 0 ∧ x.latent = false) → ∃ t, exec (.uncorrectableError x) s = .next t ∧
      (∀ w p, w ∈ (s.domainOf x).worlds → s.part? (w / 128) = some p → ∃ q, t.part? (w / 128) = some q ∧
        ∀ l ∈ q.launches, l.ctx ≠ w % 128) ∧
      (x.cls = 2 → x.entry < sliceSize → ∀ a, sliceSize * x.unit + x.entry / 64 * 64 ≤ a →
        a < sliceSize * x.unit + x.entry / 64 * 64 + 64 → t.slices.read a = 0)) ∧
    (x.cls = 2 → x.readable = true → ∀ w, w ∈ (s.domainOf x).worlds ↔ ∃ m ∈ s.teams, x.unit ∈ m.cores ∧ m.spilled = none ∧
      m.sliceOff ≤ x.entry ∧ x.entry < m.sliceOff + m.sliceLen ∧ w = m.part * 128 + m.ctx) ∧
    (x.cls = 6 → exec (.uncorrectableError x) s = exec (.correctedError 6) { s with tlb := s.tlb.eraseIdx x.entry }) ∧
    (x.cls = 8 →
      let l := s.line (x.entry / 64 * 64)
      (l.cached = true → l.dirty = false →
        exec (.uncorrectableError x) s = exec (.correctedError 8) (s.setLine { l with cached := false, slot := 0, world := 0 })) ∧
      (l.cached = false ∨ l.dirty = true → exec (.uncorrectableError x) s = exec (.correctedError 8) s)) ∧
    (x.cls = 14 → ∃ t, exec (.uncorrectableError x) s = .next t ∧ t.pkg.unitsOut = s.pkg.unitsOut ++ [(14, x.unit)] ∧
      ∀ d e, x.cut = some (d, e) → ∀ m ∈ s.teams, ∀ n ∈ s.teams, n.part = m.part → n.ctx = m.ctx → m.ctx < 128 →
        (∃ c ∈ m.cores, c / 64 = d) → (∃ c ∈ n.cores, c / 64 = e) → ∀ p, s.part? m.part = some p →
          ∃ q, t.part? m.part = some q ∧ ∀ l ∈ q.launches, l.ctx ≠ m.ctx) ∧
    (∀ p, x.cls = 15 → x.unit < 32 → s.parts.find? (fun p => p.ccs.getLsbD x.unit) = some p →
      s.part? p.num = some p → (∀ c ∈ p.contexts, c.id < 128) →
      ∃ t, exec (.uncorrectableError x) s = .next t ∧
        (∃ q, t.part? p.num = some q ∧ ∀ l ∈ q.launches, ∀ c ∈ p.contexts, l.ctx ≠ c.id) ∧
        (∀ r ∈ t.svc, ¬(r.part = p.num ∧ r.cc = x.unit)) ∧ ∀ c ∈ t.pkg.heldCalls, ¬(c.part = p.num ∧ c.cc = x.unit)) ∧
    (x.cls = 15 → 32 ≤ x.unit → exec (.uncorrectableError x) s =
      .next (s.errPush ⟨0, 0, 0, 1, 15, 0, 1#32 <<< 31, x.unit, 0, []⟩)) ∧
    (∀ p, x.cls = 9 ∨ x.cls = 10 → s.late = [] → s.ownerOf (x.entry / 64 * 64) = some p → s.part? p.num = some p → (∀ c ∈ p.contexts, c.id < 128) →
      ∃ t q, exec (.uncorrectableError x) s = .next t ∧
        ((∀ r ∈ s.parts, r.ringOn = false) → (t.line (x.entry / 64 * 64)).poisoned = true) ∧
        t.part? p.num = some q ∧ ∀ l ∈ q.launches, ∀ c ∈ p.contexts, l.ctx ≠ c.id) ∧
    (∀ g, x.cls = 0 → x.latent = true → s.group? (x.entry / 65536) = some g →
      let r := x.entry / 64 % 1024
      let word : Poison := ⟨r, x.entry % 64, x.half % 3⟩
      r < g.alloc → x.entry % 64 < (match g.vreg r with | .u _ => 1 | .a _ _ => 2 | .g _ => g.width.n) →
      exec (.uncorrectableError x) s = .next { s.setGroup { g with
        poison := if word ∈ g.poison then g.poison else g.poison ++ [word] } with
          latent := s.latent ++ [⟨g.part * 128 + g.ctx, g.uid, g.core, word⟩] })) ∧
  (∀ (s : State) (c : Nat) (v : W64), s.pkg.powered = true → c < 16 →
    let was := (s.pkg.cecnt.getD c 0).toNat
    let lim := (s.pkg.celim.getD c 0).toNat
    let counted := s.pkg.cecnt.set c (BitVec.ofNat 32 (sat32 was))
    (lim = 0 ∨ sat32 was < lim ∨ s.pkg.ceSeen.getD c false = true →
      exec (.correctedError c) s = .next { s with pkg := { s.pkg with cecnt := counted } }) ∧
    (lim ≠ 0 → lim ≤ sat32 was → s.pkg.ceSeen.getD c false = false → exec (.correctedError c) s =
      .next (State.errPush { s with pkg := { s.pkg with cecnt := counted, ceSeen := s.pkg.ceSeen.set c true } }
        ⟨2, 0, 1, 0, c, 0, 0, 0, 0, []⟩)) ∧
    exec .ceWindowRestart s = .next { s with pkg := { s.pkg with
      cecnt := List.replicate 16 0, ceSeen := List.replicate 16 false } } ∧
    exec (.celimWrite c v) s = .next { s with pkg := { s.pkg with celim := s.pkg.celim.set c (v.setWidth 16) } })

/-- R330, R331, R337 to R339, R250, R286, R295, R319: the fleet block, the error ring's registers, the clock, and what writes
of other registers store. A thermal trip whose record finds the error ring full waits for room until the next evaluation. A
write without power is discarded. What the power and thermal demands are relative to, and that such a trip waits for the next
evaluation, is the model's choice (assumption log 28). -/
def Sys2Proof.Claims.RegisterEvents : Prop :=
  ∀ (s : State) (v : W64),
    exec .pwrpeakRead s = .next { s with pkg := { s.pkg with pwrPeak := 0 } } ∧
    (∃ n, exec (.retryintWrite v) s = .next { s with pkg := { s.pkg with retryInt := n } } ∧ 1000 ≤ n ∧
      (1000 ≤ v.toNat % 2 ^ 24 → n = v.toNat % 2 ^ 24) ∧ (v.toNat % 2 ^ 24 < 1000 → n = 1000)) ∧
    exec (.errRingConfigWrite true v) s =
      .next { s with pkg := { s.pkg with errBase := BitVec.ofNat 64 (v.toNat / 4096 * 4096) } } ∧
    (let flushed := fun (k : Package) => State.errFlush { s with pkg := k } 258
     let goes := fun (i : Instr) (k : Package) =>
       (s.pkg.tripping = false → exec i s = .next (flushed k)) ∧
       (s.pkg.tripping = true → (flushed k).pkg.errRoom = true → (flushed k).pkg.errHeld = [] → ∃ t, exec i s = .next t ∧
         t.pkg.powered = false ∧ t.groups = [] ∧ t.hbm = []) ∧
       (s.pkg.tripping = true → (flushed k).pkg.errRoom = false ∨ (flushed k).pkg.errHeld ≠ [] → exec i s = .next (flushed k))
     goes (.errRingConfigWrite false v) { s.pkg with errLog := v.toNat % 16 } ∧
     goes (.errtailWrite v) { s.pkg with errTail := v.setWidth 32 }) ∧
    (∀ x : ThermalSample, s.pkg.powered = true →
      (s.pkg.tripping = true ∨ (110 ≤ x.tj ∧ s.pkg.errRoom = true ∧ s.pkg.errHeld = []) →
        ∃ t, exec (.clockEvaluation x) s = .next t ∧ t.pkg.powered = false ∧ t.groups = [] ∧ t.hbm = []) ∧
      (s.pkg.tripping = false → 110 ≤ x.tj → s.pkg.errRoom = false ∨ s.pkg.errHeld ≠ [] →
        ∃ t, exec (.clockEvaluation x) s = .next t ∧ t.pkg.tripping = true ∧ t.pkg.powered = true ∧ t.groups = s.groups) ∧
      (s.pkg.tripping = false → x.tj < 110 → (s.pkg.hotMs + 1 < 1000 ∨ x.tj < 100) → ∃ t, exec (.clockEvaluation x) s = .next t ∧
        t.pkg.clkStep = (if s.pkg.stage = 1 then 2 else max t.pkg.demPower (max t.pkg.demThermal t.pkg.demCool)) ∧
        t.pkg.demCool = (if 40 < x.inlet ∨ x.flow < 30 then 2 else 0) ∧
        (100 ≤ x.tj → t.pkg.demThermal = min 2 (s.pkg.demThermal + 1)) ∧
        (s.pkg.pwrCap < x.pwrAvg → t.pkg.demPower = min 2 (s.pkg.clkStep + 1)) ∧
        (10 * x.pwrAvg < 9 * s.pkg.pwrCap → 9 ≤ s.pkg.lowPowerMs → t.pkg.demPower = s.pkg.demPower - 1) ∧
        t.pkg.pwrPeak = max s.pkg.pwrPeak (min x.pwr1ms 65535) ∧ t.groups = s.groups)) ∧
    (s.pkg.powered = false → ∀ b off, exec (.registerWrite b off v) s = .next s) ∧
    (s.pkg.powered = true →
      exec (.registerWrite .management 0x18 v) s =
        .next (if v.getLsbD 0 then { s with pkg := { s.pkg with cold := true } } else s) ∧
      exec (.registerWrite .fleet 0x2100 v) s =
        .next { s with pkg := { s.pkg with pwrCap := max 600 (min 1800 (v.toNat % 2 ^ 11)) } } ∧
      exec (.registerWrite .fleet 0x2208 v) s =
        .next { s with pkg := { s.pkg with scrubBw := max 8 (min 64 (v.toNat % 2 ^ 7)) } } ∧
      exec (.registerWrite .fleet 0x2380 v) s = .next { s with pkg := { s.pkg with cewin := max 1 (v.toNat % 65536) } } ∧
      (∀ part p, s.part? part = some p →
        exec (.registerWrite (.control part) 0x18 v) s =
          .next (s.setPart { p with tlbva := BitVec.ofNat 64 (v.toNat / 65536 * 65536) }) ∧
        exec (.registerWrite (.event part) 0x00 v) s = .next (s.setPart { p with evwin := v.setWidth 32 }) ∧
        exec (.registerWrite (.event part) 0x50 v) s = .next (s.setPart { p with stalllim := v.setWidth 32 }) ∧
        (∀ k, k < 8 → exec (.registerWrite (.event part) (8 + 8 * k) v) s =
          .next (s.setPart { p with evlim := p.evlim.set k (v.setWidth 32) })) ∧
        (∀ k, k < 64 → ∃ x : Grant, exec (.registerWrite (.grant part) (8 * k) v) s =
          .next (s.setPart { p with grants := p.grants.set k x }) ∧ x.valid = v.getLsbD 63 ∧ x.anyCtx = v.getLsbD 62 ∧
          x.dev = v.toNat / 2 ^ 12 % 2 ^ 16 ∧ x.world = v.toNat % 2 ^ 12) ∧
        (∀ q, q < 16 → exec (.registerWrite (.launch part) (0x100 + 8 * q) v) s = .next (s.setPart { p with
          queues := p.queues.mapIdx fun i x => if i = q then { x with ctx := v.toNat % 128 } else x }))) ∧
      (∀ ch c, functionsOn s.pkg ch → s.pkg.channels[ch]? = some c →
        exec (.registerWrite (.channel ch) 0x10 v) s =
          .next { s with pkg := { s.pkg with channels := s.pkg.channels.set ch { c with log := v.toNat % 16 } } } ∧
        exec (.registerWrite (.channel ch) 0x18 v) s =
          .next { s with pkg := { s.pkg with channels := s.pkg.channels.set ch { c with head := v.setWidth 32 } } }))

/-- R30, R88, R250, R286, R295 to R297, R307, R319, R330, R331, R335, R337 to R339: errors, and the registers of the fleet and of
partitions. The model's choices among them are assumption logs 27 and 28, and that nothing happens without power is assumption
log 26 (DESIGN CHOICE). -/
def Obligations.ErrorAndRegisterEvents : Prop :=
  ErrorEvents ∧ RegisterEvents

/-- R314 to R317, R319, R292, R323: the channels, the responders, a control core's stores and the write-back of a cache line.
A message is decided by Table 10; a request is answered in the states that allow it, and otherwise with the error code of
Table 7. The codes of SPDM requests and responses, the lengths of their bodies and what each of the three transcripts takes are
PRESUMED from the SPDM standard that R314 names (assumption log 29), and so is the layout of an inbox. -/
def Obligations.ChannelEvents : Prop :=
  (∀ (s : State) (ch : Nat) (c : Channel) (bs : List Byte), functionsOn s.pkg ch → s.pkg.channels[ch]? = some c →
    s.pkg.stage ≠ 3 → 1 ≤ c.log → c.log ≤ 15 → c.head ≠ c.tail → ∃ (d : Channel) (t : State),
      Decides { c with tail := c.tail + 1 } d (ChanMsg.parse bs) ∧
      t = { s with pkg := { s.pkg with channels := s.pkg.channels.set ch d } } ∧
      (d.inbox = c.inbox → exec (.channelMessage ch bs) s = .next t) ∧
      (∀ pt, d.inbox = c.inbox ++ [pt] →
        let told := fun (u : State) => exec (.channelMessage ch bs) s = .next { u with interrupts := u.interrupts ++ [.inbox ch] }
        (ch = 0 ∨ t.part? (ch - 1) = none → told t) ∧
        (∀ p, ch ≠ 0 → t.part? (ch - 1) = some p →
          told (t.writePart p (d.inboxBase.toNat + 4096 * (c.inbox.length % 2 ^ d.inboxLog)) pt)))) ∧
  (∀ (s : State) (mb : Nat) (m : Mailbox) (r : SpdmReq), functionsOn s.pkg mb → s.pkg.stage ≠ 3 →
    s.pkg.sleepSt = .awake → s.pkg.mailboxes[mb]? = some m →
    let q := fun (code : BitVec 8) => [r.version, code, r.p1, r.p2] ++ r.body
    (r.version = 0x10 → r.body = [] → ∃ bs, exec (.getVersion mb r) s =
      .next (spdmAnswered s mb .afterVersion (q 0x84 ++ bs) [] [] .version)) ∧
    (r.version ≠ 0x10 → exec (.getVersion mb r) s = .next (spdmRefused s mb m 0x41)) ∧
    (r.version ≠ 0x12 → exec (.getDigests mb r) s = .next (spdmRefused s mb m 0x41)) ∧
    (r.version = 0x12 →
      (r.body.length = 16 → m.st = .afterVersion → ∃ a bs, exec (.getCapabilities mb r) s =
        .next (spdmAnswered s mb .afterCaps (m.vca ++ (q 0xE1 ++ bs)) [] [] a)) ∧
      (r.body.length = 16 → m.st ≠ .afterVersion → exec (.getCapabilities mb r) s = .next (spdmRefused s mb m 0x04)) ∧
      (negotiateFormed r = true → (leNat ((r.body.drop 4).take 4)).testBit 10 = true →
        (leNat ((r.body.drop 8).take 4)).testBit 1 = true → m.st = .afterCaps → ∃ a bs,
        exec (.negotiateAlgorithms mb r) s =
          .next (spdmAnswered s mb .negotiated (m.vca ++ (q 0xE3 ++ bs)) [] [] a)) ∧
      (negotiateFormed r = false → exec (.negotiateAlgorithms mb r) s = .next (spdmRefused s mb m 0x01)) ∧
      (r.body = [] → m.st ≠ .negotiated → exec (.getDigests mb r) s = .next (spdmRefused s mb m 0x04)) ∧
      (m.st = .negotiated →
        (r.body = [] → ∃ bs, exec (.getDigests mb r) s = .next (spdmAnswered s mb .negotiated m.vca (m.auth ++ (q 0x81 ++ bs)) []
          (.digests [Config.sha384 (Config.certChain 0), Config.sha384 (Config.certChain 1)]))) ∧
        (let chain := Config.certChain r.p1.toNat
         let off := leNat (r.body.take 2)
         r.body.length = 4 → r.p1.toNat < 2 → off < chain.length → ∃ bs portion rest,
          portion = (chain.drop off).take (leNat ((r.body.drop 2).take 2)) ∧ rest = chain.length - off - portion.length ∧
          exec (.getCertificate mb r) s =
            .next (spdmAnswered s mb .negotiated m.vca (m.auth ++ (q 0x82 ++ bs)) [] (.certificate r.p1.toNat portion rest))) ∧
        (r.body.length = 32 → r.p1 = 0 → ∃ n o sig, o.length = 3320 ∧ sig.length = 64 ∧ exec (.challenge mb r) s =
          .next (spdmAnswered s mb .negotiated m.vca [] [] (.challengeAuth n o sig)).drawn) ∧
        (r.body = [] → r.p1.getLsbD 0 = false → s.blocksFor mb r.p2.toNat ≠ [] → ∃ bs, exec (.getMeasurements mb r) s =
          .next (spdmAnswered s mb .negotiated m.vca [] (m.meas ++ (q 0xE0 ++ bs))
            (.measurements (s.blocksFor mb r.p2.toNat) [] [] [])).drawn) ∧
        (r.body.length = 33 → r.body[32]? = some 0 → r.p1.getLsbD 0 = true → s.blocksFor mb r.p2.toNat ≠ [] →
          ∃ n o sig, o.length = 3320 ∧ sig.length = 64 ∧ exec (.getMeasurements mb r) s =
            .next (spdmAnswered s mb .negotiated m.vca [] []
              (.measurements (s.blocksFor mb r.p2.toNat) n o sig)).drawn))) ∧
    (∀ code, code ∉ [0x84#8, 0xE1#8, 0xE3#8, 0x81#8, 0x82#8, 0x83#8, 0xE0#8] →
      exec (.spdmUnsupportedRequest mb code r) s = .next (spdmRefused s mb m 0x07))) ∧
  (∀ (s : State) (p : Partition) (part a : Nat) (bs : List Byte), s.part? part = some p → s.pkg.powered = true →
    s.hbm.wf = true → a + bs.length ≤ p.bound → ∃ t, exec (.controlCoreStore part a bs) s = .next t ∧
      (∀ k, k < bs.length → bs[k]? = some (t.hbm.read (p.baseGran * 2 ^ 30 + a + k))) ∧
      ∀ x, x < p.baseGran * 2 ^ 30 + a ∨ p.baseGran * 2 ^ 30 + a + bs.length ≤ x → t.hbm.read x = s.hbm.read x) ∧
  (∀ (s : State) (line : Nat),
    let l := s.line (line / 64 * 64)
    (l.dirty = false → exec (.memorySideCacheWriteBack line) s = .next s) ∧
    (l.dirty = true → ∃ t, exec (.memorySideCacheWriteBack line) s = .next t ∧ t.hbm = s.hbm ∧
      ∃ x : Line, t.line (line / 64 * 64) = x ∧ x = { l with
        dirty := false, tid := (s.slotTag l.slot).1, ver := (s.slotTag l.slot).2, pad := x.pad, side := x.side, flip := 0 }))

/-! ## Fetch, decode, reset and the whole machine -/

/-- R13, R63 to R65, R72: a step runs the decoded instruction. Lists of a termination that can be written are written first. With no
move in the queue, the first group in the middle of a run that neither a fence nor a write of its own holds back, nor a remote port
at which others arrived before it, issues: when the words at its pc decode to `i`, the step is `exec i` for that group; when they
decode to none, it is the immediate trap; when a fetch fails, the failure is recorded and ends the run. A move of a group
runs its next instruction in the same way, and a move that is a step of the device runs that step. A word is four bytes
in little-endian order at the device address of its pc, as memory holds them or as they were kept since its launch began. So it is
of a state in which no line has flipped bits that its code corrects; in any state the step is what happens next, with one corrected
error of class 10 for each line of which a read corrected flipped bits (R322, R335; which lines are read is what would end otherwise
if no code corrected them, assumption log 34). By the model's choice the second word of an instruction is fetched before it is
decoded, its fault stands alone, and after words of class 7 that are no instruction the group goes on at pc + 8 (assumption logs 2
and 37). -/
def Obligations.StepRunsTheDecodedInstruction : Prop :=
  (∀ (s : State) (g : Group) (w1 w2 : W32) (i : Instr) (two : Bool) (ms : List Move),
    let s1 := { s with tick := s.tick + 1, moves := ms }
    let fetches := fun (a : W64) => s1.fetchWord g.part g.ctx g.lid a
    let second := if hasSecond w1 then w2 else 0
    let runs := fun (t : Host.Outcome State Fault Refusal) =>
      fetches g.pc = .word w1 → (hasSecond w1 = true → fetches (g.pc + 4) = .word w2) →
      (decode w1 second = .ok (i, two) →
        (∀ c ∈ s.cores, ∀ b ∈ c.banks, b.2.port = []) →
        (g.fences ≠ [] ∨ (∃ l ∈ s.late, l.uid = g.uid) → s1.fenced g i = false ∧ s1.lateHolds g i = false) → t = exec i { s1 with cur := some g.uid }) ∧
      (∀ r, decode w1 second = .error r → t = .next (after s1
        { g with fails := addFailure ⟨g.runIdx, .illegalInstruction, 0, 0, 0, false⟩ g.fails } 1
        (g.pc + (if hasSecond w1 then 8 else 4)) (some .fall)))
    s.pkg.powered = true → g.stat = .running → s.listsReady = false → (∀ l ∈ s.lines, l.flip = 0) →
    (∀ l1 l2, s.moves = [] → ms = [] → s.groups = l1 ++ g :: l2 → (∀ h ∈ l1, s1.issues h = false) →
      runs (step s) ∧
      let faults := fun (a : W64) (c : Cause) (d : Nat) => step s = .next (s1.setGroup { g with
        fails := addFailure ⟨g.runIdx, c, a, 0, BitVec.ofNat 32 (d + 1), false⟩ g.fails
        lastPc := g.pc, stat := .endRun, runEnd := .fall })
      (∀ c d, fetches g.pc = .fail c d → faults g.pc c d) ∧
      (∀ c d, fetches g.pc = .word w1 → hasSecond w1 = true → fetches (g.pc + 4) = .fail c d → faults (g.pc + 4) c d)) ∧
    (s.moves = .group g.uid :: ms → s.group? g.uid = some g → runs (step s)) ∧
    (∀ j : Instr, s.moves = .event j :: ms → j.isWord = false → step s = exec j s1)) ∧
  (∀ (s : State), s.listsReady = true → s.moves = [] → (∀ l ∈ s.lines, l.flip = 0) →
    step s = .next (State.closeLists { s with tick := s.tick + 1 })) ∧
  (∀ (s : State),
    let s1 := { s with tick := s.tick + 1 }
    let corrects := fun (l : Line) => l.flip ≠ 0 ∧ wrongSymbols l.flip ≤ 1
    let read := fun (t : State) (l : Line) => ∀ u : State, State.act (s1.setLine { s.line l.addr with flip := BitVec.allOnes 576 }) = .next u →
      u.setLine { u.line l.addr with flip := 0 } ≠ t.setLine { t.line l.addr with flip := 0 }
    ((∀ l ∈ s.lines, ¬corrects l) → step s = s1.act) ∧
    (∀ t, s1.act = .next t → ∃ ls : List Line, ls.Sublist s.lines ∧
      step s = .next (ls.foldl (fun t _ => t.corrected 10) t) ∧ ∀ l ∈ s.lines, l ∈ ls ↔ corrects l ∧ read t l)) ∧
  ∀ (s : State) (part ctx lid dev : Nat) (pc e : W64), s.translate part ctx pc .fetch = .ok dev e →
    s.badLine (.hbm dev (e.toNat / 2 ^ 50) (part * 128 + ctx)) 4 = none → ∃ w : W32, s.fetchWord part ctx lid pc = .word w ∧
      ((∀ k, k < 4 → w.toNat / 2 ^ (8 * k) % 2 ^ 8 = (s.hbm.read (dev + k)).toNat) ∨
        ∃ k ∈ s.kept, k.part = part ∧ k.lid = lid ∧ k.dev = dev ∧ k.word = w)

/-- R62, R72, R73: words that the manual writes out, from each class, decode to the instructions they stand for; words with
an odd P field, with a once mark that is not defined, or with a reserved op do not issue. -/
def Obligations.WordsOfTheManualDecode : Prop :=
  decode 0x1800C082 0 = .ok (.sadd false 3 1 2, false) ∧
  decode 0x38410000 0x12345678 = .ok (.sli false 4 0x12345678, true) ∧
  decode 0x03C1C082 0 = .ok (.vsel false false 7 1 2, false) ∧
  decode 0x38214082 0x396 = .ok (.vlop3 false false 5 1 2 3 0x96, true) ∧
  decode 0xA0050001 0 = .ok (.vaddi true false 5 0 1, false) ∧
  decode 0x8A810001 0 = .ok (.vfaddX true false 4 0 1, false) ∧
  decode 0x1140C104 0 = .ok (.vstruncS16 false 3 2 4, false) ∧
  decode 0x94340084 0 = .ok (.csend true 80 1 4, false) ∧
  decode 0x2B820200 0 = .ok (.sts false false 2 1 0, false) ∧
  decode 0x38810403 0x00030002 = .ok (.ldgX false false 4 8 3 true true 2, true) ∧
  decode 0x39418402 0x5A0 = .ok (.atom false false 6 8 2 0 5 2 true false 0, true) ∧
  decode 0x3A604002 0x80 = .ok (.cpy false 1 0 2 1 0 0, true) ∧
  decode 0xB1800004 0 = .ok (.bmz true 0 4, false) ∧
  decode 0xB381FFC9 0 = .ok (.loop true 1 (-55), false) ∧
  decode 0 0 = .error .nullWord ∧ decode 0x58000000 0 = .error .onceMark ∧ decode 0x0E000000 0 = .error .reservedOp ∧
  (Instr.vfaddX false false 5 0 1).fieldsOk = false

/-- R307, R310, R319, R328, R330, R331, R333, R335, R337 to R339: the machine right after reset. PERST# is asserted, nothing runs and
no partition exists; the registers whose reset value the manual gives have it; memory lists nothing. -/
def Obligations.StateRightAfterReset : Prop :=
  let s := State.reset
  let k := s.pkg
  k.powered = false ∧ s.groups = [] ∧ s.teams = [] ∧ s.parts = [] ∧ (∀ a, s.hbm.read a = 0 ∧ s.slices.read a = 0) ∧
  s.memOk = true ∧ k.stage = 0 ∧ k.fail = 0 ∧ k.cold = false ∧ k.pwrCap = 1800 ∧ k.clkStep = 0 ∧ k.scrubBw = 64 ∧
  k.cewin = 1000 ∧ k.retryInt = 20000 ∧ (∀ c, c < 16 → k.cecnt.getD c 1 = 0 ∧ k.celim.getD c 1 = 0) ∧
  (∀ p, p < 32 → ∃ x, k.ports[p]? = some x ∧ x.up = false ∧ x.lanes = 0 ∧ x.owner = 31 ∧ x.resends = 0 ∧ x.timeouts = 0) ∧
  (∀ c, c < 25 → ∃ x, k.channels[c]? = some x ∧ x.next = 1 ∧ x.keyed = false ∧ x.head = 0 ∧ x.tail = 0 ∧ x.log = 0)

/-- R62, R72: decode and encode agree. Every instruction that has words, with any operands that its form allows, decodes back from
the words that encode gives it, whatever follows a one-word instruction; and so it does from a table word. -/
def Obligations.DecodeAfterEncode : Prop :=
  ∀ i : Instr, i.isWord = true → i.form = true → ∃ (w1 : W32) (w2 : Option W32), encode i = some (w1, w2) ∧
    (∀ x : W32, decode w1 (w2.getD x) = .ok (i, w2.isSome)) ∧ hasSecond w1 = w2.isSome ∧
    decodeTableWord (if w2.isSome then 64 else 32) (w1.toNat + 2 ^ 32 * (w2.getD 0).toNat) = some i

/-- R71, R73: no bit of an instruction's words is dropped. Words that decode to an instruction are the words that encode gives
it, so no two words of one length stand for one instruction, and what decodes is well-formed but for its register fields. -/
def Obligations.EncodeAfterDecode : Prop :=
  ∀ (w1 w2 : W32) (i : Instr) (two : Bool), decode w1 w2 = .ok (i, two) →
    i.isWord = true ∧ i.form = true ∧ encode i = some (w1, if two then some w2 else none)

/-- Memory stays canonical: the invariant that every step keeps, of every instruction and every event. From any state whose
HBM and slice memories, and the slices that retain-sleep has saved, are in their canonical form, the next state's are too. -/
def Obligations.MemoryStaysCanonical : Prop :=
  ∀ s t : State, s.memOk = true → step s = .next t → t.memOk = true

/-- Of group `g`, `h` differs at most in vector registers, ordinary scalars, the special registers that software may write, the
failures recorded, and the run's progress; of the trap record, in the selected index, the replay set and the causes of its
entries. -/
def RegistersOnly (g h : Group) : Prop :=
  h = { g with
    vregs := h.vregs, poison := h.poison, sregs := h.sregs, exm := h.exm, lvm := h.lvm, sm := h.sm, fpm := h.fpm
    fpf := h.fpf, mq := h.mq, trap := { g.trap with entries := h.trap.entries, sel := h.trap.sel, rplq := h.trap.rplq }
    armed := h.armed, pc := h.pc, lastPc := h.lastPc, runIdx := h.runIdx, cycles := h.cycles, stat := h.stat
    runEnd := h.runEnd, fails := h.fails } ∧
  h.trap.entries.length = g.trap.entries.length ∧
  ∀ (k : Nat) (x : TrapEntry), g.trap.entries[k]? = some x →
    ∃ c, h.trap.entries[k]? = some { x with cause := c } ∧ (x.idx ≠ g.trap.sel → c = x.cause)

/-- Of the groups of `s`, `t` differs only in group `g`, and in it as `RegistersOnly` says. -/
def OneGroupChanges (s t : State) (g : Group) : Prop :=
  t.groups.length = s.groups.length ∧
  (∀ (k : Nat) (x : Group), s.groups[k]? = some x → x.uid ≠ g.uid → t.groups[k]? = some x) ∧
  ∃ h : Group, RegistersOnly g h ∧ ∀ (k : Nat) (x : Group), s.groups[k]? = some x → x.uid = g.uid → t.groups[k]? = some h

/-- R12, R22, R75, R76, R93, R123, R129, R130, R201: what the register instructions leave as it was. An instruction of class 0, 3 or
4, and a local share instruction of class 2, changes, of the whole machine, only the issuing group and its core's cycle count; of
the group, only vector registers, ordinary scalars, the writable special registers, and the run's progress. Its role registers,
window base, latch, outstanding operations, yielded run, halt and place stay. A floating-point instruction (class 1) changes of the
group the same, and beside it only event counts: its core's window counts, and `EVSUM` of its partition; where no class of
arithmetic event asks for an interrupt (`fpm`), no memory, no line, no interrupt and nothing else of any partition changes. -/
def Obligations.RegisterInstructionsFrame : Prop :=
  ∀ (s t : State) (g : Group) (i : Instr) (w1 : W32) (w2 : Option W32), Issues i s g → encode i = some (w1, w2) →
    exec i s = .next t →
    let cls := w1.toNat / 2 ^ 27 % 8
    (cls ∈ [0, 3, 4] ∨ (cls = 2 ∧ w1.toNat / 2 ^ 21 % 64 ∈ [0, 1, 2, 3, 4, 5, 6, 7, 10, 11, 16, 20, 21]) →
      t = { s with groups := t.groups, cores := t.cores } ∧ OneGroupChanges s t g ∧
      (∀ c, t.core c = { s.core c with cyc := (t.core c).cyc }) ∧ ∀ c, c ≠ g.core → t.core c = s.core c) ∧
    (cls = 1 →
      t = { s with
        groups := t.groups, cores := t.cores, parts := t.parts, hbm := t.hbm, lines := t.lines, interrupts := t.interrupts } ∧
      OneGroupChanges s t g ∧ (∀ c, c ≠ g.core → t.core c = s.core c) ∧
      (∀ c, t.core c = { s.core c with
        cyc := (t.core c).cyc, window := (t.core c).window, crossed := (t.core c).crossed }) ∧
      t.parts.length = s.parts.length ∧ (∀ n, n ≠ g.part → t.part? n = s.part? n) ∧
      ((∀ k, k < 5 → fpmAction g.fpm k ≠ 2) → t.hbm = s.hbm ∧ t.lines = s.lines ∧ t.interrupts = s.interrupts ∧
        ∀ p, s.part? g.part = some p → ∃ e, t.part? g.part = some { p with evsum := e }))
end

