-- ==== Sys2Proof/Laws/Exec.lean ====
section
/-!
SUPPORT. Which meaning each step of the opcode table has: one equation per constructor, so that no proof unfolds `exec`.
-/

namespace Sys2Proof.Laws

set_option Elab.async false

open Sys2Proof Sys2Proof.Machine

set_option Elab.async false

theorem exec_vadd (e : Bool) (u : Bool) (d : BitVec 7) (a : BitVec 7) (b : BitVec 7) (s : State) :
    exec (.vadd e u d a b) s = execVadd e u d a b s := rfl
theorem exec_vsub (e : Bool) (u : Bool) (d : BitVec 7) (a : BitVec 7) (b : BitVec 7) (s : State) :
    exec (.vsub e u d a b) s = execVsub e u d a b s := rfl
theorem exec_vmul (e : Bool) (u : Bool) (d : BitVec 7) (a : BitVec 7) (b : BitVec 7) (s : State) :
    exec (.vmul e u d a b) s = execVmul e u d a b s := rfl
theorem exec_vmulhiI (e : Bool) (u : Bool) (d : BitVec 7) (a : BitVec 7) (b : BitVec 7) (s : State) :
    exec (.vmulhiI e u d a b) s = execVmulhiI e u d a b s := rfl
theorem exec_vmulhiN (e : Bool) (u : Bool) (d : BitVec 7) (a : BitVec 7) (b : BitVec 7) (s : State) :
    exec (.vmulhiN e u d a b) s = execVmulhiN e u d a b s := rfl
theorem exec_vmac (e : Bool) (u : Bool) (d : BitVec 7) (a : BitVec 7) (b : BitVec 7) (s : State) :
    exec (.vmac e u d a b) s = execVmac e u d a b s := rfl
theorem exec_vand (e : Bool) (u : Bool) (d : BitVec 7) (a : BitVec 7) (b : BitVec 7) (s : State) :
    exec (.vand e u d a b) s = execVand e u d a b s := rfl
theorem exec_vor (e : Bool) (u : Bool) (d : BitVec 7) (a : BitVec 7) (b : BitVec 7) (s : State) :
    exec (.vor e u d a b) s = execVor e u d a b s := rfl
theorem exec_vxor (e : Bool) (u : Bool) (d : BitVec 7) (a : BitVec 7) (b : BitVec 7) (s : State) :
    exec (.vxor e u d a b) s = execVxor e u d a b s := rfl
theorem exec_vandn (e : Bool) (u : Bool) (d : BitVec 7) (a : BitVec 7) (b : BitVec 7) (s : State) :
    exec (.vandn e u d a b) s = execVandn e u d a b s := rfl
theorem exec_vshl (e : Bool) (u : Bool) (d : BitVec 7) (a : BitVec 7) (b : BitVec 7) (s : State) :
    exec (.vshl e u d a b) s = execVshl e u d a b s := rfl
theorem exec_vshrN (e : Bool) (u : Bool) (d : BitVec 7) (a : BitVec 7) (b : BitVec 7) (s : State) :
    exec (.vshrN e u d a b) s = execVshrN e u d a b s := rfl
theorem exec_vshrI (e : Bool) (u : Bool) (d : BitVec 7) (a : BitVec 7) (b : BitVec 7) (s : State) :
    exec (.vshrI e u d a b) s = execVshrI e u d a b s := rfl
theorem exec_vrotl (e : Bool) (u : Bool) (d : BitVec 7) (a : BitVec 7) (b : BitVec 7) (s : State) :
    exec (.vrotl e u d a b) s = execVrotl e u d a b s := rfl
theorem exec_vfshl (e : Bool) (u : Bool) (d : BitVec 7) (a : BitVec 7) (b : BitVec 7) (s : State) :
    exec (.vfshl e u d a b) s = execVfshl e u d a b s := rfl
theorem exec_vfshr (e : Bool) (u : Bool) (d : BitVec 7) (a : BitVec 7) (b : BitVec 7) (s : State) :
    exec (.vfshr e u d a b) s = execVfshr e u d a b s := rfl
theorem exec_vminI (e : Bool) (u : Bool) (d : BitVec 7) (a : BitVec 7) (b : BitVec 7) (s : State) :
    exec (.vminI e u d a b) s = execVminI e u d a b s := rfl
theorem exec_vmaxI (e : Bool) (u : Bool) (d : BitVec 7) (a : BitVec 7) (b : BitVec 7) (s : State) :
    exec (.vmaxI e u d a b) s = execVmaxI e u d a b s := rfl
theorem exec_vminN (e : Bool) (u : Bool) (d : BitVec 7) (a : BitVec 7) (b : BitVec 7) (s : State) :
    exec (.vminN e u d a b) s = execVminN e u d a b s := rfl
theorem exec_vmaxN (e : Bool) (u : Bool) (d : BitVec 7) (a : BitVec 7) (b : BitVec 7) (s : State) :
    exec (.vmaxN e u d a b) s = execVmaxN e u d a b s := rfl
theorem exec_vpopc (e : Bool) (u : Bool) (d : BitVec 7) (a : BitVec 7) (s : State) :
    exec (.vpopc e u d a) s = execVpopc e u d a s := rfl
theorem exec_vclz (e : Bool) (u : Bool) (d : BitVec 7) (a : BitVec 7) (s : State) :
    exec (.vclz e u d a) s = execVclz e u d a s := rfl
theorem exec_vbrev (e : Bool) (u : Bool) (d : BitVec 7) (a : BitVec 7) (s : State) :
    exec (.vbrev e u d a) s = execVbrev e u d a s := rfl
theorem exec_vceq (e : Bool) (d : BitVec 7) (a : BitVec 7) (b : BitVec 7) (s : State) :
    exec (.vceq e d a b) s = execVceq e d a b s := rfl
theorem exec_vcne (e : Bool) (d : BitVec 7) (a : BitVec 7) (b : BitVec 7) (s : State) :
    exec (.vcne e d a b) s = execVcne e d a b s := rfl
theorem exec_vcltI (e : Bool) (d : BitVec 7) (a : BitVec 7) (b : BitVec 7) (s : State) :
    exec (.vcltI e d a b) s = execVcltI e d a b s := rfl
theorem exec_vcleI (e : Bool) (d : BitVec 7) (a : BitVec 7) (b : BitVec 7) (s : State) :
    exec (.vcleI e d a b) s = execVcleI e d a b s := rfl
theorem exec_vcltN (e : Bool) (d : BitVec 7) (a : BitVec 7) (b : BitVec 7) (s : State) :
    exec (.vcltN e d a b) s = execVcltN e d a b s := rfl
theorem exec_vcleN (e : Bool) (d : BitVec 7) (a : BitVec 7) (b : BitVec 7) (s : State) :
    exec (.vcleN e d a b) s = execVcleN e d a b s := rfl
theorem exec_vsel (e : Bool) (u : Bool) (d : BitVec 7) (a : BitVec 7) (b : BitVec 7) (s : State) :
    exec (.vsel e u d a b) s = execVsel e u d a b s := rfl
theorem exec_vmov (e : Bool) (u : Bool) (d : BitVec 7) (a : BitVec 7) (s : State) :
    exec (.vmov e u d a) s = execVmov e u d a s := rfl
theorem exec_vaddW (e : Bool) (u : Bool) (d : BitVec 7) (a : BitVec 7) (b : BitVec 7) (s : State) :
    exec (.vaddW e u d a b) s = execVaddW e u d a b s := rfl
theorem exec_vsubW (e : Bool) (u : Bool) (d : BitVec 7) (a : BitVec 7) (b : BitVec 7) (s : State) :
    exec (.vsubW e u d a b) s = execVsubW e u d a b s := rfl
theorem exec_vshlW (e : Bool) (u : Bool) (d : BitVec 7) (a : BitVec 7) (b : BitVec 7) (s : State) :
    exec (.vshlW e u d a b) s = execVshlW e u d a b s := rfl
theorem exec_vshrWN (e : Bool) (u : Bool) (d : BitVec 7) (a : BitVec 7) (b : BitVec 7) (s : State) :
    exec (.vshrWN e u d a b) s = execVshrWN e u d a b s := rfl
theorem exec_vshrWI (e : Bool) (u : Bool) (d : BitVec 7) (a : BitVec 7) (b : BitVec 7) (s : State) :
    exec (.vshrWI e u d a b) s = execVshrWI e u d a b s := rfl
theorem exec_vceqW (e : Bool) (d : BitVec 7) (a : BitVec 7) (b : BitVec 7) (s : State) :
    exec (.vceqW e d a b) s = execVceqW e d a b s := rfl
theorem exec_vcltWI (e : Bool) (d : BitVec 7) (a : BitVec 7) (b : BitVec 7) (s : State) :
    exec (.vcltWI e d a b) s = execVcltWI e d a b s := rfl
theorem exec_vcltWN (e : Bool) (d : BitVec 7) (a : BitVec 7) (b : BitVec 7) (s : State) :
    exec (.vcltWN e d a b) s = execVcltWN e d a b s := rfl
theorem exec_vmulW (e : Bool) (u : Bool) (d : BitVec 7) (a : BitVec 7) (b : BitVec 7) (s : State) :
    exec (.vmulW e u d a b) s = execVmulW e u d a b s := rfl
theorem exec_vtid (e : Bool) (d : BitVec 7) (s : State) :
    exec (.vtid e d) s = execVtid e d s := rfl
theorem exec_vxsh (e : Bool) (d : BitVec 7) (a : BitVec 7) (b : BitVec 7) (s : State) :
    exec (.vxsh e d a b) s = execVxsh e d a b s := rfl
theorem exec_vxshu (e : Bool) (d : BitVec 7) (a : BitVec 7) (b : BitVec 7) (s : State) :
    exec (.vxshu e d a b) s = execVxshu e d a b s := rfl
theorem exec_vscanAdd (e : Bool) (d : BitVec 7) (a : BitVec 7) (s : State) :
    exec (.vscanAdd e d a) s = execVscanAdd e d a s := rfl
theorem exec_vredAdd (e : Bool) (d : BitVec 7) (a : BitVec 7) (s : State) :
    exec (.vredAdd e d a) s = execVredAdd e d a s := rfl
theorem exec_vmatchr (e : Bool) (d : BitVec 7) (a : BitVec 7) (b : BitVec 7) (s : State) :
    exec (.vmatchr e d a b) s = execVmatchr e d a b s := rfl
theorem exec_vredmaxiI (e : Bool) (d : BitVec 7) (a : BitVec 7) (s : State) :
    exec (.vredmaxiI e d a) s = execVredmaxiI e d a s := rfl
theorem exec_vredminiI (e : Bool) (d : BitVec 7) (a : BitVec 7) (s : State) :
    exec (.vredminiI e d a) s = execVredminiI e d a s := rfl
theorem exec_vaddmod (e : Bool) (u : Bool) (d : BitVec 7) (a : BitVec 7) (b : BitVec 7) (s : State) :
    exec (.vaddmod e u d a b) s = execVaddmod e u d a b s := rfl
theorem exec_vsubmod (e : Bool) (u : Bool) (d : BitVec 7) (a : BitVec 7) (b : BitVec 7) (s : State) :
    exec (.vsubmod e u d a b) s = execVsubmod e u d a b s := rfl
theorem exec_vmulmod (e : Bool) (u : Bool) (d : BitVec 7) (a : BitVec 7) (b : BitVec 7) (s : State) :
    exec (.vmulmod e u d a b) s = execVmulmod e u d a b s := rfl
theorem exec_vmacmod (e : Bool) (u : Bool) (d : BitVec 7) (a : BitVec 7) (b : BitVec 7) (s : State) :
    exec (.vmacmod e u d a b) s = execVmacmod e u d a b s := rfl
theorem exec_vshape (e : Bool) (d : BitVec 7) (a : BitVec 7) (s : State) :
    exec (.vshape e d a) s = execVshape e d a s := rfl
theorem exec_vgen (e : Bool) (d : BitVec 7) (a : BitVec 7) (s : State) :
    exec (.vgen e d a) s = execVgen e d a s := rfl
theorem exec_vlop3 (e : Bool) (u : Bool) (d : BitVec 7) (a : BitVec 7) (b : BitVec 7) (c : BitVec 7) (k : BitVec 8) (s : State) :
    exec (.vlop3 e u d a b c k) s = execVlop3 e u d a b c k s := rfl
theorem exec_mqld (e : Bool) (a : BitVec 7) (n : BitVec 3) (s : State) :
    exec (.mqld e a n) s = execMqld e a n s := rfl
theorem exec_vfadd (e : Bool) (u : Bool) (d : BitVec 7) (a : BitVec 7) (b : BitVec 7) (s : State) :
    exec (.vfadd e u d a b) s = execVfadd e u d a b s := rfl
theorem exec_vfsub (e : Bool) (u : Bool) (d : BitVec 7) (a : BitVec 7) (b : BitVec 7) (s : State) :
    exec (.vfsub e u d a b) s = execVfsub e u d a b s := rfl
theorem exec_vfmul (e : Bool) (u : Bool) (d : BitVec 7) (a : BitVec 7) (b : BitVec 7) (s : State) :
    exec (.vfmul e u d a b) s = execVfmul e u d a b s := rfl
theorem exec_vffma (e : Bool) (u : Bool) (d : BitVec 7) (a : BitVec 7) (b : BitVec 7) (s : State) :
    exec (.vffma e u d a b) s = execVffma e u d a b s := rfl
theorem exec_vfmin (e : Bool) (u : Bool) (d : BitVec 7) (a : BitVec 7) (b : BitVec 7) (s : State) :
    exec (.vfmin e u d a b) s = execVfmin e u d a b s := rfl
theorem exec_vfmax (e : Bool) (u : Bool) (d : BitVec 7) (a : BitVec 7) (b : BitVec 7) (s : State) :
    exec (.vfmax e u d a b) s = execVfmax e u d a b s := rfl
theorem exec_vfminn (e : Bool) (u : Bool) (d : BitVec 7) (a : BitVec 7) (b : BitVec 7) (s : State) :
    exec (.vfminn e u d a b) s = execVfminn e u d a b s := rfl
theorem exec_vfmaxn (e : Bool) (u : Bool) (d : BitVec 7) (a : BitVec 7) (b : BitVec 7) (s : State) :
    exec (.vfmaxn e u d a b) s = execVfmaxn e u d a b s := rfl
theorem exec_vfabs (e : Bool) (u : Bool) (d : BitVec 7) (a : BitVec 7) (s : State) :
    exec (.vfabs e u d a) s = execVfabs e u d a s := rfl
theorem exec_vfneg (e : Bool) (u : Bool) (d : BitVec 7) (a : BitVec 7) (s : State) :
    exec (.vfneg e u d a) s = execVfneg e u d a s := rfl
theorem exec_vfceq (e : Bool) (d : BitVec 7) (a : BitVec 7) (b : BitVec 7) (s : State) :
    exec (.vfceq e d a b) s = execVfceq e d a b s := rfl
theorem exec_vfclt (e : Bool) (d : BitVec 7) (a : BitVec 7) (b : BitVec 7) (s : State) :
    exec (.vfclt e d a b) s = execVfclt e d a b s := rfl
theorem exec_vfcle (e : Bool) (d : BitVec 7) (a : BitVec 7) (b : BitVec 7) (s : State) :
    exec (.vfcle e d a b) s = execVfcle e d a b s := rfl
theorem exec_vfcun (e : Bool) (d : BitVec 7) (a : BitVec 7) (b : BitVec 7) (s : State) :
    exec (.vfcun e d a b) s = execVfcun e d a b s := rfl
theorem exec_vfrcp (e : Bool) (u : Bool) (d : BitVec 7) (a : BitVec 7) (s : State) :
    exec (.vfrcp e u d a) s = execVfrcp e u d a s := rfl
theorem exec_vfrsq (e : Bool) (u : Bool) (d : BitVec 7) (a : BitVec 7) (s : State) :
    exec (.vfrsq e u d a) s = execVfrsq e u d a s := rfl
theorem exec_vfsqrt (e : Bool) (u : Bool) (d : BitVec 7) (a : BitVec 7) (s : State) :
    exec (.vfsqrt e u d a) s = execVfsqrt e u d a s := rfl
theorem exec_vfdiv (e : Bool) (u : Bool) (d : BitVec 7) (a : BitVec 7) (b : BitVec 7) (s : State) :
    exec (.vfdiv e u d a b) s = execVfdiv e u d a b s := rfl
theorem exec_vfexp2 (e : Bool) (u : Bool) (d : BitVec 7) (a : BitVec 7) (s : State) :
    exec (.vfexp2 e u d a) s = execVfexp2 e u d a s := rfl
theorem exec_vflog2 (e : Bool) (u : Bool) (d : BitVec 7) (a : BitVec 7) (s : State) :
    exec (.vflog2 e u d a) s = execVflog2 e u d a s := rfl
theorem exec_vfaddX (e : Bool) (u : Bool) (d : BitVec 7) (a : BitVec 7) (b : BitVec 7) (s : State) :
    exec (.vfaddX e u d a b) s = execVfaddX e u d a b s := rfl
theorem exec_vfsubX (e : Bool) (u : Bool) (d : BitVec 7) (a : BitVec 7) (b : BitVec 7) (s : State) :
    exec (.vfsubX e u d a b) s = execVfsubX e u d a b s := rfl
theorem exec_vfmulX (e : Bool) (u : Bool) (d : BitVec 7) (a : BitVec 7) (b : BitVec 7) (s : State) :
    exec (.vfmulX e u d a b) s = execVfmulX e u d a b s := rfl
theorem exec_vdwadd (e : Bool) (u : Bool) (d : BitVec 7) (a : BitVec 7) (b : BitVec 7) (s : State) :
    exec (.vdwadd e u d a b) s = execVdwadd e u d a b s := rfl
theorem exec_vdwsub (e : Bool) (u : Bool) (d : BitVec 7) (a : BitVec 7) (b : BitVec 7) (s : State) :
    exec (.vdwsub e u d a b) s = execVdwsub e u d a b s := rfl
theorem exec_vdwmul (e : Bool) (u : Bool) (d : BitVec 7) (a : BitVec 7) (b : BitVec 7) (s : State) :
    exec (.vdwmul e u d a b) s = execVdwmul e u d a b s := rfl
theorem exec_vdwmulf (e : Bool) (u : Bool) (d : BitVec 7) (a : BitVec 7) (b : BitVec 7) (s : State) :
    exec (.vdwmulf e u d a b) s = execVdwmulf e u d a b s := rfl
theorem exec_vdwren (e : Bool) (u : Bool) (d : BitVec 7) (a : BitVec 7) (s : State) :
    exec (.vdwren e u d a) s = execVdwren e u d a s := rfl
theorem exec_vfredAdd (e : Bool) (d : BitVec 7) (a : BitVec 7) (s : State) :
    exec (.vfredAdd e d a) s = execVfredAdd e d a s := rfl
theorem exec_vfredX (e : Bool) (d : BitVec 7) (a : BitVec 7) (s : State) :
    exec (.vfredX e d a) s = execVfredX e d a s := rfl
theorem exec_vfredmaxi (e : Bool) (d : BitVec 7) (a : BitVec 7) (s : State) :
    exec (.vfredmaxi e d a) s = execVfredmaxi e d a s := rfl
theorem exec_vfredmini (e : Bool) (d : BitVec 7) (a : BitVec 7) (s : State) :
    exec (.vfredmini e d a) s = execVfredmini e d a s := rfl
theorem exec_vfscanAdd (e : Bool) (d : BitVec 7) (a : BitVec 7) (s : State) :
    exec (.vfscanAdd e d a) s = execVfscanAdd e d a s := rfl
theorem exec_vhaddBf (e : Bool) (u : Bool) (d : BitVec 7) (a : BitVec 7) (b : BitVec 7) (s : State) :
    exec (.vhaddBf e u d a b) s = execVhaddBf e u d a b s := rfl
theorem exec_vhmulBf (e : Bool) (u : Bool) (d : BitVec 7) (a : BitVec 7) (b : BitVec 7) (s : State) :
    exec (.vhmulBf e u d a b) s = execVhmulBf e u d a b s := rfl
theorem exec_vhfmaBf (e : Bool) (u : Bool) (d : BitVec 7) (a : BitVec 7) (b : BitVec 7) (s : State) :
    exec (.vhfmaBf e u d a b) s = execVhfmaBf e u d a b s := rfl
theorem exec_vhaddH (e : Bool) (u : Bool) (d : BitVec 7) (a : BitVec 7) (b : BitVec 7) (s : State) :
    exec (.vhaddH e u d a b) s = execVhaddH e u d a b s := rfl
theorem exec_vhmulH (e : Bool) (u : Bool) (d : BitVec 7) (a : BitVec 7) (b : BitVec 7) (s : State) :
    exec (.vhmulH e u d a b) s = execVhmulH e u d a b s := rfl
theorem exec_vhfmaH (e : Bool) (u : Bool) (d : BitVec 7) (a : BitVec 7) (b : BitVec 7) (s : State) :
    exec (.vhfmaH e u d a b) s = execVhfmaH e u d a b s := rfl
theorem exec_vhdotBf (e : Bool) (u : Bool) (d : BitVec 7) (a : BitVec 7) (b : BitVec 7) (s : State) :
    exec (.vhdotBf e u d a b) s = execVhdotBf e u d a b s := rfl
theorem exec_vcvt (e : Bool) (u : Bool) (d : BitVec 7) (a : BitVec 7) (sel : BitVec 7) (s : State) :
    exec (.vcvt e u d a sel) s = execVcvt e u d a sel s := rfl
theorem exec_vfclass (e : Bool) (u : Bool) (d : BitVec 7) (a : BitVec 7) (s : State) :
    exec (.vfclass e u d a) s = execVfclass e u d a s := rfl
theorem exec_vfscale (e : Bool) (u : Bool) (d : BitVec 7) (a : BitVec 7) (b : BitVec 7) (s : State) :
    exec (.vfscale e u d a b) s = execVfscale e u d a b s := rfl
theorem exec_vsaddS16 (e : Bool) (d : BitVec 7) (a : BitVec 7) (b : BitVec 7) (s : State) :
    exec (.vsaddS16 e d a b) s = execVsaddS16 e d a b s := rfl
theorem exec_vssubS16 (e : Bool) (d : BitVec 7) (a : BitVec 7) (b : BitVec 7) (s : State) :
    exec (.vssubS16 e d a b) s = execVssubS16 e d a b s := rfl
theorem exec_vsaddS32 (e : Bool) (d : BitVec 7) (a : BitVec 7) (b : BitVec 7) (s : State) :
    exec (.vsaddS32 e d a b) s = execVsaddS32 e d a b s := rfl
theorem exec_vssubS32 (e : Bool) (d : BitVec 7) (a : BitVec 7) (b : BitVec 7) (s : State) :
    exec (.vssubS32 e d a b) s = execVssubS32 e d a b s := rfl
theorem exec_vsaddpS16 (e : Bool) (d : BitVec 7) (a : BitVec 7) (b : BitVec 7) (s : State) :
    exec (.vsaddpS16 e d a b) s = execVsaddpS16 e d a b s := rfl
theorem exec_vsaddpS32 (e : Bool) (d : BitVec 7) (a : BitVec 7) (b : BitVec 7) (s : State) :
    exec (.vsaddpS32 e d a b) s = execVsaddpS32 e d a b s := rfl
theorem exec_vsmulpS16 (e : Bool) (d : BitVec 7) (a : BitVec 7) (b : BitVec 7) (s : State) :
    exec (.vsmulpS16 e d a b) s = execVsmulpS16 e d a b s := rfl
theorem exec_vsmulpS32 (e : Bool) (d : BitVec 7) (a : BitVec 7) (b : BitVec 7) (s : State) :
    exec (.vsmulpS32 e d a b) s = execVsmulpS32 e d a b s := rfl
theorem exec_vsmulS16 (e : Bool) (d : BitVec 7) (a : BitVec 7) (b : BitVec 7) (s : State) :
    exec (.vsmulS16 e d a b) s = execVsmulS16 e d a b s := rfl
theorem exec_vsmulS32 (e : Bool) (d : BitVec 7) (a : BitVec 7) (b : BitVec 7) (s : State) :
    exec (.vsmulS32 e d a b) s = execVsmulS32 e d a b s := rfl
theorem exec_vstruncS16 (e : Bool) (d : BitVec 7) (a : BitVec 7) (f : BitVec 7) (s : State) :
    exec (.vstruncS16 e d a f) s = execVstruncS16 e d a f s := rfl
theorem exec_vstruncS32 (e : Bool) (d : BitVec 7) (a : BitVec 7) (f : BitVec 7) (s : State) :
    exec (.vstruncS32 e d a f) s = execVstruncS32 e d a f s := rfl
theorem exec_vsltzS16 (e : Bool) (d : BitVec 7) (a : BitVec 7) (s : State) :
    exec (.vsltzS16 e d a) s = execVsltzS16 e d a s := rfl
theorem exec_vsltzS32 (e : Bool) (d : BitVec 7) (a : BitVec 7) (s : State) :
    exec (.vsltzS32 e d a) s = execVsltzS32 e d a s := rfl
theorem exec_vsb2aS16 (e : Bool) (d : BitVec 7) (a : BitVec 7) (s : State) :
    exec (.vsb2aS16 e d a) s = execVsb2aS16 e d a s := rfl
theorem exec_vsb2aS32 (e : Bool) (d : BitVec 7) (a : BitVec 7) (s : State) :
    exec (.vsb2aS32 e d a) s = execVsb2aS32 e d a s := rfl
theorem exec_vsxorB (e : Bool) (d : BitVec 7) (a : BitVec 7) (b : BitVec 7) (s : State) :
    exec (.vsxorB e d a b) s = execVsxorB e d a b s := rfl
theorem exec_vsandB (e : Bool) (d : BitVec 7) (a : BitVec 7) (b : BitVec 7) (s : State) :
    exec (.vsandB e d a b) s = execVsandB e d a b s := rfl
theorem exec_vsopenS16 (e : Bool) (d : BitVec 7) (a : BitVec 7) (s : State) :
    exec (.vsopenS16 e d a) s = execVsopenS16 e d a s := rfl
theorem exec_vsopenS32 (e : Bool) (d : BitVec 7) (a : BitVec 7) (s : State) :
    exec (.vsopenS32 e d a) s = execVsopenS32 e d a s := rfl
theorem exec_vsredS16 (e : Bool) (d : BitVec 7) (a : BitVec 7) (s : State) :
    exec (.vsredS16 e d a) s = execVsredS16 e d a s := rfl
theorem exec_vsredS32 (e : Bool) (d : BitVec 7) (a : BitVec 7) (s : State) :
    exec (.vsredS32 e d a) s = execVsredS32 e d a s := rfl
theorem exec_cbind (e : Bool) (d : BitVec 7) (a : BitVec 7) (s : State) :
    exec (.cbind e d a) s = execCbind e d a s := rfl
theorem exec_csend (e : Bool) (d : BitVec 7) (k : BitVec 7) (b : BitVec 7) (s : State) :
    exec (.csend e d k b) s = execCsend e d k b s := rfl
theorem exec_crecv (e : Bool) (d : BitVec 7) (a : BitVec 7) (k : BitVec 7) (s : State) :
    exec (.crecv e d a k) s = execCrecv e d a k s := rfl
theorem exec_cchoose (e : Bool) (d : BitVec 7) (k : BitVec 7) (b : BitVec 7) (s : State) :
    exec (.cchoose e d k b) s = execCchoose e d k b s := rfl
theorem exec_cdeleg (e : Bool) (d : BitVec 7) (a : BitVec 7) (s : State) :
    exec (.cdeleg e d a) s = execCdeleg e d a s := rfl
theorem exec_cstate (e : Bool) (d : BitVec 7) (a : BitVec 7) (s : State) :
    exec (.cstate e d a) s = execCstate e d a s := rfl
theorem exec_cabort (e : Bool) (d : BitVec 7) (s : State) :
    exec (.cabort e d) s = execCabort e d s := rfl
theorem exec_tlevel (e : Bool) (d : BitVec 7) (a : BitVec 7) (s : State) :
    exec (.tlevel e d a) s = execTlevel e d a s := rfl
theorem exec_tfillSend (e : Bool) (d : BitVec 7) (a : BitVec 7) (b : BitVec 7) (q : BitVec 2) (dst : BitVec 2) (s : State) :
    exec (.tfillSend e d a b q dst) s = execTfillSend e d a b q dst s := rfl
theorem exec_tfillAccept (e : Bool) (d : BitVec 7) (a : BitVec 7) (b : BitVec 7) (q : BitVec 2) (s : State) :
    exec (.tfillAccept e d a b q) s = execTfillAccept e d a b q s := rfl
theorem exec_tburn (e : Bool) (d : BitVec 7) (a : BitVec 7) (q : BitVec 2) (s : State) :
    exec (.tburn e d a q) s = execTburn e d a q s := rfl
theorem exec_xopen (e : Bool) (d : BitVec 7) (a : BitVec 7) (b : BitVec 7) (ty : Bool) (dsp : Bool) (ssp : Bool) (s : State) :
    exec (.xopen e d a b ty dsp ssp) s = execXopen e d a b ty dsp ssp s := rfl
theorem exec_sadd (e : Bool) (d : BitVec 7) (a : BitVec 7) (b : BitVec 7) (s : State) :
    exec (.sadd e d a b) s = execSadd e d a b s := rfl
theorem exec_ssub (e : Bool) (d : BitVec 7) (a : BitVec 7) (b : BitVec 7) (s : State) :
    exec (.ssub e d a b) s = execSsub e d a b s := rfl
theorem exec_smul (e : Bool) (d : BitVec 7) (a : BitVec 7) (b : BitVec 7) (s : State) :
    exec (.smul e d a b) s = execSmul e d a b s := rfl
theorem exec_smulhiN (e : Bool) (d : BitVec 7) (a : BitVec 7) (b : BitVec 7) (s : State) :
    exec (.smulhiN e d a b) s = execSmulhiN e d a b s := rfl
theorem exec_sand (e : Bool) (d : BitVec 7) (a : BitVec 7) (b : BitVec 7) (s : State) :
    exec (.sand e d a b) s = execSand e d a b s := rfl
theorem exec_sor (e : Bool) (d : BitVec 7) (a : BitVec 7) (b : BitVec 7) (s : State) :
    exec (.sor e d a b) s = execSor e d a b s := rfl
theorem exec_sxor (e : Bool) (d : BitVec 7) (a : BitVec 7) (b : BitVec 7) (s : State) :
    exec (.sxor e d a b) s = execSxor e d a b s := rfl
theorem exec_sandn (e : Bool) (d : BitVec 7) (a : BitVec 7) (b : BitVec 7) (s : State) :
    exec (.sandn e d a b) s = execSandn e d a b s := rfl
theorem exec_sshl (e : Bool) (d : BitVec 7) (a : BitVec 7) (b : BitVec 7) (s : State) :
    exec (.sshl e d a b) s = execSshl e d a b s := rfl
theorem exec_sshrN (e : Bool) (d : BitVec 7) (a : BitVec 7) (b : BitVec 7) (s : State) :
    exec (.sshrN e d a b) s = execSshrN e d a b s := rfl
theorem exec_sshrI (e : Bool) (d : BitVec 7) (a : BitVec 7) (b : BitVec 7) (s : State) :
    exec (.sshrI e d a b) s = execSshrI e d a b s := rfl
theorem exec_sceq (e : Bool) (d : BitVec 7) (a : BitVec 7) (b : BitVec 7) (s : State) :
    exec (.sceq e d a b) s = execSceq e d a b s := rfl
theorem exec_scltI (e : Bool) (d : BitVec 7) (a : BitVec 7) (b : BitVec 7) (s : State) :
    exec (.scltI e d a b) s = execScltI e d a b s := rfl
theorem exec_scltN (e : Bool) (d : BitVec 7) (a : BitVec 7) (b : BitVec 7) (s : State) :
    exec (.scltN e d a b) s = execScltN e d a b s := rfl
theorem exec_sminI (e : Bool) (d : BitVec 7) (a : BitVec 7) (b : BitVec 7) (s : State) :
    exec (.sminI e d a b) s = execSminI e d a b s := rfl
theorem exec_smaxI (e : Bool) (d : BitVec 7) (a : BitVec 7) (b : BitVec 7) (s : State) :
    exec (.smaxI e d a b) s = execSmaxI e d a b s := rfl
theorem exec_smov (e : Bool) (d : BitVec 7) (a : BitVec 7) (s : State) :
    exec (.smov e d a) s = execSmov e d a s := rfl
theorem exec_spopc (e : Bool) (d : BitVec 7) (a : BitVec 7) (s : State) :
    exec (.spopc e d a) s = execSpopc e d a s := rfl
theorem exec_sclz (e : Bool) (d : BitVec 7) (a : BitVec 7) (s : State) :
    exec (.sclz e d a) s = execSclz e d a s := rfl
theorem exec_sctz (e : Bool) (d : BitVec 7) (a : BitVec 7) (s : State) :
    exec (.sctz e d a) s = execSctz e d a s := rfl
theorem exec_sfirst (e : Bool) (d : BitVec 7) (a : BitVec 7) (s : State) :
    exec (.sfirst e d a) s = execSfirst e d a s := rfl
theorem exec_vaddi (e : Bool) (u : Bool) (d : BitVec 7) (a : BitVec 7) (im : BitVec 9) (s : State) :
    exec (.vaddi e u d a im) s = execVaddi e u d a im s := rfl
theorem exec_vmuli (e : Bool) (u : Bool) (d : BitVec 7) (a : BitVec 7) (im : BitVec 9) (s : State) :
    exec (.vmuli e u d a im) s = execVmuli e u d a im s := rfl
theorem exec_vandi (e : Bool) (u : Bool) (d : BitVec 7) (a : BitVec 7) (im : BitVec 9) (s : State) :
    exec (.vandi e u d a im) s = execVandi e u d a im s := rfl
theorem exec_vshli (e : Bool) (u : Bool) (d : BitVec 7) (a : BitVec 7) (im : BitVec 9) (s : State) :
    exec (.vshli e u d a im) s = execVshli e u d a im s := rfl
theorem exec_vshriN (e : Bool) (u : Bool) (d : BitVec 7) (a : BitVec 7) (im : BitVec 9) (s : State) :
    exec (.vshriN e u d a im) s = execVshriN e u d a im s := rfl
theorem exec_vshriI (e : Bool) (u : Bool) (d : BitVec 7) (a : BitVec 7) (im : BitVec 9) (s : State) :
    exec (.vshriI e u d a im) s = execVshriI e u d a im s := rfl
theorem exec_vceqi (e : Bool) (d : BitVec 7) (a : BitVec 7) (im : BitVec 9) (s : State) :
    exec (.vceqi e d a im) s = execVceqi e d a im s := rfl
theorem exec_vcltiI (e : Bool) (d : BitVec 7) (a : BitVec 7) (im : BitVec 9) (s : State) :
    exec (.vcltiI e d a im) s = execVcltiI e d a im s := rfl
theorem exec_saddi (e : Bool) (d : BitVec 7) (a : BitVec 7) (im : BitVec 9) (s : State) :
    exec (.saddi e d a im) s = execSaddi e d a im s := rfl
theorem exec_sandi (e : Bool) (d : BitVec 7) (a : BitVec 7) (im : BitVec 9) (s : State) :
    exec (.sandi e d a im) s = execSandi e d a im s := rfl
theorem exec_sori (e : Bool) (d : BitVec 7) (a : BitVec 7) (im : BitVec 9) (s : State) :
    exec (.sori e d a im) s = execSori e d a im s := rfl
theorem exec_sshli (e : Bool) (d : BitVec 7) (a : BitVec 7) (im : BitVec 9) (s : State) :
    exec (.sshli e d a im) s = execSshli e d a im s := rfl
theorem exec_sshriN (e : Bool) (d : BitVec 7) (a : BitVec 7) (im : BitVec 9) (s : State) :
    exec (.sshriN e d a im) s = execSshriN e d a im s := rfl
theorem exec_sceqi (e : Bool) (d : BitVec 7) (a : BitVec 7) (im : BitVec 9) (s : State) :
    exec (.sceqi e d a im) s = execSceqi e d a im s := rfl
theorem exec_scltiI (e : Bool) (d : BitVec 7) (a : BitVec 7) (im : BitVec 9) (s : State) :
    exec (.scltiI e d a im) s = execScltiI e d a im s := rfl
theorem exec_smovi (e : Bool) (d : BitVec 7) (im : BitVec 9) (s : State) :
    exec (.smovi e d im) s = execSmovi e d im s := rfl
theorem exec_sli (e : Bool) (d : BitVec 7) (k : BitVec 32) (s : State) :
    exec (.sli e d k) s = execSli e d k s := rfl
theorem exec_vli (e : Bool) (u : Bool) (d : BitVec 7) (k : BitVec 32) (s : State) :
    exec (.vli e u d k) s = execVli e u d k s := rfl
theorem exec_ldg (e : Bool) (u : Bool) (d : BitVec 7) (a : BitVec 7) (f : BitVec 9) (s : State) :
    exec (.ldg e u d a f) s = execLdg e u d a f s := rfl
theorem exec_stg (e : Bool) (u : Bool) (d : BitVec 7) (a : BitVec 7) (f : BitVec 9) (s : State) :
    exec (.stg e u d a f) s = execStg e u d a f s := rfl
theorem exec_ldgW (e : Bool) (u : Bool) (d : BitVec 7) (a : BitVec 7) (f : BitVec 9) (s : State) :
    exec (.ldgW e u d a f) s = execLdgW e u d a f s := rfl
theorem exec_stgW (e : Bool) (u : Bool) (d : BitVec 7) (a : BitVec 7) (f : BitVec 9) (s : State) :
    exec (.stgW e u d a f) s = execStgW e u d a f s := rfl
theorem exec_ldgQ (e : Bool) (u : Bool) (d : BitVec 7) (a : BitVec 7) (f : BitVec 9) (s : State) :
    exec (.ldgQ e u d a f) s = execLdgQ e u d a f s := rfl
theorem exec_stgQ (e : Bool) (u : Bool) (d : BitVec 7) (a : BitVec 7) (f : BitVec 9) (s : State) :
    exec (.stgQ e u d a f) s = execStgQ e u d a f s := rfl
theorem exec_lds (e : Bool) (u : Bool) (d : BitVec 7) (a : BitVec 7) (f : BitVec 9) (s : State) :
    exec (.lds e u d a f) s = execLds e u d a f s := rfl
theorem exec_sts (e : Bool) (u : Bool) (d : BitVec 7) (a : BitVec 7) (f : BitVec 9) (s : State) :
    exec (.sts e u d a f) s = execSts e u d a f s := rfl
theorem exec_ldsW (e : Bool) (u : Bool) (d : BitVec 7) (a : BitVec 7) (f : BitVec 9) (s : State) :
    exec (.ldsW e u d a f) s = execLdsW e u d a f s := rfl
theorem exec_stsW (e : Bool) (u : Bool) (d : BitVec 7) (a : BitVec 7) (f : BitVec 9) (s : State) :
    exec (.stsW e u d a f) s = execStsW e u d a f s := rfl
theorem exec_ldsQ (e : Bool) (u : Bool) (d : BitVec 7) (a : BitVec 7) (f : BitVec 9) (s : State) :
    exec (.ldsQ e u d a f) s = execLdsQ e u d a f s := rfl
theorem exec_stsQ (e : Bool) (u : Bool) (d : BitVec 7) (a : BitVec 7) (f : BitVec 9) (s : State) :
    exec (.stsQ e u d a f) s = execStsQ e u d a f s := rfl
theorem exec_sld (e : Bool) (d : BitVec 7) (a : BitVec 7) (f : BitVec 9) (s : State) :
    exec (.sld e d a f) s = execSld e d a f s := rfl
theorem exec_sst (e : Bool) (d : BitVec 7) (a : BitVec 7) (f : BitVec 9) (s : State) :
    exec (.sst e d a f) s = execSst e d a f s := rfl
theorem exec_slds (e : Bool) (d : BitVec 7) (a : BitVec 7) (f : BitVec 9) (s : State) :
    exec (.slds e d a f) s = execSlds e d a f s := rfl
theorem exec_ssts (e : Bool) (d : BitVec 7) (a : BitVec 7) (f : BitVec 9) (s : State) :
    exec (.ssts e d a f) s = execSsts e d a f s := rfl
theorem exec_ldgX (e : Bool) (u : Bool) (d : BitVec 7) (a : BitVec 7) (b : BitVec 7) (sign : Bool) (half : Bool) (off : BitVec 16) (s : State) :
    exec (.ldgX e u d a b sign half off) s = execLdgX e u d a b sign half off s := rfl
theorem exec_stgX (e : Bool) (u : Bool) (d : BitVec 7) (a : BitVec 7) (b : BitVec 7) (half : Bool) (off : BitVec 16) (s : State) :
    exec (.stgX e u d a b half off) s = execStgX e u d a b half off s := rfl
theorem exec_ldsX (e : Bool) (u : Bool) (d : BitVec 7) (a : BitVec 7) (b : BitVec 7) (sign : Bool) (half : Bool) (off : BitVec 16) (s : State) :
    exec (.ldsX e u d a b sign half off) s = execLdsX e u d a b sign half off s := rfl
theorem exec_stsX (e : Bool) (u : Bool) (d : BitVec 7) (a : BitVec 7) (b : BitVec 7) (half : Bool) (off : BitVec 16) (s : State) :
    exec (.stsX e u d a b half off) s = execStsX e u d a b half off s := rfl
theorem exec_ldd (e : Bool) (u : Bool) (d : BitVec 7) (a : BitVec 7) (off : BitVec 16) (s : State) :
    exec (.ldd e u d a off) s = execLdd e u d a off s := rfl
theorem exec_std (e : Bool) (u : Bool) (d : BitVec 7) (a : BitVec 7) (off : BitVec 16) (s : State) :
    exec (.std e u d a off) s = execStd e u d a off s := rfl
theorem exec_atom (e : Bool) (u : Bool) (d : BitVec 7) (a : BitVec 7) (b : BitVec 7) (off : BitVec 11) (sc : BitVec 3) (ord : BitVec 2) (ret : Bool) (w : Bool) (op : BitVec 4) (s : State) :
    exec (.atom e u d a b off sc ord ret w op) s = execAtom e u d a b off sc ord ret w op s := rfl
theorem exec_atoms (e : Bool) (u : Bool) (d : BitVec 7) (a : BitVec 7) (b : BitVec 7) (off : BitVec 11) (sc : BitVec 3) (ord : BitVec 2) (ret : Bool) (w : Bool) (op : BitVec 4) (s : State) :
    exec (.atoms e u d a b off sc ord ret w op) s = execAtoms e u d a b off sc ord ret w op s := rfl
theorem exec_atomd (e : Bool) (u : Bool) (d : BitVec 7) (a : BitVec 7) (b : BitVec 7) (off : BitVec 11) (sc : BitVec 3) (ord : BitVec 2) (ret : Bool) (w : Bool) (op : BitVec 4) (s : State) :
    exec (.atomd e u d a b off sc ord ret w op) s = execAtomd e u d a b off sc ord ret w op s := rfl
theorem exec_fence (e : Bool) (q : BitVec 3) (p : BitVec 3) (sc : BitVec 3) (s : State) :
    exec (.fence e q p sc) s = execFence e q p sc s := rfl
theorem exec_xsend (e : Bool) (d : BitVec 7) (a : BitVec 7) (b : BitVec 7) (nf : Bool) (fsp : Bool) (sp : Bool) (size : BitVec 2) (x : BitVec 7) (s : State) :
    exec (.xsend e d a b nf fsp sp size x) s = execXsend e d a b nf fsp sp size x s := rfl
theorem exec_xget (e : Bool) (d : BitVec 7) (a : BitVec 7) (b : BitVec 7) (sp : Bool) (size : BitVec 2) (s : State) :
    exec (.xget e d a b sp size) s = execXget e d a b sp size s := rfl
theorem exec_xred (e : Bool) (d : BitVec 7) (a : BitVec 7) (b : BitVec 7) (op : BitVec 4) (ret : Bool) (sp : Bool) (size : BitVec 2) (x : BitVec 7) (s : State) :
    exec (.xred e d a b op ret sp size x) s = execXred e d a b op ret sp size x s := rfl
theorem exec_xapp (e : Bool) (d : BitVec 7) (a : BitVec 7) (b : BitVec 7) (ret : Bool) (size : BitVec 2) (x : BitVec 7) (s : State) :
    exec (.xapp e d a b ret size x) s = execXapp e d a b ret size x s := rfl
theorem exec_mmloop (e : Bool) (d : BitVec 7) (a : BitVec 7) (b : BitVec 7) (binc : BitVec 11) (ab : BitVec 5) (z : Bool) (reuse : Bool) (mode : BitVec 2) (nk : BitVec 3) (s : State) :
    exec (.mmloop e d a b binc ab z reuse mode nk) s = execMmloop e d a b binc ab z reuse mode nk s := rfl
theorem exec_cpy (e : Bool) (d : BitVec 7) (a : BitVec 7) (b : BitVec 7) (dsp : BitVec 2) (ssp : BitVec 2) (ab : BitVec 5) (s : State) :
    exec (.cpy e d a b dsp ssp ab) s = execCpy e d a b dsp ssp ab s := rfl
theorem exec_cunpack (e : Bool) (d : BitVec 7) (a : BitVec 7) (b : BitVec 7) (ssp : Bool) (rows : BitVec 2) (gran : BitVec 2) (ty : BitVec 3) (ab : BitVec 5) (s : State) :
    exec (.cunpack e d a b ssp rows gran ty ab) s = execCunpack e d a b ssp rows gran ty ab s := rfl
theorem exec_cbinit (e : Bool) (a : BitVec 7) (b : BitVec 7) (n : BitVec 5) (s : State) :
    exec (.cbinit e a b n) s = execCbinit e a b n s := rfl
theorem exec_cbpush (e : Bool) (a : BitVec 7) (b : BitVec 7) (ssp : BitVec 2) (n : BitVec 5) (s : State) :
    exec (.cbpush e a b ssp n) s = execCbpush e a b ssp n s := rfl
theorem exec_cbpop (e : Bool) (d : BitVec 7) (n : BitVec 5) (s : State) :
    exec (.cbpop e d n) s = execCbpop e d n s := rfl
theorem exec_cbfree (e : Bool) (n : BitVec 5) (s : State) :
    exec (.cbfree e n) s = execCbfree e n s := rfl
theorem exec_abarInit (e : Bool) (a : BitVec 7) (n : BitVec 5) (s : State) :
    exec (.abarInit e a n) s = execAbarInit e a n s := rfl
theorem exec_abarArrive (e : Bool) (n : BitVec 5) (s : State) :
    exec (.abarArrive e n) s = execAbarArrive e n s := rfl
theorem exec_abarWait (e : Bool) (a : BitVec 7) (n : BitVec 5) (s : State) :
    exec (.abarWait e a n) s = execAbarWait e a n s := rfl
theorem exec_launch (e : Bool) (a : BitVec 7) (q : BitVec 4) (s : State) :
    exec (.launch e a q) s = execLaunch e a q s := rfl
theorem exec_evcfg (e : Bool) (d : BitVec 7) (set : Bool) (action : BitVec 2) (cls : BitVec 3) (s : State) :
    exec (.evcfg e d set action cls) s = execEvcfg e d set action cls s := rfl
theorem exec_br (e : Bool) (t : BitVec 16) (s : State) :
    exec (.br e t) s = execBr e t s := rfl
theorem exec_bz (e : Bool) (c : BitVec 7) (t : BitVec 16) (s : State) :
    exec (.bz e c t) s = execBz e c t s := rfl
theorem exec_bnz (e : Bool) (c : BitVec 7) (t : BitVec 16) (s : State) :
    exec (.bnz e c t) s = execBnz e c t s := rfl
theorem exec_bmz (e : Bool) (c : BitVec 7) (t : BitVec 16) (s : State) :
    exec (.bmz e c t) s = execBmz e c t s := rfl
theorem exec_bmnz (e : Bool) (c : BitVec 7) (t : BitVec 16) (s : State) :
    exec (.bmnz e c t) s = execBmnz e c t s := rfl
theorem exec_call (e : Bool) (c : BitVec 7) (t : BitVec 16) (s : State) :
    exec (.call e c t) s = execCall e c t s := rfl
theorem exec_jr (e : Bool) (c : BitVec 7) (s : State) :
    exec (.jr e c) s = execJr e c s := rfl
theorem exec_loop (e : Bool) (c : BitVec 7) (t : BitVec 16) (s : State) :
    exec (.loop e c t) s = execLoop e c t s := rfl
theorem exec_trap (e : Bool) (k : BitVec 8) (s : State) :
    exec (.trap e k) s = execTrap e k s := rfl
theorem exec_wbase (e : Bool) (n : BitVec 5) (s : State) :
    exec (.wbase e n) s = execWbase e n s := rfl
theorem exec_bar (e : Bool) (n : BitVec 4) (s : State) :
    exec (.bar e n) s = execBar e n s := rfl
theorem exec_exit (e : Bool) (s : State) :
    exec (.exit e) s = execExit e s := rfl
theorem exec_yield (e : Bool) (s : State) :
    exec (.yield e) s = execYield e s := rfl
theorem exec_sys (e : Bool) (c : BitVec 7) (n : BitVec 8) (s : State) :
    exec (.sys e c n) s = execSys e c n s := rfl
theorem exec_rtrap (e : Bool) (s : State) :
    exec (.rtrap e) s = execRtrap e s := rfl
theorem exec_laneChoice (core : Nat) (lane : Nat) (s : State) :
    exec (.laneChoice core lane) s = execLaneChoice core lane s := rfl
theorem exec_asyncReturn (n : Nat) (s : State) :
    exec (.asyncReturn n) s = execAsyncReturn n s := rfl
theorem exec_runCommit (g : Nat) (s : State) :
    exec (.runCommit g) s = execRunCommit g s := rfl
theorem exec_yieldedRunCommit (g : Nat) (s : State) :
    exec (.yieldedRunCommit g) s = execYieldedRunCommit g s := rfl
theorem exec_barrierStall (team : Nat) (bar : Nat) (s : State) :
    exec (.barrierStall team bar) s = execBarrierStall team bar s := rfl
theorem exec_tripleStarvation (g : Nat) (idx : Nat) (s : State) :
    exec (.tripleStarvation g idx) s = execTripleStarvation g idx s := rfl
theorem exec_eventWindowRestart (core : Nat) (s : State) :
    exec (.eventWindowRestart core) s = execEventWindowRestart core s := rfl
theorem exec_engineAccept (g : Nat) (s : State) :
    exec (.engineAccept g) s = execEngineAccept g s := rfl
theorem exec_mmloopComplete (core : Nat) (s : State) :
    exec (.mmloopComplete core) s = execMmloopComplete core s := rfl
theorem exec_copyComplete (core : Nat) (slot : Nat) (s : State) :
    exec (.copyComplete core slot) s = execCopyComplete core slot s := rfl
theorem exec_cbFillComplete (core : Nat) (slot : Nat) (s : State) :
    exec (.cbFillComplete core slot) s = execCbFillComplete core slot s := rfl
theorem exec_cbFillStart (core : Nat) (slot : Nat) (s : State) :
    exec (.cbFillStart core slot) s = execCbFillStart core slot s := rfl
theorem exec_abarArrivalCount (team : Nat) (bar : Nat) (s : State) :
    exec (.abarArrivalCount team bar) s = execAbarArrivalCount team bar s := rfl
theorem exec_cbfreeSlotFreed (team : Nat) (buf : Nat) (s : State) :
    exec (.cbfreeSlotFreed team buf) s = execCbfreeSlotFreed team buf s := rfl
theorem exec_sysAnswer (g : Nat) (idx : Nat) (v : BitVec 64) (s : State) :
    exec (.sysAnswer g idx v) s = execSysAnswer g idx v s := rfl
theorem exec_launchRecordAccept (g : Nat) (s : State) :
    exec (.launchRecordAccept g) s = execLaunchRecordAccept g s := rfl
theorem exec_lqdoor (part : Nat) (q : Nat) (addr : BitVec 64) (s : State) :
    exec (.lqdoor part q addr) s = execLqdoor part q addr s := rfl
theorem exec_lqstatClear (part : Nat) (q : Nat) (v : BitVec 64) (s : State) :
    exec (.lqstatClear part q v) s = execLqstatClear part q v s := rfl
theorem exec_preempt (part : Nat) (lid : Nat) (s : State) :
    exec (.preempt part lid) s = execPreempt part lid s := rfl
theorem exec_resume (part : Nat) (lid : Nat) (s : State) :
    exec (.resume part lid) s = execResume part lid s := rfl
theorem exec_terminate (part : Nat) (lid : Nat) (s : State) :
    exec (.terminate part lid) s = execTerminate part lid s := rfl
theorem exec_evcntWrite (part : Nat) (c : Nat) (v : BitVec 64) (s : State) :
    exec (.evcntWrite part c v) s = execEvcntWrite part c v s := rfl
theorem exec_resvcoreWrite (part : Nat) (w : Nat) (v : BitVec 64) (s : State) :
    exec (.resvcoreWrite part w v) s = execResvcoreWrite part w v s := rfl
theorem exec_placeTeam (part : Nat) (s : State) :
    exec (.placeTeam part) s = execPlaceTeam part s := rfl
theorem exec_coopPlace (part : Nat) (s : State) :
    exec (.coopPlace part) s = execCoopPlace part s := rfl
theorem exec_groupRestore (teamImage : Bool) (uid : Nat) (s : State) :
    exec (.groupRestore teamImage uid) s = execGroupRestore teamImage uid s := rfl
theorem exec_teamComplete (team : Nat) (s : State) :
    exec (.teamComplete team) s = execTeamComplete team s := rfl
theorem exec_coreRemoveComplete (part : Nat) (s : State) :
    exec (.coreRemoveComplete part) s = execCoreRemoveComplete part s := rfl
theorem exec_gateSendAccept (conv : Nat) (role : Nat) (s : State) :
    exec (.gateSendAccept conv role) s = execGateSendAccept conv role s := rfl
theorem exec_gateExchangeComplete (conv : Nat) (ex : Nat) (party : Nat) (s : State) :
    exec (.gateExchangeComplete conv ex party) s = execGateExchangeComplete conv ex party s := rfl
theorem exec_remoteRequest (p : Packet) (s : State) :
    exec (.remoteRequest p) s = execRemoteRequest p s := rfl
theorem exec_remoteAck (req : Nat) (answers : List PktAnswer) (s : State) :
    exec (.remoteAck req answers) s = execRemoteAck req answers s := rfl
theorem exec_remoteResend (req : Nat) (s : State) :
    exec (.remoteResend req) s = execRemoteResend req s := rfl
theorem exec_portDown (port : Nat) (lanes : Nat) (s : State) :
    exec (.portDown port lanes) s = execPortDown port lanes s := rfl
theorem exec_portUp (port : Nat) (lanes : Nat) (s : State) :
    exec (.portUp port lanes) s = execPortUp port lanes s := rfl
theorem exec_ctxCreate (part : Nat) (cc : Nat) (a0 : BitVec 64) (s : State) :
    exec (.ctxCreate part cc a0) s = execCtxCreate part cc a0 s := rfl
theorem exec_ctxDestroy (part : Nat) (cc : Nat) (a0 : BitVec 64) (a1 : BitVec 64) (s : State) :
    exec (.ctxDestroy part cc a0 a1) s = execCtxDestroy part cc a0 a1 s := rfl
theorem exec_ctxRoot (part : Nat) (cc : Nat) (a0 : BitVec 64) (a1 : BitVec 64) (s : State) :
    exec (.ctxRoot part cc a0 a1) s = execCtxRoot part cc a0 a1 s := rfl
theorem exec_groupResume (part : Nat) (cc : Nat) (a0 : BitVec 64) (a1 : BitVec 64) (a2 : BitVec 64) (s : State) :
    exec (.groupResume part cc a0 a1 a2) s = execGroupResume part cc a0 a1 a2 s := rfl
theorem exec_choreoLoad (part : Nat) (cc : Nat) (a0 : BitVec 64) (s : State) :
    exec (.choreoLoad part cc a0) s = execChoreoLoad part cc a0 s := rfl
theorem exec_choreoUnload (part : Nat) (cc : Nat) (a0 : BitVec 64) (s : State) :
    exec (.choreoUnload part cc a0) s = execChoreoUnload part cc a0 s := rfl
theorem exec_convCreate (part : Nat) (cc : Nat) (a0 : BitVec 64) (a1 : BitVec 64) (a2 : BitVec 64) (s : State) :
    exec (.convCreate part cc a0 a1 a2) s = execConvCreate part cc a0 a1 a2 s := rfl
theorem exec_convCreateTimeout (conv : Nat) (s : State) :
    exec (.convCreateTimeout conv) s = execConvCreateTimeout conv s := rfl
theorem exec_convDestroy (part : Nat) (cc : Nat) (a0 : BitVec 64) (s : State) :
    exec (.convDestroy part cc a0) s = execConvDestroy part cc a0 s := rfl
theorem exec_chanKey (part : Nat) (cc : Nat) (a0 : BitVec 64) (a1 : BitVec 64) (a2 : BitVec 64) (s : State) :
    exec (.chanKey part cc a0 a1 a2) s = execChanKey part cc a0 a1 a2 s := rfl
theorem exec_measExtend (part : Nat) (cc : Nat) (a0 : BitVec 64) (s : State) :
    exec (.measExtend part cc a0) s = execMeasExtend part cc a0 s := rfl
theorem exec_tensorOpen (part : Nat) (cc : Nat) (s : State) :
    exec (.tensorOpen part cc) s = execTensorOpen part cc s := rfl
theorem exec_tensorBump (part : Nat) (cc : Nat) (a0 : BitVec 64) (s : State) :
    exec (.tensorBump part cc a0) s = execTensorBump part cc a0 s := rfl
theorem exec_tensorClose (part : Nat) (cc : Nat) (a0 : BitVec 64) (s : State) :
    exec (.tensorClose part cc a0) s = execTensorClose part cc a0 s := rfl
theorem exec_tlbInvalidatePage (part : Nat) (ctx : Nat) (s : State) :
    exec (.tlbInvalidatePage part ctx) s = execTlbInvalidatePage part ctx s := rfl
theorem exec_tlbInvalidateContext (part : Nat) (ctx : Nat) (s : State) :
    exec (.tlbInvalidateContext part ctx) s = execTlbInvalidateContext part ctx s := rfl
theorem exec_tlbInvalidatePartition (part : Nat) (s : State) :
    exec (.tlbInvalidatePartition part) s = execTlbInvalidatePartition part s := rfl
theorem exec_tlbInvalidateDone (part : Nat) (s : State) :
    exec (.tlbInvalidateDone part) s = execTlbInvalidateDone part s := rfl
theorem exec_ringConfigWrite (part : Nat) (isBase : Bool) (v : BitVec 64) (s : State) :
    exec (.ringConfigWrite part isBase v) s = execRingConfigWrite part isBase v s := rfl
theorem exec_ringtailWrite (part : Nat) (v : BitVec 64) (s : State) :
    exec (.ringtailWrite part v) s = execRingtailWrite part v s := rfl
theorem exec_partCreate (clus : BitVec 32) (ccs : BitVec 32) (gran : Nat) (ports : BitVec 32) (image : List (BitVec 8)) (s : State) :
    exec (.partCreate clus ccs gran ports image) s = execPartCreate clus ccs gran ports image s := rfl
theorem exec_partDestroy (part : Nat) (s : State) :
    exec (.partDestroy part) s = execPartDestroy part s := rfl
theorem exec_coreAdd (part : Nat) (clus : BitVec 32) (s : State) :
    exec (.coreAdd part clus) s = execCoreAdd part clus s := rfl
theorem exec_coreRemove (part : Nat) (clus : BitVec 32) (force : Bool) (s : State) :
    exec (.coreRemove part clus force) s = execCoreRemove part clus force s := rfl
theorem exec_hbmGrow (part : Nat) (n : Nat) (s : State) :
    exec (.hbmGrow part n) s = execHbmGrow part n s := rfl
theorem exec_hbmShrink (part : Nat) (n : Nat) (s : State) :
    exec (.hbmShrink part n) s = execHbmShrink part n s := rfl
theorem exec_portSet (part : Nat) (ports : BitVec 32) (s : State) :
    exec (.portSet part ports) s = execPortSet part ports s := rfl
theorem exec_sleep (force : Bool) (s : State) :
    exec (.sleep force) s = execSleep force s := rfl
theorem exec_wakemode (mode : BitVec 64) (s : State) :
    exec (.wakemode mode) s = execWakemode mode s := rfl
theorem exec_granRetire (gran : Nat) (s : State) :
    exec (.granRetire gran) s = execGranRetire gran s := rfl
theorem exec_fwWrite (off : Nat) (bytes : List (BitVec 8)) (s : State) :
    exec (.fwWrite off bytes) s = execFwWrite off bytes s := rfl
theorem exec_fwCheck (s : State) :
    exec .fwCheck s = execFwCheck s := rfl
theorem exec_fwCommit (s : State) :
    exec .fwCommit s = execFwCommit s := rfl
theorem exec_fwSvn (v : BitVec 32) (s : State) :
    exec (.fwSvn v) s = execFwSvn v s := rfl
theorem exec_fwRevoke (key : Nat) (s : State) :
    exec (.fwRevoke key) s = execFwRevoke key s := rfl
theorem exec_waitingCommandResume (part : Nat) (s : State) :
    exec (.waitingCommandResume part) s = execWaitingCommandResume part s := rfl
theorem exec_granuleScrubDone (fails : Bool) (s : State) :
    exec (.granuleScrubDone fails) s = execGranuleScrubDone fails s := rfl
theorem exec_uncorrectableError (site : ErrSite) (s : State) :
    exec (.uncorrectableError site) s = execUncorrectableError site s := rfl
theorem exec_correctedError (cls : Nat) (s : State) :
    exec (.correctedError cls) s = execCorrectedError cls s := rfl
theorem exec_ceWindowRestart (s : State) :
    exec .ceWindowRestart s = execCeWindowRestart s := rfl
theorem exec_celimWrite (cls : Nat) (v : BitVec 64) (s : State) :
    exec (.celimWrite cls v) s = execCelimWrite cls v s := rfl
theorem exec_errRingConfigWrite (isBase : Bool) (v : BitVec 64) (s : State) :
    exec (.errRingConfigWrite isBase v) s = execErrRingConfigWrite isBase v s := rfl
theorem exec_errtailWrite (v : BitVec 64) (s : State) :
    exec (.errtailWrite v) s = execErrtailWrite v s := rfl
theorem exec_pwrpeakRead (s : State) :
    exec .pwrpeakRead s = execPwrpeakRead s := rfl
theorem exec_retryintWrite (v : BitVec 64) (s : State) :
    exec (.retryintWrite v) s = execRetryintWrite v s := rfl
theorem exec_clockEvaluation (smp : ThermalSample) (s : State) :
    exec (.clockEvaluation smp) s = execClockEvaluation smp s := rfl
theorem exec_registerWrite (blk : RegBlock) (off : Nat) (v : BitVec 64) (s : State) :
    exec (.registerWrite blk off v) s = execRegisterWrite blk off v s := rfl
theorem exec_coldWrite (v : BitVec 64) (s : State) :
    exec (.coldWrite v) s = execColdWrite v s := rfl
theorem exec_perstDeassert (s : State) :
    exec .perstDeassert s = execPerstDeassert s := rfl
theorem exec_hotReset (s : State) :
    exec .hotReset s = execHotReset s := rfl
theorem exec_hbmStackTrained (stack : Nat) (ok : Bool) (s : State) :
    exec (.hbmStackTrained stack ok) s = execHbmStackTrained stack ok s := rfl
theorem exec_clusterSelfTestDone (clu : Nat) (ok : Bool) (s : State) :
    exec (.clusterSelfTestDone clu ok) s = execClusterSelfTestDone clu ok s := rfl
theorem exec_vfFlr (vf : Nat) (s : State) :
    exec (.vfFlr vf) s = execVfFlr vf s := rfl
theorem exec_pf0Flr (s : State) :
    exec .pf0Flr s = execPf0Flr s := rfl
theorem exec_channelMessage (ch : Nat) (msg : List (BitVec 8)) (s : State) :
    exec (.channelMessage ch msg) s = execChannelMessage ch msg s := rfl
theorem exec_getVersion (mb : Nat) (r : SpdmReq) (s : State) :
    exec (.getVersion mb r) s = execGetVersion mb r s := rfl
theorem exec_getCapabilities (mb : Nat) (r : SpdmReq) (s : State) :
    exec (.getCapabilities mb r) s = execGetCapabilities mb r s := rfl
theorem exec_negotiateAlgorithms (mb : Nat) (r : SpdmReq) (s : State) :
    exec (.negotiateAlgorithms mb r) s = execNegotiateAlgorithms mb r s := rfl
theorem exec_getDigests (mb : Nat) (r : SpdmReq) (s : State) :
    exec (.getDigests mb r) s = execGetDigests mb r s := rfl
theorem exec_getCertificate (mb : Nat) (r : SpdmReq) (s : State) :
    exec (.getCertificate mb r) s = execGetCertificate mb r s := rfl
theorem exec_challenge (mb : Nat) (r : SpdmReq) (s : State) :
    exec (.challenge mb r) s = execChallenge mb r s := rfl
theorem exec_getMeasurements (mb : Nat) (r : SpdmReq) (s : State) :
    exec (.getMeasurements mb r) s = execGetMeasurements mb r s := rfl
theorem exec_spdmUnsupportedRequest (mb : Nat) (code : BitVec 8) (r : SpdmReq) (s : State) :
    exec (.spdmUnsupportedRequest mb code r) s = execSpdmUnsupportedRequest mb code r s := rfl
theorem exec_controlCoreStore (part : Nat) (addr : Nat) (bytes : List (BitVec 8)) (s : State) :
    exec (.controlCoreStore part addr bytes) s = execControlCoreStore part addr bytes s := rfl
theorem exec_memorySideCacheWriteBack (line : Nat) (s : State) :
    exec (.memorySideCacheWriteBack line) s = execMemorySideCacheWriteBack line s := rfl
theorem exec_perstAssert (s : State) :
    exec .perstAssert s = execPerstAssert s := rfl
theorem exec_alwaysOnPowerLoss (s : State) :
    exec .alwaysOnPowerLoss s = execAlwaysOnPowerLoss s := rfl

end Sys2Proof.Laws
end

