-- ==== Sys2Proof/Laws/State.lean ====
section
/-!
SUPPORT. What each update of the state leaves as it was, field by field, and what the lookups find after an update: no later
proof unfolds a record update.
-/

namespace Sys2Proof.Machine

set_option Elab.async false

open Sys2Proof

/-! ## `setGroup` -/

@[simp] theorem State.setGroup_hbm (s : State) (g : Group) : (s.setGroup g).hbm = s.hbm := rfl
@[simp] theorem State.setGroup_slices (s : State) (g : Group) : (s.setGroup g).slices = s.slices := rfl
@[simp] theorem State.setGroup_lines (s : State) (g : Group) : (s.setGroup g).lines = s.lines := rfl
@[simp] theorem State.setGroup_tlb (s : State) (g : Group) : (s.setGroup g).tlb = s.tlb := rfl
@[simp] theorem State.setGroup_teams (s : State) (g : Group) : (s.setGroup g).teams = s.teams := rfl
@[simp] theorem State.setGroup_cores (s : State) (g : Group) : (s.setGroup g).cores = s.cores := rfl
@[simp] theorem State.setGroup_parts (s : State) (g : Group) : (s.setGroup g).parts = s.parts := rfl
@[simp] theorem State.setGroup_pkg (s : State) (g : Group) : (s.setGroup g).pkg = s.pkg := rfl
@[simp] theorem State.setGroup_fabric (s : State) (g : Group) : (s.setGroup g).fabric = s.fabric := rfl
@[simp] theorem State.setGroup_returns (s : State) (g : Group) : (s.setGroup g).returns = s.returns := rfl
@[simp] theorem State.setGroup_interrupts (s : State) (g : Group) : (s.setGroup g).interrupts = s.interrupts := rfl
@[simp] theorem State.setGroup_svc (s : State) (g : Group) : (s.setGroup g).svc = s.svc := rfl
@[simp] theorem State.setGroup_latent (s : State) (g : Group) : (s.setGroup g).latent = s.latent := rfl
@[simp] theorem State.setGroup_late (s : State) (g : Group) : (s.setGroup g).late = s.late := rfl
@[simp] theorem State.setGroup_sliceErrs (s : State) (g : Group) : (s.setGroup g).sliceErrs = s.sliceErrs := rfl
@[simp] theorem State.setGroup_kept (s : State) (g : Group) : (s.setGroup g).kept = s.kept := rfl
@[simp] theorem State.setGroup_openLists (s : State) (g : Group) : (s.setGroup g).openLists = s.openLists := rfl
@[simp] theorem State.setGroup_cur (s : State) (g : Group) : (s.setGroup g).cur = s.cur := rfl
@[simp] theorem State.setGroup_moves (s : State) (g : Group) : (s.setGroup g).moves = s.moves := rfl
@[simp] theorem State.setGroup_tick (s : State) (g : Group) : (s.setGroup g).tick = s.tick := rfl
@[simp] theorem State.setGroup_nextUid (s : State) (g : Group) : (s.setGroup g).nextUid = s.nextUid := rfl

/-! ## `dropGroup` -/

@[simp] theorem State.dropGroup_hbm (s : State) (uid : Nat) : (s.dropGroup uid).hbm = s.hbm := rfl
@[simp] theorem State.dropGroup_slices (s : State) (uid : Nat) : (s.dropGroup uid).slices = s.slices := rfl
@[simp] theorem State.dropGroup_lines (s : State) (uid : Nat) : (s.dropGroup uid).lines = s.lines := rfl
@[simp] theorem State.dropGroup_tlb (s : State) (uid : Nat) : (s.dropGroup uid).tlb = s.tlb := rfl
@[simp] theorem State.dropGroup_teams (s : State) (uid : Nat) : (s.dropGroup uid).teams = s.teams := rfl
@[simp] theorem State.dropGroup_cores (s : State) (uid : Nat) : (s.dropGroup uid).cores = s.cores := rfl
@[simp] theorem State.dropGroup_parts (s : State) (uid : Nat) : (s.dropGroup uid).parts = s.parts := rfl
@[simp] theorem State.dropGroup_pkg (s : State) (uid : Nat) : (s.dropGroup uid).pkg = s.pkg := rfl
@[simp] theorem State.dropGroup_fabric (s : State) (uid : Nat) : (s.dropGroup uid).fabric = s.fabric := rfl
@[simp] theorem State.dropGroup_returns (s : State) (uid : Nat) : (s.dropGroup uid).returns = s.returns := rfl
@[simp] theorem State.dropGroup_interrupts (s : State) (uid : Nat) : (s.dropGroup uid).interrupts = s.interrupts := rfl
@[simp] theorem State.dropGroup_svc (s : State) (uid : Nat) : (s.dropGroup uid).svc = s.svc := rfl
@[simp] theorem State.dropGroup_latent (s : State) (uid : Nat) : (s.dropGroup uid).latent = s.latent := rfl
@[simp] theorem State.dropGroup_late (s : State) (uid : Nat) : (s.dropGroup uid).late = s.late := rfl
@[simp] theorem State.dropGroup_sliceErrs (s : State) (uid : Nat) : (s.dropGroup uid).sliceErrs = s.sliceErrs := rfl
@[simp] theorem State.dropGroup_kept (s : State) (uid : Nat) : (s.dropGroup uid).kept = s.kept := rfl
@[simp] theorem State.dropGroup_openLists (s : State) (uid : Nat) : (s.dropGroup uid).openLists = s.openLists := rfl
@[simp] theorem State.dropGroup_cur (s : State) (uid : Nat) : (s.dropGroup uid).cur = s.cur := rfl
@[simp] theorem State.dropGroup_moves (s : State) (uid : Nat) : (s.dropGroup uid).moves = s.moves := rfl
@[simp] theorem State.dropGroup_tick (s : State) (uid : Nat) : (s.dropGroup uid).tick = s.tick := rfl
@[simp] theorem State.dropGroup_nextUid (s : State) (uid : Nat) : (s.dropGroup uid).nextUid = s.nextUid := rfl

/-! ## `setTeam` -/

@[simp] theorem State.setTeam_hbm (s : State) (t : Team) : (s.setTeam t).hbm = s.hbm := rfl
@[simp] theorem State.setTeam_slices (s : State) (t : Team) : (s.setTeam t).slices = s.slices := rfl
@[simp] theorem State.setTeam_lines (s : State) (t : Team) : (s.setTeam t).lines = s.lines := rfl
@[simp] theorem State.setTeam_tlb (s : State) (t : Team) : (s.setTeam t).tlb = s.tlb := rfl
@[simp] theorem State.setTeam_groups (s : State) (t : Team) : (s.setTeam t).groups = s.groups := rfl
@[simp] theorem State.setTeam_cores (s : State) (t : Team) : (s.setTeam t).cores = s.cores := rfl
@[simp] theorem State.setTeam_parts (s : State) (t : Team) : (s.setTeam t).parts = s.parts := rfl
@[simp] theorem State.setTeam_pkg (s : State) (t : Team) : (s.setTeam t).pkg = s.pkg := rfl
@[simp] theorem State.setTeam_fabric (s : State) (t : Team) : (s.setTeam t).fabric = s.fabric := rfl
@[simp] theorem State.setTeam_returns (s : State) (t : Team) : (s.setTeam t).returns = s.returns := rfl
@[simp] theorem State.setTeam_interrupts (s : State) (t : Team) : (s.setTeam t).interrupts = s.interrupts := rfl
@[simp] theorem State.setTeam_svc (s : State) (t : Team) : (s.setTeam t).svc = s.svc := rfl
@[simp] theorem State.setTeam_latent (s : State) (t : Team) : (s.setTeam t).latent = s.latent := rfl
@[simp] theorem State.setTeam_late (s : State) (t : Team) : (s.setTeam t).late = s.late := rfl
@[simp] theorem State.setTeam_sliceErrs (s : State) (t : Team) : (s.setTeam t).sliceErrs = s.sliceErrs := rfl
@[simp] theorem State.setTeam_kept (s : State) (t : Team) : (s.setTeam t).kept = s.kept := rfl
@[simp] theorem State.setTeam_openLists (s : State) (t : Team) : (s.setTeam t).openLists = s.openLists := rfl
@[simp] theorem State.setTeam_cur (s : State) (t : Team) : (s.setTeam t).cur = s.cur := rfl
@[simp] theorem State.setTeam_moves (s : State) (t : Team) : (s.setTeam t).moves = s.moves := rfl
@[simp] theorem State.setTeam_tick (s : State) (t : Team) : (s.setTeam t).tick = s.tick := rfl
@[simp] theorem State.setTeam_nextUid (s : State) (t : Team) : (s.setTeam t).nextUid = s.nextUid := rfl

/-! ## `setCore` -/

@[simp] theorem State.setCore_hbm (s : State) (c : Core) : (s.setCore c).hbm = s.hbm := rfl
@[simp] theorem State.setCore_slices (s : State) (c : Core) : (s.setCore c).slices = s.slices := rfl
@[simp] theorem State.setCore_lines (s : State) (c : Core) : (s.setCore c).lines = s.lines := rfl
@[simp] theorem State.setCore_tlb (s : State) (c : Core) : (s.setCore c).tlb = s.tlb := rfl
@[simp] theorem State.setCore_groups (s : State) (c : Core) : (s.setCore c).groups = s.groups := rfl
@[simp] theorem State.setCore_teams (s : State) (c : Core) : (s.setCore c).teams = s.teams := rfl
@[simp] theorem State.setCore_parts (s : State) (c : Core) : (s.setCore c).parts = s.parts := rfl
@[simp] theorem State.setCore_pkg (s : State) (c : Core) : (s.setCore c).pkg = s.pkg := rfl
@[simp] theorem State.setCore_fabric (s : State) (c : Core) : (s.setCore c).fabric = s.fabric := rfl
@[simp] theorem State.setCore_returns (s : State) (c : Core) : (s.setCore c).returns = s.returns := rfl
@[simp] theorem State.setCore_interrupts (s : State) (c : Core) : (s.setCore c).interrupts = s.interrupts := rfl
@[simp] theorem State.setCore_svc (s : State) (c : Core) : (s.setCore c).svc = s.svc := rfl
@[simp] theorem State.setCore_latent (s : State) (c : Core) : (s.setCore c).latent = s.latent := rfl
@[simp] theorem State.setCore_late (s : State) (c : Core) : (s.setCore c).late = s.late := rfl
@[simp] theorem State.setCore_sliceErrs (s : State) (c : Core) : (s.setCore c).sliceErrs = s.sliceErrs := rfl
@[simp] theorem State.setCore_kept (s : State) (c : Core) : (s.setCore c).kept = s.kept := rfl
@[simp] theorem State.setCore_openLists (s : State) (c : Core) : (s.setCore c).openLists = s.openLists := rfl
@[simp] theorem State.setCore_cur (s : State) (c : Core) : (s.setCore c).cur = s.cur := rfl
@[simp] theorem State.setCore_moves (s : State) (c : Core) : (s.setCore c).moves = s.moves := rfl
@[simp] theorem State.setCore_tick (s : State) (c : Core) : (s.setCore c).tick = s.tick := rfl
@[simp] theorem State.setCore_nextUid (s : State) (c : Core) : (s.setCore c).nextUid = s.nextUid := rfl

/-! ## `setPart` -/

@[simp] theorem State.setPart_hbm (s : State) (p : Partition) : (s.setPart p).hbm = s.hbm := rfl
@[simp] theorem State.setPart_slices (s : State) (p : Partition) : (s.setPart p).slices = s.slices := rfl
@[simp] theorem State.setPart_lines (s : State) (p : Partition) : (s.setPart p).lines = s.lines := rfl
@[simp] theorem State.setPart_tlb (s : State) (p : Partition) : (s.setPart p).tlb = s.tlb := rfl
@[simp] theorem State.setPart_groups (s : State) (p : Partition) : (s.setPart p).groups = s.groups := rfl
@[simp] theorem State.setPart_teams (s : State) (p : Partition) : (s.setPart p).teams = s.teams := rfl
@[simp] theorem State.setPart_cores (s : State) (p : Partition) : (s.setPart p).cores = s.cores := rfl
@[simp] theorem State.setPart_pkg (s : State) (p : Partition) : (s.setPart p).pkg = s.pkg := rfl
@[simp] theorem State.setPart_fabric (s : State) (p : Partition) : (s.setPart p).fabric = s.fabric := rfl
@[simp] theorem State.setPart_returns (s : State) (p : Partition) : (s.setPart p).returns = s.returns := rfl
@[simp] theorem State.setPart_interrupts (s : State) (p : Partition) : (s.setPart p).interrupts = s.interrupts := rfl
@[simp] theorem State.setPart_svc (s : State) (p : Partition) : (s.setPart p).svc = s.svc := rfl
@[simp] theorem State.setPart_latent (s : State) (p : Partition) : (s.setPart p).latent = s.latent := rfl
@[simp] theorem State.setPart_late (s : State) (p : Partition) : (s.setPart p).late = s.late := rfl
@[simp] theorem State.setPart_sliceErrs (s : State) (p : Partition) : (s.setPart p).sliceErrs = s.sliceErrs := rfl
@[simp] theorem State.setPart_kept (s : State) (p : Partition) : (s.setPart p).kept = s.kept := rfl
@[simp] theorem State.setPart_openLists (s : State) (p : Partition) : (s.setPart p).openLists = s.openLists := rfl
@[simp] theorem State.setPart_cur (s : State) (p : Partition) : (s.setPart p).cur = s.cur := rfl
@[simp] theorem State.setPart_moves (s : State) (p : Partition) : (s.setPart p).moves = s.moves := rfl
@[simp] theorem State.setPart_tick (s : State) (p : Partition) : (s.setPart p).tick = s.tick := rfl
@[simp] theorem State.setPart_nextUid (s : State) (p : Partition) : (s.setPart p).nextUid = s.nextUid := rfl

/-! ## `setLine` -/

@[simp] theorem State.setLine_hbm (s : State) (l : Line) : (s.setLine l).hbm = s.hbm := rfl
@[simp] theorem State.setLine_slices (s : State) (l : Line) : (s.setLine l).slices = s.slices := rfl
@[simp] theorem State.setLine_tlb (s : State) (l : Line) : (s.setLine l).tlb = s.tlb := rfl
@[simp] theorem State.setLine_groups (s : State) (l : Line) : (s.setLine l).groups = s.groups := rfl
@[simp] theorem State.setLine_teams (s : State) (l : Line) : (s.setLine l).teams = s.teams := rfl
@[simp] theorem State.setLine_cores (s : State) (l : Line) : (s.setLine l).cores = s.cores := rfl
@[simp] theorem State.setLine_parts (s : State) (l : Line) : (s.setLine l).parts = s.parts := rfl
@[simp] theorem State.setLine_pkg (s : State) (l : Line) : (s.setLine l).pkg = s.pkg := rfl
@[simp] theorem State.setLine_fabric (s : State) (l : Line) : (s.setLine l).fabric = s.fabric := rfl
@[simp] theorem State.setLine_returns (s : State) (l : Line) : (s.setLine l).returns = s.returns := rfl
@[simp] theorem State.setLine_interrupts (s : State) (l : Line) : (s.setLine l).interrupts = s.interrupts := rfl
@[simp] theorem State.setLine_svc (s : State) (l : Line) : (s.setLine l).svc = s.svc := rfl
@[simp] theorem State.setLine_latent (s : State) (l : Line) : (s.setLine l).latent = s.latent := rfl
@[simp] theorem State.setLine_late (s : State) (l : Line) : (s.setLine l).late = s.late := rfl
@[simp] theorem State.setLine_sliceErrs (s : State) (l : Line) : (s.setLine l).sliceErrs = s.sliceErrs := rfl
@[simp] theorem State.setLine_kept (s : State) (l : Line) : (s.setLine l).kept = s.kept := rfl
@[simp] theorem State.setLine_openLists (s : State) (l : Line) : (s.setLine l).openLists = s.openLists := rfl
@[simp] theorem State.setLine_cur (s : State) (l : Line) : (s.setLine l).cur = s.cur := rfl
@[simp] theorem State.setLine_moves (s : State) (l : Line) : (s.setLine l).moves = s.moves := rfl
@[simp] theorem State.setLine_tick (s : State) (l : Line) : (s.setLine l).tick = s.tick := rfl
@[simp] theorem State.setLine_nextUid (s : State) (l : Line) : (s.setLine l).nextUid = s.nextUid := rfl

/-! ## `setConv` -/

@[simp] theorem State.setConv_hbm (s : State) (c : Conv) : (s.setConv c).hbm = s.hbm := rfl
@[simp] theorem State.setConv_slices (s : State) (c : Conv) : (s.setConv c).slices = s.slices := rfl
@[simp] theorem State.setConv_lines (s : State) (c : Conv) : (s.setConv c).lines = s.lines := rfl
@[simp] theorem State.setConv_tlb (s : State) (c : Conv) : (s.setConv c).tlb = s.tlb := rfl
@[simp] theorem State.setConv_groups (s : State) (c : Conv) : (s.setConv c).groups = s.groups := rfl
@[simp] theorem State.setConv_teams (s : State) (c : Conv) : (s.setConv c).teams = s.teams := rfl
@[simp] theorem State.setConv_cores (s : State) (c : Conv) : (s.setConv c).cores = s.cores := rfl
@[simp] theorem State.setConv_parts (s : State) (c : Conv) : (s.setConv c).parts = s.parts := rfl
@[simp] theorem State.setConv_fabric (s : State) (c : Conv) : (s.setConv c).fabric = s.fabric := rfl
@[simp] theorem State.setConv_returns (s : State) (c : Conv) : (s.setConv c).returns = s.returns := rfl
@[simp] theorem State.setConv_interrupts (s : State) (c : Conv) : (s.setConv c).interrupts = s.interrupts := rfl
@[simp] theorem State.setConv_svc (s : State) (c : Conv) : (s.setConv c).svc = s.svc := rfl
@[simp] theorem State.setConv_latent (s : State) (c : Conv) : (s.setConv c).latent = s.latent := rfl
@[simp] theorem State.setConv_late (s : State) (c : Conv) : (s.setConv c).late = s.late := rfl
@[simp] theorem State.setConv_sliceErrs (s : State) (c : Conv) : (s.setConv c).sliceErrs = s.sliceErrs := rfl
@[simp] theorem State.setConv_kept (s : State) (c : Conv) : (s.setConv c).kept = s.kept := rfl
@[simp] theorem State.setConv_openLists (s : State) (c : Conv) : (s.setConv c).openLists = s.openLists := rfl
@[simp] theorem State.setConv_cur (s : State) (c : Conv) : (s.setConv c).cur = s.cur := rfl
@[simp] theorem State.setConv_moves (s : State) (c : Conv) : (s.setConv c).moves = s.moves := rfl
@[simp] theorem State.setConv_tick (s : State) (c : Conv) : (s.setConv c).tick = s.tick := rfl
@[simp] theorem State.setConv_nextUid (s : State) (c : Conv) : (s.setConv c).nextUid = s.nextUid := rfl

/-! ## `updPart` -/

@[simp] theorem State.updPart_hbm (s : State) (n : Nat) (f : Partition → Partition) : (s.updPart n f).hbm = s.hbm := by
  unfold State.updPart; cases s.part? n <;> rfl
@[simp] theorem State.updPart_slices (s : State) (n : Nat) (f : Partition → Partition) : (s.updPart n f).slices = s.slices := by
  unfold State.updPart; cases s.part? n <;> rfl
@[simp] theorem State.updPart_lines (s : State) (n : Nat) (f : Partition → Partition) : (s.updPart n f).lines = s.lines := by
  unfold State.updPart; cases s.part? n <;> rfl
@[simp] theorem State.updPart_tlb (s : State) (n : Nat) (f : Partition → Partition) : (s.updPart n f).tlb = s.tlb := by
  unfold State.updPart; cases s.part? n <;> rfl
@[simp] theorem State.updPart_groups (s : State) (n : Nat) (f : Partition → Partition) : (s.updPart n f).groups = s.groups := by
  unfold State.updPart; cases s.part? n <;> rfl
@[simp] theorem State.updPart_teams (s : State) (n : Nat) (f : Partition → Partition) : (s.updPart n f).teams = s.teams := by
  unfold State.updPart; cases s.part? n <;> rfl
@[simp] theorem State.updPart_cores (s : State) (n : Nat) (f : Partition → Partition) : (s.updPart n f).cores = s.cores := by
  unfold State.updPart; cases s.part? n <;> rfl
@[simp] theorem State.updPart_pkg (s : State) (n : Nat) (f : Partition → Partition) : (s.updPart n f).pkg = s.pkg := by
  unfold State.updPart; cases s.part? n <;> rfl
@[simp] theorem State.updPart_fabric (s : State) (n : Nat) (f : Partition → Partition) : (s.updPart n f).fabric = s.fabric := by
  unfold State.updPart; cases s.part? n <;> rfl
@[simp] theorem State.updPart_returns (s : State) (n : Nat) (f : Partition → Partition) : (s.updPart n f).returns = s.returns := by
  unfold State.updPart; cases s.part? n <;> rfl
@[simp] theorem State.updPart_interrupts (s : State) (n : Nat) (f : Partition → Partition) : (s.updPart n f).interrupts = s.interrupts := by
  unfold State.updPart; cases s.part? n <;> rfl
@[simp] theorem State.updPart_svc (s : State) (n : Nat) (f : Partition → Partition) : (s.updPart n f).svc = s.svc := by
  unfold State.updPart; cases s.part? n <;> rfl
@[simp] theorem State.updPart_latent (s : State) (n : Nat) (f : Partition → Partition) : (s.updPart n f).latent = s.latent := by
  unfold State.updPart; cases s.part? n <;> rfl
@[simp] theorem State.updPart_late (s : State) (n : Nat) (f : Partition → Partition) : (s.updPart n f).late = s.late := by
  unfold State.updPart; cases s.part? n <;> rfl
@[simp] theorem State.updPart_sliceErrs (s : State) (n : Nat) (f : Partition → Partition) : (s.updPart n f).sliceErrs = s.sliceErrs := by
  unfold State.updPart; cases s.part? n <;> rfl
@[simp] theorem State.updPart_kept (s : State) (n : Nat) (f : Partition → Partition) : (s.updPart n f).kept = s.kept := by
  unfold State.updPart; cases s.part? n <;> rfl
@[simp] theorem State.updPart_openLists (s : State) (n : Nat) (f : Partition → Partition) : (s.updPart n f).openLists = s.openLists := by
  unfold State.updPart; cases s.part? n <;> rfl
@[simp] theorem State.updPart_cur (s : State) (n : Nat) (f : Partition → Partition) : (s.updPart n f).cur = s.cur := by
  unfold State.updPart; cases s.part? n <;> rfl
@[simp] theorem State.updPart_moves (s : State) (n : Nat) (f : Partition → Partition) : (s.updPart n f).moves = s.moves := by
  unfold State.updPart; cases s.part? n <;> rfl
@[simp] theorem State.updPart_tick (s : State) (n : Nat) (f : Partition → Partition) : (s.updPart n f).tick = s.tick := by
  unfold State.updPart; cases s.part? n <;> rfl
@[simp] theorem State.updPart_nextUid (s : State) (n : Nat) (f : Partition → Partition) : (s.updPart n f).nextUid = s.nextUid := by
  unfold State.updPart; cases s.part? n <;> rfl

/-! ## Registers of a group -/

@[simp] theorem Group.writeReg_uid (g : Group) (r : Nat) (v : VReg) (m : W64) : (g.writeReg r v m).uid = g.uid := by
  unfold Group.writeReg; split <;> [rfl; (split <;> rfl)]
@[simp] theorem Group.writeReg_part (g : Group) (r : Nat) (v : VReg) (m : W64) : (g.writeReg r v m).part = g.part := by
  unfold Group.writeReg; split <;> [rfl; (split <;> rfl)]
@[simp] theorem Group.writeReg_ctx (g : Group) (r : Nat) (v : VReg) (m : W64) : (g.writeReg r v m).ctx = g.ctx := by
  unfold Group.writeReg; split <;> [rfl; (split <;> rfl)]
@[simp] theorem Group.writeReg_lid (g : Group) (r : Nat) (v : VReg) (m : W64) : (g.writeReg r v m).lid = g.lid := by
  unfold Group.writeReg; split <;> [rfl; (split <;> rfl)]
@[simp] theorem Group.writeReg_team (g : Group) (r : Nat) (v : VReg) (m : W64) : (g.writeReg r v m).team = g.team := by
  unfold Group.writeReg; split <;> [rfl; (split <;> rfl)]
@[simp] theorem Group.writeReg_tix (g : Group) (r : Nat) (v : VReg) (m : W64) : (g.writeReg r v m).tix = g.tix := by
  unfold Group.writeReg; split <;> [rfl; (split <;> rfl)]
@[simp] theorem Group.writeReg_gix (g : Group) (r : Nat) (v : VReg) (m : W64) : (g.writeReg r v m).gix = g.gix := by
  unfold Group.writeReg; split <;> [rfl; (split <;> rfl)]
@[simp] theorem Group.writeReg_core (g : Group) (r : Nat) (v : VReg) (m : W64) : (g.writeReg r v m).core = g.core := by
  unfold Group.writeReg; split <;> [rfl; (split <;> rfl)]
@[simp] theorem Group.writeReg_lane (g : Group) (r : Nat) (v : VReg) (m : W64) : (g.writeReg r v m).lane = g.lane := by
  unfold Group.writeReg; split <;> [rfl; (split <;> rfl)]
@[simp] theorem Group.writeReg_width (g : Group) (r : Nat) (v : VReg) (m : W64) : (g.writeReg r v m).width = g.width := by
  unfold Group.writeReg; split <;> [rfl; (split <;> rfl)]
@[simp] theorem Group.writeReg_alloc (g : Group) (r : Nat) (v : VReg) (m : W64) : (g.writeReg r v m).alloc = g.alloc := by
  unfold Group.writeReg; split <;> [rfl; (split <;> rfl)]
@[simp] theorem Group.writeReg_sregs (g : Group) (r : Nat) (v : VReg) (m : W64) : (g.writeReg r v m).sregs = g.sregs := by
  unfold Group.writeReg; split <;> [rfl; (split <;> rfl)]
@[simp] theorem Group.writeReg_exm (g : Group) (r : Nat) (v : VReg) (m : W64) : (g.writeReg r v m).exm = g.exm := by
  unfold Group.writeReg; split <;> [rfl; (split <;> rfl)]
@[simp] theorem Group.writeReg_lvm (g : Group) (r : Nat) (v : VReg) (m : W64) : (g.writeReg r v m).lvm = g.lvm := by
  unfold Group.writeReg; split <;> [rfl; (split <;> rfl)]
@[simp] theorem Group.writeReg_sm (g : Group) (r : Nat) (v : VReg) (m : W64) : (g.writeReg r v m).sm = g.sm := by
  unfold Group.writeReg; split <;> [rfl; (split <;> rfl)]
@[simp] theorem Group.writeReg_nteam (g : Group) (r : Nat) (v : VReg) (m : W64) : (g.writeReg r v m).nteam = g.nteam := by
  unfold Group.writeReg; split <;> [rfl; (split <;> rfl)]
@[simp] theorem Group.writeReg_wb (g : Group) (r : Nat) (v : VReg) (m : W64) : (g.writeReg r v m).wb = g.wb := by
  unfold Group.writeReg; split <;> [rfl; (split <;> rfl)]
@[simp] theorem Group.writeReg_rank (g : Group) (r : Nat) (v : VReg) (m : W64) : (g.writeReg r v m).rank = g.rank := by
  unfold Group.writeReg; split <;> [rfl; (split <;> rfl)]
@[simp] theorem Group.writeReg_nrank (g : Group) (r : Nat) (v : VReg) (m : W64) : (g.writeReg r v m).nrank = g.nrank := by
  unfold Group.writeReg; split <;> [rfl; (split <;> rfl)]
@[simp] theorem Group.writeReg_fpm (g : Group) (r : Nat) (v : VReg) (m : W64) : (g.writeReg r v m).fpm = g.fpm := by
  unfold Group.writeReg; split <;> [rfl; (split <;> rfl)]
@[simp] theorem Group.writeReg_fpf (g : Group) (r : Nat) (v : VReg) (m : W64) : (g.writeReg r v m).fpf = g.fpf := by
  unfold Group.writeReg; split <;> [rfl; (split <;> rfl)]
@[simp] theorem Group.writeReg_mq (g : Group) (r : Nat) (v : VReg) (m : W64) : (g.writeReg r v m).mq = g.mq := by
  unfold Group.writeReg; split <;> [rfl; (split <;> rfl)]
@[simp] theorem Group.writeReg_crole (g : Group) (r : Nat) (v : VReg) (m : W64) : (g.writeReg r v m).crole = g.crole := by
  unfold Group.writeReg; split <;> [rfl; (split <;> rfl)]
@[simp] theorem Group.writeReg_gateRole (g : Group) (r : Nat) (v : VReg) (m : W64) : (g.writeReg r v m).gateRole = g.gateRole := by
  unfold Group.writeReg; split <;> [rfl; (split <;> rfl)]
@[simp] theorem Group.writeReg_gen (g : Group) (r : Nat) (v : VReg) (m : W64) : (g.writeReg r v m).gen = g.gen := by
  unfold Group.writeReg; split <;> [rfl; (split <;> rfl)]
@[simp] theorem Group.writeReg_pc (g : Group) (r : Nat) (v : VReg) (m : W64) : (g.writeReg r v m).pc = g.pc := by
  unfold Group.writeReg; split <;> [rfl; (split <;> rfl)]
@[simp] theorem Group.writeReg_runPc (g : Group) (r : Nat) (v : VReg) (m : W64) : (g.writeReg r v m).runPc = g.runPc := by
  unfold Group.writeReg; split <;> [rfl; (split <;> rfl)]
@[simp] theorem Group.writeReg_runIdx (g : Group) (r : Nat) (v : VReg) (m : W64) : (g.writeReg r v m).runIdx = g.runIdx := by
  unfold Group.writeReg; split <;> [rfl; (split <;> rfl)]
@[simp] theorem Group.writeReg_tag (g : Group) (r : Nat) (v : VReg) (m : W64) : (g.writeReg r v m).tag = g.tag := by
  unfold Group.writeReg; split <;> [rfl; (split <;> rfl)]
@[simp] theorem Group.writeReg_lastPc (g : Group) (r : Nat) (v : VReg) (m : W64) : (g.writeReg r v m).lastPc = g.lastPc := by
  unfold Group.writeReg; split <;> [rfl; (split <;> rfl)]
@[simp] theorem Group.writeReg_stat (g : Group) (r : Nat) (v : VReg) (m : W64) : (g.writeReg r v m).stat = g.stat := by
  unfold Group.writeReg; split <;> [rfl; (split <;> rfl)]
@[simp] theorem Group.writeReg_runEnd (g : Group) (r : Nat) (v : VReg) (m : W64) : (g.writeReg r v m).runEnd = g.runEnd := by
  unfold Group.writeReg; split <;> [rfl; (split <;> rfl)]
@[simp] theorem Group.writeReg_halt (g : Group) (r : Nat) (v : VReg) (m : W64) : (g.writeReg r v m).halt = g.halt := by
  unfold Group.writeReg; split <;> [rfl; (split <;> rfl)]
@[simp] theorem Group.writeReg_bound (g : Group) (r : Nat) (v : VReg) (m : W64) : (g.writeReg r v m).bound = g.bound := by
  unfold Group.writeReg; split <;> [rfl; (split <;> rfl)]
@[simp] theorem Group.writeReg_preemptReq (g : Group) (r : Nat) (v : VReg) (m : W64) : (g.writeReg r v m).preemptReq = g.preemptReq := by
  unfold Group.writeReg; split <;> [rfl; (split <;> rfl)]
@[simp] theorem Group.writeReg_pends (g : Group) (r : Nat) (v : VReg) (m : W64) : (g.writeReg r v m).pends = g.pends := by
  unfold Group.writeReg; split <;> [rfl; (split <;> rfl)]
@[simp] theorem Group.writeReg_fails (g : Group) (r : Nat) (v : VReg) (m : W64) : (g.writeReg r v m).fails = g.fails := by
  unfold Group.writeReg; split <;> [rfl; (split <;> rfl)]
@[simp] theorem Group.writeReg_yielded (g : Group) (r : Nat) (v : VReg) (m : W64) : (g.writeReg r v m).yielded = g.yielded := by
  unfold Group.writeReg; split <;> [rfl; (split <;> rfl)]
@[simp] theorem Group.writeReg_waited (g : Group) (r : Nat) (v : VReg) (m : W64) : (g.writeReg r v m).waited = g.waited := by
  unfold Group.writeReg; split <;> [rfl; (split <;> rfl)]
@[simp] theorem Group.writeReg_armed (g : Group) (r : Nat) (v : VReg) (m : W64) : (g.writeReg r v m).armed = g.armed := by
  unfold Group.writeReg; split <;> [rfl; (split <;> rfl)]
@[simp] theorem Group.writeReg_trap (g : Group) (r : Nat) (v : VReg) (m : W64) : (g.writeReg r v m).trap = g.trap := by
  unfold Group.writeReg; split <;> [rfl; (split <;> rfl)]
@[simp] theorem Group.writeReg_trapv (g : Group) (r : Nat) (v : VReg) (m : W64) : (g.writeReg r v m).trapv = g.trapv := by
  unfold Group.writeReg; split <;> [rfl; (split <;> rfl)]
@[simp] theorem Group.writeReg_prio (g : Group) (r : Nat) (v : VReg) (m : W64) : (g.writeReg r v m).prio = g.prio := by
  unfold Group.writeReg; split <;> [rfl; (split <;> rfl)]
@[simp] theorem Group.writeReg_readyTime (g : Group) (r : Nat) (v : VReg) (m : W64) : (g.writeReg r v m).readyTime = g.readyTime := by
  unfold Group.writeReg; split <;> [rfl; (split <;> rfl)]
@[simp] theorem Group.writeReg_pass (g : Group) (r : Nat) (v : VReg) (m : W64) : (g.writeReg r v m).pass = g.pass := by
  unfold Group.writeReg; split <;> [rfl; (split <;> rfl)]
@[simp] theorem Group.writeReg_promoted (g : Group) (r : Nat) (v : VReg) (m : W64) : (g.writeReg r v m).promoted = g.promoted := by
  unfold Group.writeReg; split <;> [rfl; (split <;> rfl)]
@[simp] theorem Group.writeReg_latch (g : Group) (r : Nat) (v : VReg) (m : W64) : (g.writeReg r v m).latch = g.latch := by
  unfold Group.writeReg; split <;> [rfl; (split <;> rfl)]
@[simp] theorem Group.writeReg_cycles (g : Group) (r : Nat) (v : VReg) (m : W64) : (g.writeReg r v m).cycles = g.cycles := by
  unfold Group.writeReg; split <;> [rfl; (split <;> rfl)]
@[simp] theorem Group.writeReg_fences (g : Group) (r : Nat) (v : VReg) (m : W64) : (g.writeReg r v m).fences = g.fences := by
  unfold Group.writeReg; split <;> [rfl; (split <;> rfl)]
@[simp] theorem Group.writeReg_haltTime (g : Group) (r : Nat) (v : VReg) (m : W64) : (g.writeReg r v m).haltTime = g.haltTime := by
  unfold Group.writeReg; split <;> [rfl; (split <;> rfl)]
@[simp] theorem Group.writeReg_spilled (g : Group) (r : Nat) (v : VReg) (m : W64) : (g.writeReg r v m).spilled = g.spilled := by
  unfold Group.writeReg; split <;> [rfl; (split <;> rfl)]
@[simp] theorem Group.setV_uid (g : Group) (f : Fld) (v : VReg) : (g.setV f v).uid = g.uid := by
  simp [Group.setV]
@[simp] theorem Group.setV_part (g : Group) (f : Fld) (v : VReg) : (g.setV f v).part = g.part := by
  simp [Group.setV]
@[simp] theorem Group.setV_ctx (g : Group) (f : Fld) (v : VReg) : (g.setV f v).ctx = g.ctx := by
  simp [Group.setV]
@[simp] theorem Group.setV_lid (g : Group) (f : Fld) (v : VReg) : (g.setV f v).lid = g.lid := by
  simp [Group.setV]
@[simp] theorem Group.setV_team (g : Group) (f : Fld) (v : VReg) : (g.setV f v).team = g.team := by
  simp [Group.setV]
@[simp] theorem Group.setV_tix (g : Group) (f : Fld) (v : VReg) : (g.setV f v).tix = g.tix := by
  simp [Group.setV]
@[simp] theorem Group.setV_gix (g : Group) (f : Fld) (v : VReg) : (g.setV f v).gix = g.gix := by
  simp [Group.setV]
@[simp] theorem Group.setV_core (g : Group) (f : Fld) (v : VReg) : (g.setV f v).core = g.core := by
  simp [Group.setV]
@[simp] theorem Group.setV_lane (g : Group) (f : Fld) (v : VReg) : (g.setV f v).lane = g.lane := by
  simp [Group.setV]
@[simp] theorem Group.setV_width (g : Group) (f : Fld) (v : VReg) : (g.setV f v).width = g.width := by
  simp [Group.setV]
@[simp] theorem Group.setV_alloc (g : Group) (f : Fld) (v : VReg) : (g.setV f v).alloc = g.alloc := by
  simp [Group.setV]
@[simp] theorem Group.setV_sregs (g : Group) (f : Fld) (v : VReg) : (g.setV f v).sregs = g.sregs := by
  simp [Group.setV]
@[simp] theorem Group.setV_exm (g : Group) (f : Fld) (v : VReg) : (g.setV f v).exm = g.exm := by
  simp [Group.setV]
@[simp] theorem Group.setV_lvm (g : Group) (f : Fld) (v : VReg) : (g.setV f v).lvm = g.lvm := by
  simp [Group.setV]
@[simp] theorem Group.setV_sm (g : Group) (f : Fld) (v : VReg) : (g.setV f v).sm = g.sm := by
  simp [Group.setV]
@[simp] theorem Group.setV_nteam (g : Group) (f : Fld) (v : VReg) : (g.setV f v).nteam = g.nteam := by
  simp [Group.setV]
@[simp] theorem Group.setV_wb (g : Group) (f : Fld) (v : VReg) : (g.setV f v).wb = g.wb := by
  simp [Group.setV]
@[simp] theorem Group.setV_rank (g : Group) (f : Fld) (v : VReg) : (g.setV f v).rank = g.rank := by
  simp [Group.setV]
@[simp] theorem Group.setV_nrank (g : Group) (f : Fld) (v : VReg) : (g.setV f v).nrank = g.nrank := by
  simp [Group.setV]
@[simp] theorem Group.setV_fpm (g : Group) (f : Fld) (v : VReg) : (g.setV f v).fpm = g.fpm := by
  simp [Group.setV]
@[simp] theorem Group.setV_fpf (g : Group) (f : Fld) (v : VReg) : (g.setV f v).fpf = g.fpf := by
  simp [Group.setV]
@[simp] theorem Group.setV_mq (g : Group) (f : Fld) (v : VReg) : (g.setV f v).mq = g.mq := by
  simp [Group.setV]
@[simp] theorem Group.setV_crole (g : Group) (f : Fld) (v : VReg) : (g.setV f v).crole = g.crole := by
  simp [Group.setV]
@[simp] theorem Group.setV_gateRole (g : Group) (f : Fld) (v : VReg) : (g.setV f v).gateRole = g.gateRole := by
  simp [Group.setV]
@[simp] theorem Group.setV_gen (g : Group) (f : Fld) (v : VReg) : (g.setV f v).gen = g.gen := by
  simp [Group.setV]
@[simp] theorem Group.setV_pc (g : Group) (f : Fld) (v : VReg) : (g.setV f v).pc = g.pc := by
  simp [Group.setV]
@[simp] theorem Group.setV_runPc (g : Group) (f : Fld) (v : VReg) : (g.setV f v).runPc = g.runPc := by
  simp [Group.setV]
@[simp] theorem Group.setV_runIdx (g : Group) (f : Fld) (v : VReg) : (g.setV f v).runIdx = g.runIdx := by
  simp [Group.setV]
@[simp] theorem Group.setV_tag (g : Group) (f : Fld) (v : VReg) : (g.setV f v).tag = g.tag := by
  simp [Group.setV]
@[simp] theorem Group.setV_lastPc (g : Group) (f : Fld) (v : VReg) : (g.setV f v).lastPc = g.lastPc := by
  simp [Group.setV]
@[simp] theorem Group.setV_stat (g : Group) (f : Fld) (v : VReg) : (g.setV f v).stat = g.stat := by
  simp [Group.setV]
@[simp] theorem Group.setV_runEnd (g : Group) (f : Fld) (v : VReg) : (g.setV f v).runEnd = g.runEnd := by
  simp [Group.setV]
@[simp] theorem Group.setV_halt (g : Group) (f : Fld) (v : VReg) : (g.setV f v).halt = g.halt := by
  simp [Group.setV]
@[simp] theorem Group.setV_bound (g : Group) (f : Fld) (v : VReg) : (g.setV f v).bound = g.bound := by
  simp [Group.setV]
@[simp] theorem Group.setV_preemptReq (g : Group) (f : Fld) (v : VReg) : (g.setV f v).preemptReq = g.preemptReq := by
  simp [Group.setV]
@[simp] theorem Group.setV_pends (g : Group) (f : Fld) (v : VReg) : (g.setV f v).pends = g.pends := by
  simp [Group.setV]
@[simp] theorem Group.setV_fails (g : Group) (f : Fld) (v : VReg) : (g.setV f v).fails = g.fails := by
  simp [Group.setV]
@[simp] theorem Group.setV_yielded (g : Group) (f : Fld) (v : VReg) : (g.setV f v).yielded = g.yielded := by
  simp [Group.setV]
@[simp] theorem Group.setV_waited (g : Group) (f : Fld) (v : VReg) : (g.setV f v).waited = g.waited := by
  simp [Group.setV]
@[simp] theorem Group.setV_armed (g : Group) (f : Fld) (v : VReg) : (g.setV f v).armed = g.armed := by
  simp [Group.setV]
@[simp] theorem Group.setV_trap (g : Group) (f : Fld) (v : VReg) : (g.setV f v).trap = g.trap := by
  simp [Group.setV]
@[simp] theorem Group.setV_trapv (g : Group) (f : Fld) (v : VReg) : (g.setV f v).trapv = g.trapv := by
  simp [Group.setV]
@[simp] theorem Group.setV_prio (g : Group) (f : Fld) (v : VReg) : (g.setV f v).prio = g.prio := by
  simp [Group.setV]
@[simp] theorem Group.setV_readyTime (g : Group) (f : Fld) (v : VReg) : (g.setV f v).readyTime = g.readyTime := by
  simp [Group.setV]
@[simp] theorem Group.setV_pass (g : Group) (f : Fld) (v : VReg) : (g.setV f v).pass = g.pass := by
  simp [Group.setV]
@[simp] theorem Group.setV_promoted (g : Group) (f : Fld) (v : VReg) : (g.setV f v).promoted = g.promoted := by
  simp [Group.setV]
@[simp] theorem Group.setV_latch (g : Group) (f : Fld) (v : VReg) : (g.setV f v).latch = g.latch := by
  simp [Group.setV]
@[simp] theorem Group.setV_cycles (g : Group) (f : Fld) (v : VReg) : (g.setV f v).cycles = g.cycles := by
  simp [Group.setV]
@[simp] theorem Group.setV_fences (g : Group) (f : Fld) (v : VReg) : (g.setV f v).fences = g.fences := by
  simp [Group.setV]
@[simp] theorem Group.setV_haltTime (g : Group) (f : Fld) (v : VReg) : (g.setV f v).haltTime = g.haltTime := by
  simp [Group.setV]
@[simp] theorem Group.setV_spilled (g : Group) (f : Fld) (v : VReg) : (g.setV f v).spilled = g.spilled := by
  simp [Group.setV]
@[simp] theorem Group.writeS_uid (g : Group) (f : Fld) (v : W64) : (g.writeS f v).uid = g.uid := by
  unfold Group.writeS; split <;> [rfl; rfl; rfl; rfl; rfl; rfl; rfl; rfl; rfl; (split <;> rfl)]
@[simp] theorem Group.writeS_part (g : Group) (f : Fld) (v : W64) : (g.writeS f v).part = g.part := by
  unfold Group.writeS; split <;> [rfl; rfl; rfl; rfl; rfl; rfl; rfl; rfl; rfl; (split <;> rfl)]
@[simp] theorem Group.writeS_ctx (g : Group) (f : Fld) (v : W64) : (g.writeS f v).ctx = g.ctx := by
  unfold Group.writeS; split <;> [rfl; rfl; rfl; rfl; rfl; rfl; rfl; rfl; rfl; (split <;> rfl)]
@[simp] theorem Group.writeS_lid (g : Group) (f : Fld) (v : W64) : (g.writeS f v).lid = g.lid := by
  unfold Group.writeS; split <;> [rfl; rfl; rfl; rfl; rfl; rfl; rfl; rfl; rfl; (split <;> rfl)]
@[simp] theorem Group.writeS_team (g : Group) (f : Fld) (v : W64) : (g.writeS f v).team = g.team := by
  unfold Group.writeS; split <;> [rfl; rfl; rfl; rfl; rfl; rfl; rfl; rfl; rfl; (split <;> rfl)]
@[simp] theorem Group.writeS_tix (g : Group) (f : Fld) (v : W64) : (g.writeS f v).tix = g.tix := by
  unfold Group.writeS; split <;> [rfl; rfl; rfl; rfl; rfl; rfl; rfl; rfl; rfl; (split <;> rfl)]
@[simp] theorem Group.writeS_gix (g : Group) (f : Fld) (v : W64) : (g.writeS f v).gix = g.gix := by
  unfold Group.writeS; split <;> [rfl; rfl; rfl; rfl; rfl; rfl; rfl; rfl; rfl; (split <;> rfl)]
@[simp] theorem Group.writeS_core (g : Group) (f : Fld) (v : W64) : (g.writeS f v).core = g.core := by
  unfold Group.writeS; split <;> [rfl; rfl; rfl; rfl; rfl; rfl; rfl; rfl; rfl; (split <;> rfl)]
@[simp] theorem Group.writeS_lane (g : Group) (f : Fld) (v : W64) : (g.writeS f v).lane = g.lane := by
  unfold Group.writeS; split <;> [rfl; rfl; rfl; rfl; rfl; rfl; rfl; rfl; rfl; (split <;> rfl)]
@[simp] theorem Group.writeS_width (g : Group) (f : Fld) (v : W64) : (g.writeS f v).width = g.width := by
  unfold Group.writeS; split <;> [rfl; rfl; rfl; rfl; rfl; rfl; rfl; rfl; rfl; (split <;> rfl)]
@[simp] theorem Group.writeS_alloc (g : Group) (f : Fld) (v : W64) : (g.writeS f v).alloc = g.alloc := by
  unfold Group.writeS; split <;> [rfl; rfl; rfl; rfl; rfl; rfl; rfl; rfl; rfl; (split <;> rfl)]
@[simp] theorem Group.writeS_nteam (g : Group) (f : Fld) (v : W64) : (g.writeS f v).nteam = g.nteam := by
  unfold Group.writeS; split <;> [rfl; rfl; rfl; rfl; rfl; rfl; rfl; rfl; rfl; (split <;> rfl)]
@[simp] theorem Group.writeS_wb (g : Group) (f : Fld) (v : W64) : (g.writeS f v).wb = g.wb := by
  unfold Group.writeS; split <;> [rfl; rfl; rfl; rfl; rfl; rfl; rfl; rfl; rfl; (split <;> rfl)]
@[simp] theorem Group.writeS_rank (g : Group) (f : Fld) (v : W64) : (g.writeS f v).rank = g.rank := by
  unfold Group.writeS; split <;> [rfl; rfl; rfl; rfl; rfl; rfl; rfl; rfl; rfl; (split <;> rfl)]
@[simp] theorem Group.writeS_nrank (g : Group) (f : Fld) (v : W64) : (g.writeS f v).nrank = g.nrank := by
  unfold Group.writeS; split <;> [rfl; rfl; rfl; rfl; rfl; rfl; rfl; rfl; rfl; (split <;> rfl)]
@[simp] theorem Group.writeS_crole (g : Group) (f : Fld) (v : W64) : (g.writeS f v).crole = g.crole := by
  unfold Group.writeS; split <;> [rfl; rfl; rfl; rfl; rfl; rfl; rfl; rfl; rfl; (split <;> rfl)]
@[simp] theorem Group.writeS_gateRole (g : Group) (f : Fld) (v : W64) : (g.writeS f v).gateRole = g.gateRole := by
  unfold Group.writeS; split <;> [rfl; rfl; rfl; rfl; rfl; rfl; rfl; rfl; rfl; (split <;> rfl)]
@[simp] theorem Group.writeS_gen (g : Group) (f : Fld) (v : W64) : (g.writeS f v).gen = g.gen := by
  unfold Group.writeS; split <;> [rfl; rfl; rfl; rfl; rfl; rfl; rfl; rfl; rfl; (split <;> rfl)]
@[simp] theorem Group.writeS_pc (g : Group) (f : Fld) (v : W64) : (g.writeS f v).pc = g.pc := by
  unfold Group.writeS; split <;> [rfl; rfl; rfl; rfl; rfl; rfl; rfl; rfl; rfl; (split <;> rfl)]
@[simp] theorem Group.writeS_runPc (g : Group) (f : Fld) (v : W64) : (g.writeS f v).runPc = g.runPc := by
  unfold Group.writeS; split <;> [rfl; rfl; rfl; rfl; rfl; rfl; rfl; rfl; rfl; (split <;> rfl)]
@[simp] theorem Group.writeS_runIdx (g : Group) (f : Fld) (v : W64) : (g.writeS f v).runIdx = g.runIdx := by
  unfold Group.writeS; split <;> [rfl; rfl; rfl; rfl; rfl; rfl; rfl; rfl; rfl; (split <;> rfl)]
@[simp] theorem Group.writeS_tag (g : Group) (f : Fld) (v : W64) : (g.writeS f v).tag = g.tag := by
  unfold Group.writeS; split <;> [rfl; rfl; rfl; rfl; rfl; rfl; rfl; rfl; rfl; (split <;> rfl)]
@[simp] theorem Group.writeS_lastPc (g : Group) (f : Fld) (v : W64) : (g.writeS f v).lastPc = g.lastPc := by
  unfold Group.writeS; split <;> [rfl; rfl; rfl; rfl; rfl; rfl; rfl; rfl; rfl; (split <;> rfl)]
@[simp] theorem Group.writeS_stat (g : Group) (f : Fld) (v : W64) : (g.writeS f v).stat = g.stat := by
  unfold Group.writeS; split <;> [rfl; rfl; rfl; rfl; rfl; rfl; rfl; rfl; rfl; (split <;> rfl)]
@[simp] theorem Group.writeS_runEnd (g : Group) (f : Fld) (v : W64) : (g.writeS f v).runEnd = g.runEnd := by
  unfold Group.writeS; split <;> [rfl; rfl; rfl; rfl; rfl; rfl; rfl; rfl; rfl; (split <;> rfl)]
@[simp] theorem Group.writeS_halt (g : Group) (f : Fld) (v : W64) : (g.writeS f v).halt = g.halt := by
  unfold Group.writeS; split <;> [rfl; rfl; rfl; rfl; rfl; rfl; rfl; rfl; rfl; (split <;> rfl)]
@[simp] theorem Group.writeS_bound (g : Group) (f : Fld) (v : W64) : (g.writeS f v).bound = g.bound := by
  unfold Group.writeS; split <;> [rfl; rfl; rfl; rfl; rfl; rfl; rfl; rfl; rfl; (split <;> rfl)]
@[simp] theorem Group.writeS_preemptReq (g : Group) (f : Fld) (v : W64) : (g.writeS f v).preemptReq = g.preemptReq := by
  unfold Group.writeS; split <;> [rfl; rfl; rfl; rfl; rfl; rfl; rfl; rfl; rfl; (split <;> rfl)]
@[simp] theorem Group.writeS_pends (g : Group) (f : Fld) (v : W64) : (g.writeS f v).pends = g.pends := by
  unfold Group.writeS; split <;> [rfl; rfl; rfl; rfl; rfl; rfl; rfl; rfl; rfl; (split <;> rfl)]
@[simp] theorem Group.writeS_fails (g : Group) (f : Fld) (v : W64) : (g.writeS f v).fails = g.fails := by
  unfold Group.writeS; split <;> [rfl; rfl; rfl; rfl; rfl; rfl; rfl; rfl; rfl; (split <;> rfl)]
@[simp] theorem Group.writeS_yielded (g : Group) (f : Fld) (v : W64) : (g.writeS f v).yielded = g.yielded := by
  unfold Group.writeS; split <;> [rfl; rfl; rfl; rfl; rfl; rfl; rfl; rfl; rfl; (split <;> rfl)]
@[simp] theorem Group.writeS_waited (g : Group) (f : Fld) (v : W64) : (g.writeS f v).waited = g.waited := by
  unfold Group.writeS; split <;> [rfl; rfl; rfl; rfl; rfl; rfl; rfl; rfl; rfl; (split <;> rfl)]
@[simp] theorem Group.writeS_trapv (g : Group) (f : Fld) (v : W64) : (g.writeS f v).trapv = g.trapv := by
  unfold Group.writeS; split <;> [rfl; rfl; rfl; rfl; rfl; rfl; rfl; rfl; rfl; (split <;> rfl)]
@[simp] theorem Group.writeS_prio (g : Group) (f : Fld) (v : W64) : (g.writeS f v).prio = g.prio := by
  unfold Group.writeS; split <;> [rfl; rfl; rfl; rfl; rfl; rfl; rfl; rfl; rfl; (split <;> rfl)]
@[simp] theorem Group.writeS_readyTime (g : Group) (f : Fld) (v : W64) : (g.writeS f v).readyTime = g.readyTime := by
  unfold Group.writeS; split <;> [rfl; rfl; rfl; rfl; rfl; rfl; rfl; rfl; rfl; (split <;> rfl)]
@[simp] theorem Group.writeS_pass (g : Group) (f : Fld) (v : W64) : (g.writeS f v).pass = g.pass := by
  unfold Group.writeS; split <;> [rfl; rfl; rfl; rfl; rfl; rfl; rfl; rfl; rfl; (split <;> rfl)]
@[simp] theorem Group.writeS_promoted (g : Group) (f : Fld) (v : W64) : (g.writeS f v).promoted = g.promoted := by
  unfold Group.writeS; split <;> [rfl; rfl; rfl; rfl; rfl; rfl; rfl; rfl; rfl; (split <;> rfl)]
@[simp] theorem Group.writeS_latch (g : Group) (f : Fld) (v : W64) : (g.writeS f v).latch = g.latch := by
  unfold Group.writeS; split <;> [rfl; rfl; rfl; rfl; rfl; rfl; rfl; rfl; rfl; (split <;> rfl)]
@[simp] theorem Group.writeS_cycles (g : Group) (f : Fld) (v : W64) : (g.writeS f v).cycles = g.cycles := by
  unfold Group.writeS; split <;> [rfl; rfl; rfl; rfl; rfl; rfl; rfl; rfl; rfl; (split <;> rfl)]
@[simp] theorem Group.writeS_fences (g : Group) (f : Fld) (v : W64) : (g.writeS f v).fences = g.fences := by
  unfold Group.writeS; split <;> [rfl; rfl; rfl; rfl; rfl; rfl; rfl; rfl; rfl; (split <;> rfl)]
@[simp] theorem Group.writeS_haltTime (g : Group) (f : Fld) (v : W64) : (g.writeS f v).haltTime = g.haltTime := by
  unfold Group.writeS; split <;> [rfl; rfl; rfl; rfl; rfl; rfl; rfl; rfl; rfl; (split <;> rfl)]
@[simp] theorem Group.writeS_spilled (g : Group) (f : Fld) (v : W64) : (g.writeS f v).spilled = g.spilled := by
  unfold Group.writeS; split <;> [rfl; rfl; rfl; rfl; rfl; rfl; rfl; rfl; rfl; (split <;> rfl)]
@[simp] theorem Group.writeS_vregs (g : Group) (f : Fld) (v : W64) : (g.writeS f v).vregs = g.vregs := by
  unfold Group.writeS; split <;> [rfl; rfl; rfl; rfl; rfl; rfl; rfl; rfl; rfl; (split <;> rfl)]
@[simp] theorem Group.writeS_poison (g : Group) (f : Fld) (v : W64) : (g.writeS f v).poison = g.poison := by
  unfold Group.writeS; split <;> [rfl; rfl; rfl; rfl; rfl; rfl; rfl; rfl; rfl; (split <;> rfl)]

/-! ## Lookups after an update -/

/-- A group that is there is found after it is replaced. -/
theorem State.group?_setGroup_self (s : State) (g h : Group) (hg : s.group? g.uid = some h) :
    (s.setGroup g).group? g.uid = some g := by
  unfold State.group? State.setGroup at *
  simp only [List.find?_map]
  have : (List.find? ((fun h => h.uid == g.uid) ∘ fun h => if h.uid == g.uid then g else h) s.groups)
      = List.find? (fun h => h.uid == g.uid) s.groups := by
    congr 1; funext x; simp only [Function.comp]
    by_cases hx : x.uid = g.uid <;> simp [hx]
  rw [this, hg]
  have hu := List.find?_some hg
  simp only [Option.map_some, hu, if_true]

/-- Replacing a group leaves every other one as it was. -/
theorem State.group?_setGroup_other (s : State) (g : Group) (u : Nat) (hu : u ≠ g.uid) :
    (s.setGroup g).group? u = s.group? u := by
  unfold State.group? State.setGroup
  simp only [List.find?_map]
  have : (List.find? ((fun h => h.uid == u) ∘ fun h => if h.uid == g.uid then g else h) s.groups)
      = List.find? (fun h => h.uid == u) s.groups := by
    congr 1; funext x; simp only [Function.comp]
    by_cases hx : x.uid = g.uid
    · simp [hx]
    · simp [hx]
  rw [this]
  cases hf : List.find? (fun h => h.uid == u) s.groups with
  | none => rfl
  | some x =>
    have hx : x.uid = u := by simpa using List.find?_some hf
    have : x.uid ≠ g.uid := hx ▸ hu
    simp [this]

/-- The number of groups stays when one is replaced. -/
@[simp] theorem State.setGroup_length (s : State) (g : Group) : (s.setGroup g).groups.length = s.groups.length := by
  simp [State.setGroup]

/-- A core that is replaced is the new one. -/
theorem State.core_setCore_self (s : State) (c : Core) : (s.setCore c).core c.id = c := by
  unfold State.core State.setCore
  by_cases h : s.cores.any fun d => d.id == c.id
  · simp only [h, if_true, List.find?_map]
    have h1 : (List.find? ((fun d => d.id == c.id) ∘ fun d => if d.id == c.id then c else d) s.cores)
        = List.find? (fun d => d.id == c.id) s.cores := by
      congr 1; funext x; simp only [Function.comp]
      by_cases hx : x.id = c.id <;> simp [hx]
    rw [h1]
    cases hf : List.find? (fun d => d.id == c.id) s.cores with
    | none =>
      rw [List.any_eq_true] at h
      obtain ⟨x, hx, he⟩ := h
      exact absurd he (by simpa using List.find?_eq_none.mp hf x hx)
    | some x =>
      have hx : x.id = c.id := by simpa using List.find?_some hf
      simp [hx]
  · have h0 : List.find? (fun d => d.id == c.id) s.cores = none := by
      rw [List.find?_eq_none]; intro x hx he
      exact h (List.any_eq_true.mpr ⟨x, hx, he⟩)
    simp only [h]
    simp [List.find?_append, h0]

/-- Replacing a core leaves every other one as it was. -/
theorem State.core_setCore_other (s : State) (c : Core) (n : Nat) (hn : n ≠ c.id) : (s.setCore c).core n = s.core n := by
  unfold State.core State.setCore
  by_cases h : s.cores.any fun d => d.id == c.id
  · simp only [h, if_true, List.find?_map]
    have h1 : (List.find? ((fun d => d.id == n) ∘ fun d => if d.id == c.id then c else d) s.cores)
        = List.find? (fun d => d.id == n) s.cores := by
      congr 1; funext x; simp only [Function.comp]
      by_cases hx : x.id = c.id
      · simp [hx]
      · simp [hx]
    rw [h1]
    cases hf : List.find? (fun d => d.id == n) s.cores with
    | none => rfl
    | some x =>
      have hx : x.id = n := by simpa using List.find?_some hf
      have : x.id ≠ c.id := hx ▸ hn
      simp [this]
  · have h2 : c.id ≠ n := fun h => hn h.symm
    simp only [h]
    simp [List.find?_append, h2]

/-- A partition that is there is found after it is replaced. -/
theorem State.part?_setPart_self (s : State) (p q : Partition) (hp : s.part? p.num = some q) :
    (s.setPart p).part? p.num = some p := by
  unfold State.part? State.setPart at *
  simp only [List.find?_map]
  have : (List.find? ((fun h => h.num == p.num) ∘ fun h => if h.num == p.num then p else h) s.parts)
      = List.find? (fun h => h.num == p.num) s.parts := by
    congr 1; funext x; simp only [Function.comp]
    by_cases hx : x.num = p.num <;> simp [hx]
  rw [this, hp]
  have hu := List.find?_some hp
  simp only [Option.map_some, hu, if_true]

/-- A team that is there is found after it is replaced. -/
theorem State.team?_setTeam_self (s : State) (t u : Team) (ht : s.team? t.uid = some u) :
    (s.setTeam t).team? t.uid = some t := by
  unfold State.team? State.setTeam at *
  simp only [List.find?_map]
  have : (List.find? ((fun h => h.uid == t.uid) ∘ fun h => if h.uid == t.uid then t else h) s.teams)
      = List.find? (fun h => h.uid == t.uid) s.teams := by
    congr 1; funext x; simp only [Function.comp]
    by_cases hx : x.uid = t.uid <;> simp [hx]
  rw [this, ht]
  have hu := List.find?_some ht
  simp only [Option.map_some, hu, if_true]

end Sys2Proof.Machine
end

