-- ==== Sys2Proof/Laws/Memory.lean ====
section
/-!
SUPPORT. The canonical form of memory: every memory operation keeps it, the reset state has it; and what a read finds after
a write.
-/

namespace Sys2Proof.Machine

set_option Elab.async false

open Sys2Proof

/-! ## The canonical form -/

@[simp] theorem Memory.wf_nil : Memory.wf [] = true := rfl

/-- A memory is canonical exactly when its first cell is no zero, lies below every other, and the rest is canonical. -/
theorem Memory.wf_cons (c : Host.Cell) (m : Memory) :
    Memory.wf (c :: m) = true ↔ c.2 ≠ unlistedByte ∧ (∀ d ∈ m, c.1 < d.1) ∧ Memory.wf m = true := by
  induction m generalizing c with
  | nil => simp [Memory.wf]
  | cons d m ih =>
    have h := ih d
    constructor
    · intro hw
      simp only [Memory.wf, Bool.and_eq_true, bne_iff_ne, decide_eq_true_eq] at hw
      obtain ⟨⟨h0, h1⟩, h2⟩ := hw
      refine ⟨h0, ?_, h2⟩
      intro e he
      rcases List.mem_cons.mp he with rfl | he
      · exact h1
      · exact lt_trans h1 ((h.mp h2).2.1 e he)
    · rintro ⟨h0, h1, h2⟩
      simp only [Memory.wf, Bool.and_eq_true, bne_iff_ne, decide_eq_true_eq]
      exact ⟨⟨h0, h1 d (List.mem_cons_self ..)⟩, h2⟩

/-- A cell of a memory after a write is one from before it, or the written one. -/
theorem Memory.mem_write (m : Memory) (a : Nat) (b : Byte) (c : Host.Cell) (h : c ∈ m.write a b) : c ∈ m ∨ c = (a, b) := by
  induction m with
  | nil =>
    unfold Memory.write at h
    split at h <;> simp_all
  | cons d m ih =>
    unfold Memory.write at h
    split at h
    · split at h
      · exact .inl h
      · rcases List.mem_cons.mp h with rfl | h
        · exact .inr rfl
        · exact .inl h
    · split at h
      · split at h
        · exact .inl (List.mem_cons_of_mem _ h)
        · rcases List.mem_cons.mp h with rfl | h
          · exact .inr rfl
          · exact .inl (List.mem_cons_of_mem _ h)
      · rcases List.mem_cons.mp h with rfl | h
        · exact .inl (List.mem_cons_self ..)
        · rcases ih h with h | h
          · exact .inl (List.mem_cons_of_mem _ h)
          · exact .inr h

/-- A write of one byte keeps the canonical form. -/
theorem Memory.wf_write (m : Memory) (a : Nat) (b : Byte) (h : m.wf = true) : (m.write a b).wf = true := by
  induction m with
  | nil => unfold Memory.write; split <;> simp_all [Memory.wf_cons]
  | cons c m ih =>
    obtain ⟨h0, h1, h2⟩ := (Memory.wf_cons c m).mp h
    unfold Memory.write
    split
    · rename_i hlt
      split
      · exact h
      · rename_i hb
        refine (Memory.wf_cons _ _).mpr ⟨hb, ?_, h⟩
        intro d hd
        rcases List.mem_cons.mp hd with rfl | hd
        · exact hlt
        · exact lt_trans hlt (h1 d hd)
    · split
      · rename_i he
        split
        · exact h2
        · rename_i hb
          exact (Memory.wf_cons _ _).mpr ⟨hb, fun d hd => he ▸ h1 d hd, h2⟩
      · rename_i hn he
        refine (Memory.wf_cons _ _).mpr ⟨h0, ?_, ih h2⟩
        intro d hd
        rcases Memory.mem_write m a b d hd with hd | rfl
        · exact h1 d hd
        · exact lt_of_le_of_ne (Nat.le_of_not_lt hn) he

/-- A write of several bytes keeps the canonical form. -/
theorem Memory.wf_writeN (m : Memory) (a : Nat) (bs : List Byte) (h : m.wf = true) : (m.writeN a bs).wf = true := by
  induction bs generalizing m a with
  | nil => exact h
  | cons b bs ih => exact ih _ _ (Memory.wf_write m a b h)

/-- Keeping only some cells keeps the canonical form. -/
theorem Memory.wf_filter (m : Memory) (p : Host.Cell → Bool) (h : m.wf = true) : Memory.wf (m.filter p) = true := by
  induction m with
  | nil => rfl
  | cons c m ih =>
    obtain ⟨h0, h1, h2⟩ := (Memory.wf_cons c m).mp h
    rw [List.filter_cons]
    split
    · exact (Memory.wf_cons _ _).mpr ⟨h0, fun d hd => h1 d (List.mem_of_mem_filter hd), ih h2⟩
    · exact ih h2

/-- Clearing a range keeps the canonical form. -/
theorem Memory.wf_clear (m : Memory) (a n : Nat) (h : m.wf = true) : (m.clear a n).wf = true := Memory.wf_filter m _ h

/-- A write at a place keeps both memories canonical. -/
theorem State.memOk_writeAt (s : State) (p : Place) (bs : List Byte) (h : s.memOk = true) : (s.writeAt p bs).memOk = true := by
  have lines : ∀ (ls : List Nat) (s : State) (slot w a n : Nat), (s.writeLines slot w a n ls).slices = s.slices ∧
      (s.writeLines slot w a n ls).pkg = s.pkg := by
    intro ls
    induction ls with
    | nil => intros; exact ⟨rfl, rfl⟩
    | cons l ls ih => intro s slot w a n; exact ⟨(ih _ slot w a n).1, (ih _ slot w a n).2⟩
  simp only [State.memOk, Bool.and_eq_true] at h ⊢
  cases p with
  | hbm dev slot w =>
    obtain ⟨hs, hp⟩ := lines (linesOf dev bs.length) s slot w dev bs.length
    refine ⟨⟨Memory.wf_writeN _ _ _ h.1.1, ?_⟩, ?_⟩
    · show Memory.wf (State.writeLines s slot w dev bs.length _).slices = true
      rw [hs]; exact h.1.2
    · show (State.writeLines s slot w dev bs.length _).pkg.savedOk = true
      rw [hp]; exact h.2
  | slice a => exact ⟨⟨h.1.1, Memory.wf_writeN _ _ _ h.1.2⟩, h.2⟩

/-- A write of the control core or of Loermey keeps both memories canonical. -/
theorem State.memOk_writePart (s : State) (p : Partition) (a : Nat) (bs : List Byte) (h : s.memOk = true) :
    (s.writePart p a bs).memOk = true := State.memOk_writeAt s _ bs h

/-- Clearing a slice range keeps both memories canonical. -/
theorem State.memOk_clearSlices (s : State) (a n : Nat) (h : s.memOk = true) : (s.clearSlices a n).memOk = true := by
  simp only [State.memOk, Bool.and_eq_true] at h ⊢
  exact ⟨⟨h.1.1, Memory.wf_clear _ _ _ h.1.2⟩, h.2⟩

/-- The writes of a group that are performed later keep both memories canonical when they are. -/
theorem State.memOk_performLate (s : State) (uid : Nat) (h : s.memOk = true) : (s.performLate uid).memOk = true := by
  have all : ∀ (ls : List LateStore) (s : State), s.memOk = true →
      (ls.foldl (fun s l => s.writeAt l.place l.bytes) s).memOk = true := by
    intro ls
    induction ls with
    | nil => intro s h; exact h
    | cons l ls ih => intro s h; exact ih _ (State.memOk_writeAt s _ _ h)
  unfold State.performLate
  split
  · exact all _ s h
  · exact h

/-- One of them does. -/
theorem State.memOk_performNth (s : State) (uid n : Nat) (h : s.memOk = true) : (s.performNth uid n).memOk = true := by
  unfold State.performNth
  dsimp only
  split
  · exact h
  · split
    · exact h
    · exact State.memOk_writeAt s _ _ h

/-- Saving the state for retain-sleep keeps the memories canonical, the saved slices among them (R327). -/
theorem State.memOk_sleepImage (s : State) (key : BitVec 256) (h : s.memOk = true) :
    State.memOk { s with pkg := { s.pkg with sleepImage := some (s.sleepImage key) } } = true := by
  simp only [State.memOk, Bool.and_eq_true] at h ⊢
  exact ⟨h.1, h.1.2⟩

/-- Restoring the saved state does (R328). -/
theorem State.memOk_awakened (s : State) (x : SleepImage) (h : s.memOk = true) (hx : s.pkg.sleepImage = some x) :
    (s.awakened x).memOk = true := by
  simp only [State.memOk, Bool.and_eq_true, Package.savedOk, hx] at h ⊢
  exact ⟨⟨h.1.1, h.2⟩, rfl⟩

/-- The reset state's memories are canonical. -/
theorem State.memOk_reset : State.reset.memOk = true := rfl

/-! ## Reads after writes -/

/-- No cell of a canonical memory lies below its first one, so an address below all of them reads as unlisted. -/
theorem Memory.read_of_lt (m : Memory) (a : Nat) (h : ∀ d ∈ m, a < d.1) : m.read a = unlistedByte := by
  induction m with
  | nil => rfl
  | cons c m ih =>
    have h1 := h c (List.mem_cons_self ..)
    unfold Memory.read
    rw [if_neg (by omega)]
    exact ih fun d hd => h d (List.mem_cons_of_mem _ hd)

/-- A byte that is written is read. -/
theorem Memory.read_write_self (m : Memory) (a : Nat) (b : Byte) (h : m.wf = true) : (m.write a b).read a = b := by
  induction m with
  | nil => unfold Memory.write; split <;> simp_all [Memory.read]
  | cons c m ih =>
    obtain ⟨h0, h1, h2⟩ := (Memory.wf_cons c m).mp h
    unfold Memory.write
    split
    · rename_i hlt
      split
      · rename_i hb
        rw [hb]
        refine Memory.read_of_lt _ _ ?_
        intro d hd
        rcases List.mem_cons.mp hd with rfl | hd
        · exact hlt
        · exact lt_trans hlt (h1 d hd)
      · simp [Memory.read]
    · split
      · rename_i he
        split
        · rename_i hb
          rw [hb]
          exact Memory.read_of_lt _ _ fun d hd => he ▸ h1 d hd
        · simp [Memory.read]
      · rename_i he
        unfold Memory.read
        rw [if_neg he]
        exact ih h2

/-- A write of one byte leaves every other one as it was. -/
theorem Memory.read_write_other (m : Memory) (a x : Nat) (b : Byte) (hx : x ≠ a) : (m.write a b).read x = m.read x := by
  induction m with
  | nil => unfold Memory.write; split <;> simp_all [Memory.read, eq_comm]
  | cons c m ih =>
    unfold Memory.write
    split
    · split
      · rfl
      · simp [Memory.read, Ne.symm hx]
    · split
      · rename_i he
        split
        · rw [Memory.read, if_neg (by omega)]
        · simp [Memory.read, Ne.symm hx, he]
      · unfold Memory.read
        rw [ih]

/-- A write of several bytes leaves every address outside them as it was. -/
theorem Memory.read_writeN_other (m : Memory) (a x : Nat) (bs : List Byte) (hx : x < a ∨ a + bs.length ≤ x) :
    (m.writeN a bs).read x = m.read x := by
  induction bs generalizing m a with
  | nil => rfl
  | cons b bs ih =>
    simp only [List.length_cons] at hx
    show (Memory.writeN (m.write a b) (a + 1) bs).read x = _
    rw [ih _ _ (by omega), Memory.read_write_other _ _ _ _ (by omega)]

/-- Clearing leaves every address outside the range as it was. -/
theorem Memory.read_clear_other (m : Memory) (a n x : Nat) (hx : x < a ∨ a + n ≤ x) : (m.clear a n).read x = m.read x := by
  induction m with
  | nil => rfl
  | cons c m ih =>
    unfold Memory.clear at *
    rw [List.filter_cons]
    split
    · simp [Memory.read, ih]
    · rename_i hf
      rw [ih, Memory.read, if_neg]
      intro he
      simp at hf
      omega

end Sys2Proof.Machine
end

