-- ==== Sys2Proof/Laws/Ops.lean ====
section
/-!
SUPPORT. What the shared operations can do, said once: the issue of an instruction, its retirement, an immediate trap, the
operand forms, taking an exception, and what a step is.
-/

namespace Sys2Proof.Machine

set_option Elab.async false

open Sys2Proof

/-! ## The issue of an instruction -/

/-- An instruction of a group whose operands are legal and read nothing poisoned retires with what its body gives. -/
theorem issue_of (i : Instr) (s : State) (g : Group) (body : Group → State → Done) (hc : s.curGroup = some g)
    (ho : g.operandsOk i = true) (hp : g.consumes i = none) : issue i s body = .next (retire i s g (body g s)) := by
  simp [issue, hc, ho, hp]

/-- An illegal operand is an immediate trap, whatever the body. -/
theorem issue_illegal (i : Instr) (s : State) (g : Group) (body : Group → State → Done) (hc : s.curGroup = some g)
    (ho : g.operandsOk i = false) : issue i s body = .next (s.immediate g (instrBytes i) .illegalOperand 0) := by
  simp [issue, hc, ho]

/-- A poisoned source is consumed, and the body has no effect. -/
theorem issue_poisoned (i : Instr) (s : State) (g : Group) (r : Nat) (body : Group → State → Done) (hc : s.curGroup = some g)
    (ho : g.operandsOk i = true) (hp : g.consumes i = some r) : issue i s body = .next (s.consumeReg g) := by
  simp [issue, hc, ho, hp]

/-- Everything the issue of an instruction can do. -/
theorem issue_cases (i : Instr) (s : State) (body : Group → State → Done) :
    (s.curGroup = none ∧ issue i s body = .fault .noIssuingGroup) ∨
    ∃ g, s.curGroup = some g ∧
      ((g.operandsOk i = false ∧ issue i s body = .next (s.immediate g (instrBytes i) .illegalOperand 0)) ∨
       (g.operandsOk i = true ∧ (∃ r, g.consumes i = some r) ∧ issue i s body = .next (s.consumeReg g)) ∨
       (g.operandsOk i = true ∧ g.consumes i = none ∧ issue i s body = .next (retire i s g (body g s)))) := by
  cases hc : s.curGroup with
  | none => exact .inl ⟨rfl, by simp [issue, hc]⟩
  | some g =>
    refine .inr ⟨g, rfl, ?_⟩
    cases ho : g.operandsOk i
    · exact .inl ⟨rfl, issue_illegal i s g body hc ho⟩
    · cases hp : g.consumes i with
      | none => exact .inr (.inr ⟨rfl, rfl, issue_of i s g body hc ho hp⟩)
      | some r => exact .inr (.inl ⟨rfl, ⟨r, rfl⟩, issue_poisoned i s g r body hc ho hp⟩)

/-- The issue of an instruction refuses nothing. -/
theorem issue_not_refused (i : Instr) (s : State) (body : Group → State → Done) (r : Refusal) :
    issue i s body ≠ .refused r := by
  rcases issue_cases i s body with ⟨-, h⟩ | ⟨g, -, ⟨-, h⟩ | ⟨-, -, h⟩ | ⟨-, -, h⟩⟩ <;> rw [h] <;> simp

/-! ## Retirement -/

/-- A group after an instruction, field by field. -/
theorem Group.past_eq (g : Group) (pc : W64) (cost : Nat) (how : Option RunEnd) : g.past pc cost how = { g with
    lastPc := g.pc, pc := pc, runIdx := g.runIdx + 1, cycles := g.cycles + cost
    stat := if how.isSome then .endRun else g.stat
    runEnd := how.getD g.runEnd } := by
  cases how <;> simp [Group.past]

/-- The run ends by itself exactly with the E bit, or after 24 instructions (R13). -/
theorem Group.runFull_eq (g : Group) (i : Instr) :
    g.runFull i = if i.ebit = true ∨ 23 ≤ g.runIdx then some .fall else none := by
  unfold Group.runFull
  cases i.ebit <;> simp

@[simp] theorem State.spend_groups (s : State) (core cost : Nat) : (s.spend core cost).groups = s.groups := rfl
@[simp] theorem State.spend_hbm (s : State) (core cost : Nat) : (s.spend core cost).hbm = s.hbm := rfl
@[simp] theorem State.spend_slices (s : State) (core cost : Nat) : (s.spend core cost).slices = s.slices := rfl
@[simp] theorem State.spend_parts (s : State) (core cost : Nat) : (s.spend core cost).parts = s.parts := rfl
@[simp] theorem State.spend_teams (s : State) (core cost : Nat) : (s.spend core cost).teams = s.teams := rfl
@[simp] theorem State.spend_pkg (s : State) (core cost : Nat) : (s.spend core cost).pkg = s.pkg := rfl

/-- The core of a number has that number. -/
@[simp] theorem State.core_id (s : State) (n : Nat) : (s.core n).id = n := by
  unfold State.core
  cases hf : s.cores.find? fun c => c.id == n with
  | none => rfl
  | some c => simpa using List.find?_some hf

/-- Cycles spent count on their own core. -/
theorem State.core_spend_self (s : State) (core cost : Nat) :
    (s.spend core cost).core core = { s.core core with cyc := (s.core core).cyc + BitVec.ofNat 64 cost } := by
  have h := State.core_setCore_self s { s.core core with cyc := (s.core core).cyc + BitVec.ofNat 64 cost }
  rwa [show ({ s.core core with cyc := (s.core core).cyc + BitVec.ofNat 64 cost } : Core).id = core from
    State.core_id s core] at h

/-- Cycles spent leave every other core as it was. -/
theorem State.core_spend_other (s : State) (core cost n : Nat) (h : n ≠ core) : (s.spend core cost).core n = s.core n :=
  State.core_setCore_other s _ n (by simpa using h)

/-- An immediate trap changes, of the state, only the group and its core's cycle count. -/
theorem State.immediate_frame (s : State) (g : Group) (len : W64) (c : Cause) (d : W32) :
    let t := s.immediate g len c d
    t.hbm = s.hbm ∧ t.slices = s.slices ∧ t.parts = s.parts ∧ t.teams = s.teams ∧ t.pkg = s.pkg ∧ t.fabric = s.fabric := by
  exact ⟨rfl, rfl, rfl, rfl, rfl, rfl⟩

/-- Retirement of an instruction whose body went on. -/
theorem retire_seq (i : Instr) (s0 s : State) (g0 g : Group) (cost : Nat) :
    retire i s0 g0 (.seq s g cost) = (s.setGroup (g.past (g.pc + instrBytes i) cost (g.runFull i))).spend g.core cost := rfl

/-- Retirement of a taken branch. -/
theorem retire_jump (i : Instr) (s0 s : State) (g0 g : Group) (cost : Nat) (t : W64) :
    retire i s0 g0 (.jump s g cost t) = (s.setGroup (g.past t cost (some .fall))).spend g.core cost := rfl

/-! ## Operand forms -/

/-- A scalar instruction that issues writes its value, at one cycle. -/
theorem scalarInstr_of (i : Instr) (s : State) (g : Group) (d : Fld) (val : (Fld → W64) → W64) (hc : s.curGroup = some g)
    (ho : g.operandsOk i = true) (hp : g.consumes i = none) :
    scalarInstr i s d val = .next (retire i s g (.seq s (g.writeS d (val (g.readS (s.cyc g)))) 1)) :=
  issue_of i s g _ hc ho hp

/-- A vector instruction that issues writes its register, at its cost. -/
theorem vecInstr_of (i : Instr) (s : State) (g : Group) (once : Bool) (d : Fld) (val : Group → State → VReg)
    (hc : s.curGroup = some g) (ho : g.operandsOk i = true) (hp : g.consumes i = none) :
    vecInstr i s once d val = .next (retire i s g (.seq s (g.setV d (val g s)) (g.vcost once))) :=
  issue_of i s g _ hc ho hp

/-- A compare that issues writes its mask, at its cost. -/
theorem maskInstr_of (i : Instr) (s : State) (g : Group) (d : Fld) (p : Group → Nat → Bool) (hc : s.curGroup = some g)
    (ho : g.operandsOk i = true) (hp : g.consumes i = none) :
    maskInstr i s d p = .next (retire i s g
      (.seq s (g.writeS d (maskOf ((threads g.active g.width.n).filter (p g)))) (g.vcost false))) :=
  issue_of i s g _ hc ho hp

/-- An element-wise result: under the once mark the lowest active thread's; else the value of each thread. -/
theorem Group.mapV_get (g : Group) (allU : Bool) (f : Nat → W32) (t : Nat) (ht : t < g.width.n)
    (hu : allU = true → ∀ a b, f a = f b) : (g.mapV false allU f).get t = f t := by
  unfold Group.mapV
  cases allU
  · simp [VReg.get, List.getD_eq_getElem?_getD, ht]
  · simpa [VReg.get] using hu rfl 0 t

/-- The threads of a mask are the bits that it has below the width. -/
theorem mem_threads (m : W64) (n t : Nat) : t ∈ threads m n ↔ t < n ∧ m.getLsbD t = true := by
  simp [threads]

/-- The mask of a list of threads below 64 has exactly their bits. -/
theorem getLsbD_maskOf (ts : List Nat) (t : Nat) (ht : t < 64) : (maskOf ts).getLsbD t = true ↔ t ∈ ts := by
  induction ts with
  | nil => simp [maskOf]
  | cons u ts ih =>
    simp only [maskOf, BitVec.getLsbD_or, Bool.or_eq_true, ih, List.mem_cons]
    have : ((1#64 <<< u).getLsbD t = true) ↔ t = u := by
      simp only [BitVec.getLsbD_shiftLeft, BitVec.getLsbD_one, Bool.and_eq_true, Bool.not_eq_true', decide_eq_true_eq,
        decide_eq_false_iff_not]
      omega
    rw [this]

/-! ## Taking an exception -/

/-- A trap that a group can take itself: it is armed, and goes on at its trap vector with its masks as they were. -/
theorem State.takeTrap_vector (s : State) (g : Group) (fs : List Failure) (xpc resume : W64) (ps : List Pend)
    (ha : g.armed = false) (hc : fs.any (fun f => f.cause.control) = false) :
    s.takeTrap g fs xpc resume ps = s.setGroup { g with
      pc := g.trapv, stat := .ready, armed := true, trap := TrapRec.make fs xpc resume ps, readyTime := s.tick } := by
  simp [State.takeTrap, ha, hc]

/-- A trap with a cause of the control core: the group halts at the resume address, armed, and the record is reported. -/
theorem State.takeTrap_control (s : State) (g : Group) (fs : List Failure) (xpc resume : W64) (ps : List Pend)
    (ha : g.armed = false) (hc : fs.any (fun f => f.cause.control) = true) :
    s.takeTrap g fs xpc resume ps = (s.setGroup { g with
      pc := resume, stat := .ready, halt := .trap, haltTime := s.tick, pass := 0, armed := true
      trap := TrapRec.make fs xpc resume ps }).reportList g.part [trapEntry g (TrapRec.make fs xpc resume ps) false] := by
  simp [State.takeTrap, ha, hc]

/-- A double trap: the group halts and keeps its record, and the new one is reported. -/
theorem State.takeTrap_double (s : State) (g : Group) (fs : List Failure) (xpc resume : W64) (ps : List Pend)
    (ha : g.armed = true) :
    s.takeTrap g fs xpc resume ps = (s.setGroup { g with
      pc := resume, stat := .ready, halt := .trap, haltTime := s.tick, pass := 0 }).reportList g.part
        [trapEntry g (TrapRec.make fs xpc resume ps) true] := by
  simp [State.takeTrap, ha]

/-! ## What a step is -/

/-- With no open list, none is to be written. -/
@[simp] theorem State.listsReady_nil (s : State) (h : s.openLists = []) : s.listsReady = false := by
  simp [State.listsReady, h, splitLists]

/-- Everything that can happen next: lists of a termination written, the first move of the queue, the next instruction of the
first group that issues, or what the device does by itself. -/
theorem State.act_cases (s : State) :
    (s.listsReady = true ∧ s.act = .next s.closeLists) ∨
    (∃ m ms, s.moves = m :: ms ∧ s.act = State.doMove { s with moves := ms } m) ∨
    (s.moves = [] ∧ ∃ g, g ∈ s.groups ∧ s.issues g = true ∧ s.act = s.runGroup g) ∨
    (s.moves = [] ∧ (∀ g ∈ s.groups, s.issues g = false) ∧ s.act = .next s.autoStep) := by
  rw [State.act.eq_def]
  split
  · rename_i ho
    simp only [Bool.and_eq_true] at ho
    exact .inl ⟨ho.1, rfl⟩
  · refine .inr ?_
    split
    · rename_i m ms hm
      exact .inl ⟨m, ms, hm, rfl⟩
    · rename_i hm
      refine .inr ?_
      split
      · rename_i g hf
        exact .inl ⟨hm, g, List.mem_of_find?_eq_some hf, List.find?_some (p := fun g => State.issues _ g) hf, rfl⟩
      · rename_i hf
        exact .inr ⟨hm, fun g hg => by simpa using List.find?_eq_none.mp hf g hg, rfl⟩

/-- A step is what happens next, with the corrected errors of class 10 that it counts, of which there are none where no line has
flipped bits that its code corrects. -/
theorem step_act (s : State) :
    (State.correctable { s with tick := s.tick + 1 } = [] ∧ step s = State.act { s with tick := s.tick + 1 }) ∨
    (∀ t, step s = .next t → ∃ (u : State) (ls : List Line), State.act { s with tick := s.tick + 1 } = .next u ∧
      t = ls.foldl (fun t _ => t.corrected 10) u) := by
  rw [step, State.nextStep.eq_def]
  dsimp only
  split
  · rename_i h
    exact .inl ⟨by simpa using h, rfl⟩
  · refine .inr fun t h => ?_
    split at h
    · rename_i u hu
      exact ⟨u, _, hu, (Host.Outcome.next.inj h).symm⟩
    · rename_i o hn
      exact (hn t h).elim

/-- What a row granted to lanes performs keeps everything that the instructions of groups keep, and the core's rows and the tick do
not matter to. -/
theorem State.performRow_keeps (P : State → Prop) (hr : ∀ s g t, P s → s.runGroup g = .next t → P t)
    (hc : ∀ (s : State) (k : Core) (n : Nat), P s → P { s.setCore k with tick := n }) (core row : Nat) (ls : List Nat) (s t : State)
    (hs : P s) (h : s.performRow core row ls = .next t) : P t := by
  induction ls generalizing s with
  | nil => simp only [State.performRow, Host.Outcome.next.injEq] at h; exact h ▸ hs
  | cons l ls ih =>
    simp only [State.performRow] at h
    split at h
    · exact ih s hs h
    · rename_i g hg
      split at h
      · rename_i u hu
        exact ih _ (hc _ _ _ (hr s g u hs hu)) h
      · rename_i o hn
        exact (hn t h).elim

/-- A move is a next state, the event that it names, an instruction of its group, whose store may be performed later, or a cycle of
a bank. -/
theorem State.doMove_cases (s : State) (m : Move) :
    (∃ t, s.doMove m = .next t) ∨ (∃ i, m = .event i ∧ s.doMove m = exec i s) ∨
      (∃ uid g, m = .group uid ∧ s.group? uid = some g ∧ s.doMove m = s.runGroup g) ∨
      (∃ uid g, m = .late uid ∧ s.group? uid = some g ∧ s.doMove m = s.runLate g) ∨
      ∃ core bank mm c port lanes, m = .bankCycle core bank mm c port lanes ∧
        s.doMove m = s.bankCycle core bank mm c port lanes := by
  cases m with
  | event i =>
    by_cases h : i.isWord || !(s.pkg.powered || powerEvent i)
    · exact .inl ⟨s, by simp only [State.doMove]; rw [if_pos h]⟩
    · exact .inr (.inl ⟨i, rfl, by simp only [State.doMove]; rw [if_neg h]⟩)
  | group uid =>
    cases hg : s.group? uid with
    | none => exact .inl ⟨s, by simp [State.doMove, hg]⟩
    | some g =>
      by_cases hi : s.issues g = true
      · exact .inr (.inr (.inl ⟨uid, g, rfl, hg, by simp [State.doMove, hg, hi]⟩))
      · exact .inl ⟨s, by simp [State.doMove, hg, hi]⟩
  | late uid =>
    cases hg : s.group? uid with
    | none => exact .inl ⟨s, by simp [State.doMove, hg]⟩
    | some g =>
      by_cases hi : s.issues g = true
      · exact .inr (.inr (.inr (.inl ⟨uid, g, rfl, hg, by simp [State.doMove, hg, hi]⟩)))
      · exact .inl ⟨s, by simp [State.doMove, hg, hi]⟩
  | bankCycle core bank mm c port lanes => exact .inr (.inr (.inr (.inr ⟨core, bank, mm, c, port, lanes, rfl, rfl⟩)))
  | perform _ | performOne _ _ | grants _ _ | words _ _ _ _ | keepCopy _ _ _ | keepWord _ _ _ | call _ | fecCorrected _ _
  | fillLine _ _ _ | flipLine _ _ | spoilSlice _ _ | piece _ _ _ _ | badLine _ _ => exact .inl ⟨_, rfl⟩

end Sys2Proof.Machine
end

