-- ==== Sys2Proof/Laws/Words.lean ====
section
/-!
SUPPORT. The words of an instruction as numbers, and the fields that decoding reads back from them.
-/

namespace Sys2Proof.Laws

set_option Elab.async false

open Sys2Proof

/-- The number of two bit strings put together. -/
theorem toNat_app {m n : Nat} (x : BitVec m) (y : BitVec n) : (x ++ y).toNat = x.toNat * 2 ^ n + y.toNat := by
  rw [BitVec.toNat_append, ← Nat.shiftLeft_add_eq_or_of_lt y.isLt, Nat.shiftLeft_eq]

/-- A field of a word by the word's number. -/
theorem field_eq {n : Nat} (w : W32) (s : Nat) (x : BitVec n) (h : w.toNat / 2 ^ s % 2 ^ n = x.toNat) :
    w.extractLsb' s n = x := by
  apply BitVec.eq_of_toNat_eq
  rw [BitVec.extractLsb'_toNat, Nat.shiftRight_eq_div_pow, h]

/-- A bit of a word by the word's number. -/
theorem bit_eq (w : W32) (s : Nat) (x : Bool) (h : w.toNat / 2 ^ s % 2 = x.toNat) : w.getLsbD s = x := by
  rw [BitVec.getLsbD, Nat.testBit_eq_decide_div_mod_eq, h]
  cases x <;> rfl

/-- A word of form T as a number. -/
theorem packT_toNat (e u : Bool) (c : BitVec 3) (op : BitVec 6) (d a b : Fld) :
    (packT e u c op d a b).toNat = e.toNat * 2 ^ 31 + u.toNat * 2 ^ 30 + c.toNat * 2 ^ 27 + op.toNat * 2 ^ 21 + d.toNat * 2 ^ 14 + a.toNat * 2 ^ 7 + b.toNat := by
  refine (toNat_app _ b).trans ?_
  simp only [toNat_app, BitVec.toNat_ofBool]
  omega

theorem packT_e (e u : Bool) (c : BitVec 3) (op : BitVec 6) (d a b : Fld) : (packT e u c op d a b).getLsbD 31 = e := by
  have h_e := Bool.toNat_lt e
  have h_u := Bool.toNat_lt u
  have h_c := c.isLt
  have h_op := op.isLt
  have h_d := d.isLt
  have h_a := a.isLt
  have h_b := b.isLt
  exact bit_eq _ _ _ (by rw [packT_toNat]; omega)

theorem packT_u (e u : Bool) (c : BitVec 3) (op : BitVec 6) (d a b : Fld) : (packT e u c op d a b).getLsbD 30 = u := by
  have h_e := Bool.toNat_lt e
  have h_u := Bool.toNat_lt u
  have h_c := c.isLt
  have h_op := op.isLt
  have h_d := d.isLt
  have h_a := a.isLt
  have h_b := b.isLt
  exact bit_eq _ _ _ (by rw [packT_toNat]; omega)

theorem packT_cls (e u : Bool) (c : BitVec 3) (op : BitVec 6) (d a b : Fld) : (packT e u c op d a b).extractLsb' 27 3 = c := by
  have h_e := Bool.toNat_lt e
  have h_u := Bool.toNat_lt u
  have h_c := c.isLt
  have h_op := op.isLt
  have h_d := d.isLt
  have h_a := a.isLt
  have h_b := b.isLt
  exact field_eq _ _ _ (by rw [packT_toNat]; omega)

theorem packT_op (e u : Bool) (c : BitVec 3) (op : BitVec 6) (d a b : Fld) : (packT e u c op d a b).extractLsb' 21 6 = op := by
  have h_e := Bool.toNat_lt e
  have h_u := Bool.toNat_lt u
  have h_c := c.isLt
  have h_op := op.isLt
  have h_d := d.isLt
  have h_a := a.isLt
  have h_b := b.isLt
  exact field_eq _ _ _ (by rw [packT_toNat]; omega)

theorem packT_d (e u : Bool) (c : BitVec 3) (op : BitVec 6) (d a b : Fld) : (packT e u c op d a b).extractLsb' 14 7 = d := by
  have h_e := Bool.toNat_lt e
  have h_u := Bool.toNat_lt u
  have h_c := c.isLt
  have h_op := op.isLt
  have h_d := d.isLt
  have h_a := a.isLt
  have h_b := b.isLt
  exact field_eq _ _ _ (by rw [packT_toNat]; omega)

theorem packT_a (e u : Bool) (c : BitVec 3) (op : BitVec 6) (d a b : Fld) : (packT e u c op d a b).extractLsb' 7 7 = a := by
  have h_e := Bool.toNat_lt e
  have h_u := Bool.toNat_lt u
  have h_c := c.isLt
  have h_op := op.isLt
  have h_d := d.isLt
  have h_a := a.isLt
  have h_b := b.isLt
  exact field_eq _ _ _ (by rw [packT_toNat]; omega)

theorem packT_b (e u : Bool) (c : BitVec 3) (op : BitVec 6) (d a b : Fld) : (packT e u c op d a b).extractLsb' 0 7 = b := by
  have h_e := Bool.toNat_lt e
  have h_u := Bool.toNat_lt u
  have h_c := c.isLt
  have h_op := op.isLt
  have h_d := d.isLt
  have h_a := a.isLt
  have h_b := b.isLt
  exact field_eq _ _ _ (by rw [packT_toNat]; omega)

/-- A word of form I as a number. -/
theorem packI_toNat (e u : Bool) (c : BitVec 3) (op : BitVec 4) (d a : Fld) (i : BitVec 9) :
    (packI e u c op d a i).toNat = e.toNat * 2 ^ 31 + u.toNat * 2 ^ 30 + c.toNat * 2 ^ 27 + op.toNat * 2 ^ 23 + d.toNat * 2 ^ 16 + a.toNat * 2 ^ 9 + i.toNat := by
  refine (toNat_app _ i).trans ?_
  simp only [toNat_app, BitVec.toNat_ofBool]
  omega

theorem packI_e (e u : Bool) (c : BitVec 3) (op : BitVec 4) (d a : Fld) (i : BitVec 9) : (packI e u c op d a i).getLsbD 31 = e := by
  have h_e := Bool.toNat_lt e
  have h_u := Bool.toNat_lt u
  have h_c := c.isLt
  have h_op := op.isLt
  have h_d := d.isLt
  have h_a := a.isLt
  have h_i := i.isLt
  exact bit_eq _ _ _ (by rw [packI_toNat]; omega)

theorem packI_u (e u : Bool) (c : BitVec 3) (op : BitVec 4) (d a : Fld) (i : BitVec 9) : (packI e u c op d a i).getLsbD 30 = u := by
  have h_e := Bool.toNat_lt e
  have h_u := Bool.toNat_lt u
  have h_c := c.isLt
  have h_op := op.isLt
  have h_d := d.isLt
  have h_a := a.isLt
  have h_i := i.isLt
  exact bit_eq _ _ _ (by rw [packI_toNat]; omega)

theorem packI_cls (e u : Bool) (c : BitVec 3) (op : BitVec 4) (d a : Fld) (i : BitVec 9) : (packI e u c op d a i).extractLsb' 27 3 = c := by
  have h_e := Bool.toNat_lt e
  have h_u := Bool.toNat_lt u
  have h_c := c.isLt
  have h_op := op.isLt
  have h_d := d.isLt
  have h_a := a.isLt
  have h_i := i.isLt
  exact field_eq _ _ _ (by rw [packI_toNat]; omega)

theorem packI_op (e u : Bool) (c : BitVec 3) (op : BitVec 4) (d a : Fld) (i : BitVec 9) : (packI e u c op d a i).extractLsb' 23 4 = op := by
  have h_e := Bool.toNat_lt e
  have h_u := Bool.toNat_lt u
  have h_c := c.isLt
  have h_op := op.isLt
  have h_d := d.isLt
  have h_a := a.isLt
  have h_i := i.isLt
  exact field_eq _ _ _ (by rw [packI_toNat]; omega)

theorem packI_d (e u : Bool) (c : BitVec 3) (op : BitVec 4) (d a : Fld) (i : BitVec 9) : (packI e u c op d a i).extractLsb' 16 7 = d := by
  have h_e := Bool.toNat_lt e
  have h_u := Bool.toNat_lt u
  have h_c := c.isLt
  have h_op := op.isLt
  have h_d := d.isLt
  have h_a := a.isLt
  have h_i := i.isLt
  exact field_eq _ _ _ (by rw [packI_toNat]; omega)

theorem packI_a (e u : Bool) (c : BitVec 3) (op : BitVec 4) (d a : Fld) (i : BitVec 9) : (packI e u c op d a i).extractLsb' 9 7 = a := by
  have h_e := Bool.toNat_lt e
  have h_u := Bool.toNat_lt u
  have h_c := c.isLt
  have h_op := op.isLt
  have h_d := d.isLt
  have h_a := a.isLt
  have h_i := i.isLt
  exact field_eq _ _ _ (by rw [packI_toNat]; omega)

theorem packI_i (e u : Bool) (c : BitVec 3) (op : BitVec 4) (d a : Fld) (i : BitVec 9) : (packI e u c op d a i).extractLsb' 0 9 = i := by
  have h_e := Bool.toNat_lt e
  have h_u := Bool.toNat_lt u
  have h_c := c.isLt
  have h_op := op.isLt
  have h_d := d.isLt
  have h_a := a.isLt
  have h_i := i.isLt
  exact field_eq _ _ _ (by rw [packI_toNat]; omega)

/-- A word of form B as a number. -/
theorem packB_toNat (e : Bool) (op : BitVec 4) (c : Fld) (t : BitVec 16) :
    (packB e op c t).toNat = e.toNat * 2 ^ 31 + 6 * 2 ^ 27 + op.toNat * 2 ^ 23 + c.toNat * 2 ^ 16 + t.toNat := by
  refine (toNat_app _ t).trans ?_
  simp only [toNat_app, BitVec.toNat_ofBool, BitVec.toNat_ofNat]
  omega

theorem packB_e (e : Bool) (op : BitVec 4) (c : Fld) (t : BitVec 16) : (packB e op c t).getLsbD 31 = e := by
  have h_e := Bool.toNat_lt e
  have h_op := op.isLt
  have h_c := c.isLt
  have h_t := t.isLt
  exact bit_eq _ _ _ (by rw [packB_toNat]; omega)

theorem packB_u (e : Bool) (op : BitVec 4) (c : Fld) (t : BitVec 16) : (packB e op c t).getLsbD 30 = false := by
  have h_e := Bool.toNat_lt e
  have h_op := op.isLt
  have h_c := c.isLt
  have h_t := t.isLt
  exact bit_eq _ _ _ (by rw [packB_toNat]; simp only [Bool.toNat_false]; omega)

theorem packB_cls (e : Bool) (op : BitVec 4) (c : Fld) (t : BitVec 16) : (packB e op c t).extractLsb' 27 3 = 6#3 := by
  have h_e := Bool.toNat_lt e
  have h_op := op.isLt
  have h_c := c.isLt
  have h_t := t.isLt
  exact field_eq _ _ _ (by rw [packB_toNat]; simp only [BitVec.toNat_ofNat]; omega)

theorem packB_op (e : Bool) (op : BitVec 4) (c : Fld) (t : BitVec 16) : (packB e op c t).extractLsb' 23 4 = op := by
  have h_e := Bool.toNat_lt e
  have h_op := op.isLt
  have h_c := c.isLt
  have h_t := t.isLt
  exact field_eq _ _ _ (by rw [packB_toNat]; omega)

theorem packB_c (e : Bool) (op : BitVec 4) (c : Fld) (t : BitVec 16) : (packB e op c t).extractLsb' 16 7 = c := by
  have h_e := Bool.toNat_lt e
  have h_op := op.isLt
  have h_c := c.isLt
  have h_t := t.isLt
  exact field_eq _ _ _ (by rw [packB_toNat]; omega)

theorem packB_t (e : Bool) (op : BitVec 4) (c : Fld) (t : BitVec 16) : (packB e op c t).extractLsb' 0 16 = t := by
  have h_e := Bool.toNat_lt e
  have h_op := op.isLt
  have h_c := c.isLt
  have h_t := t.isLt
  exact field_eq _ _ _ (by rw [packB_toNat]; omega)

/-- A word of form T is none of the two null words. -/
theorem packT_some (e u : Bool) (c : BitVec 3) (op : BitVec 6) (d a b : Fld)
    (h0 : c ≠ 0 ∨ op ≠ 0) (h1 : c ≠ 7 ∨ op ≠ 63) :
    (packT e u c op d a b == 0 || packT e u c op d a b == 0xFFFFFFFF) = false := by
  have hc := packT_cls e u c op d a b
  have ho := packT_op e u c op d a b
  simp only [Bool.or_eq_false_iff, beq_eq_false_iff_ne]
  constructor <;> intro h <;> rw [h] at hc ho
  · exact h0.elim (fun k => k hc.symm) (fun k => k ho.symm)
  · exact h1.elim (fun k => k hc.symm) (fun k => k ho.symm)

/-- A word of class 0 decodes by its op. -/
theorem decode_packT0 (e u : Bool) (op : BitVec 6) (d a b : Fld) (w2 : W32) (h : op ≠ 0) :
    decode (packT e u 0 op d a b) w2 = decodeC0 e u op d a b := by
  have z := packT_some e u 0 op d a b (.inr h) (.inl (by decide))
  simp only [decode, z, packT_e, packT_u, packT_cls, packT_op, packT_d, packT_a, packT_b, Bool.false_eq_true, if_false]
  rfl

/-- A word of class 1 decodes by its op. -/
theorem decode_packT1 (e u : Bool) (op : BitVec 6) (d a b : Fld) (w2 : W32) :
    decode (packT e u 1 op d a b) w2 = decodeC1 e u op d a b := by
  have z := packT_some e u 1 op d a b (.inl (by decide)) (.inl (by decide))
  simp only [decode, z, packT_e, packT_u, packT_cls, packT_op, packT_d, packT_a, packT_b, Bool.false_eq_true, if_false]
  rfl

/-- A word of class 2 decodes by its op. -/
theorem decode_packT2 (e u : Bool) (op : BitVec 6) (d a b : Fld) (w2 : W32) :
    decode (packT e u 2 op d a b) w2 = decodeC2 e u op d a b := by
  have z := packT_some e u 2 op d a b (.inl (by decide)) (.inl (by decide))
  simp only [decode, z, packT_e, packT_u, packT_cls, packT_op, packT_d, packT_a, packT_b, Bool.false_eq_true, if_false]
  rfl

/-- A word of class 3 decodes by its op. -/
theorem decode_packT3 (e u : Bool) (op : BitVec 6) (d a b : Fld) (w2 : W32) :
    decode (packT e u 3 op d a b) w2 = decodeC3 e u op d a b := by
  have z := packT_some e u 3 op d a b (.inl (by decide)) (.inl (by decide))
  simp only [decode, z, packT_e, packT_u, packT_cls, packT_op, packT_d, packT_a, packT_b, Bool.false_eq_true, if_false]
  rfl

/-- A word of class 7 decodes by its op. -/
theorem decode_packT7 (e u : Bool) (op : BitVec 6) (d a b : Fld) (w2 : W32) (h : op ≠ 63) :
    decode (packT e u 7 op d a b) w2 = decodeC7 e u op d a b w2 := by
  have z := packT_some e u 7 op d a b (.inl (by decide)) (.inr h)
  simp only [decode, z, packT_e, packT_u, packT_cls, packT_op, packT_d, packT_a, packT_b, Bool.false_eq_true, if_false]
  rfl

/-- A word of form I or M decodes by its op. -/
theorem decode_packI4 (e u : Bool) (op : BitVec 4) (d a : Fld) (i : BitVec 9) (w2 : W32) :
    decode (packI e u 4 op d a i) w2 = decodeC4 e u op d a i := by
  have z : (packI e u 4 op d a i == 0 || packI e u 4 op d a i == 0xFFFFFFFF) = false := by
    simp only [Bool.or_eq_false_iff, beq_eq_false_iff_ne]
    constructor <;> intro h <;> have hc := packI_cls e u 4 op d a i <;> rw [h] at hc <;> exact absurd hc (by decide)
  simp only [decode, z, packI_e, packI_u, packI_cls, packI_op, packI_d, packI_a, packI_i, Bool.false_eq_true, if_false]
  rfl

/-- A word of form I or M decodes by its op. -/
theorem decode_packI5 (e u : Bool) (op : BitVec 4) (d a : Fld) (i : BitVec 9) (w2 : W32) :
    decode (packI e u 5 op d a i) w2 = decodeC5 e u op d a i := by
  have z : (packI e u 5 op d a i == 0 || packI e u 5 op d a i == 0xFFFFFFFF) = false := by
    simp only [Bool.or_eq_false_iff, beq_eq_false_iff_ne]
    constructor <;> intro h <;> have hc := packI_cls e u 5 op d a i <;> rw [h] at hc <;> exact absurd hc (by decide)
  simp only [decode, z, packI_e, packI_u, packI_cls, packI_op, packI_d, packI_a, packI_i, Bool.false_eq_true, if_false]
  rfl

/-- A word of form B decodes by its op. -/
theorem decode_packB (e : Bool) (op : BitVec 4) (c : Fld) (t : BitVec 16) (w2 : W32) :
    decode (packB e op c t) w2 = decodeC6 e false op c t := by
  have z : (packB e op c t == 0 || packB e op c t == 0xFFFFFFFF) = false := by
    simp only [Bool.or_eq_false_iff, beq_eq_false_iff_ne]
    constructor <;> intro h <;> have hc := packB_cls e op c t <;> rw [h] at hc <;> exact absurd hc (by decide)
  simp only [decode, z, packB_e, packB_u, packB_cls, packB_op, packB_c, packB_t, Bool.false_eq_true, if_false]
  rfl

end Sys2Proof.Laws
end

