-- ==== Sys2Proof/Laws/PerInstr.lean ====
section
/-!
SUPPORT. Families of statements made instruction by instruction. RoundTrip: the words that an instruction is encoded in
decode to it, and a step of the device that is no instruction has no word.
-/

namespace Sys2Proof.Laws.RoundTrip

set_option Elab.async false

open Sys2Proof

set_option Elab.async false
set_option linter.unusedSimpArgs false

/-- The words of an instruction of legal form are read back as it, with every operand; other steps have no word. -/
def Statement (i : Instr) : Prop :=
  if i.isWord then
    i.form = true → ∃ w1 w2, encode i = some (w1, w2) ∧ w2.isSome = i.two ∧ hasSecond w1 = i.two ∧
      ∀ x, decode w1 (w2.getD x) = .ok (i, i.two)
  else encode i = none

theorem vadd (e : Bool) (u : Bool) (d : BitVec 7) (a : BitVec 7) (b : BitVec 7) : Statement (.vadd e u d a b) := by
  intro _
  refine ⟨_, _, rfl, rfl, ?_, fun x => ?_⟩
  · simp only [hasSecond, packT_cls]; rfl
  · rw [decode_packT0 _ _ _ _ _ _ _ (by decide)]
    rfl

theorem vsub (e : Bool) (u : Bool) (d : BitVec 7) (a : BitVec 7) (b : BitVec 7) : Statement (.vsub e u d a b) := by
  intro _
  refine ⟨_, _, rfl, rfl, ?_, fun x => ?_⟩
  · simp only [hasSecond, packT_cls]; rfl
  · rw [decode_packT0 _ _ _ _ _ _ _ (by decide)]
    rfl

theorem vmul (e : Bool) (u : Bool) (d : BitVec 7) (a : BitVec 7) (b : BitVec 7) : Statement (.vmul e u d a b) := by
  intro _
  refine ⟨_, _, rfl, rfl, ?_, fun x => ?_⟩
  · simp only [hasSecond, packT_cls]; rfl
  · rw [decode_packT0 _ _ _ _ _ _ _ (by decide)]
    rfl

theorem vmulhiI (e : Bool) (u : Bool) (d : BitVec 7) (a : BitVec 7) (b : BitVec 7) : Statement (.vmulhiI e u d a b) := by
  intro _
  refine ⟨_, _, rfl, rfl, ?_, fun x => ?_⟩
  · simp only [hasSecond, packT_cls]; rfl
  · rw [decode_packT0 _ _ _ _ _ _ _ (by decide)]
    rfl

theorem vmulhiN (e : Bool) (u : Bool) (d : BitVec 7) (a : BitVec 7) (b : BitVec 7) : Statement (.vmulhiN e u d a b) := by
  intro _
  refine ⟨_, _, rfl, rfl, ?_, fun x => ?_⟩
  · simp only [hasSecond, packT_cls]; rfl
  · rw [decode_packT0 _ _ _ _ _ _ _ (by decide)]
    rfl

theorem vmac (e : Bool) (u : Bool) (d : BitVec 7) (a : BitVec 7) (b : BitVec 7) : Statement (.vmac e u d a b) := by
  intro _
  refine ⟨_, _, rfl, rfl, ?_, fun x => ?_⟩
  · simp only [hasSecond, packT_cls]; rfl
  · rw [decode_packT0 _ _ _ _ _ _ _ (by decide)]
    rfl

theorem vand (e : Bool) (u : Bool) (d : BitVec 7) (a : BitVec 7) (b : BitVec 7) : Statement (.vand e u d a b) := by
  intro _
  refine ⟨_, _, rfl, rfl, ?_, fun x => ?_⟩
  · simp only [hasSecond, packT_cls]; rfl
  · rw [decode_packT0 _ _ _ _ _ _ _ (by decide)]
    rfl

theorem vor (e : Bool) (u : Bool) (d : BitVec 7) (a : BitVec 7) (b : BitVec 7) : Statement (.vor e u d a b) := by
  intro _
  refine ⟨_, _, rfl, rfl, ?_, fun x => ?_⟩
  · simp only [hasSecond, packT_cls]; rfl
  · rw [decode_packT0 _ _ _ _ _ _ _ (by decide)]
    rfl

theorem vxor (e : Bool) (u : Bool) (d : BitVec 7) (a : BitVec 7) (b : BitVec 7) : Statement (.vxor e u d a b) := by
  intro _
  refine ⟨_, _, rfl, rfl, ?_, fun x => ?_⟩
  · simp only [hasSecond, packT_cls]; rfl
  · rw [decode_packT0 _ _ _ _ _ _ _ (by decide)]
    rfl

theorem vandn (e : Bool) (u : Bool) (d : BitVec 7) (a : BitVec 7) (b : BitVec 7) : Statement (.vandn e u d a b) := by
  intro _
  refine ⟨_, _, rfl, rfl, ?_, fun x => ?_⟩
  · simp only [hasSecond, packT_cls]; rfl
  · rw [decode_packT0 _ _ _ _ _ _ _ (by decide)]
    rfl

theorem vshl (e : Bool) (u : Bool) (d : BitVec 7) (a : BitVec 7) (b : BitVec 7) : Statement (.vshl e u d a b) := by
  intro _
  refine ⟨_, _, rfl, rfl, ?_, fun x => ?_⟩
  · simp only [hasSecond, packT_cls]; rfl
  · rw [decode_packT0 _ _ _ _ _ _ _ (by decide)]
    rfl

theorem vshrN (e : Bool) (u : Bool) (d : BitVec 7) (a : BitVec 7) (b : BitVec 7) : Statement (.vshrN e u d a b) := by
  intro _
  refine ⟨_, _, rfl, rfl, ?_, fun x => ?_⟩
  · simp only [hasSecond, packT_cls]; rfl
  · rw [decode_packT0 _ _ _ _ _ _ _ (by decide)]
    rfl

theorem vshrI (e : Bool) (u : Bool) (d : BitVec 7) (a : BitVec 7) (b : BitVec 7) : Statement (.vshrI e u d a b) := by
  intro _
  refine ⟨_, _, rfl, rfl, ?_, fun x => ?_⟩
  · simp only [hasSecond, packT_cls]; rfl
  · rw [decode_packT0 _ _ _ _ _ _ _ (by decide)]
    rfl

theorem vrotl (e : Bool) (u : Bool) (d : BitVec 7) (a : BitVec 7) (b : BitVec 7) : Statement (.vrotl e u d a b) := by
  intro _
  refine ⟨_, _, rfl, rfl, ?_, fun x => ?_⟩
  · simp only [hasSecond, packT_cls]; rfl
  · rw [decode_packT0 _ _ _ _ _ _ _ (by decide)]
    rfl

theorem vfshl (e : Bool) (u : Bool) (d : BitVec 7) (a : BitVec 7) (b : BitVec 7) : Statement (.vfshl e u d a b) := by
  intro _
  refine ⟨_, _, rfl, rfl, ?_, fun x => ?_⟩
  · simp only [hasSecond, packT_cls]; rfl
  · rw [decode_packT0 _ _ _ _ _ _ _ (by decide)]
    rfl

theorem vfshr (e : Bool) (u : Bool) (d : BitVec 7) (a : BitVec 7) (b : BitVec 7) : Statement (.vfshr e u d a b) := by
  intro _
  refine ⟨_, _, rfl, rfl, ?_, fun x => ?_⟩
  · simp only [hasSecond, packT_cls]; rfl
  · rw [decode_packT0 _ _ _ _ _ _ _ (by decide)]
    rfl

theorem vminI (e : Bool) (u : Bool) (d : BitVec 7) (a : BitVec 7) (b : BitVec 7) : Statement (.vminI e u d a b) := by
  intro _
  refine ⟨_, _, rfl, rfl, ?_, fun x => ?_⟩
  · simp only [hasSecond, packT_cls]; rfl
  · rw [decode_packT0 _ _ _ _ _ _ _ (by decide)]
    rfl

theorem vmaxI (e : Bool) (u : Bool) (d : BitVec 7) (a : BitVec 7) (b : BitVec 7) : Statement (.vmaxI e u d a b) := by
  intro _
  refine ⟨_, _, rfl, rfl, ?_, fun x => ?_⟩
  · simp only [hasSecond, packT_cls]; rfl
  · rw [decode_packT0 _ _ _ _ _ _ _ (by decide)]
    rfl

theorem vminN (e : Bool) (u : Bool) (d : BitVec 7) (a : BitVec 7) (b : BitVec 7) : Statement (.vminN e u d a b) := by
  intro _
  refine ⟨_, _, rfl, rfl, ?_, fun x => ?_⟩
  · simp only [hasSecond, packT_cls]; rfl
  · rw [decode_packT0 _ _ _ _ _ _ _ (by decide)]
    rfl

theorem vmaxN (e : Bool) (u : Bool) (d : BitVec 7) (a : BitVec 7) (b : BitVec 7) : Statement (.vmaxN e u d a b) := by
  intro _
  refine ⟨_, _, rfl, rfl, ?_, fun x => ?_⟩
  · simp only [hasSecond, packT_cls]; rfl
  · rw [decode_packT0 _ _ _ _ _ _ _ (by decide)]
    rfl

theorem vpopc (e : Bool) (u : Bool) (d : BitVec 7) (a : BitVec 7) : Statement (.vpopc e u d a) := by
  intro _
  refine ⟨_, _, rfl, rfl, ?_, fun x => ?_⟩
  · simp only [hasSecond, packT_cls]; rfl
  · rw [decode_packT0 _ _ _ _ _ _ _ (by decide)]
    rfl

theorem vclz (e : Bool) (u : Bool) (d : BitVec 7) (a : BitVec 7) : Statement (.vclz e u d a) := by
  intro _
  refine ⟨_, _, rfl, rfl, ?_, fun x => ?_⟩
  · simp only [hasSecond, packT_cls]; rfl
  · rw [decode_packT0 _ _ _ _ _ _ _ (by decide)]
    rfl

theorem vbrev (e : Bool) (u : Bool) (d : BitVec 7) (a : BitVec 7) : Statement (.vbrev e u d a) := by
  intro _
  refine ⟨_, _, rfl, rfl, ?_, fun x => ?_⟩
  · simp only [hasSecond, packT_cls]; rfl
  · rw [decode_packT0 _ _ _ _ _ _ _ (by decide)]
    rfl

theorem vceq (e : Bool) (d : BitVec 7) (a : BitVec 7) (b : BitVec 7) : Statement (.vceq e d a b) := by
  intro _
  refine ⟨_, _, rfl, rfl, ?_, fun x => ?_⟩
  · simp only [hasSecond, packT_cls]; rfl
  · rw [decode_packT0 _ _ _ _ _ _ _ (by decide)]
    rfl

theorem vcne (e : Bool) (d : BitVec 7) (a : BitVec 7) (b : BitVec 7) : Statement (.vcne e d a b) := by
  intro _
  refine ⟨_, _, rfl, rfl, ?_, fun x => ?_⟩
  · simp only [hasSecond, packT_cls]; rfl
  · rw [decode_packT0 _ _ _ _ _ _ _ (by decide)]
    rfl

theorem vcltI (e : Bool) (d : BitVec 7) (a : BitVec 7) (b : BitVec 7) : Statement (.vcltI e d a b) := by
  intro _
  refine ⟨_, _, rfl, rfl, ?_, fun x => ?_⟩
  · simp only [hasSecond, packT_cls]; rfl
  · rw [decode_packT0 _ _ _ _ _ _ _ (by decide)]
    rfl

theorem vcleI (e : Bool) (d : BitVec 7) (a : BitVec 7) (b : BitVec 7) : Statement (.vcleI e d a b) := by
  intro _
  refine ⟨_, _, rfl, rfl, ?_, fun x => ?_⟩
  · simp only [hasSecond, packT_cls]; rfl
  · rw [decode_packT0 _ _ _ _ _ _ _ (by decide)]
    rfl

theorem vcltN (e : Bool) (d : BitVec 7) (a : BitVec 7) (b : BitVec 7) : Statement (.vcltN e d a b) := by
  intro _
  refine ⟨_, _, rfl, rfl, ?_, fun x => ?_⟩
  · simp only [hasSecond, packT_cls]; rfl
  · rw [decode_packT0 _ _ _ _ _ _ _ (by decide)]
    rfl

theorem vcleN (e : Bool) (d : BitVec 7) (a : BitVec 7) (b : BitVec 7) : Statement (.vcleN e d a b) := by
  intro _
  refine ⟨_, _, rfl, rfl, ?_, fun x => ?_⟩
  · simp only [hasSecond, packT_cls]; rfl
  · rw [decode_packT0 _ _ _ _ _ _ _ (by decide)]
    rfl

theorem vsel (e : Bool) (u : Bool) (d : BitVec 7) (a : BitVec 7) (b : BitVec 7) : Statement (.vsel e u d a b) := by
  intro _
  refine ⟨_, _, rfl, rfl, ?_, fun x => ?_⟩
  · simp only [hasSecond, packT_cls]; rfl
  · rw [decode_packT0 _ _ _ _ _ _ _ (by decide)]
    rfl

theorem vmov (e : Bool) (u : Bool) (d : BitVec 7) (a : BitVec 7) : Statement (.vmov e u d a) := by
  intro _
  refine ⟨_, _, rfl, rfl, ?_, fun x => ?_⟩
  · simp only [hasSecond, packT_cls]; rfl
  · rw [decode_packT0 _ _ _ _ _ _ _ (by decide)]
    rfl

theorem vaddW (e : Bool) (u : Bool) (d : BitVec 7) (a : BitVec 7) (b : BitVec 7) : Statement (.vaddW e u d a b) := by
  intro _
  refine ⟨_, _, rfl, rfl, ?_, fun x => ?_⟩
  · simp only [hasSecond, packT_cls]; rfl
  · rw [decode_packT0 _ _ _ _ _ _ _ (by decide)]
    rfl

theorem vsubW (e : Bool) (u : Bool) (d : BitVec 7) (a : BitVec 7) (b : BitVec 7) : Statement (.vsubW e u d a b) := by
  intro _
  refine ⟨_, _, rfl, rfl, ?_, fun x => ?_⟩
  · simp only [hasSecond, packT_cls]; rfl
  · rw [decode_packT0 _ _ _ _ _ _ _ (by decide)]
    rfl

theorem vshlW (e : Bool) (u : Bool) (d : BitVec 7) (a : BitVec 7) (b : BitVec 7) : Statement (.vshlW e u d a b) := by
  intro _
  refine ⟨_, _, rfl, rfl, ?_, fun x => ?_⟩
  · simp only [hasSecond, packT_cls]; rfl
  · rw [decode_packT0 _ _ _ _ _ _ _ (by decide)]
    rfl

theorem vshrWN (e : Bool) (u : Bool) (d : BitVec 7) (a : BitVec 7) (b : BitVec 7) : Statement (.vshrWN e u d a b) := by
  intro _
  refine ⟨_, _, rfl, rfl, ?_, fun x => ?_⟩
  · simp only [hasSecond, packT_cls]; rfl
  · rw [decode_packT0 _ _ _ _ _ _ _ (by decide)]
    rfl

theorem vshrWI (e : Bool) (u : Bool) (d : BitVec 7) (a : BitVec 7) (b : BitVec 7) : Statement (.vshrWI e u d a b) := by
  intro _
  refine ⟨_, _, rfl, rfl, ?_, fun x => ?_⟩
  · simp only [hasSecond, packT_cls]; rfl
  · rw [decode_packT0 _ _ _ _ _ _ _ (by decide)]
    rfl

theorem vceqW (e : Bool) (d : BitVec 7) (a : BitVec 7) (b : BitVec 7) : Statement (.vceqW e d a b) := by
  intro _
  refine ⟨_, _, rfl, rfl, ?_, fun x => ?_⟩
  · simp only [hasSecond, packT_cls]; rfl
  · rw [decode_packT0 _ _ _ _ _ _ _ (by decide)]
    rfl

theorem vcltWI (e : Bool) (d : BitVec 7) (a : BitVec 7) (b : BitVec 7) : Statement (.vcltWI e d a b) := by
  intro _
  refine ⟨_, _, rfl, rfl, ?_, fun x => ?_⟩
  · simp only [hasSecond, packT_cls]; rfl
  · rw [decode_packT0 _ _ _ _ _ _ _ (by decide)]
    rfl

theorem vcltWN (e : Bool) (d : BitVec 7) (a : BitVec 7) (b : BitVec 7) : Statement (.vcltWN e d a b) := by
  intro _
  refine ⟨_, _, rfl, rfl, ?_, fun x => ?_⟩
  · simp only [hasSecond, packT_cls]; rfl
  · rw [decode_packT0 _ _ _ _ _ _ _ (by decide)]
    rfl

theorem vmulW (e : Bool) (u : Bool) (d : BitVec 7) (a : BitVec 7) (b : BitVec 7) : Statement (.vmulW e u d a b) := by
  intro _
  refine ⟨_, _, rfl, rfl, ?_, fun x => ?_⟩
  · simp only [hasSecond, packT_cls]; rfl
  · rw [decode_packT0 _ _ _ _ _ _ _ (by decide)]
    rfl

theorem vtid (e : Bool) (d : BitVec 7) : Statement (.vtid e d) := by
  intro _
  refine ⟨_, _, rfl, rfl, ?_, fun x => ?_⟩
  · simp only [hasSecond, packT_cls]; rfl
  · rw [decode_packT0 _ _ _ _ _ _ _ (by decide)]
    rfl

theorem vxsh (e : Bool) (d : BitVec 7) (a : BitVec 7) (b : BitVec 7) : Statement (.vxsh e d a b) := by
  intro _
  refine ⟨_, _, rfl, rfl, ?_, fun x => ?_⟩
  · simp only [hasSecond, packT_cls]; rfl
  · rw [decode_packT0 _ _ _ _ _ _ _ (by decide)]
    rfl

theorem vxshu (e : Bool) (d : BitVec 7) (a : BitVec 7) (b : BitVec 7) : Statement (.vxshu e d a b) := by
  intro _
  refine ⟨_, _, rfl, rfl, ?_, fun x => ?_⟩
  · simp only [hasSecond, packT_cls]; rfl
  · rw [decode_packT0 _ _ _ _ _ _ _ (by decide)]
    rfl

theorem vscanAdd (e : Bool) (d : BitVec 7) (a : BitVec 7) : Statement (.vscanAdd e d a) := by
  intro _
  refine ⟨_, _, rfl, rfl, ?_, fun x => ?_⟩
  · simp only [hasSecond, packT_cls]; rfl
  · rw [decode_packT0 _ _ _ _ _ _ _ (by decide)]
    rfl

theorem vredAdd (e : Bool) (d : BitVec 7) (a : BitVec 7) : Statement (.vredAdd e d a) := by
  intro _
  refine ⟨_, _, rfl, rfl, ?_, fun x => ?_⟩
  · simp only [hasSecond, packT_cls]; rfl
  · rw [decode_packT0 _ _ _ _ _ _ _ (by decide)]
    rfl

theorem vmatchr (e : Bool) (d : BitVec 7) (a : BitVec 7) (b : BitVec 7) : Statement (.vmatchr e d a b) := by
  intro _
  refine ⟨_, _, rfl, rfl, ?_, fun x => ?_⟩
  · simp only [hasSecond, packT_cls]; rfl
  · rw [decode_packT0 _ _ _ _ _ _ _ (by decide)]
    rfl

theorem vredmaxiI (e : Bool) (d : BitVec 7) (a : BitVec 7) : Statement (.vredmaxiI e d a) := by
  intro _
  refine ⟨_, _, rfl, rfl, ?_, fun x => ?_⟩
  · simp only [hasSecond, packT_cls]; rfl
  · rw [decode_packT0 _ _ _ _ _ _ _ (by decide)]
    rfl

theorem vredminiI (e : Bool) (d : BitVec 7) (a : BitVec 7) : Statement (.vredminiI e d a) := by
  intro _
  refine ⟨_, _, rfl, rfl, ?_, fun x => ?_⟩
  · simp only [hasSecond, packT_cls]; rfl
  · rw [decode_packT0 _ _ _ _ _ _ _ (by decide)]
    rfl

theorem vaddmod (e : Bool) (u : Bool) (d : BitVec 7) (a : BitVec 7) (b : BitVec 7) : Statement (.vaddmod e u d a b) := by
  intro _
  refine ⟨_, _, rfl, rfl, ?_, fun x => ?_⟩
  · simp only [hasSecond, packT_cls]; rfl
  · rw [decode_packT0 _ _ _ _ _ _ _ (by decide)]
    rfl

theorem vsubmod (e : Bool) (u : Bool) (d : BitVec 7) (a : BitVec 7) (b : BitVec 7) : Statement (.vsubmod e u d a b) := by
  intro _
  refine ⟨_, _, rfl, rfl, ?_, fun x => ?_⟩
  · simp only [hasSecond, packT_cls]; rfl
  · rw [decode_packT0 _ _ _ _ _ _ _ (by decide)]
    rfl

theorem vmulmod (e : Bool) (u : Bool) (d : BitVec 7) (a : BitVec 7) (b : BitVec 7) : Statement (.vmulmod e u d a b) := by
  intro _
  refine ⟨_, _, rfl, rfl, ?_, fun x => ?_⟩
  · simp only [hasSecond, packT_cls]; rfl
  · rw [decode_packT0 _ _ _ _ _ _ _ (by decide)]
    rfl

theorem vmacmod (e : Bool) (u : Bool) (d : BitVec 7) (a : BitVec 7) (b : BitVec 7) : Statement (.vmacmod e u d a b) := by
  intro _
  refine ⟨_, _, rfl, rfl, ?_, fun x => ?_⟩
  · simp only [hasSecond, packT_cls]; rfl
  · rw [decode_packT0 _ _ _ _ _ _ _ (by decide)]
    rfl

theorem vshape (e : Bool) (d : BitVec 7) (a : BitVec 7) : Statement (.vshape e d a) := by
  intro _
  refine ⟨_, _, rfl, rfl, ?_, fun x => ?_⟩
  · simp only [hasSecond, packT_cls]; rfl
  · rw [decode_packT0 _ _ _ _ _ _ _ (by decide)]
    rfl

theorem vgen (e : Bool) (d : BitVec 7) (a : BitVec 7) : Statement (.vgen e d a) := by
  intro _
  refine ⟨_, _, rfl, rfl, ?_, fun x => ?_⟩
  · simp only [hasSecond, packT_cls]; rfl
  · rw [decode_packT0 _ _ _ _ _ _ _ (by decide)]
    rfl

theorem vlop3 (e : Bool) (u : Bool) (d : BitVec 7) (a : BitVec 7) (b : BitVec 7) (c : BitVec 7) (k : BitVec 8) : Statement (.vlop3 e u d a b c k) := by
  intro _
  refine ⟨_, _, rfl, rfl, ?_, fun x => ?_⟩
  · simp only [hasSecond, packT_cls]; rfl
  · rw [decode_packT7 _ _ _ _ _ _ _ (by decide)]
    have hz : (0#17 ++ c ++ k : W32).toNat = c.toNat * 2 ^ 8 + k.toNat := by
      refine (toNat_app _ _).trans ?_
      simp only [toNat_app, BitVec.toNat_ofBool, BitVec.toNat_ofNat]; omega
    have h_c := c.isLt
    have h_k := k.isLt
    show decodeC7 _ _ _ _ _ _ (0#17 ++ c ++ k : W32) = _
    generalize (0#17 ++ c ++ k : W32) = z at hz ⊢
    have f1 : z.extractLsb' 15 17 = 0#17 := field_eq _ _ _ (by rw [hz]; simp only [BitVec.toNat_ofNat]; omega)
    have f2 : z.extractLsb' 8 7 = c := field_eq _ _ _ (by rw [hz]; omega)
    have f3 : z.extractLsb' 0 8 = k := field_eq _ _ _ (by rw [hz]; omega)
    simp only [decodeC7, f1, f2, f3]
    rfl

theorem mqld (e : Bool) (a : BitVec 7) (n : BitVec 3) : Statement (.mqld e a n) := by
  intro _
  refine ⟨_, _, rfl, rfl, ?_, fun x => ?_⟩
  · simp only [hasSecond, packT_cls]; rfl
  · rw [decode_packT7 _ _ _ _ _ _ _ (by decide)]
    have hz : (0#29 ++ n : W32).toNat = n.toNat := by
      refine (toNat_app _ _).trans ?_
      simp only [toNat_app, BitVec.toNat_ofBool, BitVec.toNat_ofNat]; omega
    have h_n := n.isLt
    show decodeC7 _ _ _ _ _ _ (0#29 ++ n : W32) = _
    generalize (0#29 ++ n : W32) = z at hz ⊢
    have f1 : z.extractLsb' 3 29 = 0#29 := field_eq _ _ _ (by rw [hz]; simp only [BitVec.toNat_ofNat]; omega)
    have f2 : z.extractLsb' 0 3 = n := field_eq _ _ _ (by rw [hz]; omega)
    simp only [decodeC7, f1, f2]
    rfl

theorem vfadd (e : Bool) (u : Bool) (d : BitVec 7) (a : BitVec 7) (b : BitVec 7) : Statement (.vfadd e u d a b) := by
  intro _
  refine ⟨_, _, rfl, rfl, ?_, fun x => ?_⟩
  · simp only [hasSecond, packT_cls]; rfl
  · rw [decode_packT1 _ _ _ _ _ _ _]
    rfl

theorem vfsub (e : Bool) (u : Bool) (d : BitVec 7) (a : BitVec 7) (b : BitVec 7) : Statement (.vfsub e u d a b) := by
  intro _
  refine ⟨_, _, rfl, rfl, ?_, fun x => ?_⟩
  · simp only [hasSecond, packT_cls]; rfl
  · rw [decode_packT1 _ _ _ _ _ _ _]
    rfl

theorem vfmul (e : Bool) (u : Bool) (d : BitVec 7) (a : BitVec 7) (b : BitVec 7) : Statement (.vfmul e u d a b) := by
  intro _
  refine ⟨_, _, rfl, rfl, ?_, fun x => ?_⟩
  · simp only [hasSecond, packT_cls]; rfl
  · rw [decode_packT1 _ _ _ _ _ _ _]
    rfl

theorem vffma (e : Bool) (u : Bool) (d : BitVec 7) (a : BitVec 7) (b : BitVec 7) : Statement (.vffma e u d a b) := by
  intro _
  refine ⟨_, _, rfl, rfl, ?_, fun x => ?_⟩
  · simp only [hasSecond, packT_cls]; rfl
  · rw [decode_packT1 _ _ _ _ _ _ _]
    rfl

theorem vfmin (e : Bool) (u : Bool) (d : BitVec 7) (a : BitVec 7) (b : BitVec 7) : Statement (.vfmin e u d a b) := by
  intro _
  refine ⟨_, _, rfl, rfl, ?_, fun x => ?_⟩
  · simp only [hasSecond, packT_cls]; rfl
  · rw [decode_packT1 _ _ _ _ _ _ _]
    rfl

theorem vfmax (e : Bool) (u : Bool) (d : BitVec 7) (a : BitVec 7) (b : BitVec 7) : Statement (.vfmax e u d a b) := by
  intro _
  refine ⟨_, _, rfl, rfl, ?_, fun x => ?_⟩
  · simp only [hasSecond, packT_cls]; rfl
  · rw [decode_packT1 _ _ _ _ _ _ _]
    rfl

theorem vfminn (e : Bool) (u : Bool) (d : BitVec 7) (a : BitVec 7) (b : BitVec 7) : Statement (.vfminn e u d a b) := by
  intro _
  refine ⟨_, _, rfl, rfl, ?_, fun x => ?_⟩
  · simp only [hasSecond, packT_cls]; rfl
  · rw [decode_packT1 _ _ _ _ _ _ _]
    rfl

theorem vfmaxn (e : Bool) (u : Bool) (d : BitVec 7) (a : BitVec 7) (b : BitVec 7) : Statement (.vfmaxn e u d a b) := by
  intro _
  refine ⟨_, _, rfl, rfl, ?_, fun x => ?_⟩
  · simp only [hasSecond, packT_cls]; rfl
  · rw [decode_packT1 _ _ _ _ _ _ _]
    rfl

theorem vfabs (e : Bool) (u : Bool) (d : BitVec 7) (a : BitVec 7) : Statement (.vfabs e u d a) := by
  intro _
  refine ⟨_, _, rfl, rfl, ?_, fun x => ?_⟩
  · simp only [hasSecond, packT_cls]; rfl
  · rw [decode_packT1 _ _ _ _ _ _ _]
    rfl

theorem vfneg (e : Bool) (u : Bool) (d : BitVec 7) (a : BitVec 7) : Statement (.vfneg e u d a) := by
  intro _
  refine ⟨_, _, rfl, rfl, ?_, fun x => ?_⟩
  · simp only [hasSecond, packT_cls]; rfl
  · rw [decode_packT1 _ _ _ _ _ _ _]
    rfl

theorem vfceq (e : Bool) (d : BitVec 7) (a : BitVec 7) (b : BitVec 7) : Statement (.vfceq e d a b) := by
  intro _
  refine ⟨_, _, rfl, rfl, ?_, fun x => ?_⟩
  · simp only [hasSecond, packT_cls]; rfl
  · rw [decode_packT1 _ _ _ _ _ _ _]
    rfl

theorem vfclt (e : Bool) (d : BitVec 7) (a : BitVec 7) (b : BitVec 7) : Statement (.vfclt e d a b) := by
  intro _
  refine ⟨_, _, rfl, rfl, ?_, fun x => ?_⟩
  · simp only [hasSecond, packT_cls]; rfl
  · rw [decode_packT1 _ _ _ _ _ _ _]
    rfl

theorem vfcle (e : Bool) (d : BitVec 7) (a : BitVec 7) (b : BitVec 7) : Statement (.vfcle e d a b) := by
  intro _
  refine ⟨_, _, rfl, rfl, ?_, fun x => ?_⟩
  · simp only [hasSecond, packT_cls]; rfl
  · rw [decode_packT1 _ _ _ _ _ _ _]
    rfl

theorem vfcun (e : Bool) (d : BitVec 7) (a : BitVec 7) (b : BitVec 7) : Statement (.vfcun e d a b) := by
  intro _
  refine ⟨_, _, rfl, rfl, ?_, fun x => ?_⟩
  · simp only [hasSecond, packT_cls]; rfl
  · rw [decode_packT1 _ _ _ _ _ _ _]
    rfl

theorem vfrcp (e : Bool) (u : Bool) (d : BitVec 7) (a : BitVec 7) : Statement (.vfrcp e u d a) := by
  intro _
  refine ⟨_, _, rfl, rfl, ?_, fun x => ?_⟩
  · simp only [hasSecond, packT_cls]; rfl
  · rw [decode_packT1 _ _ _ _ _ _ _]
    rfl

theorem vfrsq (e : Bool) (u : Bool) (d : BitVec 7) (a : BitVec 7) : Statement (.vfrsq e u d a) := by
  intro _
  refine ⟨_, _, rfl, rfl, ?_, fun x => ?_⟩
  · simp only [hasSecond, packT_cls]; rfl
  · rw [decode_packT1 _ _ _ _ _ _ _]
    rfl

theorem vfsqrt (e : Bool) (u : Bool) (d : BitVec 7) (a : BitVec 7) : Statement (.vfsqrt e u d a) := by
  intro _
  refine ⟨_, _, rfl, rfl, ?_, fun x => ?_⟩
  · simp only [hasSecond, packT_cls]; rfl
  · rw [decode_packT1 _ _ _ _ _ _ _]
    rfl

theorem vfdiv (e : Bool) (u : Bool) (d : BitVec 7) (a : BitVec 7) (b : BitVec 7) : Statement (.vfdiv e u d a b) := by
  intro _
  refine ⟨_, _, rfl, rfl, ?_, fun x => ?_⟩
  · simp only [hasSecond, packT_cls]; rfl
  · rw [decode_packT1 _ _ _ _ _ _ _]
    rfl

theorem vfexp2 (e : Bool) (u : Bool) (d : BitVec 7) (a : BitVec 7) : Statement (.vfexp2 e u d a) := by
  intro _
  refine ⟨_, _, rfl, rfl, ?_, fun x => ?_⟩
  · simp only [hasSecond, packT_cls]; rfl
  · rw [decode_packT1 _ _ _ _ _ _ _]
    rfl

theorem vflog2 (e : Bool) (u : Bool) (d : BitVec 7) (a : BitVec 7) : Statement (.vflog2 e u d a) := by
  intro _
  refine ⟨_, _, rfl, rfl, ?_, fun x => ?_⟩
  · simp only [hasSecond, packT_cls]; rfl
  · rw [decode_packT1 _ _ _ _ _ _ _]
    rfl

theorem vfaddX (e : Bool) (u : Bool) (d : BitVec 7) (a : BitVec 7) (b : BitVec 7) : Statement (.vfaddX e u d a b) := by
  intro _
  refine ⟨_, _, rfl, rfl, ?_, fun x => ?_⟩
  · simp only [hasSecond, packT_cls]; rfl
  · rw [decode_packT1 _ _ _ _ _ _ _]
    rfl

theorem vfsubX (e : Bool) (u : Bool) (d : BitVec 7) (a : BitVec 7) (b : BitVec 7) : Statement (.vfsubX e u d a b) := by
  intro _
  refine ⟨_, _, rfl, rfl, ?_, fun x => ?_⟩
  · simp only [hasSecond, packT_cls]; rfl
  · rw [decode_packT1 _ _ _ _ _ _ _]
    rfl

theorem vfmulX (e : Bool) (u : Bool) (d : BitVec 7) (a : BitVec 7) (b : BitVec 7) : Statement (.vfmulX e u d a b) := by
  intro _
  refine ⟨_, _, rfl, rfl, ?_, fun x => ?_⟩
  · simp only [hasSecond, packT_cls]; rfl
  · rw [decode_packT1 _ _ _ _ _ _ _]
    rfl

theorem vdwadd (e : Bool) (u : Bool) (d : BitVec 7) (a : BitVec 7) (b : BitVec 7) : Statement (.vdwadd e u d a b) := by
  intro _
  refine ⟨_, _, rfl, rfl, ?_, fun x => ?_⟩
  · simp only [hasSecond, packT_cls]; rfl
  · rw [decode_packT1 _ _ _ _ _ _ _]
    rfl

theorem vdwsub (e : Bool) (u : Bool) (d : BitVec 7) (a : BitVec 7) (b : BitVec 7) : Statement (.vdwsub e u d a b) := by
  intro _
  refine ⟨_, _, rfl, rfl, ?_, fun x => ?_⟩
  · simp only [hasSecond, packT_cls]; rfl
  · rw [decode_packT1 _ _ _ _ _ _ _]
    rfl

theorem vdwmul (e : Bool) (u : Bool) (d : BitVec 7) (a : BitVec 7) (b : BitVec 7) : Statement (.vdwmul e u d a b) := by
  intro _
  refine ⟨_, _, rfl, rfl, ?_, fun x => ?_⟩
  · simp only [hasSecond, packT_cls]; rfl
  · rw [decode_packT1 _ _ _ _ _ _ _]
    rfl

theorem vdwmulf (e : Bool) (u : Bool) (d : BitVec 7) (a : BitVec 7) (b : BitVec 7) : Statement (.vdwmulf e u d a b) := by
  intro _
  refine ⟨_, _, rfl, rfl, ?_, fun x => ?_⟩
  · simp only [hasSecond, packT_cls]; rfl
  · rw [decode_packT1 _ _ _ _ _ _ _]
    rfl

theorem vdwren (e : Bool) (u : Bool) (d : BitVec 7) (a : BitVec 7) : Statement (.vdwren e u d a) := by
  intro _
  refine ⟨_, _, rfl, rfl, ?_, fun x => ?_⟩
  · simp only [hasSecond, packT_cls]; rfl
  · rw [decode_packT1 _ _ _ _ _ _ _]
    rfl

theorem vfredAdd (e : Bool) (d : BitVec 7) (a : BitVec 7) : Statement (.vfredAdd e d a) := by
  intro _
  refine ⟨_, _, rfl, rfl, ?_, fun x => ?_⟩
  · simp only [hasSecond, packT_cls]; rfl
  · rw [decode_packT1 _ _ _ _ _ _ _]
    rfl

theorem vfredX (e : Bool) (d : BitVec 7) (a : BitVec 7) : Statement (.vfredX e d a) := by
  intro _
  refine ⟨_, _, rfl, rfl, ?_, fun x => ?_⟩
  · simp only [hasSecond, packT_cls]; rfl
  · rw [decode_packT1 _ _ _ _ _ _ _]
    rfl

theorem vfredmaxi (e : Bool) (d : BitVec 7) (a : BitVec 7) : Statement (.vfredmaxi e d a) := by
  intro _
  refine ⟨_, _, rfl, rfl, ?_, fun x => ?_⟩
  · simp only [hasSecond, packT_cls]; rfl
  · rw [decode_packT1 _ _ _ _ _ _ _]
    rfl

theorem vfredmini (e : Bool) (d : BitVec 7) (a : BitVec 7) : Statement (.vfredmini e d a) := by
  intro _
  refine ⟨_, _, rfl, rfl, ?_, fun x => ?_⟩
  · simp only [hasSecond, packT_cls]; rfl
  · rw [decode_packT1 _ _ _ _ _ _ _]
    rfl

theorem vfscanAdd (e : Bool) (d : BitVec 7) (a : BitVec 7) : Statement (.vfscanAdd e d a) := by
  intro _
  refine ⟨_, _, rfl, rfl, ?_, fun x => ?_⟩
  · simp only [hasSecond, packT_cls]; rfl
  · rw [decode_packT1 _ _ _ _ _ _ _]
    rfl

theorem vhaddBf (e : Bool) (u : Bool) (d : BitVec 7) (a : BitVec 7) (b : BitVec 7) : Statement (.vhaddBf e u d a b) := by
  intro _
  refine ⟨_, _, rfl, rfl, ?_, fun x => ?_⟩
  · simp only [hasSecond, packT_cls]; rfl
  · rw [decode_packT1 _ _ _ _ _ _ _]
    rfl

theorem vhmulBf (e : Bool) (u : Bool) (d : BitVec 7) (a : BitVec 7) (b : BitVec 7) : Statement (.vhmulBf e u d a b) := by
  intro _
  refine ⟨_, _, rfl, rfl, ?_, fun x => ?_⟩
  · simp only [hasSecond, packT_cls]; rfl
  · rw [decode_packT1 _ _ _ _ _ _ _]
    rfl

theorem vhfmaBf (e : Bool) (u : Bool) (d : BitVec 7) (a : BitVec 7) (b : BitVec 7) : Statement (.vhfmaBf e u d a b) := by
  intro _
  refine ⟨_, _, rfl, rfl, ?_, fun x => ?_⟩
  · simp only [hasSecond, packT_cls]; rfl
  · rw [decode_packT1 _ _ _ _ _ _ _]
    rfl

theorem vhaddH (e : Bool) (u : Bool) (d : BitVec 7) (a : BitVec 7) (b : BitVec 7) : Statement (.vhaddH e u d a b) := by
  intro _
  refine ⟨_, _, rfl, rfl, ?_, fun x => ?_⟩
  · simp only [hasSecond, packT_cls]; rfl
  · rw [decode_packT1 _ _ _ _ _ _ _]
    rfl

theorem vhmulH (e : Bool) (u : Bool) (d : BitVec 7) (a : BitVec 7) (b : BitVec 7) : Statement (.vhmulH e u d a b) := by
  intro _
  refine ⟨_, _, rfl, rfl, ?_, fun x => ?_⟩
  · simp only [hasSecond, packT_cls]; rfl
  · rw [decode_packT1 _ _ _ _ _ _ _]
    rfl

theorem vhfmaH (e : Bool) (u : Bool) (d : BitVec 7) (a : BitVec 7) (b : BitVec 7) : Statement (.vhfmaH e u d a b) := by
  intro _
  refine ⟨_, _, rfl, rfl, ?_, fun x => ?_⟩
  · simp only [hasSecond, packT_cls]; rfl
  · rw [decode_packT1 _ _ _ _ _ _ _]
    rfl

theorem vhdotBf (e : Bool) (u : Bool) (d : BitVec 7) (a : BitVec 7) (b : BitVec 7) : Statement (.vhdotBf e u d a b) := by
  intro _
  refine ⟨_, _, rfl, rfl, ?_, fun x => ?_⟩
  · simp only [hasSecond, packT_cls]; rfl
  · rw [decode_packT1 _ _ _ _ _ _ _]
    rfl

theorem vcvt (e : Bool) (u : Bool) (d : BitVec 7) (a : BitVec 7) (s : BitVec 7) : Statement (.vcvt e u d a s) := by
  intro _
  refine ⟨_, _, rfl, rfl, ?_, fun x => ?_⟩
  · simp only [hasSecond, packT_cls]; rfl
  · rw [decode_packT1 _ _ _ _ _ _ _]
    rfl

theorem vfclass (e : Bool) (u : Bool) (d : BitVec 7) (a : BitVec 7) : Statement (.vfclass e u d a) := by
  intro _
  refine ⟨_, _, rfl, rfl, ?_, fun x => ?_⟩
  · simp only [hasSecond, packT_cls]; rfl
  · rw [decode_packT1 _ _ _ _ _ _ _]
    rfl

theorem vfscale (e : Bool) (u : Bool) (d : BitVec 7) (a : BitVec 7) (b : BitVec 7) : Statement (.vfscale e u d a b) := by
  intro _
  refine ⟨_, _, rfl, rfl, ?_, fun x => ?_⟩
  · simp only [hasSecond, packT_cls]; rfl
  · rw [decode_packT1 _ _ _ _ _ _ _]
    rfl

theorem vsaddS16 (e : Bool) (d : BitVec 7) (a : BitVec 7) (b : BitVec 7) : Statement (.vsaddS16 e d a b) := by
  intro _
  refine ⟨_, _, rfl, rfl, ?_, fun x => ?_⟩
  · simp only [hasSecond, packT_cls]; rfl
  · rw [decode_packT2 _ _ _ _ _ _ _]
    rfl

theorem vssubS16 (e : Bool) (d : BitVec 7) (a : BitVec 7) (b : BitVec 7) : Statement (.vssubS16 e d a b) := by
  intro _
  refine ⟨_, _, rfl, rfl, ?_, fun x => ?_⟩
  · simp only [hasSecond, packT_cls]; rfl
  · rw [decode_packT2 _ _ _ _ _ _ _]
    rfl

theorem vsaddS32 (e : Bool) (d : BitVec 7) (a : BitVec 7) (b : BitVec 7) : Statement (.vsaddS32 e d a b) := by
  intro _
  refine ⟨_, _, rfl, rfl, ?_, fun x => ?_⟩
  · simp only [hasSecond, packT_cls]; rfl
  · rw [decode_packT2 _ _ _ _ _ _ _]
    rfl

theorem vssubS32 (e : Bool) (d : BitVec 7) (a : BitVec 7) (b : BitVec 7) : Statement (.vssubS32 e d a b) := by
  intro _
  refine ⟨_, _, rfl, rfl, ?_, fun x => ?_⟩
  · simp only [hasSecond, packT_cls]; rfl
  · rw [decode_packT2 _ _ _ _ _ _ _]
    rfl

theorem vsaddpS16 (e : Bool) (d : BitVec 7) (a : BitVec 7) (b : BitVec 7) : Statement (.vsaddpS16 e d a b) := by
  intro _
  refine ⟨_, _, rfl, rfl, ?_, fun x => ?_⟩
  · simp only [hasSecond, packT_cls]; rfl
  · rw [decode_packT2 _ _ _ _ _ _ _]
    rfl

theorem vsaddpS32 (e : Bool) (d : BitVec 7) (a : BitVec 7) (b : BitVec 7) : Statement (.vsaddpS32 e d a b) := by
  intro _
  refine ⟨_, _, rfl, rfl, ?_, fun x => ?_⟩
  · simp only [hasSecond, packT_cls]; rfl
  · rw [decode_packT2 _ _ _ _ _ _ _]
    rfl

theorem vsmulpS16 (e : Bool) (d : BitVec 7) (a : BitVec 7) (b : BitVec 7) : Statement (.vsmulpS16 e d a b) := by
  intro _
  refine ⟨_, _, rfl, rfl, ?_, fun x => ?_⟩
  · simp only [hasSecond, packT_cls]; rfl
  · rw [decode_packT2 _ _ _ _ _ _ _]
    rfl

theorem vsmulpS32 (e : Bool) (d : BitVec 7) (a : BitVec 7) (b : BitVec 7) : Statement (.vsmulpS32 e d a b) := by
  intro _
  refine ⟨_, _, rfl, rfl, ?_, fun x => ?_⟩
  · simp only [hasSecond, packT_cls]; rfl
  · rw [decode_packT2 _ _ _ _ _ _ _]
    rfl

theorem vsmulS16 (e : Bool) (d : BitVec 7) (a : BitVec 7) (b : BitVec 7) : Statement (.vsmulS16 e d a b) := by
  intro _
  refine ⟨_, _, rfl, rfl, ?_, fun x => ?_⟩
  · simp only [hasSecond, packT_cls]; rfl
  · rw [decode_packT2 _ _ _ _ _ _ _]
    rfl

theorem vsmulS32 (e : Bool) (d : BitVec 7) (a : BitVec 7) (b : BitVec 7) : Statement (.vsmulS32 e d a b) := by
  intro _
  refine ⟨_, _, rfl, rfl, ?_, fun x => ?_⟩
  · simp only [hasSecond, packT_cls]; rfl
  · rw [decode_packT2 _ _ _ _ _ _ _]
    rfl

theorem vstruncS16 (e : Bool) (d : BitVec 7) (a : BitVec 7) (f : BitVec 7) : Statement (.vstruncS16 e d a f) := by
  intro _
  refine ⟨_, _, rfl, rfl, ?_, fun x => ?_⟩
  · simp only [hasSecond, packT_cls]; rfl
  · rw [decode_packT2 _ _ _ _ _ _ _]
    rfl

theorem vstruncS32 (e : Bool) (d : BitVec 7) (a : BitVec 7) (f : BitVec 7) : Statement (.vstruncS32 e d a f) := by
  intro _
  refine ⟨_, _, rfl, rfl, ?_, fun x => ?_⟩
  · simp only [hasSecond, packT_cls]; rfl
  · rw [decode_packT2 _ _ _ _ _ _ _]
    rfl

theorem vsltzS16 (e : Bool) (d : BitVec 7) (a : BitVec 7) : Statement (.vsltzS16 e d a) := by
  intro _
  refine ⟨_, _, rfl, rfl, ?_, fun x => ?_⟩
  · simp only [hasSecond, packT_cls]; rfl
  · rw [decode_packT2 _ _ _ _ _ _ _]
    rfl

theorem vsltzS32 (e : Bool) (d : BitVec 7) (a : BitVec 7) : Statement (.vsltzS32 e d a) := by
  intro _
  refine ⟨_, _, rfl, rfl, ?_, fun x => ?_⟩
  · simp only [hasSecond, packT_cls]; rfl
  · rw [decode_packT2 _ _ _ _ _ _ _]
    rfl

theorem vsb2aS16 (e : Bool) (d : BitVec 7) (a : BitVec 7) : Statement (.vsb2aS16 e d a) := by
  intro _
  refine ⟨_, _, rfl, rfl, ?_, fun x => ?_⟩
  · simp only [hasSecond, packT_cls]; rfl
  · rw [decode_packT2 _ _ _ _ _ _ _]
    rfl

theorem vsb2aS32 (e : Bool) (d : BitVec 7) (a : BitVec 7) : Statement (.vsb2aS32 e d a) := by
  intro _
  refine ⟨_, _, rfl, rfl, ?_, fun x => ?_⟩
  · simp only [hasSecond, packT_cls]; rfl
  · rw [decode_packT2 _ _ _ _ _ _ _]
    rfl

theorem vsxorB (e : Bool) (d : BitVec 7) (a : BitVec 7) (b : BitVec 7) : Statement (.vsxorB e d a b) := by
  intro _
  refine ⟨_, _, rfl, rfl, ?_, fun x => ?_⟩
  · simp only [hasSecond, packT_cls]; rfl
  · rw [decode_packT2 _ _ _ _ _ _ _]
    rfl

theorem vsandB (e : Bool) (d : BitVec 7) (a : BitVec 7) (b : BitVec 7) : Statement (.vsandB e d a b) := by
  intro _
  refine ⟨_, _, rfl, rfl, ?_, fun x => ?_⟩
  · simp only [hasSecond, packT_cls]; rfl
  · rw [decode_packT2 _ _ _ _ _ _ _]
    rfl

theorem vsopenS16 (e : Bool) (d : BitVec 7) (a : BitVec 7) : Statement (.vsopenS16 e d a) := by
  intro _
  refine ⟨_, _, rfl, rfl, ?_, fun x => ?_⟩
  · simp only [hasSecond, packT_cls]; rfl
  · rw [decode_packT2 _ _ _ _ _ _ _]
    rfl

theorem vsopenS32 (e : Bool) (d : BitVec 7) (a : BitVec 7) : Statement (.vsopenS32 e d a) := by
  intro _
  refine ⟨_, _, rfl, rfl, ?_, fun x => ?_⟩
  · simp only [hasSecond, packT_cls]; rfl
  · rw [decode_packT2 _ _ _ _ _ _ _]
    rfl

theorem vsredS16 (e : Bool) (d : BitVec 7) (a : BitVec 7) : Statement (.vsredS16 e d a) := by
  intro _
  refine ⟨_, _, rfl, rfl, ?_, fun x => ?_⟩
  · simp only [hasSecond, packT_cls]; rfl
  · rw [decode_packT2 _ _ _ _ _ _ _]
    rfl

theorem vsredS32 (e : Bool) (d : BitVec 7) (a : BitVec 7) : Statement (.vsredS32 e d a) := by
  intro _
  refine ⟨_, _, rfl, rfl, ?_, fun x => ?_⟩
  · simp only [hasSecond, packT_cls]; rfl
  · rw [decode_packT2 _ _ _ _ _ _ _]
    rfl

theorem cbind (e : Bool) (d : BitVec 7) (a : BitVec 7) : Statement (.cbind e d a) := by
  intro _
  refine ⟨_, _, rfl, rfl, ?_, fun x => ?_⟩
  · simp only [hasSecond, packT_cls]; rfl
  · rw [decode_packT2 _ _ _ _ _ _ _]
    rfl

theorem csend (e : Bool) (d : BitVec 7) (k : BitVec 7) (b : BitVec 7) : Statement (.csend e d k b) := by
  intro _
  refine ⟨_, _, rfl, rfl, ?_, fun x => ?_⟩
  · simp only [hasSecond, packT_cls]; rfl
  · rw [decode_packT2 _ _ _ _ _ _ _]
    rfl

theorem crecv (e : Bool) (d : BitVec 7) (a : BitVec 7) (k : BitVec 7) : Statement (.crecv e d a k) := by
  intro _
  refine ⟨_, _, rfl, rfl, ?_, fun x => ?_⟩
  · simp only [hasSecond, packT_cls]; rfl
  · rw [decode_packT2 _ _ _ _ _ _ _]
    rfl

theorem cchoose (e : Bool) (d : BitVec 7) (k : BitVec 7) (b : BitVec 7) : Statement (.cchoose e d k b) := by
  intro _
  refine ⟨_, _, rfl, rfl, ?_, fun x => ?_⟩
  · simp only [hasSecond, packT_cls]; rfl
  · rw [decode_packT2 _ _ _ _ _ _ _]
    rfl

theorem cdeleg (e : Bool) (d : BitVec 7) (a : BitVec 7) : Statement (.cdeleg e d a) := by
  intro _
  refine ⟨_, _, rfl, rfl, ?_, fun x => ?_⟩
  · simp only [hasSecond, packT_cls]; rfl
  · rw [decode_packT2 _ _ _ _ _ _ _]
    rfl

theorem cstate (e : Bool) (d : BitVec 7) (a : BitVec 7) : Statement (.cstate e d a) := by
  intro _
  refine ⟨_, _, rfl, rfl, ?_, fun x => ?_⟩
  · simp only [hasSecond, packT_cls]; rfl
  · rw [decode_packT2 _ _ _ _ _ _ _]
    rfl

theorem cabort (e : Bool) (d : BitVec 7) : Statement (.cabort e d) := by
  intro _
  refine ⟨_, _, rfl, rfl, ?_, fun x => ?_⟩
  · simp only [hasSecond, packT_cls]; rfl
  · rw [decode_packT2 _ _ _ _ _ _ _]
    rfl

theorem tlevel (e : Bool) (d : BitVec 7) (a : BitVec 7) : Statement (.tlevel e d a) := by
  intro _
  refine ⟨_, _, rfl, rfl, ?_, fun x => ?_⟩
  · simp only [hasSecond, packT_cls]; rfl
  · rw [decode_packT2 _ _ _ _ _ _ _]
    rfl

theorem tfillSend (e : Bool) (d : BitVec 7) (a : BitVec 7) (b : BitVec 7) (q : BitVec 2) (dst : BitVec 2) : Statement (.tfillSend e d a b q dst) := by
  intro h
  refine ⟨_, _, rfl, rfl, ?_, fun x => ?_⟩
  · simp only [hasSecond, packT_cls]; rfl
  · rw [decode_packT7 _ _ _ _ _ _ _ (by decide)]
    have hz : (0#20 ++ 0#1 ++ 0#1 ++ q ++ 0#6 ++ dst : W32).toNat = q.toNat * 2 ^ 8 + dst.toNat := by
      refine (toNat_app _ _).trans ?_
      simp only [toNat_app, BitVec.toNat_ofBool, BitVec.toNat_ofNat]; omega
    have h_q := q.isLt
    have h_dst := dst.isLt
    show decodeC7 _ _ _ _ _ _ (0#20 ++ 0#1 ++ 0#1 ++ q ++ 0#6 ++ dst : W32) = _
    generalize (0#20 ++ 0#1 ++ 0#1 ++ q ++ 0#6 ++ dst : W32) = z at hz ⊢
    have f1 : z.extractLsb' 12 20 = 0#20 := field_eq _ _ _ (by rw [hz]; simp only [BitVec.toNat_ofNat]; omega)
    have f2 : z.extractLsb' 10 1 = 0#1 := field_eq _ _ _ (by rw [hz]; simp only [BitVec.toNat_ofNat]; omega)
    have f3 : z.extractLsb' 2 6 = 0#6 := field_eq _ _ _ (by rw [hz]; simp only [BitVec.toNat_ofNat]; omega)
    have f4 : z.extractLsb' 8 2 = q := field_eq _ _ _ (by rw [hz]; omega)
    have f5 : z.extractLsb' 0 2 = dst := field_eq _ _ _ (by rw [hz]; omega)
    have f6 : z.getLsbD 11 = false := bit_eq _ _ _ (by rw [hz]; simp only [Bool.toNat_false, Bool.toNat_true]; omega)
    simp only [decodeC7, f1, f2, f3, f4, f5, f6]
    simp [zb, noOnce, two, h, Instr.two]

theorem tfillAccept (e : Bool) (d : BitVec 7) (a : BitVec 7) (b : BitVec 7) (q : BitVec 2) : Statement (.tfillAccept e d a b q) := by
  intro h
  refine ⟨_, _, rfl, rfl, ?_, fun x => ?_⟩
  · simp only [hasSecond, packT_cls]; rfl
  · rw [decode_packT7 _ _ _ _ _ _ _ (by decide)]
    have hz : (0#20 ++ 1#1 ++ 0#1 ++ q ++ 0#6 ++ 0#2 : W32).toNat = 1 * 2 ^ 11 + q.toNat * 2 ^ 8 := by
      refine (toNat_app _ _).trans ?_
      simp only [toNat_app, BitVec.toNat_ofBool, BitVec.toNat_ofNat]; omega
    have h_q := q.isLt
    show decodeC7 _ _ _ _ _ _ (0#20 ++ 1#1 ++ 0#1 ++ q ++ 0#6 ++ 0#2 : W32) = _
    generalize (0#20 ++ 1#1 ++ 0#1 ++ q ++ 0#6 ++ 0#2 : W32) = z at hz ⊢
    have f1 : z.extractLsb' 12 20 = 0#20 := field_eq _ _ _ (by rw [hz]; simp only [BitVec.toNat_ofNat]; omega)
    have f2 : z.extractLsb' 10 1 = 0#1 := field_eq _ _ _ (by rw [hz]; simp only [BitVec.toNat_ofNat]; omega)
    have f3 : z.extractLsb' 0 8 = 0#8 := field_eq _ _ _ (by rw [hz]; simp only [BitVec.toNat_ofNat]; omega)
    have f4 : z.extractLsb' 8 2 = q := field_eq _ _ _ (by rw [hz]; omega)
    have f5 : z.getLsbD 11 = true := bit_eq _ _ _ (by rw [hz]; simp only [Bool.toNat_false, Bool.toNat_true]; omega)
    simp only [decodeC7, f1, f2, f3, f4, f5]
    simp [zb, noOnce, two, h, Instr.two]

theorem tburn (e : Bool) (d : BitVec 7) (a : BitVec 7) (q : BitVec 2) : Statement (.tburn e d a q) := by
  intro h
  refine ⟨_, _, rfl, rfl, ?_, fun x => ?_⟩
  · simp only [hasSecond, packT_cls]; rfl
  · rw [decode_packT7 _ _ _ _ _ _ _ (by decide)]
    have hz : (0#22 ++ q ++ 0#8 : W32).toNat = q.toNat * 2 ^ 8 := by
      refine (toNat_app _ _).trans ?_
      simp only [toNat_app, BitVec.toNat_ofBool, BitVec.toNat_ofNat]; omega
    have h_q := q.isLt
    show decodeC7 _ _ _ _ _ _ (0#22 ++ q ++ 0#8 : W32) = _
    generalize (0#22 ++ q ++ 0#8 : W32) = z at hz ⊢
    have f1 : z.extractLsb' 10 22 = 0#22 := field_eq _ _ _ (by rw [hz]; simp only [BitVec.toNat_ofNat]; omega)
    have f2 : z.extractLsb' 0 8 = 0#8 := field_eq _ _ _ (by rw [hz]; simp only [BitVec.toNat_ofNat]; omega)
    have f3 : z.extractLsb' 8 2 = q := field_eq _ _ _ (by rw [hz]; omega)
    simp only [decodeC7, f1, f2, f3]
    simp [zf, zb, noOnce, two, h, Instr.two]

theorem xopen (e : Bool) (d : BitVec 7) (a : BitVec 7) (b : BitVec 7) (ty : Bool) (dsp : Bool) (ssp : Bool) : Statement (.xopen e d a b ty dsp ssp) := by
  intro _
  refine ⟨_, _, rfl, rfl, ?_, fun x => ?_⟩
  · simp only [hasSecond, packT_cls]; rfl
  · rw [decode_packT7 _ _ _ _ _ _ _ (by decide)]
    have hz : (0#28 ++ BitVec.ofBool ty ++ BitVec.ofBool dsp ++ BitVec.ofBool ssp ++ 0#1 : W32).toNat = ty.toNat * 2 ^ 3 + dsp.toNat * 2 ^ 2 + ssp.toNat * 2 ^ 1 := by
      refine (toNat_app _ _).trans ?_
      simp only [toNat_app, BitVec.toNat_ofBool, BitVec.toNat_ofNat]; omega
    have h_ty := Bool.toNat_lt ty
    have h_dsp := Bool.toNat_lt dsp
    have h_ssp := Bool.toNat_lt ssp
    show decodeC7 _ _ _ _ _ _ (0#28 ++ BitVec.ofBool ty ++ BitVec.ofBool dsp ++ BitVec.ofBool ssp ++ 0#1 : W32) = _
    generalize (0#28 ++ BitVec.ofBool ty ++ BitVec.ofBool dsp ++ BitVec.ofBool ssp ++ 0#1 : W32) = z at hz ⊢
    have f1 : z.extractLsb' 4 28 = 0#28 := field_eq _ _ _ (by rw [hz]; simp only [BitVec.toNat_ofNat]; omega)
    have f2 : z.extractLsb' 0 1 = 0#1 := field_eq _ _ _ (by rw [hz]; simp only [BitVec.toNat_ofNat]; omega)
    have f3 : z.getLsbD 3 = ty := bit_eq _ _ _ (by rw [hz]; omega)
    have f4 : z.getLsbD 2 = dsp := bit_eq _ _ _ (by rw [hz]; omega)
    have f5 : z.getLsbD 1 = ssp := bit_eq _ _ _ (by rw [hz]; omega)
    simp only [decodeC7, f1, f2, f3, f4, f5]
    rfl

theorem sadd (e : Bool) (d : BitVec 7) (a : BitVec 7) (b : BitVec 7) : Statement (.sadd e d a b) := by
  intro _
  refine ⟨_, _, rfl, rfl, ?_, fun x => ?_⟩
  · simp only [hasSecond, packT_cls]; rfl
  · rw [decode_packT3 _ _ _ _ _ _ _]
    rfl

theorem ssub (e : Bool) (d : BitVec 7) (a : BitVec 7) (b : BitVec 7) : Statement (.ssub e d a b) := by
  intro _
  refine ⟨_, _, rfl, rfl, ?_, fun x => ?_⟩
  · simp only [hasSecond, packT_cls]; rfl
  · rw [decode_packT3 _ _ _ _ _ _ _]
    rfl

theorem smul (e : Bool) (d : BitVec 7) (a : BitVec 7) (b : BitVec 7) : Statement (.smul e d a b) := by
  intro _
  refine ⟨_, _, rfl, rfl, ?_, fun x => ?_⟩
  · simp only [hasSecond, packT_cls]; rfl
  · rw [decode_packT3 _ _ _ _ _ _ _]
    rfl

theorem smulhiN (e : Bool) (d : BitVec 7) (a : BitVec 7) (b : BitVec 7) : Statement (.smulhiN e d a b) := by
  intro _
  refine ⟨_, _, rfl, rfl, ?_, fun x => ?_⟩
  · simp only [hasSecond, packT_cls]; rfl
  · rw [decode_packT3 _ _ _ _ _ _ _]
    rfl

theorem sand (e : Bool) (d : BitVec 7) (a : BitVec 7) (b : BitVec 7) : Statement (.sand e d a b) := by
  intro _
  refine ⟨_, _, rfl, rfl, ?_, fun x => ?_⟩
  · simp only [hasSecond, packT_cls]; rfl
  · rw [decode_packT3 _ _ _ _ _ _ _]
    rfl

theorem sor (e : Bool) (d : BitVec 7) (a : BitVec 7) (b : BitVec 7) : Statement (.sor e d a b) := by
  intro _
  refine ⟨_, _, rfl, rfl, ?_, fun x => ?_⟩
  · simp only [hasSecond, packT_cls]; rfl
  · rw [decode_packT3 _ _ _ _ _ _ _]
    rfl

theorem sxor (e : Bool) (d : BitVec 7) (a : BitVec 7) (b : BitVec 7) : Statement (.sxor e d a b) := by
  intro _
  refine ⟨_, _, rfl, rfl, ?_, fun x => ?_⟩
  · simp only [hasSecond, packT_cls]; rfl
  · rw [decode_packT3 _ _ _ _ _ _ _]
    rfl

theorem sandn (e : Bool) (d : BitVec 7) (a : BitVec 7) (b : BitVec 7) : Statement (.sandn e d a b) := by
  intro _
  refine ⟨_, _, rfl, rfl, ?_, fun x => ?_⟩
  · simp only [hasSecond, packT_cls]; rfl
  · rw [decode_packT3 _ _ _ _ _ _ _]
    rfl

theorem sshl (e : Bool) (d : BitVec 7) (a : BitVec 7) (b : BitVec 7) : Statement (.sshl e d a b) := by
  intro _
  refine ⟨_, _, rfl, rfl, ?_, fun x => ?_⟩
  · simp only [hasSecond, packT_cls]; rfl
  · rw [decode_packT3 _ _ _ _ _ _ _]
    rfl

theorem sshrN (e : Bool) (d : BitVec 7) (a : BitVec 7) (b : BitVec 7) : Statement (.sshrN e d a b) := by
  intro _
  refine ⟨_, _, rfl, rfl, ?_, fun x => ?_⟩
  · simp only [hasSecond, packT_cls]; rfl
  · rw [decode_packT3 _ _ _ _ _ _ _]
    rfl

theorem sshrI (e : Bool) (d : BitVec 7) (a : BitVec 7) (b : BitVec 7) : Statement (.sshrI e d a b) := by
  intro _
  refine ⟨_, _, rfl, rfl, ?_, fun x => ?_⟩
  · simp only [hasSecond, packT_cls]; rfl
  · rw [decode_packT3 _ _ _ _ _ _ _]
    rfl

theorem sceq (e : Bool) (d : BitVec 7) (a : BitVec 7) (b : BitVec 7) : Statement (.sceq e d a b) := by
  intro _
  refine ⟨_, _, rfl, rfl, ?_, fun x => ?_⟩
  · simp only [hasSecond, packT_cls]; rfl
  · rw [decode_packT3 _ _ _ _ _ _ _]
    rfl

theorem scltI (e : Bool) (d : BitVec 7) (a : BitVec 7) (b : BitVec 7) : Statement (.scltI e d a b) := by
  intro _
  refine ⟨_, _, rfl, rfl, ?_, fun x => ?_⟩
  · simp only [hasSecond, packT_cls]; rfl
  · rw [decode_packT3 _ _ _ _ _ _ _]
    rfl

theorem scltN (e : Bool) (d : BitVec 7) (a : BitVec 7) (b : BitVec 7) : Statement (.scltN e d a b) := by
  intro _
  refine ⟨_, _, rfl, rfl, ?_, fun x => ?_⟩
  · simp only [hasSecond, packT_cls]; rfl
  · rw [decode_packT3 _ _ _ _ _ _ _]
    rfl

theorem sminI (e : Bool) (d : BitVec 7) (a : BitVec 7) (b : BitVec 7) : Statement (.sminI e d a b) := by
  intro _
  refine ⟨_, _, rfl, rfl, ?_, fun x => ?_⟩
  · simp only [hasSecond, packT_cls]; rfl
  · rw [decode_packT3 _ _ _ _ _ _ _]
    rfl

theorem smaxI (e : Bool) (d : BitVec 7) (a : BitVec 7) (b : BitVec 7) : Statement (.smaxI e d a b) := by
  intro _
  refine ⟨_, _, rfl, rfl, ?_, fun x => ?_⟩
  · simp only [hasSecond, packT_cls]; rfl
  · rw [decode_packT3 _ _ _ _ _ _ _]
    rfl

theorem smov (e : Bool) (d : BitVec 7) (a : BitVec 7) : Statement (.smov e d a) := by
  intro _
  refine ⟨_, _, rfl, rfl, ?_, fun x => ?_⟩
  · simp only [hasSecond, packT_cls]; rfl
  · rw [decode_packT3 _ _ _ _ _ _ _]
    rfl

theorem spopc (e : Bool) (d : BitVec 7) (a : BitVec 7) : Statement (.spopc e d a) := by
  intro _
  refine ⟨_, _, rfl, rfl, ?_, fun x => ?_⟩
  · simp only [hasSecond, packT_cls]; rfl
  · rw [decode_packT3 _ _ _ _ _ _ _]
    rfl

theorem sclz (e : Bool) (d : BitVec 7) (a : BitVec 7) : Statement (.sclz e d a) := by
  intro _
  refine ⟨_, _, rfl, rfl, ?_, fun x => ?_⟩
  · simp only [hasSecond, packT_cls]; rfl
  · rw [decode_packT3 _ _ _ _ _ _ _]
    rfl

theorem sctz (e : Bool) (d : BitVec 7) (a : BitVec 7) : Statement (.sctz e d a) := by
  intro _
  refine ⟨_, _, rfl, rfl, ?_, fun x => ?_⟩
  · simp only [hasSecond, packT_cls]; rfl
  · rw [decode_packT3 _ _ _ _ _ _ _]
    rfl

theorem sfirst (e : Bool) (d : BitVec 7) (a : BitVec 7) : Statement (.sfirst e d a) := by
  intro _
  refine ⟨_, _, rfl, rfl, ?_, fun x => ?_⟩
  · simp only [hasSecond, packT_cls]; rfl
  · rw [decode_packT3 _ _ _ _ _ _ _]
    rfl

theorem vaddi (e : Bool) (u : Bool) (d : BitVec 7) (a : BitVec 7) (i : BitVec 9) : Statement (.vaddi e u d a i) := by
  intro _
  refine ⟨_, _, rfl, rfl, ?_, fun x => ?_⟩
  · simp only [hasSecond, packI_cls]; rfl
  · rw [decode_packI4 _ _ _ _ _ _ _]
    rfl

theorem vmuli (e : Bool) (u : Bool) (d : BitVec 7) (a : BitVec 7) (i : BitVec 9) : Statement (.vmuli e u d a i) := by
  intro _
  refine ⟨_, _, rfl, rfl, ?_, fun x => ?_⟩
  · simp only [hasSecond, packI_cls]; rfl
  · rw [decode_packI4 _ _ _ _ _ _ _]
    rfl

theorem vandi (e : Bool) (u : Bool) (d : BitVec 7) (a : BitVec 7) (i : BitVec 9) : Statement (.vandi e u d a i) := by
  intro _
  refine ⟨_, _, rfl, rfl, ?_, fun x => ?_⟩
  · simp only [hasSecond, packI_cls]; rfl
  · rw [decode_packI4 _ _ _ _ _ _ _]
    rfl

theorem vshli (e : Bool) (u : Bool) (d : BitVec 7) (a : BitVec 7) (i : BitVec 9) : Statement (.vshli e u d a i) := by
  intro _
  refine ⟨_, _, rfl, rfl, ?_, fun x => ?_⟩
  · simp only [hasSecond, packI_cls]; rfl
  · rw [decode_packI4 _ _ _ _ _ _ _]
    rfl

theorem vshriN (e : Bool) (u : Bool) (d : BitVec 7) (a : BitVec 7) (i : BitVec 9) : Statement (.vshriN e u d a i) := by
  intro _
  refine ⟨_, _, rfl, rfl, ?_, fun x => ?_⟩
  · simp only [hasSecond, packI_cls]; rfl
  · rw [decode_packI4 _ _ _ _ _ _ _]
    rfl

theorem vshriI (e : Bool) (u : Bool) (d : BitVec 7) (a : BitVec 7) (i : BitVec 9) : Statement (.vshriI e u d a i) := by
  intro _
  refine ⟨_, _, rfl, rfl, ?_, fun x => ?_⟩
  · simp only [hasSecond, packI_cls]; rfl
  · rw [decode_packI4 _ _ _ _ _ _ _]
    rfl

theorem vceqi (e : Bool) (d : BitVec 7) (a : BitVec 7) (i : BitVec 9) : Statement (.vceqi e d a i) := by
  intro _
  refine ⟨_, _, rfl, rfl, ?_, fun x => ?_⟩
  · simp only [hasSecond, packI_cls]; rfl
  · rw [decode_packI4 _ _ _ _ _ _ _]
    rfl

theorem vcltiI (e : Bool) (d : BitVec 7) (a : BitVec 7) (i : BitVec 9) : Statement (.vcltiI e d a i) := by
  intro _
  refine ⟨_, _, rfl, rfl, ?_, fun x => ?_⟩
  · simp only [hasSecond, packI_cls]; rfl
  · rw [decode_packI4 _ _ _ _ _ _ _]
    rfl

theorem saddi (e : Bool) (d : BitVec 7) (a : BitVec 7) (i : BitVec 9) : Statement (.saddi e d a i) := by
  intro _
  refine ⟨_, _, rfl, rfl, ?_, fun x => ?_⟩
  · simp only [hasSecond, packI_cls]; rfl
  · rw [decode_packI4 _ _ _ _ _ _ _]
    rfl

theorem sandi (e : Bool) (d : BitVec 7) (a : BitVec 7) (i : BitVec 9) : Statement (.sandi e d a i) := by
  intro _
  refine ⟨_, _, rfl, rfl, ?_, fun x => ?_⟩
  · simp only [hasSecond, packI_cls]; rfl
  · rw [decode_packI4 _ _ _ _ _ _ _]
    rfl

theorem sori (e : Bool) (d : BitVec 7) (a : BitVec 7) (i : BitVec 9) : Statement (.sori e d a i) := by
  intro _
  refine ⟨_, _, rfl, rfl, ?_, fun x => ?_⟩
  · simp only [hasSecond, packI_cls]; rfl
  · rw [decode_packI4 _ _ _ _ _ _ _]
    rfl

theorem sshli (e : Bool) (d : BitVec 7) (a : BitVec 7) (i : BitVec 9) : Statement (.sshli e d a i) := by
  intro _
  refine ⟨_, _, rfl, rfl, ?_, fun x => ?_⟩
  · simp only [hasSecond, packI_cls]; rfl
  · rw [decode_packI4 _ _ _ _ _ _ _]
    rfl

theorem sshriN (e : Bool) (d : BitVec 7) (a : BitVec 7) (i : BitVec 9) : Statement (.sshriN e d a i) := by
  intro _
  refine ⟨_, _, rfl, rfl, ?_, fun x => ?_⟩
  · simp only [hasSecond, packI_cls]; rfl
  · rw [decode_packI4 _ _ _ _ _ _ _]
    rfl

theorem sceqi (e : Bool) (d : BitVec 7) (a : BitVec 7) (i : BitVec 9) : Statement (.sceqi e d a i) := by
  intro _
  refine ⟨_, _, rfl, rfl, ?_, fun x => ?_⟩
  · simp only [hasSecond, packI_cls]; rfl
  · rw [decode_packI4 _ _ _ _ _ _ _]
    rfl

theorem scltiI (e : Bool) (d : BitVec 7) (a : BitVec 7) (i : BitVec 9) : Statement (.scltiI e d a i) := by
  intro _
  refine ⟨_, _, rfl, rfl, ?_, fun x => ?_⟩
  · simp only [hasSecond, packI_cls]; rfl
  · rw [decode_packI4 _ _ _ _ _ _ _]
    rfl

theorem smovi (e : Bool) (d : BitVec 7) (i : BitVec 9) : Statement (.smovi e d i) := by
  intro _
  refine ⟨_, _, rfl, rfl, ?_, fun x => ?_⟩
  · simp only [hasSecond, packI_cls]; rfl
  · rw [decode_packI4 _ _ _ _ _ _ _]
    rfl

theorem sli (e : Bool) (d : BitVec 7) (k : BitVec 32) : Statement (.sli e d k) := by
  intro _
  refine ⟨_, _, rfl, rfl, ?_, fun x => ?_⟩
  · simp only [hasSecond, packT_cls]; rfl
  · rw [decode_packT7 _ _ _ _ _ _ _ (by decide)]
    rfl

theorem vli (e : Bool) (u : Bool) (d : BitVec 7) (k : BitVec 32) : Statement (.vli e u d k) := by
  intro _
  refine ⟨_, _, rfl, rfl, ?_, fun x => ?_⟩
  · simp only [hasSecond, packT_cls]; rfl
  · rw [decode_packT7 _ _ _ _ _ _ _ (by decide)]
    rfl

theorem ldg (e : Bool) (u : Bool) (d : BitVec 7) (a : BitVec 7) (f : BitVec 9) : Statement (.ldg e u d a f) := by
  intro _
  refine ⟨_, _, rfl, rfl, ?_, fun x => ?_⟩
  · simp only [hasSecond, packI_cls]; rfl
  · rw [decode_packI5 _ _ _ _ _ _ _]
    rfl

theorem stg (e : Bool) (u : Bool) (d : BitVec 7) (a : BitVec 7) (f : BitVec 9) : Statement (.stg e u d a f) := by
  intro _
  refine ⟨_, _, rfl, rfl, ?_, fun x => ?_⟩
  · simp only [hasSecond, packI_cls]; rfl
  · rw [decode_packI5 _ _ _ _ _ _ _]
    rfl

theorem ldgW (e : Bool) (u : Bool) (d : BitVec 7) (a : BitVec 7) (f : BitVec 9) : Statement (.ldgW e u d a f) := by
  intro _
  refine ⟨_, _, rfl, rfl, ?_, fun x => ?_⟩
  · simp only [hasSecond, packI_cls]; rfl
  · rw [decode_packI5 _ _ _ _ _ _ _]
    rfl

theorem stgW (e : Bool) (u : Bool) (d : BitVec 7) (a : BitVec 7) (f : BitVec 9) : Statement (.stgW e u d a f) := by
  intro _
  refine ⟨_, _, rfl, rfl, ?_, fun x => ?_⟩
  · simp only [hasSecond, packI_cls]; rfl
  · rw [decode_packI5 _ _ _ _ _ _ _]
    rfl

theorem ldgQ (e : Bool) (u : Bool) (d : BitVec 7) (a : BitVec 7) (f : BitVec 9) : Statement (.ldgQ e u d a f) := by
  intro _
  refine ⟨_, _, rfl, rfl, ?_, fun x => ?_⟩
  · simp only [hasSecond, packI_cls]; rfl
  · rw [decode_packI5 _ _ _ _ _ _ _]
    rfl

theorem stgQ (e : Bool) (u : Bool) (d : BitVec 7) (a : BitVec 7) (f : BitVec 9) : Statement (.stgQ e u d a f) := by
  intro _
  refine ⟨_, _, rfl, rfl, ?_, fun x => ?_⟩
  · simp only [hasSecond, packI_cls]; rfl
  · rw [decode_packI5 _ _ _ _ _ _ _]
    rfl

theorem lds (e : Bool) (u : Bool) (d : BitVec 7) (a : BitVec 7) (f : BitVec 9) : Statement (.lds e u d a f) := by
  intro _
  refine ⟨_, _, rfl, rfl, ?_, fun x => ?_⟩
  · simp only [hasSecond, packI_cls]; rfl
  · rw [decode_packI5 _ _ _ _ _ _ _]
    rfl

theorem sts (e : Bool) (u : Bool) (d : BitVec 7) (a : BitVec 7) (f : BitVec 9) : Statement (.sts e u d a f) := by
  intro _
  refine ⟨_, _, rfl, rfl, ?_, fun x => ?_⟩
  · simp only [hasSecond, packI_cls]; rfl
  · rw [decode_packI5 _ _ _ _ _ _ _]
    rfl

theorem ldsW (e : Bool) (u : Bool) (d : BitVec 7) (a : BitVec 7) (f : BitVec 9) : Statement (.ldsW e u d a f) := by
  intro _
  refine ⟨_, _, rfl, rfl, ?_, fun x => ?_⟩
  · simp only [hasSecond, packI_cls]; rfl
  · rw [decode_packI5 _ _ _ _ _ _ _]
    rfl

theorem stsW (e : Bool) (u : Bool) (d : BitVec 7) (a : BitVec 7) (f : BitVec 9) : Statement (.stsW e u d a f) := by
  intro _
  refine ⟨_, _, rfl, rfl, ?_, fun x => ?_⟩
  · simp only [hasSecond, packI_cls]; rfl
  · rw [decode_packI5 _ _ _ _ _ _ _]
    rfl

theorem ldsQ (e : Bool) (u : Bool) (d : BitVec 7) (a : BitVec 7) (f : BitVec 9) : Statement (.ldsQ e u d a f) := by
  intro _
  refine ⟨_, _, rfl, rfl, ?_, fun x => ?_⟩
  · simp only [hasSecond, packI_cls]; rfl
  · rw [decode_packI5 _ _ _ _ _ _ _]
    rfl

theorem stsQ (e : Bool) (u : Bool) (d : BitVec 7) (a : BitVec 7) (f : BitVec 9) : Statement (.stsQ e u d a f) := by
  intro _
  refine ⟨_, _, rfl, rfl, ?_, fun x => ?_⟩
  · simp only [hasSecond, packI_cls]; rfl
  · rw [decode_packI5 _ _ _ _ _ _ _]
    rfl

theorem sld (e : Bool) (d : BitVec 7) (a : BitVec 7) (f : BitVec 9) : Statement (.sld e d a f) := by
  intro _
  refine ⟨_, _, rfl, rfl, ?_, fun x => ?_⟩
  · simp only [hasSecond, packI_cls]; rfl
  · rw [decode_packI5 _ _ _ _ _ _ _]
    rfl

theorem sst (e : Bool) (d : BitVec 7) (a : BitVec 7) (f : BitVec 9) : Statement (.sst e d a f) := by
  intro _
  refine ⟨_, _, rfl, rfl, ?_, fun x => ?_⟩
  · simp only [hasSecond, packI_cls]; rfl
  · rw [decode_packI5 _ _ _ _ _ _ _]
    rfl

theorem slds (e : Bool) (d : BitVec 7) (a : BitVec 7) (f : BitVec 9) : Statement (.slds e d a f) := by
  intro _
  refine ⟨_, _, rfl, rfl, ?_, fun x => ?_⟩
  · simp only [hasSecond, packI_cls]; rfl
  · rw [decode_packI5 _ _ _ _ _ _ _]
    rfl

theorem ssts (e : Bool) (d : BitVec 7) (a : BitVec 7) (f : BitVec 9) : Statement (.ssts e d a f) := by
  intro _
  refine ⟨_, _, rfl, rfl, ?_, fun x => ?_⟩
  · simp only [hasSecond, packI_cls]; rfl
  · rw [decode_packI5 _ _ _ _ _ _ _]
    rfl

theorem ldgX (e : Bool) (u : Bool) (d : BitVec 7) (a : BitVec 7) (b : BitVec 7) (sign : Bool) (half : Bool) (off : BitVec 16) : Statement (.ldgX e u d a b sign half off) := by
  intro _
  refine ⟨_, _, rfl, rfl, ?_, fun x => ?_⟩
  · simp only [hasSecond, packT_cls]; rfl
  · rw [decode_packT7 _ _ _ _ _ _ _ (by decide)]
    have hz : (0#14 ++ BitVec.ofBool sign ++ BitVec.ofBool half ++ off : W32).toNat = sign.toNat * 2 ^ 17 + half.toNat * 2 ^ 16 + off.toNat := by
      refine (toNat_app _ _).trans ?_
      simp only [toNat_app, BitVec.toNat_ofBool, BitVec.toNat_ofNat]; omega
    have h_sign := Bool.toNat_lt sign
    have h_half := Bool.toNat_lt half
    have h_off := off.isLt
    show decodeC7 _ _ _ _ _ _ (0#14 ++ BitVec.ofBool sign ++ BitVec.ofBool half ++ off : W32) = _
    generalize (0#14 ++ BitVec.ofBool sign ++ BitVec.ofBool half ++ off : W32) = z at hz ⊢
    have f1 : z.extractLsb' 18 14 = 0#14 := field_eq _ _ _ (by rw [hz]; simp only [BitVec.toNat_ofNat]; omega)
    have f2 : z.extractLsb' 0 16 = off := field_eq _ _ _ (by rw [hz]; omega)
    have f3 : z.getLsbD 17 = sign := bit_eq _ _ _ (by rw [hz]; omega)
    have f4 : z.getLsbD 16 = half := bit_eq _ _ _ (by rw [hz]; omega)
    simp only [decodeC7, f1, f2, f3, f4]
    rfl

theorem stgX (e : Bool) (u : Bool) (d : BitVec 7) (a : BitVec 7) (b : BitVec 7) (half : Bool) (off : BitVec 16) : Statement (.stgX e u d a b half off) := by
  intro _
  refine ⟨_, _, rfl, rfl, ?_, fun x => ?_⟩
  · simp only [hasSecond, packT_cls]; rfl
  · rw [decode_packT7 _ _ _ _ _ _ _ (by decide)]
    have hz : (0#14 ++ 0#1 ++ BitVec.ofBool half ++ off : W32).toNat = half.toNat * 2 ^ 16 + off.toNat := by
      refine (toNat_app _ _).trans ?_
      simp only [toNat_app, BitVec.toNat_ofBool, BitVec.toNat_ofNat]; omega
    have h_half := Bool.toNat_lt half
    have h_off := off.isLt
    show decodeC7 _ _ _ _ _ _ (0#14 ++ 0#1 ++ BitVec.ofBool half ++ off : W32) = _
    generalize (0#14 ++ 0#1 ++ BitVec.ofBool half ++ off : W32) = z at hz ⊢
    have f1 : z.extractLsb' 17 15 = 0#15 := field_eq _ _ _ (by rw [hz]; simp only [BitVec.toNat_ofNat]; omega)
    have f2 : z.extractLsb' 0 16 = off := field_eq _ _ _ (by rw [hz]; omega)
    have f3 : z.getLsbD 16 = half := bit_eq _ _ _ (by rw [hz]; omega)
    simp only [decodeC7, f1, f2, f3]
    rfl

theorem ldsX (e : Bool) (u : Bool) (d : BitVec 7) (a : BitVec 7) (b : BitVec 7) (sign : Bool) (half : Bool) (off : BitVec 16) : Statement (.ldsX e u d a b sign half off) := by
  intro _
  refine ⟨_, _, rfl, rfl, ?_, fun x => ?_⟩
  · simp only [hasSecond, packT_cls]; rfl
  · rw [decode_packT7 _ _ _ _ _ _ _ (by decide)]
    have hz : (0#14 ++ BitVec.ofBool sign ++ BitVec.ofBool half ++ off : W32).toNat = sign.toNat * 2 ^ 17 + half.toNat * 2 ^ 16 + off.toNat := by
      refine (toNat_app _ _).trans ?_
      simp only [toNat_app, BitVec.toNat_ofBool, BitVec.toNat_ofNat]; omega
    have h_sign := Bool.toNat_lt sign
    have h_half := Bool.toNat_lt half
    have h_off := off.isLt
    show decodeC7 _ _ _ _ _ _ (0#14 ++ BitVec.ofBool sign ++ BitVec.ofBool half ++ off : W32) = _
    generalize (0#14 ++ BitVec.ofBool sign ++ BitVec.ofBool half ++ off : W32) = z at hz ⊢
    have f1 : z.extractLsb' 18 14 = 0#14 := field_eq _ _ _ (by rw [hz]; simp only [BitVec.toNat_ofNat]; omega)
    have f2 : z.extractLsb' 0 16 = off := field_eq _ _ _ (by rw [hz]; omega)
    have f3 : z.getLsbD 17 = sign := bit_eq _ _ _ (by rw [hz]; omega)
    have f4 : z.getLsbD 16 = half := bit_eq _ _ _ (by rw [hz]; omega)
    simp only [decodeC7, f1, f2, f3, f4]
    rfl

theorem stsX (e : Bool) (u : Bool) (d : BitVec 7) (a : BitVec 7) (b : BitVec 7) (half : Bool) (off : BitVec 16) : Statement (.stsX e u d a b half off) := by
  intro _
  refine ⟨_, _, rfl, rfl, ?_, fun x => ?_⟩
  · simp only [hasSecond, packT_cls]; rfl
  · rw [decode_packT7 _ _ _ _ _ _ _ (by decide)]
    have hz : (0#14 ++ 0#1 ++ BitVec.ofBool half ++ off : W32).toNat = half.toNat * 2 ^ 16 + off.toNat := by
      refine (toNat_app _ _).trans ?_
      simp only [toNat_app, BitVec.toNat_ofBool, BitVec.toNat_ofNat]; omega
    have h_half := Bool.toNat_lt half
    have h_off := off.isLt
    show decodeC7 _ _ _ _ _ _ (0#14 ++ 0#1 ++ BitVec.ofBool half ++ off : W32) = _
    generalize (0#14 ++ 0#1 ++ BitVec.ofBool half ++ off : W32) = z at hz ⊢
    have f1 : z.extractLsb' 17 15 = 0#15 := field_eq _ _ _ (by rw [hz]; simp only [BitVec.toNat_ofNat]; omega)
    have f2 : z.extractLsb' 0 16 = off := field_eq _ _ _ (by rw [hz]; omega)
    have f3 : z.getLsbD 16 = half := bit_eq _ _ _ (by rw [hz]; omega)
    simp only [decodeC7, f1, f2, f3]
    rfl

theorem ldd (e : Bool) (u : Bool) (d : BitVec 7) (a : BitVec 7) (off : BitVec 16) : Statement (.ldd e u d a off) := by
  intro _
  refine ⟨_, _, rfl, rfl, ?_, fun x => ?_⟩
  · simp only [hasSecond, packT_cls]; rfl
  · rw [decode_packT7 _ _ _ _ _ _ _ (by decide)]
    have hz : (0#16 ++ off : W32).toNat = off.toNat := by
      refine (toNat_app _ _).trans ?_
      simp only [toNat_app, BitVec.toNat_ofBool, BitVec.toNat_ofNat]; omega
    have h_off := off.isLt
    show decodeC7 _ _ _ _ _ _ (0#16 ++ off : W32) = _
    generalize (0#16 ++ off : W32) = z at hz ⊢
    have f1 : z.extractLsb' 16 16 = 0#16 := field_eq _ _ _ (by rw [hz]; simp only [BitVec.toNat_ofNat]; omega)
    have f2 : z.extractLsb' 0 16 = off := field_eq _ _ _ (by rw [hz]; omega)
    simp only [decodeC7, f1, f2]
    rfl

theorem std (e : Bool) (u : Bool) (d : BitVec 7) (a : BitVec 7) (off : BitVec 16) : Statement (.std e u d a off) := by
  intro _
  refine ⟨_, _, rfl, rfl, ?_, fun x => ?_⟩
  · simp only [hasSecond, packT_cls]; rfl
  · rw [decode_packT7 _ _ _ _ _ _ _ (by decide)]
    have hz : (0#16 ++ off : W32).toNat = off.toNat := by
      refine (toNat_app _ _).trans ?_
      simp only [toNat_app, BitVec.toNat_ofBool, BitVec.toNat_ofNat]; omega
    have h_off := off.isLt
    show decodeC7 _ _ _ _ _ _ (0#16 ++ off : W32) = _
    generalize (0#16 ++ off : W32) = z at hz ⊢
    have f1 : z.extractLsb' 16 16 = 0#16 := field_eq _ _ _ (by rw [hz]; simp only [BitVec.toNat_ofNat]; omega)
    have f2 : z.extractLsb' 0 16 = off := field_eq _ _ _ (by rw [hz]; omega)
    simp only [decodeC7, f1, f2]
    rfl

theorem atom (e : Bool) (u : Bool) (d : BitVec 7) (a : BitVec 7) (b : BitVec 7) (off : BitVec 11) (sc : BitVec 3) (ord : BitVec 2) (ret : Bool) (w : Bool) (op : BitVec 4) : Statement (.atom e u d a b off sc ord ret w op) := by
  intro h
  refine ⟨_, _, rfl, rfl, ?_, fun x => ?_⟩
  · simp only [hasSecond, packT_cls]; rfl
  · rw [decode_packT7 _ _ _ _ _ _ _ (by decide)]
    have hz : (0#5 ++ off ++ 0#5 ++ sc ++ ord ++ BitVec.ofBool ret ++ BitVec.ofBool w ++ op : W32).toNat = off.toNat * 2 ^ 16 + sc.toNat * 2 ^ 8 + ord.toNat * 2 ^ 6 + ret.toNat * 2 ^ 5 + w.toNat * 2 ^ 4 + op.toNat := by
      refine (toNat_app _ _).trans ?_
      simp only [toNat_app, BitVec.toNat_ofBool, BitVec.toNat_ofNat]; omega
    have h_off := off.isLt
    have h_sc := sc.isLt
    have h_ord := ord.isLt
    have h_ret := Bool.toNat_lt ret
    have h_w := Bool.toNat_lt w
    have h_op := op.isLt
    show decodeC7 _ _ _ _ _ _ (0#5 ++ off ++ 0#5 ++ sc ++ ord ++ BitVec.ofBool ret ++ BitVec.ofBool w ++ op : W32) = _
    generalize (0#5 ++ off ++ 0#5 ++ sc ++ ord ++ BitVec.ofBool ret ++ BitVec.ofBool w ++ op : W32) = z at hz ⊢
    have f1 : z.extractLsb' 27 5 = 0#5 := field_eq _ _ _ (by rw [hz]; simp only [BitVec.toNat_ofNat]; omega)
    have f2 : z.extractLsb' 11 5 = 0#5 := field_eq _ _ _ (by rw [hz]; simp only [BitVec.toNat_ofNat]; omega)
    have f3 : z.extractLsb' 16 11 = off := field_eq _ _ _ (by rw [hz]; omega)
    have f4 : z.extractLsb' 8 3 = sc := field_eq _ _ _ (by rw [hz]; omega)
    have f5 : z.extractLsb' 6 2 = ord := field_eq _ _ _ (by rw [hz]; omega)
    have f6 : z.extractLsb' 0 4 = op := field_eq _ _ _ (by rw [hz]; omega)
    have f7 : z.getLsbD 5 = ret := bit_eq _ _ _ (by rw [hz]; omega)
    have f8 : z.getLsbD 4 = w := bit_eq _ _ _ (by rw [hz]; omega)
    simp only [decodeC7, f1, f2, f3, f4, f5, f6, f7, f8]
    simp [zb, two, h, Instr.two]

theorem atoms (e : Bool) (u : Bool) (d : BitVec 7) (a : BitVec 7) (b : BitVec 7) (off : BitVec 11) (sc : BitVec 3) (ord : BitVec 2) (ret : Bool) (w : Bool) (op : BitVec 4) : Statement (.atoms e u d a b off sc ord ret w op) := by
  intro h
  refine ⟨_, _, rfl, rfl, ?_, fun x => ?_⟩
  · simp only [hasSecond, packT_cls]; rfl
  · rw [decode_packT7 _ _ _ _ _ _ _ (by decide)]
    have hz : (0#5 ++ off ++ 0#5 ++ sc ++ ord ++ BitVec.ofBool ret ++ BitVec.ofBool w ++ op : W32).toNat = off.toNat * 2 ^ 16 + sc.toNat * 2 ^ 8 + ord.toNat * 2 ^ 6 + ret.toNat * 2 ^ 5 + w.toNat * 2 ^ 4 + op.toNat := by
      refine (toNat_app _ _).trans ?_
      simp only [toNat_app, BitVec.toNat_ofBool, BitVec.toNat_ofNat]; omega
    have h_off := off.isLt
    have h_sc := sc.isLt
    have h_ord := ord.isLt
    have h_ret := Bool.toNat_lt ret
    have h_w := Bool.toNat_lt w
    have h_op := op.isLt
    show decodeC7 _ _ _ _ _ _ (0#5 ++ off ++ 0#5 ++ sc ++ ord ++ BitVec.ofBool ret ++ BitVec.ofBool w ++ op : W32) = _
    generalize (0#5 ++ off ++ 0#5 ++ sc ++ ord ++ BitVec.ofBool ret ++ BitVec.ofBool w ++ op : W32) = z at hz ⊢
    have f1 : z.extractLsb' 27 5 = 0#5 := field_eq _ _ _ (by rw [hz]; simp only [BitVec.toNat_ofNat]; omega)
    have f2 : z.extractLsb' 11 5 = 0#5 := field_eq _ _ _ (by rw [hz]; simp only [BitVec.toNat_ofNat]; omega)
    have f3 : z.extractLsb' 16 11 = off := field_eq _ _ _ (by rw [hz]; omega)
    have f4 : z.extractLsb' 8 3 = sc := field_eq _ _ _ (by rw [hz]; omega)
    have f5 : z.extractLsb' 6 2 = ord := field_eq _ _ _ (by rw [hz]; omega)
    have f6 : z.extractLsb' 0 4 = op := field_eq _ _ _ (by rw [hz]; omega)
    have f7 : z.getLsbD 5 = ret := bit_eq _ _ _ (by rw [hz]; omega)
    have f8 : z.getLsbD 4 = w := bit_eq _ _ _ (by rw [hz]; omega)
    simp only [decodeC7, f1, f2, f3, f4, f5, f6, f7, f8]
    simp [zb, two, h, Instr.two]

theorem atomd (e : Bool) (u : Bool) (d : BitVec 7) (a : BitVec 7) (b : BitVec 7) (off : BitVec 11) (sc : BitVec 3) (ord : BitVec 2) (ret : Bool) (w : Bool) (op : BitVec 4) : Statement (.atomd e u d a b off sc ord ret w op) := by
  intro h
  refine ⟨_, _, rfl, rfl, ?_, fun x => ?_⟩
  · simp only [hasSecond, packT_cls]; rfl
  · rw [decode_packT7 _ _ _ _ _ _ _ (by decide)]
    have hz : (0#5 ++ off ++ 0#5 ++ sc ++ ord ++ BitVec.ofBool ret ++ BitVec.ofBool w ++ op : W32).toNat = off.toNat * 2 ^ 16 + sc.toNat * 2 ^ 8 + ord.toNat * 2 ^ 6 + ret.toNat * 2 ^ 5 + w.toNat * 2 ^ 4 + op.toNat := by
      refine (toNat_app _ _).trans ?_
      simp only [toNat_app, BitVec.toNat_ofBool, BitVec.toNat_ofNat]; omega
    have h_off := off.isLt
    have h_sc := sc.isLt
    have h_ord := ord.isLt
    have h_ret := Bool.toNat_lt ret
    have h_w := Bool.toNat_lt w
    have h_op := op.isLt
    show decodeC7 _ _ _ _ _ _ (0#5 ++ off ++ 0#5 ++ sc ++ ord ++ BitVec.ofBool ret ++ BitVec.ofBool w ++ op : W32) = _
    generalize (0#5 ++ off ++ 0#5 ++ sc ++ ord ++ BitVec.ofBool ret ++ BitVec.ofBool w ++ op : W32) = z at hz ⊢
    have f1 : z.extractLsb' 27 5 = 0#5 := field_eq _ _ _ (by rw [hz]; simp only [BitVec.toNat_ofNat]; omega)
    have f2 : z.extractLsb' 11 5 = 0#5 := field_eq _ _ _ (by rw [hz]; simp only [BitVec.toNat_ofNat]; omega)
    have f3 : z.extractLsb' 16 11 = off := field_eq _ _ _ (by rw [hz]; omega)
    have f4 : z.extractLsb' 8 3 = sc := field_eq _ _ _ (by rw [hz]; omega)
    have f5 : z.extractLsb' 6 2 = ord := field_eq _ _ _ (by rw [hz]; omega)
    have f6 : z.extractLsb' 0 4 = op := field_eq _ _ _ (by rw [hz]; omega)
    have f7 : z.getLsbD 5 = ret := bit_eq _ _ _ (by rw [hz]; omega)
    have f8 : z.getLsbD 4 = w := bit_eq _ _ _ (by rw [hz]; omega)
    simp only [decodeC7, f1, f2, f3, f4, f5, f6, f7, f8]
    simp [zb, two, h, Instr.two]

theorem fence (e : Bool) (q : BitVec 3) (p : BitVec 3) (sc : BitVec 3) : Statement (.fence e q p sc) := by
  intro _
  refine ⟨_, _, rfl, rfl, ?_, fun x => ?_⟩
  · simp only [hasSecond, packT_cls]; rfl
  · rw [decode_packT7 _ _ _ _ _ _ _ (by decide)]
    have hz : (0#23 ++ q ++ p ++ sc : W32).toNat = q.toNat * 2 ^ 6 + p.toNat * 2 ^ 3 + sc.toNat := by
      refine (toNat_app _ _).trans ?_
      simp only [toNat_app, BitVec.toNat_ofBool, BitVec.toNat_ofNat]; omega
    have h_q := q.isLt
    have h_p := p.isLt
    have h_sc := sc.isLt
    show decodeC7 _ _ _ _ _ _ (0#23 ++ q ++ p ++ sc : W32) = _
    generalize (0#23 ++ q ++ p ++ sc : W32) = z at hz ⊢
    have f1 : z.extractLsb' 9 23 = 0#23 := field_eq _ _ _ (by rw [hz]; simp only [BitVec.toNat_ofNat]; omega)
    have f2 : z.extractLsb' 6 3 = q := field_eq _ _ _ (by rw [hz]; omega)
    have f3 : z.extractLsb' 3 3 = p := field_eq _ _ _ (by rw [hz]; omega)
    have f4 : z.extractLsb' 0 3 = sc := field_eq _ _ _ (by rw [hz]; omega)
    simp only [decodeC7, f1, f2, f3, f4]
    rfl

theorem xsend (e : Bool) (d : BitVec 7) (a : BitVec 7) (b : BitVec 7) (nf : Bool) (fsp : Bool) (sp : Bool) (size : BitVec 2) (x : BitVec 7) : Statement (.xsend e d a b nf fsp sp size x) := by
  intro h
  refine ⟨_, _, rfl, rfl, ?_, fun y => ?_⟩
  · simp only [hasSecond, packT_cls]; rfl
  · rw [decode_packT7 _ _ _ _ _ _ _ (by decide)]
    have hz : (0#15 ++ 0#4 ++ 0#1 ++ BitVec.ofBool nf ++ BitVec.ofBool fsp ++ BitVec.ofBool sp ++ size ++ x : W32).toNat = nf.toNat * 2 ^ 11 + fsp.toNat * 2 ^ 10 + sp.toNat * 2 ^ 9 + size.toNat * 2 ^ 7 + x.toNat := by
      refine (toNat_app _ _).trans ?_
      simp only [toNat_app, BitVec.toNat_ofBool, BitVec.toNat_ofNat]; omega
    have h_nf := Bool.toNat_lt nf
    have h_fsp := Bool.toNat_lt fsp
    have h_sp := Bool.toNat_lt sp
    have h_size := size.isLt
    have h_x := x.isLt
    show decodeC7 _ _ _ _ _ _ (0#15 ++ 0#4 ++ 0#1 ++ BitVec.ofBool nf ++ BitVec.ofBool fsp ++ BitVec.ofBool sp ++ size ++ x : W32) = _
    generalize (0#15 ++ 0#4 ++ 0#1 ++ BitVec.ofBool nf ++ BitVec.ofBool fsp ++ BitVec.ofBool sp ++ size ++ x : W32) = z at hz ⊢
    have f1 : z.extractLsb' 12 20 = 0#20 := field_eq _ _ _ (by rw [hz]; simp only [BitVec.toNat_ofNat]; omega)
    have f2 : z.extractLsb' 7 2 = size := field_eq _ _ _ (by rw [hz]; omega)
    have f3 : z.extractLsb' 0 7 = x := field_eq _ _ _ (by rw [hz]; omega)
    have f4 : z.getLsbD 11 = nf := bit_eq _ _ _ (by rw [hz]; omega)
    have f5 : z.getLsbD 10 = fsp := bit_eq _ _ _ (by rw [hz]; omega)
    have f6 : z.getLsbD 9 = sp := bit_eq _ _ _ (by rw [hz]; omega)
    simp only [decodeC7, f1, f2, f3, f4, f5, f6]
    simp [zb, noOnce, two, h, Instr.two]

theorem xget (e : Bool) (d : BitVec 7) (a : BitVec 7) (b : BitVec 7) (sp : Bool) (size : BitVec 2) : Statement (.xget e d a b sp size) := by
  intro h
  refine ⟨_, _, rfl, rfl, ?_, fun x => ?_⟩
  · simp only [hasSecond, packT_cls]; rfl
  · rw [decode_packT7 _ _ _ _ _ _ _ (by decide)]
    have hz : (0#15 ++ 0#4 ++ 0#1 ++ 0#1 ++ 0#1 ++ BitVec.ofBool sp ++ size ++ 0#7 : W32).toNat = sp.toNat * 2 ^ 9 + size.toNat * 2 ^ 7 := by
      refine (toNat_app _ _).trans ?_
      simp only [toNat_app, BitVec.toNat_ofBool, BitVec.toNat_ofNat]; omega
    have h_sp := Bool.toNat_lt sp
    have h_size := size.isLt
    show decodeC7 _ _ _ _ _ _ (0#15 ++ 0#4 ++ 0#1 ++ 0#1 ++ 0#1 ++ BitVec.ofBool sp ++ size ++ 0#7 : W32) = _
    generalize (0#15 ++ 0#4 ++ 0#1 ++ 0#1 ++ 0#1 ++ BitVec.ofBool sp ++ size ++ 0#7 : W32) = z at hz ⊢
    have f1 : z.extractLsb' 10 22 = 0#22 := field_eq _ _ _ (by rw [hz]; simp only [BitVec.toNat_ofNat]; omega)
    have f2 : z.extractLsb' 0 7 = 0#7 := field_eq _ _ _ (by rw [hz]; simp only [BitVec.toNat_ofNat]; omega)
    have f3 : z.extractLsb' 7 2 = size := field_eq _ _ _ (by rw [hz]; omega)
    have f4 : z.getLsbD 9 = sp := bit_eq _ _ _ (by rw [hz]; omega)
    simp only [decodeC7, f1, f2, f3, f4]
    simp [zb, noOnce, two, h, Instr.two]

theorem xred (e : Bool) (d : BitVec 7) (a : BitVec 7) (b : BitVec 7) (op : BitVec 4) (ret : Bool) (sp : Bool) (size : BitVec 2) (x : BitVec 7) : Statement (.xred e d a b op ret sp size x) := by
  intro h
  refine ⟨_, _, rfl, rfl, ?_, fun y => ?_⟩
  · simp only [hasSecond, packT_cls]; rfl
  · rw [decode_packT7 _ _ _ _ _ _ _ (by decide)]
    have hz : (0#15 ++ op ++ BitVec.ofBool ret ++ 0#1 ++ 0#1 ++ BitVec.ofBool sp ++ size ++ x : W32).toNat = op.toNat * 2 ^ 13 + ret.toNat * 2 ^ 12 + sp.toNat * 2 ^ 9 + size.toNat * 2 ^ 7 + x.toNat := by
      refine (toNat_app _ _).trans ?_
      simp only [toNat_app, BitVec.toNat_ofBool, BitVec.toNat_ofNat]; omega
    have h_op := op.isLt
    have h_ret := Bool.toNat_lt ret
    have h_sp := Bool.toNat_lt sp
    have h_size := size.isLt
    have h_x := x.isLt
    show decodeC7 _ _ _ _ _ _ (0#15 ++ op ++ BitVec.ofBool ret ++ 0#1 ++ 0#1 ++ BitVec.ofBool sp ++ size ++ x : W32) = _
    generalize (0#15 ++ op ++ BitVec.ofBool ret ++ 0#1 ++ 0#1 ++ BitVec.ofBool sp ++ size ++ x : W32) = z at hz ⊢
    have f1 : z.extractLsb' 17 15 = 0#15 := field_eq _ _ _ (by rw [hz]; simp only [BitVec.toNat_ofNat]; omega)
    have f2 : z.extractLsb' 10 2 = 0#2 := field_eq _ _ _ (by rw [hz]; simp only [BitVec.toNat_ofNat]; omega)
    have f3 : z.extractLsb' 13 4 = op := field_eq _ _ _ (by rw [hz]; omega)
    have f4 : z.extractLsb' 7 2 = size := field_eq _ _ _ (by rw [hz]; omega)
    have f5 : z.extractLsb' 0 7 = x := field_eq _ _ _ (by rw [hz]; omega)
    have f6 : z.getLsbD 12 = ret := bit_eq _ _ _ (by rw [hz]; omega)
    have f7 : z.getLsbD 9 = sp := bit_eq _ _ _ (by rw [hz]; omega)
    simp only [decodeC7, f1, f2, f3, f4, f5, f6, f7]
    simp [zb, noOnce, two, h, Instr.two]

theorem xapp (e : Bool) (d : BitVec 7) (a : BitVec 7) (b : BitVec 7) (ret : Bool) (size : BitVec 2) (x : BitVec 7) : Statement (.xapp e d a b ret size x) := by
  intro h
  refine ⟨_, _, rfl, rfl, ?_, fun y => ?_⟩
  · simp only [hasSecond, packT_cls]; rfl
  · rw [decode_packT7 _ _ _ _ _ _ _ (by decide)]
    have hz : (0#15 ++ 0#4 ++ BitVec.ofBool ret ++ 0#1 ++ 0#1 ++ 0#1 ++ size ++ x : W32).toNat = ret.toNat * 2 ^ 12 + size.toNat * 2 ^ 7 + x.toNat := by
      refine (toNat_app _ _).trans ?_
      simp only [toNat_app, BitVec.toNat_ofBool, BitVec.toNat_ofNat]; omega
    have h_ret := Bool.toNat_lt ret
    have h_size := size.isLt
    have h_x := x.isLt
    show decodeC7 _ _ _ _ _ _ (0#15 ++ 0#4 ++ BitVec.ofBool ret ++ 0#1 ++ 0#1 ++ 0#1 ++ size ++ x : W32) = _
    generalize (0#15 ++ 0#4 ++ BitVec.ofBool ret ++ 0#1 ++ 0#1 ++ 0#1 ++ size ++ x : W32) = z at hz ⊢
    have f1 : z.extractLsb' 13 19 = 0#19 := field_eq _ _ _ (by rw [hz]; simp only [BitVec.toNat_ofNat]; omega)
    have f2 : z.extractLsb' 9 3 = 0#3 := field_eq _ _ _ (by rw [hz]; simp only [BitVec.toNat_ofNat]; omega)
    have f3 : z.extractLsb' 7 2 = size := field_eq _ _ _ (by rw [hz]; omega)
    have f4 : z.extractLsb' 0 7 = x := field_eq _ _ _ (by rw [hz]; omega)
    have f5 : z.getLsbD 12 = ret := bit_eq _ _ _ (by rw [hz]; omega)
    simp only [decodeC7, f1, f2, f3, f4, f5]
    simp [zb, noOnce, two, h, Instr.two]

theorem mmloop (e : Bool) (d : BitVec 7) (a : BitVec 7) (b : BitVec 7) (binc : BitVec 11) (ab : BitVec 5) (z : Bool) (reuse : Bool) (mode : BitVec 2) (nk : BitVec 3) : Statement (.mmloop e d a b binc ab z reuse mode nk) := by
  intro h
  refine ⟨_, _, rfl, rfl, ?_, fun x => ?_⟩
  · simp only [hasSecond, packT_cls]; rfl
  · rw [decode_packT7 _ _ _ _ _ _ _ (by decide)]
    have hz : (0#5 ++ binc ++ ab ++ BitVec.ofBool z ++ BitVec.ofBool reuse ++ mode ++ 0#4 ++ nk : W32).toNat = binc.toNat * 2 ^ 16 + ab.toNat * 2 ^ 11 + z.toNat * 2 ^ 10 + reuse.toNat * 2 ^ 9 + mode.toNat * 2 ^ 7 + nk.toNat := by
      refine (toNat_app _ _).trans ?_
      simp only [toNat_app, BitVec.toNat_ofBool, BitVec.toNat_ofNat]; omega
    have h_binc := binc.isLt
    have h_ab := ab.isLt
    have h_z := Bool.toNat_lt z
    have h_reuse := Bool.toNat_lt reuse
    have h_mode := mode.isLt
    have h_nk := nk.isLt
    show decodeC7 _ _ _ _ _ _ (0#5 ++ binc ++ ab ++ BitVec.ofBool z ++ BitVec.ofBool reuse ++ mode ++ 0#4 ++ nk : W32) = _
    generalize (0#5 ++ binc ++ ab ++ BitVec.ofBool z ++ BitVec.ofBool reuse ++ mode ++ 0#4 ++ nk : W32) = w at hz ⊢
    have f1 : w.extractLsb' 27 5 = 0#5 := field_eq _ _ _ (by rw [hz]; simp only [BitVec.toNat_ofNat]; omega)
    have f2 : w.extractLsb' 3 4 = 0#4 := field_eq _ _ _ (by rw [hz]; simp only [BitVec.toNat_ofNat]; omega)
    have f3 : w.extractLsb' 16 11 = binc := field_eq _ _ _ (by rw [hz]; omega)
    have f4 : w.extractLsb' 11 5 = ab := field_eq _ _ _ (by rw [hz]; omega)
    have f5 : w.extractLsb' 7 2 = mode := field_eq _ _ _ (by rw [hz]; omega)
    have f6 : w.extractLsb' 0 3 = nk := field_eq _ _ _ (by rw [hz]; omega)
    have f7 : w.getLsbD 10 = z := bit_eq _ _ _ (by rw [hz]; omega)
    have f8 : w.getLsbD 9 = reuse := bit_eq _ _ _ (by rw [hz]; omega)
    simp only [decodeC7, f1, f2, f3, f4, f5, f6, f7, f8]
    simp [zb, noOnce, two, h, Instr.two]

theorem cpy (e : Bool) (d : BitVec 7) (a : BitVec 7) (b : BitVec 7) (dsp : BitVec 2) (ssp : BitVec 2) (ab : BitVec 5) : Statement (.cpy e d a b dsp ssp ab) := by
  intro h
  refine ⟨_, _, rfl, rfl, ?_, fun x => ?_⟩
  · simp only [hasSecond, packT_cls]; rfl
  · rw [decode_packT7 _ _ _ _ _ _ _ (by decide)]
    have hz : (0#23 ++ dsp ++ ssp ++ ab : W32).toNat = dsp.toNat * 2 ^ 7 + ssp.toNat * 2 ^ 5 + ab.toNat := by
      refine (toNat_app _ _).trans ?_
      simp only [toNat_app, BitVec.toNat_ofBool, BitVec.toNat_ofNat]; omega
    have h_dsp := dsp.isLt
    have h_ssp := ssp.isLt
    have h_ab := ab.isLt
    show decodeC7 _ _ _ _ _ _ (0#23 ++ dsp ++ ssp ++ ab : W32) = _
    generalize (0#23 ++ dsp ++ ssp ++ ab : W32) = z at hz ⊢
    have f1 : z.extractLsb' 9 23 = 0#23 := field_eq _ _ _ (by rw [hz]; simp only [BitVec.toNat_ofNat]; omega)
    have f2 : z.extractLsb' 7 2 = dsp := field_eq _ _ _ (by rw [hz]; omega)
    have f3 : z.extractLsb' 5 2 = ssp := field_eq _ _ _ (by rw [hz]; omega)
    have f4 : z.extractLsb' 0 5 = ab := field_eq _ _ _ (by rw [hz]; omega)
    simp only [decodeC7, f1, f2, f3, f4]
    simp [zb, noOnce, two, h, Instr.two]

theorem cunpack (e : Bool) (d : BitVec 7) (a : BitVec 7) (b : BitVec 7) (ssp : Bool) (rows : BitVec 2) (gran : BitVec 2) (ty : BitVec 3) (ab : BitVec 5) : Statement (.cunpack e d a b ssp rows gran ty ab) := by
  intro _
  refine ⟨_, _, rfl, rfl, ?_, fun x => ?_⟩
  · simp only [hasSecond, packT_cls]; rfl
  · rw [decode_packT7 _ _ _ _ _ _ _ (by decide)]
    have hz : (0#17 ++ BitVec.ofBool ssp ++ rows ++ gran ++ ty ++ 0#2 ++ ab : W32).toNat = ssp.toNat * 2 ^ 14 + rows.toNat * 2 ^ 12 + gran.toNat * 2 ^ 10 + ty.toNat * 2 ^ 7 + ab.toNat := by
      refine (toNat_app _ _).trans ?_
      simp only [toNat_app, BitVec.toNat_ofBool, BitVec.toNat_ofNat]; omega
    have h_ssp := Bool.toNat_lt ssp
    have h_rows := rows.isLt
    have h_gran := gran.isLt
    have h_ty := ty.isLt
    have h_ab := ab.isLt
    show decodeC7 _ _ _ _ _ _ (0#17 ++ BitVec.ofBool ssp ++ rows ++ gran ++ ty ++ 0#2 ++ ab : W32) = _
    generalize (0#17 ++ BitVec.ofBool ssp ++ rows ++ gran ++ ty ++ 0#2 ++ ab : W32) = z at hz ⊢
    have f1 : z.extractLsb' 15 17 = 0#17 := field_eq _ _ _ (by rw [hz]; simp only [BitVec.toNat_ofNat]; omega)
    have f2 : z.extractLsb' 5 2 = 0#2 := field_eq _ _ _ (by rw [hz]; simp only [BitVec.toNat_ofNat]; omega)
    have f3 : z.extractLsb' 12 2 = rows := field_eq _ _ _ (by rw [hz]; omega)
    have f4 : z.extractLsb' 10 2 = gran := field_eq _ _ _ (by rw [hz]; omega)
    have f5 : z.extractLsb' 7 3 = ty := field_eq _ _ _ (by rw [hz]; omega)
    have f6 : z.extractLsb' 0 5 = ab := field_eq _ _ _ (by rw [hz]; omega)
    have f7 : z.getLsbD 14 = ssp := bit_eq _ _ _ (by rw [hz]; omega)
    simp only [decodeC7, f1, f2, f3, f4, f5, f6, f7]
    rfl

theorem cbinit (e : Bool) (a : BitVec 7) (b : BitVec 7) (n : BitVec 5) : Statement (.cbinit e a b n) := by
  intro _
  refine ⟨_, _, rfl, rfl, ?_, fun x => ?_⟩
  · simp only [hasSecond, packT_cls]; rfl
  · rw [decode_packT7 _ _ _ _ _ _ _ (by decide)]
    have hz : (0#27 ++ n : W32).toNat = n.toNat := by
      refine (toNat_app _ _).trans ?_
      simp only [toNat_app, BitVec.toNat_ofBool, BitVec.toNat_ofNat]; omega
    have h_n := n.isLt
    show decodeC7 _ _ _ _ _ _ (0#27 ++ n : W32) = _
    generalize (0#27 ++ n : W32) = z at hz ⊢
    have f1 : z.extractLsb' 5 27 = 0#27 := field_eq _ _ _ (by rw [hz]; simp only [BitVec.toNat_ofNat]; omega)
    have f2 : z.extractLsb' 0 5 = n := field_eq _ _ _ (by rw [hz]; omega)
    simp only [decodeC7, f1, f2]
    rfl

theorem cbpush (e : Bool) (a : BitVec 7) (b : BitVec 7) (ssp : BitVec 2) (n : BitVec 5) : Statement (.cbpush e a b ssp n) := by
  intro _
  refine ⟨_, _, rfl, rfl, ?_, fun x => ?_⟩
  · simp only [hasSecond, packT_cls]; rfl
  · rw [decode_packT7 _ _ _ _ _ _ _ (by decide)]
    have hz : (0#25 ++ ssp ++ n : W32).toNat = ssp.toNat * 2 ^ 5 + n.toNat := by
      refine (toNat_app _ _).trans ?_
      simp only [toNat_app, BitVec.toNat_ofBool, BitVec.toNat_ofNat]; omega
    have h_ssp := ssp.isLt
    have h_n := n.isLt
    show decodeC7 _ _ _ _ _ _ (0#25 ++ ssp ++ n : W32) = _
    generalize (0#25 ++ ssp ++ n : W32) = z at hz ⊢
    have f1 : z.extractLsb' 7 25 = 0#25 := field_eq _ _ _ (by rw [hz]; simp only [BitVec.toNat_ofNat]; omega)
    have f2 : z.extractLsb' 5 2 = ssp := field_eq _ _ _ (by rw [hz]; omega)
    have f3 : z.extractLsb' 0 5 = n := field_eq _ _ _ (by rw [hz]; omega)
    simp only [decodeC7, f1, f2, f3]
    rfl

theorem cbpop (e : Bool) (d : BitVec 7) (n : BitVec 5) : Statement (.cbpop e d n) := by
  intro _
  refine ⟨_, _, rfl, rfl, ?_, fun x => ?_⟩
  · simp only [hasSecond, packT_cls]; rfl
  · rw [decode_packT7 _ _ _ _ _ _ _ (by decide)]
    have hz : (0#27 ++ n : W32).toNat = n.toNat := by
      refine (toNat_app _ _).trans ?_
      simp only [toNat_app, BitVec.toNat_ofBool, BitVec.toNat_ofNat]; omega
    have h_n := n.isLt
    show decodeC7 _ _ _ _ _ _ (0#27 ++ n : W32) = _
    generalize (0#27 ++ n : W32) = z at hz ⊢
    have f1 : z.extractLsb' 5 27 = 0#27 := field_eq _ _ _ (by rw [hz]; simp only [BitVec.toNat_ofNat]; omega)
    have f2 : z.extractLsb' 0 5 = n := field_eq _ _ _ (by rw [hz]; omega)
    simp only [decodeC7, f1, f2]
    rfl

theorem cbfree (e : Bool) (n : BitVec 5) : Statement (.cbfree e n) := by
  intro _
  refine ⟨_, _, rfl, rfl, ?_, fun x => ?_⟩
  · simp only [hasSecond, packT_cls]; rfl
  · rw [decode_packT7 _ _ _ _ _ _ _ (by decide)]
    have hz : (0#27 ++ n : W32).toNat = n.toNat := by
      refine (toNat_app _ _).trans ?_
      simp only [toNat_app, BitVec.toNat_ofBool, BitVec.toNat_ofNat]; omega
    have h_n := n.isLt
    show decodeC7 _ _ _ _ _ _ (0#27 ++ n : W32) = _
    generalize (0#27 ++ n : W32) = z at hz ⊢
    have f1 : z.extractLsb' 5 27 = 0#27 := field_eq _ _ _ (by rw [hz]; simp only [BitVec.toNat_ofNat]; omega)
    have f2 : z.extractLsb' 0 5 = n := field_eq _ _ _ (by rw [hz]; omega)
    simp only [decodeC7, f1, f2]
    rfl

theorem abarInit (e : Bool) (a : BitVec 7) (n : BitVec 5) : Statement (.abarInit e a n) := by
  intro _
  refine ⟨_, _, rfl, rfl, ?_, fun x => ?_⟩
  · simp only [hasSecond, packT_cls]; rfl
  · rw [decode_packT7 _ _ _ _ _ _ _ (by decide)]
    have hz : (0#25 ++ 0#2 ++ n : W32).toNat = n.toNat := by
      refine (toNat_app _ _).trans ?_
      simp only [toNat_app, BitVec.toNat_ofBool, BitVec.toNat_ofNat]; omega
    have h_n := n.isLt
    show decodeC7 _ _ _ _ _ _ (0#25 ++ 0#2 ++ n : W32) = _
    generalize (0#25 ++ 0#2 ++ n : W32) = z at hz ⊢
    have f1 : z.extractLsb' 5 2 = 0#2 := field_eq _ _ _ (by rw [hz]; simp only [BitVec.toNat_ofNat]; omega)
    have f2 : z.extractLsb' 7 25 = 0#25 := field_eq _ _ _ (by rw [hz]; simp only [BitVec.toNat_ofNat]; omega)
    have f3 : z.extractLsb' 0 5 = n := field_eq _ _ _ (by rw [hz]; omega)
    simp only [decodeC7, f1, f2, f3]
    rfl

theorem abarArrive (e : Bool) (n : BitVec 5) : Statement (.abarArrive e n) := by
  intro _
  refine ⟨_, _, rfl, rfl, ?_, fun x => ?_⟩
  · simp only [hasSecond, packT_cls]; rfl
  · rw [decode_packT7 _ _ _ _ _ _ _ (by decide)]
    have hz : (0#25 ++ 1#2 ++ n : W32).toNat = 1 * 2 ^ 5 + n.toNat := by
      refine (toNat_app _ _).trans ?_
      simp only [toNat_app, BitVec.toNat_ofBool, BitVec.toNat_ofNat]; omega
    have h_n := n.isLt
    show decodeC7 _ _ _ _ _ _ (0#25 ++ 1#2 ++ n : W32) = _
    generalize (0#25 ++ 1#2 ++ n : W32) = z at hz ⊢
    have f1 : z.extractLsb' 5 2 = 1#2 := field_eq _ _ _ (by rw [hz]; simp only [BitVec.toNat_ofNat]; omega)
    have f2 : z.extractLsb' 7 25 = 0#25 := field_eq _ _ _ (by rw [hz]; simp only [BitVec.toNat_ofNat]; omega)
    have f3 : z.extractLsb' 0 5 = n := field_eq _ _ _ (by rw [hz]; omega)
    simp only [decodeC7, f1, f2, f3]
    rfl

theorem abarWait (e : Bool) (a : BitVec 7) (n : BitVec 5) : Statement (.abarWait e a n) := by
  intro _
  refine ⟨_, _, rfl, rfl, ?_, fun x => ?_⟩
  · simp only [hasSecond, packT_cls]; rfl
  · rw [decode_packT7 _ _ _ _ _ _ _ (by decide)]
    have hz : (0#25 ++ 2#2 ++ n : W32).toNat = 2 * 2 ^ 5 + n.toNat := by
      refine (toNat_app _ _).trans ?_
      simp only [toNat_app, BitVec.toNat_ofBool, BitVec.toNat_ofNat]; omega
    have h_n := n.isLt
    show decodeC7 _ _ _ _ _ _ (0#25 ++ 2#2 ++ n : W32) = _
    generalize (0#25 ++ 2#2 ++ n : W32) = z at hz ⊢
    have f1 : z.extractLsb' 5 2 = 2#2 := field_eq _ _ _ (by rw [hz]; simp only [BitVec.toNat_ofNat]; omega)
    have f2 : z.extractLsb' 7 25 = 0#25 := field_eq _ _ _ (by rw [hz]; simp only [BitVec.toNat_ofNat]; omega)
    have f3 : z.extractLsb' 0 5 = n := field_eq _ _ _ (by rw [hz]; omega)
    simp only [decodeC7, f1, f2, f3]
    rfl

theorem launch (e : Bool) (a : BitVec 7) (q : BitVec 4) : Statement (.launch e a q) := by
  intro _
  refine ⟨_, _, rfl, rfl, ?_, fun x => ?_⟩
  · simp only [hasSecond, packT_cls]; rfl
  · rw [decode_packT7 _ _ _ _ _ _ _ (by decide)]
    have hz : (0#28 ++ q : W32).toNat = q.toNat := by
      refine (toNat_app _ _).trans ?_
      simp only [toNat_app, BitVec.toNat_ofBool, BitVec.toNat_ofNat]; omega
    have h_q := q.isLt
    show decodeC7 _ _ _ _ _ _ (0#28 ++ q : W32) = _
    generalize (0#28 ++ q : W32) = z at hz ⊢
    have f1 : z.extractLsb' 4 28 = 0#28 := field_eq _ _ _ (by rw [hz]; simp only [BitVec.toNat_ofNat]; omega)
    have f2 : z.extractLsb' 0 4 = q := field_eq _ _ _ (by rw [hz]; omega)
    simp only [decodeC7, f1, f2]
    rfl

theorem evcfg (e : Bool) (d : BitVec 7) (set : Bool) (action : BitVec 2) (cls : BitVec 3) : Statement (.evcfg e d set action cls) := by
  intro _
  refine ⟨_, _, rfl, rfl, ?_, fun x => ?_⟩
  · simp only [hasSecond, packT_cls]; rfl
  · rw [decode_packT7 _ _ _ _ _ _ _ (by decide)]
    have hz : (0#26 ++ BitVec.ofBool set ++ action ++ cls : W32).toNat = set.toNat * 2 ^ 5 + action.toNat * 2 ^ 3 + cls.toNat := by
      refine (toNat_app _ _).trans ?_
      simp only [toNat_app, BitVec.toNat_ofBool, BitVec.toNat_ofNat]; omega
    have h_set := Bool.toNat_lt set
    have h_action := action.isLt
    have h_cls := cls.isLt
    show decodeC7 _ _ _ _ _ _ (0#26 ++ BitVec.ofBool set ++ action ++ cls : W32) = _
    generalize (0#26 ++ BitVec.ofBool set ++ action ++ cls : W32) = z at hz ⊢
    have f1 : z.extractLsb' 6 26 = 0#26 := field_eq _ _ _ (by rw [hz]; simp only [BitVec.toNat_ofNat]; omega)
    have f2 : z.extractLsb' 3 2 = action := field_eq _ _ _ (by rw [hz]; omega)
    have f3 : z.extractLsb' 0 3 = cls := field_eq _ _ _ (by rw [hz]; omega)
    have f4 : z.getLsbD 5 = set := bit_eq _ _ _ (by rw [hz]; omega)
    simp only [decodeC7, f1, f2, f3, f4]
    rfl

theorem br (e : Bool) (t : BitVec 16) : Statement (.br e t) := by
  intro _
  refine ⟨_, _, rfl, rfl, ?_, fun x => ?_⟩
  · simp only [hasSecond, packB_cls]; rfl
  · rw [decode_packB _ _ _ _ _]
    rfl

theorem bz (e : Bool) (c : BitVec 7) (t : BitVec 16) : Statement (.bz e c t) := by
  intro _
  refine ⟨_, _, rfl, rfl, ?_, fun x => ?_⟩
  · simp only [hasSecond, packB_cls]; rfl
  · rw [decode_packB _ _ _ _ _]
    rfl

theorem bnz (e : Bool) (c : BitVec 7) (t : BitVec 16) : Statement (.bnz e c t) := by
  intro _
  refine ⟨_, _, rfl, rfl, ?_, fun x => ?_⟩
  · simp only [hasSecond, packB_cls]; rfl
  · rw [decode_packB _ _ _ _ _]
    rfl

theorem bmz (e : Bool) (c : BitVec 7) (t : BitVec 16) : Statement (.bmz e c t) := by
  intro _
  refine ⟨_, _, rfl, rfl, ?_, fun x => ?_⟩
  · simp only [hasSecond, packB_cls]; rfl
  · rw [decode_packB _ _ _ _ _]
    rfl

theorem bmnz (e : Bool) (c : BitVec 7) (t : BitVec 16) : Statement (.bmnz e c t) := by
  intro _
  refine ⟨_, _, rfl, rfl, ?_, fun x => ?_⟩
  · simp only [hasSecond, packB_cls]; rfl
  · rw [decode_packB _ _ _ _ _]
    rfl

theorem call (e : Bool) (c : BitVec 7) (t : BitVec 16) : Statement (.call e c t) := by
  intro _
  refine ⟨_, _, rfl, rfl, ?_, fun x => ?_⟩
  · simp only [hasSecond, packB_cls]; rfl
  · rw [decode_packB _ _ _ _ _]
    rfl

theorem jr (e : Bool) (c : BitVec 7) : Statement (.jr e c) := by
  intro _
  refine ⟨_, _, rfl, rfl, ?_, fun x => ?_⟩
  · simp only [hasSecond, packB_cls]; rfl
  · rw [decode_packB _ _ _ _ _]
    rfl

theorem loop (e : Bool) (c : BitVec 7) (t : BitVec 16) : Statement (.loop e c t) := by
  intro _
  refine ⟨_, _, rfl, rfl, ?_, fun x => ?_⟩
  · simp only [hasSecond, packB_cls]; rfl
  · rw [decode_packB _ _ _ _ _]
    rfl

theorem trap (e : Bool) (k : BitVec 8) : Statement (.trap e k) := by
  intro _
  refine ⟨_, _, rfl, rfl, ?_, fun x => ?_⟩
  · simp only [hasSecond, packB_cls]; rfl
  · rw [decode_packB _ _ _ _ _]
    have f1 : (k.setWidth 16).extractLsb' 8 8 = 0 := by
      have := k.isLt
      apply BitVec.eq_of_toNat_eq; rw [BitVec.extractLsb'_toNat, BitVec.toNat_setWidth, Nat.shiftRight_eq_div_pow]; simp only [BitVec.toNat_ofNat, BitVec.ofNat_eq_ofNat]; omega
    have f2 : (k.setWidth 16).extractLsb' 0 8 = k := by
      have := k.isLt
      apply BitVec.eq_of_toNat_eq; rw [BitVec.extractLsb'_toNat, BitVec.toNat_setWidth, Nat.shiftRight_eq_div_pow]; omega
    have f3 : k.toNat % 65536 < 256 := by omega
    simp [decodeC6, one, zf, zb, noOnce, Instr.form, Instr.two, f1, f2, f3]

theorem wbase (e : Bool) (n : BitVec 5) : Statement (.wbase e n) := by
  intro _
  refine ⟨_, _, rfl, rfl, ?_, fun x => ?_⟩
  · simp only [hasSecond, packB_cls]; rfl
  · rw [decode_packB _ _ _ _ _]
    have hn := n.isLt
    have f1 : (n.setWidth 16).extractLsb' 5 11 = 0 := by
      have := n.isLt
      apply BitVec.eq_of_toNat_eq; rw [BitVec.extractLsb'_toNat, BitVec.toNat_setWidth, Nat.shiftRight_eq_div_pow]; simp only [BitVec.toNat_ofNat, BitVec.ofNat_eq_ofNat]; omega
    have f2 : (n.setWidth 16).extractLsb' 0 5 = n := by
      have := n.isLt
      apply BitVec.eq_of_toNat_eq; rw [BitVec.extractLsb'_toNat, BitVec.toNat_setWidth, Nat.shiftRight_eq_div_pow]; omega
    have f3 : n.toNat % 65536 < 32 := by omega
    simp [decodeC6, one, zf, zb, noOnce, Instr.form, Instr.two, f1, f2, f3]

theorem bar (e : Bool) (n : BitVec 4) : Statement (.bar e n) := by
  intro _
  refine ⟨_, _, rfl, rfl, ?_, fun x => ?_⟩
  · simp only [hasSecond, packB_cls]; rfl
  · rw [decode_packB _ _ _ _ _]
    have hn := n.isLt
    have f1 : (n.setWidth 16).extractLsb' 4 12 = 0 := by
      have := n.isLt
      apply BitVec.eq_of_toNat_eq; rw [BitVec.extractLsb'_toNat, BitVec.toNat_setWidth, Nat.shiftRight_eq_div_pow]; simp only [BitVec.toNat_ofNat, BitVec.ofNat_eq_ofNat]; omega
    have f2 : (n.setWidth 16).extractLsb' 0 4 = n := by
      have := n.isLt
      apply BitVec.eq_of_toNat_eq; rw [BitVec.extractLsb'_toNat, BitVec.toNat_setWidth, Nat.shiftRight_eq_div_pow]; omega
    have f3 : n.toNat % 65536 < 16 := by omega
    simp [decodeC6, one, zf, zb, noOnce, Instr.form, Instr.two, f1, f2, f3]

theorem exit (e : Bool) : Statement (.exit e) := by
  intro _
  refine ⟨_, _, rfl, rfl, ?_, fun x => ?_⟩
  · simp only [hasSecond, packB_cls]; rfl
  · rw [decode_packB _ _ _ _ _]
    rfl

theorem yield (e : Bool) : Statement (.yield e) := by
  intro _
  refine ⟨_, _, rfl, rfl, ?_, fun x => ?_⟩
  · simp only [hasSecond, packB_cls]; rfl
  · rw [decode_packB _ _ _ _ _]
    rfl

theorem sys (e : Bool) (c : BitVec 7) (n : BitVec 8) : Statement (.sys e c n) := by
  intro _
  refine ⟨_, _, rfl, rfl, ?_, fun x => ?_⟩
  · simp only [hasSecond, packB_cls]; rfl
  · rw [decode_packB _ _ _ _ _]
    have f1 : (n.setWidth 16).extractLsb' 8 8 = 0 := by
      have := n.isLt
      apply BitVec.eq_of_toNat_eq; rw [BitVec.extractLsb'_toNat, BitVec.toNat_setWidth, Nat.shiftRight_eq_div_pow]; simp only [BitVec.toNat_ofNat, BitVec.ofNat_eq_ofNat]; omega
    have f2 : (n.setWidth 16).extractLsb' 0 8 = n := by
      have := n.isLt
      apply BitVec.eq_of_toNat_eq; rw [BitVec.extractLsb'_toNat, BitVec.toNat_setWidth, Nat.shiftRight_eq_div_pow]; omega
    have f3 : n.toNat % 65536 < 256 := by omega
    simp [decodeC6, one, zb, noOnce, Instr.form, Instr.two, f1, f2, f3]

theorem rtrap (e : Bool) : Statement (.rtrap e) := by
  intro _
  refine ⟨_, _, rfl, rfl, ?_, fun x => ?_⟩
  · simp only [hasSecond, packB_cls]; rfl
  · rw [decode_packB _ _ _ _ _]
    rfl

theorem laneChoice (core : Nat) (lane : Nat) : Statement (.laneChoice core lane) := by rfl

theorem asyncReturn (n : Nat) : Statement (.asyncReturn n) := by rfl

theorem runCommit (g : Nat) : Statement (.runCommit g) := by rfl

theorem yieldedRunCommit (g : Nat) : Statement (.yieldedRunCommit g) := by rfl

theorem barrierStall (team : Nat) (bar : Nat) : Statement (.barrierStall team bar) := by rfl

theorem tripleStarvation (g : Nat) (idx : Nat) : Statement (.tripleStarvation g idx) := by rfl

theorem eventWindowRestart (core : Nat) : Statement (.eventWindowRestart core) := by rfl

theorem engineAccept (g : Nat) : Statement (.engineAccept g) := by rfl

theorem mmloopComplete (core : Nat) : Statement (.mmloopComplete core) := by rfl

theorem copyComplete (core : Nat) (slot : Nat) : Statement (.copyComplete core slot) := by rfl

theorem cbFillComplete (core : Nat) (slot : Nat) : Statement (.cbFillComplete core slot) := by rfl

theorem cbFillStart (core : Nat) (slot : Nat) : Statement (.cbFillStart core slot) := by rfl

theorem abarArrivalCount (team : Nat) (bar : Nat) : Statement (.abarArrivalCount team bar) := by rfl

theorem cbfreeSlotFreed (team : Nat) (buf : Nat) : Statement (.cbfreeSlotFreed team buf) := by rfl

theorem sysAnswer (g : Nat) (idx : Nat) (v : BitVec 64) : Statement (.sysAnswer g idx v) := by rfl

theorem launchRecordAccept (g : Nat) : Statement (.launchRecordAccept g) := by rfl

theorem lqdoor (part : Nat) (q : Nat) (addr : BitVec 64) : Statement (.lqdoor part q addr) := by rfl

theorem lqstatClear (part : Nat) (q : Nat) (v : BitVec 64) : Statement (.lqstatClear part q v) := by rfl

theorem preempt (part : Nat) (lid : Nat) : Statement (.preempt part lid) := by rfl

theorem resume (part : Nat) (lid : Nat) : Statement (.resume part lid) := by rfl

theorem terminate (part : Nat) (lid : Nat) : Statement (.terminate part lid) := by rfl

theorem evcntWrite (part : Nat) (c : Nat) (v : BitVec 64) : Statement (.evcntWrite part c v) := by rfl

theorem resvcoreWrite (part : Nat) (w : Nat) (v : BitVec 64) : Statement (.resvcoreWrite part w v) := by rfl

theorem placeTeam (part : Nat) : Statement (.placeTeam part) := by rfl

theorem coopPlace (part : Nat) : Statement (.coopPlace part) := by rfl

theorem groupRestore (teamImage : Bool) (uid : Nat) : Statement (.groupRestore teamImage uid) := by rfl

theorem teamComplete (team : Nat) : Statement (.teamComplete team) := by rfl

theorem coreRemoveComplete (part : Nat) : Statement (.coreRemoveComplete part) := by rfl

theorem gateSendAccept (conv : Nat) (role : Nat) : Statement (.gateSendAccept conv role) := by rfl

theorem gateExchangeComplete (conv : Nat) (ex : Nat) (party : Nat) : Statement (.gateExchangeComplete conv ex party) := by rfl

theorem remoteRequest (p : Packet) : Statement (.remoteRequest p) := by rfl

theorem remoteAck (req : Nat) (answers : List PktAnswer) : Statement (.remoteAck req answers) := by rfl

theorem remoteResend (req : Nat) : Statement (.remoteResend req) := by rfl

theorem portDown (port : Nat) (lanes : Nat) : Statement (.portDown port lanes) := by rfl

theorem portUp (port : Nat) (lanes : Nat) : Statement (.portUp port lanes) := by rfl

theorem ctxCreate (part : Nat) (cc : Nat) (a0 : BitVec 64) : Statement (.ctxCreate part cc a0) := by rfl

theorem ctxDestroy (part : Nat) (cc : Nat) (a0 : BitVec 64) (a1 : BitVec 64) : Statement (.ctxDestroy part cc a0 a1) := by rfl

theorem ctxRoot (part : Nat) (cc : Nat) (a0 : BitVec 64) (a1 : BitVec 64) : Statement (.ctxRoot part cc a0 a1) := by rfl

theorem groupResume (part : Nat) (cc : Nat) (a0 : BitVec 64) (a1 : BitVec 64) (a2 : BitVec 64) : Statement (.groupResume part cc a0 a1 a2) := by rfl

theorem choreoLoad (part : Nat) (cc : Nat) (a0 : BitVec 64) : Statement (.choreoLoad part cc a0) := by rfl

theorem choreoUnload (part : Nat) (cc : Nat) (a0 : BitVec 64) : Statement (.choreoUnload part cc a0) := by rfl

theorem convCreate (part : Nat) (cc : Nat) (a0 : BitVec 64) (a1 : BitVec 64) (a2 : BitVec 64) : Statement (.convCreate part cc a0 a1 a2) := by rfl

theorem convCreateTimeout (conv : Nat) : Statement (.convCreateTimeout conv) := by rfl

theorem convDestroy (part : Nat) (cc : Nat) (a0 : BitVec 64) : Statement (.convDestroy part cc a0) := by rfl

theorem chanKey (part : Nat) (cc : Nat) (a0 : BitVec 64) (a1 : BitVec 64) (a2 : BitVec 64) : Statement (.chanKey part cc a0 a1 a2) := by rfl

theorem measExtend (part : Nat) (cc : Nat) (a0 : BitVec 64) : Statement (.measExtend part cc a0) := by rfl

theorem tensorOpen (part : Nat) (cc : Nat) : Statement (.tensorOpen part cc) := by rfl

theorem tensorBump (part : Nat) (cc : Nat) (a0 : BitVec 64) : Statement (.tensorBump part cc a0) := by rfl

theorem tensorClose (part : Nat) (cc : Nat) (a0 : BitVec 64) : Statement (.tensorClose part cc a0) := by rfl

theorem tlbInvalidatePage (part : Nat) (ctx : Nat) : Statement (.tlbInvalidatePage part ctx) := by rfl

theorem tlbInvalidateContext (part : Nat) (ctx : Nat) : Statement (.tlbInvalidateContext part ctx) := by rfl

theorem tlbInvalidatePartition (part : Nat) : Statement (.tlbInvalidatePartition part) := by rfl

theorem tlbInvalidateDone (part : Nat) : Statement (.tlbInvalidateDone part) := by rfl

theorem ringConfigWrite (part : Nat) (isBase : Bool) (v : BitVec 64) : Statement (.ringConfigWrite part isBase v) := by rfl

theorem ringtailWrite (part : Nat) (v : BitVec 64) : Statement (.ringtailWrite part v) := by rfl

theorem partCreate (clus : BitVec 32) (ccs : BitVec 32) (gran : Nat) (ports : BitVec 32) (image : List (BitVec 8)) : Statement (.partCreate clus ccs gran ports image) := by rfl

theorem partDestroy (part : Nat) : Statement (.partDestroy part) := by rfl

theorem coreAdd (part : Nat) (clus : BitVec 32) : Statement (.coreAdd part clus) := by rfl

theorem coreRemove (part : Nat) (clus : BitVec 32) (force : Bool) : Statement (.coreRemove part clus force) := by rfl

theorem hbmGrow (part : Nat) (n : Nat) : Statement (.hbmGrow part n) := by rfl

theorem hbmShrink (part : Nat) (n : Nat) : Statement (.hbmShrink part n) := by rfl

theorem portSet (part : Nat) (ports : BitVec 32) : Statement (.portSet part ports) := by rfl

theorem sleep (force : Bool) : Statement (.sleep force) := by rfl

theorem wakemode (mode : BitVec 64) : Statement (.wakemode mode) := by rfl

theorem granRetire (gran : Nat) : Statement (.granRetire gran) := by rfl

theorem fwWrite (off : Nat) (bytes : List (BitVec 8)) : Statement (.fwWrite off bytes) := by rfl

theorem fwCheck : Statement .fwCheck := by rfl

theorem fwCommit : Statement .fwCommit := by rfl

theorem fwSvn (v : BitVec 32) : Statement (.fwSvn v) := by rfl

theorem fwRevoke (key : Nat) : Statement (.fwRevoke key) := by rfl

theorem waitingCommandResume (part : Nat) : Statement (.waitingCommandResume part) := by rfl

theorem granuleScrubDone (fails : Bool) : Statement (.granuleScrubDone fails) := by rfl

theorem uncorrectableError (site : ErrSite) : Statement (.uncorrectableError site) := by rfl

theorem correctedError (cls : Nat) : Statement (.correctedError cls) := by rfl

theorem ceWindowRestart : Statement .ceWindowRestart := by rfl

theorem celimWrite (cls : Nat) (v : BitVec 64) : Statement (.celimWrite cls v) := by rfl

theorem errRingConfigWrite (isBase : Bool) (v : BitVec 64) : Statement (.errRingConfigWrite isBase v) := by rfl

theorem errtailWrite (v : BitVec 64) : Statement (.errtailWrite v) := by rfl

theorem pwrpeakRead : Statement .pwrpeakRead := by rfl

theorem retryintWrite (v : BitVec 64) : Statement (.retryintWrite v) := by rfl

theorem clockEvaluation (smp : ThermalSample) : Statement (.clockEvaluation smp) := by rfl

theorem registerWrite (blk : RegBlock) (off : Nat) (v : BitVec 64) : Statement (.registerWrite blk off v) := by rfl

theorem coldWrite (v : BitVec 64) : Statement (.coldWrite v) := by rfl

theorem perstDeassert : Statement .perstDeassert := by rfl

theorem hotReset : Statement .hotReset := by rfl

theorem hbmStackTrained (stack : Nat) (ok : Bool) : Statement (.hbmStackTrained stack ok) := by rfl

theorem clusterSelfTestDone (clu : Nat) (ok : Bool) : Statement (.clusterSelfTestDone clu ok) := by rfl

theorem vfFlr (vf : Nat) : Statement (.vfFlr vf) := by rfl

theorem pf0Flr : Statement .pf0Flr := by rfl

theorem channelMessage (ch : Nat) (msg : List (BitVec 8)) : Statement (.channelMessage ch msg) := by rfl

theorem getVersion (mb : Nat) (r : SpdmReq) : Statement (.getVersion mb r) := by rfl

theorem getCapabilities (mb : Nat) (r : SpdmReq) : Statement (.getCapabilities mb r) := by rfl

theorem negotiateAlgorithms (mb : Nat) (r : SpdmReq) : Statement (.negotiateAlgorithms mb r) := by rfl

theorem getDigests (mb : Nat) (r : SpdmReq) : Statement (.getDigests mb r) := by rfl

theorem getCertificate (mb : Nat) (r : SpdmReq) : Statement (.getCertificate mb r) := by rfl

theorem challenge (mb : Nat) (r : SpdmReq) : Statement (.challenge mb r) := by rfl

theorem getMeasurements (mb : Nat) (r : SpdmReq) : Statement (.getMeasurements mb r) := by rfl

theorem spdmUnsupportedRequest (mb : Nat) (code : BitVec 8) (r : SpdmReq) : Statement (.spdmUnsupportedRequest mb code r) := by rfl

theorem controlCoreStore (part : Nat) (addr : Nat) (bytes : List (BitVec 8)) : Statement (.controlCoreStore part addr bytes) := by rfl

theorem memorySideCacheWriteBack (line : Nat) : Statement (.memorySideCacheWriteBack line) := by rfl

theorem perstAssert : Statement .perstAssert := by rfl

theorem alwaysOnPowerLoss : Statement .alwaysOnPowerLoss := by rfl

end Sys2Proof.Laws.RoundTrip
end

