-- ==== Sys2Proof/Tests/Slice0.lean ====
section
/-!
SUPPORT. Tests of the model. Expected values are the manual's own: its encoding tables, worked examples and tables of edge
cases, each named in the comment of its test. Witnesses of the statements' hypotheses follow.
-/

namespace Sys2Proof.Tests

set_option Elab.async false

open Sys2Proof Sys2Proof.Machine Sys2Proof.Claims

/-! ## Small states -/

/-- A team of one group with 8 KiB of slice on core 0. -/
def team0 : Team := Team.fresh 0 0 0 1 0 0 false 0 0x2000 1

/-- Its group, of 16 threads and 32 registers, in the middle of a run. -/
def group0 : Group :=
  { Group.fresh 1 team0 0 0 0 .w16 32 0x100000 0x100400 [] 1 0 1 0 0 with stat := .running }

/-- A partition on cluster 0 and eight granules, whose context 0 has page tables. -/
def part0 : Partition := { Partition.fresh 0 1 1 0 8 1 with contexts := [⟨0, some 0x1000⟩] }

/-- A package at stage 2 in which one group issues. -/
def mk (g : Group) : State :=
  { State.reset with
    groups := [g], teams := [team0], parts := [part0], cur := some 1, nextUid := 2
    pkg := { Package.reset with powered := true, stage := 2 } }

/-- A group with some vector registers set. -/
def withV (g : Group) (rs : List (Nat × VReg)) : Group := { g with vregs := rs.foldl (fun l r => l.set r.1 r.2) g.vregs }

/-- A group with some scalars set. -/
def withS (g : Group) (rs : List (Nat × W64)) : Group := { g with sregs := rs.foldl (fun l r => l.set r.1 r.2) g.sregs }

/-- The tables of `State.installed` under a group, whose one leaf, for the first 2 MiB of the context, is `e`. -/
def leafed (g : Group) (e : Nat) : State :=
  let m := Memory.writeN [] (part0.base + 0x1000) (leBytes 8 0x2001)
  let m := m.writeN (part0.base + 0x2000) (leBytes 8 0x3001)
  { mk g with hbm := m.writeN (part0.base + 0x3000) (leBytes 8 e) }

/-- The pages of `State.installed` under a group: that leaf gives the partition's byte 0, with every permission. -/
def mapped (g : Group) : State := leafed g 0x4F

/-- A group at 0x8000 of a context that is mapped, with some words there. -/
def placed (ws : List Nat) : State :=
  let g := { group0 with pc := 0x8000 }
  let s := mapped g
  { s with hbm := s.hbm.writeN (part0.base + 0x8000) (ws.flatMap (leBytes 4)) }

/-- What is seen of the state and of group 1 after an instruction. -/
def run {α : Type} (i : Instr) (s : State) (f : State → Group → α) : Option α :=
  match exec i s with
  | .next t => (t.group? 1).map (f t)
  | _ => none

/-- The first elements of a register. -/
def els (g : Group) (d : Fld) (n : Nat) : List Nat := ((g.v d).toList n).map BitVec.toNat

/-! ## Well-formedness: one ill-formed term for each check -/

/-- Reserved forms (R156, R162, R178, R185, R218, R220). -/
theorem test_wf_refuses_forms :
    Instr.wf (.xsend false 2 8 1 false false false 3 5) = false ∧ Instr.wf (.xsend false 2 8 1 true false false 0 5) = false ∧
    Instr.wf (.xget false 2 8 1 false 3) = false ∧ Instr.wf (.xred false 2 8 1 8 true false 0 3) = false ∧
    Instr.wf (.xred false 2 8 1 10 true false 1 4) = false ∧ Instr.wf (.xapp false 2 8 1 true 3 3) = false ∧
    Instr.wf (.mmloop false 5 16 1 0 0 false false 3 0) = false ∧ Instr.wf (.cpy false 1 0 2 3 3 0) = false ∧
    Instr.wf (.tfillSend false 80 1 2 3 0) = false ∧ Instr.wf (.tfillAccept false 80 1 2 3) = false ∧
    Instr.wf (.tburn false 80 1 2) = false ∧ Instr.wf (.atom false false 6 8 2 0 0 0 false false 11) = false ∧
    Instr.wf (.atoms false false 6 8 2 0 0 0 true false 12) = false ∧
    Instr.wf (.atomd false false 6 8 2 0 0 0 true true 10) = false := by decide

/-- Register fields and codes outside their legal values (R22, R50, R52, R66). -/
theorem test_wf_refuses_fields :
    Instr.wf (.sadd false 3 91 2) = false ∧ Instr.wf (.sadd false 126 1 2) = false ∧ Instr.wf (.sadd false 67 1 2) = false ∧
    Instr.wf (.vaddW false false 5 0 2) = false ∧ Instr.wf (.ldgQ false false 6 8 0) = false ∧
    Instr.wf (.csend false 64 1 4) = false ∧ Instr.wf (.loop false 64 0) = false ∧
    Instr.wf (.fence false 0 5 0) = false ∧ Instr.wf (.fence false 6 0 0) = false ∧ Instr.wf (.fence false 0 0 7) = false ∧
    Instr.wf (.vstruncS16 false 3 2 16) = false ∧ Instr.wf (.vcvt false false 3 2 60) = false ∧
    Instr.wf (.sshli false 3 2 64) = false := by decide

/-- Numbers that name nothing in the package (R1, R250, R330). -/
theorem test_wf_refuses_names :
    Instr.wf (.laneChoice 256 0) = false ∧ Instr.wf (.laneChoice 0 64) = false ∧
    Instr.wf (.eventWindowRestart 256) = false ∧ Instr.wf (.mmloopComplete 256) = false ∧
    Instr.wf (.copyComplete 0 64) = false ∧ Instr.wf (.cbFillStart 0 64) = false ∧ Instr.wf (.cbFillComplete 256 0) = false ∧
    Instr.wf (.barrierStall 0 16) = false ∧ Instr.wf (.abarArrivalCount 0 32) = false ∧
    Instr.wf (.cbfreeSlotFreed 0 64) = false ∧ Instr.wf (.lqdoor 0 16 0) = false ∧ Instr.wf (.lqstatClear 24 0 0) = false ∧
    Instr.wf (.evcntWrite 0 256 0) = false ∧ Instr.wf (.resvcoreWrite 0 4 0) = false ∧ Instr.wf (.portDown 32 0) = false ∧
    Instr.wf (.portUp 0 5) = false ∧ Instr.wf (.correctedError 16) = false ∧ Instr.wf (.celimWrite 16 0) = false ∧
    Instr.wf (.hbmStackTrained 8 true) = false ∧ Instr.wf (.clusterSelfTestDone 32 true) = false ∧
    Instr.wf (.vfFlr 0) = false ∧ Instr.wf (.granRetire 512) = false ∧ Instr.wf (.channelMessage 25 []) = false := by decide

/-- Terms at the edge of the same checks that are steps of the manual. -/
theorem test_wf_accepts_edges :
    Instr.wf (.sadd false 90 1 2) = false ∧ Instr.wf (.sadd false 127 90 63) = true ∧ Instr.wf (.laneChoice 255 63) = true ∧
    Instr.wf (.vaddW false false 126 0 2) = true ∧ Instr.wf (.ldgQ false false 124 126 255) = true ∧
    Instr.wf (.vstruncS16 false 3 2 15) = true ∧ Instr.wf (.granRetire 511) = true ∧ Instr.wf (.vfFlr 24) = true := by decide

/-! ## Decoding: words that the manual writes out -/

/-- Table 14 of R73, with its three words that are no instructions. -/
theorem test_decode_by_example :
    decodeTableWord 32 0x0020C082 = some (.vadd false false 3 1 2) ∧
    decodeTableWord 32 0x8A810001 = some (.vfaddX true false 4 0 1) ∧
    decodeTableWord 32 0x94340084 = some (.csend true 80 1 4) ∧
    decodeTableWord 32 0x28041000 = some (.ldg false false 4 8 0) ∧
    decodeTableWord 32 0xB1800004 = some (.bmz true 0 4) ∧
    decodeTableWord 32 0x0A814001 = some (.vfaddX false false 5 0 1) ∧
    group0.operandsOk (.vfaddX false false 5 0 1) = false ∧
    decodeTableWord 32 0x58000000 = none ∧ decodeTableWord 32 0x0E000000 = none ∧
    decodeTableWord 32 0 = none ∧ decodeTableWord 32 0xFFFFFFFF = none := by decide

/-- Table 4 of R77: scalar words. -/
theorem test_decode_scalar :
    decodeTableWord 32 0x1800C082 = some (.sadd false 3 1 2) ∧
    decodeTableWord 32 0x18F02002 = some (.sandn false 64 64 2) ∧
    decodeTableWord 32 0x27840015 = some (.smovi false 4 21) ∧
    decodeTableWord 32 0x24040A01 = some (.saddi false 4 5 1) ∧
    decodeTableWord 64 0x1234567838410000 = some (.sli false 4 0x12345678) ∧
    decodeTableWord 64 0x000003E838618000 = some (.vli false false 6 1000) := by decide

/-- Table 7 of R105: vector integer words. -/
theorem test_decode_vector_integer :
    decodeTableWord 32 0x05200000 = some (.vtid false 0) ∧ decodeTableWord 32 0x03008084 = some (.vceq false 2 1 4) ∧
    decodeTableWord 32 0x03C1C082 = some (.vsel false false 7 1 2) ∧
    decodeTableWord 32 0x04010002 = some (.vaddW false false 4 0 2) ∧
    decodeTableWord 32 0x60010005 = some (.vaddi false true 1 0 5) ∧
    decodeTableWord 64 0x0000039638214082 = some (.vlop3 false false 5 1 2 3 0x96) ∧
    decodeTableWord 32 0x06618082 = some (.vmulmod false false 6 1 2) ∧
    decodeTableWord 64 0x000000023B800180 = some (.mqld false 3 2) := by decide

/-- Table 12 of R169: memory and fabric words. -/
theorem test_decode_memory :
    decodeTableWord 32 0x2B820200 = some (.sts false false 2 1 0) ∧ decodeTableWord 32 0x29041001 = some (.ldgW false false 4 8 1) ∧
    decodeTableWord 32 0x2E040DFF = some (.sld false 4 6 (-1)) ∧ decodeTableWord 32 0x6B030202 = some (.lds false true 3 1 2) ∧
    decodeTableWord 64 0x0003000238810403 = some (.ldgX false false 4 8 3 true true 2) ∧
    decodeTableWord 64 0x000005A039418402 = some (.atom false false 6 8 2 0 5 2 true false 0) ∧
    decodeTableWord 64 0x0000004539A00000 = some (.fence false 1 0 5) ∧
    decodeTableWord 64 0x0000000539C08401 = some (.xsend false 2 8 1 false false false 0 5) ∧
    decodeTableWord 64 0x000011043A20C501 = some (.xapp false 3 10 1 true 2 4) := by decide

/-- Table 14 of R196: engine words. -/
theorem test_decode_engines :
    decodeTableWord 64 0x000000003B200180 = some (.abarInit false 3 0) ∧
    decodeTableWord 64 0x000000803A604002 = some (.cpy false 1 0 2 1 0 0) ∧
    decodeTableWord 64 0x002004003A414801 = some (.mmloop false 5 16 1 32 0 true false 0 0) ∧
    decodeTableWord 64 0x000036013A808003 = some (.cunpack false 2 0 3 false 3 1 4 1) ∧
    decodeTableWord 64 0x000000033AE1C000 = some (.cbpop false 7 3) := by decide

/-- Table 8 of R228: share and conversation words. -/
theorem test_decode_shares :
    decodeTableWord 32 0x11018104 = some (.vsmulS16 false 6 2 4) ∧ decodeTableWord 32 0x1140C104 = some (.vstruncS16 false 3 2 4) ∧
    decodeTableWord 32 0x12820300 = some (.vsredS16 false 8 6) ∧ decodeTableWord 32 0x12424400 = some (.vsopenS16 false 9 8) ∧
    decodeTableWord 32 0x14140000 = some (.cbind false 80 0) ∧ decodeTableWord 32 0x14416802 = some (.crecv false 5 80 2) ∧
    decodeTableWord 32 0x14740186 = some (.cchoose false 80 3 6) ∧ decodeTableWord 32 0x14A26800 = some (.cstate false 9 80) ∧
    decodeTableWord 32 0x14E0E800 = some (.tlevel false 3 80) ∧
    decodeTableWord 64 0x000000013BB40103 = some (.tfillSend false 80 2 3 0 1) ∧
    decodeTableWord 64 0x000008003BB40103 = some (.tfillAccept false 80 2 3 0) ∧
    decodeTableWord 64 0x000001003BF40200 = some (.tburn false 80 4 1) ∧
    decodeTableWord 64 0x0000000C3BC14307 = some (.xopen false 5 6 7 true true false) := by decide

/-- Words of the listings of chapters 15, 16 and 19. -/
theorem test_decode_programs :
    decodeTableWord 32 0x26848601 = some (.sceqi false 4 67 1) ∧ decodeTableWord 32 0x2F80FE80 = some (.ssts false 0 127 128) ∧
    decodeTableWord 32 0x6C283E00 = some (.ldsW false true 40 31 0) ∧ decodeTableWord 32 0x01E20181 = some (.vfshl false false 8 3 1) ∧
    decodeTableWord 32 0x2D842800 = some (.stsQ false false 4 20 0) ∧ decodeTableWord 32 0xB5000000 = some (.bar true 0) ∧
    decodeTableWord 32 0xB381FFC9 = some (.loop true 1 (-55)) ∧ decodeTableWord 32 0xB5800000 = some (.exit true) ∧
    decodeTableWord 32 0xA0050001 = some (.vaddi true false 5 0 1) := by decide

/-! ## Worked examples of the manual -/

/-- The tutorial's first run (R5): `vaddi` makes A(5, 1) of A(0, 1). -/
theorem test_vaddi_keeps_the_stride :
    run (.vaddi false false 1 0 5) (mk (withV group0 [(0, .a 0 1)])) (fun _ g => (g.v 1, g.cycles)) = some (.a 5 1, 16) := by
  decide

/-- R75: `sadd` wraps, `sshl` by 64 gives 0, `sclt.i` and `sclt.n` differ on the sign. -/
theorem test_scalar_edges :
    run (.sadd false 3 1 2) (mk (withS group0 [(1, 5), (2, -1)])) (fun _ g => g.readS 0 3) = some 4 ∧
    run (.sshl false 3 1 2) (mk (withS group0 [(1, 5), (2, 64)])) (fun _ g => g.readS 0 3) = some 0 ∧
    run (.scltI false 3 1 2) (mk (withS group0 [(1, -1), (2, 0)])) (fun _ g => g.readS 0 3) = some (-1) ∧
    run (.scltN false 3 1 2) (mk (withS group0 [(1, -1), (2, 0)])) (fun _ g => g.readS 0 3) = some 0 := by decide

/-- R75: a write of `zero` is discarded, and the source may be the destination. -/
theorem test_scalar_zero_and_self :
    run (.sadd false 127 1 1) (mk (withS group0 [(1, 5)])) (fun _ g => (g.readS 0 127, g.readS 0 1)) = some (0, 5) ∧
    run (.ssub false 1 1 1) (mk (withS group0 [(1, 5)])) (fun _ g => g.readS 0 1) = some 0 := by decide

/-- R111: with q = 2^31 − 1, 0x40000000 · 4 gives 2, and 1 − 3 gives q − 2. -/
theorem test_modular_examples :
    run (.vmulmod false false 3 1 2) (mk (withV group0 [(1, .u 0x40000000), (2, .u 4)])) (fun _ g => g.v 3) = some (.u 2) ∧
    run (.vsubmod false false 3 1 2) (mk (withV group0 [(1, .u 1), (2, .u 3)])) (fun _ g => g.v 3) =
      some (.u 0x7FFFFFFD) := by decide

/-- R110: an even modulus is an immediate trap. -/
theorem test_mqld_refuses_even :
    run (.mqld false 1 0) (mk (withS group0 [(1, 0x50000000)])) (fun s g => (g.fails.map (·.cause), g.stat, (s.team? 0).map (·.mod.getD 0 0))) =
      some ([.illegalOperand], .endRun, some 0x7FFFFFFF) := by decide

/-- Table 9 of R108, from run 1 of `agg`: class counts, leaders, the running count and the previous thread's index. -/
theorem test_agg_trace :
    let g := { withV (withS group0 [(4, 1)]) [(0, .a 0 1), (1, .g ((List.range 16).map fun t => BitVec.ofNat 32 (t / 4))), (2, .u 1)]
      with exm := 0x7FFF }
    run (.vmatchr false 3 1 2) (mk g) (fun _ h => (els h 3 16, h.sm, h.cycles)) =
      some ([4, 4, 4, 4, 4, 4, 4, 4, 4, 4, 4, 4, 3, 3, 3, 0], 0x1111, 15) ∧
    run (.vscanAdd false 4 2) (mk g) (fun _ h => els h 4 16) = some [1, 2, 3, 4, 5, 6, 7, 8, 9, 10, 11, 12, 13, 14, 15, 0] ∧
    run (.vxshu false 5 0 4) (mk g) (fun _ h => els h 5 16) = some [0, 0, 1, 2, 3, 4, 5, 6, 7, 8, 9, 10, 11, 12, 13, 0] := by
  decide

/-- R98: a compare with no active thread writes 0. -/
theorem test_compare_with_no_active_thread :
    run (.vceq false 3 1 1) (mk (withS { group0 with exm := 0 } [(3, 7)])) (fun _ g => (g.readS 0 3, g.cycles)) =
      some (0, 1) := by decide

/-- Table 6 of R140: exact pairs at the edges. Flags are NV 1, OF 4, UF 8, NX 16, PL 32. -/
theorem test_exact_pair_edges :
    let f := fun (i : Instr) (a b : W32) =>
      run i (mk (withV group0 [(0, .u a), (1, .u b)])) fun _ g => (g.v 4, g.v 5, g.fpf)
    f (.vfmulX false false 4 0 1) 0x3F800001 0x3F800001 = some (.u 0x3F800002, .u 0x28800000, 0) ∧
    f (.vfmulX false false 4 0 1) 0x1F800001 0x1F800001 = some (.u 0x00200001, .u 0, 56) ∧
    f (.vfmulX false false 4 0 1) 0x7F000000 0x40000000 = some (.u 0x7F800000, .u 0x7FC00001, 20) ∧
    f (.vfaddX false false 4 0 1) 0x4B800000 0x3F800000 = some (.u 0x4B800000, .u 0x3F800000, 0) ∧
    f (.vfaddX false false 4 0 1) 0x00000003 0x80000001 = some (.u 2, .u 0, 0) ∧
    f (.vfsubX false false 4 0 1) 0x7F800000 0x7F800000 = some (.u 0x7FC00000, .u 0x7FC00000, 1) ∧
    f (.vfaddX false false 4 0 1) 0x7FA00000 0x3F800000 = some (.u 0x7FE00000, .u 0x7FE00000, 1) := by decide

/-- The example of R141: `vdwadd` of 2^24 + 1 and −2^24 + 1 is exactly 2. -/
theorem test_dwadd_example :
    run (.vdwadd false false 4 0 2) (mk (withV group0 [(0, .u 0x4B800000), (1, .u 0x3F800000), (2, .u 0xCB800000), (3, .u 0x3F800000)]))
      (fun _ g => (g.v 4, g.v 5, g.fpf)) = some (.u 0x40000000, .u 0, 0) := by decide

/-- The example of R142: `vfred.add` loses the two ones, `vfred.x` keeps them. -/
theorem test_reduction_example :
    let v := VReg.g ([0x4B800000, 0x3F800000, 0x3F800000, 0xCB800000] ++ List.replicate 12 0)
    let g := { withV group0 [(0, v)] with exm := 0xF }
    run (.vfredAdd false 4 0) (mk g) (fun _ h => (els h 4 5, h.fpf)) = some ([0, 0, 0, 0, 0], 16) ∧
    run (.vfredX false 4 0) (mk g) (fun _ h => (els h 4 2, els h 5 2)) = some ([0x40000000, 0x40000000], [0, 0]) := by decide

/-- Table 8 of R143: ties, −0 and NaNs of `vfredmaxi`. -/
theorem test_vfredmaxi_table :
    let f := fun (xs : List W32) => run (.vfredmaxi false 4 0)
      (mk { withV group0 [(0, .g (xs ++ List.replicate 12 0))] with exm := 0xF }) fun _ g => (els g 4 1, els g 5 1, g.fpf)
    f [0x80000000, 0, 0x80000000, 0] = some ([0], [1], 0) ∧
    f [0x40400000, 0x40A00000, 0x40A00000, 0xFF800000] = some ([0x40A00000], [1], 0) ∧
    f [0x3F800000, 0x7F800001, 0x7FC00000, 0x41100000] = some ([0x7FC00001], [1], 1) := by decide

/-- The example of R122: 1 + 2^−24 and its negative in the four modes. -/
theorem test_rounding_modes :
    (fp32.roundMag .rne false 16777217 (-24)).1 = 0x3F800000 ∧ (fp32.roundMag .rz false 16777217 (-24)).1 = 0x3F800000 ∧
    (fp32.roundMag .rd false 16777217 (-24)).1 = 0x3F800000 ∧ (fp32.roundMag .ru false 16777217 (-24)).1 = 0x3F800001 ∧
    (fp32.roundMag .rd true 16777217 (-24)).1 = 0x3F800001 ∧ (fp32.roundMag .ru true 16777217 (-24)).1 = 0x3F800000 ∧
    (fp32.roundMag .rz true 16777217 (-24)).2.nx = true := by decide

/-- R118: posit8 0x40 is 1, 0x50 is 4, 0x7F is 2^24, 0x01 is 2^−24, 0xC0 is −1, here as the BF16 they unpack to. -/
theorem test_posit8_examples :
    unpackElem 5 0x40 none = (0x3F80, false) ∧ unpackElem 5 0x50 none = (0x4080, false) ∧
    unpackElem 5 0x7F none = (0x4B80, false) ∧ unpackElem 5 0x01 none = (0x3380, false) ∧
    unpackElem 5 0xC0 none = (0xBF80, false) := by decide

/-- The examples of R120: an element with its scale, unpacked to BF16, and its overflow event. -/
theorem test_unpack_examples :
    unpackElem 4 0x7 (some 0x81) = (0x41C0, false) ∧ unpackElem 0 0x7E (some 0xFE) = (0x7F80, true) ∧
    unpackElem 5 0x50 (some 0x7F) = (0x4080, false) := by decide

/-- The worked case of R223: shares of 5 and 3 give shares of 15. -/
theorem test_share_product_example :
    let t0 : Triple := ⟨0, 1, 3, 5⟩
    let t1 : Triple := ⟨0, 1, 1, 3⟩
    maskedWords .smul 16 0 7 0x10 t0 = (6, 0xD) ∧ maskedWords .smul 16 1 0xFFFE 0xFFF3 t1 = (0xFFFD, 0xFFF2) ∧
    combine .smul 16 [6, 0xFFFD] = 3 ∧ combine .smul 16 [0xD, 0xFFF2] = 0xFFFF ∧
    shareResult .smul 16 0 7 t0 3 0xFFFF = 0xA ∧ shareResult .smul 16 1 0xFFFE t1 3 0xFFFF = 5 := by decide

/-- The example of R43: A(0, 4096) meets 15 conflict cycles, A(0, 64) none. -/
theorem test_bank_conflicts_example :
    conflictCycles true ((List.range 16).map fun t => (4096 * t, 4)) = 15 ∧
    conflictCycles true ((List.range 16).map fun t => (64 * t, 4)) = 0 := by decide

/-- Table 2 of R42: a bank that all four classes request in every cycle. -/
theorem test_bank_grants_of_a_full_bank :
    ((List.range 8).foldl (fun (r : List (Option BankClass) × BankArb) _ =>
      let x := r.2.grant fun _ => true
      (r.1 ++ [x.1], x.2)) ([], BankArb.start)).1 = [.m, .c, .m, .l, .m, .x, .m, .m].map some := by decide

/-- The example of R291: the page at 0x2_0002_0000, by a walk over tables at 0x1000, 0x2000, 0x3000 and 0x4000. -/
theorem test_walk_example :
    let m := Memory.writeN [] (0x1000 + 8 * 0) (leBytes 8 0x2001)
    let m := m.writeN (0x2000 + 8 * 8) (leBytes 8 0x3001)
    let m := m.writeN (0x3000 + 8 * 0) (leBytes 8 0x4001)
    let m := m.writeN (0x4000 + 8 * 2) (leBytes 8 0x0000000200010047)
    let p := { part0 with baseGran := 0, nGran := 16 }
    let s := { mk group0 with hbm := m, parts := [p] }
    s.translate 0 0 0x200020000 .read = .ok 0x200010000 0x0000000200010047 ∧
    s.translate 0 0 0x200020000 .fetch = .fail .protection 0 ∧
    s.translate 0 0 0x200030000 .read = .fail .translation 0x400 ∧
    s.translate 0 0 0x1000200020000 .read = .fail .translation 0 := by decide +kernel

/-! ## Steps -/

/-- The first step after a word is placed runs it (R77: `smovi s4, #21`). -/
theorem test_step_runs_a_placed_word :
    (match step (State.reset.withFetchWord 32 0x27840015) with
      | .next t => t.groups.map fun g => (g.readS 0 4, g.pc, g.runIdx)
      | _ => []) = [(21, 0x100004, 1)] := by decide +kernel

/-- Nothing happens by itself after reset. -/
theorem test_step_from_reset : step State.reset = .next { State.reset with tick := 1 } := rfl

/-- R27, R72: a word that is no instruction is an immediate trap at its run index. -/
theorem test_step_illegal_word :
    (match step (State.reset.withFetchWord 32 0x0E000000) with
      | .next t => t.groups.map fun g => (g.fails.map (·.cause), g.stat)
      | _ => []) = [([.illegalInstruction], .endRun)] := by decide +kernel

/-- R28, Table 7: a user trap goes on at the trap vector with `xpc`, the cause and the record kept. -/
theorem test_trap_is_taken :
    let g := { group0 with stat := .endRun, runIdx := 1, fails := [⟨0, .userTrap, 0, 0, 7, false⟩], pc := 0x100004, runPc := 0x100000 }
    run (.runCommit 1) (mk g) (fun _ h => (h.pc, h.armed, h.readS 0 84, h.readS 0 86, h.halt)) =
      some (0x100400, true, 0x12, 0x100000, .no) := by decide +kernel

/-- R28, Table 7: a slice bounds failure halts the group for the control core. -/
theorem test_control_core_trap_halts :
    let g := { group0 with stat := .endRun, runIdx := 1, fails := [⟨0, .sliceBounds, 0x3000, 1, 0, false⟩], pc := 0x100004 }
    run (.runCommit 1) (mk g) (fun _ h => (h.pc, h.halt, h.armed)) = some (0x100004, .trap, true) := by decide

/-- R34, R151: a store and a load of the slice window. -/
theorem test_slice_store_then_load :
    run (.sts false false 2 1 0) (mk (withV group0 [(1, .a 0 4), (2, .a 100 1)])) (fun s _ => (s.slices.readN 0 9, s.slices.readN 60 4)) =
      some ([100, 0, 0, 0, 101, 0, 0, 0, 102], [115, 0, 0, 0]) ∧
    run (.sts false false 2 1 0) (mk (withV group0 [(1, .u 0x2000), (2, .u 9)])) (fun s g => (s.slices, g.fails.map (·.cause))) =
      some ([], [.sliceBounds]) := by decide

/-! ## Witnesses: states and operands that meet the hypotheses of each statement

Each theorem meets the hypotheses of the statement in its name, clause by clause, at the edges of their ranges. -/

/-- The group issues in the state. -/
theorem issues_mk (i : Instr) (ho : group0.operandsOk i = true) : Issues i (mk group0) group0 := ⟨rfl, ho, rfl⟩

theorem test_witness_ScalarResults :
    Issues (.sadd true 127 90 0) (mk group0) group0 ∧ Issues (.sfirst false 63 127) (mk group0) group0 ∧
    Issues (.sshli false 3 1 63) (mk group0) group0 ∧ Issues (.saddi false 3 1 (-256)) (mk group0) group0 ∧
    Issues (.sli false 3 0xFFFFFFFF) (mk group0) group0 := by decide

theorem test_witness_ScalarReadByField :
    let g := { group0 with trap := { TrapRec.zero with sel := 23, entries := [⟨23, 0x12, 1, 2, 3⟩] } }
    g.trap.entries.find? (fun x => x.idx == g.trap.sel) = some ⟨23, 0x12, 1, 2, 3⟩ ∧
    group0.trap.entries.find? (fun x => x.idx == group0.trap.sel) = none := by decide

theorem test_witness_ScalarWriteByField :
    let g := { group0 with trap := { TrapRec.zero with entries := [⟨31, 0x12, 1, 2, 3⟩] } }
    g.trap.entries.find? (fun x => x.idx == (0xFFFFFFFFFFFFFFFF : W64).toNat / 2 ^ 35 % 32) = some ⟨31, 0x12, 1, 2, 3⟩ ∧
    g.trap.entries.find? (fun x => x.idx == (0 : W64).toNat / 2 ^ 35 % 32) = none := by decide

/-- Thread 15 is active, and the lowest active one. -/
theorem test_witness_lowest : IsLowest { group0 with exm := 0x8000 } 15 := by
  refine ⟨by unfold Active; decide, ?_⟩
  intro t ht
  obtain ⟨h1, h2, -⟩ := ht
  have h1 : t < 16 := h1
  interval_cases t <;> revert h2 <;> decide

theorem test_witness_VectorWriteByMask :
    group0.wb + (31 : Fld).toNat < group0.vregs.length ∧ (∃ t, Active group0 t) ∧
    (¬∃ t, Active { group0 with exm := 0 } t) ∧ (∀ t, t < group0.width.n → Active group0 t) ∧
    ¬∀ t, t < group0.width.n → Active { group0 with exm := 0x8000 } t := by
  refine ⟨by decide, ⟨0, by unfold Active; decide⟩, ?_, ?_, ?_⟩
  · rintro ⟨t, -, h, -⟩
    simp at h
  · intro t ht
    have ht : t < 16 := ht
    unfold Active
    interval_cases t <;> decide
  · intro h
    exact absurd (h 0 (by decide)).2.1 (by decide)

theorem test_witness_VectorIntegerResults :
    Issues (.vadd true true 31 0 31) (mk group0) group0 ∧ Issues (.vlop3 false false 0 1 2 3 255) (mk group0) group0 ∧
    Issues (.vsel false false 0 31 1) (mk group0) group0 := by decide

theorem test_witness_VectorShapes :
    let g := withV group0 [(1, .u 5), (2, .u 7), (3, .a 5 (-1)), (4, .a 0 1), (5, .g (List.replicate 16 3))]
    Issues (.vadd false false 0 1 2) (mk g) g ∧ g.v 1 = .u 5 ∧ g.v 2 = .u 7 ∧ g.v 3 = .a 5 (-1) ∧ g.v 4 = .a 0 1 ∧
    Issues (.vshli false false 0 5 31) (mk g) g ∧ Issues (.vmuli false false 0 1 (-1)) (mk g) g ∧
    (g.v 5).isU = false ∧ (g.v 5).isA = false ∧ (g.v 3).isA = true ∧ (g.v 4).isA = true ∧
    (31 : BitVec 9).toNat < 32 := by decide

theorem test_witness_VectorImmediateAndCompareResults :
    Issues (.vshli false true 0 31 31) (mk group0) group0 ∧ Issues (.vli true true 31 0xFFFFFFFF) (mk group0) group0 ∧
    Issues (.vcltWN false 66 30 0) (mk group0) group0 ∧ Issues (.vceqi false 127 31 256) (mk group0) group0 := by decide

theorem test_witness_VectorPairResults :
    Issues (.vmulW true true 30 0 2) (mk group0) group0 ∧ Issues (.vshrWI false false 0 30 31) (mk group0) group0 := by decide

theorem test_witness_CrossThreadResults :
    Issues (.vshape false 3 31) (mk group0) group0 ∧ Issues (.vmatchr false 3 1 2) (mk group0) group0 ∧
    Issues (.vgen false 31 1) (mk { group0 with exm := 0 }) { group0 with exm := 0 } ∧
    Issues (.vredmaxiI false 30 1) (mk group0) group0 ∧
    (let g := { group0 with exm := 0 }
     actives g = [] ∧ Issues (.vredAdd false 30 1) (mk g) g ∧ Issues (.vredminiI false 30 1) (mk g) g) ∧
    (let g := { withV group0 [(1, .a 0 1)] with exm := 0x8001 }
     15 ∈ actives g ∧ (∀ v ∈ actives g, ((g.v 1).get v).toInt ≤ ((g.v 1).get 15).toInt) ∧
       ∀ v ∈ actives g, (g.v 1).get v = (g.v 1).get 15 → 15 ≤ v) ∧
    (let g := { withV group0 [(1, .a 0 1)] with exm := 0x8001 }
     0 ∈ actives g ∧ (∀ v ∈ actives g, ((g.v 1).get 0).toInt ≤ ((g.v 1).get v).toInt) ∧
       ∀ v ∈ actives g, (g.v 1).get v = (g.v 1).get 0 → 0 ≤ v) := by decide

theorem test_witness_ModularResults :
    (mk group0).team? group0.team = some team0 ∧ team0.mod.length = 8 ∧ group0.mq < 8 ∧
    Issues (.vmacmod true true 31 0 1) (mk group0) group0 ∧ Issues (.mqld false 1 7) (mk group0) group0 ∧
    (let m : W64 := 0x7FFFFFFF
     2 ^ 30 < m.toNat ∧ m.toNat < 2 ^ 31 ∧ m.toNat % 2 = 1) ∧
    (let m : W64 := 0x40000000
     ¬(2 ^ 30 < m.toNat ∧ m.toNat < 2 ^ 31 ∧ m.toNat % 2 = 1)) := by decide

theorem test_witness_FloatResults :
    Issues (.vffma true true 31 0 1) (mk group0) group0 ∧ Issues (.vflog2 false false 31 0) (mk group0) group0 := by decide

/-- The clauses of the values: NaNs and what is next to them, zeros of both signs, and the operands where the clauses of the
approximate functions meet. -/
theorem test_witness_float_clauses :
    (∀ x ∈ [0x7F800001, 0xFFFFFFFF], IsNaN x) ∧ (∀ x ∈ [0x7F800000, 0xFF800000, 0], ¬IsNaN x) ∧ Below 0x80000000 0 ∧
    ¬Below 0 0x80000000 ∧ ¬Below 0 0 ∧ valueOf fp32 0x00200000 = 2 ^ (-128 : Int) ∧ 2 ^ (-128 : Int) < valueOf fp32 0x00200001 ∧
    valueOf fp32 0x43000000 = 128 ∧ valueOf fp32 0xC3150000 = -149 ∧ valueOf fp32 0xC3150001 < -149 ∧
    valueOf fp32 0xBF000000 = -(1 / 2) ∧ valueOf fp32 0x00000001 = 2 ^ (-149 : Int) ∧ valueOf fp32 0x40400000 = 3 := by
  unfold IsNaN Below
  have h0 : ∀ x ∈ [0x00200000, 0x00200001, 0x43000000, 0x00000001, 0x40400000], fp32.neg x = false := by decide
  have h1 : ∀ x ∈ [0xC3150000, 0xC3150001, 0xBF000000], fp32.neg x = true := by decide
  simp only [List.forall_mem_cons] at h0 h1
  obtain ⟨a0, a1, a2, a3, a4, -⟩ := h0
  obtain ⟨b0, b1, b2, -⟩ := h1
  refine ⟨by decide, by decide, by decide, by decide, by decide, ?_, ?_, ?_, ?_, ?_, ?_, ?_, ?_⟩ <;>
    simp only [valueOf, a0, a1, a2, a3, a4, b0, b1, b2] <;>
    norm_num [Fmt.val, Fmt.mag, Fmt.isNan, fp32, Fmt.qmin, magnitude]

theorem test_witness_FloatCompareAndPairResults :
    Issues (.vfcun false 65 0 31) (mk group0) group0 ∧ Issues (.vfmulX true true 30 0 31) (mk group0) group0 ∧
    Issues (.vdwmulf false false 30 28 31) (mk group0) group0 ∧ Issues (.vdwren false false 30 28) (mk group0) group0 := by decide

theorem test_witness_FloatReductionResults :
    let g := { withV group0 [(1, .g ([0x7F800001, 0x3F800000] ++ List.replicate 14 0x7FC00000))] with exm := 0x8003 }
    let h := { withV group0 [(1, .g ([0x80000000, 0] ++ List.replicate 14 0x3F800000))] with exm := 0x8003 }
    actives g = 0 :: [1, 15] ∧ Issues (.vfredX false 4 0) (mk g) g ∧ Issues (.vfredmini false 4 1) (mk g) g ∧
    (let k := { group0 with exm := 0 }
     actives k = [] ∧ Issues (.vfscanAdd false 4 0) (mk k) k ∧ Issues (.vfredX false 4 0) (mk k) k) ∧
    (0 ∈ actives g ∧ fp32.isNan ((g.v 1).get 0).toNat = true ∧
      ∀ t ∈ actives g, fp32.isNan ((g.v 1).get t).toNat = true → 0 ≤ t) ∧
    ((∀ t ∈ actives h, fp32.isNan ((h.v 1).get t).toNat = false) ∧
      (∀ t ∈ actives h, fp32.rank ((h.v 1).get t).toNat ≤ fp32.rank ((h.v 1).get 15).toNat) ∧
      ∀ t ∈ actives h, ((h.v 1).get t).toNat = ((h.v 1).get 15).toNat → 15 ≤ t) ∧
    ((∀ t ∈ actives h, fp32.rank ((h.v 1).get 0).toNat ≤ fp32.rank ((h.v 1).get t).toNat) ∧
      ∀ t ∈ actives h, ((h.v 1).get t).toNat = ((h.v 1).get 0).toNat → 0 ≤ t) := by decide

theorem test_witness_PackedAndConversionResults :
    Issues (.vhfmaH true true 31 0 1) (mk group0) group0 ∧ Issues (.vhdotBf false false 31 0 1) (mk group0) group0 ∧
    Issues (.vcvt false true 31 0 56) (mk group0) group0 := by decide

theorem test_witness_RoundingIsCorrect :
    (∀ f ∈ [fp32, bf16, fp16, e5m2], (f.roundMag .rz false 3 (-1)).2.ovf = false) ∧
    (∀ f ∈ [fp32, bf16, fp16, e5m2], (f.roundMag .rne true 5 (-20)).2.ovf = false) ∧
    (fp32.roundMag .rne false 16777215 104).2.ovf = false := ⟨by decide, by decide, by decide⟩

/-- Finite operands, a sum that is exactly 0, a divisor that is not 0, and roots of values that are not negative, for the four
modes; and the directed modes of both signs. -/
theorem test_witness_operations_round :
    (∀ f ∈ [fp32, bf16, fp16], ∀ k ∈ [0, 1, f.maxMag, 2 ^ f.sign, 2 ^ f.sign + f.maxMag], (f.val k).isFin = true) ∧
    (∀ f ∈ [fp32, bf16, fp16, e5m2], ∀ neg ∈ [false, true], ∀ md ∈ [RMode.ru, .rd], (f.roundMag md neg 3 (-1)).2.ovf = false) ∧
    valueOf fp32 0x40000000 = 2 ∧ valueOf fp32 0xC0000000 = -2 ∧ 0 ≤ valueOf fp32 0x80000000 ∧
    (fp32.add .rd 0x40000000 0xC0000000).x = 0x80000000 ∧ (fp32.add .ru 0x80000000 0x80000000).x = 0x80000000 ∧
    (fp32.div .ru 0x3F800000 0x40400000).x = 0x3EAAAAAB ∧ (fp32.div .rd 0x3F800000 0x40400000).x = 0x3EAAAAAA ∧
    (fp32.sqrt .rne 0x40000000).x = 0x3FB504F3 := by
  have h0 : fp32.neg 0x40000000 = false := by decide
  have h1 : fp32.neg 0xC0000000 = true := by decide
  refine ⟨by decide, by decide, ?_, ?_, ?_, by decide, by decide, by decide, by decide, by decide +kernel⟩ <;> simp only [valueOf, h0, h1] <;>
    norm_num [Fmt.val, Fmt.mag, Fmt.isNan, fp32, Fmt.qmin, magnitude]

theorem test_witness_FloatFlagsAndEvents :
    (mk group0).part? group0.part = some part0 ∧ part0.evsum.length = 8 ∧
    ∀ k, k < 5 → group0.fpm.toNat / 2 ^ (2 * k + 32) % 4 ≠ 2 := by
  refine ⟨rfl, rfl, fun k hk => ?_⟩
  simp [group0, Group.fresh]

/-- A group that is party `p` of conversation 5 with `np` parties. -/
def partyOf (np p : Nat) : Group :=
  { group0 with crole := [BitVec.ofNat 64 (2 ^ 63 + (np - 1) * 2 ^ 40 + 3 * 2 ^ 32 + 5 * 2 ^ 20 + p), 0, 0, 0] }

theorem test_witness_LocalShareResults :
    Issues (.vsaddS16 true 31 0 1) (mk group0) group0 ∧ Issues (.vsredS32 false 31 0) (mk group0) group0 ∧
    IsParty (partyOf 2 0) 0 ∧ IsParty (partyOf 2 1) 1 ∧ roleNp ((partyOf 2 1).crole.getD 0 0) = 2 ∧
    Issues (.vsaddpS32 false 31 0 1) (mk (partyOf 2 1)) (partyOf 2 1) ∧
    Issues (.vstruncS16 false 31 0 15) (mk (partyOf 2 0)) (partyOf 2 0) ∧ (15 : Fld).toNat ≤ 16 ∧
    Issues (.vstruncS32 false 31 0 31) (mk (partyOf 2 0)) (partyOf 2 0) ∧
    IsParty (partyOf 4 3) 3 ∧ 2 < roleNp ((partyOf 4 3).crole.getD 0 0) ∧
    Issues (.vstruncS32 false 31 0 1) (mk (partyOf 4 3)) (partyOf 4 3) ∧
    ¬IsParty (partyOf 2 3) 3 ∧ ¬IsParty group0 0 := by decide

theorem test_witness_party_active : (∃ t, Active (partyOf 4 3) t) ∧ (¬∃ p, IsParty (partyOf 2 3) p) ∧
    (let g := { partyOf 2 0 with exm := 0 }
     (¬∃ t, Active g t) ∧ Issues (.vsredS16 false 31 0) (mk g) g ∧ Issues (.vsaddpS32 false 31 0 1) (mk g) g ∧
     Issues (.vstruncS32 false 31 0 31) (mk g) g) := by
  refine ⟨⟨0, by unfold Active; decide⟩, ?_, ?_, by decide⟩
  · rintro ⟨p, -, rfl, h⟩
    revert h
    decide
  · rintro ⟨t, -, h, -⟩
    simp at h

theorem test_witness_GateShareInstructionsIssue :
    Issues (.vsmulS32 true 31 0 1) (mk group0) group0 ∧ Issues (.vsopenS16 false 31 0) (mk { group0 with exm := 0 }) { group0 with exm := 0 } ∧
    (let g := withS group0 [(5, 0x40), (6, 0x80), (7, 1048576)]
     Issues (.xopen false 5 6 7 true true true) (mk g) g ∧
     (g.readS 0 7).toNat % 64 = 0 ∧ 64 ≤ (g.readS 0 7).toNat ∧ (g.readS 0 7).toNat ≤ 1048576 ∧ (g.readS 0 6).toNat % 64 = 0 ∧
     (g.readS 0 5).toNat % 64 = 0) ∧
    (let g := withS group0 [(5, 0x40), (6, 0x80), (7, 1048640)]
     Issues (.xopen false 5 6 7 true true true) (mk g) g ∧ 1048576 < (g.readS 0 7).toNat) ∧
    (let g := withS group0 [(5, 0x41), (6, 0x80), (7, 64)]
     Issues (.xopen false 5 6 7 true true true) (mk g) g ∧ (g.readS 0 7).toNat % 64 = 0 ∧ 64 ≤ (g.readS 0 7).toNat ∧
     (g.readS 0 6).toNat % 64 = 0 ∧ (g.readS 0 5).toNat % 64 ≠ 0) := by decide

theorem test_witness_SharedResultsAreShares :
    (let t0 : Triple := ⟨0, 1, 3, 5⟩
     let t1 : Triple := ⟨0, 1, 1, 3⟩
     (t0.a.toNat + t1.a.toNat) * (t0.b.toNat + t1.b.toNat) % 2 ^ 16 = (t0.c.toNat + t1.c.toNat) % 2 ^ 16 ∧
     (t0.a.toNat + t1.a.toNat) * (t0.b.toNat + t1.b.toNat) % 2 ^ 32 = (t0.c.toNat + t1.c.toNat) % 2 ^ 32) ∧
    (let t0 : Triple := ⟨0, 0xFFFFFFFF, 3, 1⟩
     let t1 : Triple := ⟨0, 0xFFFFFFFE, 2, 0⟩
     (t0.a ^^^ t1.a) &&& (t0.b ^^^ t1.b) = t0.c ^^^ t1.c) := by decide

/-- A role of context 0 of partition 0 that holds a ticket. -/
def role0 : Role := ⟨true, 0, 9, [], [], []⟩

/-- Conversation 5 of two parties under choreography 3. -/
def conv5 : Conv :=
  { num := 5, aborted := false, destroyed := false, choreo := 3, state := 2, roles := [role0, role0]
    parties := [⟨[⟨0, 1, 2, 3⟩], [], 1, 0, none, none, none, 16, 16, []⟩, ⟨[], [], 0, 0, none, none, none, 16, 16, []⟩]
    exchanges := [], nextEx := 0, permits := [] }

/-- A state with one conversation. -/
def mkConv (g : Group) (c : Conv) : State := { mk g with pkg := { (mk g).pkg with convs := [c] } }

/-- A choreography of two parties in which role 0 may send kind 0 to role 1 in state 2, deal tiles there, and take part in the
three kinds of exchange; the state stays. -/
def choreo3 : Choreo :=
  { num := 3, part := 0, np := 2, roles := 2, states := 3, init := 0, choice := 0, orphan := false
    deleg := (List.replicate 64 false).set 2 true
    entries := ((((List.replicate 160 0).set 128 0x8202).set 140 0x8302).set 142 0x8302).set 143 0x8002 }

/-- A state with one conversation, whose choreography is loaded. -/
def talking (g : Group) (c : Conv) : State :=
  { mkConv g c with pkg := { (mkConv g c).pkg with choreos := [choreo3] } }

/-- A group bound to a role of conversation 5, at the gate and in its register. -/
def bound5 (r : Nat) : Group := { partyOf 2 r with gateRole := (partyOf 2 r).crole }

/-- The part that another group has in an exchange: that of party 1, for one thread. -/
def part1 (op : GateOp) (popped : Option (List Triple)) : Sys2Proof.Machine.Part :=
  ⟨1, 2, 3, op, 32, [(0, 1, 0)], 4, popped, [], 0, false, false, 0⟩

theorem test_witness_gate_shares_open :
    let g := bound5 0
    InTurn (talking g conv5) g 0 conv5 0 ∧ Quiet conv5 ∧ 0 < conv5.parties.length ∧
    (talking g conv5).tileRead g 0 .smul = .bytes [] ∧ (talking g conv5).permitted conv5 0 12 = some 0x8302 ∧
    (talking g conv5).permitted conv5 0 13 = none ∧ (talking g conv5).choreo? conv5.choreo = some choreo3 ∧ g.halt = .no ∧
    g.stat = .running ∧ (GateOp.need .smul 32 1).2 ≤ ((conv5.party 0).queue 0).length ∧
    ((conv5.party 0).queue 0).length < (GateOp.need .smul 32 2).2 ∧ (GateOp.need .sopen 32 1).2 = 0 ∧
    (let c := { conv5 with parties := conv5.parties ++ conv5.parties }
     InTurn (talking g c) g 0 c 0 ∧ Quiet c ∧ c.parties.length ≠ 2) := by
  unfold InTurn AtGate StandsBefore Quiet
  decide +kernel

theorem test_witness_gate_shares_join :
    let g := bound5 0
    (∀ o ∈ [part1 .smul (some [⟨0, 1, 2, 3⟩]), part1 .smul (some [⟨1, 1, 2, 3⟩])], ∀ n ∈ [1, 2], ∀ ty ∈ [16, 32],
      let x : Exchange := ⟨0, 12, some o.firstIdx, n, ty, [0, 1], [o], 0⟩
      let c := { conv5 with exchanges := [x] }
      InTurn (talking g c) g 0 c 0 ∧ c.exchanges = [x] ∧ (∀ p ∈ c.parties, p.accepts = []) ∧
      x.parts.all (fun p => p.party != 0 && p.popped.isSome) = true ∧ o.withdrawn = false ∧ o.finished = false) ∧
    (GateOp.need .smul 32 1).2 ≤ ((conv5.party 0).queue 0).length ∧ GateOp.kind .sopen ≠ 12 ∧ GateOp.kind .sb2a = 12 := by
  unfold InTurn AtGate StandsBefore
  decide +kernel

theorem test_witness_ConversationInstructionsIssue :
    Issues (.cbind false 83 127) (mk group0) group0 ∧ Issues (.crecv true 3 80 15) (mk group0) group0 ∧
    Issues (.tburn false 80 4 1) (mk group0) group0 ∧
    (let g := withS group0 [(2, 0x40), (3, 1048576), (4, 64), (5, 1), (6, 4096), (7, 16), (8, 0)]
     Issues (.tfillSend false 80 2 3 2 3) (mk g) g ∧ Issues (.tfillAccept false 80 7 3 2) (mk g) g ∧
     (g.readS 0 3).toNat % 64 = 0 ∧ 64 ≤ (g.readS 0 4).toNat ∧ (g.readS 0 3).toNat ≤ 1048576 ∧ (g.readS 0 2).toNat % 64 = 0 ∧
     1 ≤ (g.readS 0 5).toNat ∧ (g.readS 0 6).toNat ≤ 4096 ∧ (g.readS 0 7).toNat % 16 = 0 ∧ (g.readS 0 7).toNat % 64 ≠ 0 ∧
     ¬1 ≤ (g.readS 0 8).toNat) ∧
    group0.crole.getD 0 0 = 0 ∧
    (let g := partyOf 2 1
     let v := g.crole.getD 0 0
     Issues (.tlevel false 3 80) (mkConv g conv5) g ∧ v ≠ 0 ∧ (mkConv g conv5).conv? (roleConv v) = some conv5 ∧
     conv5.aborted = false ∧ roleNum v < conv5.parties.length ∧ (mk g).conv? (roleConv v) = none ∧
     (mkConv g { conv5 with aborted := true }).conv? (roleConv v) = some { conv5 with aborted := true } ∧
     conv5.parties.length ≤ roleNum ((partyOf 2 3).crole.getD 0 0)) := by decide

theorem test_witness_role_registers :
    let g := bound5 0
    let v := g.gateRole.getD 0 0
    let s := talking g conv5
    (∀ op ∈ [DOp.crecv 0 15 4, .taccept 0 0 0 0, .tburn 0 0 0, .tsend 0 0 0 0 2, .gate .smul 32 [] 0], op.roleReg = some 0 ∧
      (∀ h, op ≠ .cbind 0 h) ∧ ∀ d, op ≠ .cstate 0 d) ∧
    s.group? g.uid = some g ∧ s.pkg.waits = [] ∧ group0.gateRole.getD 0 0 = 0 ∧ v ≠ 0 ∧
    (mk g).conv? (roleConv v) = none ∧ s.conv? (roleConv v) = some conv5 ∧ conv5.aborted = false ∧
    (talking g { conv5 with aborted := true }).conv? (roleConv v) = some { conv5 with aborted := true } ∧
    conv5.parties.length ≤ roleNum ((bound5 2).gateRole.getD 0 0) ∧ (conv5.role 0).world = g.part * 128 + g.ctx ∧
    (conv5.role 3).world ≠ 1 * 128 + g.ctx := by
  refine ⟨by simp [DOp.roleReg], ?_⟩
  decide +kernel

/-- Conversation 5 with the queue and the receives of role 0. -/
def talk (q : List Msg) (ws : List (Nat × Nat × Nat)) : Conv := { conv5 with roles := [{ role0 with queue := q, recvs := ws }, role0] }

/-- A state with group 1 bound to role 0, another group, and what waits at the gate. -/
def atGate (ws : List Delayed) (h : Group) (c : Conv) : State :=
  let s := talking (bound5 0) c
  { s with groups := [bound5 0, h], pkg := { s.pkg with waits := ws } }

/-- An instruction of the same group, and one of the same role, stand before one that arrives. -/
theorem test_witness_gate_keeps_the_order :
    let d : Delayed := ⟨2, 9, .csend 0 0 7 false, 0⟩
    let s := atGate [⟨1, 2, .cdeleg 1 5, 0⟩, d] { bound5 0 with uid := 2 } conv5
    s.group? 1 = some (bound5 0) ∧ (bound5 0).uid = 1 ∧ d.role s = some (5, 0) ∧ (bound5 0).gateRole.getD 0 0 ≠ 0 ∧
    roleConv ((bound5 0).gateRole.getD 0 0) = 5 ∧ roleNum ((bound5 0).gateRole.getD 0 0) = 0 ∧
    (DOp.crecv 0 1 4).roleReg = some 0 ∧ (DOp.tburn 0 0 0).roleReg = some 0 ∧ (DOp.gate .smul 32 [] 0).roleReg = some 0 := by
  refine ⟨rfl, rfl, by decide +kernel, by decide, by decide, by decide, rfl, rfl, rfl⟩

theorem test_witness_sends_and_receives :
    let g := bound5 0
    (let s := talking g conv5
     InTurn s g 0 conv5 0 ∧ s.choiceKind conv5 11 = false ∧ s.permitted conv5 0 0 = some 0x8202 ∧ s.permitted conv5 0 1 = none ∧
     (0x8202 : BitVec 16).toNat.testBit (8 + 1) = true ∧ (conv5.role 1).used = true ∧ (conv5.role 1).queue.length < 16 ∧
     16 ≤ ({ conv5 with roles := [role0, { role0 with queue := List.replicate 16 ⟨0, 0⟩ }] }.role 1).queue.length) ∧
    (let h := { g with pends := [⟨3, .crecv 0 1 4, (0, 0), .waiting, 0, 0, []⟩] }
     ∀ c ∈ [talk [] [], talk [⟨0, 5⟩, ⟨1, 6⟩] []], AtGate (talking h c) h 0 c 0 ∧ c.aborted = false ∧
       (c.role 0).world = h.part * 128 + h.ctx ∧ (c.role 0).recvs = [] ∧ h.yielded = none) ∧
    (let c := talk [⟨0, 5⟩, ⟨1, 6⟩] []
     (c.role 0).queue = [⟨0, 5⟩] ++ (⟨1, 6⟩ : Msg) :: [] ∧ (talking g c).choiceKind c 0 = false ∧ (talking g c).choiceKind c 1 = false) := by
  unfold InTurn AtGate StandsBefore
  decide +kernel

theorem test_witness_delegation_state_and_abort :
    let g := bound5 0
    (let c := { conv5 with permits := [(Config.ownDevice, 1)] }
     InTurn (talking g c) g 0 c 0 ∧ (1 : W64).toNat / 2 ^ 12 % 2 ^ 20 = 0 ∧ (0x1001 : W64).toNat / 2 ^ 12 % 2 ^ 20 ≠ 0 ∧
     (talking g c).choreo? c.choreo = some choreo3 ∧ choreo3.deleg.getD c.state false = true ∧
     choreo3.deleg.getD 1 false = false ∧ 1 ≠ (c.role 0).world ∧ (c.party 0).accepts = [] ∧ (c.role 0).recvs = []) ∧
    (let p := { part1 .sopen (some []) with party := 0 }
     let x : Exchange := ⟨0, 14, none, 1, 32, [0, 1], [p], 0⟩
     x.part? 0 = some p ∧ p.finished = false) ∧
    (let c := { talk [] [(2, 3, 1)] with aborted := true }
     AtGate (talking g c) g 0 c 0 ∧ (c.role 0).recvs = [(2, 3, 1)] ∧ 0 < c.parties.length ∧ (c.party 1).arith = [] ∧
     (c.party 1).inA = none ∧ (c.party 0).arith = ⟨0, 1, 2, 3⟩ :: []) ∧
    (let h := { group0 with uid := 2, gen := 9 }
     let c := talk [] [(2, 3, 1)]
     let s := { talking g c with groups := [g, h] }
     s.conv? c.num = some c ∧ c.aborted = false ∧ 0 < 4 ∧ (h.uid, 3, 1) ∈ (c.role 0).recvs ∧ s.group? h.uid = some h ∧
     h.halt = .no ∧ waitsIn { h with pends := [⟨3, .crecv 0 1 4, (0, 0), .waiting, 0, 0, []⟩] }.issued 3 = true) := by
  unfold InTurn AtGate StandsBefore
  refine ⟨⟨⟨⟨rfl, by decide +kernel, by decide, rfl, rfl⟩, rfl, rfl⟩, by decide, by decide, rfl, by decide, by decide, by decide, rfl, rfl⟩,
    by decide, by decide +kernel, by decide +kernel⟩

/-- The hypotheses of the last clause of `AbortAtTheGate`: a read of the state and a step of another conversation stay, and a
step of this one fails. -/
theorem test_witness_abort_at_the_gate :
    let d : Delayed := ⟨2, 3, .csend 0 0 7 false, 0⟩
    let h := { bound5 0 with uid := 2 }
    let ws := [⟨1, 4, .cstate 0 9, 0⟩, d, ⟨3, 5, .cabort 1, 0⟩]
    let s := atGate ws h conv5
    s.conv? conv5.num = some conv5 ∧ conv5.aborted = false ∧ s.pkg.waits = ws ∧ ws[2].role s = none ∧
    d ∈ s.pkg.waits ∧ (∀ e ∈ s.pkg.waits, e.uid = d.uid → e = d) ∧ d.role s = some (5, 0) ∧
    s.group? d.uid = some h ∧ h.halt = .no := by
  refine ⟨rfl, rfl, rfl, rfl, by simp [atGate], by decide +kernel, by decide +kernel, by decide +kernel, rfl⟩

theorem test_witness_pending (op : DOp) :
    Pending { bound5 0 with pends := [⟨3, op, (0, 0), .waiting, 0, 0, []⟩] } 3 op :=
  ⟨rfl, [], _, rfl, rfl, rfl, by simp⟩

theorem test_witness_triples :
    let g := bound5 0
    let s := { talking g conv5 with hbm := (mapped g).hbm }
    InTurn s g 0 conv5 0 ∧ Quiet conv5 ∧ 1 < conv5.parties.length ∧ s.permitted conv5 0 15 = some 0x8002 ∧
    s.permitted { conv5 with state := 1 } 0 15 = none ∧ (conv5.party 1).inbox 0 = none ∧
    ({ conv5.party 1 with inA := some ⟨[], [], 1⟩ } : Party).inbox 0 = some ⟨[], [], 1⟩ ∧
    s.range g.part g.ctx g.team false .read 0x8000 (16 * 1) = .ok [(.hbm (part0.base + 0x8000) 0 0, 16)] ∧
    s.badIn [(.hbm (part0.base + 0x8000) 0 0, 16)] = none ∧ (conv5.party 1).next 0 + 1 ≤ 2 ^ 32 ∧
    2 ^ 32 < ({ conv5.party 1 with nextA := 2 ^ 32 } : Party).next 0 + 1 ∧
    (match s.range g.part g.ctx g.team false .read 0x200000 16 with | .fail _ _ _ => true | _ => false) = true ∧
    ((conv5.party 0).queue 0).length + 1 ≤ (conv5.party 0).capA ∧
    ({ conv5.party 0 with capA := 1 } : Party).capA < ((conv5.party 0).queue 0).length + 1 := by
  unfold InTurn AtGate StandsBefore Quiet
  decide +kernel

theorem test_witness_tiles :
    let g := bound5 0
    let s := { talking g conv5 with hbm := (mapped g).hbm }
    InTurn s g 0 conv5 0 ∧ Quiet conv5 ∧ 1 < conv5.parties.length ∧ s.pkg.waits = [] ∧ s.permitted conv5 0 15 = some 0x8002 ∧
    s.permitted { conv5 with state := 1 } 0 15 = none ∧ (conv5.party 1).inT = none ∧ s.pkg.tilePool + 64 ≤ 2 ^ 32 ∧
    2 ^ 32 < 2 ^ 32 + 64 ∧
    s.range g.part g.ctx g.team false .read 0x8000 64 = .ok [(.hbm (part0.base + 0x8000) 0 0, 64)] ∧
    s.badIn [(.hbm (part0.base + 0x8000) 0 0, 64)] = none ∧
    (match s.range g.part g.ctx g.team false .read 0x200000 64 with | .fail _ _ _ => true | _ => false) = true ∧
    ({ conv5.party 0 with inT := some ⟨[], List.replicate 64 1, 64⟩ } : Party).inT = some ⟨[], List.replicate 64 1, 64⟩ ∧
    (64 : W64).toNat = 64 ∧ (128 : W64).toNat ≠ 64 ∧
    s.range g.part g.ctx g.team false .write 0x8000 64 = .ok [(.hbm (part0.base + 0x8000) 0 0, 64)] := by
  unfold InTurn AtGate StandsBefore Quiet
  decide +kernel

theorem test_witness_BindingARole :
    let h : W64 := 0x0000000900500001
    let s := mkConv group0 conv5
    group0.halt = .no ∧ s.group? group0.uid = some group0 ∧ s.conv? (h.toNat / 2 ^ 20 % 2 ^ 12) = some conv5 ∧
    (conv5.role 1).used = true ∧ (conv5.role 1).world = 128 * group0.part + group0.ctx ∧
    (conv5.role 1).ticket.toNat = h.toNat / 2 ^ 32 ∧ h.toNat / 4 % 2 ^ 18 = 0 ∧ conv5.parties.length - 1 < 4 ∧
    conv5.choreo < 2 ^ 8 ∧ conv5.num < 2 ^ 12 ∧ conv5.destroyed = false ∧ conv5.aborted = false ∧
    ¬(conv5.role 3).used = true ∧ s.pkg.waits = [] ∧ (mk group0).conv? 5 = none ∧
    (0x0000000900500005 : W64).toNat / 4 % 2 ^ 18 ≠ 0 ∧
    (mkConv group0 { conv5 with aborted := true }).conv? 5 = some { conv5 with aborted := true } ∧
    (conv5.role 1).ticket.toNat ≠ (0x0000000A00500001 : W64).toNat / 2 ^ 32 ∧
    (mkConv group0 { conv5 with destroyed := true }).conv? 5 = some { conv5 with destroyed := true } := by decide

theorem test_witness_GlobalAccessInstructionsIssue :
    Issues (.ldgQ true true 28 30 (-256)) (mk group0) group0 ∧ Issues (.stgX false false 31 30 127 true 0x8000) (mk group0) group0 ∧
    Issues (.atom false false 30 28 26 0x400 6 3 true true 9) (mk group0) group0 ∧
    Issues (.sst false 127 90 255) (mk group0) group0 ∧
    Issues (.ldg false false 0 2 0) (mk { group0 with exm := 0 }) { group0 with exm := 0 } ∧
    Issues (.sld true 2 0 0) (mk group0) group0 ∧
    Issues (.sld false 2 0 0) (mk { group0 with lvm := 0 }) { group0 with lvm := 0 } := by decide

theorem test_witness_SliceAndDistributedAccessResults :
    Issues (.ldsQ true true 28 31 (-256)) (mk group0) group0 ∧ Issues (.stsX false false 31 30 127 true 0x8000) (mk group0) group0 ∧
    Issues (.atoms false false 30 31 28 0 6 3 true true 9) (mk group0) group0 ∧
    Issues (.atomd false true 31 31 31 0 0 0 false false 12) (mk group0) group0 ∧
    Issues (.ldd false false 0 31 0x8000) (mk group0) group0 ∧ (mk group0).team? group0.team = some team0 ∧
    Issues (.slds false 3 1 0) (mk (withS group0 [(1, 0x1FF8)])) (withS group0 [(1, 0x1FF8)]) ∧
    (0x1FF8 % 8 = 0 ∧ team0.window 0x1FF8 8 = some 0x1FF8) ∧ (0x2000 % 8 = 0 ∧ team0.window 0x2000 8 = none) ∧
    0x1FFC % 8 ≠ 0 := by decide

/-- The states of a slice access: no line with an error, a line with one, which the access reads, and a bank that another
lane holds. -/
theorem test_witness_bank_waits_and_slice_errors :
    (mk group0).sliceErrs = [] ∧ (mk group0).badLine (.slice 0x1FF8) 8 = none ∧
    (match { mk group0 with sliceErrs := [(0x1FC0, false)] }.performAccess group0 3 true (.load .slice 4 [(0, 0x1FF8)] 4 1 .zero none) with
      | .dead _ => true | _ => false) = true ∧
    (mk group0).bankWait group0 true ((List.range 16).map fun t => (4096 * t, 4)) = 15 ∧
    (∀ n, (group0.lane, n) ∉ ((mk group0).core 0).laneWaits) ∧
    ((mk group0).core 0).waited 0 = 0 ∧ ({ (mk group0).core 0 with laneWaits := [(0, 2)] } : Core).waited 0 = 2 := by
  refine ⟨rfl, by decide +kernel, by decide +kernel, by decide +kernel, ?_, by decide +kernel, by decide +kernel⟩
  simp [mk, State.core, State.reset, Core.fresh]

theorem test_witness_LoadsReadMemory :
    (∃ t r p, (mk group0).performAccess group0 0 false (.load .slice 4 [(0, 0), (15, 0x1FFC), (3, 0x2000)] 3 1 .zero none) =
      .ok t r p) ∧
    (([(0, 0), (15, 0x1FFC), (3, 0x2000)] : List (Nat × W64)).map (·.1)).Nodup ∧
    (mk group0).check 0 0 0 .slice 0x1FFC 4 .read false = .ok (.slice 0x1FFC) ∧
    (mk group0).check 0 0 0 .slice 0x2000 4 .read false = .fail .sliceBounds 0 ∧
    (∃ t r p, (mk group0).performAccess group0 31 false (.load .slice 2 [(7, 0x1FFE)] 31 1 .sign (some 0x8080)) = .ok t r p) ∧
    (0x8080 : W64) ≠ group0.width.full ∧
    (∃ t r p, (mk group0).performAccess group0 31 false (.load .slice 2 [(7, 0x1FFE)] 31 1 .sign (some 0xFFFF)) = .ok t r p) ∧
    (0xFFFF : W64) = group0.width.full := by
  refine ⟨⟨_, _, _, rfl⟩, by decide, by decide, by decide, ⟨_, _, _, rfl⟩, by decide, ⟨_, _, _, rfl⟩, by decide⟩

theorem test_witness_StoresWriteMemory :
    (mapped group0).hbm.wf = true ∧
    (mapped group0).check 0 0 0 .global 0x1FFFFC 4 .write false = .ok (.hbm (part0.base + 0x1FFFFC) 0 0) ∧
    (mapped group0).check 0 0 0 .global 0x200000 4 .write false = .fail .translation 0x300 ∧
    (mapped group0).slices.wf = true ∧ (mapped group0).check 0 0 0 .slice 0x1FFC 4 .write false = .ok (.slice 0x1FFC) := by
  decide +kernel

theorem test_witness_AtomicsUpdateMemory :
    (mapped group0).check 0 0 0 .global 0x1FFFF8 8 .both true = .ok (.hbm (part0.base + 0x1FFFF8) 0 0) ∧
    (mapped group0).badLine (.hbm (part0.base + 0x1FFFF8) 0 0) 8 = none ∧
    (mapped group0).check 0 0 0 .slice 0x1FFC 4 (AOp.perm .load) false = .ok (.slice 0x1FFC) ∧
    (mapped group0).badLine (.slice 0x1FFC) 4 = none ∧
    (mapped group0).check 0 0 0 .global 0x200000 8 .both true = .fail .translation 0x300 ∧
    (mapped group0).check 0 0 0 .slice 0x2000 4 .both false = .fail .sliceBounds 0 := by decide +kernel

theorem test_witness_MemoryReadAfterWrite : Memory.wf [(5, 1), (0x40000000, 255)] = true := by decide

theorem test_witness_TranslationByTheTables :
    let s := mapped group0
    s.part? part0.num = some part0 ∧ part0.contexts.find? (fun x => x.id == 0) = some ⟨0, some 0x1000⟩ ∧
    s.walkFrom part0 0 0x1FFFFF walkLevels 0x1000 = .leaf 0x4F true ∧ s.walkFrom part0 0 0x200000 walkLevels 0x1000 = .fault 3 ∧
    (leafed group0 0x0024000000000043).walkFrom part0 0 0 walkLevels 0x1000 = .leaf 0x0024000000000043 true ∧
    (0x0024000000000043 : W64).toNat / 2 ^ 50 = 9 ∧ (∀ x ∈ s.pkg.tensors, x.slot ≠ 9) ∧
    ((0x4F : W64).toNat &&& 14) &&& 8 = 8 ∧ ((0x43 : W64).toNat &&& 14) &&& 4 ≠ 4 ∧
    (0x4F : W64).toNat / 2 ^ 50 = 0 ∧ (0x000400000000004F : W64).toNat / 2 ^ 50 ≠ 0 ∧ 0x1FFFFF < part0.bound := by decide +kernel

/-- A table at 0x1000 of partition 0 whose first entry is `e`. -/
def table (e : Nat) : State := { mk group0 with hbm := Memory.writeN [] (part0.base + 0x1000) (leBytes 8 e) }

theorem test_witness_one_level_of_a_walk :
    ((3, 29, 21) ∈ walkLevels ∧ (4, 20, 16) ∈ walkLevels) ∧ part0.bound ≤ 0x40000000 ∧ 0x1000 < part0.bound ∧
    (State.setLine (table 0x2001) ⟨part0.base + 0x1000, true, false, false, 0, 0, 0, 0, 0, 0, 0⟩).lineReads (part0.base + 0x1000) 0 = false ∧
    (∀ e ∈ [0x2001, 0x4F, 0x7F, 0x01, 0xC1, 0x41, 0x2081, 0x2003, 0x4000004F, 0x4000000004F],
      (table e).lineReads ((part0.base + 0x1000) / 64 * 64) 0 = true ∧ leNat ((table e).hbm.readN (part0.base + 0x1000) 8) = e) ∧
    (Nat.testBit 0x2000 0 = false ∧ Nat.testBit 0x2081 7 = true) ∧ (Nat.testBit 0x4F 6 = true ∧ Nat.testBit 0x2001 6 = false) ∧
    0x7F / 16 % 4 = 3 ∧ 0x1004F / 2 ^ 8 % 2 ^ 42 * 256 % 2 ^ 21 ≠ 0 ∧ 0x2003 / 2 % 32 ≠ 0 ∧
    (0x2001 / 2 ^ 50 = 0 ∧ 0x2001 / 2 % 32 = 0 ∧ 0x2001 / 2 ^ 8 % 2 ^ 42 * 256 % 4096 = 0) := by
  and_intros <;> decide +kernel

theorem test_witness_ChecksInOrder :
    (let t := { team0 with pair := true, sliceOff := 0x1000 }
     0x1FFF + 1 ≤ t.sliceLen ∧ t.sliceLen ≤ 0x2000 ∧ 0x3FFF + 1 ≤ 2 * t.sliceLen ∧ 2 * t.sliceLen < 0x4000 + 1 ∧
     t.sliceLen ≤ 2097152 ∧ team0.pair = false ∧ team0.sliceLen < 0x2000 + 1) ∧
    ((mk group0).part? part0.num = some part0 ∧ part0.clus.getLsbD (0 / 8) = true ∧
      (mk group0).distributed 0 0 0x1FFC 4 = some 0x1FFC ∧ (mk group0).distributed 0 0 0x2000 4 = none ∧
      (mk group0).distributed 0 0 0x20000000 4 = none ∧ (mk group0).distributed 0 1 0 4 = none) ∧
    (0x1FFE % 4 ≠ 0 ∧ (mapped group0).translate 0 0 0x200000 .read = .fail .translation 0x300 ∧
      (mapped group0).translate 0 0 0x1FFFFC .read = .ok (part0.base + 0x1FFFFC) 0x4F ∧ 0x4F / 16 % 4 ≠ 2 ∧ 0x6F / 16 % 4 = 2) := by
  decide +kernel

theorem test_witness_AccessFrames :
    (∃ t, exec (.sts false false 2 1 0) (mk group0) = .next t) ∧ Issues (.sts false false 2 1 0) (mk group0) group0 ∧
    (∃ t, exec (.stg true true 2 0 255) (mapped group0) = .next t) ∧
    ((mapped group0).storeAll group0 .global 4 [(0, 0x3FC, 0)]).poison = none ∧
    (∃ t, exec (.ldg false false 2 0 0) (mapped group0) = .next t) ∧ (∃ t, exec (.ldd false false 2 0 0) (mk group0) = .next t) ∧
    (mapped group0).badLine (.hbm part0.base 0 0) 4 = none ∧
    (mapped group0).check 0 0 0 .global 0 4 .read false ≠ .poison part0.base := by
  refine ⟨⟨_, rfl⟩, by decide +kernel, ⟨_, rfl⟩, by decide +kernel, ⟨_, rfl⟩, ⟨_, rfl⟩, by decide +kernel, by decide +kernel⟩

theorem test_witness_scalar_and_atomic_frames :
    (∃ t, exec (.atom false false 6 8 2 0 5 2 true false 0) (mapped group0) = .next t) ∧
    (∃ t, exec (.atoms false true 6 8 2 0 0 0 false false 12) (mk group0) = .next t) ∧
    (∃ t, exec (.atomd false true 6 8 2 0 0 0 true true 8) (mk group0) = .next t) ∧
    ((mapped group0).atomAll group0 .global false .add true [(0, 0x3FC, 1, 0), (15, 0x200000, 1, 0)]).poison = none ∧
    (∃ t, exec (.sst false 2 0 0) (mapped group0) = .next t) ∧ (∃ t, exec (.sld true 2 0 0) (mapped group0) = .next t) ∧
    (∃ t, exec (.ssts false 2 0 255) (mk group0) = .next t) ∧ (mk group0).team? group0.team = some team0 ∧
    (mapped group0).check 0 0 0 .global 0 8 .write false = .ok (.hbm part0.base 0 0) ∧
    (mapped group0).check 0 0 0 .global 0x200000 8 .write false = .fail .translation 0x300 ∧
    (match (mapped group0).readThread group0 .global 8 0 0 with | .poison _ => true | _ => false) = false ∧
    (mapped group0).check 0 0 0 .global 0 8 .read false = .ok (.hbm part0.base 0 0) ∧
    (mapped group0).check 0 0 0 .global 0x200000 8 .read false = .fail .translation 0x300 ∧
    (mapped group0).badLine (.hbm part0.base 0 0) 8 = none := by
  refine ⟨⟨_, rfl⟩, ⟨_, rfl⟩, ⟨_, rfl⟩, by decide +kernel, ⟨_, rfl⟩, ⟨_, rfl⟩, ⟨_, rfl⟩, rfl, ?_⟩
  decide +kernel

theorem test_witness_FencesComplete :
    Issues (.fence false 7 7 6) (mk group0) group0 ∧ Issues (.fence true 0 4 0) (mk group0) group0 := by decide

/-- A group whose earlier accept of tiles is outstanding under a fence. -/
def fencing (f : FenceOp) : Group := { group0 with pends := [⟨1, .taccept 0 2 0 0, (0, 0), .waiting, 0, 0, []⟩], fences := [f] }

theorem test_witness_fences_hold_back :
    (∀ f ∈ [(⟨0, 4, 0, 5⟩ : FenceOp), ⟨0, 7, 7, 5⟩],
      let g := fencing f
      f ∈ g.fences ∧ (mapped g).outstanding g f = true ∧
      (∃ op, (mapped g).captured g (.lds false false 2 0 0) = some op ∧ op.globalOnly = none ∧ op.paths = [0]) ∧
      (f.second = 0 ∨ f.second = 7) ∧ (mapped g).fenced g (.lds false false 2 0 0) = true ∧ g.fences ≠ []) ∧
    (let g := fencing ⟨6, 7, 3, 5⟩
     (mapped g).outstanding g ⟨6, 7, 3, 5⟩ = true ∧
     (∃ o items dst n ret, (mapped g).captured g (.xget false 2 8 1 false 0) = some (.remote o items dst n ret) ∧
       ∃ x ∈ items, ∃ t, (mapped g).rankOf 0 0 1 x.2.1.toNat = some t)) ∧
    (let g := { fencing ⟨0, 7, 7, 5⟩ with pc := 0x8000 }
     { mapped g with hbm := (mapped g).hbm.writeN (part0.base + 0x8000) (leBytes 4 0x1800C082) }.fetch g = .instr (.sadd false 3 1 2)) := by
  refine ⟨?_, ⟨by decide +kernel, _, _, _, _, _, rfl, ?_⟩, by decide +kernel⟩
  · intro f h
    simp only [List.mem_cons, List.not_mem_nil, or_false] at h
    rcases h with rfl | rfl <;>
      exact ⟨by decide, by decide +kernel, ⟨_, rfl, rfl, rfl⟩, by decide, by decide +kernel, by decide⟩
  · exact ⟨_, List.mem_cons_self, _, rfl⟩

theorem test_witness_RemoteInstructionResults :
    Issues (.xsend false 28 30 31 false true true 2 63) (mk group0) group0 ∧
    Issues (.xred true 30 28 31 7 true false 1 26) (mk group0) group0 ∧
    Issues (.xapp false 31 30 29 true 2 28) (mk { group0 with exm := 0 }) { group0 with exm := 0 } ∧ (2 : BitVec 2).toNat ≤ 2 ∧
    (mapped group0).check 0 0 0 .global 0x1FFFF0 16 .write false = .ok (.hbm (part0.base + 0x1FFFF0) 0 0) ∧
    (mapped group0).check 0 0 0 .global 0x200000 16 .read false = .fail .translation 0x300 ∧
    (mapped group0).check 0 0 0 .dist 0x2000 4 .both false = .fail .distBounds 0 ∧
    (mapped group0).badLine (.hbm (part0.base + 0x1FFFF0) 0 0) 16 = none ∧
    (mapped group0).part? 0 = some part0 ∧ (mapped group0).foreignStop = false := by
  decide +kernel

/-- A packet of this device for context 0 of partition 0. -/
def packet0 (op : PktOp) : Packet := ⟨Config.ownDevice, 0, 0, 5, Config.ownDevice, 0, 0, op, [], some 1⟩

/-- A mapped state with a table's descriptor at 0x8000: its tail, capacity, base and flag. -/
def appending (tail cap base flag : Nat) : State :=
  let words := leBytes 8 tail ++ leBytes 8 cap ++ leBytes 8 base ++ leBytes 8 flag
  { mapped group0 with hbm := (mapped group0).hbm.writeN (part0.base + 0x8000) words }

theorem test_witness_appends :
    (∀ x ∈ [(0, 1, 0x9000, 0xA000), (1, 1, 0x9000, 0), (0, 0xFFFFFFFE, 0x200000, 0x200000), (0, 0xFFFFFFFF, 0, 0)],
      let s := appending x.1 x.2.1 x.2.2.1 x.2.2.2
      let pl := Place.hbm (part0.base + 0x8000) 0 0
      let word := fun k => leNat (((s.readAt pl 32).drop (8 * k)).take 8)
      s.check 0 0 0 .global 0x8000 16 .both false = .ok pl ∧ s.badLine pl 32 = none ∧ word 0 = x.1 ∧ word 1 = x.2.1 ∧
      word 2 = x.2.2.1 ∧ word 3 = x.2.2.2) ∧
    (packet0 (.app 16)).op = .app 16 ∧ (0x8010 : W64).toNat % 32 ≠ 0 ∧
    (mapped group0).check 0 0 0 .global 0x200000 16 .both false = .fail .translation 0x300 ∧
    (mapped group0).check 0 0 0 .global 0xA000 8 .both true = .ok (.hbm (part0.base + 0xA000) 0 0) ∧
    (mapped group0).check 0 0 0 .global 0x200000 8 .both true = .fail .translation 0x300 ∧
    (mapped group0).check 0 0 0 .global 0x9000 16 .write false = .ok (.hbm (part0.base + 0x9000) 0 0) ∧
    (mapped group0).check 0 0 0 .global 0x200000 16 .write false = .fail .translation 0x300 ∧
    (mapped group0).badLine (.hbm (part0.base + 0xA000) 0 0) 8 = none ∧
    ((mapped group0).setLine ⟨part0.base + 0xA000, true, false, false, 0, 0, 0, 0, 0, 0, 0⟩).badLine (.hbm (part0.base + 0xA000) 0 0) 8 ≠ none ∧
    (mapped group0).check 0 0 0 .global 0x1FFFF8 8 .both false = .ok (.hbm (part0.base + 0x1FFFF8) 0 0) := by
  refine ⟨by decide +kernel, rfl, by decide +kernel⟩

theorem test_witness_flags_at_their_target :
    (mapped group0).granted (packet0 (.app 16)) = true ∧
    (mapped group0).granted { packet0 (.app 16) with tgtCtx := 1 } = false ∧
    (mapped group0).check 0 0 0 .global 0x200000 8 .both true = .fail .translation 0x300 ∧
    (let e : Executed := ⟨5, [3], [⟨3, none, []⟩], .send 4 false (some ⟨false, 0xA000⟩), some 1, 0, 0, false⟩
     (∀ t ∈ e.threads, ∃ a ∈ e.answers, a.t = t ∧ a.fail = none) ∧ e.flagged = false ∧ e.last = some 1 ∧
     ¬∀ t ∈ { e with threads := [3, 4] }.threads, ∃ a ∈ e.answers, a.t = t ∧ a.fail = none) ∧
    (mapped group0).badLine (.hbm (part0.base + 0xA000) 0 0) 8 = none := by
  refine ⟨?_, ?_, by decide +kernel, by decide +kernel, by decide +kernel⟩
  · have h : (mapped group0).part? 0 = some part0 := rfl
    simp [State.granted, packet0, h, part0]
    exact .inl rfl
  · have h : (mapped group0).part? 0 = some part0 := rfl
    simp [State.granted, packet0, h, part0]

/-- A thread at its target that reads a line with an error. -/
theorem test_witness_remote_thread_meets_an_error :
    let s := (mapped group0).setLine ⟨part0.base + 0xA000, true, false, false, 0, 0, 0, 0, 0, 0, 0⟩
    (match s.remoteThread (packet0 (.get 4 false)) ⟨3, 0xA000, []⟩ with | .poison _ => true | _ => false) = true ∧
    s.badLine (.hbm (part0.base + 0xA000) 0 0) 4 ≠ none := by
  decide +kernel

theorem test_witness_remote_returns :
    (let s := mapped group0
     s.group? group0.uid = some group0 ∧ group0.halt = .no ∧ s.rankOf 0 0 1 (1 : W32).toNat = none ∧ s.fabric.sent = []) ∧
    (let items : List RemoteItem := [(3, 0, 0x100, 0), (5, 0, 0x104, 0)]
     let x : Sent := ⟨1, 9, 3, [], [], [⟨3, none, [1, 2, 3, 4]⟩, ⟨5, some (0x13, 4), []⟩]⟩
     (x.refused = [] ∧ Cause.remoteRefused.code = 0x13 ∧ ({ x with refused := [3] } : Sent).refused = [3]) ∧ (items.map (·.1)).Nodup ∧ (∀ i ∈ items, i.1 < 64) ∧ x.answers.map (·.t) = items.map (·.1)) := by
  decide +kernel

/-- Barrier 31 of the team is initialised. -/
def teamBar : Team := { team0 with abars := team0.abars.set 31 ⟨1, 1, false, false, 0, 0, true, 1, [], []⟩ }

/-- The state with that team. -/
def mkBar (g : Group) : State := { mk g with teams := [teamBar] }

theorem test_witness_EngineInstructionsIssue :
    (mkBar group0).team? group0.team = some teamBar ∧ (teamBar.abar 31).expected ≠ 0 ∧ (teamBar.abar 0).expected = 0 ∧
    Issues (.mmloop false 5 16 1 2047 31 true true 2 1) (mkBar group0) group0 ∧
    Issues (.cpy true 63 1 2 3 0 31) (mkBar group0) group0 ∧ Issues (.cunpack false 2 0 3 true 3 2 5 31) (mkBar group0) group0 ∧
    (let g := { group0 with latch := some (List.replicate 8 []) }
     Issues (.mmloop false 5 24 1 0 31 false false 0 0) (mkBar g) g ∧ (List.replicate 8 ([] : List W32)).length = 8 * ((0 : BitVec 3).toNat + 1) ∧
       (List.replicate 8 ([] : List W32)).length ≠ 8 * ((7 : BitVec 3).toNat + 1)) ∧
    (let h := { group0 with uid := 2, lane := 1, latch := some [] }
     let s := { mkBar group0 with groups := [group0, h] }
     Issues (.mmloop false 5 16 1 0 31 false true 0 1) s group0 ∧ h ∈ s.groups ∧ h.uid ≠ group0.uid ∧ h.core = group0.core ∧
       h.lane / 16 = group0.lane / 16 ∧ h.latch ≠ none) ∧
    (copyMisfit 4 8 0 0 1 = none ∧ copyMisfit 4 8 16777220 0 1 = some (.alignment, 8)) := by decide

theorem test_witness_engine_room :
    HasRoom ((mkBar group0).setGroup group0) 0 (.cpy 0 0 4 1 1 31) ∧
    (let e : EngEntry := ⟨.mmloop [] 0 0 1 0 0 true 31, 0, 0, 0, 1, 1, 0, 0, 0, 0, .w16, false, 0, .start, none, [], []⟩
     ¬HasRoom ((mkBar group0).setCore { Core.fresh 0 with matrix := List.replicate 16 e }) 0 e.op) := by
  refine ⟨⟨?_, ?_⟩, ?_⟩
  · exact ⟨63, by decide, by intro e he; exact absurd he (by simp [mkBar, mk, State.setGroup, State.core, State.reset, Core.fresh])⟩
  · intro h hh _ p hp
    rw [List.mem_singleton.mp hh] at hp
    exact absurd hp (by simp [Group.issued, group0, Group.fresh])
  · rintro e ⟨h, -⟩
    exact absurd h (by decide)

/-- Buffer 3 of the team: two slots of 64 bytes, the first popped. -/
def buf3 : CBuf := ⟨0, 1, [.popped, .free], 1, 1, 0, [], []⟩

/-- The team with that buffer. -/
def teamBuf (b : CBuf) : Team := { team0 with bufs := team0.bufs.set 3 (some b) }

/-- A state with that team. -/
def mkBuf (g : Group) (b : CBuf) : State := { mk g with teams := [teamBuf b] }

theorem test_witness_CircularBufferResults :
    let s := mkBuf group0 buf3
    s.team? group0.team = some (teamBuf buf3) ∧ s.bufTaken (teamBuf buf3) 0 3 = false ∧ (teamBuf buf3).buf 3 = some buf3 ∧
    (teamBuf buf3).buf 4 = none ∧ Issues (.cbinit false 1 2 31) s group0 ∧ Issues (.cbpush true 1 2 0 3) s group0 ∧
    Issues (.cbpop false 127 3) s group0 ∧ Issues (.cbfree false 3) s group0 ∧
    (let v : W64 := 0x000003
     1 ≤ v.toNat % 2 ^ 16 ∧ v.toNat < 2 ^ 24 ∧ 0 + (v.toNat / 2 ^ 16 % 2 ^ 8 + 1) * 3 * 64 ≤ team0.sliceLen) ∧
    (let v : W64 := 0xFF0001
     ¬(0 + (v.toNat / 2 ^ 16 % 2 ^ 8 + 1) * 1 * 64 ≤ team0.sliceLen)) ∧
    s.fillsOut 0 0 3 = false ∧ buf3.bound = [] ∧ (∃ x ∈ buf3.slots, x = .popped ∨ x = .freeing) ∧
    (∀ x ∈ ({ buf3 with slots := [.free, .filled] } : CBuf).slots, x ≠ .popped ∧ x ≠ .freeing) ∧
    (64 ≠ 0 ∧ 64 ≤ buf3.size * 64 ∧ 64 % 4 = 0) ∧ (buf3.size * 64 < 68) ∧
    (let c := { buf3 with slots := [.popped, .popped], oldest := 1, ahead := [] }
     let age := fun j => c.ahead.count j * c.slots.length + (j + c.slots.length - c.oldest) % c.slots.length
     c.slots[1]? = some .popped ∧ ∀ j, j < 2 → j ≠ 1 → age 1 < age j) ∧
    (let u := { mk group0 with teams := [team0, { teamBuf buf3 with uid := 7 }] }
     u.team? group0.team = some team0 ∧ u.bufTaken team0 0 3 = true) := by decide

theorem test_witness_AsyncBarrierResults :
    (mkBar group0).team? group0.team = some teamBar ∧ Issues (.abarInit false 1 31) (mkBar group0) group0 ∧
    Issues (.abarArrive true 31) (mkBar group0) group0 ∧ Issues (.abarWait false 63 31) (mkBar group0) group0 ∧
    (teamBar.abar 31).expected ≠ 0 ∧ (teamBar.abar 0).expected = 0 ∧ 1 ≤ (1 : W64).toNat ∧ (65535 : W64).toNat ≤ 65535 ∧
    65535 < (65536 : W64).toNat ∧ (teamBar.abar 31).pending ≤ 1 ∧ (teamBar.abar 31).fresh = true ∧
    (let b : Abar := ⟨2, 2, false, true, 255, 8, false, 0, [], []⟩
     2 ≤ b.pending ∧ b.fresh = false ∧ b.failed = true ∧ ¬b.detail.toNat % 256 < 255) := by decide

theorem test_witness_BranchResults :
    Issues (.br true 0x8000) (mk group0) group0 ∧ Issues (.bmz false 0 4) (mk group0) group0 ∧
    Issues (.call false 63 0x7FFF) (mk group0) group0 ∧ Issues (.jr true 0) (mk group0) group0 ∧
    Issues (.loop true 63 0xFFFF) (mk group0) group0 ∧
    ((0 : W64).toNat % 4 = 0 ∧ (3 : W64).toNat % 4 ≠ 0 ∧ (0 : W64) ≠ 1) ∧
    (∃ k, k < 64 ∧ (0x8000 : W64).getLsbD k = true ∧ group0.lvm.getLsbD k = true) ∧
    ∀ k, k < 64 → ¬((0x10000 : W64).getLsbD k = true ∧ group0.lvm.getLsbD k = true) := by
  refine ⟨by decide, by decide, by decide, by decide, by decide, by decide, ⟨15, by decide⟩, by decide⟩

theorem test_witness_SystemInstructionResults :
    Issues (.wbase true 31) (mk group0) group0 ∧ 16 * (1 : BitVec 5).toNat < group0.alloc ∧ group0.alloc ≤ 16 * (2 : BitVec 5).toNat ∧
    Issues (.trap false 255) (mk group0) group0 ∧ Issues (.bar false 15) (mk group0) group0 ∧
    Issues (.sys true 63 255) (mk group0) group0 ∧ Issues (.evcfg false 63 true 2 7) (mk group0) group0 ∧
    Issues (.launch false 127 15) (mk group0) group0 ∧ (128 : W64).toNat % 128 = 0 ∧ (127 : W64).toNat % 128 ≠ 0 := by decide

theorem test_witness_WhatPrecedesAnEffect :
    (let g := { group0 with pc := 0x200000 }
     (mapped g).fetch g = .fail 0x200000 .translation 0x300) ∧
    (mapped group0).fetch group0 = .illegal 4 ∧ Instr.isWord (.vaddW false false 5 0 2) = true ∧
    (mk group0).curGroup = some group0 ∧ group0.operandsOk (.vaddW false false 5 0 2) = false ∧
    group0.operandsOk (.vadd false false 32 0 0) = false ∧
    (let g := { group0 with poison := [⟨2, 15, 0⟩] }
     g.operandsOk (.vadd false false 0 1 2) = true ∧ g.consumes (.vadd false false 0 1 2) = some 2) := by decide +kernel

theorem test_witness_TakingATrap :
    let f : Failure := ⟨0, .userTrap, 0, 0, 7, false⟩
    let c : Failure := ⟨31, .translation, 0x1000, 1, 0, true⟩
    (∀ x ∈ [f, c], x.idx < 32) ∧ (∀ x ∈ [c], f.idx ≤ x.idx) ∧ group0.armed = false ∧ (∀ x ∈ [f], x.cause.control = false) ∧
    (∃ x ∈ [f, c], x.cause.control = true) := by decide

theorem test_witness_ReturningFromATrap :
    let p : Pend := ⟨3, .sload 8 4, (0, 0), .done Result.empty, 0, 0, []⟩
    group0.armed = false ∧ (∀ q ∈ ([] : List Pend), (0 : W64).getLsbD (q.idx % 32) = false) ∧
    (∃ q ∈ [p], (8 : W64).getLsbD (q.idx % 32) = true) ∧ (∀ q ∈ [p], (4 : W64).getLsbD (q.idx % 32) = false) ∧
    (let es : List TrapEntry := [⟨3, 5, 0, 0, 0⟩, ⟨4, 5, 0, 0x8001, 0⟩]
     es.find? (fun x => x.idx == p.idx % 32) = some ⟨3, 5, 0, 0, 0⟩ ∧
     es.find? (fun x => x.idx == 36 % 32) = some ⟨4, 5, 0, 0x8001, 0⟩ ∧ es.find? (fun x => x.idx == 5 % 32) = none) := by decide

/-- A replay that a fence of the group holds back, and one that nothing holds back. -/
theorem test_witness_a_replay_waits :
    let p : Pend := ⟨3, .load .slice 4 [(0, 0x10)] 4 1 .zero none, (0, 0), .done .empty, 0, 0, []⟩
    let g := { fencing ⟨0, 7, 7, 5⟩ with armed := true, trap := TrapRec.make [⟨3, .translation, 0x10, 1, 0, true⟩] 0 0 [p] }
    let s := mapped g
    g.replaySet = [p] ∧ (∃ q ∈ g.replaySet, ∃ f ∈ g.fences, (s.performLate g.uid).outstanding g f = true ∧
      (s.performLate g.uid).laterOf g q.op f = true) ∧
    (∃ q ∈ g.trap.replays, g.trap.rplq.getLsbD (q.idx % 32) = true) ∧ s.late = [] ∧ ({ g with fences := [] } : Group).fences = [] := by
  decide +kernel

/-- A state whose only group is `g`, with the core `c`. -/
def mkCore (g : Group) (c : Core) : State := { mkBar g with cores := [c] }

/-- A state with one partition. -/
def mkPart (g : Group) (p : Partition) : State := { mk g with parts := [p] }

theorem test_witness_RunEvents :
    (let g := { group0 with stat := .ready }
     (∀ h ∈ (mk g).groups, h.core = 0 → h.lane = 0 → h.stat ≠ .running) ∧ (mk g).inLine 0 0 g = true) ∧
    (let r : Ret := ⟨1, group0.gen, 3, 0, 0, .empty⟩
     let s := { mk group0 with returns := [r] }
     s.returns[0]? = some r ∧ s.group? r.uid = some group0 ∧ group0.gen = r.gen ∧ group0.gen ≠ group0.gen + 1) ∧
    (let g := { group0 with pends := [⟨3, .sys 255 [1, 2] 5, (0, 0), .waiting, 0, 0, []⟩] }
     let s := { mk g with interrupts := [.sysCall 0 0 1 3 0 255 [1, 2]] }
     s.interrupts.find? (Interrupt.isSys 1 3) = some (.sysCall 0 0 1 3 0 255 [1, 2]) ∧ s.group? 1 = some g ∧
     g.sysAt 3 0 = some (3, 5) ∧ g.halt = .no) ∧
    ((mk group0).parts.find? (fun p => p.holdsCore 7) = some part0 ∧ (mk group0).parts.find? (fun p => p.holdsCore 8) = none) ∧
    (let p := { part0 with stalllim := 1 }
     let g := { group0 with stat := .atBar 15 }
     let s := mkPart g p
     s.team? 0 = some team0 ∧ s.part? team0.part = some p ∧ p.stalllim ≠ 0 ∧
     (s.groups.filter fun h => h.team == 0 && h.stat == .atBar 15) = [g] ∧ g.halt = .no ∧ g.spilled = none) ∧
    (∀ r ∈ [0, 1],
     let p := { part0 with stalllim := 1 }
     let pt : Sys2Proof.Machine.Part := ⟨r, 1, 3, .smul, 32, [(0, 1, 2)], 0, none, [], 0, false, false, 0⟩
     let x : Exchange := ⟨0, 0, some 0, 1, 0, [], [pt], 0⟩
     let c := { conv5 with exchanges := [x] }
     let s := { mkConv group0 c with parts := [p] }
     s.group? 1 = some group0 ∧ s.part? group0.part = some p ∧ c ∈ s.pkg.convs ∧ x ∈ c.exchanges ∧ pt ∈ x.parts ∧
     (∀ d ∈ s.pkg.convs, ∀ y ∈ d.exchanges, ∀ q ∈ y.parts, q.uid = 1 → q.idx = 3 → d = c ∧ y = x ∧ q = pt) ∧
     pt.withdrawn = false ∧ pt.popped = none ∧
     (((c.party pt.party).queue 0).length < (GateOp.need .smul 32 1).2 ↔ r = 1)) := by
  refine ⟨by decide +kernel, by decide, by decide +kernel, by decide +kernel, by decide +kernel, by decide +kernel⟩

/-- Group 1 parked at the end of a run that ended in a way. -/
def atEnd (e : RunEnd) (f : List Failure) : Group := { group0 with stat := .endRun, runEnd := e, fails := f }

theorem test_witness_RunsEndAtBoundaries :
    (∀ e ∈ [RunEnd.fall, .exit, .yield, .rtrap, .bar 15, .abarWait 31 false], ∀ f ∈ [[], [⟨0, .userTrap, 0, 0, 0, false⟩]],
      let g := atEnd e f
      let s := mkBar g
      s.group? 1 = some g ∧ g.stat = .endRun ∧ g.halt = .no ∧ g.yielded = none ∧ s.launchOf g.part g.lid = none ∧
      g.lvm.getLsbD 15 = true ∧ g.pends = [] ∧ (committed g).lvm.getLsbD 15 = true ∧ s.team? g.team = some teamBar) ∧
    ((teamBar.abar 31).phase ≠ false ∨ (teamBar.abar 31).phase = false) ∧
    (let y : Yielded := ⟨[⟨32, .sload 8 4, (0, 0), .done .empty, 0, 0, []⟩], [], 0x100200⟩
     let g := { group0 with stat := .ready, yielded := some y }
     (mk g).group? 1 = some g ∧ (∀ p ∈ y.pends, p.st = .done .empty) ∧ g.spilled = none ∧
     addFailures (failuresOf y.pends) y.fails = [] ∧ addFailures (failuresOf y.pends) [⟨0, .userTrap, 0, 0, 0, false⟩] ≠ []) ∧
    (let g := { atEnd .exit [] with yielded := some ⟨[⟨32, .sload 8 4, (0, 0), .done .empty, 0, 0, []⟩], [⟨0, .userTrap, 0, 0, 0, false⟩], 0x100200⟩ }
     (mk g).group? 1 = some g ∧ g.halt = .no ∧ g.spilled = none ∧ g.pends = [] ∧ (committed { g with yielded := none }).fails = [] ∧
     (mk g).launchOf g.part g.lid = none ∧ g.lvm.getLsbD 15 = true) ∧
    (let t := { team0 with bars := team0.bars.set 15 ⟨1, 0⟩ }
     let s := { mk { group0 with stat := .atBar 15 } with teams := [t] }
     s.team? 0 = some t ∧ (t.bars.getD 15 ⟨0, 0⟩).arrivals ≠ 0 ∧ t.ngroups ≤ (t.bars.getD 15 ⟨0, 0⟩).arrivals + t.exited ∧
     (t.bars.getD 0 ⟨0, 0⟩).arrivals = 0 ∧ 15 < t.bars.length) := by
  refine ⟨by decide +kernel, by decide, by decide +kernel, by decide +kernel, by decide +kernel⟩

/-- An operation that an engine holds for the group. -/
def entry0 (op : EngOp) : EngEntry := ⟨op, 0, 0, 0, 1, 1, 0, 3, 0x100000, 0, .w16, false, 0, .start, none, [], []⟩

theorem test_witness_EngineQueueEvents :
    (let p : Pend := ⟨3, .engine (.cpy 0x100 0 4 1 1 31) 0 0x100000, (0, 0), .waiting, 0, 0, []⟩
     let g := { group0 with pends := [p] }
     let s := mkBar g
     s.group? 1 = some g ∧ g.issued = [] ++ p :: [] ∧ p.st = .waiting) ∧
    EngineHasRoom (mkBar group0) 0 (.mmloop [] 0 0 1 0 0 true 31) ∧ EngineHasRoom (mkBar group0) 0 (.cpy 0x100 0 4 1 1 31) ∧
    (∀ a ∈ [((0, 0) : W64 × W64), (0x20, 0), (0, 0x20)],
      let x : Matrix := ⟨List.replicate 8 [], a.1.toNat, a.2.toNat, 1, 0, 0, true⟩
      let e := entry0 (.mmloop x.regs a.1 a.2 x.nk x.mode x.binc x.z 31)
      let s := mkCore group0 { Core.fresh 0 with matrix := [e] }
      (s.core 0).matrix = e :: [] ∧ e.matrix = some (x, 31) ∧ s.team? e.team = some teamBar) ∧
    ((∀ q, q < 64 → teamBar.window (0 + 64 * q) 64 ≠ none) ∧ teamBar.window (0x1FC0 + 64 * 1) 64 = none) := by
  refine ⟨by decide, ?_, ?_, ?_, by decide +kernel, by decide +kernel⟩
  · show (_ : Nat) < 16; decide
  · exact ⟨63, by decide, by intro e he; exact absurd he (by simp [mkBar, mk, State.core, State.reset, Core.fresh])⟩
  · intro a ha
    simp only [List.mem_cons, List.not_mem_nil, or_false] at ha
    rcases ha with rfl | rfl | rfl <;> exact ⟨rfl, rfl, rfl⟩

/-- Two groups of steps over an accumulator at 0 and one tile at 0x1000. -/
theorem test_witness_matrix_values : (mk group0).sliceErrs = [] ∧ LaidOut team0 16 ⟨[], 0, 0x1000, 5, 0, 0, false⟩ ∧
    LaidOut team0 16 ⟨[], 0, 0x1000, 1, 2, 32, true⟩ := by
  refine ⟨rfl, ?_, ?_⟩ <;> refine ⟨by decide, by decide, by decide, by decide, by decide, by decide, ?_, ?_, ?_⟩ <;> intros <;>
    simp_all [Team.window, team0, Team.fresh, sliceSize] <;> omega

/-- A state whose core 0 has an operation in copy slot 63. -/
def inSlot (e : EngEntry) : State := mkCore group0 { Core.fresh 0 with copies := [(63, e)] }

theorem test_witness_CopyAndBufferEvents :
    (let e := entry0 (.cpy 0x100 0 64 1 1 31)
     let s := inSlot e
     s.copyEntry 0 63 = some e ∧ s.bulkOut 0 63 = false ∧ copyMisfit 0x100 0 64 1 1 = none ∧
     copyMisfit 0x102 0 64 1 1 = some (.alignment, 0x102) ∧ s.side e 1 .read 0 64 = .ok [(.slice 0, 64)] ∧
     s.side e 1 .write 0x1FC0 64 = .ok [(.slice 0x1FC0, 64)] ∧ s.badIn [(.slice 0, 64)] = none ∧
     rangesMeet [(.slice 0, 64)] [(.slice 0x1FC0, 64)] = false ∧ copyMisfit 0x100 0xFFFFFFFFFFF 64 1 3 ≠ none ∧
     copyMisfit 0x100 0 64 1 3 = none ∧ (0 : W64).toNat < 2 ^ 60) ∧
    ((inSlot (entry0 (.cpy 0x100 0 64 1 3 31))).rankOf 0 0 1 0 = some ⟨true, 0, 0, Config.ownDevice⟩) ∧
    (let e := entry0 (.cunpack 0x400 0 512 true 0 1 0 31)
     (inSlot e).copyEntry 0 63 = some e ∧ 1 ≠ 0 ∧ (513 : W64).toNat % (if 1 = 2 then 1024 else 512) ≠ 0 ∧
     (512 : W64).toNat % (if 1 = 2 then 1024 else 512) = 0 ∧ (32 : W64).toNat % 64 ≠ 0) ∧
    (let e := entry0 (.cbpush 3 0x1000 64 1 (some 1))
     let s := { inSlot e with teams := [teamBuf buf3] }
     s.copyEntry 0 63 = some e ∧ s.team? e.team = some (teamBuf buf3) ∧ (teamBuf buf3).buf 3 = some buf3 ∧ e.started = false ∧
     buf3.slots.getD 1 .popped = .free ∧ (s.core 0).firstFor 63 e.team 3 1 = true ∧
     copyMisfit 0 0x1002 64 1 1 = some (.alignment, 0x1002) ∧ s.side e 1 .read 0x1000 64 = .ok [(.slice 0x1000, 64)] ∧
     s.side e 1 .write (buf3.base + 1 * buf3.size * 64) 64 = .ok [(.slice 64, 64)] ∧
     rangesMeet [(.slice 0x1000, 64)] [(.slice 64, 64)] = false) ∧
    (let t := { team0 with abars := team0.abars.set 31 ⟨1, 1, false, false, 0, 0, true, 1, [], []⟩ }
     (mkBar group0).team? 0 = some t ∧ (t.abar 31).arrivals ≠ 0) ∧
    (let c := { buf3 with slots := [.freeing, .popped] }
     (mkBuf group0 c).team? 0 = some (teamBuf c) ∧ (teamBuf c).buf 3 = some c ∧ c.slots[0]? = some .freeing ∧
     c.slots[1]? = some .popped) := by
  refine ⟨by decide +kernel, rfl, by decide, by decide +kernel, by decide, by decide⟩

/-- A fence of the group holds back a copy of R pages, until nothing of its first path is outstanding; when the group is gone, as
long as an earlier copy of it is not complete. -/
theorem test_witness_copy_is_held_back :
    let e := { entry0 (.cpy 0x8000 0x10000 64 0 0 31) with since := 9, fences := [⟨0, 7, 7, 5⟩] }
    let s := { inSlot e with hbm := (mapped group0).hbm }
    let first := { entry0 (.cpy 0x4000 0x6000 64 0 0 31) with since := 4 }
    ({ s with groups := [fencing ⟨0, 7, 7, 5⟩] }.heldBack e (unitsOf 0x8000 64) = true) ∧
    ({ s with groups := [group0] }.heldBack e (unitsOf 0x8000 64) = false) ∧
    ({ s with groups := [], cores := [{ Core.fresh 0 with copies := [(63, e), (62, first)] }] }.heldBack e
      (unitsOf 0x8000 64) = true) ∧ ({ s with groups := [] }.heldBack e (unitsOf 0x8000 64) = false) ∧
    copyMisfit 0x8000 0x10000 64 0 0 = none ∧ e.moved = [] ∧ e.fail = none ∧ s.copyEntry 0 63 = some e ∧
    s.bulkOut 0 63 = false ∧ (64 : W64) ≠ 0 := by
  decide +kernel

/-- A copy of which a part has failed, a local copy that nothing holds back, and one with a remote destination. -/
theorem test_witness_copies_not_held_back :
    (let e := { entry0 (.cpy 0x100 0 64 1 1 31) with fail := some (.remoteRefused, 0) }
     (inSlot e).copyEntry 0 63 = some e ∧ (inSlot e).bulkOut 0 63 = false ∧ copyMisfit 0x100 0 64 1 1 = none) ∧
    (∀ op ∈ [EngOp.cpy 0x100 0 64 1 1 31, .cpy 0x100 0 64 1 3 31, .cpy 0 0x100 64 3 1 31], (entry0 op).moved = [] ∧
      (entry0 op).fail = none ∧ (inSlot (entry0 op)).heldBack (entry0 op) (unitsOf 0x100 64) = false) ∧
    (let e := entry0 (.cpy 0 0x100 64 3 1 31)
     let s := inSlot e
     s.copyEntry 0 63 = some e ∧ s.bulkOut 0 63 = false ∧ copyMisfit 0 0x100 64 3 1 = none ∧ (0 : W64).toNat < 2 ^ 60 ∧
     s.rankOf e.part e.ctx e.lid 0 = some ⟨true, 0, 0, Config.ownDevice⟩ ∧ s.side e 1 .read 0x100 64 = .ok [(.slice 0x100, 64)] ∧
     s.badIn [(.slice 0x100, 64)] = none) := by
  refine ⟨⟨rfl, rfl, by decide⟩, ?_, ⟨rfl, rfl, by decide, by decide, rfl, by decide +kernel, by decide +kernel⟩⟩
  intro op h
  simp only [List.mem_cons, List.not_mem_nil, or_false] at h
  rcases h with rfl | rfl | rfl <;> exact ⟨rfl, rfl, by decide +kernel⟩

/-! ## A cycle of a bank (R42, R44) -/

/-- Groups on lanes 2 and 9 of core 0, each about to compare and swap the word 4 of row 0 (the last litmus of the ordering
model), and one of core 1 about to read row 0 of core 0. -/
def contested : State :=
  let g := fun (u core l x : Nat) (pc : W64) => { withV { group0 with pc := pc, exm := 1, lvm := 1 }
    [(1, .u 4), (2, .u 0), (3, .u (BitVec.ofNat 32 x))] with uid := u, core := core, lane := l }
  { placed [3110093059, 41, 3103801600, 0] with
    groups := [g 2 0 9 0xFFFFFFFF 0x8000, g 1 0 2 3 0x8000, g 3 1 0 0 0x8008], slices := Memory.writeN [] 0 (leBytes 4 4) }

/-- R44: granted in one cycle, lane 2 is performed before lane 9: P returns 4, Q returns 3, and the word is 3. -/
theorem test_R44_atomics_of_one_grant :
    (match contested.doMove (.bankCycle 0 0 false false [] [(9, 0), (2, 0)]) with
      | .next t => t.slices.readN 0 4 == leBytes 4 3
        && t.returns.map (fun r => (r.uid, r.res.elems)) == [(1, [(1, 0, 4)]), (2, [(1, 0, 3)])]
      | _ => false) = true := by decide +kernel

/-- R42: the pointer rests on X, so class L is granted, and the request of the remote port keeps its place. -/
theorem test_R42_the_remote_port_waits :
    (match contested.doMove (.bankCycle 0 0 false false [.group 3] [(2, 0)]) with
      | .next t => ((t.core 0).bank 0).port == [.group 3] && ((t.core 0).bank 0).ptr == .l && t.slices.readN 0 4 == leBytes 4 3
        && t.returns.map (·.uid) == [1]
      | _ => false) = true := by decide +kernel

/-- R322, R335: the fetch of a line with one flipped bit counts a corrected error of class 10, and a flip elsewhere none. -/
theorem test_R335_a_corrected_read_counts :
    let s := fun (a : Nat) => { placed [0x1800C082] with lines := [{ Line.plain a with flip := 8 }] }
    (match step (s (part0.base + 0x8000)), step (s (part0.base + 0x9000)) with
      | .next t, .next u => t.pkg.cecnt.getD 10 0 == 1 && u.pkg.cecnt.getD 10 0 == 0
      | _, _ => false) = true := by decide +kernel

/-- A matrix operation that reads a slice line with an error. -/
theorem test_witness_matrix_meets_an_error :
    let x : Matrix := ⟨List.replicate 8 [], 0, 0x1000, 1, 0, 0, true⟩
    (match x.run { mkBar group0 with sliceErrs := [(0x1000, false)] } teamBar 16 MmDone.start with
      | .poison _ => true | .done _ _ => false) = true := by
  decide +kernel

theorem test_witness_unpack_is_done :
    ∃ w f n, State.unpackRun (inSlot (entry0 (.cunpack 0x400 0 512 true 0 1 0 31)))
      (entry0 (.cunpack 0x400 0 512 true 0 1 0 31)) ⟨0x400, 0, 512, true, 0, 1, 0⟩ = .done w f n := ⟨_, _, _, rfl⟩

/-- A team with 64 KiB of slice unpacks 32 rows of E2M1 from 0 under the scales at 0x1000 to 0x4000. -/
theorem test_witness_unpacked_values :
    let t := { team0 with sliceLen := 0x10000 }
    let e := entry0 (.cunpack 0x4000 0 0x1000 true 32 1 4 31)
    let s := { inSlot e with teams := [t] }
    s.team? e.team = some t ∧
    (∀ r, r < 32 → s.side e 1 .read (0 + r * (16 * widthOf 4)) (16 * widthOf 4) = .ok [(.slice (64 * r), 64)] ∧
      s.badIn [(.slice (64 * r), 64)] = none) ∧
    (∀ r i, r < 32 → i < 128 → let a := 0x1000 + 512 * 0 + r % 32 * 16 + r / 32 * 4 + i / 32
      s.side e 1 .read a 1 = .ok [(.slice a, 1)] ∧ s.badIn [(.slice a, 1)] = none) ∧
    (∀ k, k < 16 * 32 → t.window (0x4000 + 16 * k) 16 = some (0x4000 + 16 * k)) ∧
    (∀ k r i, k < 16 * 32 → r < 32 → i < 128 → rangesMeet [(.slice (64 * r), 64)] [(.slice (0x4000 + 16 * k), 16)] = false ∧
      rangesMeet [(.slice (0x1000 + 512 * 0 + r % 32 * 16 + r / 32 * 4 + i / 32), 1)] [(.slice (0x4000 + 16 * k), 16)] = false) := by
  intro t e s
  have side : ∀ a n, a + n ≤ 0x10000 → s.side e 1 .read a n = .ok [(.slice a, n)] := by
    intro a n h
    show s.sliceRange 0 a n = _
    have : t.window a n = some a := by simp [t, team0, Team.fresh, Team.window, sliceSize, h]
    have ht : s.team? 0 = some t := rfl
    simp only [State.sliceRange, ht, this]
  have good : ∀ a n, s.badIn [(.slice a, n)] = none := fun a n => by
    have hs : s.sliceErrs = [] := rfl
    simp [State.badIn, State.badLine, hs]
  refine ⟨rfl, fun r h => ⟨?_, good _ _⟩, fun r i h k => ⟨side _ _ (by omega), good _ _⟩, fun k h => ?_, fun k r i h1 h2 h3 => ?_⟩
  · have h4 : widthOf 4 = 4 := rfl
    rw [h4, side _ _ (by omega)]
    congr 4
    omega
  · simp [t, team0, Team.fresh, Team.window, sliceSize]
    omega
  · simp [rangesMeet, placesMeet]
    omega

/-- The bytes of a launch record: one team of one group of 16 threads and 16 registers. -/
def recordBytes : List Byte :=
  leBytes 8 0x100000 ++ leBytes 8 0 ++ leBytes 8 1 ++ leBytes 8 0x100400 ++ List.replicate 96 0

/-- Launch 1 of queue 0, whose record has priority 1. -/
def launch0 : Launch :=
  ⟨1, 0, 0, { Record.parse recordBytes with nteam := 1, slice := 2, prio := 1 }, [], 0, [], 0, 0, true, false, [], none, [], false⟩

/-- The partition with that launch. -/
def partL (l : Launch) : Partition := { part0 with launches := [l], nextLid := 2 }

/-- A mapped state with that record at address 0x8000 of the context. -/
def recorded (p : Partition) : State :=
  let m := mapped group0
  { m with parts := [p], hbm := m.hbm.writeN (p.baseGran * 2 ^ 30 + 0x8000) recordBytes }

/-- A read of a context's memory fails. -/
def failsRead : CtxRead → Bool
  | .fail _ _ _ => true
  | _ => false

theorem test_witness_records_are_accepted :
    (recorded part0).part? 0 = some part0 ∧ (15 < 16 ∧ (part0.inQueue 15).length < 64) ∧
    64 ≤ ({ part0 with launches := List.replicate 64 launch0 }.inQueue 0).length ∧
    (recorded part0).launchesStop = false ∧ (∃ c ∈ part0.contexts, c.id = part0.queueCtx 15) ∧
    (∀ c ∈ part0.contexts, c.id ≠ { part0 with queues := part0.queues.set 15 ⟨127, false, false⟩ }.queueCtx 15) ∧
    ((0x8000 : W64).toNat % 128 = 0 ∧ (0x8001 : W64).toNat % 128 ≠ 0) ∧
    (recorded part0).readCtx 0 0 0x8000 128 = .bytes recordBytes ∧
    (recorded part0).checkRecord part0 0 recordBytes = .ok (Record.parse recordBytes) [] 0 ∧
    (recorded part0).checkRecord part0 0 (leBytes 8 2 ++ recordBytes.drop 8) = .bad 2 ∧
    failsRead ((recorded part0).readCtx 0 0 0x1FFFC0 128) = true ∧
    (let w : Pend := ⟨3, .launch 0x8000 15, (0, 0), .waiting, 0, 0, []⟩
     let g := { group0 with pends := [w] }
     let s := { recorded part0 with groups := [g] }
     s.group? 1 = some g ∧ g.issued = [w] ∧ s.outstanding g ⟨6, 7, 7, w.since⟩ = false ∧ w.st = .waiting ∧
     g.part = 0) ∧
    (let w : Pend := ⟨3, .launch 0x8000 15, (0, 0), .waiting, 5, 0, []⟩
     let g := { group0 with pends := [w] }
     let r : FabReq := ⟨7, 1, 0, 0, 0, 0, 1, 0, ⟨0, 0, 0, 5, 0, 0, 0, .app 4, [], none⟩, 0, 0, none, 2⟩
     { recorded part0 with groups := [g], fabric := { Fabric.reset with reqs := [r] } }.outstanding g ⟨6, 7, 7, w.since⟩ = true) ∧
    (mk group0).group? 1 = some group0 ∧ group0.issued = [] := by
  refine ⟨by decide +kernel, by decide, by decide +kernel, by decide, ?_, by decide +kernel, by decide, by decide +kernel,
    by decide +kernel, by decide +kernel, ?_, by decide +kernel⟩
  · exact ⟨⟨0, some 0x1000⟩, by decide +kernel⟩
  · decide +kernel

/-- A state of the partition with launch 1 and some groups of it. -/
def launched (l : Launch) (gs : List Group) : State := { mk group0 with parts := [partL l], groups := gs }

theorem test_witness_launch_registers_and_commands :
    ((mk group0).part? 0 = some part0 ∧ part0.queues[15]? ≠ none) ∧ (∀ l ∈ (partL launch0).launches, launchNumber l.lid ≠ 2) ∧
    ((partL launch0).named 1 = some launch0 ∧ (partL launch0).launch? 1 = some launch0 ∧ launch0.ending = none ∧
      launch0.preempted = false) ∧
    (let l := { launch0 with ending := some 4 }
     (partL l).named 1 = some l ∧ (partL l).launch? l.lid = some l ∧ l.ending ≠ none) ∧
    (let l := { launch0 with preempted := true }
     (partL l).named 1 = some l ∧ (partL l).launch? l.lid = some l ∧ (launched l []).launchesStop = false ∧
     { launched l [] with pkg := { (launched l []).pkg with sleepSt := .entering } }.launchesStop = true) ∧
    (∀ st ∈ [GStat.running, .ready, .atBar 15, .atAbar 31 true],
      let g := { group0 with lid := 1, stat := st }
      (launched launch0 [g]).group? 1 = some g ∧ g.part = 0 ∧ g.halt = .no ∧ g.yielded = none) ∧
    (let w : Pend := ⟨3, .sys 1 [] 4, (0, 0), .waiting, 0, 0, []⟩
     let g := { group0 with lid := 1, stat := .endRun, pends := [w] }
     let s := launched launch0 [g]
     s.group? 1 = some g ∧ g.halt = .no ∧ g.yielded = none ∧ w.isDone = false ∧ s.unlimited g.uid w = true ∧ s.returns = []) ∧
    (let g := { group0 with lid := 1, stat := .ready, halt := .preempt }
     let s := launched { launch0 with preempted := true } [g]
     s.group? 1 = some g ∧ s.launchesStop = false ∧ g.spilled = none ∧ g.pends = [] ∧ s.pkg.convs = [] ∧
     s.team? g.team = some team0 ∧ team0.spilled = none) := by
  and_intros <;> decide +kernel

/-- A launch with one group in a run and one parked at a barrier, and one with none in a run. -/
theorem test_witness_terminate :
    (let g := { group0 with lid := 1 }
     let h := { group0 with lid := 1, uid := 2, stat := .atBar 0 }
     let s := launched launch0 [g, h]
     (∀ x ∈ s.groups, ∀ y ∈ s.groups, y.uid = x.uid → y = x) ∧ g.stat = .running ∧ g.halt = .no ∧ h.stat ≠ .running) ∧
    (let h := { group0 with lid := 1, stat := .ready }
     ∀ x ∈ (launched launch0 [h]).groups, x.stat ≠ .running ∨ x.halt ≠ .no) := by
  refine ⟨⟨?_, rfl, rfl, by decide⟩, by decide⟩
  intro x hx y hy h
  simp only [launched, List.mem_cons, List.not_mem_nil, or_false] at hx hy
  rcases hx with rfl | rfl <;> rcases hy with rfl | rfl <;> first | rfl | exact absurd h (by decide)

theorem test_witness_LaunchQueueEvents :
    (recorded part0).part? 0 = some part0 ∧ 15 < 16 ∧ (mk group0).part? 0 = some part0 ∧
    (launched launch0 []).part? 0 = some (partL launch0) := by
  refine ⟨by decide +kernel, by decide, by decide +kernel, by decide +kernel⟩

/-- A slot or save area is read without an error. -/
def isBytes : SlotRead → Bool
  | .bytes _ => true
  | _ => false

theorem test_witness_PlacementEvents :
    (let s := { launched launch0 [] with teams := [] }
     s.part? 0 = some (partL launch0) ∧ s.launchesStop = false ∧ (partL launch0).servable = [launch0] ∧
     (partL launch0).launch? launch0.lid = some launch0 ∧
     s.freeSite launch0.record.ask launch0.record.prio (s.candidates (partL launch0) false false) =
       some ⟨0, 0, [(0, 0)], [], []⟩) ∧
    (let l := { launch0 with record := { launch0.record with coop := true, cres := true, slice := 512 } }
     let p := { partL l with resvcore := 1 }
     let s := { launched l [] with teams := [], parts := [p] }
     s.part? 0 = some p ∧ p.coopHead = some l ∧ p.recheckHead = none ∧ p.servable = [] ∧
     (let m := { l with recheck := true }
      let q := { partL m with resvcore := 1 }
      q.recheckHead = some m ∧ q.coopFits m.record = true ∧ { partL m with clus := 0 }.recheckHead = some m ∧
        { partL m with clus := 0 }.coopFits m.record = false) ∧ (s.placeCoop 0 l.lid (l.record.nteam - l.placed)).2 = true ∧
     ({ s with teams := [{ team0 with sliceLen := 0x200000 }] }.placeCoop 0 l.lid (l.record.nteam - l.placed)).2 = false) ∧
    (let t := { team0 with lid := 1 }
     let s := { launched launch0 [] with teams := [t] }
     s.team? t.uid = some t ∧ s.groups = [] ∧ s.cores = [] ∧ s.part? t.part = some (partL launch0) ∧
     (partL launch0).launch? t.lid = some launch0 ∧ launch0.record.nteam ≤ launch0.complete + 1 ∧
     sliceSize * t.core + t.sliceOff ≤ 0x1FFF ∧ 0x1FFF < sliceSize * t.core + t.sliceOff + t.sliceLen ∧ t.spilled = none ∧
     s.late = [] ∧ t.unacquired = [] ∧ launch0.ending = none) ∧
    (let l := { launch0 with record := { launch0.record with save := 0x10000, slot := 0x200, nslot := 1 } }
     let t := { team0 with lid := 1, spilled := some 0, spilledOdd := none }
     let s := { mapped group0 with parts := [partL l], teams := [t], groups := [] }
     s.team? t.uid = some t ∧ s.launchOf t.part t.lid = some l ∧ l.preempted = false ∧ s.rangeFree t = true ∧
     l.ending = none ∧ isBytes (s.readSlot l t.part 0 (0x1000 + t.sliceLen) []) = true) := by
  refine ⟨by decide +kernel, by decide +kernel, by decide +kernel, by decide +kernel⟩

theorem test_witness_group_restore :
    let l := { launch0 with record := { launch0.record with save := 0x10000, slot := 0x200, nslot := 1 } }
    let g := { group0 with lid := 1, spilled := some 0, halt := .preempt }
    let s := { mapped group0 with parts := [partL l], groups := [g] }
    s.group? g.uid = some g ∧ s.launchOf g.part g.lid = some l ∧ l.preempted = false ∧ l.ending = none ∧
    s.team? g.team = some team0 ∧ s.rowsFree g = true ∧ isBytes (s.readArea l g 0) = true := by
  refine ⟨rfl, rfl, rfl, rfl, rfl, by decide +kernel, by decide +kernel⟩

theorem test_witness_GateEvents :
    (let c := conv5
     let s := atGate [⟨1, 3, .csend 0 0 7 false, 0⟩] { group0 with uid := 2 } c
     s.conv? 5 = some c ∧ 0 < c.roles.length ∧ s.pkg.waits = ⟨1, 3, .csend 0 0 7 false, 0⟩ :: [] ∧ s.group? 1 = some (bound5 0) ∧
     (bound5 0).gateRole.getD 0 0 ≠ 0 ∧ (c.role 0).world = group0.part * 128 + group0.ctx ∧ s.choiceKind c 0 = false ∧
     s.permitted c 0 0 = some 0x8202 ∧ (0x8202 : BitVec 16).toNat.testBit 9 = true ∧ (c.role 1).used = true ∧
     (c.role 1).queue.length < 16) ∧
    (let p0 : Sys2Proof.Machine.Part := ⟨0, 1, 3, .sopen, 32, [(0, 1, 0)], 4, some [], [], 1, false, false, 0⟩
     let p1 : Sys2Proof.Machine.Part := ⟨1, 2, 3, .sopen, 32, [(0, 2, 0)], 4, some [], [], 1, false, false, 0⟩
     let x : Exchange := ⟨0, 1, some 0, 1, 0, [0, 1], [p0, p1], 0⟩
     let c := { conv5 with exchanges := [x] }
     let s := mkConv group0 c
     s.conv? 5 = some c ∧ c.exchanges.find? (fun x => x.num == 0) = some x ∧ x.part? 0 = some p0 ∧
     c.partReady x p0 = true ∧ s.group? p0.uid = some group0 ∧ (∃ p ∈ x.parts.filter fun p => p.party != 0, p.finished = false) ∧
     (let y := { x with parts := [p0, { p1 with finished := true }] }
      { c with exchanges := [y] }.partReady y p0 = true ∧ ∀ p ∈ y.parts.filter fun p => p.party != 0, p.finished = true)) := by
  refine ⟨by decide +kernel, by decide +kernel⟩

/-- An exchange that `xopen` began: party 0 receives the other's share and party 1 does not. -/
theorem test_witness_opened_tiles :
    let part := fun (p u : Nat) (b : Byte) => (⟨p, u, 3, .xopen 0x40 0x80 64 true true, 32, [], 0, some [], List.replicate 64 b,
      16, false, false, 0⟩ : Sys2Proof.Machine.Part)
    let x : Exchange := ⟨0, 14, none, 64, 32, [0, 1], [part 0 1 3, part 1 2 5], 0⟩
    let c := { conv5 with exchanges := [x] }
    let s := mkConv group0 c
    s.conv? 5 = some c ∧ c.exchanges.find? (fun x => x.num == 0) = some x ∧ x.part? 0 = some (part 0 1 3) ∧
    x.part? 1 = some (part 1 2 5) ∧ c.partReady x (part 0 1 3) = true ∧ c.partReady x (part 1 2 5) = true ∧
    s.group? (part 0 1 3).uid = some group0 ∧ (64 : W64).toNat % 64 = 0 ∧
    (∀ p < 2, ((x.part? p).all fun q => q.bytes.length == 64) = true) ∧ (x.recips.getD 1 0).testBit 0 = true ∧
    (x.recips.getD 0 0).testBit 1 = false ∧
    s.range group0.part group0.ctx group0.team true .write 0x40 64 = .ok [(.slice 0x40, 64)] ∧
    (match s.range group0.part group0.ctx group0.team true .write 0x2000 64 with | .fail _ _ _ => true | _ => false) = true := by
  decide +kernel

/-- A request of group 1 that reads 4 bytes for thread 0 at a rank of device `dev`, sent again `n` times. -/
def req0 (dev n : Nat) : FabReq :=
  ⟨7, 1, 0, 0, 0, group0.gen, 3, 0, ⟨Config.ownDevice, 0, 1, 5, dev, 0, 0, .get 4 false, [⟨0, 0x100, []⟩], some 1⟩, n, 0, none, 9⟩

/-- A state with that request in flight, and what is kept of its instruction. -/
def flying (dev n : Nat) : State :=
  let p : Pend := ⟨3, .remote (.get 4 false) [(0, 0, 0x100, 0)] 4 1 false, (0, 0), .waiting, 9, 0, []⟩
  { mk { group0 with pends := [p] } with
    fabric := { Fabric.reset with reqs := [req0 dev n], sent := [⟨1, 9, 3, [], [(0, (req0 dev n).pkt)], []⟩] } }

theorem test_witness_FabricEvents :
    (let f : Filter := ⟨Config.ownDevice + 1, 0, 1, some 0, []⟩
     let s := { mk group0 with fabric := { Fabric.reset with filters := [f] } }
     s.filter? (Config.ownDevice + 1) 0 = some f ∧ Config.ownDevice + 1 ≠ Config.ownDevice ∧
     f.epoch = 1 ∧ 2 ^ 31 ≤ ((0x80000000 : BitVec 32) - 0).toNat ∧ ((0xFFFFF000 : BitVec 32) - 0).toNat ≤ 2 ^ 32 - 4096) ∧
    (let s := flying Config.ownDevice 0
     let u := { s with fabric := { s.fabric with outbox := [7] } }
     u.fabric.reqs.find? (fun r => r.pkt.srcWorld == 0 && r.pkt.tgtDev == Config.ownDevice && r.pkt.seq == 5 &&
       u.fabric.outbox.contains r.id) = some (req0 Config.ownDevice 0)) ∧
    (let d := Config.ownDevice + 1
     let s := flying d 0
     s.fabric.reqs.find? (fun q => q.id == 7) = some (req0 d 0) ∧ (req0 d 0).pkt.tgtDev ≠ Config.ownDevice ∧
     (req0 d 0).copy = none ∧ ([⟨0, none, [1, 2, 3, 4]⟩] : List PktAnswer).map (·.t) = (req0 d 0).pkt.threads.map (·.t) ∧
     (∃ x, s.fabric.sent.find? (fun y => y.uid == 1 && y.since == 9 && y.idx == 3 % 32) = some x) ∧
     (∀ q ∈ s.fabric.reqs, q.id ≠ 7 → ¬(q.uid = 1 ∧ q.since = 9 ∧ q.idx % 32 = 3 % 32)) ∧ (req0 d 0).port < 32 ∧
     ∃ g p, s.group? 1 = some g ∧ g.pendAt 9 3 = some p ∧ p.op = .remote (.get 4 false) [(0, 0, 0x100, 0)] 4 1 false) ∧
    (∀ n ∈ [6, 7], (flying 1 n).fabric.reqs.find? (fun q => q.id == 7) = some (req0 1 n)) ∧ (6 < 7 ∧ 7 ≤ 7) ∧
    (∃ p, (mk group0).pkg.ports[31]? = some p ∧ p.up = false ∧ 1 ≤ 4) ∧
    (let s := { mk group0 with pkg := { (mk group0).pkg with ports := List.replicate 32 ⟨true, 4, 0, 65535, 0, 0, 0⟩ } }
     s.pkg.ports[31]? = some ⟨true, 4, 0, 65535, 0, 0, 0⟩ ∧ (0 < 3 ∧ 3 < 4)) ∧
    ((mk group0).outPort 0 = 32 ∧
      (let q := { part0 with ports := 0x80000000 }
       let k := (mk group0).pkg
       { mk group0 with parts := [q], pkg := { k with ports := k.ports.set 31 ⟨true, 4, 0, 0, 0, 0, 0⟩ } }.outPort 0 = 31)) := by
  refine ⟨⟨?_, by simp, rfl, by decide, by decide⟩, ?_, ⟨rfl, by simp [req0], rfl, rfl, ⟨_, rfl⟩, ?_, by decide, _, _, rfl, rfl, rfl⟩,
    ?_, by decide, ⟨_, rfl, rfl, by decide⟩, by decide, by decide +kernel⟩
  · simp [State.filter?]
  · simp [flying, req0]
  · intro q hq h
    simp only [flying, List.mem_singleton] at hq
    exact absurd (congrArg FabReq.id hq) h
  · intro n _
    simp [flying, req0]

/-! ### Calls, commands and events of the package -/

/-- A partition with a second context. -/
def part2 : Partition := { part0 with contexts := [⟨0, some 0x1000⟩, ⟨127, none⟩] }

/-- A control core of a partition may call while no call of it is held and the package is awake. -/
theorem can_call (s : State) (p : Partition) (h : s.part? 0 = some p) (hc : p.ccs.getLsbD 0 = true) (hh : s.pkg.heldCalls = [])
    (ha : s.pkg.sleepSt = .awake) : CanCall s p 0 0 :=
  ⟨h, hc, fun _ hx => absurd (hh ▸ hx) List.not_mem_nil, ha⟩

theorem test_witness_context_calls :
    let g := { group0 with lid := 1, halt := .trap, armed := true }
    let s := { launched launch0 [g] with parts := [{ partL launch0 with contexts := part2.contexts }] }
    CanCall s { partL launch0 with contexts := part2.contexts } 0 0 ∧
    (∃ c ∈ part2.contexts, c.id = (127 : W64).toNat) ∧ (¬∃ c ∈ part2.contexts, c.id = (126 : W64).toNat) ∧
    (∀ l ∈ (partL launch0).launches, l.ctx ≠ 127) ∧ (∃ l ∈ (partL { launch0 with ctx := 127 }).launches, l.ctx = 127) ∧
    ((0x1000 : W64).toNat % 4096 = 0 ∧ (0x1000 : W64).toNat < part2.bound ∧ (0x1001 : W64).toNat % 4096 ≠ 0 ∧
      part2.bound ≤ (0x200000000 : W64).toNat) ∧
    Trapped s 0 1 0 0 g ∧ (partL launch0).launch? g.lid = some launch0 ∧ g.spilled = none ∧ launch0.preempted = false ∧
    (0 : W64).toNat < 2 ^ 29 := by
  exact ⟨can_call _ _ (by decide +kernel) rfl rfl rfl, by decide, by decide, by decide, by decide, by decide, rfl, rfl,
    rfl, rfl, by decide⟩

/-- The image of a choreography of one role and one state in which nothing is permitted. -/
def emptyImage : List Byte := List.replicate 8320 0

/-- An image whose bytes all read as 0 passes the checks. -/
theorem zero_image_passes (bs : List Byte) (h : ∀ i, imgByte bs i = 0) (h8 : leNat (bs.take 8) = 0)
    (h2 : leNat ((bs.drop 8).take 2) = 0) (hz : ((bs.drop 10).take 54).all (· == 0) = true) :
    (Choreo.parse 0 0 bs).refusal (choreoClean bs) = none := by
  have e : ∀ st r k, (Choreo.parse 0 0 bs).entry st r k = 0 := by
    intro st r k
    simp only [Choreo.entry, Choreo.parse, h, List.getD, List.getElem?_map]
    cases hh : (List.range 4096)[(4 * st + r) * 16 + k]? <;> simp
  have a : ∀ p, (Choreo.parse 0 0 bs).all p = true := by
    intro p
    simp [Choreo.all, e, entryValid]
  have c : choreoClean bs = true := by
    simp only [choreoClean, h, h8, hz]
    decide +kernel
  simp only [Choreo.refusal, c, a]
  simp only [Choreo.parse, h, h8, h2]
  decide +kernel

theorem test_witness_image_passes : (Choreo.parse 0 0 emptyImage).refusal (choreoClean emptyImage) = none := by
  refine zero_image_passes _ ?_ (by decide +kernel) (by decide +kernel) (by decide +kernel)
  intro i
  by_cases h : i < 8320
  · simp only [imgByte, emptyImage, List.getD, List.getElem?_replicate, h]
    decide
  · simp only [imgByte, emptyImage, List.getD, List.getElem?_replicate, h]
    decide

/-- Memory that nothing has written reads as zeros. -/
theorem empty_memory_reads (a n : Nat) : Memory.readN [] a n = List.replicate n 0 := by
  induction n generalizing a with
  | zero => rfl
  | succ n ih => simp [Memory.readN, Memory.read, ih, List.replicate_succ, unlistedByte]

/-- A partition's bytes that nothing has written are read without an error. -/
theorem empty_memory_has_no_error (s : State) (p : Partition) (a : W64) (n : Nat) (h : s.hbm = []) (hl : s.lines = []) :
    s.readPart p a n = .inl (List.replicate n 0) := by
  have hb : s.badLine (.hbm (p.base + a.toNat) 0 noWorld) n = none := by
    simp only [State.badLine, List.find?_eq_none]
    intro l _
    have hr : s.lineReads l 0 = true := by
      have hw : wrongSymbols 0#576 ≤ 1 := by decide +kernel
      simp [State.lineReads, State.lineOpens, State.line, hl, Line.plain, State.slotTag, hw]
    rw [hr]
    decide
  simp only [State.readPart, hb, State.readAt, h, empty_memory_reads]

/-- A description of a conversation of two parties under choreography 3, the second of partition 1. -/
def desc0 : List Byte :=
  leBytes 8 3 ++ leBytes 8 0x8000000000000000 ++ leBytes 8 0x8000000000000080 ++ List.replicate 16 0 ++
    leBytes 8 0x0000000400000004 ++ leBytes 8 0x0001000000010000 ++ List.replicate 200 0

theorem test_witness_image_is_read :
    (mk group0).readPart part0 0 8320 = .inl (List.replicate 8320 0) := empty_memory_has_no_error _ _ _ _ rfl rfl

theorem test_witness_conversation_calls :
    let s := { mk group0 with pkg := { (mk group0).pkg with choreos := [choreo3] } }
    CanCall s part0 0 0 ∧
    (∃ k ∈ s.pkg.choreos, k.num = 3) ∧ s.pkg.choreos.find? (fun k => k.num == 3) = some choreo3 ∧ s.choreoUsed 3 = false ∧
    (mkConv group0 conv5).choreoUsed 3 = true ∧ choreo3.part = 0 ∧
    LowestFree 0 256 (fun n => ∀ k ∈ s.pkg.choreos, k.num ≠ n) ∧
    LowestFree 0 4096 (fun n => s.convTaken n = false) ∧ s.pkg.pendConvs = [] ∧ s.storeUsed = (0, 0) ∧
    ((List.range 2).map fun r => (descCap desc0 r).1).sum = 65540 ∧ choreo3.roles = 2 ∧
    ((mkConv group0 conv5).conv? 5 = some conv5 ∧ (∃ w ∈ conv5.worlds, w / 128 = 0) ∧ conv5.destroyed = false) := by
  refine ⟨can_call _ _ (by decide +kernel) rfl rfl rfl, by decide +kernel, rfl, ?_, ?_, ?_, ?free, ?slot, ?_, ?_, ?_, ?_, ?_⟩
  case free | slot => exact ⟨by decide, by decide, fun y h => absurd h (by omega)⟩
  all_goals decide +kernel

theorem test_witness_description_passes :
    descOk desc0 choreo3 = true ∧ claimOk desc0 choreo3 0 1 = true ∧
    ((List.range 4).filter fun r => (1 : W64).toNat.testBit r).length < choreo3.roles := by
  refine ⟨?_, by decide +kernel, by decide⟩
  have h : descPermits desc0 = [] := by decide +kernel
  simp only [descOk, h]
  decide +kernel

/-- A state in which that description stands at address 0 of partition 0's space, the choreography is loaded, and a set of a
given size has claimed role 0. -/
def described (xs : List PendConv) : State :=
  { mk group0 with
    hbm := Memory.writeN [] part0.base desc0
    pkg := { (mk group0).pkg with choreos := [choreo3], pendConvs := xs } }

/-- A description read at an address of a partition, with no set of it, with one that another role has joined, with one that
the same role has joined, and with the packet stores full. -/
theorem test_witness_creation_calls :
    CanCall (described []) part0 0 0 ∧ (0 : W64).toNat % 64 = 0 ∧ (0 : W64).toNat + 256 ≤ part0.bound ∧
    (described []).readPart part0 0 256 = .inl desc0 ∧ (described []).choreo? (leNat (desc0.take 1)) = some choreo3 ∧
    (mk group0).choreo? (leNat (desc0.take 1)) = none ∧
    (let x : PendConv := ⟨7, desc0, [(1, 9)], 65540, 65540⟩
     (described [x]).pkg.pendConvs.find? (fun x => x.desc == desc0) = some x ∧
     (∀ y ∈ x.claimed, y.1 ≠ 0) ∧ choreo3.roles ≤ (x.claimed ++ [(0, 5)]).length ∧ (∃ y ∈ x.claimed, y.1 = 1)) ∧
    (∀ x ∈ (described []).pkg.pendConvs, x.desc ≠ desc0) ∧
    LowestFree 0 4096 (fun n => (described []).convTaken n = false) ∧
    2 ^ 20 < (described [⟨7, [], [], 2 ^ 20, 0⟩]).storeUsed.1 + 65540 := by
  refine ⟨can_call _ _ (by decide +kernel) rfl rfl rfl, ?_, ?_, ?_, ?_, ?_, ?_, ?_, ?slot, ?_⟩
  case slot => exact ⟨by decide, by decide +kernel, fun y h => absurd h (by omega)⟩
  all_goals decide +kernel

/-- Tensor slot 9 of partition 0. -/
def tensor9 (v : BitVec 32) : Tensor := ⟨9, 0, 1, v, 0, 0⟩

theorem test_witness_key_and_tensor_calls :
    let s := { mk group0 with pkg := { (mk group0).pkg with tensors := [tensor9 0] } }
    CanCall s part0 0 0 ∧ ((0 : W64).toNat + 36 ≤ part0.bound ∧ (0x3FFFF000 : W64).toNat + 1 ≤ part0.bound ∧
      part0.bound < (0x3FFFFFDD : W64).toNat + 36) ∧ s.readPart part0 0 36 = .inl (List.replicate 36 0) ∧
    s.pkg.channels[1]? = some Channel.reset ∧ s.readPart part0 0 48 = .inl (List.replicate 48 0) ∧
    LowestFree 1 16384 (fun n => n ≠ 0 ∧ ∀ t ∈ s.pkg.tensors, t.slot ≠ n) ∧
    (∀ t ∈ s.pkg.tensors, ¬(t.slot = 8 ∧ t.part = 0)) ∧
    s.pkg.tensors.find? (fun t => t.slot == 9 && t.part == 0) = some (tensor9 0) ∧ (0 : BitVec 32) ≠ 0xFFFFFFFF ∧
    s.pkg.tensorCount < 0xFFFFFFFF ∧ (0x1000 : W64).toNat % 4096 = 0 ∧ 4 ≤ (12 : W64).toNat ∧ (12 : W64).toNat ≤ 12 ∧
    s.leafNames { part0 with contexts := [⟨0, none⟩] } 9 = none ∧ (table 0x2400000000004F).leafNames part0 9 = some .leaf ∧
    ((table 0x2400000000004F).setLine ⟨part0.base + 0x1000, true, false, false, 0, 0, 0, 0, 0, 0, 0⟩).leafNames part0 9 =
      some (.poison (part0.base + 0x1000)) := by
  refine ⟨can_call _ _ (by decide +kernel) rfl rfl rfl, by decide, empty_memory_has_no_error _ _ _ _ rfl rfl, by decide,
    empty_memory_has_no_error _ _ _ _ rfl rfl, ?_, by decide,
    by decide, by decide, by decide, by decide, by decide, by decide, by decide, by decide +kernel, by decide +kernel⟩
  refine ⟨by decide, by decide, fun y h hy => hy.1 (by omega)⟩

theorem test_witness_ServiceCalls :
    CanCall (mk group0) part0 0 0 ∧ part0.tlbBusy = false ∧
    (mkPart group0 { part0 with tlbBusy := true }).part? 0 = some { part0 with tlbBusy := true } := by
  exact ⟨can_call _ _ (by decide +kernel) rfl rfl rfl, rfl, rfl⟩

/-- A package at stage 2 with 8 granules of partition 0, one clean granule after them, and cluster 1 free. -/
def commanded : State :=
  let k := (mk group0).pkg
  { mk group0 with pkg := { k with
      clavail := 3, grans := .queued :: List.replicate 8 (.held 0) ++ .clean :: .scrubbing :: List.replicate 501 (.held 31)
      scrubQueue := [10], waitCreate := [] } }

/-- Partition 0 on granules 1 to 8. -/
def part8 : Partition := { part0 with baseGran := 1, nGran := 8 }

theorem test_witness_partition_commands :
    let s := { commanded with parts := [part8], teams := [], groups := [] }
    Commanded s ∧ LowestFree 1 24 (fun n => s.part? n = none) ∧ (∃ p ∈ s.parts, p.clus &&& 1 ≠ 0) ∧
    (∀ p ∈ s.parts, p.clus &&& 2 = 0 ∧ p.ccs &&& 2 = 0) ∧ s.portsHeld 0 32 = false ∧ (2 &&& ~~~s.pkg.clavail : BitVec 32) = 0 ∧
    LowestFree 9 513 (fun i => i + 1 ≤ 512 ∧ ∀ j, i ≤ j → j < i + 1 → s.pkg.grans[j]? = some .clean) ∧
    s.part? 0 = some part8 ∧ part8.waiting = [] ∧ (part8.clus &&& ~~~(1 : BitVec 32) = 0 ∧ part8.clus &&& ~~~(2 : BitVec 32) ≠ 0) ∧
    (∀ j, part8.baseGran + part8.nGran ≤ j → j < part8.baseGran + part8.nGran + 1 → s.pkg.grans[j]? = some .clean) ∧
    (part8.nGran ≤ 8 ∧ 7 < part8.nGran ∧ part8.tlbBusy = false) ∧
    (∀ k, k < 32 → (0x80000000 : BitVec 32).getLsbD k = true → ∃ x, s.pkg.ports[k]? = some x ∧ (x.owner = 31 ∨ x.owner = 0)) ∧
    s.fabric.reqs = [] := by
  refine ⟨⟨?_, ?_⟩, ⟨?_, ?_, fun y h => ?below⟩, ?_, ?_, ?_, ?_, ⟨?_, ⟨?_, ?clean⟩, fun y h => ?first⟩, ?_, ?_, ?_, ?next, ?_, ?port, ?_⟩
  case below =>
    obtain rfl : y = 0 := by omega
    decide
  case clean =>
    intro j h1 h2
    obtain rfl : j = 9 := by omega
    decide
  case first =>
    rintro ⟨-, h2⟩
    have := h2 y (Nat.le_refl y) (by omega)
    revert this
    have : ∀ y, y < 9 → (commanded.pkg.grans[y]?) ≠ some .clean := by decide +kernel
    exact this y h
  case next =>
    intro j h1 h2
    obtain rfl : j = 9 := by
      simp only [part8] at h1 h2
      omega
    decide
  case port =>
    intro k hk h
    have : ∀ k, k < 32 → (0x80000000 : BitVec 32).getLsbD k = true → k = 31 := by decide +kernel
    obtain rfl := this k hk h
    exact ⟨Port.reset, by decide +kernel, by decide +kernel⟩
  all_goals decide +kernel

theorem test_witness_removals :
    (let s := { commanded with parts := [part8] }
     (∃ t ∈ s.teams, t.part = 0 ∧ ∃ c ∈ t.cores, c < 256 ∧ ((1 &&& part8.clus : BitVec 32).getLsbD (c / 8)) = true) ∧
     (∀ t ∈ s.teams, t.part = 0 → ∀ c ∈ t.cores, c < 256 → ((2 &&& part8.clus : BitVec 32).getLsbD (c / 8)) = false)) ∧
    (let p := { part8 with waiting := [(.shrink 8, true)] }
     let s := { commanded with parts := [p] }
     s.part? 0 = some p ∧ s.judge p (.shrink 8) = .refused) ∧
    (let p := { part8 with waiting := [(.coreRemove 1 true, true)], clus := 3 }
     let s := { commanded with parts := [p], teams := [], groups := [] }
     s.part? 0 = some p ∧ ∃ u, s.judge p (.coreRemove 1 true) = .go u) := by
  refine ⟨by decide +kernel, ⟨by decide +kernel, rfl⟩, by decide +kernel, ⟨_, rfl⟩⟩

/-- A destruction waits for a list that is not written yet. -/
theorem test_witness_destruction_waits_for_a_list :
    let p := { part8 with contexts := [] }
    let s := { commanded with parts := [p], teams := [], groups := [], openLists := [⟨0, true, [], [(7, ⟨4, 0, []⟩)]⟩] }
    s.part? 0 = some p ∧ p.waiting = [] ∧ p.contexts = [] ∧ (∃ o ∈ s.openLists, o.world / 128 = 0) ∧
    (match exec (.partDestroy 0) s with
      | .next u => (u.part? 0).map (·.waiting) == some [(.destroy, true)] && u.pkg.reply == .waits
      | _ => false) = true := by
  decide +kernel

/-- The image of a sleeping package, and a start in which its last stack trains: with the key the groups are back. -/
theorem test_witness_wake :
    let k := { (mk group0).pkg with
      stage := 0, sleepSt := .waking, trained := .waiting :: List.replicate 7 .failed, clusters := List.replicate 32 .passed }
    let x := (mk group0).sleepImage 7
    let wakes := fun key : BitVec 256 =>
      match exec (.hbmStackTrained 0 true) { State.reset with pkg := { k with sleepImage := some x, sleepKey := key } } with
      | .next u => (u.pkg.stage, u.pkg.sleepSt == .awake, u.groups.map (·.uid), u.parts.length)
      | _ => (9, false, [], 0)
    x.key = 7 ∧ k.sleepHeld = [] ∧ k.heldCalls = [] ∧ k.trained[0]? = some .waiting ∧ (∀ y ∈ k.clusters, y ≠ .waiting) ∧
    wakes 7 = (2, true, [1], 1) ∧ x.key ≠ 8 := by
  decide +kernel

theorem test_witness_ManagementCommands :
    Commanded commanded ∧ (commanded.pkg.cold = false ∧ commanded.pkg.sleepSt = .awake ∧ commanded.pkg.waitCreate = [] ∧
      commanded.coopResident = []) ∧
    (commanded.pkg.grans[1]? = some (.held 0) ∧ commanded.pkg.grans[10]? = some .scrubbing ∧ commanded.pkg.grans[9]? = some .clean ∧
      commanded.pkg.grans[0]? = some .queued) ∧
    (commanded.pkg.scrubQueue = 10 :: [] ∧ 10 < commanded.pkg.grans.length ∧ 8 ≤ commanded.pkg.grans.countP (· == .held 31)) ∧
    FirmwareReady commanded ∧ (0x3FFFFFF + ([0] : List Byte).length ≤ 0x4000000 ∧ 0x4000000 < 0x4000000 + ([0] : List Byte).length) ∧
    commanded.pkg.imageFails commanded.pkg.flashB = some 5 ∧ commanded.pkg.bChecked = false ∧
    ((0 : BitVec 32).toNat ≤ Flash.svn commanded.pkg.flashA ∧ commanded.pkg.fuseSvn.toNat ≤ (0 : BitVec 32).toNat ∧
      Flash.svn commanded.pkg.flashB < (1 : BitVec 32).toNat) ∧
    (Flash.kidx commanded.pkg.flashA = 0 ∧ Flash.kidx commanded.pkg.flashB ≠ 3 ∧ Flash.wellFormed commanded.pkg.flashA = false ∧ commanded.pkg.revoked.getLsbD 2 = false) := by
  unfold Commanded FirmwareReady
  and_intros <;> decide +kernel

/-- An image whose payload is empty, with a digest, two public keys, and two signatures. -/
def image (d : BitVec 384) (ed ml es ms : List Byte) : Flash :=
  [0x53, 0x59, 0x47, 0x46] ++ leBytes 4 1 ++ leBytes 4 7 ++ leBytes 4 3 ++ leBytes 8 0 ++ digestBytes d ++ ed ++ ml ++ es ++ ms ++
    List.replicate 203 0

/-- A field of an image. -/
theorem image_field (pre mid post : List Byte) (off n : Nat) (h : pre.length = off) (hm : mid.length = n) :
    Flash.bytes (pre ++ mid ++ post) off n = mid := by
  subst h hm
  simp [Flash.bytes]

/-- Such an image passes its checks, if the fused hashes are those of its keys and its signatures verify: the hash and the
signature functions are open, so that no image is accepted outright. -/
theorem test_witness_image_is_accepted (ed ml es ms : List Byte) (k : Package) (h1 : ed.length = 32) (h2 : ml.length = 1952)
    (h3 : es.length = 64) (h4 : ms.length = 3309) (hk : k.revoked = 0) (hs : k.fuseSvn = 7) :
    let f := image (Config.sha384 []) ed ml es ms
    Config.sha384 ed = Config.fusedHash false 3 → Config.sha384 ml = Config.fusedHash true 3 →
    Config.ed25519Verify ed (Flash.header f) es = true → Config.mldsaVerify ml (Flash.header f) ms = true →
    k.imageFails f = none := by
  intro f a1 a2 a3 a4
  have hd : (digestBytes (Config.sha384 [])).length = 48 := by simp [digestBytes, leBytes]
  have e1 : Flash.bytes f 0 4 = [0x53, 0x59, 0x47, 0x46] := by
    simpa [f, image, List.append_assoc] using image_field [] [0x53, 0x59, 0x47, 0x46] _ 0 4 rfl rfl
  have field : ∀ pre mid post off n, f = pre ++ mid ++ post → pre.length = off → mid.length = n →
      Flash.bytes f off n = mid := by
    intro pre mid post off n h hp hm
    rw [h]
    exact image_field pre mid post off n hp hm
  let D := digestBytes (Config.sha384 [])
  let H : List Byte := [0x53, 0x59, 0x47, 0x46]
  let P : List Byte := H ++ leBytes 4 1 ++ leBytes 4 7 ++ leBytes 4 3
  have e2 := field H (leBytes 4 1) (leBytes 4 7 ++ leBytes 4 3 ++ leBytes 8 0 ++ D ++ ed ++ ml ++ es ++ ms ++ List.replicate 203 0) 4 4 (by simp only [f, image, H, D, List.append_assoc]) rfl rfl
  have e3 := field (H ++ leBytes 4 1) (leBytes 4 7) (leBytes 4 3 ++ leBytes 8 0 ++ D ++ ed ++ ml ++ es ++ ms ++ List.replicate 203 0) 8 4 (by simp only [f, image, H, D, List.append_assoc]) rfl rfl
  have e4 := field (H ++ leBytes 4 1 ++ leBytes 4 7) (leBytes 4 3) (leBytes 8 0 ++ D ++ ed ++ ml ++ es ++ ms ++ List.replicate 203 0) 12 4 (by simp only [f, image, H, D, List.append_assoc]) rfl rfl
  have e5 := field P (leBytes 8 0) (D ++ ed ++ ml ++ es ++ ms ++ List.replicate 203 0) 16 8 (by simp only [f, image, P, H, D, List.append_assoc]) rfl rfl
  have e6 := field (P ++ leBytes 8 0) D (ed ++ ml ++ es ++ ms ++ List.replicate 203 0) 0x18 48 (by simp only [f, image, P, H, D, List.append_assoc]) rfl hd
  have l1 : (P ++ leBytes 8 0).length = 24 := rfl
  have e7 := field (P ++ leBytes 8 0 ++ D) ed (ml ++ es ++ ms ++ List.replicate 203 0) 0x48 32 (by simp only [f, image, P, H, D, List.append_assoc])
    (by rw [List.length_append, l1, hd]) h1
  have e8 := field (P ++ leBytes 8 0 ++ D ++ ed) ml (es ++ ms ++ List.replicate 203 0) 0x68 1952 (by simp only [f, image, P, H, D, List.append_assoc])
    (by rw [List.length_append, List.length_append, l1, hd, h1]) h2
  have e9 := field (P ++ leBytes 8 0 ++ D ++ ed ++ ml) es (ms ++ List.replicate 203 0) 0x808 64 (by simp only [f, image, P, H, D, List.append_assoc])
    (by rw [List.length_append, List.length_append, List.length_append, l1, hd, h1, h2]) h3
  have e10 := field (P ++ leBytes 8 0 ++ D ++ ed ++ ml ++ es) ms (List.replicate 203 0) 0x848 3309
    (by simp only [f, image, P, H, D, List.append_assoc])
    (by rw [List.length_append, List.length_append, List.length_append, List.length_append, l1, hd, h1, h2, h3]) h4
  have e11 := field (P ++ leBytes 8 0 ++ D ++ ed ++ ml ++ es ++ ms) (List.replicate 203 0) [] 0x1535 203
    (by simp only [f, image, P, H, D, List.append_assoc, List.append_nil])
    (by rw [List.length_append, List.length_append, List.length_append, List.length_append, List.length_append, l1, hd, h1, h2,
      h3, h4]) (List.length_replicate)
  have len : f.length = 0x1600 := by
    have : f = P ++ leBytes 8 0 ++ D ++ ed ++ ml ++ es ++ ms ++ List.replicate 203 0 := by
      simp only [f, image, P, H, D, List.append_assoc]
    rw [this]
    simp only [List.length_append, l1, hd, h1, h2, h3, h4, List.length_replicate, D]
  have e12 : Flash.bytes f 0x1600 0 = [] := by simp [Flash.bytes]
  have n2 : Flash.num f 4 4 = 1 := by rw [Flash.num, e2]; decide
  have n3 : Flash.num f 8 4 = 7 := by rw [Flash.num, e3]; decide
  have n4 : Flash.num f 12 4 = 3 := by rw [Flash.num, e4]; decide
  have n5 : Flash.num f 0x10 8 = 0 := by rw [Flash.num, e5]; decide
  have wf : Flash.wellFormed f = true := by
    have z : (List.replicate 203 (0 : Byte)).all (· == 0) = true := by decide +kernel
    simp only [Flash.wellFormed, e1, n2, n4, n5, len, e11, z]
    decide
  have kx : Flash.kidx f = 3 := by simp [Flash.kidx, n4]
  have sv : Flash.svn f = 7 := n3
  simp only [Package.imageFails, wf, n5, e6, e7, e8, e9, e10, e12, kx, sv, hk, hs, a1, a2, a3, a4, D]
  simp

theorem test_witness_StartEvents :
    (State.reset.pkg.powered = false ∧ State.reset.pkg.sleepSt ≠ .asleep) ∧ (mk group0).pkg.powered = true ∧
    (let s := { mk group0 with pkg := { (mk group0).pkg with powered := false, retained := true, sleepSt := .asleep } }
     s.pkg.powered = false ∧ s.pkg.sleepSt = .asleep ∧ s.pkg.retained = true ∧ s.pkg.cold = false ∧
     Flash.header s.pkg.flashA = s.pkg.bootHeader ∧
     ∃ x ∈ { s.pkg with trained := [.waiting, .passed] }.trained, x = Train.passed) ∧
    (let k := { (mk group0).pkg with stage := 1 }
     k.powered = true ∧ k.stage ≤ 1 ∧ k.sleepSt ≠ .waking ∧ k.trained[7]? = some .waiting ∧ k.clusters[31]? = some .waiting ∧
     (∃ x ∈ k.clusters, x = Train.waiting)) ∧
    (let k := { (mk group0).pkg with
       stage := 0, trained := .waiting :: List.replicate 7 .failed, clusters := List.replicate 32 .passed }
     k.trained[0]? = some .waiting ∧ (∀ x ∈ k.trained.set 0 .passed, x ≠ .waiting) ∧ ∀ x ∈ k.clusters, x ≠ .waiting) ∧
    (let k := { (mk group0).pkg with vfEnabled := List.replicate 25 true }
     functionsOn k 24 ∧ functionsOn k 0 ∧ k.mailboxes[24]? = some ⟨.none, [], [], [], none⟩ ∧ k.channels[24]? = some Channel.reset) ∧
    (1 : W64).getLsbD 0 = true := by
  refine ⟨⟨rfl, by decide⟩, rfl, ⟨rfl, rfl, rfl, rfl, rfl, by decide⟩, by decide, by decide, ⟨⟨rfl, .inr rfl⟩, ⟨rfl, .inl rfl⟩, rfl, rfl⟩,
    rfl⟩

/-- One error of every kind of domain: the worlds, the partition or the line that it takes. -/
theorem test_witness_ErrorEvents :
    (mk group0).openLists = [] ∧ (mk group0).late = [] ∧ (∀ r ∈ (mk group0).parts, r.ringOn = false) ∧
    (mk group0).parts.find? (fun p => p.ccs.getLsbD 0) = some part0 ∧
    ((mk group0).ownerOf (part0.base / 64 * 64) = some part0 ∧ (mk group0).part? part0.num = some part0) ∧
    (let far := { team0 with uid := 1, core := 64 }
     let s := { mk group0 with teams := [team0, far] }
     team0 ∈ s.teams ∧ far ∈ s.teams ∧ far.part = team0.part ∧ far.ctx = team0.ctx ∧ team0.ctx < 128 ∧
      (∃ c ∈ team0.cores, c / 64 = 0) ∧ ∃ c ∈ far.cores, c / 64 = 1) ∧
    (let l : Line := ⟨0x40, false, true, false, 0, 0, 0, 0, 0, 0, 0⟩
     (({ mk group0 with lines := [l] }.line (127 / 64 * 64)).cached = true ∧
      ({ mk group0 with lines := [l] }.line (127 / 64 * 64)).dirty = false) ∧ ((mk group0).line 0).cached = false) := by
  refine ⟨by decide, by decide, by decide, by decide +kernel, ⟨by decide +kernel, by decide +kernel⟩, by decide, by decide⟩

/-- A trip waits while a record is held or the ring has no room, and happens when both are over. -/
theorem test_witness_trips :
    let s := { mk group0 with pkg := { (mk group0).pkg with tripping := true, errHeld := [], errBase := 0x1000, errLog := 8 } }
    let flushed := fun (k : Package) => State.errFlush { s with pkg := k } 258
    s.pkg.tripping = true ∧ (flushed { s.pkg with errTail := 0 }).pkg.errRoom = true ∧
      (flushed { s.pkg with errTail := 0 }).pkg.errHeld = [] ∧
      (flushed { s.pkg with errTail := 0, errHead := 256 }).pkg.errRoom = false ∧
      (mk group0).pkg.tripping = false := by
  decide +kernel

theorem test_witness_ErrorAndRegisterEvents :
    (mk group0).pkg.powered = true ∧
    (let x : ErrSite := ⟨2, 0, 0x1FFF, true, false, some 1, none, 0⟩
     x.entry < sliceSize ∧ 0 ∈ ((mk group0).domainOf x).worlds ∧ (mk group0).part? (0 / 128) = some part0 ∧
     (∃ m ∈ (mk group0).teams, x.unit ∈ m.cores ∧ m.spilled = none ∧ m.sliceOff ≤ x.entry ∧ x.entry < m.sliceOff + m.sliceLen) ∧
     ¬∃ m ∈ (mk group0).teams, 0x2000 < m.sliceOff + m.sliceLen) ∧
    ((mk group0).ownerOf (0x23FFFFFFF / 64 * 64) = some part0 ∧ (mk group0).ownerOf 0x240000000 = none ∧
      (∀ c ∈ part0.contexts, c.id < 128)) ∧
    (let x : ErrSite := ⟨0, 0, 1 * 65536 + 31 * 64 + 15, true, true, none, none, 2⟩
     (mk group0).group? (x.entry / 65536) = some group0 ∧ x.entry / 64 % 1024 < group0.alloc ∧ x.entry % 64 < group0.width.n ∧
     (group0.vreg 31).isU = true) ∧
    (let k := { (mk group0).pkg with celim := List.replicate 16 3, cecnt := List.replicate 16 2 }
     (k.celim.getD 15 0).toNat ≠ 0 ∧ (k.cecnt.getD 15 0).toNat < (k.celim.getD 15 0).toNat ∧
     (k.celim.getD 15 0).toNat ≤ sat32 (k.cecnt.getD 15 0).toNat ∧ k.ceSeen.getD 15 false = false ∧
     ((mk group0).pkg.celim.getD 15 0).toNat = 0) ∧
    ((1000 ≤ (1000 : W64).toNat % 2 ^ 24 ∧ (0x10003E7 : W64).toNat % 2 ^ 24 < 1000) ∧
     (let x : ThermalSample := ⟨2000, 70000, 109, 41, 29⟩
      x.tj < 110 ∧ (mk group0).pkg.hotMs + 1 < 1000 ∧ (mk group0).pkg.stage = 2 ∧ 100 ≤ x.tj ∧ (mk group0).pkg.pwrCap < x.pwrAvg)) ∧
    State.reset.pkg.powered = false ∧ functionsOn (mk group0).pkg 0 ∧ (mk group0).pkg.channels[0]? = some Channel.reset := by
  refine ⟨by decide, by decide +kernel, by decide +kernel, by decide +kernel, by decide +kernel, by decide +kernel, by decide,
    ⟨by decide, .inl rfl⟩, by decide +kernel⟩

/-- A mailbox 0 whose responder is in a state. -/
def mailed (st : SpdmSt) : State :=
  { mk group0 with pkg := { (mk group0).pkg with mailboxes := List.replicate 25 ⟨st, [], [], [], none⟩ } }

theorem test_witness_ChannelEvents :
    (let c := { Channel.reset with log := 15, head := 1 }
     let s := { mk group0 with pkg := { (mk group0).pkg with channels := [c] } }
     functionsOn s.pkg 0 ∧ s.pkg.channels[0]? = some c ∧ 1 ≤ c.log ∧ c.log ≤ 15 ∧ c.head ≠ c.tail ∧ c.keyed = false) ∧
    (let c := { Channel.reset with keyed := true }
     let m := ChanMsg.parse (leBytes 8 1 ++ leBytes 4 4065 ++ List.replicate 4084 0)
     c.keyed = true ∧ c.expired = false ∧ m.seq = c.next.toNat ∧ c.opened m = none ∧
     (ChanMsg.parse (List.replicate 4096 0)).seq < c.next.toNat) ∧
    (∀ st ∈ [SpdmSt.none, .afterVersion, .afterCaps, .negotiated],
      (mailed st).pkg.powered = true ∧ (mailed st).pkg.stage ≠ 3 ∧ (mailed st).pkg.sleepSt = .awake ∧
      (mailed st).pkg.mailboxes[0]? = some ⟨st, [], [], [], none⟩) ∧
    ((leNat (((List.replicate 4 0 ++ leBytes 4 0x400 ++ leBytes 4 2 : List Byte).drop 4).take 4)).testBit 10 = true ∧
     (leNat (((List.replicate 4 0 ++ leBytes 4 0x400 ++ leBytes 4 2 : List Byte).drop 8).take 4)).testBit 1 = true) ∧
    (mailed .negotiated).blocksFor 0 0xFF ≠ [] ∧ (0x85#8) ∉ [0x84#8, 0xE1#8, 0xE3#8, 0x81#8, 0x82#8, 0x83#8, 0xE0#8] ∧
    ((mk group0).hbm.wf = true ∧ 0x3FFFFFFF + ([7] : List Byte).length ≤ part0.bound) ∧
    (let l : Line := ⟨0x40, false, true, true, 0, 0, 0, 0, 0, 0, 0⟩
     ({ mk group0 with lines := [l] }.line (127 / 64 * 64)).dirty = true ∧ ((mk group0).line (127 / 64 * 64)).dirty = false) := by
  refine ⟨⟨⟨rfl, .inl rfl⟩, rfl, by decide, by decide, by decide, rfl⟩, by decide +kernel, by decide +kernel, by decide +kernel, ?_,
    by decide, by decide +kernel, by decide +kernel⟩
  intro h
  have := congrArg List.length h
  revert this
  simp [State.blocksFor, State.blocks]

/-- A certificate chain is open; of one that is not empty, offset 0 is inside. -/
theorem test_witness_certificate_offset (h : Config.certChain 1 ≠ []) :
    leNat (([0, 0, 0xFF, 0xFF] : List Byte).take 2) < (Config.certChain 1).length := List.length_pos_iff.mpr h

theorem test_witness_StepRunsTheDecodedInstruction :
    let g := { group0 with pc := 0x8000 }
    (∀ ws ∈ [[0x38410000, 0x12345678], [0x1800C082], [0x0E000000]], (placed ws).pkg.powered = true ∧ g.stat = .running ∧
      (placed ws).openLists = [] ∧ (placed ws).lines = [] ∧ (placed ws).cores = [] ∧ (placed ws).moves = [] ∧ (placed ws).groups = [] ++ g :: [] ∧ (placed ws).group? g.uid = some g) ∧
    (placed [0x38410000, 0x12345678]).fetchWord g.part g.ctx g.lid g.pc = .word 0x38410000 ∧ hasSecond 0x38410000 = true ∧
    (placed [0x38410000, 0x12345678]).fetchWord g.part g.ctx g.lid (g.pc + 4) = .word 0x12345678 ∧
    decode 0x38410000 0x12345678 = .ok (.sli false 4 0x12345678, true) ∧ decode 0x0E000000 0 = .error .reservedOp ∧
    hasSecond 0x0E000000 = false ∧ (placed []).fetchWord g.part g.ctx g.lid 0x200000 = .fail .translation 0x300 ∧
    (placed [0x1800C082]).translate 0 0 0x8000 .fetch = .ok (part0.base + 0x8000) 0x4F ∧
    (placed [0x1800C082]).badLine (.hbm (part0.base + 0x8000) 0 0) 4 = none ∧ (Instr.yieldedRunCommit 1).isWord = false := by
  refine ⟨?_, by decide +kernel, by decide, by decide +kernel, rfl, rfl, by decide, by decide +kernel, by decide +kernel,
    by decide +kernel, by decide⟩
  intro ws h
  simp only [List.mem_cons, List.not_mem_nil, or_false] at h
  rcases h with rfl | rfl | rfl <;> exact ⟨rfl, rfl, rfl, rfl, rfl, rfl, rfl, rfl⟩

/-- Lists of a termination are open, and a word is kept from an earlier fetch of a launch. -/
theorem test_witness_lists_and_kept_words :
    ({ mk group0 with openLists := [⟨0, true, [], []⟩] }).listsReady = true ∧
    ({ mk group0 with openLists := [⟨0, true, [], [(7, ⟨4, 0, []⟩)]⟩] }).listsReady = false ∧ (mk group0).moves = [] ∧
    (let k : KeptWord := ⟨0, 1, part0.base + 0x8000, 0x0E000000⟩
     let s := { placed [0x1800C082] with kept := [k] }
     k ∈ s.kept ∧ s.translate 0 0 0x8000 .fetch = .ok k.dev 0x4F) := by
  refine ⟨by decide, by decide, rfl, by decide, by decide +kernel⟩

theorem test_witness_DecodeAfterEncode :
    (Instr.cunpack true 127 126 125 true 3 3 7 31).isWord = true ∧ (Instr.cunpack true 127 126 125 true 3 3 7 31).form = true ∧
    (Instr.loop true 127 0x8000).isWord = true ∧ (Instr.loop true 127 0x8000).form = true := by decide

theorem test_witness_EncodeAfterDecode : decode 0xB381FFC9 0xFFFFFFFF = .ok (.loop true 1 (-55), false) := rfl

theorem test_witness_MemoryStaysCanonical :
    State.reset.memOk = true ∧ (mapped group0).memOk = true ∧ ∃ t, step (placed [0x1800C082]) = .next t := by
  have h : (match step (placed [0x1800C082]) with | .next _ => true | _ => false) = true := by decide +kernel
  refine ⟨by decide, by decide +kernel, ?_⟩
  cases hs : step (placed [0x1800C082]) with
  | next t => exact ⟨t, rfl⟩
  | fault f => rw [hs] at h; simp at h
  | refused r => rw [hs] at h; simp at h

/-- One instruction of each of the three kinds of register instruction: integer, local share and floating point. -/
theorem test_witness_RegisterInstructionsFrame :
    (Issues (.vaddi true false 5 0 1) (mk group0) group0 ∧ encode (.vaddi true false 5 0 1) = some (0xA0050001, none) ∧
      (0xA0050001 : W32).toNat / 2 ^ 27 % 8 ∈ [0, 3, 4] ∧ ∃ t, exec (.vaddi true false 5 0 1) (mk group0) = .next t) ∧
    (Issues (.vsaddS32 false 0 1 2) (mk group0) group0 ∧ encode (.vsaddS32 false 0 1 2) = some (0x10400082, none) ∧
      (0x10400082 : W32).toNat / 2 ^ 27 % 8 = 2 ∧ (0x10400082 : W32).toNat / 2 ^ 21 % 64 = 2 ∧
      ∃ t, exec (.vsaddS32 false 0 1 2) (mk group0) = .next t) ∧
    (Issues (.vfaddX false false 0 1 2) (mk group0) group0 ∧ encode (.vfaddX false false 0 1 2) = some (0x0A800082, none) ∧
      (0x0A800082 : W32).toNat / 2 ^ 27 % 8 = 1 ∧ (∀ k, k < 5 → fpmAction group0.fpm k ≠ 2) ∧
      ∃ t, exec (.vfaddX false false 0 1 2) (mk group0) = .next t) := by
  exact ⟨⟨by decide, by decide, by decide, ⟨_, rfl⟩⟩, ⟨by decide, by decide, by decide, by decide, ⟨_, rfl⟩⟩,
    ⟨by decide, by decide, by decide, by decide, ⟨_, rfl⟩⟩⟩

end Sys2Proof.Tests
end

section
/-!
What memory answers after a write or a clear, and what stores and loads do with it.
-/

namespace Sys2Proof.Machine

open Sys2Proof

/-! ## Bytes and values -/

@[simp] theorem leBytes_length (n x : Nat) : (leBytes n x).length = n := by
  induction n generalizing x with
  | zero => rfl
  | succ n ih => simp [leBytes, ih]

/-- Byte `k` of a value, least significant first. -/
theorem leBytes_getD (n x k : Nat) (hk : k < n) : (leBytes n x).getD k 0 = BitVec.ofNat 8 (x / 2 ^ (8 * k)) := by
  induction n generalizing x k with
  | zero => omega
  | succ n ih =>
    cases k with
    | zero => simp [leBytes]
    | succ k =>
      rw [leBytes, List.getD_cons_succ, ih _ _ (by omega), Nat.div_div_eq_div_mul, Nat.mul_succ, Nat.add_comm, pow_add]
      rfl

/-- The bytes of a value stand for it modulo the size that they have. -/
theorem leNat_leBytes (n x : Nat) : leNat (leBytes n x) = x % 2 ^ (8 * n) := by
  induction n generalizing x with
  | zero => simp [leNat, leBytes, Nat.mod_one]
  | succ n ih =>
    rw [leBytes, leNat, ih, Nat.mul_succ, Nat.add_comm (8 * n) 8, pow_add, Nat.mod_mul]
    simp

/-- Bytes stand for less than the size that they have allows. -/
theorem leNat_lt (bs : List Byte) : leNat bs < 2 ^ (8 * bs.length) := by
  induction bs with
  | nil => simp [leNat]
  | cons b bs ih =>
    have hb : b.toNat < 256 := b.isLt
    rw [leNat, List.length_cons, Nat.mul_succ, pow_add]
    omega

/-! ## Reads after writes -/

/-- Bytes written in a canonical memory are the bytes read. -/
theorem Memory.read_writeN_inside (m : Memory) (a k : Nat) (bs : List Byte) (h : m.wf = true) (hk : k < bs.length) :
    (m.writeN a bs).read (a + k) = bs.getD k 0 := by
  induction bs generalizing m a k with
  | nil => simp at hk
  | cons b bs ih =>
    show (Memory.writeN (m.write a b) (a + 1) bs).read (a + k) = _
    cases k with
    | zero => rw [Memory.read_writeN_other _ _ _ _ (by omega), Nat.add_zero, Memory.read_write_self m a b h,
        List.getD_cons_zero]
    | succ k =>
      rw [show a + (k + 1) = a + 1 + k by omega, ih _ _ _ (Memory.wf_write m a b h) (by simpa using hk),
        List.getD_cons_succ]

@[simp] theorem Memory.readN_length (m : Memory) (a n : Nat) : (m.readN a n).length = n := by
  induction n generalizing a with
  | zero => rfl
  | succ n ih => simp [Memory.readN, ih]

/-- A read of consecutive bytes gives what each address reads as. -/
theorem Memory.readN_eq (m : Memory) (a n : Nat) : m.readN a n = (List.range n).map fun k => m.read (a + k) := by
  induction n generalizing a with
  | zero => rfl
  | succ n ih =>
    rw [Memory.readN, ih, List.range_succ_eq_map, List.map_cons, List.map_map]
    simp [Function.comp_def, Nat.add_comm, Nat.add_left_comm]

/-- Bytes written in a canonical memory are read back together. -/
theorem Memory.readN_writeN (m : Memory) (a : Nat) (bs : List Byte) (h : m.wf = true) :
    (m.writeN a bs).readN a bs.length = bs := by
  rw [Memory.readN_eq]
  refine List.ext_getElem (by simp) fun k _ hk => ?_
  simp [Memory.read_writeN_inside m a k bs h hk, hk]

/-- A cleared range reads as zeros. -/
theorem Memory.read_clear_inside (m : Memory) (a n x : Nat) (hx : a ≤ x ∧ x < a + n) : (m.clear a n).read x = 0 := by
  induction m with
  | nil => rfl
  | cons c m ih =>
    unfold Memory.clear at *
    rw [List.filter_cons]
    split
    · rename_i hf
      simp only [Bool.or_eq_true, decide_eq_true_eq] at hf
      rw [Memory.read, if_neg (by omega), ih]
    · exact ih

/-- Settles O27: byte by byte over the write, and cell by cell over the clear. -/
theorem memoryReadAfterWrite : Obligations.MemoryReadAfterWrite := by
  unfold Obligations.MemoryReadAfterWrite
  intro m a n x bs h
  refine ⟨fun k hk => Memory.read_writeN_inside m a k bs h hk, fun y hy => Memory.read_writeN_other m a y bs hy, ?_,
    fun y => ?_, Memory.wf_writeN m a bs h, Memory.wf_clear m a n h⟩
  · have hr := Memory.readN_writeN m a (leBytes n x) h
    rw [leBytes_length] at hr
    rw [hr, leNat_leBytes]
  · split
    · exact Memory.read_clear_inside m a n y ‹_›
    · exact Memory.read_clear_other m a n y (by omega)

/-! ## Writes at a place -/

/-- Marking lines as written leaves everything of the state but its lines. -/
theorem State.writeLines_frame (s : State) (slot world a n : Nat) (ls : List Nat) :
    s.writeLines slot world a n ls = { s with lines := (s.writeLines slot world a n ls).lines } := by
  induction ls generalizing s with
  | nil => rfl
  | cons l ls ih => rw [State.writeLines, ih]; rfl

@[simp] theorem State.writeAt_hbm_hbm (s : State) (dev slot world : Nat) (bs : List Byte) :
    (s.writeAt (.hbm dev slot world) bs).hbm = s.hbm.writeN dev bs := rfl

@[simp] theorem State.writeAt_hbm_slices (s : State) (dev slot world : Nat) (bs : List Byte) :
    (s.writeAt (.hbm dev slot world) bs).slices = s.slices := by
  rw [State.writeAt, State.writeLines_frame]

@[simp] theorem State.writeAt_slice_slices (s : State) (a : Nat) (bs : List Byte) :
    (s.writeAt (.slice a) bs).slices = s.slices.writeN a bs := rfl

@[simp] theorem State.writeAt_slice_hbm (s : State) (a : Nat) (bs : List Byte) :
    (s.writeAt (.slice a) bs).hbm = s.hbm := rfl

/-- A value written in a canonical memory is read back byte by byte, least significant first. -/
theorem Memory.read_writeN_leBytes (m : Memory) (a n x k : Nat) (h : m.wf = true) (hk : k < n) :
    (m.writeN a (leBytes n x)).read (a + k) = BitVec.ofNat 8 (x / 2 ^ (8 * k)) := by
  rw [Memory.read_writeN_inside m a k _ h (by simpa using hk), leBytes_getD n x k hk]

/-- A value written leaves every address outside its bytes as it was. -/
theorem Memory.read_writeN_leBytes_other (m : Memory) (a n x y : Nat) (hy : y < a ∨ a + n ≤ y) :
    (m.writeN a (leBytes n x)).read y = m.read y :=
  Memory.read_writeN_other m a y _ (by simpa using hy)

/-! ## Stores -/

/-- A store whose first item passes its check goes on from the state with that item's bytes written. -/
theorem State.storeAll_ok_s (s : State) (g : Group) (sp : Space) (size th : Nat) (a : W64) (x : BitVec 128)
    (rest : List (Nat × W64 × BitVec 128)) (p : Place) (hc : s.check g.part g.ctx g.team sp a size .write false = .ok p) :
    (s.storeAll g sp size ((th, a, x) :: rest)).s = ((s.writeAt p (leBytes size x.toNat)).storeAll g sp size rest).s := by
  rw [State.storeAll, hc]

/-- A store whose first item fails its check goes on from the same state, with that failure before the others. -/
theorem State.storeAll_fail (s : State) (g : Group) (sp : Space) (size th : Nat) (a : W64) (x : BitVec 128)
    (rest : List (Nat × W64 × BitVec 128)) (c : Cause) (d : Nat)
    (hc : s.check g.part g.ctx g.team sp a size .write false = .fail c d) :
    s.storeAll g sp size ((th, a, x) :: rest) =
      { s.storeAll g sp size rest with fails := ⟨th, c, a, d⟩ :: (s.storeAll g sp size rest).fails } := by
  rw [State.storeAll, hc]

/-- Settles O25: the state that the first item leaves is the one with its bytes written at the place of its check. -/
theorem storesWriteMemory : Obligations.StoresWriteMemory := by
  unfold Obligations.StoresWriteMemory
  intro s g sp size th a x rest
  refine ⟨fun dev slot world h hc => ⟨_, State.storeAll_ok_s s g sp size th a x rest _ hc, ?_, fun k hk => ?_, fun y hy => ?_⟩,
    fun p h hc => ⟨_, State.storeAll_ok_s s g sp size th a x rest _ hc, ?_, fun k hk => ?_, fun y hy => ?_⟩, fun c d hc => ?_⟩
  · exact State.writeAt_hbm_slices ..
  · exact Memory.read_writeN_leBytes _ _ _ _ _ h hk
  · exact Memory.read_writeN_leBytes_other _ _ _ _ _ hy
  · exact State.writeAt_slice_hbm ..
  · exact Memory.read_writeN_leBytes _ _ _ _ _ h hk
  · exact Memory.read_writeN_leBytes_other _ _ _ _ _ hy
  · simp only [State.storeAll_fail s g sp size th a x rest c d hc]
    exact ⟨trivial, List.mem_cons_self ..⟩

/-! ## Loads -/

/-- A thread whose check fails reads nothing, and that is its failure. -/
theorem State.readThread_fail_iff (s : State) (g : Group) (sp : Space) (size t : Nat) (a : W64) (f : ThreadFail) :
    s.readThread g sp size t a = .fail f ↔
      ∃ c d, s.check g.part g.ctx g.team sp a size .read false = .fail c d ∧ f = ⟨t, c, a, d⟩ := by
  unfold State.readThread
  split
  next c d hc =>
    simp only [hc, Read.fail.injEq, Chk.fail.injEq]
    exact ⟨fun h => ⟨c, d, ⟨rfl, rfl⟩, h.symm⟩, fun ⟨_, _, ⟨hc, hd⟩, h⟩ => by rw [h, hc, hd]⟩
  next hc => simp [hc]
  next p hc => split <;> simp [hc]

/-- A thread reads bytes exactly where its check passes and no line of them holds an error. -/
theorem State.readThread_bytes_iff (s : State) (g : Group) (sp : Space) (size t : Nat) (a : W64) (bs : List Byte) (p : Place) :
    s.readThread g sp size t a = .bytes bs p ↔
      s.check g.part g.ctx g.team sp a size .read false = .ok p ∧ s.badLine p size = none ∧ bs = s.readAt p size := by
  unfold State.readThread
  split
  next hc => simp [hc]
  next hc => simp [hc]
  next q hc =>
    simp only [hc, Chk.ok.injEq]
    split
    next l hl => simp only [reduceCtorEq, false_iff, not_and]; rintro rfl hn; simp [hl] at hn
    next hl =>
      simp only [Read.bytes.injEq]
      exact ⟨fun ⟨hb, hp⟩ => ⟨hp, hp ▸ hl, hp ▸ hb.symm⟩, fun ⟨hp, _, hb⟩ => ⟨hp ▸ hb.symm, hp⟩⟩

section LoadAll

variable (s : State) (g : Group) (sp : Space) (size : Nat)

/-- A load that meets no error reads none in any thread. -/
theorem State.loadAll_poison (addrs : List (Nat × W64)) (hp : (s.loadAll g sp size addrs).poison = none) :
    ∀ x ∈ addrs, ∀ l, s.readThread g sp size x.1 x.2 ≠ .poison l := by
  induction addrs with
  | nil => simp
  | cons x rest ih =>
    obtain ⟨t, a⟩ := x
    cases hr : s.readThread g sp size t a <;> simp_all [State.loadAll]

/-- The values of a load that meets no error are what its threads read. -/
theorem State.mem_loadAll_vals (addrs : List (Nat × W64)) (hp : (s.loadAll g sp size addrs).poison = none) (t : Nat)
    (bs : List Byte) : (t, bs) ∈ (s.loadAll g sp size addrs).vals ↔
      ∃ a p, (t, a) ∈ addrs ∧ s.readThread g sp size t a = .bytes bs p := by
  induction addrs with
  | nil => simp [State.loadAll]
  | cons x rest ih =>
    obtain ⟨u, b⟩ := x
    cases hr : s.readThread g sp size u b with
    | poison l => simp [State.loadAll, hr] at hp
    | fail f =>
      simp only [State.loadAll, hr] at hp ⊢
      rw [ih hp]
      constructor
      · rintro ⟨a, p, ha, hb⟩; exact ⟨a, p, List.mem_cons_of_mem _ ha, hb⟩
      · rintro ⟨a, p, ha, hb⟩
        rcases List.mem_cons.mp ha with he | ha
        · cases he; simp [hr] at hb
        · exact ⟨a, p, ha, hb⟩
    | bytes cs q =>
      simp only [State.loadAll, hr] at hp ⊢
      rw [List.mem_cons, ih hp]
      constructor
      · rintro (he | ⟨a, p, ha, hb⟩)
        · cases he; exact ⟨b, q, List.mem_cons_self .., hr⟩
        · exact ⟨a, p, List.mem_cons_of_mem _ ha, hb⟩
      · rintro ⟨a, p, ha, hb⟩
        rcases List.mem_cons.mp ha with he | ha
        · cases he; rw [hr] at hb; cases hb; exact .inl rfl
        · exact .inr ⟨a, p, ha, hb⟩

/-- The failures of a load that meets no error are those of its threads. -/
theorem State.mem_loadAll_fails (addrs : List (Nat × W64)) (hp : (s.loadAll g sp size addrs).poison = none) (f : ThreadFail) :
    f ∈ (s.loadAll g sp size addrs).fails ↔ ∃ x ∈ addrs, s.readThread g sp size x.1 x.2 = .fail f := by
  induction addrs with
  | nil => simp [State.loadAll]
  | cons x rest ih =>
    obtain ⟨u, b⟩ := x
    cases hr : s.readThread g sp size u b with
    | poison l => simp [State.loadAll, hr] at hp
    | fail e =>
      simp only [State.loadAll, hr] at hp ⊢
      simp [ih hp, hr, eq_comm]
    | bytes cs q =>
      simp only [State.loadAll, hr] at hp ⊢
      simp [ih hp, hr]

/-- The first failure of a load is that of the first thread that fails. -/
theorem State.loadAll_fails_head (pre post : List (Nat × W64)) (t : Nat) (a : W64) (f : ThreadFail)
    (hp : (s.loadAll g sp size (pre ++ (t, a) :: post)).poison = none)
    (hpre : ∀ y ∈ pre, ∀ f, s.readThread g sp size y.1 y.2 ≠ .fail f) (hf : s.readThread g sp size t a = .fail f) :
    ∃ fs, (s.loadAll g sp size (pre ++ (t, a) :: post)).fails = f :: fs := by
  induction pre with
  | nil => exact ⟨(s.loadAll g sp size post).fails, by simp only [List.nil_append, State.loadAll, hf]⟩
  | cons y pre ih =>
    obtain ⟨u, b⟩ := y
    cases hr : s.readThread g sp size u b with
    | poison l => simp [State.loadAll, hr] at hp
    | fail e => exact absurd hr (hpre _ (List.mem_cons_self ..) e)
    | bytes cs q =>
      simp only [List.cons_append, State.loadAll, hr] at hp ⊢
      exact ih hp fun y hy => hpre y (List.mem_cons_of_mem _ hy)

end LoadAll

/-- A load that ends with a result met no error, leaves the state as it was, and gives what its threads read. -/
theorem State.performAccess_load_ok {s t : State} {g : Group} {idx size dst n : Nat} {strided : Bool} {sp : Space} {ext : Ext}
    {r : Result} {spread : Option W64} {addrs : List (Nat × W64)} {places : List (Nat × Nat)}
    (h : s.performAccess g idx strided (.load sp size addrs dst n ext spread) = .ok t r places) :
    (s.loadAll g sp size addrs).poison = none ∧ t = s ∧
      r = { vectorResult g dst spread ((s.loadAll g sp size addrs).vals.map fun v => (v.1, loadWords ext size n v.2)) with
        fail := failureOf idx false false (s.loadAll g sp size addrs).fails } := by
  simp only [State.performAccess] at h
  split at h
  next => cases h
  next hp => cases h; exact ⟨hp, rfl, rfl⟩

/-- A load of a thread reads it where its check passes, if the load meets no error. -/
theorem State.readThread_of_check_ok (s : State) (g : Group) (sp : Space) (size t : Nat) (a : W64) (p : Place)
    (hn : ∀ l, s.readThread g sp size t a ≠ .poison l) (hc : s.check g.part g.ctx g.team sp a size .read false = .ok p) :
    s.readThread g sp size t a = .bytes (s.readAt p size) p := by
  refine (State.readThread_bytes_iff ..).mpr ⟨hc, ?_, rfl⟩
  cases hb : s.badLine p size with
  | none => rfl
  | some l => exact absurd (by simp [State.readThread, hc, hb]) (hn l)

/-- The value that a load makes of the bytes of a thread. -/
def loadValue (ext : Ext) (size : Nat) (bs : List Byte) : Nat :=
  match ext with
  | .zero => leNat bs
  | .sign => (BitVec.ofInt 32 (sextNat (8 * size) (leNat bs))).toNat

/-- The words that a loaded value fills are its 32-bit pieces. -/
theorem loadWords_getElem? (ext : Ext) (size n k : Nat) (bs : List Byte) (w : W32) :
    (loadWords ext size n bs)[k]? = some w ↔ k < n ∧ w = BitVec.ofNat 32 (loadValue ext size bs / 2 ^ (32 * k)) := by
  have hw : loadWords ext size n bs = (List.range n).map fun k => BitVec.ofNat 32 (loadValue ext size bs / 2 ^ (32 * k)) := by
    cases ext <;> rfl
  by_cases hk : k < n <;> simp [hw, hk, eq_comm]

/-- The elements that a value gives a thread. -/
theorem mem_wordElems (dst t k v : Nat) (w : W32) (ws : List W32) :
    (dst + k, v, w) ∈ wordElems dst t ws ↔ v = t ∧ ws[k]? = some w := by
  simp only [wordElems, List.mem_mapIdx, Prod.mk.injEq]
  constructor
  · rintro ⟨i, hi, he, rfl, rfl⟩
    obtain rfl : i = k := by omega
    exact ⟨rfl, List.getElem?_eq_getElem hi⟩
  · rintro ⟨rfl, hw⟩
    obtain ⟨hk, rfl⟩ := List.getElem?_eq_some_iff.mp hw
    exact ⟨k, hk, rfl, rfl, rfl⟩

/-- The elements that a load gives its threads, each its own. -/
theorem mem_vectorResult_elems (g : Group) (dst k v : Nat) (w : W32) (vals : List (Nat × List W32)) :
    (dst + k, v, w) ∈ (vectorResult g dst none vals).elems ↔ ∃ ws, (v, ws) ∈ vals ∧ ws[k]? = some w := by
  simp only [vectorResult, List.mem_flatMap, mem_wordElems]
  exact ⟨fun ⟨_, hx, hv, hw⟩ => ⟨_, hv ▸ hx, hw⟩, fun ⟨ws, hx, hw⟩ => ⟨(v, ws), hx, rfl, hw⟩⟩

/-- Every element of a load is of a thread that read a value. -/
theorem of_mem_vectorResult_elems (g : Group) (dst j v : Nat) (w : W32) (vals : List (Nat × List W32))
    (h : (j, v, w) ∈ (vectorResult g dst none vals).elems) : ∃ ws, (v, ws) ∈ vals := by
  simp only [vectorResult, List.mem_flatMap, wordElems, List.mem_mapIdx, Prod.mk.injEq] at h
  obtain ⟨x, hx, i, hi, -, hv, -⟩ := h
  exact ⟨x.2, hv ▸ hx⟩

/-- The elements of a value that is spread over a mask. -/
theorem mem_spreadResult_elems (g : Group) (m : W64) (dst k v : Nat) (w : W32) (ws : List W32) (hm : m ≠ g.width.full)
    (hv : v < g.width.n) : (dst + k, v, w) ∈ (spreadResult g m dst ws).elems ↔ m.getLsbD v = true ∧ ws[k]? = some w := by
  simp only [spreadResult, if_neg hm, List.mem_flatMap, mem_threads, mem_wordElems]
  exact ⟨fun ⟨_, ⟨_, ht⟩, he, hw⟩ => ⟨he ▸ ht, hw⟩, fun ⟨ht, hw⟩ => ⟨v, ⟨hv, ht⟩, rfl, hw⟩⟩

/-- The words of a value that is spread over every thread. -/
theorem mem_spreadResult_unis (g : Group) (dst k : Nat) (w : W32) (ws : List W32) :
    (dst + k, w) ∈ (spreadResult g g.width.full dst ws).unis ↔ ws[k]? = some w := by
  simp only [spreadResult, if_true, List.mem_mapIdx, Prod.mk.injEq]
  constructor
  · rintro ⟨i, hi, he, rfl⟩
    obtain rfl : i = k := by omega
    exact List.getElem?_eq_getElem hi
  · intro h
    obtain ⟨hk, rfl⟩ := List.getElem?_eq_some_iff.mp h
    exact ⟨k, hk, rfl, rfl⟩

/-- The failure of a load, where a thread fails: its mask holds every thread that does. -/
theorem failureOf_tmask (idx : Nat) (write atomic : Bool) (fs : List ThreadFail) (f : ThreadFail) (hf : f ∈ fs)
    (hlt : f.t < 64) : ∃ e, failureOf idx write atomic fs = some e ∧ e.tmask.getLsbD f.t = true := by
  cases fs with
  | nil => simp at hf
  | cons e fs => exact ⟨_, rfl, (getLsbD_maskOf _ _ hlt).mpr (List.mem_map_of_mem hf)⟩

/-- With one thread, whose check passes, a load under the once mark spreads the words of its value. -/
theorem State.performAccess_load_once {s t : State} {g : Group} {idx size dst n th : Nat} {strided : Bool} {sp : Space}
    {ext : Ext} {r : Result} {m a : W64} {places : List (Nat × Nat)} {p : Place}
    (h : s.performAccess g idx strided (.load sp size [(th, a)] dst n ext (some m)) = .ok t r places)
    (hc : s.check g.part g.ctx g.team sp a size .read false = .ok p) :
    r = spreadResult g m dst (loadWords ext size n (s.readAt p size)) := by
  obtain ⟨hp, -, rfl⟩ := State.performAccess_load_ok h
  have hr := State.readThread_of_check_ok s g sp size th a p
    (State.loadAll_poison s g sp size _ hp (th, a) (List.mem_cons_self ..)) hc
  simp only [State.loadAll, hr, List.map_cons, List.map_nil, vectorResult, failureOf, spreadResult]
  split <;> rfl

/-- The elements of a load without the once mark: of every thread that read bytes, the words of its value. -/
theorem State.mem_performAccess_load_elems {s t : State} {g : Group} {idx size dst n k v : Nat} {strided : Bool} {sp : Space}
    {ext : Ext} {r : Result} {addrs : List (Nat × W64)} {places : List (Nat × Nat)} {w : W32}
    (h : s.performAccess g idx strided (.load sp size addrs dst n ext none) = .ok t r places) :
    (dst + k, v, w) ∈ r.elems ↔ ∃ bs a p, (v, a) ∈ addrs ∧ s.readThread g sp size v a = .bytes bs p ∧
      k < n ∧ w = BitVec.ofNat 32 (loadValue ext size bs / 2 ^ (32 * k)) := by
  obtain ⟨hp, -, rfl⟩ := State.performAccess_load_ok h
  show (dst + k, v, w) ∈ (vectorResult g dst none _).elems ↔ _
  rw [mem_vectorResult_elems]
  constructor
  · rintro ⟨ws, hws, hw⟩
    obtain ⟨⟨u, bs⟩, hb, he⟩ := List.mem_map.mp hws
    cases he
    obtain ⟨a, p, ha, hr⟩ := (State.mem_loadAll_vals s g sp size addrs hp _ _).mp hb
    exact ⟨bs, a, p, ha, hr, (loadWords_getElem? ..).mp hw⟩
  · rintro ⟨bs, a, p, ha, hr, hw⟩
    exact ⟨_, List.mem_map.mpr ⟨(v, bs), (State.mem_loadAll_vals s g sp size addrs hp _ _).mpr ⟨a, p, ha, hr⟩, rfl⟩,
      (loadWords_getElem? ..).mpr hw⟩

/-- Every element of a load without the once mark is of a thread that read bytes. -/
theorem State.of_mem_performAccess_load_elems {s t : State} {g : Group} {idx size dst n j v : Nat} {strided : Bool}
    {sp : Space} {ext : Ext} {r : Result} {addrs : List (Nat × W64)} {places : List (Nat × Nat)} {w : W32}
    (h : s.performAccess g idx strided (.load sp size addrs dst n ext none) = .ok t r places) (hw : (j, v, w) ∈ r.elems) :
    ∃ bs a p, (v, a) ∈ addrs ∧ s.readThread g sp size v a = .bytes bs p := by
  obtain ⟨hp, -, rfl⟩ := State.performAccess_load_ok h
  obtain ⟨ws, hws⟩ := of_mem_vectorResult_elems g dst j v w _ hw
  obtain ⟨⟨u, bs⟩, hb, he⟩ := List.mem_map.mp hws
  cases he
  exact ⟨bs, (State.mem_loadAll_vals s g sp size addrs hp _ _).mp hb⟩

/-- What a load returns to each thread. -/
theorem loadsReturnMemory : Claims.LoadsReturnMemory := by
  unfold Claims.LoadsReturnMemory
  intro s t g idx size dst n strided sp ext r spread addrs places h hnd hlt chk val
  have hval : ∀ p, val p = loadValue ext size (s.readAt p size) := fun p => by cases ext <;> rfl
  obtain ⟨hp, ht, hr⟩ := State.performAccess_load_ok h
  have hok := State.loadAll_poison s g sp size addrs hp
  refine ⟨ht, ?_, ?_, ?_⟩
  · rintro rfl th a hmem
    have huniq : ∀ b, (th, b) ∈ addrs → b = a := fun b hb =>
      congrArg Prod.snd (List.inj_on_of_nodup_map hnd hb hmem rfl)
    refine ⟨fun p hc k hk w => ?_, fun c x hc => ⟨fun k w hw => ?_, ?_⟩⟩
    · have hread := State.readThread_of_check_ok s g sp size th a p (hok _ hmem) hc
      rw [State.mem_performAccess_load_elems h, hval]
      constructor
      · rintro ⟨bs, b, q, hb, hq, -, hw⟩
        rw [huniq b hb, hread] at hq
        cases hq
        exact hw
      · exact fun hw => ⟨_, a, p, hmem, hread, hk, hw⟩
    · obtain ⟨bs, b, q, hb, hq⟩ := State.of_mem_performAccess_load_elems h hw
      rw [huniq b hb, (State.readThread_fail_iff ..).mpr ⟨c, x, hc, rfl⟩] at hq
      cases hq
    · rw [hr]
      exact failureOf_tmask _ _ _ _ ⟨th, c, a, x⟩ ((State.mem_loadAll_fails s g sp size addrs hp _).mpr
        ⟨_, hmem, (State.readThread_fail_iff ..).mpr ⟨c, x, hc, rfl⟩⟩) (hlt _ hmem)
  · rintro m th a p rfl rfl hc hm v hv k hk w
    rw [State.performAccess_load_once h hc, mem_spreadResult_elems g m dst k v w _ hm hv,
      loadWords_getElem?, and_iff_right hk, hval]
  · rintro m th a p rfl rfl hc rfl k hk w
    rw [State.performAccess_load_once h hc, mem_spreadResult_unis, loadWords_getElem?,
      and_iff_right hk, hval]

/-- The failure of a load is named by its lowest failing thread. -/
theorem lowestFailingThreadNamesTheFailure : Claims.LowestFailingThreadNamesTheFailure := by
  unfold Claims.LowestFailingThreadNamesTheFailure
  intro s t g idx size dst n strided sp ext r spread addrs pre post places th a c x h haddrs hlt chk hpre hc
  obtain ⟨hp, -, rfl⟩ := State.performAccess_load_ok h
  have hmem : ∀ f, f ∈ (s.loadAll g sp size addrs).fails ↔ ∃ y ∈ addrs, ∃ c x, chk y.2 = .fail c x ∧ f = ⟨y.1, c, y.2, x⟩ :=
    fun f => by simp only [State.mem_loadAll_fails s g sp size addrs hp, State.readThread_fail_iff, chk]
  obtain ⟨fs, hfs⟩ : ∃ fs, (s.loadAll g sp size addrs).fails = ⟨th, c, a, x⟩ :: fs := by
    subst haddrs
    refine State.loadAll_fails_head s g sp size pre post th a _ hp (fun y hy f hf => ?_)
      ((State.readThread_fail_iff ..).mpr ⟨c, x, hc, rfl⟩)
    obtain ⟨p, hok⟩ := hpre y hy
    obtain ⟨c, d, hfail, -⟩ := (State.readThread_fail_iff ..).mp hf
    exact absurd (hok.symm.trans hfail) (by simp)
  rw [hfs] at hmem ⊢
  refine ⟨_, rfl, rfl, rfl, rfl, fun v hv => ?_, ?_⟩
  · rw [getLsbD_maskOf _ _ hv, List.mem_map]
    constructor
    · rintro ⟨f, hf, rfl⟩
      obtain ⟨y, hy, c, x, hyc, rfl⟩ := (hmem f).mp hf
      exact ⟨y, hy, rfl, c, x, hyc⟩
    · rintro ⟨y, hy, rfl, c, x, hyc⟩
      exact ⟨_, (hmem _).mpr ⟨y, hy, c, x, hyc, rfl⟩, rfl⟩
  · rw [List.all_eq_true]
    constructor
    · intro hall y hy c x hyc
      exact hall _ ((hmem _).mpr ⟨y, hy, c, x, hyc, rfl⟩)
    · intro hall f hf
      obtain ⟨y, hy, c, x, hyc, rfl⟩ := (hmem f).mp hf
      exact hall y hy c x hyc

/-- What the scalar accesses read and store. -/
theorem scalarAccessesOfMemory : Claims.ScalarAccessesOfMemory := by
  unfold Claims.ScalarAccessesOfMemory
  intro s g idx a x d
  refine ⟨fun pl hc hb => ?_, fun c n hc => ?_, fun c n hc => ?_, fun dev slot world hc h => ?_⟩
  · have hlen : (s.readAt pl 8).length = 8 := by cases pl <;> exact Memory.readN_length ..
    have hlt := leNat_lt (s.readAt pl 8)
    rw [hlen] at hlt
    refine ⟨BitVec.ofNat 64 (leNat (s.readAt pl 8)), by simpa using Nat.mod_eq_of_lt hlt, ?_⟩
    simp only [State.performAccess, (State.readThread_bytes_iff ..).mpr ⟨hc, hb, rfl⟩]
    rfl
  · simp only [State.performAccess, (State.readThread_fail_iff ..).mpr ⟨c, n, hc, rfl⟩]
    rfl
  · simp only [State.performAccess, hc]
    rfl
  · refine ⟨s.writeAt (.hbm dev slot world) (leBytes 8 x.toNat), ?_, State.writeAt_hbm_slices .., fun k hk => ?_, fun y hy => ?_⟩
    · simp only [State.performAccess, hc]
    · exact Memory.read_writeN_leBytes _ _ _ _ _ h hk
    · exact Memory.read_writeN_leBytes_other _ _ _ _ _ hy

/-- Settles O24: thread by thread over the reads of a load; the scalar accesses by their one check. -/
theorem loadsReadMemory : Obligations.LoadsReadMemory :=
  ⟨loadsReturnMemory, lowestFailingThreadNamesTheFailure, scalarAccessesOfMemory⟩

end Sys2Proof.Machine
end

section
/-!
The canonical form of the memories, of a state and of what the operations on states answer.
-/

namespace Sys2Proof.Machine

open Sys2Proof

/-- The saved slices of a sleep image are in canonical form. -/
def imageOk : Option SleepImage → Bool
  | some x => Memory.wf x.slices
  | none => true

theorem Package.savedOk_eq (k : Package) : k.savedOk = imageOk k.sleepImage := rfl

/-- The canonical form speaks of nothing but HBM, the slices and the saved slices. -/
@[simp] theorem State.memOk_mk (s : State) {lines tlb groups teams cores parts fabric returns interrupts svc latent late
    sliceErrs kept openLists cur moves tick nextUid} {pkg : Package} (hp : pkg.sleepImage = s.pkg.sleepImage) :
    State.memOk ⟨s.hbm, s.slices, lines, tlb, groups, teams, cores, parts, pkg, fabric, returns, interrupts, svc, latent, late,
      sliceErrs, kept, openLists, cur, moves, tick, nextUid⟩ = s.memOk := by
  simp only [State.memOk, Package.savedOk_eq, hp]

@[simp] theorem State.setConv_sleepImage (s : State) (c : Conv) : (s.setConv c).pkg.sleepImage = s.pkg.sleepImage := rfl

theorem Package.sleepImage_ite (c : Prop) [Decidable c] {a b : Package} {x : Option SleepImage} (ha : a.sleepImage = x)
    (hb : b.sleepImage = x) : (if c then a else b).sleepImage = x := by
  split <;> assumption

@[simp] theorem State.memOk_ite (c : Prop) [Decidable c] (s t : State) :
    (if c then s else t).memOk = if c then s.memOk else t.memOk := apply_ite ..

theorem State.memOk_ite_of (c : Prop) [Decidable c] {s t : State} (hs : s.memOk = true) (ht : t.memOk = true) :
    (if c then s else t).memOk = true := by
  split <;> assumption

/-- The memories of the state that a step answers are canonical. -/
@[simp] def outcomeOk : Host.Outcome State Fault Refusal → Bool
  | .next s => s.memOk
  | .fault _ | .refused _ => true

/-! ## The states that results carry -/

/-- The state that the body of an instruction leaves, if it leaves one, has canonical memories; the definitions below say the same of
the other results that carry a state. -/
@[simp] def Done.memOk : Done → Bool
  | .seq s _ _ | .jump s _ _ _ | .stop s _ _ _ | .dead s => s.memOk
  | .trap _ _ => true

@[simp] def Access.memOk : Access → Bool
  | .ok s _ _ | .dead s => s.memOk

@[simp] def Remote.memOk : Remote → Bool
  | .done s _ | .spoilt s _ => s.memOk
  | .refused _ _ | .poison _ => true

@[simp] def CallEnd.memOk : CallEnd → Bool
  | .done s _ | .pending s _ => s.memOk
  | .refused _ _ | .poison _ => true

@[simp] def BulkSent.memOk : BulkSent → Bool
  | .sent s _ => s.memOk
  | .failed _ _ | .poison _ => true

@[simp] def Verdict.memOk : Verdict → Bool
  | .waits s | .go s => s.memOk
  | .refused => true

@[simp] def Copied.memOk : Copied → Bool
  | .done s _ _ => s.memOk
  | .poison _ => true

@[simp] def Spilled.memOk : Spilled → Bool
  | .ok s => s.memOk
  | .fail _ _ _ _ => true

@[simp] def TileRead.memOk : TileRead → Bool
  | .failed s => s.memOk
  | .bytes _ | .poison _ => true

@[simp] def Resolved.memOk : Resolved → Bool
  | .failed s => s.memOk
  | .ok _ _ => true

@[simp] def Dealt.memOk : Dealt → Bool
  | .done s => s.memOk
  | .waits | .poison _ => true

/-! ## Lists of changes -/

/-- What keeps the canonical form at each item of a list keeps it over the list. -/
theorem State.memOk_foldl {α : Type} (f : State → α → State) (hf : ∀ s x, s.memOk = true → (f s x).memOk = true) (l : List α)
    (s : State) (h : s.memOk = true) : (l.foldl f s).memOk = true := by
  induction l generalizing s with
  | nil => exact h
  | cons x l ih => exact ih _ (hf s x h)

/-- What leaves memory alone at each item of a list leaves it alone over the list. -/
@[simp] theorem State.memOk_foldl_eq {α : Type} (f : State → α → State) (hf : ∀ s x, (f s x).memOk = s.memOk) (l : List α)
    (s : State) : (l.foldl f s).memOk = s.memOk := by
  induction l generalizing s with
  | nil => rfl
  | cons x l ih => exact (ih _).trans (hf s x)

end Sys2Proof.Machine
end

section
/-!
What each operation of the model does to the canonical form: an equation where it leaves the memories alone, and where it may
write to them, that it keeps their form. In the order of the definitions they speak of.
-/

namespace Sys2Proof.Machine

open Sys2Proof

/-! ## Lines, partitions and reports -/

@[simp] theorem State.memOk_setLine (s : State) (l : Line) : (s.setLine l).memOk = s.memOk := rfl

@[simp] theorem State.memOk_lineWritten (s : State) (a slot world : Nat) (whole : Bool) :
    (s.lineWritten a slot world whole).memOk = s.memOk := rfl

@[simp] theorem State.memOk_writeLines (s : State) (slot world a n : Nat) (ls : List Nat) :
    (s.writeLines slot world a n ls).memOk = s.memOk := by
  rw [State.writeLines_frame]
  rfl

@[simp] theorem State.memOk_setPart (s : State) (p : Partition) : (s.setPart p).memOk = s.memOk := rfl

@[simp] theorem State.memOk_updPart (s : State) (n : Nat) (f : Partition → Partition) :
    (s.updPart n f).memOk = s.memOk := by
  unfold State.updPart
  split <;> rfl

@[simp] theorem State.memOk_ringWrite (s : State) (p : Partition) (r : Report) (last : Bool) (h : s.memOk = true) :
    (s.ringWrite p r last).memOk = true := by
  have hw := State.memOk_writePart s p (p.ringBase.toNat + 64 * (p.ringHead.toNat % 2 ^ p.ringLog)) r.toBytes h
  simp [State.ringWrite, hw]

@[simp] theorem State.memOk_ringPush (s : State) (part : Nat) (r : Report) (last : Bool) (h : s.memOk = true) :
    (s.ringPush part r last).memOk = true := by
  unfold State.ringPush
  split <;> simp [h]

@[simp] theorem State.memOk_pushEntries (s : State) (part list : Nat) (es : List Entry) (h : s.memOk = true) :
    (s.pushEntries part list es).memOk = true := by
  induction es generalizing s with
  | nil => exact h
  | cons e es ih =>
    cases es with
    | nil => exact State.memOk_ringPush _ _ _ _ h
    | cons _ _ => exact ih _ (State.memOk_ringPush _ _ _ _ h)

@[simp] theorem State.memOk_reportList (s : State) (part : Nat) (es : List Entry) (h : s.memOk = true) :
    (s.reportList part es).memOk = true := by
  unfold State.reportList
  split <;> simp [h]

@[simp] theorem State.memOk_closeLists (s : State) (h : s.memOk = true) : s.closeLists.memOk = true :=
  State.memOk_foldl _ (fun _ _ hs => State.memOk_reportList _ _ _ hs) _ _ h

/-! ## Groups, teams and worlds -/

@[simp] theorem State.memOk_setCore (s : State) (c : Core) : (s.setCore c).memOk = s.memOk := rfl

@[simp] theorem State.memOk_spend (s : State) (core cost : Nat) : (s.spend core cost).memOk = s.memOk := rfl

@[simp] theorem State.memOk_setGroup (s : State) (g : Group) : (s.setGroup g).memOk = s.memOk := rfl

@[simp] theorem State.memOk_immediate (s : State) (g : Group) (len : W64) (c : Cause) (detail : W32) :
    (s.immediate g len c detail).memOk = s.memOk := rfl

@[simp] theorem State.memOk_errWrite (s : State) (r : Cper) : (s.errWrite r).memOk = s.memOk := rfl

@[simp] theorem State.memOk_errPush (s : State) (r : Cper) : (s.errPush r).memOk = s.memOk := by
  simp [State.errPush]

@[simp] theorem State.memOk_castLines (s : State) (p : Line → Bool) : (s.castLines p).memOk = s.memOk := rfl

@[simp] theorem State.memOk_castWorlds (s : State) (ws : List Nat) : (s.castWorlds ws).memOk = s.memOk := rfl

@[simp] theorem State.memOk_dropGroup (s : State) (uid : Nat) : (s.dropGroup uid).memOk = s.memOk := rfl

@[simp] theorem State.memOk_countEvents (s : State) (part core k n : Nat) :
    (s.countEvents part core k n).1.memOk = s.memOk := by
  unfold State.countEvents
  (repeat' split) <;> simp

@[simp] theorem State.memOk_genDrop (s : State) (part core : Nat) (h : s.memOk = true) :
    (s.genDrop part core).memOk = true := by
  simp [State.genDrop, h]

@[simp] theorem State.memOk_removeGroup (s : State) (uid : Nat) (h : s.memOk = true) :
    (s.removeGroup uid).memOk = true := by
  have hl := State.memOk_performLate s uid h
  have hd := State.memOk_foldl (fun s (x : Nat × Nat) => s.genDrop x.1 x.2) (fun _ _ hs => State.memOk_genDrop _ _ _ hs)
    (match s.group? uid with | some g => g.heldReturns.map fun _ => (g.part, g.core) | none => [])
    ((s.performLate uid).dropGroup uid) (by simpa using hl)
  exact hd

@[simp] theorem State.memOk_performAll (s : State) (h : s.memOk = true) : s.performAll.memOk = true :=
  State.memOk_foldl _ (fun _ _ hs => State.memOk_performLate _ _ hs) _ _ h

@[simp] theorem State.memOk_reportUnacquired (s : State) (t : Team) (h : s.memOk = true) :
    (s.reportUnacquired t).memOk = true := State.memOk_foldl _ (fun _ _ hs => State.memOk_reportList _ _ _ hs) _ _ h

@[simp] theorem State.memOk_removeTeam (s : State) (t : Team) (h : s.memOk = true) : (s.removeTeam t).memOk = true := by
  have hr := State.memOk_performAll _ (State.memOk_reportUnacquired s t h)
  have hc := State.memOk_ite_of (t.spilled.isSome = true) hr
    (State.memOk_clearSlices _ (sliceSize * t.core + t.sliceOff) t.sliceLen hr)
  exact State.memOk_ite_of (t.pair && t.spilledOdd.isNone) (State.memOk_clearSlices _ _ _ hc) hc

@[simp] theorem State.memOk_settleBusy (s : State) (part : Nat) : (s.settleBusy part).memOk = s.memOk := by
  simp [State.settleBusy]

@[simp] theorem State.memOk_removeLaunch (s : State) (part lid : Nat) (h : s.memOk = true) :
    (s.removeLaunch part lid).memOk = true := by
  have hg := State.memOk_foldl _ (fun _ g hs => State.memOk_removeGroup _ (Group.uid g) hs)
    (s.groups.filter fun g => g.part == part && g.lid == lid) s h
  simp only [State.removeLaunch, State.memOk_settleBusy, State.memOk_updPart]
  exact State.memOk_foldl _ (fun _ t hs => State.memOk_removeTeam _ t hs) _ _ hg

@[simp] theorem State.memOk_dropTlb (s : State) (w : Nat) : (s.dropTlb w).memOk = s.memOk := rfl

@[simp] theorem State.memOk_endWorlds (s : State) (ws : List Nat) (h : s.memOk = true) :
    (s.endWorlds ws).memOk = true := by
  induction ws generalizing s with
  | nil => exact h
  | cons w ws ih => exact ih _ (State.memOk_foldl _ (fun _ _ hs => State.memOk_removeLaunch _ _ _ hs) _ _ h)

/-! ## Results, exchanges and containment -/

@[simp] theorem State.memOk_finish (s : State) (uid idx : Nat) (r : Result) : (s.finish uid idx r).memOk = s.memOk := by
  unfold State.finish
  split <;> rfl

@[simp] theorem State.memOk_ret (s : State) (uid idx : Nat) (r : Result) : (s.ret uid idx r).memOk = s.memOk := by
  unfold State.ret
  split <;> simp

@[simp] theorem State.memOk_writeRange (s : State) (pls : List (Place × Nat)) (bs : List Byte) (h : s.memOk = true) :
    (s.writeRange pls bs).memOk = true := by
  induction pls generalizing s bs with
  | nil => exact h
  | cons x pls ih => exact ih _ _ (State.memOk_writeAt _ _ _ h)

@[simp] theorem State.memOk_errorNext (s : State) (g : Group) (ticket line : Nat) :
    (s.errorNext g ticket line).memOk = s.memOk := rfl

@[simp] theorem State.memOk_retLost (s : State) (uid idx part core : Nat) :
    (s.retLost uid idx part core).memOk = s.memOk := rfl

@[simp] theorem State.memOk_partRet (s : State) (pt : Part) (r : Result) : (s.partRet pt r).memOk = s.memOk := by
  simp [State.partRet]

@[simp] theorem State.memOk_finishPart (s : State) (c : Conv) (x : Exchange) (pt : Part) (h : s.memOk = true) :
    (s.finishPart c x pt).memOk = true := by
  unfold State.finishPart
  (repeat' split) <;> simp [h]

@[simp] theorem State.memOk_partFail (s : State) (c : Conv) (x : Exchange) (pt : Part) (cause : Cause) (reason : Nat) :
    (s.partFail c x pt cause reason).memOk = s.memOk := by
  simp [State.partFail]

@[simp] theorem memOk_abortPart (c : Conv) (gone : List Nat) (x : Exchange) (a : Aborted) (pt : Part)
    (h : a.s.memOk = true) : (abortPart c gone x a pt).s.memOk = true := by
  unfold abortPart
  dsimp only
  split
  · exact h
  · split
    · exact State.memOk_finishPart _ _ _ _ h
    · simpa using h

@[simp] theorem State.memOk_gateFail (s : State) (uid idx : Nat) (c : Cause) (detail : W32) (mask : W64) (first : Nat) :
    (s.gateFail uid idx c detail mask first).memOk = s.memOk := by
  simp [State.gateFail]

@[simp] theorem State.memOk_setConv (s : State) (c : Conv) : (s.setConv c).memOk = s.memOk := rfl

@[simp] theorem memOk_foldl_abortPart (c : Conv) (gone : List Nat) (xs : List Exchange) (a : Aborted)
    (h : a.s.memOk = true) : (xs.foldl (fun a x => x.parts.foldl (abortPart c gone x) a) a).s.memOk = true := by
  have parts : ∀ (x : Exchange) (ps : List Part) (a : Aborted), a.s.memOk = true →
      (ps.foldl (abortPart c gone x) a).s.memOk = true := by
    intro x ps
    induction ps with
    | nil => exact fun _ h => h
    | cons p ps ih => exact fun a h => ih _ (memOk_abortPart c gone x a p h)
  induction xs generalizing a with
  | nil => exact h
  | cons x xs ih => exact ih _ (parts x _ _ h)

@[simp] theorem State.memOk_abortConv (s : State) (cn : Nat) (gone : List Nat) (h : s.memOk = true) :
    (s.abortConv cn gone).s.memOk = true := by
  unfold State.abortConv
  split
  · exact h
  next c _ =>
    split
    · exact h
    · have ha := memOk_foldl_abortPart c gone c.exchanges ⟨s, [], [], []⟩ h
      simpa using ha

@[simp] theorem State.memOk_abortAll (s : State) (gone cns : List Nat) (h : s.memOk = true) :
    (s.abortAll gone cns).1.memOk = true := by
  induction cns generalizing s with
  | nil => exact h
  | cons cn cns ih =>
    unfold State.abortAll
    split
    · exact ih _ h
    · exact ih _ (State.memOk_abortConv _ _ _ h)

@[simp] theorem State.memOk_terminateWorlds (s : State) (ws : List Nat) (y : Why) (h : s.memOk = true) :
    (s.terminateWorlds ws y).memOk = true := by
  simp [State.terminateWorlds, h]

@[simp] theorem State.memOk_contain (s : State) (cls : Nat) (ws more : List Nat) (wide infra : Bool)
    (unit addr dev : Nat) (named : Option (Nat × Nat)) (h : s.memOk = true) :
    (s.contain cls ws more wide infra unit addr dev named).memOk = true := by
  simp [State.contain, h]

@[simp] theorem State.memOk_consumeReg (s : State) (g : Group) (h : s.memOk = true) :
    (s.consumeReg g).memOk = true := by
  simp [State.consumeReg, h]

/-! ## What every instruction shares, and the operand forms -/

theorem memOk_retire (i : Instr) (s : State) (g : Group) (d : Done) (h : s.memOk = true) (hd : d.memOk = true) :
    (retire i s g d).memOk = true := by
  cases d <;> simpa [retire] using by assumption

theorem memOk_issue (i : Instr) (s : State) (body : Group → State → Done) (h : s.memOk = true)
    (hb : ∀ g, (body g s).memOk = true) : outcomeOk (issue i s body) = true := by
  rcases issue_cases i s body with ⟨-, he⟩ | ⟨g, -, ⟨-, he⟩ | ⟨-, -, he⟩ | ⟨-, -, he⟩⟩ <;> rw [he]
  · rfl
  · simpa using h
  · exact State.memOk_consumeReg s g h
  · exact memOk_retire i s g _ h (hb g)

@[simp] theorem memOk_vecInstr (i : Instr) (s : State) (once : Bool) (d : Fld) (val : Group → State → VReg)
    (h : s.memOk = true) : outcomeOk (vecInstr i s once d val) = true := memOk_issue _ _ _ h fun _ => h

@[simp] theorem memOk_vec2 (i : Instr) (s : State) (once : Bool) (d a b : Fld) (f : W32 → W32 → W32)
    (h : s.memOk = true) : outcomeOk (vec2 i s once d a b f) = true := by
  unfold vec2
  exact memOk_vecInstr (h := h) ..

@[simp] theorem memOk_vec3 (i : Instr) (s : State) (once : Bool) (d a b : Fld) (f : W32 → W32 → W32 → W32)
    (h : s.memOk = true) : outcomeOk (vec3 i s once d a b f) = true := by
  unfold vec3
  exact memOk_vecInstr (h := h) ..

@[simp] theorem memOk_vec1 (i : Instr) (s : State) (once : Bool) (d a : Fld) (f : W32 → W32) (h : s.memOk = true) :
    outcomeOk (vec1 i s once d a f) = true := by
  unfold vec1
  exact memOk_vecInstr (h := h) ..

@[simp] theorem memOk_maskInstr (i : Instr) (s : State) (d : Fld) (p : Group → Nat → Bool) (h : s.memOk = true) :
    outcomeOk (maskInstr i s d p) = true := memOk_issue _ _ _ h fun _ => h

@[simp] theorem memOk_cmp32 (i : Instr) (s : State) (d a b : Fld) (p : W32 → W32 → Bool) (h : s.memOk = true) :
    outcomeOk (cmp32 i s d a b p) = true := by
  unfold cmp32
  exact memOk_maskInstr (h := h) ..

@[simp] theorem memOk_pairInstr (i : Instr) (s : State) (once : Bool) (d : Fld) (allU : Group → Bool)
    (f : Group → Nat → W64) (cost : Group → Nat) (h : s.memOk = true) :
    outcomeOk (pairInstr i s once d allU f cost) = true := memOk_issue _ _ _ h fun _ => h

@[simp] theorem memOk_pair2 (i : Instr) (s : State) (u : Bool) (d a b : Fld) (f : W64 → W64 → W64) (h : s.memOk = true) :
    outcomeOk (pair2 i s u d a b f) = true := by
  unfold pair2
  exact memOk_pairInstr (h := h) ..

@[simp] theorem memOk_pairShift (i : Instr) (s : State) (u : Bool) (d a b : Fld) (f : W64 → W64 → W64)
    (h : s.memOk = true) : outcomeOk (pairShift i s u d a b f) = true := by
  unfold pairShift
  exact memOk_pairInstr (h := h) ..

@[simp] theorem memOk_cmp64 (i : Instr) (s : State) (d a b : Fld) (p : W64 → W64 → Bool) (h : s.memOk = true) :
    outcomeOk (cmp64 i s d a b p) = true := by
  unfold cmp64
  exact memOk_maskInstr (h := h) ..

@[simp] theorem memOk_crossInstr (i : Instr) (s : State) (d : Fld) (f : Group → Nat → W32) (h : s.memOk = true) :
    outcomeOk (crossInstr i s d f) = true := by
  unfold crossInstr
  exact memOk_vecInstr (h := h) ..

@[simp] theorem memOk_redPair (i : Instr) (s : State) (d a : Fld) (beats : W32 → W32 → Bool) (h : s.memOk = true) :
    outcomeOk (redPair i s d a beats) = true := memOk_issue _ _ _ h fun _ => h

@[simp] theorem memOk_modInstr (i : Instr) (s : State) (u : Bool) (d : Fld) (allU : Group → Bool)
    (f : Group → Nat → Nat → Nat) (h : s.memOk = true) : outcomeOk (modInstr i s u d allU f) = true := by
  unfold modInstr
  exact memOk_vecInstr (h := h) ..

@[simp] theorem State.memOk_setTeam (s : State) (t : Team) : (s.setTeam t).memOk = s.memOk := rfl

@[simp] theorem Group.memOk_crossing (g : Group) (s : State) (k : Nat) (h : s.memOk = true) :
    (g.crossing s k).1.memOk = true := by
  unfold Group.crossing
  split <;> simp [h]

@[simp] theorem Group.memOk_addEvents (g : Group) (s : State) (k n : Nat) (h : s.memOk = true) :
    (g.addEvents s k n).1.memOk = true := by
  unfold Group.addEvents
  grind [State.memOk_countEvents, Group.memOk_crossing]

@[simp] theorem Group.memOk_raise (g : Group) (s : State) (fls : List Flags) (h : s.memOk = true) :
    (g.raise s fls).1.memOk = true := by
  have all : ∀ (f : Nat → Nat) (ks : List Nat) (x : State × Group), x.1.memOk = true →
      (ks.foldl (fun (x : State × Group) k => Group.addEvents x.2 x.1 k (f k)) x).1.memOk = true := by
    intro f ks
    induction ks with
    | nil => exact fun _ h => h
    | cons k ks ih => exact fun x h => ih _ (Group.memOk_addEvents x.2 x.1 k _ h)
  exact all _ _ _ h

@[simp] theorem memOk_floatVec (i : Instr) (s : State) (once : Bool) (d : Fld) (srcU : Group → Bool)
    (f : Group → Nat → Elem) (h : s.memOk = true) : outcomeOk (floatVec i s once d srcU f) = true :=
  memOk_issue _ _ _ h fun g => Group.memOk_raise g _ _ h

@[simp] theorem memOk_float2 (i : Instr) (s : State) (once : Bool) (d a b : Fld) (f : RMode → Nat → Nat → FRes)
    (h : s.memOk = true) : outcomeOk (float2 i s once d a b f) = true := by
  unfold float2
  exact memOk_floatVec (h := h) ..

@[simp] theorem memOk_float3 (i : Instr) (s : State) (once : Bool) (d a b : Fld) (f : RMode → Nat → Nat → Nat → FRes)
    (h : s.memOk = true) : outcomeOk (float3 i s once d a b f) = true := by
  unfold float3
  exact memOk_floatVec (h := h) ..

@[simp] theorem memOk_float1 (i : Instr) (s : State) (once : Bool) (d a : Fld) (f : RMode → Nat → FRes)
    (h : s.memOk = true) : outcomeOk (float1 i s once d a f) = true := by
  unfold float1
  exact memOk_floatVec (h := h) ..

@[simp] theorem memOk_floatCmp (i : Instr) (s : State) (d a b : Fld) (cond : Int → Int → Bool) (onNan quietNv : Bool)
    (h : s.memOk = true) : outcomeOk (floatCmp i s d a b cond onNan quietNv) = true :=
  memOk_issue _ _ _ h fun g => Group.memOk_raise g _ _ h

@[simp] theorem memOk_floatPair (i : Instr) (s : State) (once : Bool) (d : Fld) (srcU : Group → Bool)
    (f : Group → Nat → Elem) (h : s.memOk = true) : outcomeOk (floatPair i s once d srcU f) = true :=
  memOk_issue _ _ _ h fun g => Group.memOk_raise g _ _ h

@[simp] theorem memOk_floatArg (i : Instr) (s : State) (d a : Fld) (max : Bool) (h : s.memOk = true) :
    outcomeOk (floatArg i s d a max) = true := memOk_issue _ _ _ h fun g => Group.memOk_raise g _ _ h

@[simp] theorem memOk_pack2 (i : Instr) (s : State) (once : Bool) (d a b : Fld) (f : RMode → Nat → Nat → FRes)
    (h : s.memOk = true) : outcomeOk (pack2 i s once d a b f) = true := by
  unfold pack2
  exact memOk_floatVec (h := h) ..

@[simp] theorem memOk_pack3 (i : Instr) (s : State) (once : Bool) (d a b : Fld) (f : RMode → Nat → Nat → Nat → FRes)
    (h : s.memOk = true) : outcomeOk (pack3 i s once d a b f) = true := by
  unfold pack3
  exact memOk_floatVec (h := h) ..

@[simp] theorem memOk_share2 (i : Instr) (s : State) (k : Nat) (d a b : Fld) (f : Nat → Nat → Nat) (h : s.memOk = true) :
    outcomeOk (share2 i s k d a b f) = true := by
  unfold share2
  exact memOk_vecInstr (h := h) ..

@[simp] theorem memOk_shareAddPublic (i : Instr) (s : State) (k : Nat) (d a b : Fld) (h : s.memOk = true) :
    outcomeOk (shareAddPublic i s k d a b) = true := by
  refine memOk_issue _ _ _ h fun g => ?_
  split <;> exact h

/-! ## The gate -/

theorem memOk_deferred (i : Instr) (g : Group) (s : State) (op : DOp) (cost : Nat) (perform : State → State)
    (hp : ∀ s, s.memOk = true → (perform s).memOk = true) (h : s.memOk = true) :
    (deferred i g s op cost perform).memOk = true := by
  have hs := hp (s.setGroup (g.addPend i op s)) (by simpa using h)
  unfold deferred
  dsimp only
  split <;> exact hs

@[simp] theorem State.memOk_setBound (s : State) (uid reg cn : Nat) : (s.setBound uid reg cn).memOk = s.memOk := by
  unfold State.setBound
  split <;> rfl

@[simp] theorem State.memOk_setGateRole (s : State) (uid reg : Nat) (v : W64) :
    (s.setGateRole uid reg v).memOk = s.memOk := by
  unfold State.setGateRole
  split <;> rfl

@[simp] theorem State.memOk_gateBind (s : State) (g : Group) (idx reg : Nat) (v : W64) :
    (s.gateBind g idx reg v).memOk = s.memOk := by
  unfold State.gateBind
  split <;> simp

@[simp] theorem State.memOk_convFail (s : State) (c : Conv) (role kind uid idx : Nat) (cause : Cause) (reason : Nat) :
    (s.convFail c role kind uid idx cause reason).memOk = s.memOk := by
  simp [State.convFail]

@[simp] theorem State.memOk_gateState (s : State) (g : Group) (idx reg : Nat) (d : Fld) (h : s.memOk = true) :
    (s.gateState g idx reg d).memOk = true := by
  unfold State.gateState
  grind [State.memOk_gateFail, State.memOk_convFail, State.memOk_ret]

theorem State.memOk_barred (s : State) (g : Group) (idx : Nat) (c : Conv) (role : Nat) (op : DOp) (h : s.memOk = true) :
    (s.barred g idx c role op).all State.memOk = true := by
  unfold State.barred
  dsimp only
  split
  · simpa using h
  · split
    · simpa using h
    · split
      · simpa using h
      · rfl

@[simp] theorem State.memOk_resolve (s : State) (g : Group) (idx reg : Nat) (op : DOp) (h : s.memOk = true) :
    (s.resolve g idx reg op).memOk = true := by
  have hb := fun c => State.memOk_barred s g idx c (roleNum (g.gateRole.getD reg 0)) op h
  unfold State.resolve
  grind [State.memOk_gateFail, Resolved.memOk]

@[simp] theorem State.memOk_serveRecvs (s : State) (cn role : Nat) (rs : List (Nat × Nat × Nat)) :
    (s.serveRecvs cn role rs).memOk = s.memOk := by
  induction rs generalizing s with
  | nil => rfl
  | cons r rs ih =>
    rw [State.serveRecvs, ih]
    split
    · rfl
    · dsimp only
      split
      · rfl
      · split <;> simp

@[simp] theorem State.memOk_gateRecv (s : State) (c : Conv) (role uid idx kind : Nat) (h : s.memOk = true) :
    (s.gateRecv c role uid idx kind).memOk = true := by
  simp [State.gateRecv, h]

@[simp] theorem State.memOk_abortLists (s : State) (y : Why) (acs : List AbortedConv) (ws : List Nat)
    (h : s.memOk = true) : (s.abortLists y acs ws).memOk = true := by
  induction ws generalizing s with
  | nil => exact h
  | cons w ws ih => exact ih _ (State.memOk_reportList _ _ _ h)

@[simp] theorem State.memOk_abortBy (s : State) (cn cause world : Nat) (h : s.memOk = true) :
    (s.abortBy cn cause world).memOk = true := by
  simp [State.abortBy, h]

@[simp] theorem State.memOk_tryAccept (s : State) (cn party q : Nat) (h : s.memOk = true) :
    (s.tryAccept cn party q).memOk = true := by
  unfold State.tryAccept
  split
  · exact h
  · dsimp only
    split
    · split
      · exact h
      · split
        · exact h
        · split
          · simpa using h
          · split
            · split
              · simpa using State.memOk_writeRange _ _ _ (by simpa using h)
              · simpa using h
              · simpa using h
            · split <;> simpa using h
    · exact h

@[simp] theorem State.memOk_acceptAll (s : State) (cn : Nat) (h : s.memOk = true) : (s.acceptAll cn).memOk = true := by
  unfold State.acceptAll
  split
  · exact h
  · refine State.memOk_foldl _ (fun _ _ hs => ?_) _ _ h
    exact State.memOk_foldl _ (fun _ _ hs => State.memOk_tryAccept _ _ _ _ hs) _ _ hs

@[simp] theorem State.memOk_markWaited (s : State) (uid ticket : Nat) : (s.markWaited uid ticket).memOk = s.memOk := by
  unfold State.markWaited
  split <;> simp

@[simp] theorem State.memOk_mismatch (s : State) (c : Conv) (x : Exchange) (reason : Nat) :
    (s.mismatch c x reason).memOk = s.memOk := by
  simp [State.mismatch]

@[simp] theorem State.memOk_popPart (s : State) (cn ex party : Nat) : (s.popPart cn ex party).memOk = s.memOk := by
  unfold State.popPart
  split
  · rfl
  · split
    · rfl
    · split
      · rfl
      · dsimp only
        split
        · rfl
        · split
          · simp
          · split <;> simp

@[simp] theorem State.memOk_feed (s : State) (cn party : Nat) : (s.feed cn party).memOk = s.memOk := by
  unfold State.feed
  split
  · rfl
  · exact State.memOk_foldl_eq _ (fun _ _ => State.memOk_popPart ..) _ _

@[simp] theorem State.memOk_feedAll (s : State) (cn : Nat) : (s.feedAll cn).memOk = s.memOk := by
  unfold State.feedAll
  split
  · rfl
  · exact State.memOk_foldl_eq _ (fun _ _ => State.memOk_feed ..) _ _

@[simp] theorem State.memOk_settleRounds (s : State) (cn n : Nat) (h : s.memOk = true) :
    (s.settleRounds cn n).memOk = true := by
  induction n generalizing s with
  | zero => exact h
  | succ n ih => exact ih _ (State.memOk_acceptAll _ _ ((State.memOk_feedAll s cn).trans h))

@[simp] theorem State.memOk_settle (s : State) (cn : Nat) (h : s.memOk = true) : (s.settle cn).memOk = true := by
  unfold State.settle
  split <;> simp [h]

@[simp] theorem State.memOk_gateAccept (s : State) (c : Conv) (role uid idx q : Nat) (h : s.memOk = true) :
    (s.gateAccept c role uid idx q).memOk = true := by
  simp [State.gateAccept, h]

@[simp] theorem State.memOk_gateBurn (s : State) (c : Conv) (role uid idx q : Nat) (n : W64) (h : s.memOk = true) :
    (s.gateBurn c role uid idx q n).memOk = true := by
  simp [State.gateBurn, h]

@[simp] theorem State.memOk_serveRoles (s : State) (cn : Nat) (rs : List Nat) :
    (s.serveRoles cn rs).memOk = s.memOk := by
  induction rs generalizing s with
  | nil => rfl
  | cons r rs ih =>
    rw [State.serveRoles, ih]
    split <;> simp

@[simp] theorem State.memOk_gateSend (s : State) (c : Conv) (role uid idx kind : Nat) (payload : W64) (choose : Bool)
    (h : s.memOk = true) : (s.gateSend c role uid idx kind payload choose).all State.memOk = true := by
  unfold State.gateSend
  (repeat' split) <;> simp [h]

@[simp] theorem State.memOk_gateDeleg (s : State) (c : Conv) (role uid idx reg : Nat) (v : W64) :
    (s.gateDeleg c role uid idx reg v).memOk = s.memOk := by
  simp [State.gateDeleg]

@[simp] theorem State.memOk_gateDeal (s : State) (c : Conv) (role uid idx q : Nat) (addr len : W64) (dst since : Nat)
    (h : s.memOk = true) : (s.gateDeal c role uid idx q addr len dst since).memOk = true := by
  unfold State.gateDeal
  split
  · simpa using h
  · split
    · simpa using h
    · exact h
    · dsimp only
      split
      · rfl
      · split
        · simpa using h
        · rfl
        · split
          · rfl
          · split
            · simpa using h
            · exact State.memOk_settle _ _ (by split <;> simpa using h)

@[simp] theorem State.memOk_sliceError (s : State) (a : Nat) (named : Option (Nat × Nat)) (h : s.memOk = true) :
    (s.sliceError a named).memOk = true := by
  unfold State.sliceError
  grind [State.memOk_clearSlices, State.memOk_contain]

@[simp] theorem State.memOk_lineErrorAs (s : State) (modified : Bool) (line : Nat) (named : Option (Nat × Nat))
    (h : s.memOk = true) : (s.lineErrorAs modified line named).memOk = true := by
  unfold State.lineErrorAs
  grind [State.memOk_sliceError, State.memOk_setLine, State.memOk_contain]

@[simp] theorem State.memOk_lineError (s : State) (line : Nat) (named : Option (Nat × Nat)) (h : s.memOk = true) :
    (s.lineError line named).memOk = true := by
  simp [State.lineError, h]

@[simp] theorem State.memOk_tileRead (s : State) (g : Group) (idx : Nat) (op : GateOp) (h : s.memOk = true) :
    (s.tileRead g idx op).memOk = true := by
  unfold State.tileRead
  (repeat' split) <;> simp [h]

@[simp] theorem State.memOk_gateShare (s : State) (c : Conv) (role uid idx : Nat) (op : GateOp) (k dst : Nat)
    (items : List (Nat × W32 × W32)) (bytes : List Byte) (h : s.memOk = true) :
    (s.gateShare c role uid idx op k dst items bytes).memOk = true := by
  unfold State.gateShare
  (repeat' split) <;> simp [h]

@[simp] theorem State.memOk_takeStep (s : State) (g : Group) (c : Conv) (role idx since : Nat) (op : DOp)
    (h : s.memOk = true) : (s.takeStep g c role idx since op).all State.memOk = true := by
  unfold State.takeStep
  split
  · exact State.memOk_gateSend _ _ _ _ _ _ _ _ h
  · simpa using h
  next q addr len dst =>
    have hd := State.memOk_gateDeal s c role g.uid idx q addr len dst since h
    revert hd
    cases s.gateDeal c role g.uid idx q addr len dst since with
    | done t => exact id
    | waits => exact fun _ => rfl
    | poison l => exact fun _ => State.memOk_lineError _ _ _ h
  next op k items dst =>
    dsimp only
    split
    · simpa using h
    · have ht := State.memOk_tileRead s g idx op h
      revert ht
      cases s.tileRead g idx op with
      | failed t => exact id
      | poison l => exact fun _ => State.memOk_lineError _ _ _ h
      | bytes bs => exact fun _ => State.memOk_gateShare _ _ _ _ _ _ _ _ _ _ h
  · exact h

@[simp] theorem State.memOk_process (s : State) (uid idx since : Nat) (op : DOp) (h : s.memOk = true) :
    (s.process uid idx since op).all State.memOk = true := by
  unfold State.process
  split
  · exact h
  next g _ =>
    split
    · simpa using h
    · exact State.memOk_gateState _ _ _ _ _ h
    · have hr := State.memOk_resolve s g idx (op.roleReg.getD 0) op h
      revert hr
      cases s.resolve g idx (op.roleReg.getD 0) op with
      | failed t => exact id
      | ok c role =>
        intro _
        dsimp only
        split
        · exact State.memOk_gateRecv _ _ _ _ _ _ h
        · simpa using State.memOk_abortBy _ _ _ _ h
        · exact State.memOk_gateAccept _ _ _ _ _ _ h
        · exact State.memOk_gateBurn _ _ _ _ _ _ _ h
        · exact State.memOk_takeStep _ _ _ _ _ _ _ h

/-- What a step at the gate leaves, or the state where it waits. -/
theorem State.memOk_getD (o : Option State) (s : State) (ho : o.all State.memOk = true) (h : s.memOk = true) :
    (o.getD s).memOk = true := by
  cases o with
  | none => exact h
  | some t => exact ho

@[simp] theorem State.memOk_gateArrive (s : State) (uid idx : Nat) (op : DOp) (h : s.memOk = true) :
    (s.gateArrive uid idx op).memOk = true := by
  unfold State.gateArrive
  dsimp only
  split
  · exact h
  · split
    · exact h
    · exact State.memOk_getD _ _ (State.memOk_process _ _ _ _ _ h) h

@[simp] theorem memOk_gateInstr (i : Instr) (s : State) (op : GateOp) (k : Nat) (d a b : Fld) (h : s.memOk = true) :
    outcomeOk (gateInstr i s op k d a b) = true := by
  refine memOk_issue _ _ _ h fun g => ?_
  dsimp only
  split
  · exact h
  · exact memOk_deferred _ _ _ _ _ _ (fun _ hs => State.memOk_gateArrive _ _ _ _ hs) h

@[simp] theorem memOk_shareTrunc (i : Instr) (s : State) (k : Nat) (d a f : Fld) (h : s.memOk = true) :
    outcomeOk (shareTrunc i s k d a f) = true := by
  refine memOk_issue _ _ _ h fun g => ?_
  split
  · exact h
  · split <;> exact h

@[simp] theorem memOk_shareSum (i : Instr) (s : State) (k : Nat) (d a : Fld) (h : s.memOk = true) :
    outcomeOk (shareSum i s k d a) = true := by
  unfold shareSum
  exact memOk_crossInstr (h := h) ..

@[simp] theorem memOk_convInstr (i : Instr) (s : State) (op : (Fld → W64) → DOp) (h : s.memOk = true) :
    outcomeOk (convInstr i s op) = true := by
  unfold convInstr
  grind [memOk_issue, memOk_deferred, State.memOk_gateArrive]

/-! ## Accesses to memory -/

@[simp] theorem memOk_scalarInstr (i : Instr) (s : State) (d : Fld) (val : (Fld → W64) → W64) (h : s.memOk = true) :
    outcomeOk (scalarInstr i s d val) = true := memOk_issue _ _ _ h fun _ => h

@[simp] theorem State.memOk_consumeAt (s : State) (g : Group) (ticket line : Nat) (h : s.memOk = true) :
    (s.consumeAt g ticket line).memOk = true := by
  simp [State.consumeAt, h]

theorem State.memOk_storeAll (s : State) (g : Group) (sp : Space) (size : Nat) (xs : List (Nat × W64 × BitVec 128))
    (h : s.memOk = true) : (s.storeAll g sp size xs).s.memOk = true := by
  induction xs generalizing s with
  | nil => exact h
  | cons x xs ih =>
    unfold State.storeAll
    split
    · exact h
    · exact ih s h
    · exact ih _ (State.memOk_writeAt _ _ _ h)

@[simp] theorem State.memOk_clearCovered (s : State) (strided : Bool) (xs : List (Nat × Nat)) :
    (s.clearCovered strided xs).memOk = s.memOk := by
  simp [State.clearCovered]

theorem State.memOk_atomAll (s : State) (g : Group) (sp : Space) (wide : Bool) (op : AOp) (ordered : Bool)
    (xs : List (Nat × W64 × W64 × W64)) (h : s.memOk = true) : (s.atomAll g sp wide op ordered xs).s.memOk = true := by
  induction xs generalizing s with
  | nil => exact h
  | cons x xs ih =>
    unfold State.atomAll
    dsimp only
    split
    · exact h
    · exact ih s h
    · split
      · exact h
      · refine ih _ ?_
        split
        · exact h
        · exact State.memOk_writeAt _ _ _ h

@[simp] theorem State.memOk_performAccess (s : State) (g : Group) (idx : Nat) (strided : Bool) (op : DOp)
    (h : s.memOk = true) : (s.performAccess g idx strided op).memOk = true := by
  unfold State.performAccess
  split
  · dsimp only
    split
    · exact State.memOk_consumeAt _ _ _ _ h
    · exact h
  next sp size items =>
    have hs := State.memOk_storeAll s g sp size items h
    dsimp only
    split
    · exact State.memOk_consumeAt _ _ _ _ hs
    · simpa using hs
  next sp wide op ord _ ret items dst spread =>
    have hs := State.memOk_atomAll s g sp wide op (ord != .relaxed) items h
    dsimp only
    split
    · exact State.memOk_consumeAt _ _ _ _ hs
    · exact hs
  · split
    · exact State.memOk_consumeAt _ _ _ _ h
    · exact h
    · exact h
  · split
    · exact State.memOk_consumeAt _ _ _ _ h
    · exact h
    · exact State.memOk_writeAt _ _ _ h
  · exact h

@[simp] theorem State.memOk_access (s : State) (uid idx : Nat) (strided returns : Bool) (op : DOp) (h : s.memOk = true) :
    (s.access uid idx strided returns op).memOk = true := by
  unfold State.access
  split
  · exact h
  next g _ =>
    have ha := State.memOk_performAccess s g idx strided op h
    revert ha
    cases s.performAccess g idx strided op with
    | dead t => exact id
    | ok t r _ => intro ha; cases returns <;> simpa using ha

@[simp] theorem memOk_globalAccess (i : Instr) (s : State) (once returns : Bool) (strided : Group → Bool)
    (op : Group → DOp) (h : s.memOk = true) : outcomeOk (globalAccess i s once returns strided op) = true := by
  refine memOk_issue _ _ _ h fun g => ?_
  split
  · exact h
  · exact memOk_deferred _ _ _ _ _ _ (fun _ hs => State.memOk_access _ _ _ _ _ _ hs) h

@[simp] theorem State.memOk_remotePort (s : State) (row : Nat) : (s.remotePort row).memOk = s.memOk := rfl

@[simp] theorem State.memOk_served (s : State) (g : Group) (places : List (Nat × Nat)) :
    (s.served g places).memOk = s.memOk := State.memOk_foldl_eq _ (fun _ _ => State.memOk_remotePort ..) _ _

@[simp] theorem Group.memOk_conflicts (g : Group) (s : State) (strided : Bool) (places waits : List (Nat × Nat))
    (h : s.memOk = true) : (g.conflicts s strided places waits).1.memOk = true :=
  (State.memOk_served ..).trans (Group.memOk_addEvents _ _ _ _ h)

@[simp] theorem memOk_sliceAccess (i : Instr) (s : State) (cost : Group → Nat) (strided : Group → Bool)
    (op : Group → DOp) (h : s.memOk = true) : outcomeOk (sliceAccess i s cost strided op) = true := by
  refine memOk_issue _ _ _ h fun g => ?_
  have ha := State.memOk_performAccess s g g.ticket (strided g) (op g) h
  dsimp only
  split
  next u hu => rwa [hu] at ha
  next u r places hu => rw [hu] at ha; exact Group.memOk_conflicts _ _ _ _ _ ha

@[simp] theorem State.memOk_consume (s : State) (g : Group) (line : Nat) (h : s.memOk = true) :
    (s.consume g line).memOk = true := by
  simp [State.consume, h]

@[simp] theorem memOk_distAccess (i : Instr) (s : State) (once returns : Bool) (strided : Group → Bool)
    (op : Group → DOp) (h : s.memOk = true) : outcomeOk (distAccess i s once returns strided op) = true := by
  refine memOk_issue _ _ _ h fun g => ?_
  have ha := State.memOk_performAccess s g g.ticket (strided g) (op g) h
  dsimp only
  split
  · exact h
  · split
    next u hu => rwa [hu] at ha
    next u r places hu =>
      rw [hu] at ha
      refine memOk_deferred _ _ _ _ _ _ (fun t ht => ?_) (Group.memOk_conflicts _ _ _ _ _ ha)
      exact State.memOk_ite_of _ ((State.memOk_ret ..).trans ht) ((State.memOk_finish ..).trans ht)

/-! ## Packets -/

@[simp] theorem State.memOk_rankPackets (s : State) (world : Nat) (e : RankEntry) (op : PktOp) (total : Nat)
    (cuts : List (List PktThread)) : (s.rankPackets world e op total cuts).1.memOk = s.memOk := by
  induction cuts generalizing s with
  | nil => rfl
  | cons ths cuts ih => exact ih _

@[simp] theorem State.memOk_makePackets (s : State) (g : Group) (op : PktOp) (items : List RemoteItem)
    (ranks : List Nat) : (s.makePackets g op items ranks).1.memOk = s.memOk := by
  induction ranks generalizing s with
  | nil => rfl
  | cons r ranks ih =>
    unfold State.makePackets
    split
    · exact ih s
    · exact (ih _).trans (State.memOk_rankPackets ..)

@[simp] theorem State.memOk_sendPacket (s : State) (g : Group) (idx rank since : Nat) (copy : Option (Nat × Nat))
    (p : Packet) : (s.sendPacket g idx rank since copy p).memOk = s.memOk := rfl

@[simp] theorem State.memOk_remoteIssue (s : State) (uid idx since : Nat) (op : PktOp) (items : List RemoteItem)
    (dst n : Nat) (ret : Bool) : (s.remoteIssue uid idx since op items dst n ret).memOk = s.memOk := by
  have send : ∀ (g : Group) (ps : List (Nat × Packet)) (s : State),
      (ps.foldl (fun s rp => s.sendPacket g idx rp.1 since none rp.2) s).memOk = s.memOk := fun g ps s =>
    State.memOk_foldl_eq _ (fun _ _ => State.memOk_sendPacket ..) ps s
  unfold State.remoteIssue
  split
  · rfl
  · dsimp only
    split <;> split <;> simp [send]

@[simp] theorem memOk_remoteInstr (i : Instr) (s : State) (a b : Fld) (data : Option (Fld × Nat))
    (op : Group → State → PktOp) (dst : Group → Nat) (n : Nat) (ret : Bool) (h : s.memOk = true) :
    outcomeOk (remoteInstr i s a b data op dst n ret) = true := by
  refine memOk_issue _ _ _ h fun g => ?_
  dsimp only
  split
  · exact h
  · exact memOk_deferred _ _ _ _ _ _ (fun _ hs => (State.memOk_remoteIssue ..).trans hs) h

/-! ## Traps, waits, engines and buffers -/

@[simp] theorem Done.memOk_mapGroup (f : Group → Group) (d : Done) : (d.mapGroup f).memOk = d.memOk := by
  cases d <;> rfl

@[simp] theorem State.memOk_takeTrap (s : State) (g : Group) (fs : List Failure) (xpc resume : W64) (pends : List Pend)
    (h : s.memOk = true) : (s.takeTrap g fs xpc resume pends).memOk = true := by
  simp [State.takeTrap, h]

@[simp] theorem State.memOk_deliver (s : State) (g : Group) (h : s.memOk = true) : (s.deliver g).memOk = true := by
  simp [State.deliver, h]

@[simp] theorem State.memOk_endWait (s : State) (g : Group) (n : Nat) (h : s.memOk = true) :
    (s.endWait g n).memOk = true := by
  unfold State.endWait
  split
  · exact h
  · dsimp only
    split
    · exact State.memOk_deliver _ _ h
    · split
      · exact State.memOk_deliver _ _ h
      · exact State.memOk_deliver _ _
          (State.memOk_foldl _ (fun _ _ hs => State.memOk_reportList _ _ _ hs) _ _ (by simpa using h))

@[simp] theorem State.memOk_wakeWaits (s : State) (us : List Nat) (h : s.memOk = true) :
    (s.wakeWaits us).memOk = true := by
  induction us generalizing s with
  | nil => exact h
  | cons u us ih =>
    refine ih _ ?_
    split
    · exact h
    · split
      · split
        · exact State.memOk_endWait _ _ _ h
        · exact h
      · exact h

@[simp] theorem State.memOk_countArrival (s : State) (team n : Nat) (fail : Option (Nat × W64)) (cross : List Crossing)
    (h : s.memOk = true) : (s.countArrival team n fail cross).memOk = true := by
  unfold State.countArrival
  split <;> simp [h]

@[simp] theorem State.memOk_arriveFor (s : State) (e : EngEntry) (ab : Nat) (fail : Option (Cause × W64))
    (cross : List Crossing) (h : s.memOk = true) : (s.arriveFor e ab fail cross).memOk = true := by
  simp [State.arriveFor, h]

@[simp] theorem State.memOk_takeCopy (s : State) (core : Nat) (e : EngEntry) : (s.takeCopy core e).memOk = s.memOk :=
  rfl

@[simp] theorem State.memOk_assignSlot (s : State) (team buf : Nat) : (s.assignSlot team buf).1.memOk = s.memOk := by
  unfold State.assignSlot
  (repeat' split) <;> simp

@[simp] theorem State.memOk_acceptEngine (s : State) (core : Nat) (e : EngEntry) (h : s.memOk = true) :
    (s.acceptEngine core e).memOk = true := by
  unfold State.acceptEngine
  split <;> simp [h]

theorem memOk_handOver (i : Instr) (g : Group) (s : State) (op : EngOp) (h : s.memOk = true) :
    (handOver i g s op).memOk = true := by
  unfold handOver
  dsimp only
  split
  · exact State.memOk_acceptEngine _ _ _ (by simpa using h)
  · simpa using h

@[simp] theorem memOk_misuse (code : Nat) : (misuse code).memOk = true := rfl

@[simp] theorem State.memOk_servePop (s : State) (team i k : Nat) : (s.servePop team i k).memOk = s.memOk := by
  unfold State.servePop
  (repeat' split) <;> simp

@[simp] theorem State.memOk_setAbar (s : State) (g : Group) (n : Nat) (f : Abar → Abar) :
    (s.setAbar g n f).memOk = s.memOk := by
  unfold State.setAbar
  split <;> rfl

/-! ## Launch records -/

@[simp] theorem State.memOk_badRecord (s : State) (p : Partition) (q ctx : Nat) (addr : W64) (why : Nat)
    (h : s.memOk = true) : (s.badRecord p q ctx addr why).memOk = true := by
  simp [State.badRecord, h]

theorem State.memOk_takeRecord (s t : State) (p : Partition) (q : Nat) (addr : W64) (bs : List Byte)
    (h : s.memOk = true) (ht : s.takeRecord p q addr bs = .inl t) : t.memOk = true := by
  unfold State.takeRecord at ht
  split at ht
  · cases ht; exact State.memOk_badRecord _ _ _ _ _ _ h
  · cases ht
  · cases ht; simpa using h

@[simp] theorem State.memOk_launchAccept (s : State) (uid ticket q : Nat) (addr : W64) (h : s.memOk = true) :
    (s.launchAccept uid ticket q addr).memOk = true := by
  unfold State.launchAccept
  split
  · exact h
  · split
    · exact h
    · dsimp only
      split
      · exact h
      · split
        · simpa using h
        · exact State.memOk_lineError _ _ _ h
        · split
          · simpa using State.memOk_badRecord _ _ _ _ _ _ h
          · split
            next ht => simpa using State.memOk_takeRecord _ _ _ _ _ _ h ht
            · exact State.memOk_lineError _ _ _ h

@[simp] theorem State.memOk_launchIssue (s : State) (uid ticket q : Nat) (addr : W64) (others : Bool)
    (h : s.memOk = true) : (s.launchIssue uid ticket q addr others).memOk = true := by
  simp [State.launchIssue, h]

@[simp] theorem memOk_branchInstr (i : Instr) (s : State) (t : BitVec 16) (taken : (Fld → W64) → Group → Bool)
    (h : s.memOk = true) : outcomeOk (branchInstr i s t taken) = true := by
  refine memOk_issue _ _ _ h fun g => ?_
  split <;> exact h

/-! ## Runs and their boundaries -/

@[simp] theorem State.memOk_laneChoice (s : State) (core lane : Nat) : (s.laneChoice core lane).memOk = s.memOk := by
  unfold State.laneChoice
  (repeat' split) <;> simp

theorem State.memOk_unpowered (s : State) (h : s.memOk = true) : s.unpowered.memOk = true := by
  simp only [State.memOk, Bool.and_eq_true] at h ⊢
  exact ⟨⟨h.1.1, rfl⟩, h.2⟩

@[simp] theorem State.memOk_sleepIfDue (s : State) (h : s.memOk = true) : s.sleepIfDue.memOk = true := by
  unfold State.sleepIfDue
  split
  · exact h
  · have ha := State.memOk_performAll s h
    simp only [State.memOk, Bool.and_eq_true] at ha ⊢
    exact ⟨⟨ha.1.1, rfl⟩, ha.1.2⟩

@[simp] theorem State.memOk_asyncReturn (s : State) (n : Nat) (h : s.memOk = true) :
    (s.asyncReturn n).memOk = true := by
  have hr : ∀ r, State.memOk { s with returns := r } = true := fun _ => h
  unfold State.asyncReturn
  split
  · exact h
  · dsimp only
    split
    · split
      · simpa using h
      · exact State.memOk_genDrop _ _ _ (hr _)
    · exact State.memOk_genDrop _ _ _ (hr _)

@[simp] theorem State.memOk_terminateLaunch (s : State) (part lid : Nat) (y : Why) (h : s.memOk = true) :
    (s.terminateLaunch part lid y).memOk = true := by
  unfold State.terminateLaunch
  split <;> simp [h]

@[simp] theorem State.memOk_endIfOver (s : State) (part lid : Nat) (h : s.memOk = true) :
    (s.endIfOver part lid).memOk = true := by
  unfold State.endIfOver
  split <;> simp [h]

@[simp] theorem State.memOk_killGroup (s : State) (g : Group) (h : s.memOk = true) : (s.killGroup g).memOk = true := by
  simp [State.killGroup, h]

@[simp] theorem State.memOk_halt (s : State) (g : Group) : (s.halt g).memOk = s.memOk := by
  simp [State.halt]

@[simp] theorem State.memOk_haltIfDue (s : State) (uid : Nat) : (s.haltIfDue uid).memOk = s.memOk := by
  unfold State.haltIfDue
  split <;> simp

@[simp] theorem State.memOk_servePops (s : State) (uid : Nat) : (s.servePops uid).memOk = s.memOk := by
  unfold State.servePops
  split
  · rfl
  · refine State.memOk_foldl_eq _ (fun s p => ?_) _ _
    split
    · split <;> simp
    · rfl

@[simp] theorem State.memOk_yieldRun (s : State) (g : Group) : (s.yieldRun g).memOk = s.memOk := by
  simp [State.yieldRun]

@[simp] theorem State.memOk_withdrawAtGate (s : State) (uid : Nat) (tickets : List Nat) :
    (s.withdrawAtGate uid tickets).memOk = s.memOk := rfl

@[simp] theorem State.memOk_haltWaiting (s : State) (uid : Nat) : (s.haltWaiting uid).memOk = s.memOk := by
  unfold State.haltWaiting
  split <;> simp

@[simp] theorem State.memOk_parkWaits (s : State) (uid : Nat) (h : s.memOk = true) :
    (s.parkWaits uid).memOk = true := by
  unfold State.parkWaits
  grind [State.memOk_servePops, State.memOk_setGroup]

@[simp] theorem State.memOk_releaseBars (s : State) (team : Nat) : (s.releaseBars team).memOk = s.memOk := by
  unfold State.releaseBars
  split <;> rfl

@[simp] theorem State.memOk_exitGroup (s : State) (g : Group) (h : s.memOk = true) : (s.exitGroup g).memOk = true := by
  unfold State.exitGroup
  grind [State.memOk_removeGroup, State.memOk_releaseBars, State.memOk_setTeam]

@[simp] theorem State.memOk_arriveBar (s : State) (g : Group) (id : Nat) : (s.arriveBar g id).memOk = s.memOk := by
  unfold State.arriveBar
  split <;> simp

@[simp] theorem State.memOk_reissue (s : State) (uid : Nat) (p : Pend) (h : s.memOk = true) :
    (s.reissue uid p).memOk = true := by
  unfold State.reissue
  split <;> simp [h]

@[simp] theorem State.memOk_moveSent (s : State) (uid : Nat) (ps : List Pend) : (s.moveSent uid ps).memOk = s.memOk :=
  rfl

@[simp] theorem State.memOk_startReplay (s : State) (g : Group) (h : s.memOk = true) :
    (s.startReplay g).memOk = true := by
  have hl := State.memOk_performLate s g.uid h
  unfold State.startReplay
  dsimp only
  split
  · exact hl
  · split
    · exact hl
    · split
      · exact hl
      · exact State.memOk_foldl _ (fun _ _ hs => State.memOk_reissue _ _ _ hs) _ _ (by simpa using hl)

@[simp] theorem State.memOk_boundary (s : State) (g : Group) (h : s.memOk = true) : (s.boundary g).memOk = true := by
  unfold State.boundary
  (repeat' split) <;> simp [h]

@[simp] theorem State.memOk_runCommit (s : State) (uid : Nat) (h : s.memOk = true) :
    (s.runCommit uid).memOk = true := by
  unfold State.runCommit
  split <;> simp [h]

@[simp] theorem State.memOk_readySince (s : State) (uid tick : Nat) : (s.readySince uid tick).memOk = s.memOk := by
  unfold State.readySince
  split <;> rfl

@[simp] theorem State.memOk_yieldedCommit (s : State) (uid : Nat) (h : s.memOk = true) :
    (s.yieldedCommit uid).memOk = true := by
  unfold State.yieldedCommit
  grind [State.memOk_haltWaiting, State.memOk_setGroup, State.memOk_readySince, State.memOk_takeTrap,
    State.memOk_settleBusy, State.memOk_haltIfDue]

@[simp] theorem State.memOk_stallGroup (s : State) (g : Group) (id : Nat) (h : s.memOk = true) :
    (s.stallGroup g id).memOk = true := by
  simp [State.stallGroup, h]

@[simp] theorem State.memOk_barrierStall (s : State) (team id : Nat) (h : s.memOk = true) :
    (s.barrierStall team id).memOk = true := by
  unfold State.barrierStall
  split
  · exact h
  next t _ =>
    have stall := fun (gs : List Group) => State.memOk_foldl _ (fun _ g hs => State.memOk_stallGroup _ g id hs) gs
      (s.setTeam { t with bars := t.bars.set id ⟨0, 0⟩ }) (by simpa using h)
    simp only [State.memOk_ite, h, stall, ite_self]

@[simp] theorem State.memOk_starve (s : State) (uid idx : Nat) (h : s.memOk = true) :
    (s.starve uid idx).memOk = true := by
  unfold State.starve
  grind [State.memOk_settle, State.memOk_gateFail, State.memOk_setConv]

@[simp] theorem State.memOk_windowRestart (s : State) (core : Nat) : (s.windowRestart core).memOk = s.memOk := by
  unfold State.windowRestart
  split <;> simp

/-! ## Engines -/

@[simp] theorem State.memOk_engineAccept (s : State) (uid : Nat) (h : s.memOk = true) :
    (s.engineAccept uid).memOk = true := by
  unfold State.engineAccept
  (repeat' split) <;> simp [h]

@[simp] theorem State.memOk_consumeEngine (s : State) (e : EngEntry) (line : Nat) (h : s.memOk = true) :
    (s.consumeEngine e line).memOk = true := by
  simp [State.consumeEngine, h]

@[simp] theorem State.memOk_engineEvents (s : State) (core : Nat) (e : EngEntry) (k n : Nat) :
    (s.engineEvents core e k n).1.memOk = s.memOk := by
  simp [State.engineEvents]

/-- The updates of a matrix loop keep the slices canonical. -/
theorem Matrix.wf_elem (x : Matrix) (tiles : List (Nat × List Byte)) (gi m n a : Nat) (o : MmOut)
    (h : o.slices.wf = true) : (x.elem tiles gi m n a o).slices.wf = true := Memory.wf_writeN _ _ _ h

theorem Matrix.wf_row (x : Matrix) (t : Team) (tiles : List (Nat × List Byte)) (gi : Nat) (o : MmOut) (r : Nat)
    (h : o.slices.wf = true) : (x.row t tiles gi o r).slices.wf = true := by
  have cells : ∀ (a : Nat) (is : List Nat) (o : MmOut), o.slices.wf = true →
      (is.foldl (fun o i => x.elem tiles gi (r / 4) (16 * (r % 4) + i) (a + 4 * i) o) o).slices.wf = true := by
    intro a is
    induction is with
    | nil => exact fun _ h => h
    | cons i is ih => exact fun o h => ih _ (Matrix.wf_elem x tiles gi _ _ _ o h)
  unfold Matrix.row
  split
  · exact h
  · exact cells _ _ _ h

theorem Matrix.wf_group (x : Matrix) (t : Team) (gi : Nat) (rows : List Nat) (o : MmOut) (h : o.slices.wf = true) :
    (x.group t gi rows o).slices.wf = true := by
  have all : ∀ (tiles : List (Nat × List Byte)) (rows : List Nat) (o : MmOut), o.slices.wf = true →
      (rows.foldl (x.row t tiles gi) o).slices.wf = true := by
    intro tiles rows
    induction rows with
    | nil => exact fun _ h => h
    | cons r rows ih => exact fun o h => ih _ (Matrix.wf_row x t tiles gi o r h)
  exact all _ _ _ h

theorem Matrix.wf_grants (x : Matrix) (t : Team) (w n : Nat) (o : Memory × MmDone) (h : o.1.wf = true) :
    (x.grants t w n o).1.wf = true := by
  induction n generalizing o with
  | zero => exact h
  | succ n ih =>
    obtain ⟨m, d⟩ := o
    unfold Matrix.grants
    split
    · exact h
    · exact ih _ (Matrix.wf_row _ _ _ _ _ _ h)

/-- The slices that a matrix loop leaves are canonical. -/
theorem Matrix.wf_run (x : Matrix) (s : State) (t : Team) (w : Nat) (d : MmDone) (o : MmOut) (f : Option (Cause × W64))
    (h : s.slices.wf = true) (hr : x.run s t w d = .done o f) : o.slices.wf = true := by
  unfold Matrix.run at hr
  dsimp only at hr
  split at hr
  · split at hr
    · cases hr
    · cases hr; exact Matrix.wf_grants x t w _ _ h
  · split at hr
    · cases hr; exact h
    · split at hr
      · cases hr
      · cases hr; exact Matrix.wf_group x t 0 _ _ h

/-- The state with other canonical slices. -/
theorem State.memOk_slices (s : State) (m : Memory) (h : s.memOk = true) (hm : m.wf = true) :
    State.memOk { s with slices := m } = true := by
  simp only [State.memOk, Bool.and_eq_true] at h ⊢
  exact ⟨⟨h.1.1, hm⟩, h.2⟩

theorem State.slices_wf (s : State) (h : s.memOk = true) : s.slices.wf = true := by
  simp only [State.memOk, Bool.and_eq_true] at h
  exact h.1.2

@[simp] theorem State.memOk_matrixComplete (s : State) (core : Nat) (h : s.memOk = true) :
    (s.matrixComplete core).memOk = true := by
  unfold State.matrixComplete
  split
  · exact h
  next e rest _ =>
    dsimp only
    split
    next x ab t _ _ =>
      split
      · exact State.memOk_consumeEngine _ _ _ h
      next o fail hr =>
        have hm := State.memOk_slices s o.slices h (Matrix.wf_run x s t _ _ o fail (State.slices_wf s h) hr)
        have hc : State.memOk { s.setCore { s.core core with matrix := rest } with slices := o.slices } = true := hm
        exact State.memOk_arriveFor _ _ _ _ _ (by simpa using hc)
    · exact h

@[simp] theorem State.memOk_freeSlot (s : State) (core slot : Nat) : (s.freeSlot core slot).memOk = s.memOk := rfl

theorem State.memOk_copyOver (s : State) (core slot : Nat) (e : EngEntry) (ab : Nat) (c : Copied) (h : s.memOk = true)
    (hc : c.memOk = true) : (s.copyOver core slot e ab c).memOk = true := by
  cases c with
  | poison l => exact State.memOk_consumeEngine _ _ _ h
  | done t fail n =>
    have he : (((t.freeSlot core slot).engineEvents core e 5 n).1).memOk = true := by
      rw [State.memOk_engineEvents, State.memOk_freeSlot]; exact hc
    exact State.memOk_arriveFor _ _ _ _ _ he

@[simp] theorem State.memOk_sendBulk (s : State) (e : EngEntry) (core slot rank : Nat) (t : RankEntry) (op : PktOp)
    (ths : List PktThread) : (s.sendBulk e core slot rank t op ths).memOk = s.memOk := rfl

@[simp] theorem State.memOk_startBulk (s : State) (e : EngEntry) (core slot : Nat) (v : W64) (write : Bool)
    (sp a n : Nat) (h : s.memOk = true) : (s.startBulk e core slot v write sp a n).memOk = true := by
  unfold State.startBulk
  dsimp only
  split
  · rfl
  · split
    · split
      · split
        · rfl
        · simpa using h
      · rfl
      · split
        · rfl
        · simpa using h
    · simpa using h

@[simp] theorem State.memOk_startUnits (s : State) (e : EngEntry) (core slot : Nat) (v : W64) (write : Bool)
    (sp a : Nat) (us : List (Nat × Nat)) (h : s.memOk = true) :
    (s.startUnits e core slot v write sp a us).memOk = true := by
  unfold State.startUnits
  dsimp only
  split
  · rfl
  · split
    · split
      · split
        · rfl
        · simpa using h
      · rfl
      · split
        · rfl
        · simpa using h
    · simpa using h

@[simp] theorem State.memOk_sendSide (s : State) (e : EngEntry) (core slot : Nat) (dst src : W64) (n dsp ssp : Nat)
    (us : List (Nat × Nat)) (h : s.memOk = true) : (s.sendSide e core slot dst src n dsp ssp us).memOk = true := by
  unfold State.sendSide
  grind [State.memOk_startBulk, State.memOk_startUnits]

@[simp] theorem State.memOk_setCopy (s : State) (core slot : Nat) (e : EngEntry) :
    (s.setCopy core slot e).memOk = s.memOk := rfl

@[simp] theorem State.memOk_move (s : State) (meet : Bool) (src dst : List (Place × Nat)) (n : Nat) (h : s.memOk = true) :
    (s.move meet src dst n).memOk = true := by
  unfold State.move
  split <;> simp [h]

/-- A move that stands for a failed copy. -/
theorem Copied.memOk_withFail (r : Copied) (f : Cause × W64) :
    r.memOk = true → Copied.memOk (match r with | .done s _ _ => .done s (some f) 0 | r => r) = true := by
  cases r <;> exact id

@[simp] theorem State.memOk_copyLocal (s : State) (e : EngEntry) (dst src n dsp ssp : Nat) (h : s.memOk = true) :
    (s.copyLocal e dst src n dsp ssp).memOk = true := by
  unfold State.copyLocal
  dsimp only
  split
  · rfl
  · exact Copied.memOk_withFail _ _ (State.memOk_move _ _ _ _ _ h)
  · split
    · rfl
    · exact Copied.memOk_withFail _ _ (State.memOk_move _ _ _ _ _ h)
    · exact State.memOk_move _ _ _ _ _ h

@[simp] theorem State.memOk_copyUnits (s : State) (e : EngEntry) (dst src n dsp ssp : Nat) (us : List (Nat × Nat))
    (h : s.memOk = true) : (s.copyUnits e dst src n dsp ssp us).memOk = true := by
  unfold State.copyUnits
  dsimp only
  split
  · rfl
  · exact Copied.memOk_withFail _ _ (State.memOk_move _ _ _ _ _ h)
  · split
    · rfl
    · exact Copied.memOk_withFail _ _ (State.memOk_move _ _ _ _ _ h)
    · exact State.memOk_move _ _ _ _ _ h

@[simp] theorem State.memOk_unpackRun (s : State) (e : EngEntry) (x : Unpack) (h : s.memOk = true) :
    (s.unpackRun e x).memOk = true := by
  unfold State.unpackRun
  refine iteInduction (motive := fun c => Copied.memOk c = true) (fun _ => h) fun _ => ?_
  split
  · exact h
  · split
    · exact h
    · dsimp only
      split
      · rfl
      · exact State.memOk_foldl _ (fun _ _ hs => State.memOk_writeRange _ _ _ hs) _ _ h

@[simp] theorem State.memOk_copyComplete (s : State) (core slot : Nat) (h : s.memOk = true) :
    (s.copyComplete core slot).memOk = true := by
  unfold State.copyComplete
  split
  · exact h
  next e _ =>
    split
    next dst src len dsp ssp ab _ =>
      have stop : ∀ (t : State) (f : Option (Cause × W64)) (n : Nat), t = s →
          (s.copyOver core slot e ab (.done t f n)).memOk = true := fun t f n ht =>
        State.memOk_copyOver _ _ _ _ _ _ h (by simpa [ht] using h)
      dsimp only
      split
      · exact h
      · split
        · exact stop _ _ _ rfl
        · split
          · exact stop _ _ _ rfl
          · split
            · exact stop _ _ _ rfl
            · split
              · exact h
              · split
                · have hs := State.memOk_sendSide s e core slot dst src len.toNat dsp ssp (e.left dst.toNat len.toNat) h
                  revert hs
                  cases s.sendSide e core slot dst src len.toNat dsp ssp (e.left dst.toNat len.toNat) with
                  | sent t f => intro hs; simpa using hs
                  | failed c a => exact fun _ => stop _ _ _ rfl
                  | poison l => exact fun _ => State.memOk_consumeEngine _ _ _ h
                · refine State.memOk_copyOver _ _ _ _ _ _ h ?_
                  split
                  · exact State.memOk_copyLocal _ _ _ _ _ _ _ h
                  · exact State.memOk_copyUnits _ _ _ _ _ _ _ _ h
    · exact State.memOk_copyOver _ _ _ _ _ _ h (State.memOk_unpackRun _ _ _ h)
    · exact h

theorem State.memOk_fillOver (s : State) (core slot : Nat) (e : EngEntry) (i k : Nat) (c : Copied) (h : s.memOk = true)
    (hc : c.memOk = true) : (s.fillOver core slot e i k c).memOk = true := by
  cases c with
  | poison l => exact State.memOk_consumeEngine _ _ _ h
  | done t fail n =>
    unfold State.fillOver
    dsimp only
    split
    · simpa using hc
    · split <;> simpa using hc

@[simp] theorem State.memOk_fillComplete (s : State) (core slot : Nat) (h : s.memOk = true) :
    (s.fillComplete core slot).memOk = true := by
  unfold State.fillComplete
  grind [State.memOk_fillOver, State.memOk_copyLocal, Copied.memOk]

@[simp] theorem State.memOk_fillStart (s : State) (core slot : Nat) (h : s.memOk = true) :
    (s.fillStart core slot).memOk = true := by
  unfold State.fillStart
  split
  · exact h
  next e _ =>
    split
    · split
      · exact h
      next i src len ssp k _ _ t b _ =>
        dsimp only
        split
        · exact h
        · split
          · have hs := State.memOk_startBulk
              ((s.setTeam (t.setBuf i (some { b with slots := b.slots.set k .assigned }))).setCopy core slot
                { e with started := true })
              { e with started := true } core slot src false 1 (b.slotAt k) len.toNat (by simpa using h)
            revert hs
            cases State.startBulk _ _ _ _ _ _ _ _ _ with
            | sent t f => exact id
            | failed c a => intro _; simpa using h
            | poison l => intro _; simpa using h
          · simpa using h
    · exact h

@[simp] theorem State.memOk_countAbar (s : State) (team n : Nat) (h : s.memOk = true) :
    (s.countAbar team n).memOk = true := by
  unfold State.countAbar
  split <;> simp [h]

@[simp] theorem State.memOk_slotFreed (s : State) (team i : Nat) : (s.slotFreed team i).memOk = s.memOk := by
  unfold State.slotFreed
  (repeat' split) <;> simp

@[simp] theorem State.memOk_sysAnswer (s : State) (uid idx : Nat) (v : W64) (h : s.memOk = true) :
    (s.sysAnswer uid idx v).memOk = true := by
  have hi : ∀ i, State.memOk { s with interrupts := i } = true := fun _ => h
  unfold State.sysAnswer
  split
  · dsimp only
    split
    · exact State.memOk_genDrop _ _ _ (hi _)
    · split
      · simpa using h
      · exact State.memOk_genDrop _ _ _ (hi _)
  · exact h

/-! ## Queues, launches and placement -/

@[simp] theorem State.memOk_launchNext (s : State) (uid : Nat) (h : s.memOk = true) :
    (s.launchNext uid).memOk = true := by
  unfold State.launchNext
  (repeat' split) <;> simp [h]

@[simp] theorem State.memOk_doorbell (s : State) (part q : Nat) (addr : W64) (h : s.memOk = true) :
    (s.doorbell part q addr).memOk = true := by
  unfold State.doorbell
  split
  · exact h
  · split
    · exact h
    · split
      · simpa using h
      · split
        · exact State.memOk_badRecord _ _ _ _ _ _ h
        · split
          · exact State.memOk_badRecord _ _ _ _ _ _ h
          · split
            · exact State.memOk_badRecord _ _ _ _ _ _ h
            · exact State.memOk_lineError _ _ _ h
            · split
              next ht => exact State.memOk_takeRecord _ _ _ _ _ _ h ht
              · exact State.memOk_lineError _ _ _ h

@[simp] theorem State.memOk_setNolid (s : State) (part : Nat) (b : Bool) : (s.setNolid part b).memOk = s.memOk := by
  simp [State.setNolid]

theorem State.memOk_command (s : State) (part n c : Nat) (act : Launch → State → State)
    (ha : ∀ l s, s.memOk = true → (act l s).memOk = true) (h : s.memOk = true) :
    (s.command part n c act).memOk = true := by
  unfold State.command
  split
  · simpa using h
  · simpa using ha _ _ (by simpa using h)

@[simp] theorem State.memOk_preemptLaunch (s : State) (part lid : Nat) (h : s.memOk = true) :
    (s.preemptLaunch part lid).memOk = true := by
  refine State.memOk_foldl _ (fun s u hs => ?_) _ _ (by simpa using h)
  simpa using State.memOk_yieldedCommit _ _ (by simpa using hs)

@[simp] theorem State.memOk_preemptCommand (s : State) (part n : Nat) (h : s.memOk = true) :
    (s.preemptCommand part n).memOk = true := by
  unfold State.preemptCommand
  grind [State.memOk_command, State.memOk_preemptLaunch]

@[simp] theorem State.memOk_resumeGroup (s : State) (uid : Nat) (h : s.memOk = true) :
    (s.resumeGroup uid).memOk = true := by
  unfold State.resumeGroup
  split
  · exact h
  · refine State.memOk_ite_of _ h (State.memOk_wakeWaits _ _ ?_)
    rw [State.memOk_servePops]
    refine State.memOk_foldl _ (fun _ _ hs => State.memOk_settle _ _ hs) _ _ ?_
    refine State.memOk_foldl _ (fun _ _ hs => State.memOk_reissue _ _ _ hs) _ _ ?_
    exact State.memOk_ite_of _ h (State.memOk_performLate _ _ h)

@[simp] theorem State.memOk_resumeLaunch (s : State) (part lid : Nat) (h : s.memOk = true) :
    (s.resumeLaunch part lid).memOk = true :=
  State.memOk_foldl _ (fun _ _ hs => State.memOk_resumeGroup _ _ hs) _ _ (by simpa using h)

@[simp] theorem State.memOk_resumeCommand (s : State) (part n : Nat) (h : s.memOk = true) :
    (s.resumeCommand part n).memOk = true := by
  unfold State.resumeCommand
  grind [State.memOk_command, State.memOk_resumeLaunch, State.memOk_updPart]

@[simp] theorem State.memOk_endLaunch (s : State) (part lid cause : Nat) (h : s.memOk = true) :
    (s.endLaunch part lid cause).memOk = true :=
  State.memOk_endIfOver _ _ _ (State.memOk_foldl _ (fun _ _ hs => State.memOk_killGroup _ _ hs) _ _ (by simpa using h))

@[simp] theorem State.memOk_terminateCommand (s : State) (part n : Nat) (h : s.memOk = true) :
    (s.terminateCommand part n).memOk = true := by
  unfold State.terminateCommand
  grind [State.memOk_command, State.memOk_endLaunch]

@[simp] theorem State.memOk_putTeam (s : State) (part : Nat) (l : Launch) (site : Site) :
    (s.putTeam part l site).memOk = s.memOk := by
  simp [State.putTeam]

theorem State.memOk_writeSlot (s : State) (l : Launch) (part k : Nat) (bs : List Byte) (h : s.memOk = true) :
    (s.writeSlot l part k bs).all (fun x => x.1.memOk) = true := by
  unfold State.writeSlot
  split
  · rfl
  · split
    · exact State.memOk_writeRange _ _ _ h
    · rfl

@[simp] theorem State.memOk_poisonSlot (s : State) (pls : List (Place × Nat)) (offs : List Nat) :
    (s.poisonSlot pls offs).memOk = s.memOk := by
  induction offs generalizing s with
  | nil => rfl
  | cons off offs ih =>
    rw [State.poisonSlot, ih]
    split <;> rfl

@[simp] theorem State.memOk_spillGroup (s : State) (l : Launch) (g : Group) (k : Nat) (h : s.memOk = true) :
    (s.spillGroup l g k).all State.memOk = true := by
  have hw := State.memOk_writeSlot (s.performLate g.uid) l g.part k
    ((s.performLate g.uid).saveArea { g with gen := g.gen + 1 }) (State.memOk_performLate _ _ h)
  unfold State.spillGroup
  dsimp only
  split
  · rfl
  next t pls ht =>
    rw [ht] at hw
    simpa using hw

@[simp] theorem State.memOk_takeSlot (s : State) (part lid k : Nat) : (s.takeSlot part lid k).memOk = s.memOk := by
  simp [State.takeSlot]

@[simp] theorem State.memOk_spillOne (s : State) (g : Group) (h : s.memOk = true) : (s.spillOne g).memOk = true := by
  unfold State.spillOne
  split
  · exact h
  next l _ =>
    split
    · exact h
    next k _ =>
      have hs := State.memOk_spillGroup s l g k h
      split
      next t ht => simpa [ht] using hs
      · rfl

@[simp] theorem State.memOk_spillGroups (s : State) (gs : List Group) (h : s.memOk = true) :
    (s.spillGroups gs).memOk = true := by
  induction gs generalizing s with
  | nil => exact h
  | cons g gs ih =>
    have hs := State.memOk_spillOne s g h
    unfold State.spillGroups
    split
    next t ht => exact ih t (by simpa [ht] using hs)
    · exact hs

@[simp] theorem State.memOk_clearSlice (s : State) (t : Team) (h : s.memOk = true) : (s.clearSlice t).memOk = true := by
  unfold State.clearSlice
  grind [State.memOk_clearSlices]

@[simp] theorem State.memOk_spillTeam (s : State) (l : Launch) (t : Team) (k k2 : Nat) (h : s.memOk = true) :
    (s.spillTeam l t k k2).all State.memOk = true := by
  have h0 := State.memOk_performAll s h
  unfold State.spillTeam
  dsimp only
  have h1 := State.memOk_writeSlot s.performAll l t.part k (s.performAll.teamImage t false) h0
  split
  · rfl
  next s1 _ ht1 =>
    rw [ht1] at h1
    split
    · have h2 := State.memOk_writeSlot s1 l t.part k2 (s.performAll.teamImage t true) h1
      split
      · rfl
      next s2 _ ht2 =>
        rw [ht2] at h2
        exact State.memOk_clearSlice s2 t h2
    · exact State.memOk_clearSlice s1 t h1

@[simp] theorem State.memOk_spillTeamOne (s : State) (t : Team) (h : s.memOk = true) :
    (s.spillTeamOne t).memOk = true := by
  unfold State.spillTeamOne
  split
  · exact h
  next l _ =>
    split
    · exact h
    next k _ =>
      dsimp only
      generalize (if t.pair then _ else k : Nat) = k2
      have hs := State.memOk_spillTeam s l t k k2 h
      split
      next u hu => rw [hu] at hs; exact State.memOk_ite_of _ (by simpa using hs) (by simpa using hs)
      · rfl

@[simp] theorem State.memOk_spillTeams (s : State) (ts : List Team) (h : s.memOk = true) :
    (s.spillTeams ts).memOk = true := by
  induction ts generalizing s with
  | nil => exact h
  | cons t ts ih =>
    have hs := State.memOk_spillTeamOne s t h
    unfold State.spillTeams
    split
    next u hu => exact ih u (by simpa [hu] using hs)
    · exact hs

@[simp] theorem State.memOk_spillAll (s : State) (site : Site) (h : s.memOk = true) :
    (s.spillAll site).memOk = true := by
  have hs := State.memOk_spillGroups s site.groups h
  unfold State.spillAll
  split
  next u hu => exact State.memOk_spillTeams _ _ (by simpa [hu] using hs)
  · exact hs

@[simp] theorem State.memOk_spillFailed (s : State) (part : Nat) (addr : W64) (k : FailedClaim) :
    (s.spillFailed part addr k).memOk = s.memOk := rfl

@[simp] theorem State.memOk_placeClaim (s : State) (part : Nat) (l : Launch) (cs : List Nat) (h : s.memOk = true) :
    (s.placeClaim part l cs).1.memOk = true := by
  induction cs generalizing s with
  | nil => exact h
  | cons c cs ih =>
    unfold State.placeClaim
    split
    · exact ih s h
    next x _ =>
      split
      · exact State.memOk_lineError _ _ _ h
      · have hs := State.memOk_spillAll s x h
        split
        next u hu => rw [hu] at hs; simpa using hs
        · exact ih _ (by simpa using h)

@[simp] theorem State.memOk_placeNext (s : State) (part : Nat) (l : Launch) (h : s.memOk = true) :
    (s.placeNext part l).1.memOk = true := by
  unfold State.placeNext
  grind [State.memOk_putTeam, State.memOk_placeClaim]

@[simp] theorem State.memOk_placeFirst (s : State) (part : Nat) (ls : List Launch) (h : s.memOk = true) :
    (s.placeFirst part ls).1.memOk = true := by
  induction ls generalizing s with
  | nil => exact h
  | cons l ls ih =>
    have hn := State.memOk_placeNext s part l h
    unfold State.placeFirst
    split
    next u hu => rwa [hu] at hn
    next u hu => rw [hu] at hn; exact ih u hn

@[simp] theorem State.memOk_placeTeam (s : State) (part : Nat) (h : s.memOk = true) :
    (s.placeTeam part).memOk = true := by
  unfold State.placeTeam
  split <;> simp [h]

@[simp] theorem State.memOk_recheckCoop (s : State) (part : Nat) (p : Partition) (l : Launch) (h : s.memOk = true) :
    (s.recheckCoop part p l).memOk = true := by
  simp [State.recheckCoop, h]

@[simp] theorem State.memOk_placeCoop (s : State) (part lid n : Nat) (h : s.memOk = true) :
    (s.placeCoop part lid n).1.memOk = true := by
  induction n generalizing s with
  | zero => exact h
  | succ n ih =>
    unfold State.placeCoop
    split
    · exact h
    next l _ =>
      have hn := State.memOk_placeNext s part l h
      split
      next u hu => rw [hu] at hn; exact ih u hn
      next u hu => rwa [hu] at hn

@[simp] theorem State.memOk_coopPlace (s : State) (part : Nat) (h : s.memOk = true) :
    (s.coopPlace part).memOk = true := by
  unfold State.coopPlace
  split
  · exact h
  next p _ =>
    split
    · exact h
    · split
      · exact State.memOk_recheckCoop _ _ _ _ h
      · split
        · exact h
        next l _ =>
          split
          · exact h
          · have hp := State.memOk_placeCoop s part l.lid (l.record.nteam - l.placed) h
            dsimp only
            split
            · exact State.memOk_lineError _ _ _ h
            · exact State.memOk_ite_of _ hp h

@[simp] theorem State.memOk_loadSlice (s : State) (t : Team) (odd : Bool) (bs : List Byte) (h : s.memOk = true) :
    (s.loadSlice t odd bs).memOk = true := by
  unfold State.loadSlice
  grind [State.memOk_writeAt]

@[simp] theorem State.memOk_dropSlot (s : State) (part lid k : Nat) : (s.dropSlot part lid k).memOk = s.memOk := by
  simp [State.dropSlot]

@[simp] theorem State.memOk_restoreTeam (s : State) (uid : Nat) (h : s.memOk = true) :
    (s.restoreTeam uid).memOk = true := by
  unfold State.restoreTeam
  split
  · exact h
  next t _ =>
    split
    next k l _ _ =>
      refine State.memOk_ite_of _ h ?_
      dsimp only
      split
      next bs bs2 _ _ =>
        have h1 := State.memOk_loadSlice s t false bs h
        have h2 : (if t.pair then (s.loadSlice t false bs).loadSlice t true bs2 else s.loadSlice t false bs).memOk = true :=
          State.memOk_ite_of _ (State.memOk_loadSlice _ _ _ _ h1) h1
        rw [State.memOk_settleBusy]
        exact State.memOk_foldl _ (fun _ _ hs => State.memOk_resumeGroup _ _ hs) _ _ (by simpa using h2)
      · exact State.memOk_lineError _ _ _ h
      · exact State.memOk_lineError _ _ _ h
      · exact h
    · exact h

@[simp] theorem State.memOk_restoreGroup (s : State) (uid : Nat) (h : s.memOk = true) :
    (s.restoreGroup uid).memOk = true := by
  unfold State.restoreGroup
  (repeat' split) <;> simp [h]

@[simp] theorem State.memOk_dropKept (s : State) (part lid : Nat) : (s.dropKept part lid).memOk = s.memOk := by
  simp [State.dropKept]

@[simp] theorem State.memOk_launchOver (s : State) (part lid : Nat) : (s.launchOver part lid).memOk = s.memOk := by
  simp [State.launchOver]

@[simp] theorem State.memOk_teamComplete (s : State) (uid : Nat) (h : s.memOk = true) :
    (s.teamComplete uid).memOk = true := by
  unfold State.teamComplete
  split <;> simp [h]

/-! ## Commands that partitions wait for -/

@[simp] theorem State.memOk_measure (s : State) (i : Nat) (bs : List Byte) : (s.measure i bs).memOk = s.memOk := rfl

@[simp] theorem State.memOk_measureCommand (s : State) (cmd : Nat) (args : List Nat) :
    (s.measureCommand cmd args).memOk = s.memOk := rfl

@[simp] theorem State.memOk_contextsEnded (s : State) (p : Partition) (h : s.memOk = true) :
    (s.contextsEnded p).memOk = true := by
  simp [State.contextsEnded, h]

@[simp] theorem State.memOk_dropChoreos (s : State) : s.dropChoreos.memOk = s.memOk := rfl

@[simp] theorem Package.scrubNext_sleepImage (k : Package) : k.scrubNext.sleepImage = k.sleepImage := by
  unfold Package.scrubNext
  split <;> rfl

@[simp] theorem State.memOk_queueScrub (s : State) (l : List Nat) : (s.queueScrub l).memOk = s.memOk :=
  State.memOk_mk s (Package.scrubNext_sleepImage _)

@[simp] theorem State.memOk_ownPorts (s : State) (ports : BitVec 32) (owner : Nat) :
    (s.ownPorts ports owner).memOk = s.memOk := rfl

@[simp] theorem State.memOk_freshCores (s : State) (clus : BitVec 32) : (s.freshCores clus).memOk = s.memOk := rfl

@[simp] theorem State.memOk_destroyed (s : State) (p : Partition) (h : s.memOk = true) :
    (s.destroyed p).memOk = true := by
  simp [State.destroyed, h]

@[simp] theorem State.memOk_forceOff (s : State) (part : Nat) (h : s.memOk = true) :
    (s.forceOff part).memOk = true := by
  unfold State.forceOff
  split
  · exact h
  · refine State.memOk_foldl _ (fun s l hs => ?_) _ _ h
    exact State.memOk_ite_of _ hs (State.memOk_ite_of _ (State.memOk_endLaunch _ _ _ _ hs)
      (State.memOk_ite_of _ (State.memOk_endLaunch _ _ _ _ hs) hs))

@[simp] theorem State.memOk_coresGone (s : State) (part : Nat) (clus : BitVec 32) :
    (s.coresGone part clus).memOk = s.memOk := by
  simp [State.coresGone]

@[simp] theorem State.memOk_judgeRemove (s : State) (p : Partition) (clus : BitVec 32) (force : Bool)
    (h : s.memOk = true) : (s.judgeRemove p clus force).memOk = true := by
  have hs : ∀ r, (if force then (s.setPart { p with removing := r }).forceOff p.num
      else s.setPart { p with removing := r }).memOk = true := fun r =>
    State.memOk_ite_of _ (State.memOk_forceOff _ _ (by simpa using h)) (by simpa using h)
  unfold State.judgeRemove
  refine iteInduction (motive := fun v => Verdict.memOk v = true) (fun _ => rfl) fun _ => ?_
  dsimp only
  split
  · rfl
  · exact iteInduction (motive := fun v => Verdict.memOk v = true)
      (fun _ => (State.memOk_coresGone ..).trans (hs _)) fun _ => hs _

@[simp] theorem State.memOk_ringFlush (s : State) (part n : Nat) (h : s.memOk = true) :
    (s.ringFlush part n).memOk = true := by
  induction n generalizing s with
  | zero => exact h
  | succ n ih =>
    unfold State.ringFlush
    split
    · exact h
    next p _ =>
      refine State.memOk_ite_of _ h ?_
      split
      next r last rest _ => exact ih _ (by simpa using State.memOk_ringWrite s p r last h)
      · exact State.memOk_ite_of _ h (by simpa using State.memOk_ringWrite s p _ true h)

@[simp] theorem State.memOk_ringCatchUp (s : State) (part : Nat) (h : s.memOk = true) :
    (s.ringCatchUp part).memOk = true := by
  simp [State.ringCatchUp, h]

@[simp] theorem State.memOk_holdGrans (s : State) (l : List Nat) (owner : Nat) :
    (s.holdGrans l owner).memOk = s.memOk := rfl

@[simp] theorem State.memOk_judge (s : State) (p : Partition) (cmd : WaitCmd) (h : s.memOk = true) :
    (s.judge p cmd).memOk = true := by
  unfold State.judge
  split
  · rfl
  · have ht := State.memOk_contextsEnded s p h
    dsimp only
    split
    · exact ht
    · exact State.memOk_destroyed _ _ ht
  · split
    · rfl
    · split
      · exact h
      · simpa using h
  · exact State.memOk_judgeRemove _ _ _ _ h
  · dsimp only
    split
    · rfl
    · split
      · exact h
      · exact State.memOk_ringCatchUp _ _ (by simpa using h)
  · split
    · rfl
    · split
      · exact h
      · simpa using h
  · dsimp only
    split
    · rfl
    · split
      · exact h
      · simpa using h

@[simp] theorem State.memOk_replied (s : State) (r : Reply) : (s.replied r).memOk = s.memOk := rfl

@[simp] theorem State.memOk_dropHead (s : State) (part : Nat) : (s.dropHead part).memOk = s.memOk := by
  simp [State.dropHead]

@[simp] theorem State.memOk_markHead (s : State) (part : Nat) : (s.markHead part).memOk = s.memOk := by
  simp [State.markHead]

@[simp] theorem State.memOk_headCommand (s : State) (part : Nat) (h : s.memOk = true) :
    (s.headCommand part).memOk = true := by
  unfold State.headCommand
  split
  · exact h
  next p _ =>
    split
    · exact h
    next c accepted _ _ =>
      have hj := State.memOk_judge s p c h
      dsimp only
      split
      · simpa using h
      next u hu => rw [hu] at hj; simpa using hj
      next u hu => rw [hu] at hj; simpa using hj

@[simp] theorem State.memOk_removeComplete (s : State) (part : Nat) (h : s.memOk = true) :
    (s.removeComplete part).memOk = true := by
  unfold State.removeComplete
  (repeat' split) <;> simp [h]

/-! ## What arrives over the fabric -/

@[simp] theorem State.memOk_acceptStep (s : State) (cn role : Nat) (h : s.memOk = true) :
    (s.acceptStep cn role).all State.memOk = true := by
  unfold State.acceptStep
  split <;> simp [h]

@[simp] theorem State.memOk_completePart (s : State) (cn ex party : Nat) (h : s.memOk = true) :
    (s.completePart cn ex party).memOk = true := by
  unfold State.completePart
  (repeat' split) <;> simp [h]

@[simp] theorem memOk_refusedBy (c : Cause) : (refusedBy c).memOk = true := rfl

@[simp] theorem State.memOk_viaPort (s : State) (pl : Place) : (s.viaPort pl).memOk = s.memOk := by
  unfold State.viaPort
  split <;> rfl

@[simp] theorem State.memOk_bumpFlag (s : State) (pl : Place) (h : s.memOk = true) : (s.bumpFlag pl).memOk = true := by
  unfold State.bumpFlag
  grind [State.memOk_viaPort, State.memOk_writeAt]

@[simp] theorem State.memOk_remoteAppend (s : State) (part ctx size : Nat) (th : PktThread) (h : s.memOk = true) :
    (s.remoteAppend part ctx size th).memOk = true := by
  unfold State.remoteAppend
  split
  · rfl
  · split
    · rfl
    · rfl
    · split
      · rfl
      next pl _ _ _ =>
        dsimp only
        split
        · rfl
        · split
          · rfl
          · rfl
          · have hw : ∀ n, (s.writeAt pl (leBytes 8 n)).memOk = true := fun _ => State.memOk_writeAt _ _ _ h
            split
            · exact hw _
            · split
              · exact hw _
              · exact hw _
              · have hr : ∀ n row bs, ((s.writeAt pl (leBytes 8 n)).writeAt row bs).memOk = true := fun _ _ _ =>
                  State.memOk_writeAt _ _ _ (hw _)
                dsimp only [Remote.memOk]
                split
                · exact State.memOk_bumpFlag _ _ (hr _ _ _)
                · exact hr _ _ _

@[simp] theorem State.memOk_remoteThread (s : State) (p : Packet) (th : PktThread) (h : s.memOk = true) :
    (s.remoteThread p th).memOk = true := by
  have hv : ∀ pl bs, ((s.writeAt pl bs).viaPort pl).memOk = true := fun pl bs => by
    rw [State.memOk_viaPort]; exact State.memOk_writeAt _ _ _ h
  unfold State.remoteThread
  dsimp only
  split
  · split
    · rfl
    · rfl
    · exact hv _ _
  · split
    · rfl
    · rfl
    · split
      · rfl
      · simpa using h
  · split
    · rfl
    · rfl
    · split
      · rfl
      · exact hv _ _
  · exact State.memOk_remoteAppend _ _ _ _ _ h
  · split
    · rfl
    · rfl
    · exact State.memOk_ite_of _ h (State.memOk_writeRange _ _ _ h)
  · split
    · rfl
    · rfl
    · split
      · rfl
      · exact h

@[simp] theorem State.memOk_remoteThreads (s : State) (p : Packet) (ths : List PktThread) (h : s.memOk = true) :
    (s.remoteThreads p ths).1.memOk = true := by
  induction ths generalizing s with
  | nil => exact h
  | cons th ths ih =>
    unfold State.remoteThreads
    dsimp only
    split
    · exact ih s h
    · have hr := State.memOk_remoteThread s p th h
      split
      · exact ih s h
      · exact ih _ (State.memOk_lineError _ _ _ h)
      next u l hu =>
        refine ih _ (State.memOk_lineError _ _ _ ?_)
        split at hu
        · cases hu
        · cases hu
        · rwa [hu] at hr
      next u ans hu =>
        refine ih _ ?_
        split at hu
        · cases hu
        · cases hu
        · rwa [hu] at hr

@[simp] theorem State.memOk_setFilter (s : State) (f : Filter) : (s.setFilter f).memOk = s.memOk := rfl

@[simp] theorem State.memOk_countFlags (s : State) (f : Filter) (h : s.memOk = true) :
    (s.countFlags f).memOk = true := by
  unfold State.countFlags
  dsimp only
  rw [State.memOk_setFilter]
  refine State.memOk_foldl _ (fun s e hs => ?_) _ _ h
  split
  · split
    · exact State.memOk_bumpFlag _ _ hs
    · exact State.memOk_lineError _ _ _ hs
    · exact hs
  · exact hs

@[simp] theorem State.memOk_receive (s : State) (p : Packet) (h : s.memOk = true) : (s.receive p).1.memOk = true := by
  unfold State.receive
  grind [State.memOk_remoteThreads, State.memOk_countFlags]

@[simp] theorem State.memOk_remoteArrive (s : State) (p : Packet) (h : s.memOk = true) :
    (s.remoteArrive p).memOk = true := by
  unfold State.remoteArrive
  (repeat' split) <;> simp [h]

@[simp] theorem State.memOk_settleRemote (s : State) (r : FabReq) (answers : List PktAnswer) :
    (s.settleRemote r answers).memOk = s.memOk := rfl

@[simp] theorem State.memOk_retGen (s : State) (r : FabReq) (res : Result) : (s.retGen r res).memOk = s.memOk := rfl

@[simp] theorem State.memOk_takeAnswers (s : State) (r : FabReq) (answers : List PktAnswer) :
    (s.takeAnswers r answers).memOk = s.memOk := by
  unfold State.takeAnswers
  dsimp only
  split
  · simp
  · split
    · simp
    · split
      · split
        · split <;> simp
        · simp
      · simp

@[simp] theorem State.memOk_writeSide (s : State) (e : EngEntry) (dsp dst : Nat) (bs : List Byte) (h : s.memOk = true) :
    (s.writeSide e dsp dst bs).memOk = true := by
  unfold State.writeSide
  split
  · rfl
  · exact State.memOk_writeRange _ _ _ h
  · refine State.memOk_foldl _ (fun s u hs => ?_) _ _ h
    obtain ⟨off, k⟩ := u
    dsimp only
    split
    · exact State.memOk_ite_of _ (State.memOk_writeRange _ _ _ hs) hs
    · exact hs

@[simp] theorem State.memOk_writeUnits (s : State) (e : EngEntry) (dsp dst : Nat) (answers : List PktAnswer)
    (h : s.memOk = true) : (s.writeUnits e dsp dst answers).memOk = true := by
  refine State.memOk_foldl _ (fun s a hs => ?_) _ _ h
  split
  · exact State.memOk_ite_of _ (State.memOk_writeRange _ _ _ hs) hs
  · exact hs

@[simp] theorem State.memOk_answered (s : State) (e : EngEntry) (r : FabReq) (answers : List PktAnswer) (dsp dst : Nat)
    (h : s.memOk = true) : (s.answered e r answers dsp dst).memOk = true := by
  unfold State.answered
  split
  · exact State.memOk_writeSide _ _ _ _ _ h
  · exact State.memOk_writeUnits _ _ _ _ _ h
  · exact h

theorem State.memOk_unitsAnswer (s : State) (core slot : Nat) (e : EngEntry) (ab : Nat) (c : Copied)
    (h : s.memOk = true) (hc : c.memOk = true) : (s.unitsAnswer core slot e ab c).memOk = true := by
  cases c with
  | poison l => exact State.memOk_consumeEngine _ _ _ h
  | done t f n => exact State.memOk_ite_of _ (by simpa using hc) (State.memOk_copyOver _ _ _ _ _ _ hc hc)

@[simp] theorem State.memOk_answeredUnits (s : State) (e : EngEntry) (r : FabReq) (answers : List PktAnswer)
    (dsp dst : Nat) (h : s.memOk = true) : (s.answeredUnits e r answers dsp dst).memOk = true := by
  unfold State.answeredUnits
  (repeat' split) <;> simp [h]

@[simp] theorem State.memOk_copyAnswer (s : State) (r : FabReq) (core slot : Nat) (answers : List PktAnswer)
    (h : s.memOk = true) : (s.copyAnswer r core slot answers).memOk = true := by
  have hf : ∀ f, State.memOk { s with fabric := f } = true := fun _ => h
  unfold State.copyAnswer
  dsimp only
  split
  · exact h
  · refine State.memOk_ite_of _ (hf _) ?_
    split
    · exact State.memOk_ite_of _ (State.memOk_copyOver _ _ _ _ _ _ (hf _) (State.memOk_answered _ _ _ _ _ _ (hf _)))
        (State.memOk_unitsAnswer _ _ _ _ _ _ (hf _) (State.memOk_answeredUnits _ _ _ _ _ _ (hf _)))
    · exact State.memOk_fillOver _ _ _ _ _ _ _ (hf _) (State.memOk_answered _ _ _ _ _ _ (hf _))
    · exact hf _

@[simp] theorem State.memOk_answer (s : State) (r : FabReq) (answers : List PktAnswer) (h : s.memOk = true) :
    (s.answer r answers).memOk = true := by
  unfold State.answer
  split <;> simp [h]

@[simp] theorem State.memOk_remoteAck (s : State) (req : Nat) (answers : List PktAnswer) (h : s.memOk = true) :
    (s.remoteAck req answers).memOk = true := by
  unfold State.remoteAck
  (repeat' split) <;> simp [h]

@[simp] theorem State.memOk_updPort (s : State) (k : Nat) (f : Port → Port) : (s.updPort k f).memOk = s.memOk := by
  unfold State.updPort
  split <;> rfl

@[simp] theorem State.memOk_sendAgain (s : State) (r : FabReq) (counted : Bool) :
    (s.sendAgain r counted).memOk = s.memOk := by
  simp [State.sendAgain]

@[simp] theorem State.memOk_remoteResend (s : State) (req : Nat) (h : s.memOk = true) :
    (s.remoteResend req).memOk = true := by
  unfold State.remoteResend
  split <;> simp [h]

@[simp] theorem State.memOk_portDown (s : State) (k lanes : Nat) : (s.portDown k lanes).memOk = s.memOk := by
  unfold State.portDown
  split <;> simp

@[simp] theorem State.memOk_portUp (s : State) (k lanes : Nat) : (s.portUp k lanes).memOk = s.memOk := by
  unfold State.portUp
  split <;> simp

/-! ## Service calls -/

@[simp] theorem State.memOk_svcRet (s : State) (part cc : Nat) (status : Int) (v : W64) :
    (s.svcRet part cc status v).memOk = s.memOk := rfl

theorem State.memOk_endCall (s : State) (c : Call) (e : CallEnd) (h : s.memOk = true) (he : e.memOk = true) :
    (s.endCall c e).memOk = true := by
  cases e with
  | done t v => simpa [State.endCall] using he
  | pending t v => simpa [State.endCall] using he
  | refused st v => simpa [State.endCall] using h
  | poison l => simpa [State.endCall] using State.memOk_lineError s l none h

theorem State.memOk_service (s : State) (c : Call) (f : Partition → CallEnd) (hf : ∀ p, (f p).memOk = true)
    (h : s.memOk = true) : (s.service c f).memOk = true := by
  unfold State.service
  split
  · exact h
  · exact State.memOk_ite_of _ h (State.memOk_ite_of _ (by simpa using h)
      (State.memOk_ite_of _ h (State.memOk_endCall _ _ _ h (hf _))))

@[simp] theorem State.memOk_ctxCreate (s : State) (c : Call) (p : Partition) (h : s.memOk = true) :
    (s.ctxCreate c p).memOk = true := by
  unfold State.ctxCreate
  refine iteInduction (motive := fun v => CallEnd.memOk v = true) (fun _ => rfl) fun _ => ?_
  exact iteInduction (motive := fun v => CallEnd.memOk v = true) (fun _ => rfl) fun _ => h

@[simp] theorem State.memOk_ctxDestroy (s : State) (c : Call) (p : Partition) (h : s.memOk = true) :
    (s.ctxDestroy c p).memOk = true := by
  unfold State.ctxDestroy
  dsimp only
  split
  · rfl
  · split
    · rfl
    · split
      · rfl
      · simpa using State.memOk_terminateWorlds s _ _ h

@[simp] theorem State.memOk_ctxRoot (s : State) (c : Call) (p : Partition) (h : s.memOk = true) :
    (s.ctxRoot c p).memOk = true := by
  unfold State.ctxRoot
  exact iteInduction (motive := fun v => CallEnd.memOk v = true) (fun _ => rfl) fun _ => h

@[simp] theorem State.memOk_untrapSpilled (s : State) (l : Launch) (g : Group) (k : Nat) (skip : Bool)
    (h : s.memOk = true) : (s.untrapSpilled l g k skip).memOk = true := by
  unfold State.untrapSpilled
  split
  · rfl
  · rfl
  next bs _ =>
    have hm : (if skip || s.replayHeld (s.loadGroup g bs) then s else
        s.moveSent (s.loadGroup g bs).uid (s.loadGroup g bs).replaySet).memOk = true :=
      State.memOk_ite_of _ h (by simpa using h)
    have hs := State.memOk_spillGroup _ l (s.untrapped (s.loadGroup g bs) skip) k hm
    dsimp only
    split
    next u hu => rw [hu] at hs; simpa using hs
    · rfl

@[simp] theorem State.memOk_groupResume (s : State) (c : Call) (p : Partition) (h : s.memOk = true) :
    (s.groupResume c p).memOk = true := by
  unfold State.groupResume
  refine iteInduction (motive := fun v => CallEnd.memOk v = true) (fun _ => rfl) fun _ => ?_
  dsimp only
  split
  · rfl
  · split
    · rfl
    next g _ =>
      split
      · split
        · simpa using State.memOk_exitGroup _ g (by simpa using h)
        · simpa using State.memOk_exitGroup _ g h
      · rfl
      · split
        · exact State.memOk_untrapSpilled _ _ _ _ _ h
        · refine iteInduction (motive := fun v => CallEnd.memOk v = true) (fun _ => ?_) fun _ => ?_
          · exact (State.memOk_settleBusy ..).trans (State.memOk_ite_of _ h (by simpa using h))
          · exact State.memOk_ite_of _ h (State.memOk_startReplay _ _ h)

@[simp] theorem State.memOk_choreoLoad (s : State) (c : Call) (p : Partition) (h : s.memOk = true) :
    (s.choreoLoad c p).memOk = true := by
  unfold State.choreoLoad
  (repeat' split) <;> simp [h]

@[simp] theorem State.memOk_choreoUnload (s : State) (c : Call) (p : Partition) (h : s.memOk = true) :
    (s.choreoUnload c p).memOk = true := by
  unfold State.choreoUnload
  (repeat' split) <;> simp [h]

@[simp] theorem State.memOk_measurePart (s : State) (part i : Nat) (bs : List Byte) :
    (s.measurePart part i bs).memOk = s.memOk := by
  simp [State.measurePart]

@[simp] theorem State.memOk_claim (s : State) (part : Nat) (k : Choreo) (x : PendConv) (m : Nat) (ticket : BitVec 32)
    (h : s.memOk = true) : (s.claim part k x m ticket).memOk = true := by
  unfold State.claim
  refine iteInduction (motive := fun v => CallEnd.memOk v = true) (fun _ => rfl) fun _ => ?_
  refine iteInduction (motive := fun v => CallEnd.memOk v = true) (fun _ => h) fun _ => ?_
  exact (State.memOk_measurePart ..).trans h

@[simp] theorem State.memOk_convCreate (s : State) (c : Call) (p : Partition) (h : s.memOk = true) :
    (s.convCreate c p).memOk = true := by
  have hc := fun k x m t => State.memOk_claim s p.num k x m t h
  unfold State.convCreate
  refine iteInduction (motive := fun v => CallEnd.memOk v = true) (fun _ => rfl) fun _ => ?_
  refine iteInduction (motive := fun v => CallEnd.memOk v = true) (fun _ => rfl) fun _ => ?_
  split
  · rfl
  · split
    · rfl
    · refine iteInduction (motive := fun v => CallEnd.memOk v = true) (fun _ => rfl) fun _ => ?_
      split
      · exact hc _ _ _ _
      · dsimp only
        split
        · rfl
        · exact iteInduction (motive := fun v => CallEnd.memOk v = true) (fun _ => rfl) fun _ => hc _ _ _ _

@[simp] theorem State.memOk_dropPending (s : State) (n : Nat) : (s.dropPending n).memOk = s.memOk := rfl

@[simp] theorem State.memOk_convDestroy (s : State) (c : Call) (p : Partition) (h : s.memOk = true) :
    (s.convDestroy c p).memOk = true := by
  unfold State.convDestroy
  (repeat' split) <;> simp [h]

@[simp] theorem State.memOk_updChannel (s : State) (k : Nat) (f : Channel → Channel) :
    (s.updChannel k f).memOk = s.memOk := by
  unfold State.updChannel
  split <;> rfl

@[simp] theorem State.memOk_chanKey (s : State) (c : Call) (p : Partition) (h : s.memOk = true) :
    (s.chanKey c p).memOk = true := by
  unfold State.chanKey
  refine iteInduction (motive := fun v => CallEnd.memOk v = true) (fun _ => rfl) fun _ => ?_
  split
  · rfl
  · exact State.memOk_writePart _ _ _ _ (by simpa using h)

@[simp] theorem State.memOk_measExtend (s : State) (c : Call) (p : Partition) (h : s.memOk = true) :
    (s.measExtend c p).memOk = true := by
  unfold State.measExtend
  (repeat' split) <;> simp [h]

@[simp] theorem State.memOk_tensorOpen (s : State) (call : Call) (p : Partition) (h : s.memOk = true) :
    (s.tensorOpen call p).memOk = true := by
  unfold State.tensorOpen
  split
  · rfl
  · exact iteInduction (motive := fun v => CallEnd.memOk v = true) (fun _ => rfl) fun _ => h

@[simp] theorem State.memOk_castSlot (s : State) (slot : Nat) : (s.castSlot slot).memOk = s.memOk := rfl

@[simp] theorem State.memOk_tensorBump (s : State) (c : Call) (p : Partition) (h : s.memOk = true) :
    (s.tensorBump c p).memOk = true := by
  unfold State.tensorBump
  (repeat' split) <;> simp [h]

@[simp] theorem State.memOk_tensorClose (s : State) (c : Call) (p : Partition) (h : s.memOk = true) :
    (s.tensorClose c p).memOk = true := by
  unfold State.tensorClose
  (repeat' split) <;> simp [h]

/-! ## Management commands -/

@[simp] theorem State.memOk_invalidate (s : State) (part scope ctx : Nat) :
    (s.invalidate part scope ctx).memOk = s.memOk := by
  simp [State.invalidate]

@[simp] theorem State.memOk_releaseAbove (s : State) (p : Partition) (h : s.memOk = true) :
    (s.releaseAbove p).memOk = true := by
  simp [State.releaseAbove, h]

@[simp] theorem State.memOk_invalidated (s : State) (part : Nat) (h : s.memOk = true) :
    (s.invalidated part).memOk = true := by
  unfold State.invalidated
  split <;> simp [h]

@[simp] theorem State.memOk_ringConfig (s : State) (part : Nat) (isBase : Bool) (v : W64) (h : s.memOk = true) :
    (s.ringConfig part isBase v).memOk = true := by
  simp [State.ringConfig, h]

@[simp] theorem State.memOk_ringTailWrite (s : State) (part : Nat) (v : W64) (h : s.memOk = true) :
    (s.ringTailWrite part v).memOk = true := by
  simp [State.ringTailWrite, h]

@[simp] theorem State.memOk_loadImage (s : State) (p : Partition) (h : s.memOk = true) :
    (s.loadImage p).memOk = true := by
  unfold State.loadImage
  grind [State.memOk_writePart]

@[simp] theorem State.memOk_created (s : State) (num : Nat) (clus ccs : BitVec 32) (base gran : Nat) (ports : BitVec 32)
    (image : List Byte) (h : s.memOk = true) : (s.created num clus ccs base gran ports image).memOk = true := by
  simp [State.created, h]

@[simp] theorem State.memOk_judgeCreate (s : State) (clus ccs : BitVec 32) (gran : Nat) (ports : BitVec 32)
    (image : List Byte) (h : s.memOk = true) : (s.judgeCreate clus ccs gran ports image).memOk = true := by
  unfold State.judgeCreate
  (repeat' split) <;> simp [h]

@[simp] theorem State.memOk_commandDone (s : State) (cmd : Nat) (args : List Nat) :
    (s.commandDone cmd args).memOk = s.memOk := rfl

@[simp] theorem State.memOk_createCommand (s : State) (clus ccs : BitVec 32) (gran : Nat) (ports : BitVec 32)
    (image : List Byte) (h : s.memOk = true) : (s.createCommand clus ccs gran ports image).memOk = true := by
  have hj := State.memOk_judgeCreate s clus ccs gran ports image h
  unfold State.createCommand
  refine State.memOk_ite_of _ h ?_
  dsimp only
  split
  · simpa using h
  next u hu => rw [hu] at hj; simpa using hj
  next u hu => rw [hu] at hj; simpa using hj

/-- A sleep image with other contents beside its slices. -/
theorem State.memOk_sleepImage_slices (s : State) (x y : SleepImage) (hx : s.pkg.sleepImage = some x)
    (hy : y.slices = x.slices) (h : s.memOk = true) :
    State.memOk { s with pkg := { s.pkg with sleepImage := some y } } = true := by
  simp only [State.memOk, Package.savedOk, hx, hy] at h ⊢
  exact h

@[simp] theorem State.memOk_partCommand (s : State) (part : Nat) (c : WaitCmd) (h : s.memOk = true) :
    (s.partCommand part c).memOk = true := by
  unfold State.partCommand
  refine State.memOk_ite_of _ h ?_
  split
  · split
    next x hx =>
      exact State.memOk_ite_of _ ((State.memOk_replied ..).trans (State.memOk_sleepImage_slices s x _ hx rfl h))
        (by simpa using h)
    · simpa using h
  · exact State.memOk_ite_of _ (State.memOk_headCommand _ _ (by simpa using h)) (by simpa using h)

@[simp] theorem State.memOk_sleep (s : State) (force : Bool) (h : s.memOk = true) : (s.sleep force).memOk = true := by
  unfold State.sleep
  refine State.memOk_ite_of _ h (State.memOk_ite_of _ (by simpa using h) ?_)
  refine State.memOk_sleepIfDue _ (State.memOk_foldl _ (fun s x hs => ?_) _ _ ?_)
  · exact (State.memOk_settleBusy ..).trans (State.memOk_preemptLaunch _ _ _ hs)
  · exact State.memOk_foldl _ (fun _ _ hs => State.memOk_endLaunch _ _ _ _ hs) _ _ h

@[simp] theorem State.memOk_wakemode (s : State) (mode : W64) : (s.wakemode mode).memOk = s.memOk := by
  simp [State.wakemode]

@[simp] theorem State.memOk_retireGran (s : State) (i : Nat) : (s.retireGran i).memOk = s.memOk := by
  simp [State.retireGran]

@[simp] theorem State.memOk_granRetire (s : State) (i : Nat) : (s.granRetire i).memOk = s.memOk := by
  unfold State.granRetire
  (repeat' split) <;> simp

theorem State.memOk_firmware (s : State) (cmd : Nat) (args : List Nat) (ok : Bool) (eff : State → State)
    (he : ∀ s, s.memOk = true → (eff s).memOk = true) (h : s.memOk = true) :
    (s.firmware cmd args ok eff).memOk = true :=
  State.memOk_ite_of _ h (State.memOk_ite_of _ ((State.memOk_commandDone ..).trans (he s h)) (by simpa using h))

@[simp] theorem State.memOk_fwWrite (s : State) (off : Nat) (bs : List Byte) (h : s.memOk = true) :
    (s.fwWrite off bs).memOk = true := State.memOk_firmware _ _ _ _ _ (fun _ hs => hs) h

@[simp] theorem State.memOk_fwCheck (s : State) : s.fwCheck.memOk = s.memOk := by
  unfold State.fwCheck
  (repeat' split) <;> simp

@[simp] theorem State.memOk_firmwareRecord (s : State) : s.firmwareRecord.memOk = s.memOk := by
  simp [State.firmwareRecord]

@[simp] theorem State.memOk_fwCommit (s : State) (h : s.memOk = true) : s.fwCommit.memOk = true :=
  State.memOk_firmware _ _ _ _ _ (fun _ hs => (State.memOk_firmwareRecord _).trans hs) h

@[simp] theorem State.memOk_fwSvn (s : State) (v : BitVec 32) (h : s.memOk = true) : (s.fwSvn v).memOk = true :=
  State.memOk_firmware _ _ _ _ _ (fun _ hs => (State.memOk_firmwareRecord _).trans hs) h

@[simp] theorem State.memOk_fwRevoke (s : State) (key : Nat) (h : s.memOk = true) : (s.fwRevoke key).memOk = true :=
  State.memOk_firmware _ _ _ _ _ (fun _ hs => (State.memOk_firmwareRecord _).trans hs) h

@[simp] theorem State.memOk_resumeCreate (s : State) (cs : List WaitCmd) (h : s.memOk = true) :
    (s.resumeCreate cs).memOk = true := by
  induction cs with
  | nil => exact h
  | cons c cs ih =>
    unfold State.resumeCreate
    split
    next clus ccs gran ports image =>
      have hj := State.memOk_judgeCreate s clus ccs gran ports image h
      split
      · exact ih
      · simpa using h
      next u hu => rw [hu] at hj; simpa using hj
    · exact ih

@[simp] theorem State.memOk_waitingResume (s : State) (part : Nat) (h : s.memOk = true) :
    (s.waitingResume part).memOk = true := by
  unfold State.waitingResume
  split <;> simp [h]

/-- The state with other canonical bytes in HBM. -/
theorem State.memOk_hbm (s : State) (m : Memory) (h : s.memOk = true) (hm : m.wf = true) :
    State.memOk { s with hbm := m } = true := by
  simp only [State.memOk, Bool.and_eq_true] at h ⊢
  exact ⟨⟨hm, h.1.2⟩, h.2⟩

theorem State.hbm_wf (s : State) (h : s.memOk = true) : s.hbm.wf = true := by
  simp only [State.memOk, Bool.and_eq_true] at h
  exact h.1.1

@[simp] theorem State.memOk_scrubDone (s : State) (fails : Bool) (h : s.memOk = true) :
    (s.scrubDone fails).memOk = true := by
  unfold State.scrubDone
  split
  · exact h
  next i rest _ =>
    have hc := State.memOk_hbm s _ h (Memory.wf_clear s.hbm (gib * i) gib (State.hbm_wf s h))
    refine (State.memOk_mk _ (Package.scrubNext_sleepImage _)).trans ?_
    exact State.memOk_ite_of _ ((State.memOk_retireGran ..).trans hc) hc

/-! ## Errors, sensors and registers -/

@[simp] theorem State.memOk_poisonReg (s : State) (site : ErrSite) : (s.poisonReg site).memOk = s.memOk := by
  unfold State.poisonReg
  (repeat' split) <;> simp

@[simp] theorem State.memOk_corrected (s : State) (c : Nat) : (s.corrected c).memOk = s.memOk := by
  simp [State.corrected]

@[simp] theorem State.memOk_restartCore (s : State) (site : ErrSite) (h : s.memOk = true) :
    (s.restartCore site).memOk = true := by
  unfold State.restartCore
  (repeat' split) <;> simp [h]

@[simp] theorem State.memOk_outOfService (s : State) (site : ErrSite) (cut : List Nat) (rep : Nat) (h : s.memOk = true) :
    (s.outOfService site cut rep).memOk = true := by
  simp [State.outOfService, h]

@[simp] theorem State.memOk_clearLine (s : State) (site : ErrSite) (h : s.memOk = true) :
    (s.clearLine site).memOk = true := by
  unfold State.clearLine
  grind [State.memOk_clearSlices]

@[simp] theorem State.memOk_uncorrectable (s : State) (site : ErrSite) (h : s.memOk = true) :
    (s.uncorrectable site).memOk = true := by
  unfold State.uncorrectable
  refine State.memOk_ite_of _ h (State.memOk_ite_of _ ((State.memOk_poisonReg ..).trans h) (State.memOk_ite_of _ ?_
    (State.memOk_ite_of _ ?_ (State.memOk_ite_of _ (State.memOk_lineError _ _ _ h) (State.memOk_ite_of _ ?_
    (State.memOk_ite_of _ h ?_))))))
  · exact (State.memOk_corrected ..).trans h
  · exact (State.memOk_corrected ..).trans (State.memOk_ite_of _ h h)
  · exact (State.memOk_errPush ..).trans h
  · exact State.memOk_restartCore _ _ (State.memOk_outOfService _ _ _ _
      (State.memOk_clearLine _ _ (State.memOk_contain _ _ _ _ _ _ _ _ _ _ h)))

/-- A package without power holds nothing in its memories, and has no sleep image. -/
@[simp] theorem State.memOk_stopped (s : State) : s.stopped.memOk = true := rfl

@[simp] theorem State.memOk_trip (s : State) : s.trip.memOk = true := State.memOk_stopped _

@[simp] theorem State.memOk_tripIfRoom (s : State) (h : s.memOk = true) : s.tripIfRoom.memOk = true :=
  State.memOk_ite_of _ (State.memOk_trip s) h

@[simp] theorem State.memOk_errFlush (s : State) (n : Nat) : (s.errFlush n).memOk = s.memOk := by
  induction n generalizing s with
  | zero => rfl
  | succ n ih =>
    unfold State.errFlush
    split
    · rfl
    · split
      · exact ih _
      · split
        · rfl
        · exact State.memOk_errPush ..

@[simp] theorem State.memOk_errCatchUp (s : State) : s.errCatchUp.memOk = s.memOk := State.memOk_errFlush s 258

@[simp] theorem State.memOk_errConfig (s : State) (isBase : Bool) (v : W64) (h : s.memOk = true) :
    (s.errConfig isBase v).memOk = true :=
  State.memOk_ite_of _ h (State.memOk_tripIfRoom _ ((State.memOk_errCatchUp _).trans h))

@[simp] theorem State.memOk_errTailSet (s : State) (v : W64) (h : s.memOk = true) : (s.errTailSet v).memOk = true :=
  State.memOk_tripIfRoom _ ((State.memOk_errCatchUp _).trans h)

/-- What the sensors say sets clocks and demands, and leaves the sleep image. -/
theorem Package.powerStep_sleepImage (k : Package) (x : ThermalSample) : (k.powerStep x).sleepImage = k.sleepImage :=
  Package.sleepImage_ite _ rfl (Package.sleepImage_ite _ rfl rfl)

theorem Package.thermalStep_sleepImage (k : Package) (x : ThermalSample) :
    (k.thermalStep x).sleepImage = k.sleepImage :=
  Package.sleepImage_ite _ rfl (Package.sleepImage_ite _ rfl rfl)

theorem Package.coolantStep_sleepImage (k : Package) (x : ThermalSample) :
    (k.coolantStep x).sleepImage = k.sleepImage := rfl

theorem Package.sensed_sleepImage (k : Package) (x : ThermalSample) : (k.sensed x).sleepImage = k.sleepImage := rfl

@[simp] theorem State.memOk_clockEvaluation (s : State) (smp : ThermalSample) (h : s.memOk = true) :
    (s.clockEvaluation smp).memOk = true := by
  have hn : ((((s.pkg.sensed smp).powerStep smp).thermalStep smp).coolantStep smp).sleepImage = s.pkg.sleepImage := by
    rw [Package.coolantStep_sleepImage, Package.thermalStep_sleepImage, Package.powerStep_sleepImage,
      Package.sensed_sleepImage]
  unfold State.clockEvaluation
  dsimp only
  generalize ((((s.pkg.sensed smp).powerStep smp).thermalStep smp).coolantStep smp) = n at hn
  have hk : ∀ step, State.memOk { s with pkg := n.clocked step } = true := fun step => by
    rw [State.memOk_mk s (pkg := n.clocked step) hn, h]
  refine State.memOk_ite_of _ h ?_
  refine State.memOk_ite_of _ (State.memOk_trip _) (State.memOk_ite_of _ ?_ (State.memOk_ite_of _ ?_ (hk _)))
  · exact State.memOk_ite_of _ (State.memOk_trip _) (hk (if n.stage = 1 then 2 else n.demand))
  · exact (State.memOk_errPush ..).trans (hk _)

@[simp] theorem State.memOk_writeControl (s : State) (part off : Nat) (v : W64) (h : s.memOk = true) :
    (s.writeControl part off v).memOk = true := by
  unfold State.writeControl
  split <;> simp [h]

@[simp] theorem State.memOk_writeCmd (s : State) (part : Nat) (v : W64) (h : s.memOk = true) :
    (s.writeCmd part v).memOk = true := by
  unfold State.writeCmd
  split <;> simp [h]

@[simp] theorem State.memOk_writeLaunch (s : State) (part off : Nat) (v : W64) (h : s.memOk = true) :
    (s.writeLaunch part off v).memOk = true := by
  unfold State.writeLaunch
  split <;> simp [h]

@[simp] theorem State.memOk_coldWrite (s : State) (v : W64) : (s.coldWrite v).memOk = s.memOk := by
  simp [State.coldWrite]

@[simp] theorem State.memOk_writeFleet (s : State) (off : Nat) (v : W64) (h : s.memOk = true) :
    (s.writeFleet off v).memOk = true := by
  unfold State.writeFleet
  (repeat' split) <;> simp [h]

@[simp] theorem State.memOk_regWrite (s : State) (b : RegBlock) (off : Nat) (v : W64) (h : s.memOk = true) :
    (s.regWrite b off v).memOk = true := by
  unfold State.regWrite
  (repeat' split) <;> simp [h]

/-! ## Starts, sleep and resets -/

@[simp] theorem State.memOk_measureStart (s : State) (f : Flash) : (s.measureStart f).memOk = s.memOk := by
  simp [State.measureStart]

/-- A cold start begins with nothing in the memories (R302, R308). -/
@[simp] theorem State.memOk_coldStart (s : State) : s.coldStart.memOk = true := by
  unfold State.coldStart
  refine State.memOk_ite_of _ rfl ?_
  split
  · rfl
  · exact State.memOk_measureStart ..

@[simp] theorem State.memOk_degradedRecords (s : State) : s.degradedRecords.memOk = s.memOk := by
  simp [State.degradedRecords]

@[simp] theorem State.memOk_replayCall (s : State) (c : Call) (h : s.memOk = true) : (s.replayCall c).memOk = true := by
  refine State.memOk_service _ _ _ (fun p => ?_) h
  split
  · exact State.memOk_ctxCreate _ _ _ h
  · exact State.memOk_ctxDestroy _ _ _ h
  · exact State.memOk_ctxRoot _ _ _ h
  · exact State.memOk_groupResume _ _ _ h
  · exact State.memOk_choreoLoad _ _ _ h
  · exact State.memOk_choreoUnload _ _ _ h
  · exact State.memOk_convCreate _ _ _ h
  · exact State.memOk_convDestroy _ _ _ h
  · exact State.memOk_chanKey _ _ _ h
  · exact State.memOk_measExtend _ _ _ h
  · exact State.memOk_tensorOpen _ _ _ h
  · refine iteInduction (motive := fun v => CallEnd.memOk v = true) (fun _ => State.memOk_tensorBump _ _ _ h) fun _ => ?_
    exact iteInduction (motive := fun v => CallEnd.memOk v = true) (fun _ => State.memOk_tensorClose _ _ _ h) fun _ => rfl
  · rfl

@[simp] theorem State.memOk_wakeUp (s : State) (h : s.memOk = true) : s.wakeUp.memOk = true := by
  unfold State.wakeUp
  refine State.memOk_ite_of _ h ?_
  dsimp only
  split
  · exact State.memOk_coldStart s
  next x hx =>
    refine State.memOk_ite_of _ (State.memOk_coldStart s) ?_
    refine State.memOk_foldl _ (fun _ _ hs => State.memOk_replayCall _ _ hs) _ _ ?_
    refine State.memOk_foldl _ (fun _ _ hs => (State.memOk_settleBusy ..).trans (State.memOk_resumeLaunch _ _ _ hs)) _ _ ?_
    have hw := State.memOk_awakened s x h hx
    exact State.memOk_ite_of _ ((State.memOk_degradedRecords _).trans hw) hw

@[simp] theorem State.memOk_wake (s : State) (h : s.memOk = true) : s.wake.memOk = true := by
  unfold State.wake
  dsimp only
  split
  · exact State.memOk_coldStart s
  · exact State.memOk_ite_of _ (State.memOk_coldStart s) (State.memOk_wakeUp _ ((State.memOk_measure ..).trans h))

@[simp] theorem State.memOk_perstUp (s : State) (h : s.memOk = true) : s.perstUp.memOk = true := by
  simp [State.perstUp, h]

@[simp] theorem State.memOk_stageUp (s : State) (h : s.memOk = true) : s.stageUp.memOk = true := by
  have hk : ∀ k : Package, k.sleepImage = s.pkg.sleepImage → State.memOk { s with pkg := k } = true := fun k hk =>
    (State.memOk_mk s hk).trans h
  have hi : (if s.pkg.stage = 0 && s.pkg.trained.any (· == .passed) then { s.pkg.clocked 2 with stage := 1 }
      else s.pkg).sleepImage = s.pkg.sleepImage := Package.sleepImage_ite _ rfl rfl
  unfold State.stageUp
  refine State.memOk_ite_of _ (State.memOk_ite_of _ ((State.memOk_degradedRecords _).trans (hk _ ?_)) (hk _ ?_)) (hk _ ?_)
  · exact hi
  · exact hi
  · exact hi

@[simp] theorem State.memOk_stackDone (s : State) (i : Nat) (ok : Bool) (h : s.memOk = true) :
    (s.stackDone i ok).memOk = true := by
  have hp : ∀ t, State.memOk { s with pkg := { s.pkg with trained := t } } = true := fun _ => h
  unfold State.stackDone
  refine State.memOk_ite_of _ h (State.memOk_ite_of _ ?_ (State.memOk_ite_of _ ?_ ?_))
  · exact State.memOk_ite_of _ (State.memOk_wakeUp _ ((State.memOk_queueScrub ..).trans (hp _))) (State.memOk_coldStart s)
  · exact State.memOk_stageUp _ ((State.memOk_queueScrub ..).trans (hp _))
  · exact State.memOk_stageUp _ ((State.memOk_foldl_eq _ (fun _ _ => State.memOk_retireGran ..) _ _).trans (hp _))

@[simp] theorem State.memOk_clusterDone (s : State) (i : Nat) (ok : Bool) (h : s.memOk = true) :
    (s.clusterDone i ok).memOk = true := by
  simp [State.clusterDone, h]

@[simp] theorem State.memOk_resetFunction (s : State) (f : Nat) : (s.resetFunction f).memOk = s.memOk := by
  simp [State.resetFunction]

/-! ## Mailboxes -/

@[simp] theorem State.memOk_toInbox (s : State) (ch : Nat) (c : Channel) (h : s.memOk = true) :
    (s.toInbox ch c).memOk = true := by
  unfold State.toInbox
  refine (State.memOk_mk _ rfl).trans ?_
  split
  · exact State.memOk_ite_of _ h (State.memOk_writePart _ _ _ _ h)
  · exact h

@[simp] theorem State.memOk_channelMessage (s : State) (ch : Nat) (bs : List Byte) (h : s.memOk = true) :
    (s.channelMessage ch bs).memOk = true := by
  unfold State.channelMessage
  split <;> simp [h]

@[simp] theorem State.memOk_spdm (s : State) (mb : Nat) (r : SpdmReq) (code : BitVec 8) (ph : SpdmPhase) (formed : Bool)
    (allowed : SpdmSt → Bool) (next : SpdmSt) (answer : List Byte → SpdmResp × List Byte) :
    (s.spdm mb r code ph formed allowed next answer).memOk = s.memOk := by
  unfold State.spdm
  split <;> simp

@[simp] theorem State.memOk_getVersion (s : State) (mb : Nat) (r : SpdmReq) : (s.getVersion mb r).memOk = s.memOk := by
  simp [State.getVersion]

@[simp] theorem State.memOk_getCapabilities (s : State) (mb : Nat) (r : SpdmReq) :
    (s.getCapabilities mb r).memOk = s.memOk := by
  simp [State.getCapabilities]

@[simp] theorem State.memOk_negotiate (s : State) (mb : Nat) (r : SpdmReq) : (s.negotiate mb r).memOk = s.memOk := by
  simp [State.negotiate]

@[simp] theorem State.memOk_getDigests (s : State) (mb : Nat) (r : SpdmReq) : (s.getDigests mb r).memOk = s.memOk := by
  simp [State.getDigests]

@[simp] theorem State.memOk_getCertificate (s : State) (mb : Nat) (r : SpdmReq) :
    (s.getCertificate mb r).memOk = s.memOk := by
  simp [State.getCertificate]

@[simp] theorem State.memOk_drawn (s : State) : s.drawn.memOk = s.memOk := rfl

@[simp] theorem State.memOk_challenge (s : State) (mb : Nat) (r : SpdmReq) : (s.challenge mb r).memOk = s.memOk := by
  simp [State.challenge]

@[simp] theorem State.memOk_getMeasurements (s : State) (mb : Nat) (r : SpdmReq) :
    (s.getMeasurements mb r).memOk = s.memOk := by
  simp [State.getMeasurements]

@[simp] theorem State.memOk_unsupported (s : State) (mb : Nat) (code : BitVec 8) :
    (s.unsupported mb code).memOk = s.memOk := by
  unfold State.unsupported
  split <;> simp

/-! ## The control core and the loss of power -/

@[simp] theorem State.memOk_coreStore (s : State) (part addr : Nat) (bs : List Byte) (h : s.memOk = true) :
    (s.coreStore part addr bs).memOk = true := by
  unfold State.coreStore
  grind [State.memOk_writePart]

@[simp] theorem State.memOk_writeBack (s : State) (line : Nat) : (s.writeBack line).memOk = s.memOk := by
  simp [State.writeBack]

@[simp] theorem State.memOk_perstDown (s : State) (h : s.memOk = true) : s.perstDown.memOk = true := by
  simp [State.perstDown, h]

@[simp] theorem State.memOk_alwaysOnLoss (s : State) (h : s.memOk = true) : s.alwaysOnLoss.memOk = true := by
  unfold State.alwaysOnLoss
  split <;> simp [h]

/-! ## Fetch, late stores and moves -/

@[simp] theorem State.memOk_fetchFault (s : State) (g : Group) (addr : W64) (c : Cause) (detail : Nat) :
    (s.fetchFault g addr c detail).memOk = s.memOk := rfl

@[simp] theorem State.memOk_consumeFetch (s : State) (g : Group) (line : Nat) (h : s.memOk = true) :
    (s.consumeFetch g line).memOk = true := by
  simp [State.consumeFetch, h]

theorem State.memOk_unwritten (before s : State) (l : LateStore) (h : s.memOk = true) :
    (before.unwritten s l).memOk = true := by
  unfold State.unwritten
  split
  · exact (State.memOk_foldl_eq _ (fun _ _ => State.memOk_setLine ..) _ _).trans
      (State.memOk_hbm s _ h (Memory.wf_writeN _ _ _ (State.hbm_wf s h)))
  · exact State.memOk_slices s _ h (Memory.wf_writeN _ _ _ (State.slices_wf s h))

theorem State.memOk_putOff (before after : State) (ws : List LateStore) (h : after.memOk = true) :
    (before.putOff after ws).memOk = true :=
  State.memOk_foldl _ (fun _ _ hs => State.memOk_unwritten before _ _ hs) ws after h

@[simp] theorem State.memOk_matrixGrants (s : State) (core n : Nat) (h : s.memOk = true) :
    (s.matrixGrants core n).memOk = true := by
  unfold State.matrixGrants
  split
  · exact h
  next e rest _ =>
    split
    next x ab t _ _ =>
      split
      · exact h
      · split
        · exact State.memOk_consumeEngine _ _ _ h
        · exact (State.memOk_setCore ..).trans
            (State.memOk_slices s _ h (Matrix.wf_grants x t _ _ _ (State.slices_wf s h)))
    · exact h

@[simp] theorem State.memOk_crossWords (s : State) (cn ex party n : Nat) :
    (s.crossWords cn ex party n).memOk = s.memOk := by
  unfold State.crossWords
  (repeat' split) <;> simp

@[simp] theorem State.memOk_keepCopy (s : State) (part ctx : Nat) (va : W64) :
    (s.keepCopy part ctx va).memOk = s.memOk := by
  unfold State.keepCopy
  (repeat' split) <;> simp

@[simp] theorem State.memOk_keepWord (s : State) (part lid dev : Nat) : (s.keepWord part lid dev).memOk = s.memOk := by
  simp [State.keepWord]

@[simp] theorem State.memOk_fecCorrected (s : State) (port n : Nat) : (s.fecCorrected port n).memOk = s.memOk := rfl

@[simp] theorem State.memOk_fillLine (s : State) (a slot world : Nat) : (s.fillLine a slot world).memOk = s.memOk := by
  simp [State.fillLine]

@[simp] theorem State.memOk_flipLine (s : State) (a : Nat) (bits : BitVec 576) : (s.flipLine a bits).memOk = s.memOk :=
  rfl

@[simp] theorem State.memOk_spoilSlice (s : State) (a : Nat) (readable : Bool) :
    (s.spoilSlice a readable).memOk = s.memOk := rfl

@[simp] theorem State.memOk_refusePort (s : State) (x : BankX) : (s.refusePort x).memOk = s.memOk := by
  unfold State.refusePort
  (repeat' split) <;> simp

@[simp] theorem State.memOk_portDone (s : State) (core bank : Nat) : (s.portDone core bank).memOk = s.memOk := rfl

@[simp] theorem State.memOk_copyPiece (s : State) (core slot i n : Nat) (h : s.memOk = true) :
    (s.copyPiece core slot i n).memOk = true := by
  unfold State.copyPiece
  split
  · exact h
  next e _ =>
    split
    next dst src len dsp ssp ab _ =>
      refine State.memOk_ite_of _ h ?_
      have hb := State.memOk_sendSide s e core slot dst src len.toNat dsp ssp
        (((unitsOf dst.toNat len.toNat).drop i).take n) h
      have hc := State.memOk_copyUnits s e dst.toNat src.toNat len.toNat dsp ssp
        (((unitsOf dst.toNat len.toNat).drop i).take n) h
      split
      · split
        next u hu => rw [hu] at hb; simpa using hb
        · exact h
      · split
        next u _ hu => rw [hu] at hc; simpa using hc
        · exact h
    · exact h

@[simp] theorem State.memOk_flipped (s : State) (line : Nat) (bits : BitVec 576) :
    (s.flipped line bits).memOk = s.memOk := rfl

end Sys2Proof.Machine
end

section
/-!
Executing an instruction or an event keeps the memories in their canonical form.
-/

namespace Sys2Proof.Machine

open Sys2Proof

/-! ## Instructions with a body of their own -/

theorem memOk_execVmatchr (e : Bool) (d a b : BitVec 7) (s : State) (h : s.memOk = true) :
    outcomeOk (execVmatchr e d a b s) = true :=
  memOk_issue _ _ _ h fun _ => h

theorem memOk_execVshape (e : Bool) (d a : BitVec 7) (s : State) (h : s.memOk = true) :
    outcomeOk (execVshape e d a s) = true :=
  memOk_issue _ _ _ h fun _ => h

theorem memOk_execVgen (e : Bool) (d a : BitVec 7) (s : State) (h : s.memOk = true) : outcomeOk (execVgen e d a s) = true :=
  memOk_issue _ _ _ h fun _ => h

theorem memOk_execMqld (e : Bool) (a : BitVec 7) (n : BitVec 3) (s : State) (h : s.memOk = true) :
    outcomeOk (execMqld e a n s) = true := by
  refine memOk_issue _ _ _ h fun g => ?_
  dsimp only
  split
  · rfl
  · split <;> exact h

theorem memOk_execVfredAdd (e : Bool) (d a : Fld) (s : State) (h : s.memOk = true) : outcomeOk (execVfredAdd e d a s) = true :=
  memOk_issue _ _ _ h fun g => Group.memOk_raise g _ _ h

theorem memOk_execVfredX (e : Bool) (d a : Fld) (s : State) (h : s.memOk = true) : outcomeOk (execVfredX e d a s) = true :=
  memOk_issue _ _ _ h fun g => Group.memOk_raise g _ _ h

theorem memOk_execVfscanAdd (e : Bool) (d a : Fld) (s : State) (h : s.memOk = true) :
    outcomeOk (execVfscanAdd e d a s) = true :=
  memOk_issue _ _ _ h fun g => Group.memOk_raise g _ _ h

theorem memOk_execTlevel (e : Bool) (d a : Fld) (s : State) (h : s.memOk = true) : outcomeOk (execTlevel e d a s) = true :=
  memOk_issue _ _ _ h fun _ => h

theorem memOk_execTfillSend (e : Bool) (d a b : Fld) (q dst : BitVec 2) (s : State) (h : s.memOk = true) :
    outcomeOk (execTfillSend e d a b q dst s) = true := by
  refine memOk_issue _ _ _ h fun g => ?_
  refine iteInduction (motive := fun v => Done.memOk v = true) (fun _ => h) fun _ => ?_
  exact memOk_deferred _ _ _ _ _ _ (fun _ hs => State.memOk_gateArrive _ _ _ _ hs) h

theorem memOk_execTfillAccept (e : Bool) (d a b : Fld) (q : BitVec 2) (s : State) (h : s.memOk = true) :
    outcomeOk (execTfillAccept e d a b q s) = true := by
  refine memOk_issue _ _ _ h fun g => ?_
  dsimp only
  split
  · exact h
  · exact memOk_deferred _ _ _ _ _ _ (fun _ hs => State.memOk_gateArrive _ _ _ _ hs) h

theorem memOk_execXopen (e : Bool) (d a b : Fld) (ty dsp ssp : Bool) (s : State) (h : s.memOk = true) :
    outcomeOk (execXopen e d a b ty dsp ssp s) = true := by
  refine memOk_issue _ _ _ h fun g => ?_
  dsimp only
  split
  · exact h
  · split
    · exact h
    · exact memOk_deferred _ _ _ _ _ _ (fun _ hs => State.memOk_gateArrive _ _ _ _ hs) h

theorem memOk_execSld (e : Bool) (d a : Fld) (f : BitVec 9) (s : State) (h : s.memOk = true) :
    outcomeOk (execSld e d a f s) = true := by
  refine memOk_issue _ _ _ h fun g => ?_
  dsimp only
  split
  · exact h
  · exact memOk_deferred _ _ _ _ _ _ (fun _ hs => State.memOk_access _ _ _ _ _ _ hs) h

theorem memOk_execSst (e : Bool) (d a : Fld) (f : BitVec 9) (s : State) (h : s.memOk = true) :
    outcomeOk (execSst e d a f s) = true :=
  memOk_issue _ _ _ h fun _ => memOk_deferred _ _ _ _ _ _ (fun _ hs => State.memOk_access _ _ _ _ _ _ hs) h

theorem memOk_execSlds (e : Bool) (d a : Fld) (f : BitVec 9) (s : State) (h : s.memOk = true) :
    outcomeOk (execSlds e d a f s) = true := by
  refine memOk_issue _ _ _ h fun g => ?_
  dsimp only
  split
  · exact State.memOk_consume _ _ _ h
  · exact h
  · exact Group.memOk_conflicts _ _ _ _ _ h

theorem memOk_execSsts (e : Bool) (d a : Fld) (f : BitVec 9) (s : State) (h : s.memOk = true) :
    outcomeOk (execSsts e d a f s) = true := by
  refine memOk_issue _ _ _ h fun g => ?_
  dsimp only
  split
  · exact State.memOk_consume _ _ _ h
  · exact h
  · exact Group.memOk_conflicts _ _ _ _ _ (State.memOk_writeAt _ _ _ h)

theorem memOk_execAtoms (e u : Bool) (d a b : Fld) (off : BitVec 11) (sc : BitVec 3) (ord : BitVec 2) (ret w : Bool)
    (op : BitVec 4) (s : State) (h : s.memOk = true) : outcomeOk (execAtoms e u d a b off sc ord ret w op s) = true := by
  refine memOk_issue _ _ _ h fun g => ?_
  dsimp only
  split
  · exact h
  · have hs := State.memOk_performAccess s g g.ticket (g.v a).isA
      (g.atomOp .slice u d b (g.sliceAddr a ((scaled off (atomSize w)).setWidth 32)) sc ord ret w op) h
    split
    next hd => rwa [hd] at hs
    next hd =>
      rw [hd] at hs
      refine memOk_deferred _ _ _ _ _ _ (fun t ht => ?_) (Group.memOk_conflicts _ _ _ _ _ hs)
      split <;> simp [ht]

theorem memOk_execFence (e : Bool) (q p sc : BitVec 3) (s : State) (h : s.memOk = true) :
    outcomeOk (execFence e q p sc s) = true :=
  memOk_issue _ _ _ h fun _ => h

theorem memOk_execMmloop (e : Bool) (d a b : BitVec 7) (binc : BitVec 11) (ab : BitVec 5) (z reuse : Bool) (mode : BitVec 2)
    (nk : BitVec 3) (s : State) (h : s.memOk = true) : outcomeOk (execMmloop e d a b binc ab z reuse mode nk s) = true := by
  refine memOk_issue _ _ _ h fun g => ?_
  dsimp only
  have go : ∀ t f op, State.memOk t = true →
      ((handOver (.mmloop e d a b binc ab z reuse mode nk) g t op).mapGroup f).memOk = true := fun t f op ht =>
    (Done.memOk_mapGroup _ _).trans (memOk_handOver _ _ _ _ ht)
  split
  · rfl
  · split
    · rfl
    · split
      · split
        · rfl
        · exact go _ _ _ h
      · split
        · exact go _ _ _ h
        · split
          · exact go _ _ _ ((State.memOk_updPart ..).trans h)
          · exact go _ _ _ h

theorem memOk_execCpy (e : Bool) (d a b : BitVec 7) (dsp ssp : BitVec 2) (ab : BitVec 5) (s : State) (h : s.memOk = true) :
    outcomeOk (execCpy e d a b dsp ssp ab s) = true := by
  refine memOk_issue _ _ _ h fun g => ?_
  dsimp only
  split
  · rfl
  · exact memOk_handOver _ _ _ _ h

theorem memOk_execCunpack (e : Bool) (d a b : BitVec 7) (ssp : Bool) (rows gran : BitVec 2) (ty : BitVec 3) (ab : BitVec 5)
    (s : State) (h : s.memOk = true) : outcomeOk (execCunpack e d a b ssp rows gran ty ab s) = true := by
  refine memOk_issue _ _ _ h fun g => ?_
  dsimp only
  split
  · rfl
  · exact memOk_handOver _ _ _ _ h

theorem memOk_execCbinit (e : Bool) (a b : BitVec 7) (n : BitVec 5) (s : State) (h : s.memOk = true) :
    outcomeOk (execCbinit e a b n s) = true := by
  refine memOk_issue _ _ _ h fun g => ?_
  dsimp only
  split
  · rfl
  · split
    · rfl
    · split
      · split
        · rfl
        · split
          · rfl
          · exact h
      · split
        · rfl
        · exact h

theorem memOk_execCbpush (e : Bool) (a b : BitVec 7) (ssp : BitVec 2) (n : BitVec 5) (s : State) (h : s.memOk = true) :
    outcomeOk (execCbpush e a b ssp n s) = true := by
  refine memOk_issue _ _ _ h fun g => ?_
  dsimp only
  split
  · rfl
  · split
    · rfl
    · exact memOk_handOver _ _ _ _ h

theorem memOk_execCbpop (e : Bool) (d : BitVec 7) (n : BitVec 5) (s : State) (h : s.memOk = true) :
    outcomeOk (execCbpop e d n s) = true := by
  refine memOk_issue _ _ _ h fun g => ?_
  dsimp only
  split
  · rfl
  · exact memOk_deferred _ _ _ _ _ _ (fun _ hs => (State.memOk_servePop ..).trans hs) h

theorem memOk_execCbfree (e : Bool) (n : BitVec 5) (s : State) (h : s.memOk = true) :
    outcomeOk (execCbfree e n s) = true := by
  refine memOk_issue _ _ _ h fun g => ?_
  split
  · rfl
  · split
    · rfl
    · exact h

theorem memOk_execAbarInit (e : Bool) (a : BitVec 7) (n : BitVec 5) (s : State) (h : s.memOk = true) :
    outcomeOk (execAbarInit e a n s) = true := by
  refine memOk_issue _ _ _ h fun g => ?_
  dsimp only
  split
  · rfl
  · simp [h]

theorem memOk_execAbarArrive (e : Bool) (n : BitVec 5) (s : State) (h : s.memOk = true) :
    outcomeOk (execAbarArrive e n s) = true := by
  refine memOk_issue _ _ _ h fun g => ?_
  split
  · rfl
  · simp [h]

theorem memOk_execAbarWait (e : Bool) (a : BitVec 7) (n : BitVec 5) (s : State) (h : s.memOk = true) :
    outcomeOk (execAbarWait e a n s) = true := by
  refine memOk_issue _ _ _ h fun g => ?_
  split
  · rfl
  · exact h

theorem memOk_execLaunch (e : Bool) (a : BitVec 7) (q : BitVec 4) (s : State) (h : s.memOk = true) :
    outcomeOk (execLaunch e a q s) = true := by
  refine memOk_issue _ _ _ h fun g => ?_
  dsimp only
  split
  · exact h
  · exact memOk_deferred _ _ _ _ _ _ (fun _ hs => State.memOk_launchIssue _ _ _ _ _ _ hs) h

theorem memOk_execEvcfg (e : Bool) (d : BitVec 7) (set : Bool) (action : BitVec 2) (cls : BitVec 3) (s : State)
    (h : s.memOk = true) : outcomeOk (execEvcfg e d set action cls s) = true :=
  memOk_issue _ _ _ h fun _ => h

theorem memOk_execCall (e : Bool) (c : BitVec 7) (t : BitVec 16) (s : State) (h : s.memOk = true) :
    outcomeOk (execCall e c t s) = true :=
  memOk_issue _ _ _ h fun _ => h

theorem memOk_execJr (e : Bool) (c : BitVec 7) (s : State) (h : s.memOk = true) : outcomeOk (execJr e c s) = true := by
  refine memOk_issue _ _ _ h fun g => ?_
  dsimp only
  split
  · rfl
  · exact h

theorem memOk_execLoop (e : Bool) (c : BitVec 7) (t : BitVec 16) (s : State) (h : s.memOk = true) :
    outcomeOk (execLoop e c t s) = true := by
  refine memOk_issue _ _ _ h fun g => ?_
  dsimp only
  split <;> exact h

theorem memOk_execWbase (e : Bool) (n : BitVec 5) (s : State) (h : s.memOk = true) : outcomeOk (execWbase e n s) = true := by
  refine memOk_issue _ _ _ h fun g => ?_
  split
  · rfl
  · exact h

theorem memOk_execSys (e : Bool) (c : BitVec 7) (n : BitVec 8) (s : State) (h : s.memOk = true) :
    outcomeOk (execSys e c n s) = true :=
  memOk_issue _ _ _ h fun _ => memOk_deferred _ _ _ _ _ _ (fun _ hs => hs) h

/-! ## Every instruction and event -/

/-- By the operand form or the operation that each instruction and event is. -/
theorem outcomeOk_exec (i : Instr) (s : State) (h : s.memOk = true) : outcomeOk (exec i s) = true := by
  unfold exec
  cases i with
  | vadd | vsub | vmul | vshl | vsel | vmov | vtid | vxshu | vlop3 | vaddi | vmuli | vshli | vli =>
    exact memOk_vecInstr (h := h) ..
  | vmulhiI | vmulhiN | vand | vor | vxor | vandn | vshrN | vshrI | vrotl | vminI | vmaxI | vminN | vmaxN | vsxorB =>
    exact memOk_vec2 (h := h) ..
  | vmac | vfshl | vfshr =>
    exact memOk_vec3 (h := h) ..
  | vpopc | vclz | vbrev | vandi | vshriN | vshriI =>
    exact memOk_vec1 (h := h) ..
  | vceq | vcne | vcltI | vcleI | vcltN | vcleN =>
    exact memOk_cmp32 (h := h) ..
  | vaddW | vsubW | vmulW =>
    exact memOk_pair2 (h := h) ..
  | vshlW | vshrWN | vshrWI =>
    exact memOk_pairShift (h := h) ..
  | vceqW | vcltWI | vcltWN =>
    exact memOk_cmp64 (h := h) ..
  | vxsh | vscanAdd | vredAdd =>
    exact memOk_crossInstr (h := h) ..
  | vmatchr => exact memOk_execVmatchr (h := h) ..
  | vredmaxiI | vredminiI =>
    exact memOk_redPair (h := h) ..
  | vaddmod | vsubmod | vmulmod | vmacmod =>
    exact memOk_modInstr (h := h) ..
  | vshape => exact memOk_execVshape (h := h) ..
  | vgen => exact memOk_execVgen (h := h) ..
  | mqld => exact memOk_execMqld (h := h) ..
  | vfadd | vfsub | vfmul | vfmin | vfmax | vfminn | vfmaxn | vfdiv | vfscale =>
    exact memOk_float2 (h := h) ..
  | vffma | vhdotBf =>
    exact memOk_float3 (h := h) ..
  | vfabs | vfneg | vfrcp | vfrsq | vfsqrt | vfexp2 | vflog2 | vcvt | vfclass =>
    exact memOk_float1 (h := h) ..
  | vfceq | vfclt | vfcle | vfcun =>
    exact memOk_floatCmp (h := h) ..
  | vfaddX | vfsubX | vfmulX | vdwadd | vdwsub | vdwmul | vdwmulf | vdwren =>
    exact memOk_floatPair (h := h) ..
  | vfredAdd => exact memOk_execVfredAdd (h := h) ..
  | vfredX => exact memOk_execVfredX (h := h) ..
  | vfredmaxi | vfredmini =>
    exact memOk_floatArg (h := h) ..
  | vfscanAdd => exact memOk_execVfscanAdd (h := h) ..
  | vhaddBf | vhmulBf | vhaddH | vhmulH =>
    exact memOk_pack2 (h := h) ..
  | vhfmaBf | vhfmaH =>
    exact memOk_pack3 (h := h) ..
  | vsaddS16 | vssubS16 | vsaddS32 | vssubS32 | vsmulpS16 | vsmulpS32 =>
    exact memOk_share2 (h := h) ..
  | vsaddpS16 | vsaddpS32 =>
    exact memOk_shareAddPublic (h := h) ..
  | vsmulS16 | vsmulS32 | vsltzS16 | vsltzS32 | vsb2aS16 | vsb2aS32 | vsandB | vsopenS16 | vsopenS32 =>
    exact memOk_gateInstr (h := h) ..
  | vstruncS16 | vstruncS32 =>
    exact memOk_shareTrunc (h := h) ..
  | vsredS16 | vsredS32 =>
    exact memOk_shareSum (h := h) ..
  | cbind | csend | crecv | cchoose | cdeleg | cstate | cabort | tburn =>
    exact memOk_convInstr (h := h) ..
  | tlevel => exact memOk_execTlevel (h := h) ..
  | tfillSend => exact memOk_execTfillSend (h := h) ..
  | tfillAccept => exact memOk_execTfillAccept (h := h) ..
  | xopen => exact memOk_execXopen (h := h) ..
  | sadd | ssub | smul | smulhiN | sand | sor | sxor | sandn | sshl | sshrN | sshrI | sceq | scltI | scltN | sminI | smaxI
  | smov | spopc | sclz | sctz | sfirst | saddi | sandi | sori | sshli | sshriN | sceqi | scltiI | smovi | sli =>
    exact memOk_scalarInstr (h := h) ..
  | vceqi | vcltiI =>
    exact memOk_maskInstr (h := h) ..
  | ldg | stg | ldgW | stgW | ldgQ | stgQ | ldgX | stgX | atom =>
    exact memOk_globalAccess (h := h) ..
  | lds | sts | ldsW | stsW | ldsQ | stsQ | ldsX | stsX =>
    exact memOk_sliceAccess (h := h) ..
  | sld => exact memOk_execSld (h := h) ..
  | sst => exact memOk_execSst (h := h) ..
  | slds => exact memOk_execSlds (h := h) ..
  | ssts => exact memOk_execSsts (h := h) ..
  | ldd | std | atomd =>
    exact memOk_distAccess (h := h) ..
  | atoms => exact memOk_execAtoms (h := h) ..
  | fence => exact memOk_execFence (h := h) ..
  | xsend | xget | xred | xapp =>
    exact memOk_remoteInstr (h := h) ..
  | mmloop => exact memOk_execMmloop (h := h) ..
  | cpy => exact memOk_execCpy (h := h) ..
  | cunpack => exact memOk_execCunpack (h := h) ..
  | cbinit => exact memOk_execCbinit (h := h) ..
  | cbpush => exact memOk_execCbpush (h := h) ..
  | cbpop => exact memOk_execCbpop (h := h) ..
  | cbfree => exact memOk_execCbfree (h := h) ..
  | abarInit => exact memOk_execAbarInit (h := h) ..
  | abarArrive => exact memOk_execAbarArrive (h := h) ..
  | abarWait => exact memOk_execAbarWait (h := h) ..
  | launch => exact memOk_execLaunch (h := h) ..
  | evcfg => exact memOk_execEvcfg (h := h) ..
  | br | bz | bnz | bmz | bmnz =>
    exact memOk_branchInstr (h := h) ..
  | call => exact memOk_execCall (h := h) ..
  | jr => exact memOk_execJr (h := h) ..
  | loop => exact memOk_execLoop (h := h) ..
  | trap => exact memOk_issue _ _ _ h fun _ => rfl
  | wbase => exact memOk_execWbase (h := h) ..
  | bar => exact memOk_issue _ _ _ h fun _ => h
  | exit => exact memOk_issue _ _ _ h fun _ => h
  | yield => exact memOk_issue _ _ _ h fun _ => h
  | sys => exact memOk_execSys (h := h) ..
  | rtrap => exact memOk_issue _ _ _ h fun _ => h
  | laneChoice => exact (State.memOk_laneChoice ..).trans h
  | asyncReturn => exact State.memOk_sleepIfDue (h := State.memOk_asyncReturn (h := h) ..) ..
  | runCommit => exact State.memOk_sleepIfDue (h := State.memOk_runCommit (h := h) ..) ..
  | yieldedRunCommit => exact State.memOk_sleepIfDue (h := State.memOk_yieldedCommit (h := h) ..) ..
  | barrierStall => exact State.memOk_barrierStall (h := h) ..
  | tripleStarvation => exact State.memOk_starve (h := h) ..
  | eventWindowRestart => exact (State.memOk_windowRestart ..).trans h
  | engineAccept => exact State.memOk_engineAccept (h := h) ..
  | mmloopComplete => exact State.memOk_sleepIfDue (h := State.memOk_matrixComplete (h := h) ..) ..
  | copyComplete => exact State.memOk_sleepIfDue (h := State.memOk_copyComplete (h := h) ..) ..
  | cbFillComplete => exact State.memOk_sleepIfDue (h := State.memOk_fillComplete (h := h) ..) ..
  | cbFillStart => exact State.memOk_fillStart (h := h) ..
  | abarArrivalCount => exact State.memOk_countAbar (h := h) ..
  | cbfreeSlotFreed => exact (State.memOk_slotFreed ..).trans h
  | sysAnswer => exact State.memOk_sysAnswer (h := h) ..
  | launchRecordAccept => exact State.memOk_launchNext (h := h) ..
  | lqdoor => exact State.memOk_doorbell (h := h) ..
  | lqstatClear | evcntWrite | resvcoreWrite =>
    exact (State.memOk_updPart ..).trans h
  | preempt => exact State.memOk_preemptCommand (h := h) ..
  | resume => exact State.memOk_resumeCommand (h := h) ..
  | terminate => exact State.memOk_terminateCommand (h := h) ..
  | placeTeam => exact State.memOk_placeTeam (h := h) ..
  | coopPlace => exact State.memOk_coopPlace (h := h) ..
  | groupRestore => exact State.memOk_ite_of _ (State.memOk_restoreTeam (h := h) ..) (State.memOk_restoreGroup (h := h) ..)
  | teamComplete => exact State.memOk_teamComplete (h := h) ..
  | coreRemoveComplete => exact State.memOk_removeComplete (h := h) ..
  | gateSendAccept => exact State.memOk_getD _ _ (State.memOk_acceptStep (h := h) ..) h
  | gateExchangeComplete => exact State.memOk_completePart (h := h) ..
  | remoteRequest => exact State.memOk_sleepIfDue (h := State.memOk_remoteArrive (h := h) ..) ..
  | remoteAck => exact State.memOk_sleepIfDue (h := State.memOk_remoteAck (h := h) ..) ..
  | remoteResend => exact State.memOk_sleepIfDue (h := State.memOk_remoteResend (h := h) ..) ..
  | portDown => exact (State.memOk_portDown ..).trans h
  | portUp => exact (State.memOk_portUp ..).trans h
  | ctxCreate => exact State.memOk_service _ _ _ (fun p => State.memOk_ctxCreate (h := h) ..) h
  | ctxDestroy => exact State.memOk_service _ _ _ (fun p => State.memOk_ctxDestroy (h := h) ..) h
  | ctxRoot => exact State.memOk_service _ _ _ (fun p => State.memOk_ctxRoot (h := h) ..) h
  | groupResume => exact State.memOk_service _ _ _ (fun p => State.memOk_groupResume (h := h) ..) h
  | choreoLoad => exact State.memOk_service _ _ _ (fun p => State.memOk_choreoLoad (h := h) ..) h
  | choreoUnload => exact State.memOk_service _ _ _ (fun p => State.memOk_choreoUnload (h := h) ..) h
  | convCreate => exact State.memOk_service _ _ _ (fun p => State.memOk_convCreate (h := h) ..) h
  | convCreateTimeout => exact (State.memOk_dropPending ..).trans h
  | convDestroy => exact State.memOk_service _ _ _ (fun p => State.memOk_convDestroy (h := h) ..) h
  | chanKey => exact State.memOk_service _ _ _ (fun p => State.memOk_chanKey (h := h) ..) h
  | measExtend => exact State.memOk_service _ _ _ (fun p => State.memOk_measExtend (h := h) ..) h
  | tensorOpen => exact State.memOk_service _ _ _ (fun p => State.memOk_tensorOpen (h := h) ..) h
  | tensorBump => exact State.memOk_service _ _ _ (fun p => State.memOk_tensorBump (h := h) ..) h
  | tensorClose => exact State.memOk_service _ _ _ (fun p => State.memOk_tensorClose (h := h) ..) h
  | tlbInvalidatePage | tlbInvalidateContext | tlbInvalidatePartition =>
    exact (State.memOk_invalidate ..).trans h
  | tlbInvalidateDone => exact State.memOk_invalidated (h := h) ..
  | ringConfigWrite => exact State.memOk_ringConfig (h := h) ..
  | ringtailWrite => exact State.memOk_ringTailWrite (h := h) ..
  | partCreate => exact State.memOk_createCommand (h := h) ..
  | partDestroy | coreAdd | coreRemove | hbmGrow | hbmShrink | portSet =>
    exact State.memOk_partCommand (h := h) ..
  | sleep => exact State.memOk_sleep (h := h) ..
  | wakemode => exact (State.memOk_wakemode ..).trans h
  | granRetire => exact (State.memOk_granRetire ..).trans h
  | fwWrite => exact State.memOk_fwWrite (h := h) ..
  | fwCheck => exact (State.memOk_fwCheck ..).trans h
  | fwCommit => exact State.memOk_fwCommit (h := h) ..
  | fwSvn => exact State.memOk_fwSvn (h := h) ..
  | fwRevoke => exact State.memOk_fwRevoke (h := h) ..
  | waitingCommandResume => exact State.memOk_waitingResume (h := h) ..
  | granuleScrubDone => exact State.memOk_scrubDone (h := h) ..
  | uncorrectableError => exact State.memOk_uncorrectable (h := h) ..
  | correctedError => exact (State.memOk_corrected ..).trans h
  | ceWindowRestart => exact h
  | celimWrite => exact h
  | errRingConfigWrite => exact State.memOk_errConfig (h := h) ..
  | errtailWrite => exact State.memOk_errTailSet (h := h) ..
  | pwrpeakRead => exact h
  | retryintWrite => exact h
  | clockEvaluation => exact State.memOk_clockEvaluation (h := h) ..
  | registerWrite => exact State.memOk_regWrite (h := h) ..
  | coldWrite => exact (State.memOk_coldWrite ..).trans h
  | perstDeassert => exact State.memOk_perstUp (h := h) ..
  | hotReset => exact State.memOk_ite_of _ (State.memOk_coldStart s) h
  | hbmStackTrained => exact State.memOk_stackDone (h := h) ..
  | clusterSelfTestDone => exact State.memOk_clusterDone (h := h) ..
  | vfFlr => exact State.memOk_ite_of _ h ((State.memOk_resetFunction ..).trans h)
  | pf0Flr => exact (State.memOk_foldl_eq _ State.memOk_resetFunction _ _).trans h
  | channelMessage => exact State.memOk_channelMessage (h := h) ..
  | getVersion => exact (State.memOk_getVersion ..).trans h
  | getCapabilities => exact (State.memOk_getCapabilities ..).trans h
  | negotiateAlgorithms => exact (State.memOk_negotiate ..).trans h
  | getDigests => exact (State.memOk_getDigests ..).trans h
  | getCertificate => exact (State.memOk_getCertificate ..).trans h
  | challenge => exact (State.memOk_challenge ..).trans h
  | getMeasurements => exact (State.memOk_getMeasurements ..).trans h
  | spdmUnsupportedRequest => exact (State.memOk_unsupported ..).trans h
  | controlCoreStore => exact State.memOk_coreStore (h := h) ..
  | memorySideCacheWriteBack => exact (State.memOk_writeBack ..).trans h
  | perstAssert => exact State.memOk_perstDown (h := h) ..
  | alwaysOnPowerLoss => exact State.memOk_alwaysOnLoss (h := h) ..

end Sys2Proof.Machine
end

section
/-!
What a step is keeps the memories in their canonical form.
-/

namespace Sys2Proof.Machine

open Sys2Proof

@[simp] theorem State.memOk_runGroup (s : State) (g : Group) (h : s.memOk = true) : outcomeOk (s.runGroup g) = true := by
  unfold State.runGroup
  split
  · exact (State.memOk_fetchFault ..).trans h
  · exact State.memOk_consumeFetch _ _ _ h
  · exact (State.memOk_immediate ..).trans h
  · exact outcomeOk_exec _ _ h

theorem State.memOk_runLate (s : State) (g : Group) (h : s.memOk = true) : outcomeOk (s.runLate g) = true := by
  have hr := State.memOk_runGroup s g h
  unfold State.runLate
  split
  · split
    · exact hr
    · split
      next hs =>
        rw [hs] at hr
        exact State.memOk_ite_of _ (State.memOk_putOff _ _ _ hr) hr
      · exact hr
  · exact hr

theorem State.memOk_performRow (s : State) (core row : Nat) (lanes : List Nat) (h : s.memOk = true) :
    outcomeOk (s.performRow core row lanes) = true := by
  induction lanes generalizing s with
  | nil => exact h
  | cons lane lanes ih =>
    rw [State.performRow]
    split
    · exact ih s h
    next g _ =>
      have hr := State.memOk_runGroup s g h
      split
      next hs =>
        rw [hs] at hr
        exact ih _ hr
      · exact hr

theorem State.memOk_performPort (s : State) (core bank : Nat) (x : BankX) (h : s.memOk = true) :
    outcomeOk (s.performPort core bank x) = true := by
  have port : ∀ o : Host.Outcome State Fault Refusal, outcomeOk o = true →
      outcomeOk (match o with | .next t => .next (t.portDone core bank) | o => o) = true := by
    intro o ho
    cases o with
    | next t => exact (State.memOk_portDone ..).trans ho
    | fault _ | refused _ => rfl
  refine port _ ?_
  cases x with
  | group u =>
    dsimp only
    split
    · exact State.memOk_runGroup _ _ h
    · exact h
  | packet p => exact outcomeOk_exec (.remoteRequest p) s h
  | rest => exact h

theorem State.memOk_bankCycle (s : State) (core bank : Nat) (m c : Bool) (port : List BankX) (lanes : List (Nat × Nat))
    (h : s.memOk = true) : outcomeOk (s.bankCycle core bank m c port lanes) = true := by
  unfold State.bankCycle
  dsimp only
  have hp : ∀ (k : Core) (xs : List BankX), (xs.foldl State.refusePort (s.setCore k)).memOk = true := fun k xs =>
    (State.memOk_foldl_eq _ (fun t x => State.memOk_refusePort t x) _ _).trans h
  split
  · split
    · exact h
    · exact State.memOk_performRow _ _ _ _ (hp _ _)
  · split
    · exact State.memOk_performPort _ _ _ _ (hp _ _)
    · exact h
  · split
    · exact hp _ _
    · exact h

theorem State.memOk_doMove (s : State) (m : Move) (h : s.memOk = true) : outcomeOk (s.doMove m) = true := by
  cases m with
  | event i =>
    exact iteInduction (motive := fun o => outcomeOk o = true) (fun _ => h) fun _ => outcomeOk_exec _ _ h
  | group uid =>
    rw [State.doMove]
    split
    · split
      · exact State.memOk_runGroup _ _ h
      · exact h
    · exact h
  | late uid =>
    rw [State.doMove]
    split
    · split
      · exact State.memOk_runLate _ _ h
      · exact h
    · exact h
  | call c => exact State.memOk_ite_of _ (State.memOk_replayCall (h := h) ..) h
  | bankCycle core bank m c port lanes => exact State.memOk_bankCycle _ _ _ _ _ _ _ h
  | perform uid => exact State.memOk_performLate (h := h) ..
  | grants core n => exact State.memOk_matrixGrants (h := h) ..
  | words conv ex party n => exact (State.memOk_crossWords ..).trans h
  | keepCopy part ctx va => exact (State.memOk_keepCopy ..).trans h
  | keepWord part lid dev => exact (State.memOk_keepWord ..).trans h
  | fecCorrected port n => exact (State.memOk_fecCorrected ..).trans h
  | performOne uid n => exact State.memOk_performNth (h := h) ..
  | fillLine line slot world => exact (State.memOk_fillLine ..).trans h
  | flipLine line bits => exact (State.memOk_flipLine ..).trans h
  | spoilSlice line readable => exact (State.memOk_spoilSlice ..).trans h
  | piece core slot off n => exact State.memOk_copyPiece (h := h) ..
  | badLine line named => exact State.memOk_lineError (h := h) ..

/-- The first change among steps that keep the canonical form keeps it. -/
theorem State.memOk_firstChange (s : State) (fs : List (State → State)) (hf : ∀ f ∈ fs, (f s).memOk = true)
    (h : s.memOk = true) : (s.firstChange fs).memOk = true := by
  induction fs with
  | nil => exact h
  | cons f fs ih =>
    obtain ⟨hf, hfs⟩ := List.forall_mem_cons.mp hf
    rw [State.firstChange]
    split
    · exact ih hfs
    · exact hf

theorem State.memOk_noNewInterrupt (s t : State) (hs : s.memOk = true) (ht : t.memOk = true) :
    (s.noNewInterrupt t).memOk = true :=
  State.memOk_ite_of _ hs ht

theorem State.memOk_of_mem_groupSteps (s : State) (h : s.memOk = true) : ∀ f ∈ s.groupSteps, (f s).memOk = true := by
  simp only [State.groupSteps, List.forall_mem_append, List.forall_mem_flatMap, List.forall_mem_cons]
  simp [h]

theorem State.memOk_of_mem_engineSteps (s : State) (h : s.memOk = true) : ∀ f ∈ s.engineSteps, (f s).memOk = true := by
  simp only [State.engineSteps, List.forall_mem_append, List.forall_mem_flatMap, List.forall_mem_cons, List.forall_mem_map]
  simp [h]

theorem State.memOk_of_mem_gateSteps (s : State) (h : s.memOk = true) : ∀ f ∈ s.gateSteps, (f s).memOk = true := by
  have ha : ∀ c r, ((s.acceptStep c r).getD s).memOk = true := fun c r =>
    State.memOk_getD _ _ (State.memOk_acceptStep _ _ _ h) h
  simp only [State.gateSteps, List.forall_mem_append, List.forall_mem_flatMap, List.forall_mem_cons, List.forall_mem_map]
  simp [h, ha]

theorem State.memOk_of_mem_fabricSteps (s : State) (h : s.memOk = true) : ∀ f ∈ s.fabricSteps, (f s).memOk = true := by
  simp only [State.fabricSteps, List.forall_mem_append, List.forall_mem_map]
  simp [h]

theorem State.memOk_of_mem_partSteps (s : State) (h : s.memOk = true) : ∀ f ∈ s.partSteps, (f s).memOk = true := by
  have hn : ∀ t, t.memOk = true → (s.noNewInterrupt t).memOk = true := fun t => State.memOk_noNewInterrupt s t h
  simp only [State.partSteps, List.forall_mem_append, List.forall_mem_flatMap, List.forall_mem_cons]
  simp [h, hn]

theorem State.memOk_autoStep (s : State) (h : s.memOk = true) : s.autoStep.memOk = true := by
  refine State.memOk_ite_of _ h (State.memOk_firstChange _ _ ?_ h)
  simp only [List.forall_mem_append]
  refine ⟨⟨⟨⟨⟨⟨?_, ?_⟩, ?_⟩, ?_⟩, ?_⟩, ?_⟩, ?_⟩
  · exact State.memOk_of_mem_groupSteps s h
  · exact State.memOk_of_mem_engineSteps s h
  · exact State.memOk_of_mem_gateSteps s h
  · exact State.memOk_of_mem_fabricSteps s h
  · exact State.memOk_of_mem_partSteps s h
  · exact List.forall_mem_map.mpr fun u _ => State.memOk_performLate s u h
  · exact List.forall_mem_singleton.mpr (State.memOk_sleepIfDue s h)

theorem State.memOk_act (s : State) (h : s.memOk = true) : outcomeOk s.act = true := by
  rcases s.act_cases with ⟨-, ha⟩ | ⟨m, ms, -, ha⟩ | ⟨-, g, -, -, ha⟩ | ⟨-, -, ha⟩ <;> rw [ha]
  · exact State.memOk_closeLists s h
  · exact State.memOk_doMove _ _ h
  · exact State.memOk_runGroup _ _ h
  · exact State.memOk_autoStep _ h

/-- Settles O59: what happens next keeps the canonical form, whichever instruction, event or step of the device it is, and the
corrected errors that a step counts leave memory as it is. -/
theorem memoryStaysCanonical : Obligations.MemoryStaysCanonical := by
  unfold Obligations.MemoryStaysCanonical
  intro s t hs ht
  have ha : outcomeOk (State.act { s with tick := s.tick + 1 }) = true := State.memOk_act _ hs
  rcases step_act s with ⟨-, he⟩ | he
  · rwa [← he, ht] at ha
  · obtain ⟨u, ls, hu, rfl⟩ := he t ht
    rw [hu] at ha
    exact (State.memOk_foldl_eq _ (fun t _ => State.memOk_corrected t 10) _ _).trans ha

end Sys2Proof.Machine
end

section
/-!
Placing, completing and restoring teams (R6, R7, R9, R253 to R256, R265, R266): the rules of a partition's launches, what a
placement, a completion and a restore leave, and the statement about them.
-/

namespace Sys2Proof.Machine

open Sys2Proof Sys2Proof.Laws

/-! ## A partition and its launches -/

theorem State.num_of_part? {s : State} {n : Nat} {p : Partition} (hp : s.part? n = some p) : p.num = n := by
  simpa using List.find?_some hp

theorem State.part?_congr {s t : State} (h : s.parts = t.parts) (n : Nat) : s.part? n = t.part? n := by
  rw [State.part?, h, State.part?]

theorem Partition.lid_of_launch? {p : Partition} {n : Nat} {l : Launch} (hl : p.launch? n = some l) : l.lid = n := by
  simpa using List.find?_some hl

theorem State.updPart_of_part? {s : State} {n : Nat} {p : Partition} (hp : s.part? n = some p) (f : Partition → Partition) :
    s.updPart n f = s.setPart (f p) := by
  unfold State.updPart
  rw [hp]

/-- A partition that is there is found as it was changed. -/
theorem State.part?_setPart_of_num {s : State} {n : Nat} {p q : Partition} (hp : s.part? n = some p) (hq : q.num = p.num) :
    (s.setPart q).part? n = some q := by
  have hn : q.num = n := hq.trans (State.num_of_part? hp)
  rw [← hn]
  exact State.part?_setPart_self s q p (hn ▸ hp)

/-- A launch that is there is found after it is replaced. -/
theorem Partition.launch?_setLaunch_of_lid {p : Partition} {n : Nat} {k l : Launch} (hk : p.launch? n = some k)
    (hl : l.lid = k.lid) : (p.setLaunch l).launch? n = some l := by
  obtain rfl : l.lid = n := hl.trans (Partition.lid_of_launch? hk)
  have same : ((fun h : Launch => h.lid == l.lid) ∘ fun h => if h.lid == l.lid then l else h) = fun h => h.lid == l.lid := by
    funext h
    by_cases hh : h.lid = l.lid <;> simp [hh]
  unfold Partition.launch? Partition.setLaunch at *
  rw [List.find?_map, same, hk]
  simp [hl]

/-- Dependences that come to hold bring no launch and take none. -/
theorem Partition.launch?_holdAll (p : Partition) (n : Nat) :
    p.holdAll.launch? n = (p.launch? n).map fun l => l.hold p.evcnt := by
  unfold Partition.launch? Partition.holdAll
  rw [List.find?_map]
  rfl

theorem State.goesOn_of_launchOf {s : State} {part lid : Nat} {l : Launch} (hl : s.launchOf part lid = some l)
    (hpre : l.preempted = false) (hend : l.ending = none) : s.goesOn part lid = true := by
  simp [State.goesOn, hl, hpre, hend]

/-! ## A team and its groups at their start -/

/-- The next team of a launch at its start, on the site that it was given. -/
def State.startTeam (s : State) (part : Nat) (l : Launch) (x : Site) : Team :=
  Team.fresh s.nextUid part l.ctx l.lid l.placed x.core l.record.pair x.off (l.record.slice * 4096) (l.record.gpt + 1)

/-- Group `i` of that team at its start, on its core and lane. -/
def State.startGroup (s : State) (part : Nat) (l : Launch) (x : Site) (i : Nat) (c : Nat × Nat) : Group :=
  Group.fresh (s.nextUid + 1 + i) (s.startTeam part l x) i c.1 c.2 (Width.ofCode l.record.wc) ((l.record.regs + 1) * 16)
    l.record.code l.record.trapv l.record.args l.record.nteam l.rank (if l.ranks.isEmpty then 1 else l.ranks.length)
    l.record.prio s.tick

/-- The groups of that team, on the lanes of the site. -/
def State.startGroups (s : State) (part : Nat) (l : Launch) (x : Site) : List Group :=
  x.lanes.mapIdx (s.startGroup part l x)

theorem State.startGroup_vreg (s : State) (part : Nat) (l : Launch) (x : Site) (i : Nat) (c : Nat × Nat) (r : Nat) :
    (s.startGroup part l x i c).vreg r = .u 0 := by
  simp only [Group.vreg, State.startGroup, Group.fresh, List.getD_eq_getElem?_getD, List.getElem?_replicate]
  split <;> rfl

/-- s0 to s3 hold the launch's arguments (R253). -/
theorem State.startGroup_sregs_arg (s : State) (part : Nat) (l : Launch) (x : Site) (i : Nat) (c : Nat × Nat) {k : Nat}
    (hk : k < 4) (ha : k < l.record.args.length) :
    (s.startGroup part l x i c).sregs.getD k 0 = l.record.args.getD k 0 := by
  have hlt : k < (l.record.args.take 4).length := by simp; omega
  simp only [State.startGroup, Group.fresh, List.getD_eq_getElem?_getD, List.getElem?_append_left hlt,
    List.getElem?_take_of_lt hk]

/-- The other scalar registers are 0 (R253). -/
theorem State.startGroup_sregs_zero (s : State) (part : Nat) (l : Launch) (x : Site) (i : Nat) (c : Nat × Nat) {k : Nat}
    (hk : 4 ≤ k) : (s.startGroup part l x i c).sregs.getD k 0 = 0 := by
  have hle : (l.record.args.take 4).length ≤ k := by simp; omega
  simp only [State.startGroup, Group.fresh, List.getD_eq_getElem?_getD, List.getElem?_append_right hle,
    List.getElem?_replicate]
  split <;> rfl

/-- A partition once a team of one of its launches stands on a core: the launch's count, and the turns of cores and of
queues. -/
def Partition.afterPlacing (p : Partition) (l : Launch) (core : Nat) : Partition :=
  { p.setLaunch { l with placed := l.placed + 1, queued := l.placed + 1 < l.record.nteam } with
    lastCore := some core, nextQueue := p.nextQueue.set l.record.prio ((l.queue + 1) % 16) }

@[simp] theorem State.startGroups_length (s : State) (part : Nat) (l : Launch) (x : Site) :
    (s.startGroups part l x).length = x.lanes.length := by
  simp [State.startGroups]

/-- Each group of a team stands on its lane of the site, at its start. -/
theorem State.startGroups_getElem? {s : State} {part : Nat} {l : Launch} {x : Site} {i : Nat} {g : Group}
    (hg : (s.startGroups part l x)[i]? = some g) : ∃ c, x.lanes[i]? = some c ∧ g = s.startGroup part l x i c := by
  simp only [State.startGroups, List.getElem?_mapIdx, Option.map_eq_some_iff] at hg
  obtain ⟨c, hc, rfl⟩ := hg
  exact ⟨c, hc, rfl⟩

/-- What the placement of a team leaves: the team and its groups beside the others, and the partition's next turn. -/
theorem State.putTeam_eq {s : State} {part : Nat} {p : Partition} {l : Launch} (x : Site) (hp : s.part? part = some p)
    (hl : p.launch? l.lid = some l) : s.putTeam part l x =
      State.setPart { s with
        teams := s.teams ++ [s.startTeam part l x], groups := s.groups ++ s.startGroups part l x
        nextUid := s.nextUid + 1 + (s.startGroups part l x).length } (p.afterPlacing l x.core) := by
  have there : ∀ {ts gs n}, State.part? { s with teams := ts, groups := gs, nextUid := n } part = some p := hp
  simp only [State.putTeam, State.updPart_of_part? there, hl]
  rfl

theorem Partition.launch?_afterPlacing {p : Partition} {l : Launch} (hl : p.launch? l.lid = some l) (core : Nat) :
    (p.afterPlacing l core).launch? l.lid =
      some { l with placed := l.placed + 1, queued := l.placed + 1 < l.record.nteam } :=
  Partition.launch?_setLaunch_of_lid hl (l := { l with placed := _, queued := _ }) rfl

/-! ## Which head places a team -/

/-- A team that fits with what is free is placed there, and nothing is claimed. -/
theorem State.placeNext_of_freeSite {s : State} {part : Nat} {p : Partition} {l : Launch} {x : Site}
    (hp : s.part? part = some p)
    (hx : s.freeSite l.record.ask l.record.prio (s.candidates p l.record.cres l.record.pair) = some x) :
    s.placeNext part l = (s.putTeam part l x, true) := by
  simp only [State.placeNext, hp, hx]

theorem State.placeFirst_of_placeNext {s t : State} {part : Nat} {l : Launch} {ls : List Launch}
    (h : s.placeNext part l = (t, true)) : s.placeFirst part (l :: ls) = (t, true) := by
  rw [State.placeFirst, h]

theorem State.placeTeam_of_awake {s : State} {part : Nat} {p : Partition} (hp : s.part? part = some p)
    (hs : s.launchesStop = false) : s.placeTeam part = (s.placeFirst part p.servable).1 := by
  simp [State.placeTeam, hp, hs]

/-- While launches stand still, or with no head to serve, no team is placed. -/
theorem State.placeTeam_of_idle {s : State} {part : Nat} {p : Partition} (hp : s.part? part = some p)
    (h : s.launchesStop = true ∨ p.servable = []) : s.placeTeam part = s := by
  rcases h with hs | hv
  · simp [State.placeTeam, hp, hs]
  · simp [State.placeTeam, hp, hv, State.placeFirst]

/-- A launch to be checked anew is checked before anything is placed (R266). -/
theorem State.coopPlace_of_recheckHead {s : State} {part : Nat} {p : Partition} {l : Launch} (hp : s.part? part = some p)
    (hs : s.launchesStop = false) (hr : p.recheckHead = some l) : s.coopPlace part = s.recheckCoop part p l := by
  simp [State.coopPlace, hp, hs, hr]

/-- A cooperative head that nothing is served before, and whose attempt consumes no error of a slice line, places all its teams;
else of the attempt only the interrupts are left. -/
theorem State.coopPlace_of_coopHead {s t : State} {part : Nat} {p : Partition} {l : Launch} {ok : Bool}
    (hp : s.part? part = some p) (hs : s.launchesStop = false) (hr : p.recheckHead = none) (hc : p.coopHead = some l)
    (hv : p.servable = []) (he : ∀ e ∈ s.sliceErrs, e ∈ t.sliceErrs)
    (ht : s.placeCoop part l.lid (l.record.nteam - l.placed) = (t, ok)) :
    s.coopPlace part = if ok = true then t else { s with interrupts := t.interrupts } := by
  have none_consumed : (s.sliceErrs.find? fun e => !t.sliceErrs.contains e) = none :=
    List.find?_eq_none.mpr fun e h => by simp [he e h]
  simp only [State.coopPlace, hp, hs, hr, hc, hv, ht, State.placeFirst, none_consumed]
  rfl

theorem State.recheckCoop_of_fits {s : State} {part : Nat} {p : Partition} {l : Launch} (hp : s.part? part = some p)
    (hf : p.coopFits l.record = true) : s.recheckCoop part p l = s.setPart (p.setLaunch { l with recheck := false }) := by
  rw [State.recheckCoop, if_pos hf, State.updPart_of_part? hp]

theorem State.recheckCoop_of_unfit {s : State} {part : Nat} {p : Partition} {l : Launch} (hf : p.coopFits l.record = false) :
    s.recheckCoop part p l = s.terminateLaunch part l.lid (Why.plain 5) := by
  simp [State.recheckCoop, hf]

/-- The first candidate with room takes the next team of the head served first, at its start. -/
theorem servedHeadPlacesTeam {s : State} {p : Partition} {part : Nat} {l : Launch} {ls : List Launch} {x : Site}
    (hp : s.part? part = some p) (hs : s.launchesStop = false) (hv : p.servable = l :: ls)
    (hx : s.freeSite l.record.ask l.record.prio (s.candidates p l.record.cres l.record.pair) = some x) :
    exec (.placeTeam part) s = .next (s.putTeam part l x) := by
  have h := State.placeFirst_of_placeNext (ls := ls) (State.placeNext_of_freeSite hp hx)
  rw [exec_placeTeam, execPlaceTeam, State.placeTeam_of_awake hp hs, hv, h]

/-- Teams are placed: the head served first, nothing to place, and cooperative heads. -/
theorem teamsPlaced : Claims.TeamsPlaced := by
  unfold Claims.TeamsPlaced
  refine ⟨?_, ?_, ?_⟩
  · intro s p part l ls x hp hs hv hl hx
    refine ⟨s.putTeam part l x, s.startTeam part l x, s.startGroups part l x, p.afterPlacing l x.core,
      servedHeadPlacesTeam hp hs hv hx, ?_⟩
    rw [State.putTeam_eq x hp hl]
    refine ⟨rfl, rfl, rfl, rfl, rfl, rfl, rfl, rfl, rfl, rfl, rfl, rfl, rfl, rfl, rfl, rfl, s.startGroups_length part l x, ?_,
      ?_, rfl, rfl, Partition.launch?_afterPlacing hl x.core⟩
    · intro i g hg
      obtain ⟨c, hc, rfl⟩ := State.startGroups_getElem? hg
      exact ⟨rfl, rfl, rfl, hc, rfl, rfl, rfl, rfl, rfl, rfl, rfl, rfl, rfl, rfl, s.startGroup_vreg part l x i c,
        fun k hk ha => s.startGroup_sregs_arg part l x i c hk ha, fun k hk => s.startGroup_sregs_zero part l x i c hk⟩
    · exact State.part?_setPart_of_num hp rfl
  · intro s p part hp h
    rw [exec_placeTeam, execPlaceTeam, State.placeTeam_of_idle hp h]
  · intro s s' p part l hp hs
    rw [exec_coopPlace, execCoopPlace]
    refine ⟨fun hr hc hv he => ⟨fun ht => ?_, fun ht => ?_⟩, fun hr => ⟨fun hf => ?_, fun hf => ?_⟩⟩
    · rw [State.coopPlace_of_coopHead hp hs hr hc hv he ht, if_pos rfl]
    · rw [State.coopPlace_of_coopHead hp hs hr hc hv he ht, if_neg Bool.false_ne_true]
    · rw [State.coopPlace_of_recheckHead hp hs hr, State.recheckCoop_of_unfit hf]
    · rw [State.coopPlace_of_recheckHead hp hs hr, State.recheckCoop_of_fits hp hf]

/-! ## A team that is over -/

theorem State.performAll_of_late_nil {s : State} (h : s.late = []) : s.performAll = s := by
  simp [State.performAll, h]

theorem State.reportUnacquired_of_nil (s : State) {t : Team} (h : t.unacquired = []) : s.reportUnacquired t = s := by
  simp [State.reportUnacquired, h]

/-- A cleared slice range reads as zeros (R255). -/
theorem State.read_clearSlices_inside (s : State) {a n x : Nat} (h : a ≤ x ∧ x < a + n) :
    (s.clearSlices a n).slices.read x = 0 := Memory.read_clear_inside _ _ _ _ h

/-- Nothing that reads as 0 comes back with a clear. -/
theorem State.read_clearSlices_zero {s : State} {x : Nat} (a n : Nat) (h : s.slices.read x = 0) :
    (s.clearSlices a n).slices.read x = 0 := by
  by_cases hx : a ≤ x ∧ x < a + n
  · exact State.read_clearSlices_inside s hx
  · exact (Memory.read_clear_other _ _ _ _ (by omega)).trans h

/-- With no write to perform and no crossing to report, the end of a team takes it from the teams, and leaves groups and
partitions. -/
theorem State.removeTeam_frame (s : State) {t : Team} (hlate : s.late = []) (hun : t.unacquired = []) :
    (s.removeTeam t).groups = s.groups ∧ (s.removeTeam t).parts = s.parts ∧
      (s.removeTeam t).teams = s.teams.filter fun u => u.uid != t.uid := by
  simp only [State.removeTeam, State.reportUnacquired_of_nil s hun, State.performAll_of_late_nil hlate]
  split <;> split <;> exact ⟨rfl, rfl, rfl⟩

/-- A team that was taken from the teams is not there. -/
theorem State.team?_of_teams_filter {s t : State} {uid : Nat} (h : t.teams = s.teams.filter fun u => u.uid != uid) :
    t.team? uid = none := by
  simp [State.team?, h, List.find?_eq_none]

/-- The slice allocation of a team whose image is in place is cleared at its end. -/
theorem State.read_slices_removeTeam (s : State) {t : Team} {a : Nat} (hsp : t.spilled = none)
    (ha : sliceSize * t.core + t.sliceOff ≤ a ∧ a < sliceSize * t.core + t.sliceOff + t.sliceLen) :
    (s.removeTeam t).slices.read a = 0 := by
  have cleared := State.read_clearSlices_inside (s.reportUnacquired t).performAll ha
  simp only [State.removeTeam, hsp, Option.isSome_none, Bool.false_eq_true, if_false]
  split
  · exact State.read_clearSlices_zero _ _ cleared
  · exact cleared

theorem State.teamOver_of_none {s : State} {t : Team} (hg : ∀ g ∈ s.groups, g.team ≠ t.uid)
    (hc : ∀ c ∈ s.cores, (∀ e ∈ c.matrix, e.team ≠ t.uid) ∧ ∀ e ∈ c.copies, e.2.team ≠ t.uid) : s.teamOver t = true := by
  have groups_none : (s.groups.any fun g => g.team == t.uid) = false := by simpa using hg
  have engines_none : (s.cores.any fun c =>
      (c.matrix.any fun e => e.team == t.uid) || c.copies.any fun e => e.2.team == t.uid) = false := by
    refine List.any_eq_false.mpr fun c h => ?_
    obtain ⟨hm, hcp⟩ := hc c h
    simpa using ⟨hm, fun a b hb => hcp (a, b) hb⟩
  rw [State.teamOver, groups_none, engines_none]
  rfl

/-! ## A launch whose teams are complete -/

/-- A launch with one more team complete. -/
def Launch.countTeam (l : Launch) : Launch := { l with complete := l.complete + 1 }

/-- A partition from which a launch is gone. -/
def Partition.dropLaunch (p : Partition) (lid : Nat) : Partition :=
  { p with launches := p.launches.filter fun k => k.lid != lid }

/-- A launch whose number is dropped is not there. -/
theorem Partition.launch?_dropLaunch (p : Partition) (lid : Nat) : (p.dropLaunch lid).launch? lid = none := by
  simp [Partition.launch?, Partition.dropLaunch, List.find?_eq_none]

/-- A partition once a launch is complete (R255): its signal is added, and it is gone. -/
def Partition.complete (p : Partition) (l : Launch) : Partition :=
  match l.record.signal with
  | some c => (p.dropLaunch l.lid).signal c
  | none => p.dropLaunch l.lid

/-- A partition after the check whether a launch is complete. -/
def Partition.settleLaunch (p : Partition) (l : Launch) : Partition :=
  if l.complete < l.record.nteam then p else p.complete l

/-- A partition once a team of one of its launches is over. -/
def Partition.afterTeam (p : Partition) (l : Launch) : Partition := (p.setLaunch l.countTeam).settleLaunch l.countTeam

theorem Partition.afterTeam_of_lt (p : Partition) {l : Launch} (h : l.complete + 1 < l.record.nteam) :
    p.afterTeam l = p.setLaunch l.countTeam := if_pos h

theorem Partition.afterTeam_of_le (p : Partition) {l : Launch} (h : l.record.nteam ≤ l.complete + 1) :
    p.afterTeam l = (p.setLaunch l.countTeam).complete l.countTeam := if_neg (Nat.not_lt.mpr h)

theorem Partition.settleLaunch_num (p : Partition) (l : Launch) : (p.settleLaunch l).num = p.num := by
  unfold Partition.settleLaunch Partition.complete
  split
  · rfl
  · split <;> rfl

theorem Partition.launch?_complete (p : Partition) (l : Launch) : (p.complete l).launch? l.lid = none := by
  unfold Partition.complete
  split
  · rw [Partition.signal, Partition.launch?_holdAll]
    exact congrArg (Option.map _) (Partition.launch?_dropLaunch p l.lid)
  · exact Partition.launch?_dropLaunch p l.lid

theorem Partition.evcnt_complete_none (p : Partition) {l : Launch} (h : l.record.signal = none) :
    (p.complete l).evcnt = p.evcnt := by
  simp only [Partition.complete, h]
  rfl

theorem Partition.evcnt_complete_some (p : Partition) {l : Launch} {c : Nat} (h : l.record.signal = some c) :
    (p.complete l).evcnt = p.evcnt.set c (p.evcnt.getD c 0 + 1) := by
  simp only [Partition.complete, h]
  rfl

/-- Dropping what was kept of a launch's code leaves everything else. -/
theorem State.dropKept_frame (s : State) (part lid : Nat) : (s.dropKept part lid).groups = s.groups ∧
    (s.dropKept part lid).teams = s.teams ∧ (s.dropKept part lid).slices = s.slices ∧ (s.dropKept part lid).parts = s.parts := by
  unfold State.dropKept
  split <;> exact ⟨rfl, rfl, rfl, rfl⟩

/-- A launch stays while a team of it is not complete, and else is complete. -/
theorem State.launchOver_eq {s : State} {part lid : Nat} {p : Partition} {l : Launch} (hp : s.part? part = some p)
    (hl : p.launch? lid = some l) : s.launchOver part lid = s.setPart (p.settleLaunch l) := by
  obtain rfl := Partition.lid_of_launch? hl
  rw [State.launchOver, State.updPart_of_part? hp, hl]
  rfl

/-- A team that is over is freed, and its partition counts it as complete. -/
theorem State.teamComplete_eq {s : State} {t : Team} {p : Partition} {l : Launch} (ht : s.team? t.uid = some t)
    (hover : s.teamOver t = true) (hlate : s.late = []) (hun : t.unacquired = []) (hp : s.part? t.part = some p)
    (hl : p.launch? t.lid = some l) (hend : l.ending = none) : s.teamComplete t.uid =
      (((s.removeTeam t).setPart (p.setLaunch l.countTeam)).setPart (p.afterTeam l)).dropKept t.part t.lid := by
  obtain ⟨-, parts_kept, -⟩ := State.removeTeam_frame s hlate hun
  have there := (State.part?_congr parts_kept t.part).trans hp
  have counted := State.launchOver_eq (State.part?_setPart_of_num there (q := p.setLaunch l.countTeam) rfl)
    (Partition.launch?_setLaunch_of_lid hl (l := l.countTeam) rfl)
  rw [Partition.afterTeam, ← counted]
  have going : l.ending.isSome = false := Option.isSome_eq_false_iff.mpr (Option.isNone_iff_eq_none.mpr hend)
  simp only [State.teamComplete, ht, hp, hover, Option.bind_some, hl, going, State.updPart_of_part? there]
  rfl

/-! ## Images restored to their place -/

/-- A spilled group goes on from its image, after that of its team, when its rows fit (R265). -/
theorem State.restoreGroup_eq {s : State} {g : Group} {t : Team} {l : Launch} {k : Nat} {bs : List Byte}
    (hg : s.group? g.uid = some g) (hsp : g.spilled = some k) (hl : s.launchOf g.part g.lid = some l)
    (hon : s.goesOn g.part g.lid = true) (ht : s.team? g.team = some t) (hback : t.spilled = none)
    (hrows : s.rowsFree g = true) (hread : s.readArea l g k = .bytes bs) : s.restoreGroup g.uid =
      (((s.setGroup (s.loadGroup g bs)).dropSlot g.part g.lid k).resumeGroup g.uid).settleBusy g.part := by
  simp only [State.restoreGroup, hg, hsp, hl, hon, ht, hback, hrows, hread]
  rfl

/-- The state with the slices of a team written back from its images. -/
def State.loadSlices (s : State) (t : Team) (bs bs2 : List Byte) : State :=
  if t.pair = true then (s.loadSlice t false bs).loadSlice t true bs2 else s.loadSlice t false bs

@[simp] theorem State.loadSlices_tick (s : State) (t : Team) (bs bs2 : List Byte) : (s.loadSlices t bs bs2).tick = s.tick := by
  unfold State.loadSlices
  split <;> rfl

/-- The state with a team as its images hold it, and their save slots free. -/
def State.loadTeam (s : State) (t : Team) (k k2 : Nat) (bs bs2 : List Byte) : State :=
  (((s.loadSlices t bs bs2).setTeam (t.load bs bs2 s.tick)).dropSlot t.part t.lid k).dropSlot t.part t.lid k2

/-- A spilled team image comes back when its slice range is free, and the groups whose rows are in place go on (R265). -/
theorem State.restoreTeam_eq {s : State} {t : Team} {l : Launch} {k k2 : Nat} {bs bs2 : List Byte}
    (ht : s.team? t.uid = some t) (hsp : t.spilled = some k) (hodd : t.spilledOdd.getD k = k2)
    (hl : s.launchOf t.part t.lid = some l) (hon : s.goesOn t.part t.lid = true) (hfree : s.rangeFree t = true)
    (hread : s.readSlot l t.part k (0x1000 + t.sliceLen) [] = .bytes bs)
    (hread2 : s.readSlot l t.part k2 (0x1000 + t.sliceLen) [] = .bytes bs2) : s.restoreTeam t.uid =
      (((((s.loadTeam t k k2 bs bs2).groups.filter fun g => g.team == t.uid).map (·.uid)).foldl State.resumeGroup
        (s.loadTeam t k k2 bs bs2)).settleBusy t.part) := by
  subst hodd
  rw [State.loadTeam, ← State.loadSlices_tick s t bs bs2]
  simp only [State.restoreTeam, ht, hsp, hl, hon, hfree, hread, hread2]
  rfl

/-- Teams are completed, and spilled images come back. -/
theorem teamsCompletedAndRestored : Claims.TeamsCompletedAndRestored := by
  unfold Claims.TeamsCompletedAndRestored
  refine ⟨?_, ?_, ?_⟩
  · intro s t p l ht hg hc hp hl hend hlate hun
    obtain ⟨groups_same, parts_same, teams_filter⟩ := State.removeTeam_frame s hlate hun
    obtain ⟨kept_groups, kept_teams, kept_slices, kept_parts⟩ := State.dropKept_frame
      (((s.removeTeam t).setPart (p.setLaunch l.countTeam)).setPart (p.afterTeam l)) t.part t.lid
    have there := (State.part?_congr parts_same t.part).trans hp
    have complete := State.teamComplete_eq ht (State.teamOver_of_none hg hc) hlate hun hp hl hend
    refine ⟨_, p.afterTeam l, by rw [exec_teamComplete, execTeamComplete, complete], ?_, ?_, ?_, ?_, ?_, ?_⟩
    · exact State.team?_of_teams_filter (kept_teams.trans teams_filter)
    · exact kept_groups.trans groups_same
    · rw [State.part?_congr kept_parts]
      exact State.part?_setPart_of_num (State.part?_setPart_of_num there rfl) (Partition.settleLaunch_num ..)
    · intro hsp a ha hb
      rw [kept_slices]
      exact State.read_slices_removeTeam s hsp ⟨ha, hb⟩
    · intro hlt
      rw [Partition.afterTeam_of_lt p hlt]
      exact ⟨Partition.launch?_setLaunch_of_lid hl rfl, rfl⟩
    · intro hle
      rw [Partition.afterTeam_of_le p hle, ← Partition.lid_of_launch? hl]
      exact ⟨Partition.launch?_complete .., fun h => Partition.evcnt_complete_none _ h,
        fun c h => Partition.evcnt_complete_some _ h⟩
  · intro s g t l k bs hg hsp hl hpre hend ht hback hrows hread
    rw [exec_groupRestore, execGroupRestore, if_neg Bool.false_ne_true,
      State.restoreGroup_eq hg hsp hl (State.goesOn_of_launchOf hl hpre hend) ht hback hrows hread]
  · intro s t l k k2 bs bs2 ht hsp hodd hl hpre hend hfree hread hread2
    have odd_slot : t.spilledOdd.getD k = k2 := by
      rcases hodd with h | ⟨h, rfl⟩ <;> simp [h]
    rw [exec_groupRestore, execGroupRestore, if_pos rfl,
      State.restoreTeam_eq ht hsp odd_slot hl (State.goesOn_of_launchOf hl hpre hend) hfree hread hread2]
    rfl

/-- Settles O46: the placement of teams, and their completion and restoring. -/
theorem placementEvents : Obligations.PlacementEvents := ⟨teamsPlaced, teamsCompletedAndRestored⟩

end Sys2Proof.Machine
end

section
/-!
Scalar fields: what each reads, and what a write of each does.
-/

namespace Sys2Proof.Machine

open Sys2Proof Sys2Proof.Claims

/-! ## The trap registers -/

/-- The bits of a set of run indices are its members. -/
theorem testBit_idxMask (l : List Nat) (k : Nat) : (idxMask l).testBit k = true ↔ k ∈ l := by
  induction l with
  | nil => simp [idxMask]
  | cons i l ih =>
    rw [idxMask, Nat.testBit_or, Bool.or_eq_true, ih, Nat.testBit_two_pow, decide_eq_true_eq, List.mem_cons,
      eq_comm (a := i)]

/-- The detail that `tinfo` shows: that of the entry which `sel` names, or 0. -/
def TrapRec.shownDetail (r : TrapRec) : W32 := match r.entry with | some f => f.detail | none => 0

theorem TrapRec.tinfo_eq (r : TrapRec) :
    r.tinfo = BitVec.ofNat 64 (r.fset * 2 ^ 40 + r.sel % 32 * 2 ^ 35 + r.shownDetail.toNat) := by
  unfold TrapRec.tinfo TrapRec.shownDetail
  cases r.entry <;> rfl

/-- Bits 31:0 of `tinfo` (R23, Table 4). -/
theorem TrapRec.tinfo_detail (r : TrapRec) : r.tinfo.setWidth 32 = r.shownDetail := by
  apply BitVec.eq_of_toNat_eq
  rw [TrapRec.tinfo_eq, BitVec.toNat_setWidth, BitVec.toNat_ofNat]
  omega

/-- Bits 34:32 of `tinfo` (R23, Table 4). -/
theorem TrapRec.tinfo_reserved (r : TrapRec) : r.tinfo.toNat / 2 ^ 32 % 8 = 0 := by
  rw [TrapRec.tinfo_eq, BitVec.toNat_ofNat]
  omega

/-- Bits 39:35 of `tinfo` (R23, Table 4). -/
theorem TrapRec.tinfo_sel (r : TrapRec) : r.tinfo.toNat / 2 ^ 35 % 32 = r.sel % 32 := by
  rw [TrapRec.tinfo_eq, BitVec.toNat_ofNat]
  omega

/-- Bits 63:40 of `tinfo` (R23, Table 4). -/
theorem TrapRec.tinfo_fset (r : TrapRec) (k : Nat) (hk : k < 24) :
    r.tinfo.getLsbD (40 + k) = true ↔ ∃ f ∈ r.entries, f.idx = k := by
  have shift : (r.fset * 2 ^ 40 + r.sel % 32 * 2 ^ 35 + r.shownDetail.toNat) / 2 ^ 40 = r.fset := by omega
  have inside : 40 + k < 64 := by omega
  rw [TrapRec.tinfo_eq, BitVec.getLsbD_ofNat, Nat.add_comm 40 k, Nat.testBit_add, shift, TrapRec.fset]
  simp [testBit_idxMask, Nat.add_comm k 40, inside]

/-- The `sel` field of a value written to `tinfo` (R23, Table 4). -/
theorem bits_sel (x : Nat) : bits x 39 35 = x / 2 ^ 35 % 32 := by
  rw [bits, Nat.shiftRight_eq_div_pow]
  rfl

/-- The trap registers show the entry that `sel` names (R23). -/
theorem TrapRec.shows_of_entry {r : TrapRec} {f : TrapEntry} (h : r.entry = some f) :
    r.tcause = f.cause ∧ r.taddr = f.taddr ∧ r.tmask = f.tmask ∧ r.tinfo.setWidth 32 = f.detail := by
  simp [TrapRec.tcause, TrapRec.taddr, TrapRec.tmask, TrapRec.tinfo_detail, TrapRec.shownDetail, h]

/-- The trap registers show 0 when `sel` names no failing index (R23). -/
theorem TrapRec.shows_of_no_entry {r : TrapRec} (h : r.entry = none) :
    r.tcause = 0 ∧ r.taddr = 0 ∧ r.tmask = 0 ∧ r.tinfo.setWidth 32 = 0 := by
  simp [TrapRec.tcause, TrapRec.taddr, TrapRec.tmask, TrapRec.tinfo_detail, TrapRec.shownDetail, h]

/-! ## Reads -/

/-- An ordinary scalar (R22). -/
theorem Group.readS_ordinary (g : Group) (cyc : W64) (d : Fld) (hd : d.toNat < 64) :
    g.readS cyc d = g.sregs.getD d.toNat 0 := by
  unfold Group.readS
  split
  iterate 27 · omega
  exact if_pos hd

/-- A role register (R22). -/
theorem Group.readS_crole (g : Group) (cyc : W64) (k : Nat) (hk : k < 4) :
    g.readS cyc (BitVec.ofNat 7 (80 + k)) = g.crole.getD k 0 := by
  interval_cases k <;> rfl

/-- Settles O2: each field's own line of Table 3, and the four fields of `tinfo` from its one number. -/
theorem scalarReadByField : Obligations.ScalarReadByField := by
  intro g cyc
  have world : g.readS cyc 75 = BitVec.ofNat 64 (128 * g.part + g.ctx) := by
    rw [Nat.mul_comm]
    rfl
  exact ⟨g.readS_ordinary cyc, rfl, rfl, rfl, rfl, rfl, rfl, rfl, rfl, rfl, rfl, rfl, world, rfl, rfl, rfl, rfl,
    g.readS_crole cyc, rfl, rfl, rfl, rfl, fun _ => TrapRec.shows_of_entry, TrapRec.shows_of_no_entry,
    g.trap.tinfo_fset, g.trap.tinfo_sel, g.trap.tinfo_reserved⟩

/-! ## Writes -/

/-- An ordinary scalar (R22). -/
theorem Group.writeS_ordinary (g : Group) (d : Fld) (v : W64) (hd : d.toNat < 64) :
    g.writeS d v = { g with sregs := g.sregs.set d.toNat v } := by
  unfold Group.writeS
  split
  iterate 9 · omega
  exact if_pos hd

/-- The mask of a width has the bits of its threads. -/
@[simp] theorem Width.getLsbD_full (w : Width) (t : Nat) : w.full.getLsbD t = decide (t < w.n) := by
  by_cases ht : t < 64
  · cases w
    all_goals
      simp only [Width.full, Width.n]
      interval_cases t <;> rfl
  · have hw : w.n ≤ 64 := by cases w <;> decide
    rw [BitVec.getLsbD_of_ge _ _ (by omega), eq_comm, decide_eq_false_iff_not]
    omega

/-- An action field of `fpm` as a write stores it (R89): 0b11 becomes 0b00. -/
def storedAction (v : W64) (k : Nat) : Nat :=
  if v.toNat / 2 ^ (2 * k + 32) % 4 = 3 then 0 else v.toNat / 2 ^ (2 * k + 32) % 4

theorem storedAction_lt (v : W64) (k : Nat) : storedAction v k < 4 := by
  unfold storedAction
  split <;> omega

/-- One term of the sum that `fixFpm` stores. -/
theorem fixFpm_term (v : W64) (k : Nat) : (if bits v.toNat (2 * k + 33) (2 * k + 32) = 3 then 0
    else bits v.toNat (2 * k + 33) (2 * k + 32) * 2 ^ (2 * k + 32)) = storedAction v k * 2 ^ (2 * k + 32) := by
  have field : bits v.toNat (2 * k + 33) (2 * k + 32) = v.toNat / 2 ^ (2 * k + 32) % 4 := by
    rw [bits, Nat.shiftRight_eq_div_pow, show 2 * k + 33 + 1 - (2 * k + 32) = 2 by omega, show 2 ^ 2 = 4 from rfl]
  rw [field, storedAction]
  split <;> simp

/-- The fields of `fpm` after a write: the rounding mode, two ranges of 0, and eight actions (R89, R122). -/
theorem fixFpm_fields (v : W64) : (fixFpm v).toNat % 4 = v.toNat % 4 ∧ (fixFpm v).toNat / 4 % 2 ^ 30 = 0 ∧
    (fixFpm v).toNat / 2 ^ 48 = 0 ∧
    ∀ k, k < 8 → (fixFpm v).toNat / 2 ^ (2 * k + 32) % 4 = storedAction v k := by
  have h0 := storedAction_lt v 0
  have h1 := storedAction_lt v 1
  have h2 := storedAction_lt v 2
  have h3 := storedAction_lt v 3
  have h4 := storedAction_lt v 4
  have h5 := storedAction_lt v 5
  have h6 := storedAction_lt v 6
  have h7 := storedAction_lt v 7
  have value : (fixFpm v).toNat =
      storedAction v 0 * 2 ^ 32 + storedAction v 1 * 2 ^ 34 + storedAction v 2 * 2 ^ 36 + storedAction v 3 * 2 ^ 38 +
        storedAction v 4 * 2 ^ 40 + storedAction v 5 * 2 ^ 42 + storedAction v 6 * 2 ^ 44 + storedAction v 7 * 2 ^ 46 +
        v.toNat % 4 := by
    simp only [fixFpm, fixFpm_term, BitVec.toNat_ofNat, List.range_succ, List.range_zero, List.nil_append, List.map_append,
      List.map_cons, List.map_nil, List.sum_append, List.sum_cons, List.sum_nil, Nat.add_zero]
    omega
  rw [value]
  refine ⟨by omega, by omega, by omega, fun k hk => ?_⟩
  interval_cases k <;> norm_num only <;> omega

/-- What a write of each scalar field does (R22, R89). -/
theorem scalarFieldWrites : ScalarFieldWrites := by
  intro g d v
  refine ⟨g.writeS_ordinary d v, ?_, ?_, ?_, ?_, ?_, ?_, ?_, ?_, ?_, ?_⟩
  · rintro rfl
    exact ⟨v &&& g.width.full, rfl, fun t => by rw [BitVec.getLsbD_and, Width.getLsbD_full]⟩
  · rintro rfl
    exact ⟨g.lvm &&& v, rfl, fun _ => BitVec.getLsbD_and⟩
  · rintro rfl
    exact ⟨v &&& g.width.full, rfl, fun t => by rw [BitVec.getLsbD_and, Width.getLsbD_full]⟩
  · rintro rfl
    exact ⟨fixFpm v, rfl, fixFpm_fields v⟩
  · rintro rfl
    exact ⟨v &&& 0x3F, rfl, by rw [BitVec.toNat_and]; exact Nat.and_two_pow_sub_one_eq_mod v.toNat 6⟩
  · rintro rfl
    rfl
  · rintro rfl
    have tested : (v != 0) = decide (v ≠ 0) := by simp [bne, beq_eq_decide]
    show { g with trap := g.trap.setCause v, armed := g.armed && v != 0 } = _
    simp only [TrapRec.setCause, beq_iff_eq, tested]
  · rintro rfl
    show { g with trap := { g.trap with sel := bits v.toNat 39 35 } } = _
    rw [bits_sel]
  · rintro rfl
    exact ⟨g.trap.rplq &&& v, rfl, fun _ => BitVec.getLsbD_and⟩
  · rintro rfl
    rfl

/-- After a write of `sel` the trap registers show the entry that it names (R23). -/
theorem selectingATrapEntry : SelectingATrapEntry := by
  intro g v cyc h
  have entries : h.trap.entries = g.trap.entries := rfl
  have sel : h.trap.sel = v.toNat / 2 ^ 35 % 32 := bits_sel v.toNat
  have entry : h.trap.entry = g.trap.entries.find? fun x => x.idx == v.toNat / 2 ^ 35 % 32 := by
    rw [TrapRec.entry, entries, sel]
  exact ⟨fun f hf => TrapRec.shows_of_entry (entry.trans hf), fun hn => TrapRec.shows_of_no_entry (entry.trans hn)⟩

/-- Settles O3: field by field, and by the one entry that `sel` names. -/
theorem scalarWriteByField : Obligations.ScalarWriteByField := ⟨scalarFieldWrites, selectingATrapEntry⟩

end Sys2Proof.Machine
end

section
/-!
The words of the statements in the model's terms: active threads, costs, and how an instruction of a group ends.
-/

namespace Sys2Proof.Machine

open Sys2Proof Sys2Proof.Claims

/-! ## Active threads -/

theorem Group.getLsbD_active (g : Group) (t : Nat) : g.active.getLsbD t = true ↔ Active g t := by
  simp only [Group.active, BitVec.getLsbD_and, Width.getLsbD_full, Bool.and_eq_true, decide_eq_true_eq, Active]
  tauto

theorem Group.mem_active_threads (g : Group) (t : Nat) : t ∈ threads g.active g.width.n ↔ Active g t := by
  rw [mem_threads, Group.getLsbD_active]
  exact and_iff_right_of_imp fun h => h.1

theorem Group.active_eq_zero_iff (g : Group) : g.active = 0 ↔ ¬∃ t, Active g t := by
  constructor
  · rintro h ⟨t, ht⟩
    rw [← g.getLsbD_active, h] at ht
    simp at ht
  · intro h
    apply BitVec.eq_of_getLsbD_eq
    intro t _
    have out : g.active.getLsbD t ≠ true := fun ht => h ⟨t, (g.getLsbD_active t).mp ht⟩
    simpa using out

theorem Group.active_eq_full_iff (g : Group) : g.active = g.width.full ↔ ∀ t, t < g.width.n → Active g t := by
  constructor
  · intro h t ht
    rw [← g.getLsbD_active, h, Width.getLsbD_full, decide_eq_true ht]
  · intro h
    apply BitVec.eq_of_getLsbD_eq
    intro t _
    rw [Width.getLsbD_full, Bool.eq_iff_iff, g.getLsbD_active, decide_eq_true_eq]
    exact ⟨fun ha => ha.1, h t⟩

/-- Of the threads below the width, the active bit is the meet of the two masks. -/
theorem Group.getLsbD_active_of_lt (g : Group) {t : Nat} (ht : t < g.width.n) :
    g.active.getLsbD t = (g.exm.getLsbD t && g.lvm.getLsbD t) := by
  simp [Group.active, ht]

/-- The lowest active thread heads the list of the active ones. -/
theorem lowest_of_isLowest {g : Group} {l : Nat} (h : IsLowest g l) : lowest g.active g.width.n = some l := by
  have least (t : Nat) (ht : t < l) : g.active.getLsbD t = false := by
    have out : g.active.getLsbD t ≠ true := fun ha => absurd (h.2 t ((g.getLsbD_active t).mp ha)) (by omega)
    simpa using out
  rw [lowest, threads, List.head?_filter, List.find?_range_eq_some]
  exact ⟨by simpa using (g.getLsbD_active l).mpr h.1, by simpa using h.1.1, fun t ht => by simp [least t ht]⟩

theorem Group.countMask_active (g : Group) : countMask g.active g.width.n = activeCount g := by
  unfold countMask activeCount threads
  congr 1
  refine List.filter_congr fun t ht => ?_
  exact g.getLsbD_active_of_lt (List.mem_range.mp ht)

@[simp] theorem Group.vcost_eq (g : Group) (once : Bool) : g.vcost once = Claims.cycles g once := by
  rw [Group.vcost, Claims.cycles, g.countMask_active]

/-! ## How an instruction ends -/

theorem instrBytes_eq (i : Instr) : instrBytes i = lengthOf i := rfl

/-- The group moved past an instruction, with its cost counted on its core, is what `after` says. -/
theorem after_eq (s : State) (h : Group) (cost : Nat) (pc : W64) (ends : Option RunEnd) :
    (s.setGroup (h.past pc cost ends)).spend h.core cost = after s h cost pc ends := by
  rw [Group.past_eq]
  rfl

theorem retire_seq_after (i : Instr) (s0 s : State) (g0 h : Group) (cost : Nat) :
    retire i s0 g0 (.seq s h cost) = after s h cost (h.pc + lengthOf i) (endsRun i h) := by
  rw [retire_seq, Group.runFull_eq, after_eq]
  rfl

theorem retire_stop_after (i : Instr) (s0 s : State) (g0 h : Group) (cost : Nat) (how : RunEnd) :
    retire i s0 g0 (.stop s h cost how) = after s h cost (h.pc + lengthOf i) (some how) := after_eq ..

theorem State.immediate_after (s : State) (g : Group) (len : W64) (c : Cause) (d : W32) :
    s.immediate g len c d = after s { g with fails := addFailure ⟨g.runIdx, c, 0, 0, d, false⟩ g.fails } 1 (g.pc + len)
      (some .fall) := after_eq ..

theorem retire_trap_after (i : Instr) (s0 : State) (g0 : Group) (c : Cause) (d : W32) :
    retire i s0 g0 (.trap c d) = after s0 { g0 with fails := addFailure ⟨g0.runIdx, c, 0, 0, d, false⟩ g0.fails } 1
      (g0.pc + lengthOf i) (some .fall) := s0.immediate_after g0 (instrBytes i) c d

section Issue

variable {i : Instr} {s : State} {g : Group} {body : Group → State → Done}

/-- An instruction that issues retires with what its body gives. -/
theorem issue_of_issues (hi : Issues i s g) : issue i s body = .next (retire i s g (body g s)) := by
  obtain ⟨hc, ho, hp⟩ := hi
  exact issue_of i s g body hc ho hp

/-- An instruction whose body goes on makes of its group what the body says. -/
theorem gives_of_issue {h : Group} {cost : Nat} (hx : exec i s = issue i s body) (hb : body g s = .seq s h cost) :
    Gives i s g h cost := by
  intro hi
  rw [hx, issue_of_issues hi, hb, retire_seq_after]

/-- An instruction whose body traps is an immediate trap. -/
theorem traps_of_issue {c : Cause} {d : W32} (hx : exec i s = issue i s body) (hb : body g s = .trap c d) :
    Traps i s g c d := by
  intro hi
  rw [hx, issue_of_issues hi, hb, retire_trap_after]

/-- A scalar instruction writes its value at one cycle (R74, R75). -/
theorem gives_of_scalarInstr {d : Fld} {val : (Fld → W64) → W64} {x : W64} (hx : exec i s = scalarInstr i s d val)
    (hv : val (g.readS (s.cyc g)) = x) : Gives i s g (g.writeS d x) 1 :=
  hv ▸ gives_of_issue hx rfl

/-- A vector instruction writes its register at its cost (R93, R8). -/
theorem gives_of_vecInstr {once : Bool} {d : Fld} {val : Group → State → VReg} {v : VReg}
    (hx : exec i s = vecInstr i s once d val) (hv : val g s = v) : Gives i s g (g.setV d v) (Claims.cycles g once) := by
  subst hv
  exact gives_of_issue hx (by rw [Group.vcost_eq])

end Issue

end Sys2Proof.Machine
end

section
/-!
Writing a vector register in the active threads.
-/

namespace Sys2Proof.Machine

open Sys2Proof Sys2Proof.Claims

/-- A register written by no thread (R12). -/
theorem Group.writeReg_zero (g : Group) (r : Nat) (v : VReg) : g.writeReg r v 0 = g := if_pos rfl

theorem Width.full_ne_zero (w : Width) : w.full ≠ 0 := by cases w <;> decide

/-- A register written by every thread (R24). -/
theorem Group.writeReg_full (g : Group) (r : Nat) (v : VReg) : g.writeReg r v g.width.full =
    { g with vregs := g.vregs.set r v, poison := g.poison.filter fun e => e.reg != r } := by
  rw [Group.writeReg, if_neg g.width.full_ne_zero, if_pos rfl]

/-- A register written by some threads and not by all (R24). -/
theorem Group.writeReg_partial (g : Group) (r : Nat) (v : VReg) {m : W64} (h0 : m ≠ 0) (hf : m ≠ g.width.full) :
    g.writeReg r v m = { g with
      vregs := g.vregs.set r (.g ((List.range g.width.n).map fun t => if m.getLsbD t then v.get t else (g.vreg r).get t))
      poison := poisonAfter g.poison (g.vreg r) r g.width.n m } := by
  rw [Group.writeReg, if_neg h0, if_neg hf]

/-- Writing a register leaves the others of the allocation. -/
theorem Group.vreg_writeReg_other (g : Group) (r k : Nat) (v : VReg) (m : W64) (h : k ≠ r) :
    (g.writeReg r v m).vreg k = g.vreg k := by
  unfold Group.writeReg Group.vreg
  split
  · rfl
  · split <;> simp [List.getD_eq_getElem?_getD, List.getElem?_set_ne (Ne.symm h)]

theorem getD_set_self {α : Type} (l : List α) (r : Nat) (v d : α) (h : r < l.length) : (l.set r v).getD r d = v := by
  simp [List.getD_eq_getElem?_getD, h]

/-- Writing a register changes registers and poison marks only. -/
theorem Group.writeReg_frame (g : Group) (r : Nat) (v : VReg) (m : W64) :
    ∃ vs ps, g.writeReg r v m = { g with vregs := vs, poison := ps } := by
  unfold Group.writeReg
  split
  · exact ⟨_, _, rfl⟩
  · split <;> exact ⟨_, _, rfl⟩

/-- A result of shape G holds its function's value in each thread. -/
theorem get_g_range (f : Nat → W32) {n t : Nat} (ht : t < n) : (VReg.g ((List.range n).map f)).get t = f t := by
  simp [VReg.get, List.getD_eq_getElem?_getD, ht]

/-- Settles O4: no thread, every thread, and the masks between. -/
theorem vectorWriteByMask : Obligations.VectorWriteByMask := by
  intro g d v hr
  have full_of_all := g.active_eq_full_iff.mpr
  refine ⟨fun none => ?_, fun some => ?_⟩
  · rw [Group.setV, g.active_eq_zero_iff.mpr none, Group.writeReg_zero]
  have nonzero : g.active ≠ 0 := fun h => g.active_eq_zero_iff.mp h some
  have of_all (all : ∀ t, t < g.width.n → Active g t) : (g.setV d v).v d = v := by
    rw [Group.setV, full_of_all all, Group.writeReg_full]
    exact getD_set_self _ _ _ _ hr
  have of_not_all (part : ¬∀ t, t < g.width.n → Active g t) : (g.setV d v).v d =
      .g ((List.range g.width.n).map fun t => if g.active.getLsbD t then v.get t else (g.v d).get t) := by
    rw [Group.setV, Group.writeReg_partial g _ v nonzero (mt g.active_eq_full_iff.mp part)]
    exact getD_set_self _ _ _ _ hr
  refine ⟨fun t ht => ?_, fun r hne => Group.vreg_writeReg_other g _ r v _ hne, of_all, fun part => ⟨_, of_not_all part⟩,
    Group.writeReg_frame ..⟩
  rw [← g.getLsbD_active_of_lt ht]
  by_cases all : ∀ t, t < g.width.n → Active g t
  · rw [of_all all, if_pos ((g.getLsbD_active t).mpr (all t ht))]
  · rw [of_not_all all, get_g_range _ ht]

end Sys2Proof.Machine
end

section
/-!
Values of the vector integer instructions in the words of the spec.
-/

namespace Sys2Proof.Machine

open Sys2Proof Sys2Proof.Claims

/-! ## Counts of bits -/

/-- The first part of a range on which a test holds: it holds before its end, and not at it. -/
theorem takeWhile_range (w : Nat) (q : Nat → Bool) :
    ((List.range w).takeWhile q).length ≤ w ∧ (∀ j, j < ((List.range w).takeWhile q).length → q j = true) ∧
      (((List.range w).takeWhile q).length < w → q ((List.range w).takeWhile q).length = false) := by
  have len : ((List.range w).takeWhile q).length = (List.range w).findIdx fun j => !q j := by
    rw [List.takeWhile_eq_take_findIdx_not, List.length_take, Nat.min_eq_left List.findIdx_le_length]
  rw [len]
  refine ⟨by simpa using List.findIdx_le_length (xs := List.range w) (p := fun j => !q j), fun j hj => ?_, fun h => ?_⟩
  · simpa using List.not_of_lt_findIdx hj
  · have stop := List.findIdx_getElem (xs := List.range w) (p := fun j => !q j) (w := by simpa using h)
    rw [List.getElem_range] at stop
    simpa using stop

theorem isPopcount_popc (w x : Nat) : IsPopcount w x (popc w x) := rfl

theorem isClz_clz (w x : Nat) : IsClz w x (clz w x) := by
  simpa [IsClz, clz, bitAt] using takeWhile_range w fun i => !bitAt x (w - 1 - i)

theorem isCtz_ctz (w x : Nat) : IsCtz w x (ctz w x) := by
  simpa [IsCtz, ctz, bitAt] using takeWhile_range w fun i => !bitAt x i

/-! ## Products -/

theorem mulhiI_eq (a b : W32) : mulhiI a b = BitVec.ofInt 32 (a.toInt * b.toInt / 2 ^ 32) := by
  have product : a.signExtend 64 * b.signExtend 64 = BitVec.ofInt 64 (a.toInt * b.toInt) := (BitVec.ofInt_mul ..).symm
  apply BitVec.eq_of_toNat_eq
  rw [mulhiI, product, BitVec.extractLsb'_toNat, BitVec.toNat_ofInt, BitVec.toNat_ofInt, Nat.shiftRight_eq_div_pow]
  omega

theorem mulhiN_eq (a b : W32) : mulhiN a b = BitVec.ofNat 32 (a.toNat * b.toNat / 2 ^ 32) := by
  apply BitVec.eq_of_toNat_eq
  rw [mulhiN, BitVec.extractLsb'_toNat, BitVec.toNat_mul, BitVec.toNat_setWidth, BitVec.toNat_setWidth,
    Nat.mod_eq_of_lt (a := a.toNat) (by omega),
    Nat.mod_eq_of_lt (a := b.toNat) (by omega), BitVec.toNat_ofNat, Nat.shiftRight_eq_div_pow]
  omega

/-! ## Shifts -/

theorem shl32_eq (a n : W32) : shl32 a n = a <<< n.toNat := by
  unfold shl32
  split
  · rfl
  · exact (BitVec.shiftLeft_eq_zero (by omega)).symm

theorem shr32_eq (a n : W32) : shr32 a n = a >>> n.toNat := by
  unfold shr32
  split
  · rfl
  · exact (BitVec.ushiftRight_eq_zero (by omega)).symm

theorem sar32_eq (a n : W32) : sar32 a n = a.sshiftRight n.toNat := by
  unfold sar32
  split
  · rfl
  next far =>
    apply BitVec.eq_of_getLsbD_eq
    intro i hi
    have past : ¬n.toNat + i < 32 := by omega
    have ones : (0xFFFFFFFF#32).getLsbD i = true := by interval_cases i <;> rfl
    rw [BitVec.getLsbD_sshiftRight, if_neg past, decide_eq_false (by omega)]
    cases hm : a.msb
    · simp
    · exact ones

theorem rotl32_eq (a n : W32) : rotl32 a n = a.rotateLeft n.toNat := rfl

theorem toNat_append32 (d a : W32) : (d ++ a).toNat = d.toNat * 2 ^ 32 + a.toNat := by
  rw [BitVec.toNat_append, Nat.shiftLeft_eq, Nat.mul_comm]
  exact (Nat.two_pow_add_eq_or_of_lt a.isLt d.toNat).symm

theorem fshl_eq (d a n : W32) :
    fshl d a n = BitVec.ofNat 32 ((d.toNat * 2 ^ 32 + a.toNat) * 2 ^ (n.toNat % 32) / 2 ^ 32) := by
  apply BitVec.eq_of_toNat_eq
  rw [fshl, BitVec.extractLsb'_toNat, BitVec.toNat_shiftLeft, toNat_append32, Nat.shiftLeft_eq, BitVec.toNat_ofNat,
    Nat.shiftRight_eq_div_pow]
  omega

theorem fshr_eq (d a n : W32) :
    fshr d a n = BitVec.ofNat 32 ((a.toNat * 2 ^ 32 + d.toNat) / 2 ^ (n.toNat % 32)) := by
  apply BitVec.eq_of_toNat_eq
  rw [fshr, BitVec.extractLsb'_toNat, BitVec.toNat_ushiftRight, toNat_append32, BitVec.toNat_ofNat,
    Nat.shiftRight_eq_div_pow, Nat.shiftRight_eq_div_pow, pow_zero, Nat.div_one]

/-! ## Orders -/

theorem minI_eq (a b : W32) : minI a b = if a.toInt ≤ b.toInt then a else b := by
  simp only [minI, BitVec.slt_eq_decide, decide_eq_true_eq, ← not_le, ite_not]

theorem maxI_eq (a b : W32) : maxI a b = if a.toInt ≤ b.toInt then b else a := by
  simp only [maxI, BitVec.slt_eq_decide, decide_eq_true_eq]
  obtain h | h | h := lt_trichotomy a.toInt b.toInt
  · rw [if_pos h, if_pos h.le]
  · rw [BitVec.eq_of_toInt_eq h, ite_self, ite_self]
  · rw [if_neg h.not_gt, if_neg h.not_ge]

theorem minN_eq (a b : W32) : minN a b = if a.toNat ≤ b.toNat then a else b := by
  simp only [minN, BitVec.ult_eq_decide, decide_eq_true_eq, ← not_le, ite_not]

theorem maxN_eq (a b : W32) : maxN a b = if a.toNat ≤ b.toNat then b else a := by
  simp only [maxN, BitVec.ult_eq_decide, decide_eq_true_eq]
  obtain h | h | h := lt_trichotomy a.toNat b.toNat
  · rw [if_pos h, if_pos h.le]
  · rw [BitVec.eq_of_toNat_eq h, ite_self, ite_self]
  · rw [if_neg h.not_gt, if_neg h.not_ge]

/-! ## Bits by a table -/

/-- A number built of the bits of a test has exactly those bits. -/
theorem testBit_sum_bits (p : Nat → Bool) (n j : Nat) :
    ((List.range n).map fun i => b2n (p i) * 2 ^ i).sum < 2 ^ n ∧
      ((List.range n).map fun i => b2n (p i) * 2 ^ i).sum.testBit j = (decide (j < n) && p j) := by
  induction n with
  | zero => simp
  | succ n ih =>
    obtain ⟨below, bits⟩ := ih
    have top : b2n (p n) ≤ 1 := by cases p n <;> simp [b2n]
    rw [List.range_succ, List.map_append, List.sum_append, List.map_singleton, List.sum_singleton, Nat.add_comm,
      Nat.mul_comm]
    refine ⟨?_, ?_⟩
    · have scaled := Nat.mul_le_mul_left (2 ^ n) top
      rw [pow_succ]
      omega
    rw [Nat.testBit_two_pow_mul_add _ below]
    split
    next hlt => rw [bits]; simp [hlt, Nat.lt_succ_of_lt hlt]
    next hge =>
      obtain rfl | hgt := (not_lt.mp hge).eq_or_lt
      · cases p n <;> simp [b2n]
      · have far : ¬j < n + 1 := by omega
        have high : b2n (p n) < 2 ^ (j - n) := lt_of_le_of_lt top (Nat.one_lt_two_pow (by omega))
        simp [far, Nat.testBit_lt_two_pow high]

theorem getLsbD_lop3 (k : BitVec 8) (a b c : W32) (j : Nat) (hj : j < 32) : (lop3 k a b c).getLsbD j =
    k.getLsbD (4 * (a.getLsbD j).toNat + 2 * (b.getLsbD j).toNat + (c.getLsbD j).toNat) := by
  have same (x : Bool) : b2n x = x.toNat := by cases x <;> rfl
  rw [lop3, BitVec.getLsbD_ofNat, (testBit_sum_bits _ 32 j).2]
  simp [hj, same]

theorem getLsbD_brev (a : W32) (j : Nat) (hj : j < 32) : (brev a).getLsbD j = a.getLsbD (31 - j) := by
  rw [brev, BitVec.getLsbD_reverse, BitVec.getMsbD, decide_eq_true hj]
  rfl

end Sys2Proof.Machine
end

section
/-!
The element-wise vector instructions: what they write, and in which shape.
-/

namespace Sys2Proof.Machine

open Sys2Proof Sys2Proof.Claims

/-! ## Element-wise results -/

@[simp] theorem VReg.get_u (x : W32) (t : Nat) : (VReg.u x).get t = x := rfl

theorem VReg.get_of_isU {v : VReg} (h : v.isU = true) (a b : Nat) : v.get a = v.get b := by
  cases v with
  | u x => rfl
  | a _ _ | g _ => simp [VReg.isU] at h

/-- Under the once mark the result is the value at the lowest active thread (R11). -/
theorem Group.mapV_once {g : Group} {allU : Bool} {f : Nat → W32} {l : Nat} (hl : IsLowest g l) :
    g.mapV true allU f = .u (f l) := by
  rw [Group.mapV, if_pos rfl, lowest_of_isLowest hl, Option.getD_some]

/-- Without it the result has shape U exactly when every source has it (R24). -/
theorem Group.mapV_shape (g : Group) (allU : Bool) (f : Nat → W32) :
    (g.mapV false allU f).isU = allU ∧ (g.mapV false allU f).isA = false := by
  cases allU <;> exact ⟨rfl, rfl⟩

section Results

variable {i : Instr} {s : State} {g : Group} {once : Bool} {d a b : Fld}

/-- An element-wise instruction writes its function's values, in the shape that its sources give. -/
theorem writes_of_mapV {uni : Prop} {val f : Nat → W32} {allU : Bool} {body : Group → State → VReg}
    (hx : exec i s = vecInstr i s once d body) (hb : body g s = g.mapV once allU f) (hu : uni ↔ allU = true)
    (same : allU = true → ∀ x y, f x = f y) (hf : ∀ t, f t = val t) : Writes i s g once d uni val := by
  obtain rfl : f = val := funext hf
  intro hi
  refine ⟨_, gives_of_vecInstr hx hb hi, ?_, ?_⟩
  · rintro rfl
    obtain ⟨isU, isA⟩ := g.mapV_shape allU f
    exact ⟨fun t ht => g.mapV_get allU f t ht same, fun h => isU.trans (hu.mp h),
      fun h => ⟨isU.trans (by simpa using mt hu.mpr h), isA⟩⟩
  · rintro rfl l hl
    exact Group.mapV_once hl

/-- An instruction of one source. -/
theorem writes_of_vec1 {f h : W32 → W32} (hx : exec i s = vec1 i s once d a f) (hf : ∀ x, f x = h x) :
    Writes i s g once d ((g.v a).isU = true) (fun t => h ((g.v a).get t)) :=
  writes_of_mapV hx rfl Iff.rfl (fun hu x y => by rw [VReg.get_of_isU hu x y]) fun t => hf _

/-- An instruction of two sources. -/
theorem writes_of_vec2 {f h : W32 → W32 → W32} (hx : exec i s = vec2 i s once d a b f) (hf : ∀ x y, f x y = h x y) :
    Writes i s g once d ((g.v a).isU = true ∧ (g.v b).isU = true) (fun t => h ((g.v a).get t) ((g.v b).get t)) := by
  refine writes_of_mapV hx rfl (Bool.and_eq_true ..).symm.to_iff (fun hu x y => ?_) fun t => hf _ _
  obtain ⟨ha, hb⟩ := (Bool.and_eq_true ..).to_iff.mp hu
  rw [VReg.get_of_isU ha x y, VReg.get_of_isU hb x y]

/-- An instruction of two sources and the prior destination. -/
theorem writes_of_vec3 {f h : W32 → W32 → W32 → W32} (hx : exec i s = vec3 i s once d a b f)
    (hf : ∀ z x y, f z x y = h z x y) :
    Writes i s g once d ((g.v d).isU = true ∧ (g.v a).isU = true ∧ (g.v b).isU = true)
      (fun t => h ((g.v d).get t) ((g.v a).get t) ((g.v b).get t)) := by
  have all : ((g.v d).isU = true ∧ (g.v a).isU = true ∧ (g.v b).isU = true) ↔
      ((g.v d).isU && (g.v a).isU && (g.v b).isU) = true := by
    rw [Bool.and_eq_true, Bool.and_eq_true, and_assoc]
  refine writes_of_mapV hx rfl all (fun hu x y => ?_) fun t => hf _ _ _
  obtain ⟨hd, ha, hb⟩ := all.mpr hu
  rw [VReg.get_of_isU hd x y, VReg.get_of_isU ha x y, VReg.get_of_isU hb x y]

end Results

/-! ## Shapes with rows of their own (R24, Table 5) -/

/-- A row of Table 5 gives the register of a function: its element in each thread is the function of the sources'. -/
def RowOf (row : VReg → VReg → Option VReg) (f : W32 → W32 → W32) : Prop :=
  ∀ a b r, row a b = some r → ∀ t, r.get t = f (a.get t) (b.get t)

theorem rowOf_vadd : RowOf vaddReg (· + ·) := by
  rintro (x | ⟨x, p⟩ | xs) (y | ⟨y, q⟩ | ys) r h t <;> cases h
  all_goals simp only [VReg.get]
  all_goals ring

theorem rowOf_vsub : RowOf vsubReg (· - ·) := by
  rintro (x | ⟨x, p⟩ | xs) (y | ⟨y, q⟩ | ys) r h t <;> cases h
  all_goals simp only [VReg.get]
  all_goals ring

theorem rowOf_vmul : RowOf vmulReg (· * ·) := by
  rintro (x | ⟨x, p⟩ | xs) (y | ⟨y, q⟩ | ys) r h t <;> cases h
  all_goals simp only [VReg.get]
  all_goals ring

theorem rowOf_vshl : RowOf vshlReg (fun x y => x <<< y.toNat) := by
  rintro (x | ⟨x, p⟩ | xs) (y | ⟨y, q⟩ | ys) r h t <;> cases h
  all_goals simp only [VReg.get, shl32_eq, BitVec.shiftLeft_eq_mul_twoPow]
  all_goals ring

/-- An instruction of a row that gives no register is element-wise. -/
theorem Group.shaped_none {g : Group} {row : VReg → VReg → Option VReg} {f : W32 → W32 → W32} {a b : VReg}
    (h : row a b = none) (once : Bool) :
    g.shaped once row f a b = g.mapV once (a.isU && b.isU) fun t => f (a.get t) (b.get t) := by
  cases once <;> simp [Group.shaped, h]

theorem Group.shaped_some {g : Group} {row : VReg → VReg → Option VReg} {f : W32 → W32 → W32} {a b r : VReg}
    (h : row a b = some r) : g.shaped false row f a b = r := by
  simp [Group.shaped, h]

theorem Group.shaped_once (g : Group) (row : VReg → VReg → Option VReg) (f : W32 → W32 → W32) (a b : VReg) :
    g.shaped true row f a b = g.mapV true (a.isU && b.isU) fun t => f (a.get t) (b.get t) := rfl

/-- The register of an instruction with rows of its own holds its function's value in each thread. -/
theorem Group.shaped_get {g : Group} {row : VReg → VReg → Option VReg} {f : W32 → W32 → W32} (hr : RowOf row f)
    (a b : VReg) {t : Nat} (ht : t < g.width.n) : (g.shaped false row f a b).get t = f (a.get t) (b.get t) := by
  cases h : row a b with
  | some r => rw [Group.shaped_some h, hr a b r h]
  | none =>
    rw [Group.shaped_none h]
    refine g.mapV_get _ (fun t => f (a.get t) (b.get t)) t ht fun hu x y => ?_
    obtain ⟨ha, hb⟩ := (Bool.and_eq_true ..).to_iff.mp hu
    rw [VReg.get_of_isU ha x y, VReg.get_of_isU hb x y]

section Shaped

variable {i : Instr} {s : State} {g : Group} {once : Bool} {d : Fld}

theorem writesShaped_of_shaped {row : VReg → VReg → Option VReg} {f h : W32 → W32 → W32} {x y : VReg}
    {body : Group → State → VReg} (hx : exec i s = vecInstr i s once d body) (hb : body g s = g.shaped once row f x y)
    (hf : f = h) (hr : RowOf row h) : WritesShaped i s g once d (fun t => h (x.get t) (y.get t)) := by
  subst hf
  intro hi
  refine ⟨_, gives_of_vecInstr hx hb hi, ?_, ?_⟩
  · rintro rfl t ht
    exact Group.shaped_get hr x y ht
  · rintro rfl l hl
    rw [Group.shaped_once, Group.mapV_once hl]

/-- `vmov` writes its source's elements, under the once mark that of the lowest active thread. -/
theorem writesShaped_vmov (e : Bool) (a : Fld) :
    WritesShaped (.vmov e once d a) s g once d (fun t => (g.v a).get t) := by
  intro hi
  refine ⟨_, gives_of_vecInstr (Laws.exec_vmov ..) rfl hi, ?_, ?_⟩
  · rintro rfl t _
    rfl
  · rintro rfl l hl
    exact Group.mapV_once (allU := false) hl

/-- `vtid` writes each thread's own index. -/
theorem writesShaped_vtid (e : Bool) : WritesShaped (.vtid e d) s g false d (fun t => BitVec.ofNat 32 t) := by
  intro hi
  refine ⟨_, gives_of_vecInstr (Laws.exec_vtid ..) rfl hi, fun _ t _ => ?_, fun h => nomatch h⟩
  simp [VReg.get]

end Shaped

/-- Settles O5: an instruction is element-wise over one, two or three sources, or has rows of its own, and its function is that
of its table. -/
theorem vectorIntegerResults : Obligations.VectorIntegerResults := by
  intro s g e u d a b c k x y z u2 u1 u3
  refine ⟨writesShaped_of_shaped (Laws.exec_vadd ..) rfl rfl rowOf_vadd,
    writesShaped_of_shaped (Laws.exec_vsub ..) rfl rfl rowOf_vsub,
    writesShaped_of_shaped (Laws.exec_vmul ..) rfl rfl rowOf_vmul,
    writes_of_vec2 (Laws.exec_vmulhiI ..) mulhiI_eq,
    writes_of_vec2 (Laws.exec_vmulhiN ..) mulhiN_eq,
    writes_of_vec3 (Laws.exec_vmac ..) fun _ _ _ => rfl,
    writes_of_vec2 (Laws.exec_vand ..) fun _ _ => rfl,
    writes_of_vec2 (Laws.exec_vor ..) fun _ _ => rfl,
    writes_of_vec2 (Laws.exec_vxor ..) fun _ _ => rfl,
    writes_of_vec2 (Laws.exec_vandn ..) fun _ _ => rfl,
    writesShaped_of_shaped (Laws.exec_vshl ..) rfl (funext₂ shl32_eq) rowOf_vshl,
    writes_of_vec2 (Laws.exec_vshrN ..) shr32_eq,
    writes_of_vec2 (Laws.exec_vshrI ..) sar32_eq,
    writes_of_vec2 (Laws.exec_vrotl ..) rotl32_eq,
    writes_of_vec3 (Laws.exec_vfshl ..) fshl_eq,
    writes_of_vec3 (Laws.exec_vfshr ..) fshr_eq,
    writes_of_vec2 (Laws.exec_vminI ..) minI_eq,
    writes_of_vec2 (Laws.exec_vmaxI ..) maxI_eq,
    writes_of_vec2 (Laws.exec_vminN ..) minN_eq,
    writes_of_vec2 (Laws.exec_vmaxN ..) maxN_eq,
    ⟨_, fun t => isPopcount_popc 32 _, writes_of_vec1 (Laws.exec_vpopc ..) fun _ => rfl⟩,
    ⟨_, fun t => isClz_clz 32 _, writes_of_vec1 (Laws.exec_vclz ..) fun _ => rfl⟩,
    ⟨fun t => brev (x t), fun t => getLsbD_brev (x t), writes_of_vec1 (Laws.exec_vbrev ..) fun _ => rfl⟩,
    writesShaped_vmov e a, ?_, writesShaped_vtid e,
    ⟨fun t => lop3 k (x t) (y t) ((g.v c).get t), fun t => getLsbD_lop3 k _ _ _, ?_⟩⟩
  · exact writes_of_mapV (Laws.exec_vsel ..) rfl (by simp) (fun h => nomatch h) fun _ => rfl
  · refine writes_of_mapV (Laws.exec_vlop3 ..) rfl (by simp [and_assoc]) (fun hu t v => ?_) fun _ => rfl
    simp only [Bool.and_eq_true] at hu
    obtain ⟨⟨ha, hb⟩, hc⟩ := hu
    rw [VReg.get_of_isU ha t v, VReg.get_of_isU hb t v, VReg.get_of_isU hc t v]

/-! ## Shapes under a full mask -/

/-- A register of neither other shape has one value per thread. -/
theorem VReg.eq_g {v : VReg} (h : v.isU = false ∧ v.isA = false) : ∃ xs, v = .g xs := by
  cases v with
  | g xs => exact ⟨xs, rfl⟩
  | u _ | a _ _ => simp [VReg.isU, VReg.isA] at h

theorem VReg.eq_a {v : VReg} (h : v.isA = true) : ∃ x st, v = .a x st := by
  cases v with
  | a x st => exact ⟨x, st, rfl⟩
  | u _ | g _ => simp [VReg.isA] at h

/-- A row has no register for a source of shape G. -/
def NoRowOfG (row : VReg → VReg → Option VReg) : Prop := ∀ xs v, row (.g xs) v = none ∧ row v (.g xs) = none

theorem noRowOfG_vadd : NoRowOfG vaddReg := fun _ v => ⟨rfl, by cases v <;> rfl⟩

theorem noRowOfG_vsub : NoRowOfG vsubReg := fun _ v => ⟨rfl, by cases v <;> rfl⟩

theorem noRowOfG_vmul : NoRowOfG vmulReg := fun _ v => ⟨rfl, by cases v <;> rfl⟩

theorem noRowOfG_vshl : NoRowOfG vshlReg := fun _ v => ⟨rfl, by cases v <;> rfl⟩

/-- An immediate of a shift is its own amount. -/
theorem toNat_vimm {i : BitVec 9} (hi : i.toNat < 32) : (vimm i).toNat = i.toNat := by
  have positive : i.msb = false := by rw [BitVec.msb_eq_false_iff_two_mul_lt]; omega
  rw [vimm, BitVec.toNat_signExtend, positive, if_neg Bool.false_ne_true, BitVec.toNat_setWidth]
  omega

/-- An instruction with rows of its own writes the register of the row of its sources; where Table 5 has no row for them and one
of them is not U, in shape G the values of its function. -/
def GivesRows (i : Instr) (s : State) (g : Group) (d : Fld) (row : VReg → VReg → Option VReg) (h : W32 → W32 → W32)
    (x y : VReg) : Prop :=
  (∀ r, row x y = some r → Gives i s g (g.setV d r) (cycles g false)) ∧
  (row x y = none → x.isU = false ∨ y.isU = false →
    Gives i s g (g.setV d (.g ((List.range g.width.n).map fun t => h (x.get t) (y.get t)))) (cycles g false))

section Gives

variable {i : Instr} {s : State} {g : Group} {d : Fld} {body : Group → State → VReg} {row : VReg → VReg → Option VReg}
  {f h : W32 → W32 → W32} {x y : VReg}

theorem givesRows_of_shaped (hx : exec i s = vecInstr i s false d body) (hb : body g s = g.shaped false row f x y)
    (hf : f = h) : GivesRows i s g d row h x y := by
  subst hf
  refine ⟨fun r hr => gives_of_vecInstr hx (hb.trans (Group.shaped_some hr)), fun hr hU => ?_⟩
  have notU : (x.isU && y.isU) = false := Bool.and_eq_false_iff.mpr hU
  exact gives_of_vecInstr hx (hb.trans ((Group.shaped_none hr false).trans (by rw [notU]; rfl)))

/-- With a source of shape G it writes the values in shape G. -/
theorem GivesRows.of_g (rows : GivesRows i s g d row h x y) (hG : NoRowOfG row)
    (either : (x.isU = false ∧ x.isA = false) ∨ (y.isU = false ∧ y.isA = false)) :
    Gives i s g (g.setV d (.g ((List.range g.width.n).map fun t => h (x.get t) (y.get t)))) (cycles g false) := by
  refine rows.2 ?_ (either.imp And.left And.left)
  obtain hg | hg := either
  · obtain ⟨xs, rfl⟩ := VReg.eq_g hg
    exact (hG xs y).1
  · obtain ⟨xs, rfl⟩ := VReg.eq_g hg
    exact (hG xs x).2

end Gives

section Rows

variable (s : State) (g : Group) (e : Bool) (d a b : Fld) (i : BitVec 9)

theorem givesRows_vadd : GivesRows (.vadd e false d a b) s g d vaddReg (· + ·) (g.v a) (g.v b) :=
  givesRows_of_shaped (Laws.exec_vadd ..) rfl rfl

theorem givesRows_vsub : GivesRows (.vsub e false d a b) s g d vsubReg (· - ·) (g.v a) (g.v b) :=
  givesRows_of_shaped (Laws.exec_vsub ..) rfl rfl

theorem givesRows_vmul : GivesRows (.vmul e false d a b) s g d vmulReg (· * ·) (g.v a) (g.v b) :=
  givesRows_of_shaped (Laws.exec_vmul ..) rfl rfl

theorem givesRows_vshl : GivesRows (.vshl e false d a b) s g d vshlReg (fun x y => x <<< y.toNat) (g.v a) (g.v b) :=
  givesRows_of_shaped (Laws.exec_vshl ..) rfl (funext₂ shl32_eq)

theorem givesRows_vaddi : GivesRows (.vaddi e false d a i) s g d vaddReg (· + ·) (g.v a) (.u (vimm i)) :=
  givesRows_of_shaped (Laws.exec_vaddi ..) rfl rfl

theorem givesRows_vmuli : GivesRows (.vmuli e false d a i) s g d vmulReg (· * ·) (g.v a) (.u (vimm i)) :=
  givesRows_of_shaped (Laws.exec_vmuli ..) rfl rfl

theorem givesRows_vshli :
    GivesRows (.vshli e false d a i) s g d vshlReg (fun x y => x <<< y.toNat) (g.v a) (.u (vimm i)) :=
  givesRows_of_shaped (Laws.exec_vshli ..) rfl (funext₂ shl32_eq)

end Rows

theorem vshlReg_uu (p q : W32) : vshlReg (.u p) (.u q) = some (.u (p <<< q.toNat)) := by rw [← shl32_eq]; rfl

theorem vshlReg_au (p st q : W32) : vshlReg (.a p st) (.u q) = some (.a (p <<< q.toNat) (st <<< q.toNat)) := by
  rw [← shl32_eq, ← shl32_eq]; rfl

/-- Settles O6: row by row of Table 5, and shape G where it has none. -/
theorem vectorShapes : Obligations.VectorShapes := by
  intro s g e d a b i makes x y isG makesG
  have add := givesRows_vadd s g e d a b
  have sub := givesRows_vsub s g e d a b
  have mul := givesRows_vmul s g e d a b
  have shl := givesRows_vshl s g e d a b
  have addi := givesRows_vaddi s g e d a i
  have muli := givesRows_vmuli s g e d a i
  have shli := givesRows_vshli s g e d a i
  refine ⟨fun p q ha hb => ?_, fun p q st ha hb => ?_, fun p q st ha hb => ?_, fun p q p1 q1 ha hb => ?_,
    fun p st ha => ?_, fun p ha => ?_, fun either => ?_, ?_, ?_, fun ha => ?_,
    gives_of_vecInstr (Laws.exec_vmov ..) rfl, gives_of_vecInstr (Laws.exec_vtid ..) rfl⟩
  · rw [ha, hb] at add sub mul shl
    exact ⟨add.1 _ rfl, sub.1 _ rfl, mul.1 _ rfl, shl.1 _ (vshlReg_uu p q)⟩
  · rw [ha, hb] at add sub mul shl
    exact ⟨add.1 _ rfl, sub.1 _ rfl, mul.1 _ rfl, shl.1 _ (vshlReg_au p st q)⟩
  · rw [ha, hb] at add sub mul
    exact ⟨add.1 _ rfl, sub.1 _ rfl, mul.1 _ rfl⟩
  · rw [ha, hb] at add sub
    exact ⟨add.1 _ rfl, sub.1 _ rfl⟩
  · rw [ha] at addi muli shli
    exact ⟨addi.1 _ rfl, muli.1 _ rfl, fun hi => shli.1 _ (toNat_vimm hi ▸ vshlReg_au p st (vimm i))⟩
  · rw [ha] at addi muli shli
    exact ⟨addi.1 _ rfl, muli.1 _ rfl, fun hi => shli.1 _ (toNat_vimm hi ▸ vshlReg_uu p (vimm i))⟩
  · exact ⟨add.of_g noRowOfG_vadd either, sub.of_g noRowOfG_vsub either, mul.of_g noRowOfG_vmul either,
      shl.of_g noRowOfG_vshl either⟩
  · rintro ⟨ha, hb⟩
    obtain ⟨p, p1, ha⟩ := VReg.eq_a ha
    obtain ⟨q, q1, hb⟩ := VReg.eq_a hb
    exact mul.2 (by rw [ha, hb]; rfl) (.inl (by rw [ha]; rfl))
  · intro hb
    obtain ⟨q, q1, hb⟩ := VReg.eq_a hb
    exact shl.2 (by rw [hb]; cases g.v a <;> rfl) (.inr (by rw [hb]; rfl))
  · refine ⟨addi.of_g noRowOfG_vadd (.inl ha), muli.of_g noRowOfG_vmul (.inl ha), fun hi => ?_⟩
    have amount : (vimm i).toNat = i.toNat := toNat_vimm hi
    simpa only [VReg.get_u, amount] using shli.of_g noRowOfG_vshl (.inl ha)

end Sys2Proof.Machine
end

section
/-!
System instructions, and operations that an instruction hands on.
-/

namespace Sys2Proof.Machine

open Sys2Proof Sys2Proof.Claims

/-! ## Operations handed on -/

theorem deferred_some {i : Instr} {g h : Group} {s : State} {op : DOp} {cost : Nat} {act : State → State}
    (hh : (act (s.setGroup (g.addPend i op s))).group? g.uid = some h) :
    deferred i g s op cost act = .seq (act (s.setGroup (g.addPend i op s))) h cost := by
  simp only [deferred, hh]

theorem deferred_none {i : Instr} {g : Group} {s : State} {op : DOp} {cost : Nat} {act : State → State}
    (hn : (act (s.setGroup (g.addPend i op s))).group? g.uid = none) :
    deferred i g s op cost act = .dead (act (s.setGroup (g.addPend i op s))) := by
  simp only [deferred, hn]

/-- An instruction whose body captures an operation joins it to those of the run and hands it on (R15). -/
theorem handsIn_of_deferred {i : Instr} {s0 s : State} {g0 g : Group} {op : DOp} {cost : Nat} {act : State → State}
    {body : Group → State → Done} (hx : exec i s0 = issue i s0 body) (hb : body g0 s0 = deferred i g s op cost act)
    (hi : Issues i s0 g0) : HandsIn i s0 s g op cost act := by
  refine ⟨_, hx.trans (issue_of_issues hi), fun h hh => ?_, fun hn => ?_⟩
  · rw [hb, deferred_some hh, retire_seq_after]
    rfl
  · rw [hb, deferred_none hn]
    rfl

/-- A failure found at issue joins those of the run, which goes on (R26, R27). -/
theorem failsNow_of_issue {i : Instr} {s : State} {g : Group} {c : Cause} {detail : W32} {mask addr : W64} {cost : Nat}
    {body : Group → State → Done} (hx : exec i s = issue i s body)
    (hb : body g s = .seq s (g.failNow c detail mask addr) cost) : FailsNow i s g c detail mask addr cost :=
  gives_of_issue hx hb

/-! ## System instructions -/

theorem getLsbD_three_shiftLeft (n j : Nat) (hj : j < 64) :
    ((3#64) <<< n).getLsbD j = (decide (j = n) || decide (j = n + 1)) := by
  have three (m : Nat) : (3#64).getLsbD m = (decide (m = 0) || decide (m = 1)) := by
    rw [BitVec.getLsbD_ofNat, show 3 = 2 ^ 2 - 1 from rfl, Nat.testBit_two_pow_sub_one, Bool.eq_iff_iff]
    simp only [Bool.and_eq_true, Bool.or_eq_true, decide_eq_true_eq]
    omega
  rw [BitVec.getLsbD_shiftLeft, three, Bool.eq_iff_iff]
  simp only [Bool.and_eq_true, Bool.or_eq_true, Bool.not_eq_true', decide_eq_true_eq, decide_eq_false_iff_not]
  omega

/-- `fpm` with an action replaced: the two bits of its class are the action's, the others stay (R91). -/
theorem getLsbD_setAction (fpm : W64) (k : Nat) (act : BitVec 2) (j : Nat) (hj : j < 64) :
    (setAction fpm k act).getLsbD j = if j = 2 * k + 32 then act.getLsbD 0
      else if j = 2 * k + 33 then act.getLsbD 1 else fpm.getLsbD j := by
  rw [setAction, BitVec.getLsbD_or, BitVec.getLsbD_and, BitVec.getLsbD_not, getLsbD_three_shiftLeft _ _ hj,
    BitVec.getLsbD_shiftLeft, BitVec.getLsbD_setWidth]
  obtain rfl | rfl | ⟨h0, h1⟩ : j = 2 * k + 32 ∨ j = 2 * k + 32 + 1 ∨ (j ≠ 2 * k + 32 ∧ j ≠ 2 * k + 32 + 1) := by omega
  · simp [hj]
  · simp [hj]
  · have above : j < 2 * k + 32 ∨ 2 ≤ j - (2 * k + 32) := by omega
    have zero : (!decide (j < 2 * k + 32) && act.getLsbD (j - (2 * k + 32))) = false := by
      obtain h | h := above
      · simp [h]
      · simp [BitVec.getLsbD_of_ge act _ h]
    simp only [h0, h1, hj, decide_true, decide_false, Bool.or_false, Bool.not_false, Bool.true_and, Bool.and_true, if_false]
    rw [Bool.and_left_comm, zero, Bool.and_false, Bool.or_false]

/-- A run end costs one cycle, and ends the run whatever the E bit (R13). -/
theorem ends_of_issue {i : Instr} {s : State} {g : Group} {how : RunEnd} {body : Group → State → Done}
    (hx : exec i s = issue i s body) (hb : body g s = .stop s g 1 how) (hi : Issues i s g) :
    exec i s = .next (after s g 1 (g.pc + lengthOf i) (some how)) := by
  rw [hx, issue_of_issues hi, hb, retire_stop_after]

/-- `wbase` inside the allocation (R80). -/
theorem gives_wbase (s : State) (g : Group) (e : Bool) (n : BitVec 5) (h : 16 * n.toNat < g.alloc) :
    Gives (.wbase e n) s g { g with wb := 16 * n.toNat } 1 :=
  gives_of_issue (Laws.exec_wbase ..) (if_neg (by omega))

/-- `wbase` outside the allocation (R80). -/
theorem traps_wbase (s : State) (g : Group) (e : Bool) (n : BitVec 5) (h : g.alloc ≤ 16 * n.toNat) :
    Traps (.wbase e n) s g .wbaseRange 0 :=
  traps_of_issue (Laws.exec_wbase ..) (if_pos h)

/-- `launch` at an address that is no multiple of 128 (R92). -/
theorem failsNow_launch (s : State) (g : Group) (e : Bool) (a : Fld) (q : BitVec 4)
    (h : (g.readS (s.cyc g) a).toNat % 128 ≠ 0) :
    FailsNow (.launch e a q) s g .alignment 0 0 (g.readS (s.cyc g) a) 1 :=
  failsNow_of_issue (Laws.exec_launch ..) (if_pos h)

/-- `launch` at a multiple of 128 (R92). -/
theorem hands_launch (s : State) (g : Group) (e : Bool) (a : Fld) (q : BitVec 4)
    (h : (g.readS (s.cyc g) a).toNat % 128 = 0) :
    Hands (.launch e a q) s g (.launch (g.readS (s.cyc g) a) q.toNat) 1 fun w =>
      w.launchIssue g.uid (g.runIdx + 32 * g.tag) q.toNat (g.readS (s.cyc g) a) (s.waitsForQueue g.part q.toNat) :=
  handsIn_of_deferred (Laws.exec_launch ..) (if_neg (not_not.mpr h))

/-- Settles O37: each instruction by the way its body ends. -/
theorem systemInstructionResults : Obligations.SystemInstructionResults := by
  intro s g e a c k n8 n id q act cls ends addr args count h
  exact ⟨gives_wbase s g e n, traps_wbase s g e n, traps_of_issue (Laws.exec_trap ..) rfl,
    ends_of_issue (Laws.exec_exit ..) rfl, ends_of_issue (Laws.exec_yield ..) rfl, ends_of_issue (Laws.exec_bar ..) rfl,
    ends_of_issue (Laws.exec_rtrap ..) rfl, handsIn_of_deferred (Laws.exec_sys ..) rfl,
    gives_of_issue (Laws.exec_evcfg ..) rfl,
    ⟨setAction h.fpm cls.toNat act, gives_of_issue (Laws.exec_evcfg ..) rfl,
      getLsbD_setAction h.fpm cls.toNat act⟩,
    failsNow_launch s g e a q, hands_launch s g e a q⟩

end Sys2Proof.Machine
end

section
/-!
Every instruction of a group issues: its operands are checked, and poison is consumed, before its body has an effect.
-/

namespace Sys2Proof.Machine

open Sys2Proof Sys2Proof.Claims

/-! ## The operand forms -/

/-- An outcome is the issue of `i` in `s`, and the body of it ends, for every group, as `P` says. -/
def Runs (i : Instr) (s : State) (P : Group → Done → Prop) (o : Host.Outcome State Fault Refusal) : Prop :=
  ∃ body, o = issue i s body ∧ ∀ g, P g (body g s)

section Forms

variable {i : Instr} {s : State} {P : Group → Done → Prop}

theorem Runs.issue {body : Group → State → Done} (h : ∀ g, P g (body g s)) : Runs i s P (issue i s body) := ⟨body, rfl, h⟩

theorem Runs.vecInstr {once : Bool} {d : Fld} {val : Group → State → VReg}
    (h : ∀ g v, P g (.seq s (g.setV d v) (g.vcost once))) :
    Runs i s P (vecInstr i s once d val) := Runs.issue fun g => h g _

theorem Runs.vec1 {once : Bool} {d a : Fld} {f : W32 → W32}
    (h : ∀ g v, P g (.seq s (g.setV d v) (g.vcost once))) :
    Runs i s P (vec1 i s once d a f) := Runs.vecInstr h

theorem Runs.vec2 {once : Bool} {d a b : Fld} {f : W32 → W32 → W32}
    (h : ∀ g v, P g (.seq s (g.setV d v) (g.vcost once))) :
    Runs i s P (vec2 i s once d a b f) := Runs.vecInstr h

theorem Runs.vec3 {once : Bool} {d a b : Fld} {f : W32 → W32 → W32 → W32}
    (h : ∀ g v, P g (.seq s (g.setV d v) (g.vcost once))) :
    Runs i s P (vec3 i s once d a b f) := Runs.vecInstr h

theorem Runs.crossInstr {d : Fld} {f : Group → Nat → W32}
    (h : ∀ g v, P g (.seq s (g.setV d v) (g.vcost false))) :
    Runs i s P (crossInstr i s d f) := Runs.vecInstr h

theorem Runs.shareSum {k : Nat} {d a : Fld}
    (h : ∀ g v, P g (.seq s (g.setV d v) (g.vcost false))) :
    Runs i s P (shareSum i s k d a) := Runs.crossInstr h

theorem Runs.share2 {k : Nat} {d a b : Fld} {f : Nat → Nat → Nat}
    (h : ∀ g v, P g (.seq s (g.setV d v) (g.vcost false))) :
    Runs i s P (share2 i s k d a b f) := Runs.vecInstr h

theorem Runs.modInstr {u : Bool} {d : Fld} {allU : Group → Bool} {f : Group → Nat → Nat → Nat}
    (h : ∀ g v, P g (.seq s (g.setV d v) (g.vcost u))) :
    Runs i s P (modInstr i s u d allU f) := Runs.vecInstr h

theorem Runs.maskInstr {d : Fld} {p : Group → Nat → Bool}
    (h : ∀ g v, P g (.seq s (g.writeS d v) (g.vcost false))) :
    Runs i s P (maskInstr i s d p) := Runs.issue fun g => h g _

theorem Runs.cmp32 {d a b : Fld} {p : W32 → W32 → Bool}
    (h : ∀ g v, P g (.seq s (g.writeS d v) (g.vcost false))) :
    Runs i s P (cmp32 i s d a b p) := Runs.maskInstr h

theorem Runs.cmp64 {d a b : Fld} {p : W64 → W64 → Bool}
    (h : ∀ g v, P g (.seq s (g.writeS d v) (g.vcost false))) :
    Runs i s P (cmp64 i s d a b p) := Runs.maskInstr h

theorem Runs.scalarInstr {d : Fld} {val : (Fld → W64) → W64}
    (h : ∀ g v, P g (.seq s (g.writeS d v) 1)) :
    Runs i s P (scalarInstr i s d val) := Runs.issue fun g => h g _

theorem Runs.pairInstr {once : Bool} {d : Fld} {allU : Group → Bool} {f : Group → Nat → W64} {cost : Group → Nat}
    (h : ∀ g x y, P g (.seq s (g.setPair d x y) (cost g))) :
    Runs i s P (pairInstr i s once d allU f cost) := Runs.issue fun g => h g _ _

theorem Runs.pair2 {u : Bool} {d a b : Fld} {f : W64 → W64 → W64}
    (h : ∀ g x y, P g (.seq s (g.setPair d x y) (g.vcost u))) :
    Runs i s P (pair2 i s u d a b f) := Runs.pairInstr h

theorem Runs.pairShift {u : Bool} {d a b : Fld} {f : W64 → W64 → W64}
    (h : ∀ g x y, P g (.seq s (g.setPair d x y) (g.vcost u))) :
    Runs i s P (pairShift i s u d a b f) := Runs.pairInstr h

theorem Runs.redPair {d a : Fld} {beats : W32 → W32 → Bool}
    (h : ∀ g x y, P g (.seq s (g.setPair d x y) (g.vcost false))) :
    Runs i s P (redPair i s d a beats) := Runs.issue fun g => h g _ _

theorem Runs.floatVec {once : Bool} {d : Fld} {srcU : Group → Bool} {f : Group → Nat → Elem}
    (h : ∀ g fl v, P g (.seq (g.raise s fl).1 ((g.raise s fl).2.setV d v) (g.vcost once))) :
    Runs i s P (floatVec i s once d srcU f) := Runs.issue fun g => h g _ _

theorem Runs.float1 {once : Bool} {d a : Fld} {f : RMode → Nat → FRes}
    (h : ∀ g fl v, P g (.seq (g.raise s fl).1 ((g.raise s fl).2.setV d v) (g.vcost once))) :
    Runs i s P (float1 i s once d a f) := Runs.floatVec h

theorem Runs.float2 {once : Bool} {d a b : Fld} {f : RMode → Nat → Nat → FRes}
    (h : ∀ g fl v, P g (.seq (g.raise s fl).1 ((g.raise s fl).2.setV d v) (g.vcost once))) :
    Runs i s P (float2 i s once d a b f) := Runs.floatVec h

theorem Runs.float3 {once : Bool} {d a b : Fld} {f : RMode → Nat → Nat → Nat → FRes}
    (h : ∀ g fl v, P g (.seq (g.raise s fl).1 ((g.raise s fl).2.setV d v) (g.vcost once))) :
    Runs i s P (float3 i s once d a b f) := Runs.floatVec h

theorem Runs.pack2 {once : Bool} {d a b : Fld} {f : RMode → Nat → Nat → FRes}
    (h : ∀ g fl v, P g (.seq (g.raise s fl).1 ((g.raise s fl).2.setV d v) (g.vcost once))) :
    Runs i s P (pack2 i s once d a b f) := Runs.floatVec h

theorem Runs.pack3 {once : Bool} {d a b : Fld} {f : RMode → Nat → Nat → Nat → FRes}
    (h : ∀ g fl v, P g (.seq (g.raise s fl).1 ((g.raise s fl).2.setV d v) (g.vcost once))) :
    Runs i s P (pack3 i s once d a b f) := Runs.floatVec h

theorem Runs.floatPair {once : Bool} {d : Fld} {srcU : Group → Bool} {f : Group → Nat → Elem}
    (h : ∀ g fl x y, P g (.seq (g.raise s fl).1 ((g.raise s fl).2.setPair d x y) (g.pcost once))) :
    Runs i s P (floatPair i s once d srcU f) := Runs.issue fun g => h g _ _ _

theorem Runs.floatArg {d a : Fld} {max : Bool}
    (h : ∀ g fl x y, P g (.seq (g.raise s fl).1 ((g.raise s fl).2.setPair d x y) (g.vcost false))) :
    Runs i s P (floatArg i s d a max) := Runs.issue fun g => h g _ _ _

theorem Runs.floatCmp {d a b : Fld} {cond : Int → Int → Bool} {onNan quietNv : Bool}
    (h : ∀ g fl v, P g (.seq (g.raise s fl).1 ((g.raise s fl).2.writeS d v) (g.vcost false))) :
    Runs i s P (floatCmp i s d a b cond onNan quietNv) := Runs.issue fun g => h g _ _

theorem Runs.shareAddPublic {k : Nat} {d a b : Fld} (hf : ∀ g r, P g (.seq s (Group.shareFail g r) (g.vcost false)))
    (h : ∀ g v, P g (.seq s (g.setV d v) (g.vcost false))) :
    Runs i s P (shareAddPublic i s k d a b) := by
  refine Runs.issue fun g => ?_
  cases g.localParty with
  | none => exact hf g 3
  | some p => exact h g _

theorem Runs.shareTrunc {k : Nat} {d a f : Fld} (hf : ∀ g r, P g (.seq s (Group.shareFail g r) (g.vcost false)))
    (h : ∀ g v, P g (.seq s (g.setV d v) (g.vcost false))) :
    Runs i s P (shareTrunc i s k d a f) := by
  refine Runs.issue fun g => ?_
  cases g.localParty with
  | none => exact hf g 3
  | some p =>
    dsimp only
    split
    · exact hf g 8
    · exact h g _

end Forms

/-! ## The forms of accesses, of the gate, of branches and of remote instructions -/

section Accesses

variable {i : Instr} {s : State}

/-- An outcome is the issue of `i` in `s`. -/
abbrev IsIssue (i : Instr) (s : State) (o : Host.Outcome State Fault Refusal) : Prop := Runs i s (fun _ _ => True) o

theorem isIssue_gateInstr {op : GateOp} {k : Nat} {d a b : Fld} : IsIssue i s (gateInstr i s op k d a b) :=
  Runs.issue fun _ => trivial

theorem isIssue_convInstr {op : (Fld → W64) → DOp} : IsIssue i s (convInstr i s op) := Runs.issue fun _ => trivial

theorem isIssue_globalAccess {once returns : Bool} {strided : Group → Bool} {op : Group → DOp} :
    IsIssue i s (globalAccess i s once returns strided op) := Runs.issue fun _ => trivial

theorem isIssue_sliceAccess {cost : Group → Nat} {strided : Group → Bool} {op : Group → DOp} :
    IsIssue i s (sliceAccess i s cost strided op) := Runs.issue fun _ => trivial

theorem isIssue_distAccess {once returns : Bool} {strided : Group → Bool} {op : Group → DOp} :
    IsIssue i s (distAccess i s once returns strided op) := Runs.issue fun _ => trivial

theorem isIssue_remoteInstr {a b : Fld} {data : Option (Fld × Nat)} {op : Group → State → PktOp} {dst : Group → Nat}
    {n : Nat} {ret : Bool} : IsIssue i s (remoteInstr i s a b data op dst n ret) := Runs.issue fun _ => trivial

theorem isIssue_branchInstr {t : BitVec 16} {taken : (Fld → W64) → Group → Bool} :
    IsIssue i s (branchInstr i s t taken) := Runs.issue fun _ => trivial

end Accesses

/-! ## What precedes an effect -/

/-- By the operand form of each instruction; an event of the device is no word. -/
theorem isIssue_exec (i : Instr) (s : State) (h : i.isWord = true) : IsIssue i s (exec i s) := by
  unfold exec
  cases i with
  | vadd | vsub | vmul | vshl | vsel | vmov | vtid | vxshu | vlop3 | vaddi | vmuli | vshli | vli =>
    exact Runs.vecInstr fun _ _ => trivial
  | vmulhiI | vmulhiN | vand | vor | vxor | vandn | vshrN | vshrI | vrotl | vminI | vmaxI | vminN | vmaxN | vsxorB =>
    exact Runs.vec2 fun _ _ => trivial
  | vmac | vfshl | vfshr => exact Runs.vec3 fun _ _ => trivial
  | vpopc | vclz | vbrev | vandi | vshriN | vshriI => exact Runs.vec1 fun _ _ => trivial
  | vceq | vcne | vcltI | vcleI | vcltN | vcleN => exact Runs.cmp32 fun _ _ => trivial
  | vceqW | vcltWI | vcltWN => exact Runs.cmp64 fun _ _ => trivial
  | vceqi | vcltiI => exact Runs.maskInstr fun _ _ => trivial
  | vaddW | vsubW | vmulW => exact Runs.pair2 fun _ _ _ => trivial
  | vshlW | vshrWN | vshrWI => exact Runs.pairShift fun _ _ _ => trivial
  | vxsh | vscanAdd | vredAdd => exact Runs.crossInstr fun _ _ => trivial
  | vredmaxiI | vredminiI => exact Runs.redPair fun _ _ _ => trivial
  | vaddmod | vsubmod | vmulmod | vmacmod => exact Runs.modInstr fun _ _ => trivial
  | vfadd | vfsub | vfmul | vfmin | vfmax | vfminn | vfmaxn | vfdiv | vfscale => exact Runs.float2 fun _ _ _ => trivial
  | vffma | vhdotBf => exact Runs.float3 fun _ _ _ => trivial
  | vfabs | vfneg | vfrcp | vfrsq | vfsqrt | vfexp2 | vflog2 | vcvt | vfclass => exact Runs.float1 fun _ _ _ => trivial
  | vfceq | vfclt | vfcle | vfcun => exact Runs.floatCmp fun _ _ _ => trivial
  | vfaddX | vfsubX | vfmulX | vdwadd | vdwsub | vdwmul | vdwmulf | vdwren =>
    exact Runs.floatPair fun _ _ _ _ => trivial
  | vfredmaxi | vfredmini => exact Runs.floatArg fun _ _ _ _ => trivial
  | vhaddBf | vhmulBf | vhaddH | vhmulH => exact Runs.pack2 fun _ _ _ => trivial
  | vhfmaBf | vhfmaH => exact Runs.pack3 fun _ _ _ => trivial
  | vsaddS16 | vssubS16 | vsaddS32 | vssubS32 | vsmulpS16 | vsmulpS32 => exact Runs.share2 fun _ _ => trivial
  | vsaddpS16 | vsaddpS32 => exact Runs.shareAddPublic (fun _ _ => trivial) fun _ _ => trivial
  | vstruncS16 | vstruncS32 => exact Runs.shareTrunc (fun _ _ => trivial) fun _ _ => trivial
  | vsredS16 | vsredS32 => exact Runs.shareSum fun _ _ => trivial
  | vsmulS16 | vsmulS32 | vsltzS16 | vsltzS32 | vsb2aS16 | vsb2aS32 | vsandB | vsopenS16 | vsopenS32 =>
    exact isIssue_gateInstr
  | cbind | csend | crecv | cchoose | cdeleg | cstate | cabort | tburn => exact isIssue_convInstr
  | sadd | ssub | smul | smulhiN | sand | sor | sxor | sandn | sshl | sshrN | sshrI | sceq | scltI | scltN | sminI | smaxI
  | smov | spopc | sclz | sctz | sfirst | saddi | sandi | sori | sshli | sshriN | sceqi | scltiI | smovi | sli =>
    exact Runs.scalarInstr fun _ _ => trivial
  | ldg | stg | ldgW | stgW | ldgQ | stgQ | ldgX | stgX | atom => exact isIssue_globalAccess
  | lds | sts | ldsW | stsW | ldsQ | stsQ | ldsX | stsX => exact isIssue_sliceAccess
  | ldd | std | atomd => exact isIssue_distAccess
  | xsend | xget | xred | xapp => exact isIssue_remoteInstr
  | br | bz | bnz | bmz | bmnz => exact isIssue_branchInstr
  | vmatchr | vshape | vgen | mqld | vfredAdd | vfredX | vfscanAdd | tlevel | tfillSend | tfillAccept | xopen | sld | sst
  | slds | ssts | atoms | fence | mmloop | cpy | cunpack | cbinit | cbpush | cbpop | cbfree | abarInit | abarArrive | abarWait
  | launch | evcfg | call | jr | loop | trap | wbase | bar | exit | yield | sys | rtrap =>
    exact Runs.issue fun _ => trivial
  | _ => exact absurd h Bool.false_ne_true

/-- Settles O38: the two outcomes of a fetch that give no instruction, and the two checks before a body. -/
theorem whatPrecedesAnEffect : Obligations.WhatPrecedesAnEffect := by
  intro s g i
  refine ⟨fun a c d hf => ⟨_, ?_, rfl⟩, fun len hf => ?_, fun hw hc ho => ?_, fun r hw hc ho hp => ?_⟩
  · simp only [State.runGroup, hf]
    rfl
  · simp only [State.runGroup, hf]
    rw [State.immediate_after]
  · obtain ⟨body, hx, -⟩ := isIssue_exec i s hw
    rw [hx, issue_illegal i s g body hc ho, State.immediate_after]
    rfl
  · obtain ⟨body, hx, -⟩ := isIssue_exec i s hw
    rw [hx, issue_poisoned i s g r body hc ho hp]
    rfl

end Sys2Proof.Machine
end

section
/-!
Taking a trap, and returning from one.
-/

namespace Sys2Proof.Machine

open Sys2Proof Sys2Proof.Claims

/-! ## The record of a trap -/

/-- `sel` names the lowest failing index, whose cause `tcause` reads (R23, R28). -/
theorem TrapRec.make_tcause (f : Failure) (fs : List Failure) (xpc resume : W64) (ps : List Pend) :
    (TrapRec.make (f :: fs) xpc resume ps).tcause = BitVec.ofNat 64 f.cause.code := by
  simp [TrapRec.tcause, TrapRec.entry, TrapRec.make, Failure.entry]

/-- `rplq` has a bit for each index that can be replayed (R28). -/
theorem TrapRec.make_rplq (fs : List Failure) (xpc resume : W64) (ps : List Pend) (k : Nat) (hk : k < 64) :
    (TrapRec.make fs xpc resume ps).rplq.getLsbD k = true ↔ ∃ x ∈ fs, x.idx = k ∧ x.replay = true := by
  simp only [TrapRec.make, BitVec.getLsbD_ofNat, Bool.and_eq_true, decide_eq_true_eq, testBit_idxMask, List.mem_map,
    List.mem_filter]
  constructor
  · rintro ⟨-, x, ⟨hx, hr⟩, hi⟩
    exact ⟨x, hx, hi, hr⟩
  · rintro ⟨x, hx, hi, hr⟩
    exact ⟨hk, x, ⟨hx, hr⟩, hi⟩

/-- Settles O39: the record field by field, and the three ways in which a group takes it. -/
theorem takingATrap : Obligations.TakingATrap := by
  intro s g f fs xpc resume pends _ _ all r
  refine ⟨rfl, rfl, TrapRec.make_tcause f fs xpc resume pends, rfl, rfl, TrapRec.make_rplq all xpc resume pends,
    fun ha hc => State.takeTrap_vector s g all xpc resume pends ha ?_,
    fun ha hc => State.takeTrap_control s g all xpc resume pends ha ?_,
    State.takeTrap_double s g all xpc resume pends⟩
  · simpa using hc
  · simpa using hc

/-! ## Writes performed before the return -/

theorem State.performLate_of_none {s : State} {uid : Nat} (h : ∀ l ∈ s.late, l.uid ≠ uid) : s.performLate uid = s := by
  rw [State.performLate, if_neg]
  simpa using h

theorem State.late_performLate (s : State) (uid : Nat) : ∀ l ∈ (s.performLate uid).late, l.uid ≠ uid := by
  unfold State.performLate
  split
  · intro l hl
    have kept := (List.mem_filter.mp hl).2
    simpa using kept
  next none => simpa using none

/-! ## The replay -/

theorem Group.replaySet_of_armed {g : Group} (h : g.armed = true) :
    g.replaySet = g.trap.replays.filter fun p => g.trap.rplq.getLsbD (p.idx % 32) := if_pos h

theorem Group.replaySet_of_not_armed {g : Group} (h : g.armed = false) : g.replaySet = [] :=
  if_neg (by simp [h])

/-- A replay is held back when an open fence of the group stands before one of its instructions (R54, R83). -/
theorem State.replayHeld_iff (s : State) (g : Group) : s.replayHeld g = true ↔
    ∃ p ∈ g.replaySet, ∃ f ∈ g.fences, s.outstanding g f = true ∧ s.laterOf g p.op f = true := by
  simp [State.replayHeld, State.openFences]

section Replay

variable {s : State} {g : Group}

theorem State.startReplay_of_held (h : (s.performLate g.uid).replayHeld g = true) :
    s.startReplay g = (s.performLate g.uid).setGroup { g with stat := .endRun, runEnd := .rtrap } := if_pos h

theorem State.replayHeld_of_empty (h : g.replaySet = []) : s.replayHeld g = false := by
  simp [State.replayHeld, h]

theorem State.startReplay_of_not_armed (h : g.armed = false) :
    s.startReplay g = (s.performLate g.uid).setGroup (g.readyAt (s.performLate g.uid).tick) := by
  simp [State.startReplay, State.replayHeld_of_empty (Group.replaySet_of_not_armed h), h]

theorem State.startReplay_of_empty (ha : g.armed = true) (h : g.replaySet = []) :
    s.startReplay g = (s.performLate g.uid).setGroup (g.trapReturn.readyAt (s.performLate g.uid).tick) := by
  simp [State.startReplay, State.replayHeld_of_empty h, ha, h]

end Replay

/-- The group of a replay's run (R29): disarmed, with the replays as what the run has issued, to go on at the resume address. -/
def Group.replaying (g : Group) (tick : Nat) : Group :=
  let ops := g.replaySet.map (g.trap.replayOf g.tag tick)
  let bar := replayBar g.replaySet
  { g.trapReturn with
    pends := ops, fails := [], runPc := g.trap.xpc, stat := .endRun, waited := false
    lastPc := if bar.isSome then g.trap.resume - 4 else g.trap.resume
    runEnd := match bar with | some id => .bar id | none => .replay
    runIdx := ((ops.map fun p => p.idx % 32 + 1).foldl max 0)
    cycles := g.cycles + (g.replaySet.map (g.trap.replayCost g.width.n)).sum }

theorem State.startReplay_of_replays {s : State} {g : Group} (ha : g.armed = true)
    (hh : ¬(s.performLate g.uid).replayHeld g = true) (hr : g.replaySet ≠ []) :
    let w := s.performLate g.uid
    s.startReplay g = ((g.replaySet.map (g.trap.replayOf g.tag w.tick)).foldl (fun w p => w.reissue g.uid p)
      ((w.moveSent g.uid g.replaySet).setGroup (g.replaying w.tick))).spend g.core
        (g.replaySet.map (g.trap.replayCost g.width.n)).sum := by
  have some_ops : ¬g.replaySet.isEmpty = true := by simpa using hr
  unfold State.startReplay
  rw [if_neg hh, if_neg (by simp [ha]), if_neg some_ops]
  rfl

/-- A replay runs for the threads that its entry names, at one cycle for each and at least one; for the whole instruction where it
names none (R29). -/
theorem TrapRec.replayOf_threads (r : TrapRec) (tag tick w : Nat) (q : Pend) :
    let named := r.entries.find? fun x => x.idx == q.idx % 32
    ((∀ x, named = some x → x.tmask = 0) → (r.replayOf tag tick q).op = q.op ∧ r.replayCost w q = 1) ∧
    ∀ x, named = some x → x.tmask ≠ 0 → (r.replayOf tag tick q).op = q.op.restrict x.tmask ∧
      r.replayCost w q = max 1 ((List.range w).filter fun t => x.tmask.getLsbD t).length := by
  intro named
  have mask : r.replayMask (q.idx % 32) = named.bind fun x => if x.tmask = 0 then none else some x.tmask := by
    rw [TrapRec.replayMask]
    cases hn : r.entries.find? fun x => x.idx == q.idx % 32 <;> simp [named, hn]
  refine ⟨fun zero => ?_, fun x hx ne => ?_⟩
  · have whole : r.replayMask (q.idx % 32) = none := by
      rw [mask]
      cases hn : named with
      | none => rfl
      | some x => simp [zero x hn]
    simp [TrapRec.replayOf, TrapRec.replayCost, whole]
  · have some_threads : r.replayMask (q.idx % 32) = some x.tmask := by
      rw [mask, hx]
      exact if_neg ne
    simp [TrapRec.replayOf, TrapRec.replayCost, some_threads, countMask, threads]

/-- Settles O40: the four ways in which an `rtrap` ends, and what a replay is. -/
theorem returningFromATrap : Obligations.ReturningFromATrap := by
  intro s g w held
  have held_iff : held ↔ w.replayHeld g = true := (State.replayHeld_iff w g).symm
  refine ⟨State.performLate_of_none, State.late_performLate s g.uid, fun h => State.startReplay_of_held (held_iff.mp h),
    State.startReplay_of_not_armed, fun ha none => ?_, fun ha free some => ?_, Group.replaySet_of_armed, fun q => ?_⟩
  · have empty : g.replaySet = [] := by
      rw [Group.replaySet_of_armed ha, List.filter_eq_nil_iff]
      exact fun p hp => by simp [none p hp]
    exact State.startReplay_of_empty ha empty
  · have filled : g.replaySet ≠ [] := by
      obtain ⟨p, hp, hb⟩ := some
      rw [Group.replaySet_of_armed ha]
      exact List.ne_nil_of_mem (List.mem_filter.mpr ⟨hp, hb⟩)
    exact ⟨g.replaying w.tick, rfl, rfl, rfl, rfl, rfl, rfl, rfl, rfl, rfl, rfl, rfl,
      State.startReplay_of_replays ha (mt held_iff.mpr free) filled⟩
  · intro p named
    exact ⟨rfl, rfl, rfl, rfl, rfl, g.trap.replayOf_threads g.tag s.tick g.width.n q⟩

end Sys2Proof.Machine
end

section
/-!
What a step runs, and what a fetch gives.
-/

namespace Sys2Proof.Machine

open Sys2Proof Sys2Proof.Claims

/-! ## The next step -/

theorem State.correctable_eq_nil_iff (s : State) :
    s.correctable = [] ↔ ∀ l ∈ s.lines, ¬(l.flip ≠ 0 ∧ wrongSymbols l.flip ≤ 1) := by
  simp [State.correctable, List.filter_eq_nil_iff]

/-- A step in which no code corrects a line is what happens next. -/
theorem step_of_not_correctable {s : State} (h : ∀ l ∈ s.lines, ¬(l.flip ≠ 0 ∧ wrongSymbols l.flip ≤ 1)) :
    step s = State.act { s with tick := s.tick + 1 } := by
  have none : State.correctable { s with tick := s.tick + 1 } = [] := (State.correctable_eq_nil_iff _).mpr h
  simp only [step, State.nextStep, none, List.isEmpty_nil, if_true]

theorem step_of_no_flips {s : State} (h : ∀ l ∈ s.lines, l.flip = 0) :
    step s = State.act { s with tick := s.tick + 1 } :=
  step_of_not_correctable fun l hl hc => hc.1 (h l hl)

/-- With a line whose flipped bits a read corrects, that is counted (R322, R335). -/
theorem step_of_act {s t : State} (h : State.act { s with tick := s.tick + 1 } = .next t) :
    step s = .next (((State.correctable { s with tick := s.tick + 1 }).filter
      (State.readsStored { s with tick := s.tick + 1 } t)).foldl (fun t _ => t.corrected 10) t) := by
  simp only [step, State.nextStep, h]
  split
  next none => rw [List.isEmpty_iff.mp none, List.filter_nil, List.foldl_nil]
  next => rfl

/-- A read in storage, in the words of its definition. -/
theorem State.readsStored_iff (s t : State) (l : Line) : s.readsStored t l = true ↔
    ∀ u, State.act (s.setLine { s.line l.addr with flip := BitVec.allOnes 576 }) = .next u →
      u.setLine { u.line l.addr with flip := 0 } ≠ t.setLine { t.line l.addr with flip := 0 } := by
  rw [State.readsStored]
  show (match State.act (s.setLine { s.line l.addr with flip := BitVec.allOnes 576 }) with
    | .next u => u.flipped l.addr 0 != t.flipped l.addr 0
    | _ => true) = true ↔ _
  cases State.act (s.setLine { s.line l.addr with flip := BitVec.allOnes 576 }) with
  | next u => simp [State.flipped]
  | fault _ | refused _ => simp

/-! ## What happens next -/

section Act

variable {s : State}

theorem State.act_of_listsReady (h : s.listsReady = true) (hm : s.moves = []) : s.act = .next s.closeLists := by
  simp [State.act, h, hm]

theorem State.act_of_move (h : s.listsReady = false) {m : Move} {ms : List Move} (hm : s.moves = m :: ms) :
    s.act = State.doMove { s with moves := ms } m := by
  simp [State.act, h, hm]

/-- With no move in the queue, the first group that issues runs its next instruction. -/
theorem State.act_of_issues (h : s.listsReady = false) (hm : s.moves = []) {l1 l2 : List Group} {g : Group}
    (hg : s.groups = l1 ++ g :: l2) (before : ∀ x ∈ l1, s.issues x = false) (hi : s.issues g = true) :
    s.act = s.runGroup g := by
  have first : s.groups.find? (fun x => s.issues x) = some g := by
    rw [hg, List.find?_append, List.find?_eq_none.mpr (by simpa using before), List.find?_cons_of_pos hi]
    rfl
  simp [State.act, h, hm, first]

theorem State.doMove_group {g : Group} (hg : s.group? g.uid = some g) (hi : s.issues g = true) :
    s.doMove (.group g.uid) = s.runGroup g := by
  simp [State.doMove, hg, hi]

theorem State.doMove_event {j : Instr} (hj : j.isWord = false) (hp : s.pkg.powered = true) :
    s.doMove (.event j) = exec j s := by
  simp [State.doMove, hj, hp]

end Act

/-! ## What holds a group back -/

section Issues

variable {s : State} {g : Group}

/-- A group that accesses nothing waits at no remote port. -/
theorem State.atPort_of_no_rows (h : s.nextRows g = []) (core bank : Nat) : s.atPort g core bank = false := by
  simp [State.atPort, h]

theorem State.portHolds_of_no_rows (h : s.nextRows g = []) : s.portHolds g = false := by
  have none : s.queuedBefore g = [] := by simp [State.queuedBefore, State.atPort_of_no_rows h]
  simp [State.portHolds, none]

theorem State.portHolds_of_empty_ports (h : ∀ c ∈ s.cores, ∀ b ∈ c.banks, b.2.port = []) : s.portHolds g = false := by
  have none : s.queuedBefore g = [] := by
    rw [State.queuedBefore, List.flatMap_eq_nil_iff]
    intro c hc
    rw [List.flatMap_eq_nil_iff]
    intro b hb
    simp [h c hc b hb]
  simp [State.portHolds, none]

/-- A group whose fetch gives no instruction accesses nothing, and nothing holds it back. -/
theorem State.issues_of_no_instr (hp : s.pkg.powered = true) (hr : g.stat = .running) (hf : ∀ i, s.fetch g ≠ .instr i) :
    s.issues g = true := by
  have access : s.nextAccess g = none := by
    rw [State.nextAccess]
    cases he : s.fetch g with
    | instr i => exact absurd he (hf i)
    | illegal | fail | poison => rfl
  have held : s.holds g = false := by
    rw [State.holds, Bool.and_eq_false_iff]
    right
    cases he : s.fetch g with
    | instr i => exact absurd he (hf i)
    | illegal | fail | poison => rfl
  have rows : s.nextRows g = [] := by simp [State.nextRows, access]
  simp [State.issues, State.ready, hp, hr, held, State.portHolds_of_no_rows rows]

/-- A group whose instruction neither a fence nor a write of its own holds back issues, with no request at any remote port. -/
theorem State.issues_of_instr {i : Instr} (hp : s.pkg.powered = true) (hr : g.stat = .running) (hf : s.fetch g = .instr i)
    (ports : ∀ c ∈ s.cores, ∀ b ∈ c.banks, b.2.port = [])
    (free : g.fences ≠ [] ∨ (∃ l ∈ s.late, l.uid = g.uid) → s.fenced g i = false ∧ s.lateHolds g i = false) :
    s.issues g = true := by
  have held : s.holds g = false := by
    rw [State.holds, hf, Bool.and_eq_false_iff]
    by_cases orders : g.fences ≠ [] ∨ ∃ l ∈ s.late, l.uid = g.uid
    · right
      simp [free orders]
    · left
      push Not at orders
      simpa [orders.1] using orders.2
  simp [State.issues, State.ready, hp, hr, held, State.portHolds_of_empty_ports ports]

end Issues

/-! ## Fetch and decode -/

section Fetch

variable {s : State} {g : Group} {w1 w2 : W32}

/-- The words at the pc of a group are fetched and decoded (R63, R64, R72). -/
theorem State.fetch_of_words (h1 : s.fetchWord g.part g.ctx g.lid g.pc = .word w1)
    (h2 : hasSecond w1 = true → s.fetchWord g.part g.ctx g.lid (g.pc + 4) = .word w2) :
    s.fetch g = Fetch.ofWords w1 (if hasSecond w1 then w2 else 0) := by
  unfold State.fetch
  cases hs : hasSecond w1
  · simp only [h1, hs, Bool.false_eq_true, if_false]
  · simp only [h1, hs, h2 hs, if_true]

theorem State.fetch_of_first_fails {c : Cause} {d : Nat} (h : s.fetchWord g.part g.ctx g.lid g.pc = .fail c d) :
    s.fetch g = .fail g.pc c d := by
  simp [State.fetch, h]

theorem State.fetch_of_second_fails {c : Cause} {d : Nat} (h1 : s.fetchWord g.part g.ctx g.lid g.pc = .word w1)
    (hs : hasSecond w1 = true) (h2 : s.fetchWord g.part g.ctx g.lid (g.pc + 4) = .fail c d) :
    s.fetch g = .fail (g.pc + 4) c d := by
  simp only [State.fetch, h1, hs, h2, if_true]

theorem Fetch.ofWords_ok {i : Instr} {two : Bool} (h : decode w1 w2 = .ok (i, two)) : Fetch.ofWords w1 w2 = .instr i := by
  simp [Fetch.ofWords, h]

theorem Fetch.ofWords_error {r : Reject} (h : decode w1 w2 = .error r) :
    Fetch.ofWords w1 w2 = .illegal (if hasSecond w1 then 8 else 4) := by
  simp [Fetch.ofWords, h]

theorem State.runGroup_instr {i : Instr} (h : s.fetch g = .instr i) : s.runGroup g = exec i { s with cur := some g.uid } := by
  simp [State.runGroup, h]

theorem State.runGroup_illegal {len : W64} (h : s.fetch g = .illegal len) : s.runGroup g = .next (after s
    { g with fails := addFailure ⟨g.runIdx, .illegalInstruction, 0, 0, 0, false⟩ g.fails } 1 (g.pc + len) (some .fall)) := by
  simp only [State.runGroup, h, State.immediate_after]

theorem State.runGroup_fail {a : W64} {c : Cause} {d : Nat} (h : s.fetch g = .fail a c d) :
    s.runGroup g = .next (s.fetchFault g a c d) := by
  simp only [State.runGroup, h]

/-- In a state in which a group runs as soon as it issues, the outcome is that of its decoded words. -/
theorem State.runs_words {t : Host.Outcome State Fault Refusal} (hp : s.pkg.powered = true) (hr : g.stat = .running)
    (run : s.issues g = true → t = s.runGroup g) (h1 : s.fetchWord g.part g.ctx g.lid g.pc = .word w1)
    (h2 : hasSecond w1 = true → s.fetchWord g.part g.ctx g.lid (g.pc + 4) = .word w2) :
    (∀ i two, decode w1 (if hasSecond w1 then w2 else 0) = .ok (i, two) →
      (∀ c ∈ s.cores, ∀ b ∈ c.banks, b.2.port = []) →
      (g.fences ≠ [] ∨ (∃ l ∈ s.late, l.uid = g.uid) → s.fenced g i = false ∧ s.lateHolds g i = false) →
      t = exec i { s with cur := some g.uid }) ∧
    (∀ r, decode w1 (if hasSecond w1 then w2 else 0) = .error r → t = .next (after s
      { g with fails := addFailure ⟨g.runIdx, .illegalInstruction, 0, 0, 0, false⟩ g.fails } 1
      (g.pc + (if hasSecond w1 then 8 else 4)) (some .fall))) := by
  have words := State.fetch_of_words h1 h2
  refine ⟨fun i two ok ports free => ?_, fun r bad => ?_⟩
  · have instr := words.trans (Fetch.ofWords_ok ok)
    rw [run (State.issues_of_instr hp hr instr ports free), State.runGroup_instr instr]
  · have illegal := words.trans (Fetch.ofWords_error bad)
    rw [run (State.issues_of_no_instr hp hr fun i h => by rw [illegal] at h; cases h), State.runGroup_illegal illegal]

/-- So it is of a fetch that fails. -/
theorem State.runs_fault {t : Host.Outcome State Fault Refusal} {a : W64} {c : Cause} {d : Nat} (hp : s.pkg.powered = true)
    (hr : g.stat = .running) (run : s.issues g = true → t = s.runGroup g) (hf : s.fetch g = .fail a c d) :
    t = .next (s.fetchFault g a c d) := by
  rw [run (State.issues_of_no_instr hp hr fun i h => by rw [hf] at h; cases h), State.runGroup_fail hf]

end Fetch

/-! ## The word that a fetch gives -/

/-- Byte `k` of the number of some bytes. -/
theorem leNat_byte (bs : List Byte) (k : Nat) : leNat bs / 2 ^ (8 * k) % 2 ^ 8 = (bs.getD k 0).toNat := by
  induction bs generalizing k with
  | nil => simp [leNat]
  | cons b bs ih =>
    cases k with
    | zero =>
      have byte : b.toNat < 256 := b.isLt
      simp only [leNat, Nat.mul_zero, pow_zero, Nat.div_one, List.getD_cons_zero]
      omega
    | succ k =>
      have byte : b.toNat < 256 := b.isLt
      rw [List.getD_cons_succ, ← ih k, Nat.mul_succ, Nat.add_comm, pow_add, ← Nat.div_div_eq_div_mul, leNat,
        show (b.toNat + 256 * leNat bs) / 2 ^ 8 = leNat bs by omega]

/-- Choosing step by step between what there is and the next of a list ends with what there was or with one of the list. -/
theorem foldl_choice {α β : Type} (l : List α) (take : α → Bool) (f : α → β) (b : β) :
    l.foldl (fun w x => if take x then f x else w) b = b ∨
      ∃ x ∈ l, l.foldl (fun w x => if take x then f x else w) b = f x := by
  induction l generalizing b with
  | nil => exact .inl rfl
  | cons x l ih =>
    rw [List.foldl_cons]
    obtain h | ⟨y, hy, h⟩ := ih (if take x then f x else b)
    · rw [h]
      split
      · exact .inr ⟨x, List.mem_cons_self .., rfl⟩
      · exact .inl rfl
    · exact .inr ⟨y, List.mem_cons_of_mem _ hy, h⟩

/-- A word of code is what memory holds, or one of those kept for it (R65). -/
theorem State.codeWord_cases (s : State) (part lid dev : Nat) :
    s.codeWord part lid dev = BitVec.ofNat 32 (leNat (s.hbm.readN dev 4)) ∨
      ∃ k ∈ s.kept, k.part = part ∧ k.lid = lid ∧ k.dev = dev ∧ k.word = s.codeWord part lid dev := by
  obtain h | ⟨x, hx, h⟩ := foldl_choice
    (((s.kept.filter fun k => k.part == part && k.lid == lid && k.dev == dev).map (·.word)).mapIdx fun i w => (i, w))
    (fun o => Config.freeBool 11 s.tick (o.1 * 2 ^ 50 + dev)) (·.2) (BitVec.ofNat 32 (leNat (s.hbm.readN dev 4)))
  · exact .inl h
  · right
    obtain ⟨n, hn, rfl⟩ := List.mem_mapIdx.mp hx
    obtain ⟨k, hk, hw⟩ := List.mem_map.mp (List.getElem_mem hn)
    obtain ⟨kept, same⟩ := List.mem_filter.mp hk
    simp only [Bool.and_eq_true, beq_iff_eq] at same
    obtain ⟨⟨hp, hl⟩, hd⟩ := same
    exact ⟨k, kept, hp, hl, hd, hw.trans h.symm⟩

/-- The bytes of the word that memory holds (R2, R63). -/
theorem Memory.word_byte (m : Memory) (a k : Nat) (hk : k < 4) :
    (BitVec.ofNat 32 (leNat (m.readN a 4))).toNat / 2 ^ (8 * k) % 2 ^ 8 = (m.read (a + k)).toNat := by
  have small : leNat (m.readN a 4) < 2 ^ 32 := by simpa using leNat_lt (m.readN a 4)
  rw [BitVec.toNat_ofNat, Nat.mod_eq_of_lt small, leNat_byte, Memory.readN_eq]
  simp [List.getD_eq_getElem?_getD, hk]

theorem slotOf_eq (e : W64) : slotOf e = e.toNat / 2 ^ 50 := by
  have small : e.toNat / 2 ^ 50 < 2 ^ 14 := by omega
  rw [slotOf, bits, Nat.shiftRight_eq_div_pow]
  exact Nat.mod_eq_of_lt small

/-- A page that can be fetched from, in a line without an error, gives the word of its four bytes (R63 to R65). -/
theorem State.fetchWord_of_translate {s : State} {part ctx lid dev : Nat} {pc e : W64}
    (ht : s.translate part ctx pc .fetch = .ok dev e)
    (hb : s.badLine (.hbm dev (e.toNat / 2 ^ 50) (part * 128 + ctx)) 4 = none) :
    s.fetchWord part ctx lid pc = .word (s.codeWord part lid dev) := by
  have good : s.badLine (.hbm dev (slotOf e) (worldId part ctx)) 4 = none := by rw [slotOf_eq]; exact hb
  simp [State.fetchWord, ht, good]

/-- Settles O54: what a step runs by what the queue and the fetch give, the lists, the counts of corrected lines, and the word. -/
theorem stepRunsTheDecodedInstruction : Obligations.StepRunsTheDecodedInstruction := by
  refine ⟨?_, fun s ready hm flips => ?_, fun s => ⟨step_of_not_correctable, fun t ht => ?_⟩,
    fun s part ctx lid dev pc e ht hb => ⟨_, State.fetchWord_of_translate ht hb, ?_⟩⟩
  · intro s g w1 w2 i two ms s1 fetches second runs powered running notReady flips
    have step_act := step_of_no_flips flips
    have runs_of {t : Host.Outcome State Fault Refusal} (run : s1.issues g = true → t = s1.runGroup g) : runs t :=
      fun h1 h2 => by
        obtain ⟨ok, bad⟩ := State.runs_words (s := s1) powered running run h1 h2
        exact ⟨ok i two, bad⟩
    refine ⟨fun l1 l2 hm hms hg before => ?_, fun hm hg => ?_, fun j hm hj => ?_⟩
    · have same : ({ s with tick := s.tick + 1 } : State) = s1 := by
        obtain rfl : ms = s.moves := hms.trans hm.symm
        rfl
      have run (hi : s1.issues g = true) : step s = s1.runGroup g := by
        rw [step_act, same]
        exact State.act_of_issues (s := s1) notReady hms hg before hi
      exact ⟨runs_of run, fun c d h => State.runs_fault (s := s1) powered running run (State.fetch_of_first_fails h),
        fun c d h1 hs h2 => State.runs_fault (s := s1) powered running run (State.fetch_of_second_fails h1 hs h2)⟩
    · have moved : step s = s1.doMove (.group g.uid) :=
        step_act.trans (State.act_of_move (s := { s with tick := s.tick + 1 }) notReady hm)
      exact runs_of fun hi => moved.trans (State.doMove_group (s := s1) hg hi)
    · have moved : step s = s1.doMove (.event j) :=
        step_act.trans (State.act_of_move (s := { s with tick := s.tick + 1 }) notReady hm)
      exact moved.trans (State.doMove_event (s := s1) hj powered)
  · rw [step_of_no_flips flips]
    exact State.act_of_listsReady ready hm
  · let s1 : State := { s with tick := s.tick + 1 }
    refine ⟨s1.correctable.filter (s1.readsStored t), (List.filter_sublist ..).trans (List.filter_sublist ..), step_of_act ht,
      fun l hl => ?_⟩
    rw [List.mem_filter, State.readsStored_iff]
    refine and_congr_left fun _ => ?_
    simp [State.correctable, s1, hl]
  · obtain h | h := s.codeWord_cases part lid dev
    · exact .inl fun k hk => by rw [h, Memory.word_byte _ _ _ hk]
    · exact .inr h

end Sys2Proof.Machine
end

section
/-!
What reports and events change of the machine, and what they leave as it was.
-/

namespace Sys2Proof.Machine

open Sys2Proof Sys2Proof.Claims

/-! ## Partitions -/

/-- Replacing a partition leaves every other one as it was. -/
theorem State.part?_setPart_other (s : State) (p : Partition) (n : Nat) (hn : n ≠ p.num) :
    (s.setPart p).part? n = s.part? n := by
  have same : ((fun q : Partition => q.num == n) ∘ fun q => if q.num == p.num then p else q) =
      fun q => q.num == n := by
    funext q
    by_cases hq : q.num = p.num <;> simp [hq]
  unfold State.part? State.setPart
  rw [List.find?_map, same]
  cases hf : s.parts.find? fun q => q.num == n with
  | none => rfl
  | some q =>
    have hq : q.num = n := by simpa using List.find?_some hf
    simp [hq, hn]

@[simp] theorem State.setPart_parts_length (s : State) (p : Partition) : (s.setPart p).parts.length = s.parts.length := by
  simp [State.setPart]

/-! ## Reports -/

/-- From `s` to `t` only reports to a partition are written: its registers of the ring, the bytes of the ring, and an interrupt. -/
structure ReportsOnly (part : Nat) (s t : State) : Prop where
  frame : t = { s with parts := t.parts, hbm := t.hbm, lines := t.lines, interrupts := t.interrupts }
  length : t.parts.length = s.parts.length
  others : ∀ n, n ≠ part → t.part? n = s.part? n
  sums : ∀ p, s.part? part = some p → ∃ q, t.part? part = some q ∧ q.evsum = p.evsum

namespace ReportsOnly

variable {part : Nat} {s t u : State}

theorem refl (part : Nat) (s : State) : ReportsOnly part s s :=
  ⟨rfl, rfl, fun _ _ => rfl, fun p hp => ⟨p, hp, rfl⟩⟩

theorem trans (h : ReportsOnly part s t) (k : ReportsOnly part t u) : ReportsOnly part s u :=
  ⟨k.frame.trans (congrArg (fun x : State =>
      { x with parts := u.parts, hbm := u.hbm, lines := u.lines, interrupts := u.interrupts }) h.frame),
    k.length.trans h.length, fun n hn => (k.others n hn).trans (h.others n hn), fun p hp => by
      obtain ⟨q, hq, sum⟩ := h.sums p hp
      obtain ⟨r, hr, sum'⟩ := k.sums q hq
      exact ⟨r, hr, sum'.trans sum⟩⟩

theorem setPart {p q : Partition} (hp : s.part? part = some p) (num : q.num = p.num) (sum : q.evsum = p.evsum) :
    ReportsOnly part s (s.setPart q) := by
  have at? : q.num = part := num.trans (State.num_of_part? hp)
  refine ⟨rfl, s.setPart_parts_length q, fun n hn => s.part?_setPart_other q n (at? ▸ hn), fun p' hp' => ?_⟩
  obtain rfl : p = p' := Option.some.inj (hp.symm.trans hp')
  exact ⟨q, State.part?_setPart_of_num hp num, sum⟩

theorem updPart {f : Partition → Partition} (hf : ∀ p : Partition, (f p).num = p.num ∧ (f p).evsum = p.evsum) :
    ReportsOnly part s (s.updPart part f) := by
  unfold State.updPart
  split
  next p hp => exact setPart hp (hf p).1 (hf p).2
  next => exact refl ..

theorem writeAt_hbm (dev slot world : Nat) (bs : List Byte) :
    ReportsOnly part s (s.writeAt (.hbm dev slot world) bs) := by
  rw [State.writeAt, State.writeLines_frame]
  exact ⟨rfl, rfl, fun _ _ => rfl, fun p hp => ⟨p, hp, rfl⟩⟩

theorem interrupts (l : List Interrupt) : ReportsOnly part s { s with interrupts := l } :=
  ⟨rfl, rfl, fun _ _ => rfl, fun p hp => ⟨p, hp, rfl⟩⟩

theorem ringWrite (s : State) {p : Partition} (hp : p.num = part) (r : Report) (last : Bool) :
    ReportsOnly part s (s.ringWrite p r last) := by
  subst hp
  have written (a : Nat) : ReportsOnly p.num s
      ((s.writePart p a r.toBytes).updPart p.num fun p => { p with ringHead := p.ringHead + 1 }) :=
    (writeAt_hbm ..).trans (updPart (f := fun p => { p with ringHead := p.ringHead + 1 }) fun _ => ⟨rfl, rfl⟩)
  cases last with
  | true => exact (written _).trans (interrupts _)
  | false => exact written _

theorem ringPush (s : State) (part : Nat) (r : Report) (last : Bool) : ReportsOnly part s (s.ringPush part r last) := by
  unfold State.ringPush
  split
  next => exact refl ..
  next p hp =>
    have num := State.num_of_part? hp
    split
    · exact ringWrite s num r last
    · split
      · exact setPart hp rfl rfl
      · exact setPart hp rfl rfl

theorem pushEntries (s : State) (part list : Nat) (es : List Entry) : ReportsOnly part s (s.pushEntries part list es) := by
  induction es generalizing s with
  | nil => exact refl ..
  | cons e es ih =>
    cases es with
    | nil => exact ringPush ..
    | cons _ _ => exact (ringPush ..).trans (ih _)

theorem reportList (s : State) (part : Nat) (es : List Entry) : ReportsOnly part s (s.reportList part es) := by
  unfold State.reportList
  split
  next => exact refl ..
  next p hp =>
    split
    · exact refl ..
    · have counted : ReportsOnly part s (s.setPart { p with listNum := p.listNum + 1 }) := setPart hp rfl rfl
      exact counted.trans (pushEntries ..)

end ReportsOnly

/-! ## Events -/

/-- From `s` to `t` only events of a core are counted and reported to its partition. -/
structure EventsOnly (part core : Nat) (s t : State) : Prop where
  frame : t = { s with
    cores := t.cores, parts := t.parts, hbm := t.hbm, lines := t.lines, interrupts := t.interrupts }
  length : t.parts.length = s.parts.length
  others : ∀ n, n ≠ part → t.part? n = s.part? n
  otherCores : ∀ c, c ≠ core → t.core c = s.core c
  cores : ∀ c, t.core c = { s.core c with window := (t.core c).window, crossed := (t.core c).crossed }

/-- From `s` to `t` nothing is reported: of the partition, only its sums of events change. -/
structure CountsOnly (part : Nat) (s t : State) : Prop where
  hbm : t.hbm = s.hbm
  lines : t.lines = s.lines
  interrupts : t.interrupts = s.interrupts
  sums : ∀ p, s.part? part = some p → ∃ e, t.part? part = some { p with evsum := e }

namespace EventsOnly

variable {part core : Nat} {s t u : State}

theorem refl (part core : Nat) (s : State) : EventsOnly part core s s :=
  ⟨rfl, rfl, fun _ _ => rfl, fun _ _ => rfl, fun _ => rfl⟩

theorem trans (h : EventsOnly part core s t) (k : EventsOnly part core t u) : EventsOnly part core s u :=
  ⟨k.frame.trans (congrArg (fun x : State =>
      { x with cores := u.cores, parts := u.parts, hbm := u.hbm, lines := u.lines, interrupts := u.interrupts }) h.frame),
    k.length.trans h.length, fun n hn => (k.others n hn).trans (h.others n hn),
    fun c hc => (k.otherCores c hc).trans (h.otherCores c hc),
    fun c => (k.cores c).trans (congrArg (fun x : Core =>
      { x with window := (u.core c).window, crossed := (u.core c).crossed }) (h.cores c))⟩

theorem of_reports (h : ReportsOnly part s t) : EventsOnly part core s t := by
  have same : t.cores = s.cores := by
    rw [h.frame]
  have cores (c : Nat) : t.core c = s.core c := by rw [State.core, same, State.core]
  have frame : t = { s with
      cores := t.cores, parts := t.parts, hbm := t.hbm, lines := t.lines, interrupts := t.interrupts } := by
    rw [same]
    exact h.frame
  exact ⟨frame, h.length, h.others, fun c _ => cores c, fun c => by rw [cores c]⟩

theorem setPart {p : Partition} (num : p.num = part) : EventsOnly part core s (s.setPart p) :=
  ⟨rfl, s.setPart_parts_length p, fun n hn => s.part?_setPart_other p n (num ▸ hn), fun _ _ => rfl, fun _ => rfl⟩

/-- A core that is replaced by one with other counts. -/
theorem setCore {k : Core} (hk : k = { s.core core with window := k.window, crossed := k.crossed }) :
    EventsOnly part core s (s.setCore k) := by
  have id : k.id = core := (congrArg Core.id hk).trans (State.core_id s core)
  have other (c : Nat) (hc : c ≠ core) : (s.setCore k).core c = s.core c :=
    State.core_setCore_other s k c (id.symm ▸ hc)
  have self : (s.setCore k).core core = k := id ▸ State.core_setCore_self s k
  refine ⟨rfl, rfl, fun _ _ => rfl, other, fun c => ?_⟩
  by_cases hc : c = core
  · rw [hc, self]
    exact hk
  · rw [other c hc]

end EventsOnly

namespace CountsOnly

variable {part : Nat} {s t u : State}

theorem refl (part : Nat) (s : State) : CountsOnly part s s := ⟨rfl, rfl, rfl, fun p hp => ⟨p.evsum, hp⟩⟩

theorem trans (h : CountsOnly part s t) (k : CountsOnly part t u) : CountsOnly part s u :=
  ⟨k.hbm.trans h.hbm, k.lines.trans h.lines, k.interrupts.trans h.interrupts, fun p hp => by
    obtain ⟨e, he⟩ := h.sums p hp
    obtain ⟨e', he'⟩ := k.sums _ he
    exact ⟨e', he'⟩⟩

end CountsOnly

/-- The counting of events changes a core's counts and its partition's sums (R88, R130). -/
theorem State.countEvents_frame (s : State) (part core k n : Nat) :
    EventsOnly part core s (s.countEvents part core k n).1 ∧ CountsOnly part s (s.countEvents part core k n).1 := by
  unfold State.countEvents
  split
  next => exact ⟨EventsOnly.refl .., CountsOnly.refl ..⟩
  next p hp =>
    split
    next => exact ⟨EventsOnly.refl .., CountsOnly.refl ..⟩
    next =>
      have num := State.num_of_part? hp
      have summed : EventsOnly part core s
          (s.setPart { p with evsum := p.evsum.set k (p.evsum.getD k 0 + BitVec.ofNat 64 n) }) := EventsOnly.setPart num
      refine ⟨summed.trans (EventsOnly.setCore rfl), rfl, rfl, rfl, fun q hq => ?_⟩
      obtain rfl : p = q := Option.some.inj (hp.symm.trans hq)
      exact ⟨_, State.part?_setPart_of_num hp rfl⟩

theorem Group.onlyFails_trans {g h k : Group} (a : h = { g with fails := h.fails }) (b : k = { h with fails := k.fails }) :
    k = { g with fails := k.fails } := by
  rw [a] at b
  exact b

/-- An instruction's events change of its group only its failures, and of the machine what events change; without the action
that interrupts, they only count (R89). -/
theorem Group.addEvents_frame (g : Group) (s : State) (k n : Nat) :
    EventsOnly g.part g.core s (g.addEvents s k n).1 ∧
    (fpmAction g.fpm k ≠ 2 → CountsOnly g.part s (g.addEvents s k n).1) ∧
    (g.addEvents s k n).2 = { g with fails := (g.addEvents s k n).2.fails } := by
  obtain ⟨events, counts⟩ := s.countEvents_frame g.part g.core k n
  simp only [Group.addEvents]
  split
  next =>
    unfold Group.crossing
    split
    next => exact ⟨events, fun _ => counts, rfl⟩
    next two => exact ⟨events.trans (.of_reports (.reportList ..)), fun no => absurd two no, rfl⟩
    next => exact ⟨events, fun _ => counts, rfl⟩
  next => exact ⟨events, fun _ => counts, rfl⟩

/-- The events of some classes, one after another. -/
theorem Group.foldl_addEvents_frame (num : Nat → Nat) (ks : List Nat) (s : State) (g : Group) :
    let r := ks.foldl (fun (r : State × Group) k => Group.addEvents r.2 r.1 k (num k)) (s, g)
    EventsOnly g.part g.core s r.1 ∧
    ((∀ k ∈ ks, fpmAction g.fpm k ≠ 2) → CountsOnly g.part s r.1) ∧ r.2 = { g with fails := r.2.fails } := by
  induction ks generalizing s g with
  | nil => exact ⟨EventsOnly.refl .., fun _ => CountsOnly.refl .., rfl⟩
  | cons k ks ih =>
    obtain ⟨events, counts, group⟩ := g.addEvents_frame s k (num k)
    obtain ⟨events', counts', group'⟩ := ih (g.addEvents s k (num k)).1 (g.addEvents s k (num k)).2
    have part : (g.addEvents s k (num k)).2.part = g.part := by rw [group]
    have core : (g.addEvents s k (num k)).2.core = g.core := by rw [group]
    have fpm : (g.addEvents s k (num k)).2.fpm = g.fpm := by rw [group]
    rw [part, core] at events'
    rw [part, fpm] at counts'
    refine ⟨events.trans events', fun no => ?_, onlyFails_trans group group'⟩
    exact (counts (no k (List.mem_cons_self ..))).trans (counts' fun j hj => no j (List.mem_cons_of_mem _ hj))

theorem Group.onlyFails_of_fpf {g h : Group} {f : W64} (a : h = { g with fpf := f, fails := h.fails }) :
    h = { g with fpf := h.fpf, fails := h.fails } := by
  rw [a]

/-- Flags raised by an instruction: of its group they change the flags and the failures (R123, R129). -/
theorem Group.raise_frame (g : Group) (s : State) (fl : List Flags) :
    EventsOnly g.part g.core s (g.raise s fl).1 ∧
    ((∀ k, k < 5 → fpmAction g.fpm k ≠ 2) → CountsOnly g.part s (g.raise s fl).1) ∧
    (g.raise s fl).2 = { g with fpf := (g.raise s fl).2.fpf, fails := (g.raise s fl).2.fails } := by
  obtain ⟨events, counts, group⟩ := Group.foldl_addEvents_frame (fun k => (fl.filter fun x => x.event k).length)
    (List.range 5) s { g with fpf := g.fpf ||| BitVec.ofNat 64 (fl.foldl Flags.join Flags.zero).toNat }
  exact ⟨events, fun no => counts fun k hk => no k (List.mem_range.mp hk),
    onlyFails_of_fpf group⟩

end Sys2Proof.Machine
end

section
/-!
What a register instruction changes of its group, and the words of the register instructions.
-/

namespace Sys2Proof.Machine

open Sys2Proof Sys2Proof.Claims

/-! ## The group -/

/-- `RegistersOnly` without a change of the trap record. -/
def TrapKept (g h : Group) : Prop :=
  h = { g with
    vregs := h.vregs, poison := h.poison, sregs := h.sregs, exm := h.exm, lvm := h.lvm, sm := h.sm, fpm := h.fpm
    fpf := h.fpf, mq := h.mq, armed := h.armed, pc := h.pc, lastPc := h.lastPc, runIdx := h.runIdx, cycles := h.cycles
    stat := h.stat, runEnd := h.runEnd, fails := h.fails }

theorem TrapKept.trans {g h k : Group} (a : TrapKept g h) (b : TrapKept h k) : TrapKept g k := by
  unfold TrapKept at a b ⊢
  rw [a] at b
  exact b

theorem TrapKept.trap {g h : Group} (a : TrapKept g h) : h.trap = g.trap := by
  unfold TrapKept at a
  rw [a]

/-- A change that keeps the trap record, then one of registers. -/
theorem RegistersOnly.of_trapKept {g h k : Group} (a : TrapKept g h) (b : RegistersOnly h k) : RegistersOnly g k := by
  obtain ⟨frame, causes⟩ := b
  rw [a.trap] at frame causes
  refine ⟨?_, causes⟩
  unfold TrapKept at a
  rw [a] at frame
  exact frame

theorem RegistersOnly.refl (g : Group) : RegistersOnly g g := ⟨rfl, rfl, fun _ x hx => ⟨x.cause, hx, fun _ => rfl⟩⟩

theorem TrapKept.registersOnly {g h : Group} (a : TrapKept g h) : RegistersOnly g h :=
  RegistersOnly.of_trapKept a (RegistersOnly.refl h)

/-- The run's progress is no further change. -/
theorem RegistersOnly.past {g h : Group} (a : RegistersOnly g h) (pc : W64) (cost : Nat) (how : Option RunEnd) :
    RegistersOnly g (h.past pc cost how) := by
  obtain ⟨frame, causes⟩ := a
  refine ⟨?_, causes⟩
  unfold Group.past
  rw [frame]

theorem RegistersOnly.place {g h : Group} (a : RegistersOnly g h) : h.uid = g.uid ∧ h.core = g.core ∧ h.part = g.part := by
  obtain ⟨frame, -⟩ := a
  rw [frame]
  exact ⟨rfl, rfl, rfl⟩

section Writes

variable (g : Group) (f : Fld)

theorem Group.trapKept_writeReg (r : Nat) (v : VReg) (m : W64) : TrapKept g (g.writeReg r v m) := by
  unfold TrapKept
  obtain ⟨vs, ps, frame⟩ := g.writeReg_frame r v m
  rw [frame]

theorem Group.trapKept_setV (v : VReg) : TrapKept g (g.setV f v) := g.trapKept_writeReg ..

theorem Group.trapKept_setPair (x y : VReg) : TrapKept g (g.setPair f x y) :=
  (g.trapKept_writeReg ..).trans (Group.trapKept_writeReg ..)

theorem Group.trapKept_shareFail (r : Nat) : TrapKept g (g.shareFail r) := by
  unfold Group.shareFail
  split
  · rfl
  · rfl

/-- A write of `tcause` changes the cause of the entry that `sel` names (R22). -/
theorem TrapRec.setCause_entry (r : TrapRec) (v : W64) {k : Nat} {x : TrapEntry} (hx : r.entries[k]? = some x) :
    ∃ c, (r.setCause v).entries[k]? = some { x with cause := c } ∧ (x.idx ≠ r.sel → c = x.cause) := by
  simp only [TrapRec.setCause, List.getElem?_map, hx, Option.map_some]
  by_cases hs : x.idx = r.sel
  · exact ⟨v, by simp [hs], fun h => absurd hs h⟩
  · exact ⟨x.cause, by simp [hs], fun _ => rfl⟩

theorem Group.registersOnly_writeS (v : W64) : RegistersOnly g (g.writeS f v) := by
  unfold Group.writeS
  split
  case h_7 => exact ⟨rfl, List.length_map .., fun _ _ hx => g.trap.setCause_entry v hx⟩
  case h_8 | h_9 => exact ⟨rfl, rfl, fun _ x hx => ⟨x.cause, hx, fun _ => rfl⟩⟩
  case h_10 =>
    split
    · exact TrapKept.registersOnly rfl
    · exact RegistersOnly.refl g
  all_goals exact TrapKept.registersOnly rfl

theorem Group.trapKept_raise (s : State) (fl : List Flags) : TrapKept g (g.raise s fl).2 := by
  obtain ⟨-, -, group⟩ := g.raise_frame s fl
  unfold TrapKept
  rw [group]

end Writes

/-! ## The machine -/

/-- A register instruction that ends with `d`: it changes registers of its group, and events at most when it raises flags. -/
def ChangesRegisters (s : State) (flags : Bool) (g : Group) (d : Done) : Prop :=
  ∃ t h cost, d = .seq t h cost ∧ RegistersOnly g h ∧ EventsOnly g.part g.core s t ∧ (flags = false → t = s) ∧
    ((∀ k, k < 5 → fpmAction g.fpm k ≠ 2) → CountsOnly g.part s t)

theorem changesRegisters_seq {s : State} {flags : Bool} {g h : Group} {cost : Nat} (r : RegistersOnly g h) :
    ChangesRegisters s flags g (.seq s h cost) :=
  ⟨s, h, cost, rfl, r, .refl .., fun _ => rfl, fun _ => .refl ..⟩

theorem changesRegisters_raise {s : State} {g h : Group} {cost : Nat} {fl : List Flags}
    (r : RegistersOnly (g.raise s fl).2 h) : ChangesRegisters s true g (.seq (g.raise s fl).1 h cost) := by
  obtain ⟨events, counts, -⟩ := g.raise_frame s fl
  exact ⟨_, h, cost, rfl, RegistersOnly.of_trapKept (g.trapKept_raise s fl) r, events,
    fun no => absurd no (by decide), counts⟩

/-! ## The words -/

/-- The words of the register instructions: classes 0, 1, 3 and 4, and of class 2 the local share instructions. -/
def registerOp (cls op : Nat) : Bool :=
  cls ∈ [0, 1, 3, 4] || cls == 2 && op ∈ [0, 1, 2, 3, 4, 5, 6, 7, 10, 11, 16, 20, 21]

/-- A word whose fields are those of `registerOp`. -/
def RegisterWord (w : W32) : Prop := registerOp (w.toNat / 2 ^ 27 % 8) (w.toNat / 2 ^ 21 % 64) = true

theorem packT_class (e u : Bool) (c : BitVec 3) (op : BitVec 6) (d a b : Fld) :
    (packT e u c op d a b).toNat / 2 ^ 27 % 8 = c.toNat := by
  rw [Laws.packT_toNat]
  have := Bool.toNat_le e
  have := Bool.toNat_le u
  omega

theorem packT_op (e u : Bool) (c : BitVec 3) (op : BitVec 6) (d a b : Fld) :
    (packT e u c op d a b).toNat / 2 ^ 21 % 64 = op.toNat := by
  rw [Laws.packT_toNat]
  omega

theorem packI_class (e u : Bool) (c : BitVec 3) (op : BitVec 4) (d a : Fld) (i : BitVec 9) :
    (packI e u c op d a i).toNat / 2 ^ 27 % 8 = c.toNat := by
  rw [Laws.packI_toNat]
  have := Bool.toNat_le u
  omega

theorem packB_class (e : Bool) (op : BitVec 4) (c : Fld) (t : BitVec 16) :
    (packB e op c t).toNat / 2 ^ 27 % 8 = 6 := by
  rw [Laws.packB_toNat]
  omega

section

variable {w1 : W32} {w w2 : Option W32}

theorem not_registerWord_packT {e u : Bool} {c : BitVec 3} {op : BitVec 6} {d a b : Fld}
    (he : some (packT e u c op d a b, w) = some (w1, w2)) (h : registerOp c.toNat op.toNat = false) : ¬ RegisterWord w1 := by
  cases he
  rw [RegisterWord, packT_class, packT_op, h]
  exact Bool.false_ne_true

theorem not_registerWord_packI {e u : Bool} {op : BitVec 4} {d a : Fld} {i : BitVec 9}
    (he : some (packI e u 5 op d a i, w) = some (w1, w2)) : ¬ RegisterWord w1 := by
  cases he
  rw [RegisterWord, packI_class]
  exact Bool.false_ne_true

theorem not_registerWord_packB {e : Bool} {op : BitVec 4} {c : Fld} {t : BitVec 16}
    (he : some (packB e op c t, w) = some (w1, w2)) : ¬ RegisterWord w1 := by
  cases he
  rw [RegisterWord, packB_class]
  exact Bool.false_ne_true

end

end Sys2Proof.Machine
end

section
/-!
The frame of the register instructions, of class 0, 1, 3 and 4, and of the local share instructions of class 2.
-/

namespace Sys2Proof.Machine

open Sys2Proof Sys2Proof.Claims

/-! ## Their bodies -/

section Bodies

variable {s : State} {flags : Bool} {g : Group} {cost : Nat}

theorem changesRegisters_setV {d : Fld} {v : VReg} : ChangesRegisters s flags g (.seq s (g.setV d v) cost) :=
  changesRegisters_seq (g.trapKept_setV d v).registersOnly

theorem changesRegisters_setPair {d : Fld} {x y : VReg} : ChangesRegisters s flags g (.seq s (g.setPair d x y) cost) :=
  changesRegisters_seq (g.trapKept_setPair d x y).registersOnly

theorem changesRegisters_writeS {d : Fld} {x : W64} : ChangesRegisters s flags g (.seq s (g.writeS d x) cost) :=
  changesRegisters_seq (g.registersOnly_writeS d x)

theorem changesRegisters_shareFail {r : Nat} : ChangesRegisters s flags g (.seq s (g.shareFail r) cost) :=
  changesRegisters_seq (g.trapKept_shareFail r).registersOnly

theorem changesRegisters_vmatchr {d : Fld} {v : VReg} {m : W64} :
    ChangesRegisters s flags g (.seq s (if g.active = 0 then g else { g.setV d v with sm := m }) cost) := by
  split
  · exact changesRegisters_seq (RegistersOnly.refl g)
  · have marked : TrapKept (g.setV d v) { g.setV d v with sm := m } := rfl
    exact changesRegisters_seq ((g.trapKept_setV d v).trans marked).registersOnly

theorem changesRegisters_vgen {d : Fld} {v : VReg} {vs : List VReg} {ps : List Poison} :
    ChangesRegisters s flags g
      (.seq s (if g.active = 0 then { g with vregs := vs, poison := ps } else g.setV d v) cost) := by
  split
  · exact changesRegisters_seq (TrapKept.registersOnly rfl)
  · exact changesRegisters_setV

theorem changesRegisters_raise_setV {fl : List Flags} {d : Fld} {v : VReg} :
    ChangesRegisters s true g (.seq (g.raise s fl).1 ((g.raise s fl).2.setV d v) cost) :=
  changesRegisters_raise (Group.trapKept_setV _ d v).registersOnly

theorem changesRegisters_raise_setPair {fl : List Flags} {d : Fld} {x y : VReg} :
    ChangesRegisters s true g (.seq (g.raise s fl).1 ((g.raise s fl).2.setPair d x y) cost) :=
  changesRegisters_raise (Group.trapKept_setPair _ d x y).registersOnly

theorem changesRegisters_raise_writeS {fl : List Flags} {d : Fld} {x : W64} :
    ChangesRegisters s true g (.seq (g.raise s fl).1 ((g.raise s fl).2.writeS d x) cost) :=
  changesRegisters_raise (Group.registersOnly_writeS _ d x)

end Bodies

/-- Whether a word is of class 1, the class whose instructions raise flags. -/
def raisesFlags (w : W32) : Bool := w.toNat / 2 ^ 27 % 8 == 1

theorem raisesFlags_of_encode {e u : Bool} {op : BitVec 6} {d a b : Fld} {w1 : W32} {w2 w : Option W32}
    (he : some (packT e u 1 op d a b, w) = some (w1, w2)) : raisesFlags w1 = true := by
  cases he
  rw [raisesFlags, packT_class]
  rfl

/-- The instructions of class 1: they raise flags. -/
def raises : Instr → Bool
  | .vfadd .. | .vfsub .. | .vfmul .. | .vfmin .. | .vfmax .. | .vfminn .. | .vfmaxn .. | .vfdiv .. | .vfscale .. |
  .vffma .. | .vhdotBf .. | .vfabs .. | .vfneg .. | .vfrcp .. | .vfrsq .. | .vfsqrt .. | .vfexp2 .. | .vflog2 .. |
  .vcvt .. | .vfclass .. | .vfceq .. | .vfclt .. | .vfcle .. | .vfcun .. | .vfaddX .. | .vfsubX .. | .vfmulX .. |
  .vdwadd .. | .vdwsub .. | .vdwmul .. | .vdwmulf .. | .vdwren .. | .vfredmaxi .. | .vfredmini .. | .vhaddBf .. |
  .vhmulBf .. | .vhaddH .. | .vhmulH .. | .vhfmaBf .. | .vhfmaH .. | .vfredAdd .. | .vfscanAdd .. | .vfredX .. => true
  | _ => false

/-- By the operand form of each floating-point instruction. -/
theorem changesRegisters_of_raises (i : Instr) (s : State) (h : raises i = true) :
    Runs i s (ChangesRegisters s true) (exec i s) := by
  unfold exec
  cases i with
  | vfadd | vfsub | vfmul | vfmin | vfmax | vfminn | vfmaxn | vfdiv | vfscale =>
    exact Runs.float2 fun _ _ _ => changesRegisters_raise_setV
  | vffma | vhdotBf => exact Runs.float3 fun _ _ _ => changesRegisters_raise_setV
  | vfabs | vfneg | vfrcp | vfrsq | vfsqrt | vfexp2 | vflog2 | vcvt | vfclass =>
    exact Runs.float1 fun _ _ _ => changesRegisters_raise_setV
  | vfceq | vfclt | vfcle | vfcun => exact Runs.floatCmp fun _ _ _ => changesRegisters_raise_writeS
  | vfaddX | vfsubX | vfmulX | vdwadd | vdwsub | vdwmul | vdwmulf | vdwren =>
    exact Runs.floatPair fun _ _ _ _ => changesRegisters_raise_setPair
  | vfredmaxi | vfredmini => exact Runs.floatArg fun _ _ _ _ => changesRegisters_raise_setPair
  | vhaddBf | vhmulBf | vhaddH | vhmulH => exact Runs.pack2 fun _ _ _ => changesRegisters_raise_setV
  | vhfmaBf | vhfmaH => exact Runs.pack3 fun _ _ _ => changesRegisters_raise_setV
  | vfredAdd | vfscanAdd => exact Runs.issue fun _ => changesRegisters_raise_setV
  | vfredX =>
    refine Runs.issue fun _ => ?_
    dsimp only
    split
    · exact changesRegisters_raise_setPair
    · exact changesRegisters_raise_setPair
  | _ => exact absurd h Bool.false_ne_true

/-- By the operand form of each instruction: every word of the register instructions stands for one that changes registers. -/
theorem changesRegisters_exec (i : Instr) (s : State) {w1 : W32} {w2 : Option W32} (he : encode i = some (w1, w2))
    (hw : RegisterWord w1) : Runs i s (ChangesRegisters s (raisesFlags w1)) (exec i s) := by
  unfold exec
  cases i with
  | vadd | vsub | vmul | vshl | vsel | vmov | vtid | vxshu | vaddi | vmuli | vshli =>
    exact Runs.vecInstr fun _ _ => changesRegisters_setV
  | vmulhiI | vmulhiN | vand | vor | vxor | vandn | vshrN | vshrI | vrotl | vminI | vmaxI | vminN | vmaxN | vsxorB =>
    exact Runs.vec2 fun _ _ => changesRegisters_setV
  | vmac | vfshl | vfshr => exact Runs.vec3 fun _ _ => changesRegisters_setV
  | vpopc | vclz | vbrev | vandi | vshriN | vshriI => exact Runs.vec1 fun _ _ => changesRegisters_setV
  | vceq | vcne | vcltI | vcleI | vcltN | vcleN => exact Runs.cmp32 fun _ _ => changesRegisters_writeS
  | vceqW | vcltWI | vcltWN => exact Runs.cmp64 fun _ _ => changesRegisters_writeS
  | vceqi | vcltiI => exact Runs.maskInstr fun _ _ => changesRegisters_writeS
  | vaddW | vsubW | vmulW => exact Runs.pair2 fun _ _ _ => changesRegisters_setPair
  | vshlW | vshrWN | vshrWI => exact Runs.pairShift fun _ _ _ => changesRegisters_setPair
  | vxsh | vscanAdd | vredAdd => exact Runs.crossInstr fun _ _ => changesRegisters_setV
  | vredmaxiI | vredminiI => exact Runs.redPair fun _ _ _ => changesRegisters_setPair
  | vaddmod | vsubmod | vmulmod | vmacmod => exact Runs.modInstr fun _ _ => changesRegisters_setV
  | vmatchr => exact Runs.issue fun _ => changesRegisters_vmatchr
  | vshape => exact Runs.issue fun _ => changesRegisters_writeS
  | vgen => exact Runs.issue fun _ => changesRegisters_vgen
  | vsaddS16 | vssubS16 | vsaddS32 | vssubS32 | vsmulpS16 | vsmulpS32 =>
    exact Runs.share2 fun _ _ => changesRegisters_setV
  | vsaddpS16 | vsaddpS32 =>
    exact Runs.shareAddPublic (fun _ _ => changesRegisters_shareFail) fun _ _ => changesRegisters_setV
  | vstruncS16 | vstruncS32 =>
    exact Runs.shareTrunc (fun _ _ => changesRegisters_shareFail) fun _ _ => changesRegisters_setV
  | vsredS16 | vsredS32 => exact Runs.shareSum fun _ _ => changesRegisters_setV
  | sadd | ssub | smul | smulhiN | sand | sor | sxor | sandn | sshl | sshrN | sshrI | sceq | scltI | scltN | sminI | smaxI
  | smov | spopc | sclz | sctz | sfirst | saddi | sandi | sori | sshli | sshriN | sceqi | scltiI | smovi =>
    exact Runs.scalarInstr fun _ _ => changesRegisters_writeS
  | vfadd | vfsub | vfmul | vfmin | vfmax | vfminn | vfmaxn | vfdiv | vfscale | vffma | vhdotBf | vfabs | vfneg |
  vfrcp | vfrsq | vfsqrt | vfexp2 | vflog2 | vcvt | vfclass | vfceq | vfclt | vfcle | vfcun | vfaddX | vfsubX | vfmulX
  | vdwadd | vdwsub | vdwmul | vdwmulf | vdwren | vfredmaxi | vfredmini | vhaddBf | vhmulBf | vhaddH | vhmulH |
  vhfmaBf | vhfmaH | vfredAdd | vfscanAdd | vfredX =>
    rw [raisesFlags_of_encode he]
    exact changesRegisters_of_raises _ s rfl
  | vlop3 | vli | sli | mqld | tfillSend | tfillAccept | tburn | xopen | vsmulS16 | vsmulS32 | vsltzS16 | vsltzS32
  | vsb2aS16 | vsb2aS32 | vsandB | vsopenS16 | vsopenS32 | cbind | csend | crecv | cchoose | cdeleg | cstate | cabort | tlevel
  | ldgX | stgX | ldsX | stsX | ldd | std | atom | atoms | atomd | fence | xsend | xget | xred | xapp | mmloop | cpy | cunpack
  | cbinit | cbpush | cbpop | cbfree | abarInit | abarArrive | abarWait | launch | evcfg =>
    exact absurd hw (not_registerWord_packT he rfl)
  | ldg | stg | ldgW | stgW | ldgQ | stgQ | lds | sts | ldsW | stsW | ldsQ | stsQ | sld | sst | slds | ssts =>
    exact absurd hw (not_registerWord_packI he)
  | br | bz | bnz | bmz | bmnz | call | jr | loop | trap | wbase | bar | exit | yield | sys | rtrap =>
    exact absurd hw (not_registerWord_packB he)
  | _ => nomatch he

/-! ## The machine after them -/

theorem oneGroupChanges_setGroup {s t : State} {g h : Group} (r : RegistersOnly g h) (same : t.groups = s.groups) :
    OneGroupChanges s (t.setGroup h) g := by
  obtain ⟨uid, -, -⟩ := RegistersOnly.place r
  have at? (k : Nat) (x : Group) (hx : s.groups[k]? = some x) :
      (t.setGroup h).groups[k]? = some (if x.uid == h.uid then h else x) := by
    simp [State.setGroup, same, hx]
  refine ⟨by simp [same], fun k x hx hn => ?_, h, r, fun k x hx hu => ?_⟩
  · simp [at? k x hx, uid, hn]
  · simp [at? k x hx, uid, hu]

/-- What holds after a register instruction, whether its events are reported or not. -/
theorem changesRegisters_frame {s t : State} {g h : Group} (cost : Nat) (pc : W64) (how : Option RunEnd)
    (r : RegistersOnly g h) (events : EventsOnly g.part g.core s t) :
    let u := (t.setGroup (h.past pc cost how)).spend h.core cost
    u = { s with
      groups := u.groups, cores := u.cores, parts := t.parts, hbm := t.hbm, lines := t.lines, interrupts := t.interrupts } ∧
    OneGroupChanges s u g ∧ (∀ c, c ≠ g.core → u.core c = s.core c) ∧
    ∀ c, u.core c = { t.core c with cyc := (u.core c).cyc } := by
  obtain ⟨uid, core, part⟩ := RegistersOnly.place r
  have others (c : Nat) (hc : c ≠ g.core) : ((t.setGroup (h.past pc cost how)).spend h.core cost).core c = t.core c :=
    State.core_spend_other _ _ _ _ (core ▸ hc)
  refine ⟨?_, ?_, fun c hc => (others c hc).trans (events.otherCores c hc), fun c => ?_⟩
  · exact congrArg (fun x : State => { x with
      groups := ((t.setGroup (h.past pc cost how)).spend h.core cost).groups
      cores := ((t.setGroup (h.past pc cost how)).spend h.core cost).cores }) events.frame
  · exact oneGroupChanges_setGroup (RegistersOnly.past r pc cost how) (by rw [events.frame])
  · by_cases hc : c = g.core
    · rw [hc, ← core, State.core_spend_self]
      rfl
    · rw [others c hc]

theorem onlyCounts_trans {a b c : Core} (h : b = { a with window := b.window, crossed := b.crossed })
    (k : c = { b with cyc := c.cyc }) : c = { a with cyc := c.cyc, window := c.window, crossed := c.crossed } := by
  rw [h] at k
  rw [k]

/-- A register instruction that issues retires with what its body changes. -/
theorem exists_change_of_issues {i : Instr} {s t : State} {g : Group} {w1 : W32} {w2 : Option W32} (hi : Issues i s g)
    (he : encode i = some (w1, w2)) (hw : RegisterWord w1) (hx : exec i s = .next t) :
    ∃ u h cost pc how, t = (u.setGroup (Group.past h pc cost how)).spend h.core cost ∧ RegistersOnly g h ∧
      EventsOnly g.part g.core s u ∧ (raisesFlags w1 = false → u = s) ∧
      ((∀ k, k < 5 → fpmAction g.fpm k ≠ 2) → CountsOnly g.part s u) := by
  obtain ⟨body, hb, hbody⟩ := changesRegisters_exec i s he hw
  obtain ⟨u, h, cost, hd, regs, events, same, counts⟩ := hbody g
  rw [hb, issue_of_issues hi, hd] at hx
  exact ⟨u, h, cost, _, _, (Host.Outcome.next.inj hx).symm, regs, events, same, counts⟩

/-- Settles O60: every class of register instructions by the operand forms of its words. -/
theorem registerInstructionsFrame : Obligations.RegisterInstructionsFrame := by
  intro s t g i w1 w2 hi he hx cls
  refine ⟨fun hc => ?_, fun hc => ?_⟩
  · have hw : RegisterWord w1 := by
      rcases hc with hc | ⟨two, hop⟩
      · rw [RegisterWord, registerOp, Bool.or_eq_true, decide_eq_true_eq]
        left
        simp only [cls, List.mem_cons, List.not_mem_nil, or_false] at hc ⊢
        omega
      · rw [RegisterWord, registerOp, Bool.or_eq_true, Bool.and_eq_true, decide_eq_true_eq]
        exact .inr ⟨beq_iff_eq.mpr two, decide_eq_true hop⟩
    have quiet : raisesFlags w1 = false := by
      rw [raisesFlags, beq_eq_false_iff_ne]
      simp only [cls, List.mem_cons, List.not_mem_nil, or_false] at hc
      omega
    obtain ⟨u, h, cost, pc, how, rfl, regs, events, same, -⟩ := exists_change_of_issues hi he hw hx
    obtain rfl := same quiet
    obtain ⟨frame, group, others, self⟩ := changesRegisters_frame cost pc how regs events
    exact ⟨frame, group, self, others⟩
  · have hw : RegisterWord w1 := by
      rw [RegisterWord, show w1.toNat / 2 ^ 27 % 8 = 1 from hc]
      rfl
    obtain ⟨u, h, cost, pc, how, rfl, regs, events, -, counts⟩ := exists_change_of_issues hi he hw hx
    obtain ⟨frame, group, others, self⟩ := changesRegisters_frame cost pc how regs events
    refine ⟨frame, group, others, fun c => ?_, events.length, events.others, fun no => ?_⟩
    · exact onlyCounts_trans (events.cores c) (self c)
    · obtain ⟨hbm, lines, interrupts, sums⟩ := counts no
      exact ⟨hbm, lines, interrupts, sums⟩

end Sys2Proof.Machine
end

section
/-!
Accesses of the slice window and of the distributed space.
-/

namespace Sys2Proof.Machine

open Sys2Proof Sys2Proof.Claims

/-! ## What an access captures -/

theorem actives_eq (g : Group) : actives g = threads g.active g.width.n :=
  List.filter_congr fun _ ht => (g.getLsbD_active_of_lt (List.mem_range.mp ht)).symm

theorem Group.accessing_eq (g : Group) (u : Bool) : g.accessing u = Claims.computing g u := by
  rw [Group.accessing, Claims.computing, actives_eq, lowest]
  cases u with
  | false => rfl
  | true => cases threads g.active g.width.n <;> rfl

theorem scaled_eq {k : Nat} (f : BitVec k) (n : Nat) : scaled f n = off64 f n := by
  rw [scaled, off64, BitVec.signExtend, BitVec.ofInt_mul]
  rfl

theorem setWidth_off64 {k : Nat} (f : BitVec k) (n : Nat) : (off64 f n).setWidth 32 = BitVec.ofInt 32 (f.toInt * n) := by
  apply BitVec.eq_of_toNat_eq
  simp only [off64, BitVec.toNat_setWidth, BitVec.toNat_ofInt]
  generalize f.toInt * n = i
  omega

section Stored

variable (g : Group) (d : Fld) (t : Nat)

/-- The element of a thread in the `k`th register of a store. -/
def Group.storeWord (k : Nat) : W32 := (g.vreg (g.wb + d.toNat + k)).get t

theorem Group.wide_one : g.wide d 1 t = (g.storeWord d t 0).toNat := by
  simp [Group.wide, Group.storeWord]

theorem Group.wide_succ (n : Nat) : g.wide d (n + 1) t = g.wide d n t + (g.storeWord d t n).toNat * 2 ^ (32 * n) := by
  simp only [Group.wide, List.range_succ, List.map_append, List.sum_append, List.map_cons, List.map_nil, List.sum_cons,
    List.sum_nil, Nat.add_zero]
  rfl

/-- Words side by side are the sum of what each weighs. -/
theorem ofNat_wide_stored (n : Nat) (hn : n = 1 ∨ n = 2 ∨ n = 4) : BitVec.ofNat 128 (g.wide d n t) = stored g d n t := by
  rcases hn with rfl | rfl | rfl
  · rw [g.wide_one]
    exact BitVec.ofNat_toNat 128 _
  · have two : g.wide d 2 t = (g.storeWord d t 1 ++ g.storeWord d t 0).toNat := by
      rw [g.wide_succ, g.wide_one, Laws.toNat_app]
      omega
    rw [two]
    exact BitVec.ofNat_toNat 128 _
  · have four : g.wide d 4 t =
        (g.storeWord d t 3 ++ g.storeWord d t 2 ++ g.storeWord d t 1 ++ g.storeWord d t 0).toNat := by
      rw [g.wide_succ, g.wide_succ, g.wide_succ, g.wide_one]
      simp only [Laws.toNat_app]
      generalize (g.storeWord d t 0).toNat = w0
      generalize (g.storeWord d t 1).toNat = w1
      generalize (g.storeWord d t 2).toNat = w2
      generalize (g.storeWord d t 3).toNat = w3
      omega
    rw [four]
    exact BitVec.ofNat_toNat 128 _

end Stored

theorem loadS_eq (g : Group) (sp : Space) (u : Bool) (d a : Fld) (off : W64) (size n : Nat) (ext : Ext) :
    g.loadS sp u d a off size n ext = loadOp g u sp size n ext d (saddr g a off) := by
  rw [Group.loadS, g.accessing_eq]
  rfl

theorem storeS_eq (g : Group) (sp : Space) (u : Bool) (d a : Fld) (off : W64) (size n : Nat) (hn : n = 1 ∨ n = 2 ∨ n = 4) :
    g.storeS sp u d a off size n = storeOp g u sp size n d (saddr g a off) := by
  rw [Group.storeS, Group.storeItems, g.accessing_eq, storeOp]
  simp only [ofNat_wide_stored g d _ n hn]
  rfl

theorem atomOp_eq (g : Group) (sp : Space) (u : Bool) (d b : Fld) (addr : Nat → W64) (sc : BitVec 3) (ord : BitVec 2)
    (ret w : Bool) (op : BitVec 4) :
    g.atomOp sp u d b addr sc ord ret w op = atomicOp g u sp d b addr sc ord ret w op := by
  rw [Group.atomOp, g.accessing_eq]
  rfl

/-! ## Waiting for banks -/

/-- A field that every step of a fold keeps, the fold keeps. -/
theorem foldl_keeps {α β γ : Type} (p : β → γ) (f : β → α → β) (h : ∀ b a, p (f b a) = p b) (l : List α)
    (b : β) : p (l.foldl f b) = p b := by
  induction l generalizing b with
  | nil => rfl
  | cons a l ih => rw [List.foldl_cons, ih, h]

/-- The core and the lane of a group. -/
def Group.seat (g : Group) : Nat × Nat := (g.core, g.lane)

theorem Group.seat_writeElems (g : Group) (r : Nat) (xs : List (Nat × W32)) : (g.writeElems r xs).seat = g.seat := by
  cases xs <;> rfl

theorem Group.seat_writeReg (g : Group) (r : Nat) (v : VReg) (m : W64) : (g.writeReg r v m).seat = g.seat := by
  obtain ⟨vs, ps, frame⟩ := g.writeReg_frame r v m
  rw [frame]
  rfl

theorem Group.seat_writeS (g : Group) (f : Fld) (v : W64) : (g.writeS f v).seat = g.seat := by
  obtain ⟨frame, -⟩ := g.registersOnly_writeS f v
  rw [frame]
  rfl

/-- A result written to a group leaves it on its lane. -/
theorem Group.seat_apply (g : Group) (r : Result) : (g.apply r).seat = g.seat := by
  unfold Group.apply
  dsimp only
  refine (foldl_keeps Group.seat _ (fun _ _ => Group.seat_writeS ..) _ _).trans ?_
  refine (foldl_keeps Group.seat _ (fun _ _ => Group.seat_writeReg ..) _ _).trans ?_
  exact foldl_keeps Group.seat _ (fun _ _ => Group.seat_writeElems ..) _ _

theorem State.bankWait_of_seat (s : State) {g h : Group} (hs : h.seat = g.seat) (strided : Bool) (xs : List (Nat × Nat)) :
    s.bankWait h strided xs = s.bankWait g strided xs := by
  obtain ⟨core, lane⟩ := Prod.mk.inj hs
  rw [State.bankWait, core, lane, State.bankWait]

theorem Core.waited_of_notMem (k : Core) (lane : Nat) (h : ∀ n, (lane, n) ∉ k.laneWaits) : k.waited lane = 0 := by
  have none : k.laneWaits.find? (fun w => w.1 == lane) = none := by
    rw [List.find?_eq_none]
    rintro ⟨l, n⟩ hm hl
    obtain rfl : l = lane := by simpa using hl
    exact h n hm
  rw [Core.waited, none]
  rfl

/-- One request has no conflict of its own. -/
theorem conflictCycles_single (p size : Nat) : conflictCycles false [(p, size)] = 0 := by
  simp [conflictCycles, requests, mergeRows, requestWait]

theorem State.bankWait_single (s : State) (g : Group) (p size : Nat) :
    s.bankWait g false [(p, size)] = (s.core g.core).waited g.lane := by
  rw [State.bankWait, conflictCycles_single, Nat.zero_add]
  rfl

theorem conflicts_eq (g : Group) (s : State) (strided : Bool) (places waits : List (Nat × Nat)) :
    g.conflicts s strided places waits =
      ((conflicted s g places (s.bankWait g strided waits)).1, (conflicted s g places (s.bankWait g strided waits)).2,
        s.bankWait g strided waits) := rfl

/-! ## Accesses of the slices -/

/-- The space of slices that an access names: its checks never find a poisoned line. -/
theorem State.check_slices (s : State) {part ctx team size : Nat} {sp : Space} {addr : W64} {need : Perm} {ordered : Bool}
    (hsp : sp ≠ .global) :
    (∃ c d, s.check part ctx team sp addr size need ordered = .fail c d) ∨
    ∃ a, s.check part ctx team sp addr size need ordered = .ok (.slice a) := by
  unfold State.check
  split
  · exact .inl ⟨_, _, rfl⟩
  · cases sp with
    | global => exact absurd rfl hsp
    | slice =>
      dsimp only
      split
      · exact .inr ⟨_, rfl⟩
      · exact .inl ⟨_, _, rfl⟩
    | dist =>
      dsimp only
      split
      · exact .inr ⟨_, rfl⟩
      · exact .inl ⟨_, _, rfl⟩

theorem State.badLine_slice (s : State) (hs : s.sliceErrs = []) (a n : Nat) : s.badLine (.slice a) n = none := by
  simp [State.badLine, hs]

theorem State.sliceErrs_writeAt (s : State) (hs : s.sliceErrs = []) (a : Nat) (bs : List Byte) :
    (s.writeAt (.slice a) bs).sliceErrs = [] := by
  simp [State.writeAt, hs, errsAfter]

section Unspoiled

variable {sp : Space} (hsp : sp ≠ .global) (g : Group) (size : Nat)

include hsp

theorem State.loadAll_unspoiled (s : State) (hs : s.sliceErrs = []) (xs : List (Nat × W64)) :
    (s.loadAll g sp size xs).poison = none := by
  induction xs with
  | nil => rfl
  | cons x xs ih =>
    obtain ⟨t, a⟩ := x
    rcases s.check_slices (part := g.part) (ctx := g.ctx) (team := g.team) (size := size) (addr := a) (need := .read)
      (ordered := false) hsp with ⟨c, d, hc⟩ | ⟨p, hc⟩
    · simp only [State.loadAll, State.readThread, hc]
      exact ih
    · simp only [State.loadAll, State.readThread, hc, s.badLine_slice hs]
      exact ih

theorem State.storeAll_unspoiled (s : State) (xs : List (Nat × W64 × BitVec 128)) :
    (s.storeAll g sp size xs).poison = none := by
  induction xs generalizing s with
  | nil => rfl
  | cons x xs ih =>
    obtain ⟨t, a, v⟩ := x
    rcases s.check_slices (part := g.part) (ctx := g.ctx) (team := g.team) (size := size) (addr := a) (need := .write)
      (ordered := false) hsp with ⟨c, d, hc⟩ | ⟨p, hc⟩
    · simp only [State.storeAll, hc]
      exact ih s
    · simp only [State.storeAll, hc]
      exact ih _

theorem State.atomAll_unspoiled (wide ordered : Bool) (op : AOp) (s : State) (hs : s.sliceErrs = [])
    (xs : List (Nat × W64 × W64 × W64)) : (s.atomAll g sp wide op ordered xs).poison = none := by
  induction xs generalizing s with
  | nil => rfl
  | cons x xs ih =>
    obtain ⟨t, a, v, e⟩ := x
    rcases s.check_slices (part := g.part) (ctx := g.ctx) (team := g.team) (size := atomSize wide) (addr := a)
      (need := op.perm) (ordered := ordered) hsp with ⟨c, d, hc⟩ | ⟨p, hc⟩
    · simp only [State.atomAll, hc]
      exact ih s hs
    · simp only [State.atomAll, hc, s.badLine_slice hs, ite_self]
      refine ih _ ?_
      split
      · exact hs
      · exact s.sliceErrs_writeAt hs ..

/-- An access of the slices, where no line of them has an error, is performed (R297). -/
theorem State.performAccess_load (s : State) (hs : s.sliceErrs = []) (idx dst n : Nat) (strided : Bool) (ext : Ext)
    (spread : Option W64) (xs : List (Nat × W64)) :
    ∃ t r places, s.performAccess g idx strided (.load sp size xs dst n ext spread) = .ok t r places := by
  simp only [State.performAccess, s.loadAll_unspoiled hsp g size hs xs]
  exact ⟨_, _, _, rfl⟩

theorem State.performAccess_store (s : State) (idx : Nat) (strided : Bool) (xs : List (Nat × W64 × BitVec 128)) :
    ∃ t r places, s.performAccess g idx strided (.store sp size xs) = .ok t r places := by
  simp only [State.performAccess, s.storeAll_unspoiled hsp g size xs]
  exact ⟨_, _, _, rfl⟩

theorem State.performAccess_atomic (s : State) (hs : s.sliceErrs = []) (idx sc dst : Nat) (strided wide ret : Bool) (op : AOp)
    (ord : AOrd) (spread : Option W64) (xs : List (Nat × W64 × W64 × W64)) :
    ∃ t r places, s.performAccess g idx strided (.atomic sp wide op ord sc ret xs dst spread) = .ok t r places := by
  simp only [State.performAccess, s.atomAll_unspoiled hsp g wide (ord != .relaxed) op hs xs]
  exact ⟨_, _, _, rfl⟩

end Unspoiled

/-- A captured access that is performed wherever no line of the slices has an error. -/
def ReadsSlices (g : Group) (op : DOp) : Prop :=
  ∀ s : State, s.sliceErrs = [] → ∀ (idx : Nat) (strided : Bool),
    ∃ t r places, s.performAccess g idx strided op = .ok t r places

theorem readsSlices_loadOp {sp : Space} (hsp : sp ≠ .global) {g : Group} {u : Bool} {size n : Nat} {ext : Ext} {d : Fld}
    {addr : Nat → W64} : ReadsSlices g (loadOp g u sp size n ext d addr) :=
  fun s hs _ _ => s.performAccess_load hsp g size hs ..

theorem readsSlices_storeOp {sp : Space} (hsp : sp ≠ .global) {g : Group} {u : Bool} {size n : Nat} {d : Fld}
    {addr : Nat → W64} : ReadsSlices g (storeOp g u sp size n d addr) :=
  fun s _ _ _ => s.performAccess_store hsp g size ..

theorem readsSlices_atomicOp {sp : Space} (hsp : sp ≠ .global) {g : Group} {u : Bool} {d b : Fld} {addr : Nat → W64}
    {sc : BitVec 3} {ord : BitVec 2} {ret w : Bool} {op : BitVec 4} :
    ReadsSlices g (atomicOp g u sp d b addr sc ord ret w op) :=
  fun s hs _ _ => s.performAccess_atomic hsp g hs ..

/-! ## The forms of accesses -/

theorem cycles_of_inactive {g : Group} (u : Bool) (h : ¬∃ t, Active g t) : Claims.cycles g u = 1 := by
  have none : actives g = [] := by
    rw [actives_eq, List.eq_nil_iff_forall_not_mem]
    exact fun t ht => h ⟨t, (g.mem_active_threads t).mp ht⟩
  have zero : activeCount g = 0 := congrArg List.length none
  cases u with
  | false => rw [Claims.cycles, zero]; rfl
  | true => rfl

section Forms

variable {i : Instr} {s : State} {g : Group}

/-- An access that consumes a line's error ends there. -/
theorem performed_of_issue {strided : Bool} {op : DOp} {body : Group → State → Done} (hx : exec i s = issue i s body)
    (hi : Issues i s g) (ready : ReadsSlices g op)
    (dead : ∀ t, s.performAccess g g.ticket strided op = .dead t → body g s = .dead t) : Performed i s g strided op := by
  refine ⟨fun hs => ready s hs _ _, fun t ht => ?_⟩
  rw [hx, issue_of_issues hi, dead t ht]
  rfl

theorem slice_of_sliceAccess {u : Bool} {strided : Group → Bool} {op : Group → DOp} {dop : DOp}
    (hx : exec i s = sliceAccess i s (fun g => g.vcost u) strided op) (hop : op g = dop) (ready : ReadsSlices g dop) :
    Slice i s g u (strided g) dop := by
  subst hop
  intro hi
  refine ⟨performed_of_issue hx hi ready fun t ht => by simp only [ht], fun t r places hp => ?_⟩
  have seat : ({ g.apply r with fails := addFailures r.norm.fail.toList (g.apply r).fails } : Group).seat = g.seat :=
    g.seat_apply r
  rw [hx, sliceAccess, issue_of_issues hi]
  simp only [show s.performAccess g g.ticket (strided g) (op g) = .ok t r places from hp, conflicts_eq,
    t.bankWait_of_seat seat, Group.vcost_eq, retire_seq_after]

/-- An access whose result, or outcome, is on the way. -/
theorem returning_of_body {u strided returns : Bool} {op : DOp} {count : Nat × Nat → Bool} {body : Group → State → Done}
    (hx : exec i s = issue i s body) (idle : g.active = 0 → body g s = .seq s g (g.vcost u))
    (dead : g.active ≠ 0 → ∀ t, s.performAccess g g.ticket strided op = .dead t → body g s = .dead t)
    (done : g.active ≠ 0 → ∀ t r places, s.performAccess g g.ticket strided op = .ok t r places →
      let c := conflicted t g places (t.bankWait g strided (places.filter count))
      body g s = deferred i c.2 c.1 op (g.vcost u + t.bankWait g strided (places.filter count)) fun w =>
        if returns then w.ret g.uid g.ticket r else w.finish g.uid g.ticket r)
    (ready : ReadsSlices g op) : Returning i s g u strided returns op count := by
  refine ⟨fun hi ha => ?_, fun hn => ?_⟩
  · have live : g.active ≠ 0 := fun h => g.active_eq_zero_iff.mp h ha
    refine ⟨performed_of_issue hx hi ready (dead live), fun t r places hp => ?_⟩
    rw [← Group.vcost_eq]
    exact handsIn_of_deferred hx (done live t r places hp) hi
  · refine gives_of_issue hx ?_
    rw [idle (g.active_eq_zero_iff.mpr hn), Group.vcost_eq, cycles_of_inactive u hn]

theorem returning_of_distAccess {u returns : Bool} {strided : Group → Bool} {op : Group → DOp} {dop : DOp}
    (hx : exec i s = distAccess i s u returns strided op) (hop : op g = dop) (ready : ReadsSlices g dop) :
    Returning i s g u (strided g) returns dop fun p => p.1 / 2097152 == g.core := by
  subst hop
  refine returning_of_body hx (fun h => if_pos h) (fun h t ht => ?_) (fun h t r places hp => ?_) ready
  · simp only [if_neg h, ht]
  · simp only [if_neg h, hp, conflicts_eq]
    rfl

end Forms

end Sys2Proof.Machine
end

section
/-!
Slice and distributed accesses, by the forms of their instructions.
-/

namespace Sys2Proof.Machine

open Sys2Proof Sys2Proof.Claims

/-! ## The accesses of lanes -/

section Captured

variable (s : State) (g : Group) (sp : Space) (u : Bool) (d a b : Fld)

theorem loadS_scaled {k : Nat} (f : BitVec k) (m size n : Nat) (ext : Ext) :
    g.loadS sp u d a (scaled f m) size n ext = loadOp g u sp size n ext d (saddr g a (off64 f m)) := by
  rw [loadS_eq, scaled_eq]

theorem storeS_scaled {k : Nat} (f : BitVec k) (m size n : Nat) (hn : n = 1 ∨ n = 2 ∨ n = 4) :
    g.storeS sp u d a (scaled f m) size n = storeOp g u sp size n d (saddr g a (off64 f m)) := by
  rw [storeS_eq g sp u d a _ size n hn, scaled_eq]

theorem narrowOff_eq (o : BitVec 16) : g.narrowOff s b o = g.readS (s.cyc g) b + off64 o 1 := by
  rw [Group.narrowOff, wordOff, BitVec.signExtend, off64, Nat.cast_one, mul_one]

theorem atomOp_scaled (o : BitVec 11) (sc : BitVec 3) (ord : BitVec 2) (ret w : Bool) (op : BitVec 4) :
    g.atomOp sp u d b (g.sliceAddr a ((scaled o (atomSize w)).setWidth 32)) sc ord ret w op =
      atomicOp g u sp d b (saddr g a (off64 o (width w))) sc ord ret w op := by
  rw [atomOp_eq, scaled_eq]
  rfl

end Captured

theorem slice_ne_global : Space.slice ≠ .global := by decide

theorem dist_ne_global : Space.dist ≠ .global := by decide

/-- An atomic of the slice window waits at the banks of all its places. -/
theorem returning_atoms (s : State) (g : Group) (e u : Bool) (d a b : Fld) (o : BitVec 11) (sc : BitVec 3) (ord : BitVec 2)
    (ret w : Bool) (op : BitVec 4) :
    Returning (.atoms e u d a b o sc ord ret w op) s g u (g.v a).isA ret
      (atomicOp g u .slice d b (saddr g a (off64 o (width w))) sc ord ret w op) fun _ => true := by
  have all (places : List (Nat × Nat)) : places.filter (fun _ => true) = places := List.filter_eq_self.mpr fun _ _ => rfl
  rw [← atomOp_scaled]
  refine returning_of_body (Laws.exec_atoms ..) (fun h => if_pos h) (fun h t ht => ?_) (fun h t r places hp => ?_) ?_
  · simp only [if_neg h, ht]
  · simp only [if_neg h, hp, conflicts_eq, all]
  · rw [atomOp_scaled]
    exact readsSlices_atomicOp slice_ne_global

/-! ## The accesses of a group -/

section Scalar

variable {s : State} {g : Group} {tm : Team} {e : Bool} {d a : Fld} {f : BitVec 9}

theorem scalarSlice_eq (s : State) (g : Group) (a : Fld) (f : BitVec 9) :
    g.scalarSlice s a f = ((g.readS (s.cyc g) a).setWidth 32 + BitVec.ofInt 32 (f.toInt * 8)).setWidth 64 := by
  rw [Group.scalarSlice, scalarSliceAt, scaled_eq, setWidth_off64]
  rfl

section Check

variable {part ctx : Nat} {need : Perm} {x : W64}

/-- The check of eight bytes of a team's window (R34, R149). -/
theorem State.check_window {p : Nat} (ht : s.team? g.team = some tm) (h8 : x.toNat % 8 = 0)
    (hw : tm.window x.toNat 8 = some p) : s.check part ctx g.team .slice x 8 need false = .ok (.slice p) := by
  simp [State.check, ht, h8, hw]

theorem State.check_outside (ht : s.team? g.team = some tm) (h8 : x.toNat % 8 = 0) (hw : tm.window x.toNat 8 = none) :
    s.check part ctx g.team .slice x 8 need false = .fail .sliceBounds 0 := by
  simp [State.check, ht, h8, hw]

theorem State.check_unaligned {team : Nat} {sp : Space} {ordered : Bool} (h8 : x.toNat % 8 ≠ 0) :
    s.check part ctx team sp x 8 need ordered = .fail .alignment 0 := if_pos h8

end Check

theorem slds_window {p : Nat} (ht : s.team? g.team = some tm) (h8 : (g.scalarSlice s a f).toNat % 8 = 0)
    (hw : tm.window (g.scalarSlice s a f).toNat 8 = some p) (hb : s.badLine (.slice p) 8 = none)
    (hi : Issues (.slds e d a f) s g) :
    let n := (s.core g.core).waited g.lane
    let c := conflicted s (g.writeS d (BitVec.ofNat 64 (leNat (s.slices.readN p 8)))) [(p, 8)] n
    exec (.slds e d a f) s = .next
      (after c.1 c.2 (1 + n) (c.2.pc + lengthOf (.slds e d a f)) (endsRun (.slds e d a f) c.2)) := by
  have bytes : s.readThread g .slice 8 0 (g.scalarSlice s a f) = .bytes (s.slices.readN p 8) (.slice p) := by
    rw [State.readThread, State.check_window ht h8 hw]
    simp only [hb, State.readAt]
  rw [Laws.exec_slds, execSlds, issue_of_issues hi]
  simp only [bytes, Place.addr, conflicts_eq, s.bankWait_of_seat (g.seat_writeS d _), State.bankWait_single, retire_seq_after]

theorem ssts_window {p : Nat} (ht : s.team? g.team = some tm) (h8 : (g.scalarSlice s a f).toNat % 8 = 0)
    (hw : tm.window (g.scalarSlice s a f).toNat 8 = some p) (hi : Issues (.ssts e d a f) s g) :
    let n := (s.core g.core).waited g.lane
    let c := conflicted (s.writeAt (.slice p) (leBytes 8 (g.readS (s.cyc g) d).toNat)) g [(p, 8)] n
    exec (.ssts e d a f) s = .next
      (after c.1 c.2 (1 + n) (c.2.pc + lengthOf (.ssts e d a f)) (endsRun (.ssts e d a f) c.2)) := by
  have place : s.check g.part g.ctx g.team .slice (g.scalarSlice s a f) 8 .write false = .ok (.slice p) :=
    State.check_window ht h8 hw
  rw [Laws.exec_ssts, execSsts, issue_of_issues hi]
  simp only [place, Place.addr, conflicts_eq, State.bankWait_single, retire_seq_after]
  rfl

/-- A group's access of its window that fails its check (R26, R149). -/
theorem scalarSlice_fails {c : Cause}
    (hc : ∀ need, s.check g.part g.ctx g.team .slice (g.scalarSlice s a f) 8 need false = .fail c 0) :
    FailsNow (.slds e d a f) s g c 0 0 (g.scalarSlice s a f) 1 ∧
      FailsNow (.ssts e d a f) s g c 2 0 (g.scalarSlice s a f) 1 := by
  refine ⟨failsNow_of_issue (Laws.exec_slds ..) ?_, failsNow_of_issue (Laws.exec_ssts ..) ?_⟩
  · simp only [State.readThread, hc]
    rfl
  · simp only [hc]
    rfl

end Scalar

/-! ## The statements -/

theorem sliceAccessResults : SliceAccessResults := by
  intro s g tm e u d a b f o f11 sign half ret w sc ord op st r
  have load {i : Instr} (size n : Nat) (x : Ext) (addr : Nat → W64) (dop : Group → DOp)
      (hx : exec i s = sliceAccess i s (fun g => g.vcost u) (fun g => (g.v a).isA) dop)
      (hop : dop g = loadOp g u .slice size n x d addr) : Slice i s g u st (loadOp g u .slice size n x d addr) :=
    slice_of_sliceAccess hx hop (readsSlices_loadOp slice_ne_global)
  have store {i : Instr} (size n : Nat) (addr : Nat → W64) (dop : Group → DOp)
      (hx : exec i s = sliceAccess i s (fun g => g.vcost u) (fun g => (g.v a).isA) dop)
      (hop : dop g = storeOp g u .slice size n d addr) : Slice i s g u st (storeOp g u .slice size n d addr) :=
    slice_of_sliceAccess hx hop (readsSlices_storeOp slice_ne_global)
  refine ⟨load 4 1 _ _ _ (Laws.exec_lds ..) (loadS_scaled ..),
    store 4 1 _ _ (Laws.exec_sts ..) (storeS_scaled (hn := by decide) ..),
    load 8 2 _ _ _ (Laws.exec_ldsW ..) (loadS_scaled ..),
    store 8 2 _ _ (Laws.exec_stsW ..) (storeS_scaled (hn := by decide) ..),
    load 16 4 _ _ _ (Laws.exec_ldsQ ..) (loadS_scaled ..),
    store 16 4 _ _ (Laws.exec_stsQ ..) (storeS_scaled (hn := by decide) ..),
    load _ 1 _ _ _ (Laws.exec_ldsX ..) ?_, store _ 1 _ _ (Laws.exec_stsX ..) ?_,
    returning_atoms .., fun strided places => ⟨Nat.le_add_right .., fun free => ?_⟩, fun ht => ?_⟩
  · rw [narrowOff_eq, loadS_eq]
    rfl
  · rw [narrowOff_eq, storeS_eq (hn := by decide)]
    rfl
  · rw [State.bankWait, Core.waited_of_notMem _ _ free, ite_self, Nat.add_zero]
  · intro x
    have hx : x = g.scalarSlice s a f := (scalarSlice_eq s g a f).symm
    rw [hx]
    exact ⟨fun p h8 hw => ⟨fun hb hi => slds_window ht h8 hw hb hi,
        fun hi => ⟨ssts_window ht h8 hw hi, State.writeAt_slice_slices ..⟩⟩,
      fun h8 hw => scalarSlice_fails fun _ => State.check_outside ht h8 hw,
      fun h8 => scalarSlice_fails fun _ => State.check_unaligned h8⟩

theorem distributedAccessResults : DistributedAccessResults := by
  intro s g e u d a b o f11 ret w sc ord op st own
  exact ⟨returning_of_distAccess (Laws.exec_ldd ..) (loadS_scaled ..) (readsSlices_loadOp dist_ne_global),
    returning_of_distAccess (Laws.exec_std ..) (storeS_scaled (hn := by decide) ..)
      (readsSlices_storeOp dist_ne_global),
    returning_of_distAccess (Laws.exec_atomd ..) (atomOp_scaled ..) (readsSlices_atomicOp dist_ne_global)⟩

/-- Settles O23: each instruction is the form of its accesses, with the operation that it captures. -/
theorem sliceAndDistributedAccessResults : Obligations.SliceAndDistributedAccessResults :=
  ⟨sliceAccessResults, distributedAccessResults⟩

end Sys2Proof.Machine
end

section
/-!
Lane choices, returns, answers of system calls, event windows, and stalls.
-/

namespace Sys2Proof.Machine

open Sys2Proof Sys2Proof.Claims

/-! ## The lane's choice -/

/-- One group is before another of equal standing: the four keys of R258 in turn. -/
theorem State.earlier_iff (s : State) (g h : Group) : s.earlier g h = true ↔
    g.readyTime < h.readyTime ∨ g.readyTime = h.readyTime ∧ (s.acceptedAt g < s.acceptedAt h ∨
      s.acceptedAt g = s.acceptedAt h ∧ (g.tix < h.tix ∨ g.tix = h.tix ∧ g.gix < h.gix)) := by
  unfold State.earlier
  split
  next => rw [decide_eq_true_eq]; omega
  next =>
    split
    next => rw [decide_eq_true_eq]; omega
    next =>
      split
      · rw [decide_eq_true_eq]; omega
      · rw [decide_eq_true_eq]; omega

/-- One group is chosen before another: promoted groups first, then the higher priority (R258). -/
theorem State.precedes_iff (s : State) (g h : Group) : s.precedes g h = true ↔
    (g.promoted = true ∧ h.promoted = false) ∨ (g.promoted = h.promoted ∧
      (s.earlier g h = true ∧ (g.promoted = true ∨ g.prio = h.prio) ∨ g.promoted = false ∧ h.prio < g.prio)) := by
  unfold State.precedes
  cases g.promoted <;> cases h.promoted <;> by_cases hp : g.prio = h.prio <;> simp [hp]

theorem State.precedes_irrefl (s : State) (g : Group) : s.precedes g g = false := by
  rw [Bool.eq_false_iff, Ne, s.precedes_iff, s.earlier_iff]
  grind

theorem State.precedes_trans (s : State) {g h k : Group} (a : s.precedes g h = true) (b : s.precedes h k = true) :
    s.precedes g k = true := by
  rw [s.precedes_iff, s.earlier_iff] at *
  grind

/-- Of two groups of which the one precedes the other, a third one is behind the first or before the second. -/
theorem State.precedes_cotrans (s : State) {g k : Group} (a : s.precedes g k = true) (h : Group) :
    s.precedes g h = true ∨ s.precedes h k = true := by
  simp only [s.precedes_iff, s.earlier_iff] at *
  grind

/-- The better of a chosen group and another. -/
def State.better (s : State) (best : Option Group) (g : Group) : Option Group :=
  match best with
  | none => some g
  | some b => if s.precedes g b then some g else some b

theorem State.choice_eq (s : State) (core lane : Nat) :
    s.choice core lane = (s.groups.filter (s.inLine core lane)).foldl s.better none := rfl

/-- The choice among some groups, from one that is chosen already: no group comes before it. -/
theorem State.foldl_better (s : State) (l : List Group) (b : Group) :
    ∃ c, l.foldl s.better (some b) = some c ∧ (c = b ∨ c ∈ l) ∧ ∀ h, h = b ∨ h ∈ l → s.precedes h c = false := by
  induction l generalizing b with
  | nil => exact ⟨b, rfl, .inl rfl, fun h hh => by simp_all [s.precedes_irrefl]⟩
  | cons g l ih =>
    rw [List.foldl_cons, State.better]
    by_cases first : s.precedes g b = true
    · rw [if_pos first]
      obtain ⟨c, hc, hm, least⟩ := ih g
      refine ⟨c, hc, ?_, fun h hh => ?_⟩
      · rcases hm with rfl | hm
        · exact .inr (List.mem_cons_self ..)
        · exact .inr (List.mem_cons_of_mem _ hm)
      · rcases hh with rfl | hh
        · rw [Bool.eq_false_iff]
          intro before
          exact absurd (s.precedes_trans first before) (by rw [least g (.inl rfl)]; exact Bool.false_ne_true)
        · exact least h ((List.mem_cons.mp hh).imp id id)
    · rw [if_neg first]
      obtain ⟨c, hc, hm, least⟩ := ih b
      refine ⟨c, hc, hm.imp id (List.mem_cons_of_mem _), fun h hh => ?_⟩
      rcases hh with rfl | hh
      · exact least h (.inl rfl)
      · rcases List.mem_cons.mp hh with rfl | hh
        · rw [Bool.eq_false_iff]
          intro before
          rcases s.precedes_cotrans before b with hb | hb
          · exact first hb
          · exact absurd hb (by rw [least b (.inl rfl)]; exact Bool.false_ne_true)
        · exact least h (.inr hh)

/-- A lane at which a group stands in line chooses the one that R258 puts first. -/
theorem State.choice_chosen (s : State) (core lane : Nat) (h : ∃ g ∈ s.groups, s.inLine core lane g = true) :
    ∃ c, s.choice core lane = some c ∧ Chosen s core lane c := by
  rw [s.choice_eq]
  have line (g : Group) : g ∈ s.groups.filter (s.inLine core lane) ↔ g ∈ s.groups ∧ s.inLine core lane g = true :=
    List.mem_filter
  cases hl : s.groups.filter (s.inLine core lane) with
  | nil =>
    obtain ⟨g, hg, hi⟩ := h
    exact absurd ((line g).mpr ⟨hg, hi⟩) (by simp [hl])
  | cons b l =>
    obtain ⟨c, hc, hm, least⟩ := s.foldl_better l b
    have mem (g : Group) : g = b ∨ g ∈ l ↔ g ∈ s.groups ∧ s.inLine core lane g = true := by
      rw [← line, hl, List.mem_cons]
    obtain ⟨hin, hline⟩ := (mem c).mp hm
    exact ⟨c, hc, hin, hline, fun k hk hkl => least k ((mem k).mpr ⟨hk, hkl⟩)⟩

/-- A group stands in line exactly when it is ready on the lane, and neither halted nor spilled. -/
theorem Group.waitsForLane_iff (g : Group) (core lane : Nat) : g.waitsForLane core lane = true ↔
    g.core = core ∧ g.lane = lane ∧ g.stat = .ready ∧ g.halt = .no ∧ g.spilled = none := by
  simp only [Group.waitsForLane, Bool.and_eq_true, beq_iff_eq, Option.isNone_iff_eq_none, and_assoc]

/-- A free lane chooses the group that R258 puts first. -/
theorem laneChoice_runs (s : State) (core lane : Nat)
    (free : ∀ g ∈ s.groups, g.core = core → g.lane = lane → g.stat ≠ .running)
    (h : ∃ g ∈ s.groups, s.inLine core lane g = true) : ∃ (c : Group) (n : W64), Chosen s core lane c ∧
      let turn := fun (g : Group) =>
        if g.uid = c.uid then { g with
          stat := .running, runPc := g.pc, runIdx := 0, pends := [], fails := [], pass := 0, promoted := false
          waited := false }
        else if (g.core = core ∧ g.lane = lane ∧ g.stat = .ready ∧ g.halt = .no ∧ g.spilled = none) ∧ g.prio < c.prio ∧
            c.promoted = false then
          { g with pass := g.pass + 1, promoted := g.promoted || decide (16 ≤ g.pass + 1) }
        else g
      let w := s.setCore ((s.core core).waitDone lane)
      (c.yieldedDue = true → exec (.laneChoice core lane) s = .next s) ∧
      (c.yieldedDue = false → exec (.laneChoice core lane) s = .next (State.setCore { w with groups := s.groups.map turn }
        { w.core core with cyc := (w.core core).cyc + n })) := by
  obtain ⟨c, hc, chosen⟩ := s.choice_chosen core lane h
  have idle : (s.groups.any fun g => g.core == core && g.lane == lane && g.stat == .running) = false := by
    rw [List.any_eq_false]
    intro g hg hr
    simp only [Bool.and_eq_true, beq_iff_eq] at hr
    exact free g hg hr.1.1 hr.1.2 hr.2
  refine ⟨c, BitVec.ofNat 64 (Config.freeW32 8 s.tick core).toNat, chosen, fun due => ?_, fun due => ?_⟩
  · rw [Laws.exec_laneChoice, execLaneChoice, State.laneChoice, idle, hc]
    simp only [due, if_true, Bool.false_eq_true, if_false]
  · rw [Laws.exec_laneChoice, execLaneChoice, State.laneChoice, idle, hc]
    simp only [due, Bool.false_eq_true, if_false, Group.waitsForLane_iff, Group.passed, Bool.and_eq_true,
      decide_eq_true_eq, Bool.not_eq_true', beq_iff_eq]
    simp only [← ite_and]
    rfl

/-! ## Returns -/

/-- An instruction as a return under a ticket leaves it: with its result, where it waits under that ticket. -/
def Pend.returned (p : Pend) (ticket : Nat) (r : Result) : Pend :=
  if p.idx == ticket && p.st == .waiting then { p with st := .done r.norm } else p

theorem Pend.returned_waiting {p : Pend} {ticket : Nat} (r : Result) (h : p.idx = ticket ∧ p.st = .waiting) :
    p.returned ticket r = { p with st := .done r.norm } := if_pos (by simpa using h)

theorem Pend.returned_other {p : Pend} {ticket : Nat} (r : Result) (h : ¬(p.idx = ticket ∧ p.st = .waiting)) :
    p.returned ticket r = p := if_neg (by simpa using h)

/-- A group after the return of one of its instructions. -/
def Group.returned (g : Group) (ticket : Nat) (r : Result) : Group := { g with
  pends := g.pends.map (·.returned ticket r)
  yielded := g.yielded.map fun y => { y with pends := y.pends.map (·.returned ticket r) } }

theorem State.finish_of_group? {s : State} {uid : Nat} {g : Group} (hg : s.group? uid = some g) (ticket : Nat) (r : Result) :
    s.finish uid ticket r = s.setGroup (g.returned ticket r) := by
  unfold State.finish
  rw [hg]
  rfl

/-- A return of a group's own generation gives its instruction its result; nothing else of the group's registers changes. -/
theorem asyncReturn_arrives (s : State) (n : Nat) (r : Ret) (g : Group) (hr : s.returns[n]? = some r)
    (hg : s.group? r.uid = some g) (gen : g.gen = r.gen) :
    ∃ h, Steps (.asyncReturn n) s (({ s with returns := s.returns.eraseIdx n } : State).setGroup h) ∧ h.vregs = g.vregs ∧
      h.sregs = g.sregs ∧ h.pends.length = g.pends.length ∧ ∀ (k : Nat) (p : Pend), g.pends[k]? = some p →
        (p.idx = r.idx ∧ p.st = .waiting → h.pends[k]? = some { p with st := .done r.res.norm }) ∧
        (¬(p.idx = r.idx ∧ p.st = .waiting) → h.pends[k]? = some p) := by
  have there : ({ s with returns := s.returns.eraseIdx n } : State).group? r.uid = some g := hg
  refine ⟨g.returned r.idx r.res, ?_, rfl, rfl, List.length_map .., fun k p hp => ?_⟩
  · rw [Steps, Laws.exec_asyncReturn, execAsyncReturn, State.asyncReturn, hr]
    dsimp only
    rw [there]
    dsimp only
    rw [if_pos (beq_iff_eq.mpr gen), State.finish_of_group? there]
  · have at? : (g.returned r.idx r.res).pends[k]? = some (p.returned r.idx r.res) := by
      rw [Group.returned, List.getElem?_map, hp, Option.map_some]
    exact ⟨fun hw => at?.trans (congrArg some (Pend.returned_waiting _ hw)),
      fun hw => at?.trans (congrArg some (Pend.returned_other _ hw))⟩

/-- A dropped return is counted, and reported at most. -/
theorem State.genDrop_eq (s : State) (part core : Nat) : ∃ b : Bool, s.genDrop part core =
    if b then (s.countEvents part core 7 1).1.reportList part [eventEntry 0 core 7 0 0]
    else (s.countEvents part core 7 1).1 := ⟨_, rfl⟩

/-- A dropped return counts as an event of class 7 (R19, R129). -/
theorem State.genDrop_frame (s : State) (part core : Nat) : EventsOnly part core s (s.genDrop part core) ∧
    ∀ p, s.part? part = some p → ∃ q, (s.genDrop part core).part? part = some q ∧
      q.evsum = p.evsum.set 7 (p.evsum.getD 7 0 + 1) := by
  obtain ⟨events, -⟩ := s.countEvents_frame part core 7 1
  have counted (p : Partition) (hp : s.part? part = some p) :
      ∃ q, (s.countEvents part core 7 1).1.part? part = some q ∧ q.evsum = p.evsum.set 7 (p.evsum.getD 7 0 + 1) := by
    refine ⟨{ p with evsum := p.evsum.set 7 (p.evsum.getD 7 0 + 1) }, ?_, rfl⟩
    simp only [State.countEvents, hp]
    exact State.part?_setPart_of_num hp rfl
  obtain ⟨b, drop⟩ := s.genDrop_eq part core
  rw [drop]
  cases b with
  | false => exact ⟨events, counted⟩
  | true =>
    have reports := ReportsOnly.reportList (s.countEvents part core 7 1).1 part [eventEntry 0 core 7 0 0]
    refine ⟨events.trans (.of_reports reports), fun p hp => ?_⟩
    obtain ⟨q, hq, sum⟩ := counted p hp
    obtain ⟨q', hq', sum'⟩ := reports.sums q hq
    exact ⟨q', hq', sum'.trans sum⟩

/-- A return of another generation is dropped, and counted. -/
theorem asyncReturn_drops (s : State) (n : Nat) (r : Ret) (g : Group) (hr : s.returns[n]? = some r)
    (hg : s.group? r.uid = some g) (gen : g.gen ≠ r.gen) :
    ∃ t, Steps (.asyncReturn n) s t ∧ t.groups = s.groups ∧ t.returns = s.returns.eraseIdx n ∧
      ∀ p, s.part? r.part = some p → ∃ q, t.part? r.part = some q ∧ q.evsum = p.evsum.set 7 (p.evsum.getD 7 0 + 1) := by
  have there : ({ s with returns := s.returns.eraseIdx n } : State).group? r.uid = some g := hg
  obtain ⟨events, sums⟩ := State.genDrop_frame { s with returns := s.returns.eraseIdx n } r.part r.core
  refine ⟨State.genDrop { s with returns := s.returns.eraseIdx n } r.part r.core, ?_, ?_, ?_, sums⟩
  · rw [Steps, Laws.exec_asyncReturn, execAsyncReturn, State.asyncReturn, hr]
    simp only [there, beq_iff_eq, gen, if_false]
  · rw [events.frame]
  · rw [events.frame]

/-! ## System calls, windows and stalls -/

/-- The system call found at a run index waits among what its group has issued. -/
theorem Group.waitsIn_of_sysAt {g : Group} {idx since ticket : Nat} {d : Fld} (h : g.sysAt idx since = some (ticket, d)) :
    waitsIn g.issued ticket = true := by
  obtain ⟨p, hp, found⟩ := List.exists_of_findSome?_eq_some h
  rw [waitsIn, List.any_eq_true]
  refine ⟨p, hp, ?_⟩
  split at found
  next at? =>
    simp only [Bool.and_eq_true, decide_eq_true_eq] at at?
    split at found
    · simp only [Option.some.injEq, Prod.mk.injEq] at found
      simp [found.1, at?.2]
    · exact absurd found (by simp)
  next => exact absurd found (by simp)

theorem sysAnswer_returns (s : State) (uid idx part core x since n : Nat) (args : List W64) (v : W64) (g : Group)
    (ticket : Nat) (d : Fld)
    (hf : s.interrupts.find? (Interrupt.isSys uid idx) = some (.sysCall part core uid x since n args))
    (hg : s.group? uid = some g) (hs : g.sysAt idx since = some (ticket, d)) (hh : g.halt = .no) :
    exec (.sysAnswer uid idx v) s = .next { s with
      interrupts := s.interrupts.eraseP (Interrupt.isSys uid idx)
      returns := s.returns ++ [⟨uid, g.gen, ticket, g.part, g.core, (Result.scalar d v).norm⟩] } := by
  have there : ({ s with interrupts := s.interrupts.eraseP (Interrupt.isSys uid idx) } : State).group? uid = some g := hg
  rw [Laws.exec_sysAnswer, execSysAnswer, State.sysAnswer, hf]
  simp only [there, hs, State.ret, hh, ne_eq, not_true_eq_false, decide_false, Bool.false_and, Bool.false_eq_true, if_false,
    Group.waitsIn_of_sysAt hs, if_true]

theorem eventWindowRestart_clears (s : State) (core : Nat) (p : Partition)
    (hp : s.parts.find? (fun p => p.holdsCore core) = some p) :
    exec (.eventWindowRestart core) s = .next (if p.evwin = 0 then s else
      s.setCore { s.core core with window := List.replicate 8 0, crossed := List.replicate 8 false }) := by
  rw [Laws.exec_eventWindowRestart, execEventWindowRestart, State.windowRestart, hp]

theorem barrierStall_traps (s : State) (team id : Nat) (t : Team) (p : Partition) (gs : List Group)
    (ht : s.team? team = some t) (hp : s.part? t.part = some p) (limit : p.stalllim ≠ 0)
    (hgs : gs = (s.groups.filter fun h => h.team == team && h.stat == .atBar id)) (some? : gs ≠ [])
    (runs : ∀ g ∈ gs, g.halt = .no ∧ g.spilled = none) :
    let f := fun (g : Group) => (⟨g.runIdx - 1, .barrierStall, 0, 0, 0, true⟩ : Failure)
    exec (.barrierStall team id) s = .next (gs.foldl (fun w g => w.takeTrap { g with pends := [], fails := [] } [f g]
      g.runPc g.pc [⟨g.runIdx + 32 * g.tag - 1, .bar id, instrWords (.bar true (BitVec.ofNat 4 id)),
        .done { Result.empty with fail := some (f g) }, w.tick, 0, []⟩]) (s.setTeam { t with bars := t.bars.set id ⟨0, 0⟩ })) := by
  subst hgs
  have none? : ((s.groups.filter fun h => h.team == team && h.stat == .atBar id).any fun g =>
      g.halt != .no || g.spilled.isSome) = false := by
    rw [List.any_eq_false]
    intro g hg
    obtain ⟨no, here⟩ := runs g hg
    simp [no, here]
  rw [Laws.exec_barrierStall, execBarrierStall, State.barrierStall, ht]
  simp only [hp, limit, none?, List.isEmpty_eq_false_iff.mpr some?, ne_eq, not_false_eq_true, decide_true, Bool.not_true,
    Bool.or_self, Bool.false_eq_true, if_false]
  rfl

/-! ## Starvation for triples -/

/-- What `List.findSome?` finds, where every element at which the function is defined gives the same. -/
theorem findSome?_of_forall {α β : Type} {f : α → Option β} {l : List α} {b : β} (hit : ∃ a ∈ l, f a = some b)
    (only : ∀ a ∈ l, ∀ c, f a = some c → c = b) : l.findSome? f = some b := by
  obtain ⟨a, ha, hfa⟩ := hit
  have some? : (l.findSome? f).isSome = true := List.findSome?_isSome_iff.mpr ⟨a, ha, by rw [hfa]; rfl⟩
  obtain ⟨c, hc⟩ := Option.isSome_iff_exists.mp some?
  obtain ⟨d, hd, hfd⟩ := List.exists_of_findSome?_eq_some hc
  rw [hc, only d hd c hfd]

/-- The part of an exchange that an instruction waits as, with its exchange and its conversation. -/
def waitingPart (uid idx : Nat) (c : Conv) : Option (Conv × Exchange × Part) :=
  c.exchanges.findSome? fun x =>
    (x.parts.find? fun p => p.uid == uid && p.idx == idx && !p.withdrawn && p.popped.isNone).map fun p => (c, x, p)

theorem of_waitingPart {uid idx : Nat} {d c : Conv} {x : Exchange} {p : Part} (h : waitingPart uid idx d = some (c, x, p)) :
    d = c ∧ x ∈ c.exchanges ∧ p ∈ x.parts ∧ p.uid = uid ∧ p.idx = idx := by
  obtain ⟨y, hy, hf⟩ := List.exists_of_findSome?_eq_some h
  obtain ⟨q, hq, heq⟩ := Option.map_eq_some_iff.mp hf
  obtain ⟨rfl, rfl, rfl⟩ : d = c ∧ y = x ∧ q = p := by simpa using heq
  have found := List.find?_some hq
  simp only [Bool.and_eq_true, beq_iff_eq] at found
  exact ⟨rfl, hy, List.mem_of_find?_eq_some hq, found.1.1.1, found.1.1.2⟩

/-- An instruction that is one part only, which waits, is found as that part. -/
theorem findSome?_waitingPart {s : State} {uid idx : Nat} {c : Conv} {x : Exchange} {pt : Part} (hc : c ∈ s.pkg.convs)
    (hx : x ∈ c.exchanges) (hp : pt ∈ x.parts)
    (only : ∀ d ∈ s.pkg.convs, ∀ y ∈ d.exchanges, ∀ q ∈ y.parts, q.uid = uid → q.idx = idx → d = c ∧ y = x ∧ q = pt)
    (uid? : pt.uid = uid) (idx? : pt.idx = idx) (there : pt.withdrawn = false) (waits : pt.popped = none) :
    s.pkg.convs.findSome? (waitingPart uid idx) = some (c, x, pt) := by
  have unique (d : Conv) (hd : d ∈ s.pkg.convs) (r : Conv × Exchange × Part) (hr : waitingPart uid idx d = some r) :
      r = (c, x, pt) := by
    obtain ⟨d', y, q⟩ := r
    obtain ⟨rfl, hy, hq, hu, hi⟩ := of_waitingPart hr
    obtain ⟨rfl, rfl, rfl⟩ := only d hd y hy q hq hu hi
    rfl
  refine findSome?_of_forall ⟨c, hc, ?_⟩ unique
  have some? : (waitingPart uid idx c).isSome = true := by
    rw [waitingPart, List.findSome?_isSome_iff]
    refine ⟨x, hx, ?_⟩
    rw [Option.isSome_map, List.find?_isSome]
    exact ⟨pt, hp, by simp [uid?, idx?, there, waits]⟩
  obtain ⟨r, hr⟩ := Option.isSome_iff_exists.mp some?
  rw [hr, unique c hc r hr]

/-- Starvation withdraws and fails the part that waits, while the queue is short and the group is not halted (R229, R260). -/
theorem State.starve_eq {s : State} {uid idx : Nat} {g : Group} {p : Partition} {c : Conv} {x : Exchange} {pt : Part}
    (hg : s.group? uid = some g) (hp : s.part? g.part = some p) (limit : p.stalllim ≠ 0)
    (found : s.pkg.convs.findSome? (waitingPart uid idx) = some (c, x, pt)) :
    let (q, n) := pt.op.need pt.k pt.items.length
    s.starve uid idx = if ((c.party pt.party).queue q).length < n ∧ g.halt = .no then
      ((s.setConv (c.setExchange (x.setPart { pt with withdrawn := true }))).gateFail uid idx .tripleStarvation
        (gateDetail c.num c.state pt.party x.kind 0) (gateMask pt.op pt.items) 0).settle c.num
      else s := by
  have found' : (s.pkg.convs.findSome? fun c => c.exchanges.findSome? fun x =>
    (x.parts.find? fun p => p.uid == uid && p.idx == idx && !p.withdrawn && p.popped.isNone).map fun p => (c, x, p)) =
      some (c, x, pt) := found
  simp only [State.starve, hg, hp, found']
  by_cases short : ((c.party pt.party).queue (pt.op.need pt.k pt.items.length).1).length < (pt.op.need pt.k pt.items.length).2
  · by_cases no : g.halt = .no
    · simp only [short, no, decide_true, ne_eq, limit, not_false_eq_true, not_true_eq_false, decide_false, Bool.not_true,
        Bool.or_self, Bool.false_eq_true, if_false, and_self, if_true]
    · simp [short, no]
  · simp [short]

/-- Settles O41: each event by the model's own step. -/
theorem runEvents : Obligations.RunEvents := by
  refine ⟨laneChoice_runs, fun s n r g hr hg => ⟨asyncReturn_arrives s n r g hr hg, asyncReturn_drops s n r g hr hg⟩,
    sysAnswer_returns, eventWindowRestart_clears, barrierStall_traps, ?_⟩
  intro s uid idx g p c x pt hg hp limit hc hx hpt only uid? idx? there waits
  have found := findSome?_waitingPart hc hx hpt only uid? idx? there waits
  have step : exec (.tripleStarvation uid idx) s = .next (s.starve uid idx) := Laws.exec_tripleStarvation ..
  rw [step, State.starve_eq hg hp limit found]
  refine ⟨fun short no => ?_, fun h => ?_⟩
  · rw [if_pos ⟨short, no⟩]
  · rw [if_neg fun both => h.elim (· both.1) (· both.2)]

end Sys2Proof.Machine
end

section
/-!
A yielded run whose failure is delivered while its group is ready: the group stands in line since the moment it was ready before
(R258).
-/

namespace Sys2Proof.Machine

open Sys2Proof Sys2Proof.Claims

/-! ## A machine in which a yielded run fails -/

/-- The failure that a run left behind: an event over its threshold, which is not a cause of the control core. -/
def thresholdFailure : Failure := ⟨0, .eventThreshold, 0, 0, 0, false⟩

/-- A group that is ready since step 0, with a yielded run that has returned whole and has failed. -/
def yieldedGroup : Group :=
  { Group.fresh 0 (Team.fresh 0 0 0 0 0 0 false 0 0 1) 0 0 0 .w16 8 0 64 [] 1 0 1 0 0 with
    yielded := some ⟨[], [thresholdFailure], 0⟩ }

/-- The machine one step later. -/
def yieldedMachine : State := { State.reset with groups := [yieldedGroup], tick := 1 }

/-- The step since which a group is ready after a step of the machine. -/
def readyTimeAfter (o : Host.Outcome State Fault Refusal) (uid : Nat) : Option Nat :=
  match o with
  | .next t => (t.group? uid).map (·.readyTime)
  | _ => none

/-- The model: the group that takes the trap is ready since step 0, as it was before. -/
theorem readyTimeAfter_yieldedRunCommit :
    readyTimeAfter (exec (.yieldedRunCommit 0) yieldedMachine) 0 = some 0 := by
  rw [Laws.exec_yieldedRunCommit]
  decide

/-- Taking a trap by itself makes a group ready anew: since step 1. -/
theorem readyTimeAfter_takeTrap : readyTimeAfter (.next (settled (yieldedMachine.takeTrap
    { yieldedGroup with yielded := none, pends := [], fails := [] } [thresholdFailure] 0 0 []) yieldedGroup).sleepIfDue) 0 =
      some 1 := by
  decide

/-- Refutes O42: a failure of a yielded run that is delivered between two runs, to a group that is ready since step 0, at step 1.
The statement's group, which takes the trap at its trap vector, is ready since step 1; the model's keeps its place in line, and
is ready since step 0 (R258). -/
theorem not_runsEndAtBoundaries : ¬ Obligations.RunsEndAtBoundaries := by
  rintro ⟨-, yields, -⟩
  have alone : yieldedMachine.launchOf yieldedGroup.part yieldedGroup.lid = none := rfl
  obtain ⟨-, delivered, -⟩ := yields yieldedMachine 0 yieldedGroup ⟨[], [thresholdFailure], 0⟩ rfl rfl
    (fun p hp => absurd hp (List.not_mem_nil)) rfl rfl fun l hl => nomatch alone.symm.trans hl
  have step : exec (.yieldedRunCommit 0) yieldedMachine = .next (settled (yieldedMachine.takeTrap
      { yieldedGroup with yielded := none, pends := [], fails := [] } [thresholdFailure] 0 0 []) yieldedGroup).sleepIfDue :=
    delivered (by decide) rfl
  have same := readyTimeAfter_yieldedRunCommit
  rw [step, readyTimeAfter_takeTrap] at same
  exact absurd same (by decide)

end Sys2Proof.Machine
end

section
/-!
A channel's registers while the device wakes: its partition does not exist yet, and a write does not reach them (R308).
-/

namespace Sys2Proof.Machine

open Sys2Proof Sys2Proof.Claims

/-! ## A machine that wakes -/

/-- The machine with power in stage 0 of a wake, the function of partition 0 enabled since before its sleep. -/
def wakingMachine : State := { State.reset with
  pkg := { Package.reset with powered := true, sleepSt := .waking, vfEnabled := Package.reset.vfEnabled.set 1 true } }

/-- The function of partition 0 is enabled, and has power. -/
theorem functionsOn_wakingMachine : functionsOn wakingMachine.pkg 1 := ⟨rfl, .inr rfl⟩

/-- The size of the ring of channel 1 after a step. -/
def channelLogAfter (o : Host.Outcome State Fault Refusal) : Option Nat :=
  match o with
  | .next t => t.pkg.channels[1]?.map (·.log)
  | _ => none

/-- The model: the write is discarded, and the register keeps its reset value. -/
theorem channelLogAfter_registerWrite :
    channelLogAfter (exec (.registerWrite (.channel 1) 0x10 5) wakingMachine) = some 0 := by
  rw [Laws.exec_registerWrite]
  decide

/-- Refutes O52: a write to a register of channel 1 in stage 0 of a wake, with the function of partition 0 enabled before the
sleep. The statement asks of a function that it has power and is enabled, and so stores 5; the model lets no function but PF0 take
accesses before the wake has made the partitions again (R308), and stores nothing. -/
theorem not_errorAndRegisterEvents : ¬ Obligations.ErrorAndRegisterEvents := by
  rintro ⟨-, registers⟩
  obtain ⟨-, -, -, -, -, -, powered⟩ := registers wakingMachine 5
  obtain ⟨-, -, -, -, -, channels⟩ := powered rfl
  obtain ⟨stored, -⟩ := channels 1 Channel.reset functionsOn_wakingMachine rfl
  have five : channelLogAfter (exec (.registerWrite (.channel 1) 0x10 5) wakingMachine) = some 5 := by
    rw [stored]
    decide
  rw [channelLogAfter_registerWrite] at five
  exact absurd five (by decide)

end Sys2Proof.Machine
end

section
/-!
Translation of a global address, the levels of a walk, and the checks of an access.
-/

namespace Sys2Proof.Machine

open Sys2Proof Sys2Proof.Claims

/-! ## Fields of addresses and entries -/

theorem bits_eq (x hi lo : Nat) : bits x hi lo = x / 2 ^ lo % 2 ^ (hi + 1 - lo) := by
  rw [bits, Nat.shiftRight_eq_div_pow]

/-- The top bits of a number of 64 bits. -/
theorem bits_top {x : Nat} (h : x < 2 ^ 64) {lo : Nat} (hlo : lo ≤ 64) : bits x 63 lo = x / 2 ^ lo := by
  rw [bits_eq, Nat.mod_eq_of_lt]
  rw [Nat.div_lt_iff_lt_mul (by positivity), ← pow_add, Nat.sub_add_cancel hlo]
  exact h

/-- Bits 63:48 of a virtual address are 0 exactly below 2^48 (R36). -/
theorem bits_63_48_eq_zero_iff (va : W64) : bits va.toNat 63 48 = 0 ↔ va.toNat < 2 ^ 48 := by
  rw [bits_top va.isLt (by decide), Nat.div_eq_zero_iff]
  simp

/-- The permission bits 3:1 of a leaf, in their place (R290, Table 5). -/
theorem bits_permission (e : Nat) : bits e 3 1 * 2 = e &&& 14 := by
  have low : e &&& 14 = e % 16 &&& 14 := by
    rw [show (14 : Nat) = 15 &&& 14 by rfl, ← Nat.and_assoc, show (15 : Nat) = 2 ^ 4 - 1 by rfl,
      Nat.and_two_pow_sub_one_eq_mod]
    rfl
  have small : ∀ n < 16, n / 2 % 8 * 2 = n &&& 14 := by decide
  have field : bits e 3 1 = e % 16 / 2 % 8 := by
    rw [bits_eq]
    omega
  rw [field, small _ (Nat.mod_lt _ (by decide)), low]

/-- The address of a leaf or of a table entry (R290, Table 5). -/
theorem pteAddr_eq (e : Nat) : pteAddr e = e / 2 ^ 8 % 2 ^ 42 * 256 := by rw [pteAddr, bits_eq]

theorem kindOf_eq (e : W64) : kindOf e = e.toNat / 16 % 4 := by
  rw [kindOf, bits_eq]
  rfl

/-! ## Translation -/

section Translate

variable {s : State} {p : Partition} {c : Ctx} {root : Nat} {va : W64} {need : Perm}

/-- An address with one of bits 63:48 set is not translated (R36). -/
theorem State.translate_of_high (part ctx : Nat) (h : 2 ^ 48 ≤ va.toNat) :
    s.translate part ctx va need = .fail .translation 0 :=
  if_pos fun h0 => absurd ((bits_63_48_eq_zero_iff va).mp h0) (by omega)

/-- What a translation makes of the leaf that a walk ends at (R36, R291, R321). -/
def State.useLeaf (s : State) (p : Partition) (va : W64) (need : Perm) (e : W64) (big : Bool) : Xlat :=
  let size := if big then 0x200000 else 0x10000
  let pa := pteAddr e.toNat / size * size + va.toNat % size
  if bits e.toNat 3 1 * 2 &&& need.need ≠ need.need then .fail .protection 0
  else if p.bound ≤ pa then .fail .translation ((if big then 3 else 4) * 256)
  else if slotOf e ≠ 0 && !s.pkg.tensors.any fun t => t.slot == slotOf e && t.part == p.num then .fail .protection 8
  else .ok (p.base + pa) e

/-- Below 2^48 a translation goes by its walk (R290). -/
theorem State.translate_of_low (hp : s.part? p.num = some p) (hc : p.contexts.find? (fun x => x.id == c.id) = some c)
    (hr : c.root = some root) (h : va.toNat < 2 ^ 48) :
    s.translate p.num c.id va need = match s.walkFrom p c.id va.toNat walkLevels root with
      | .fault lev => .fail .translation (lev * 256)
      | .poison l => .poison l
      | .leaf e big => s.useLeaf p va need e big := by
  rw [State.translate, if_neg (not_not.mpr ((bits_63_48_eq_zero_iff va).mpr h))]
  simp only [hp, hc, State.leafFor, hr]
  rfl

/-- A slot is open to the partition of a tensor entry (R321). -/
theorem State.slotOpen_iff (s : State) (slot part : Nat) :
    (s.pkg.tensors.any fun t => t.slot == slot && t.part == part) = true ↔
      ∃ x ∈ s.pkg.tensors, x.slot = slot ∧ x.part = part := by
  simp

theorem State.useLeaf_eq (e : W64) (big : Bool) :
    let size := if big then 2 ^ 21 else 2 ^ 16
    let pa := e.toNat / 2 ^ 8 % 2 ^ 42 * 256 / size * size + va.toNat % size
    s.useLeaf p va need e big =
      if (e.toNat &&& 14) &&& need.need ≠ need.need then .fail .protection 0
      else if p.bound ≤ pa then .fail .translation ((if big then 3 else 4) * 256)
      else if e.toNat / 2 ^ 50 ≠ 0 ∧ ¬∃ x ∈ s.pkg.tensors, x.slot = e.toNat / 2 ^ 50 ∧ x.part = p.num then .fail .protection 8
      else .ok (p.base + pa) e := by
  simp only [State.useLeaf, bits_permission, pteAddr_eq, slotOf_eq, Bool.and_eq_true, decide_eq_true_eq, Bool.not_eq_true',
    ← Bool.not_eq_true, State.slotOpen_iff]
  rfl

theorem translationOfAnAddress : TranslationOfAnAddress := by
  intro s p c root va need hp hc hr go perms
  have perms_eq : need.need = perms := by cases need <;> rfl
  refine ⟨fun h => State.translate_of_high _ _ h, fun h => ?_⟩
  have walk : go = _ := State.translate_of_low (need := need) hp hc hr h
  refine ⟨fun lev hw => by rw [walk, hw], fun e big hw => ?_⟩
  intro size pa slot
  rw [hw] at walk
  dsimp only at walk
  rw [State.useLeaf_eq, perms_eq] at walk
  have allowed (granted : (e.toNat &&& 14) &&& perms = perms) : ¬(e.toNat &&& 14) &&& perms ≠ perms := not_not.mpr granted
  refine ⟨fun denied => walk.trans (if_pos denied),
    fun granted high => walk.trans ((if_neg (allowed granted)).trans (if_pos high)), fun granted low => ?_⟩
  have below := walk.trans ((if_neg (allowed granted)).trans (if_neg (Nat.not_le.mpr low)))
  refine ⟨fun free => below.trans (if_neg ?_), fun used shut => below.trans (if_pos ⟨used, shut⟩)⟩
  rintro ⟨used, shut⟩
  exact free.elim used shut

end Translate

/-! ## One level of a walk -/

section Level

variable {s : State} {p : Partition} {ctx va table lev hi lo : Nat} {rest : List (Nat × Nat × Nat)}

/-- The entry that a level uses is what memory holds, or a copy of it that is kept (R292). -/
theorem State.entryAt_cases (s : State) (part ctx lev vpage dev : Nat) :
    s.entryAt part ctx lev vpage dev = leNat (s.hbm.readN dev 8) ∨
      ∃ k, s.tlbHit part ctx lev vpage dev = some k ∧ s.entryAt part ctx lev vpage dev = k.entry.toNat := by
  unfold State.entryAt
  split
  next k hk =>
    split
    · exact .inr ⟨k, hk, rfl⟩
    · exact .inl rfl
  next => exact .inl rfl

theorem State.entryAt_lt (s : State) (part ctx lev vpage dev : Nat) : s.entryAt part ctx lev vpage dev < 2 ^ 64 := by
  obtain h | ⟨k, -, h⟩ := s.entryAt_cases part ctx lev vpage dev
  · rw [h]
    simpa using leNat_lt (s.hbm.readN dev 8)
  · rw [h]
    exact k.entry.isLt

/-- What a level of a walk makes of its entry (R290, R291, Table 5): a fault, a leaf, or the next table. -/
def State.useEntry (s : State) (p : Partition) (ctx va lev : Nat) (rest : List (Nat × Nat × Nat)) (e : Nat) : Walk :=
  if e.testBit 0 = false ∨ e.testBit 7 = true then .fault lev
  else if e.testBit 6 = true ∧ lev < 3 ∨ e.testBit 6 = false ∧ lev = 4 then .fault lev
  else if e.testBit 6 = true then
    if pteAddr e % (if lev = 3 then 2 ^ 21 else 2 ^ 16) ≠ 0 ∨ bits e 5 4 = 3 ∨ p.bound ≤ pteAddr e then .fault lev
    else .leaf (BitVec.ofNat 64 e) (lev == 3)
  else if bits e 63 50 ≠ 0 ∨ bits e 5 1 ≠ 0 then .fault lev
  else if lev < 3 ∧ pteAddr e % 4096 ≠ 0 then .fault lev
  else s.walkFrom p ctx va rest (pteAddr e)

/-- A level of a walk: its table lies below BOUND, the line of its entry can be read, and the entry is used. -/
theorem State.walkFrom_cons :
    s.walkFrom p ctx va ((lev, hi, lo) :: rest) table =
      let a := p.base + table + 8 * bits va hi lo
      if p.bound ≤ table then .fault lev
      else if s.lineReads (lineOf a) 0 = false then .poison (lineOf a)
      else s.useEntry p ctx va lev rest (s.entryAt p.num ctx lev (bits va 47 lo) a) := by
  simp only [State.walkFrom, State.useEntry, bitAt, Bool.not_eq_true', Bool.or_eq_true, Bool.and_eq_true, decide_eq_true_eq,
    beq_iff_eq, or_assoc]
  rfl

theorem oneLevelOfAWalk : OneLevelOfAWalk := by
  intro s p ctx va table lev hi lo rest hlev go bound at_
  have walk : go = _ := State.walkFrom_cons
  have at_eq : p.base + table + 8 * bits va hi lo = at_ := by rw [bits_eq]
  have vpage : bits va 47 lo = va / 2 ^ lo % 2 ^ (48 - lo) := bits_eq ..
  dsimp only at walk
  rw [at_eq, vpage] at walk
  refine ⟨s.entryAt p.num ctx lev (va / 2 ^ lo % 2 ^ (48 - lo)) at_, s.entryAt_cases .., ?_⟩
  have lt := s.entryAt_lt p.num ctx lev (va / 2 ^ lo % 2 ^ (48 - lo)) at_
  revert walk lt
  generalize s.entryAt p.num ctx lev (va / 2 ^ lo % 2 ^ (48 - lo)) at_ = e
  intro walk lt adr size
  refine ⟨fun high => walk.trans (if_pos high), fun low shut => walk.trans ((if_neg (Nat.not_le.mpr low)).trans (if_pos shut)),
    fun low reads => ?_⟩
  have used : go = s.useEntry p ctx va lev rest e :=
    walk.trans ((if_neg (Nat.not_le.mpr low)).trans (if_neg (Bool.not_eq_false _ ▸ reads)))
  simp only [State.useEntry, pteAddr_eq, bits_top lt (show 50 ≤ 64 by decide), bits_eq] at used
  clear walk
  refine ⟨fun bad => used.trans (if_pos bad), fun valid clear => ?_⟩
  have entry := used.trans (if_neg (by simp [valid, clear]))
  have next (table : e.testBit 6 = false) (level : lev < 4) :=
    entry.trans ((if_neg (by simp [table]; omega)).trans (if_neg (by simp [table])))
  refine ⟨fun leaf upper => entry.trans (if_pos (.inl ⟨leaf, upper⟩)), fun table last => entry.trans (if_pos (.inr ⟨table, last⟩)),
    fun leaf level bad => ?_, fun leaf level aligned kind below => ?_, fun table level bad => ?_, fun table level high flags aligned => ?_⟩
  · exact entry.trans ((if_neg (by simp [leaf]; omega)).trans ((if_pos leaf).trans (if_pos bad)))
  · exact entry.trans ((if_neg (by simp [leaf]; omega)).trans ((if_pos leaf).trans (if_neg (by
      rintro (h | h | h)
      · exact h aligned
      · exact kind h
      · exact absurd below (Nat.not_lt.mpr h)))))
  · have goes := next table level
    by_cases reserved : e / 2 ^ 50 ≠ 0 ∨ e / 2 % 32 ≠ 0
    · exact goes.trans (if_pos reserved)
    · have upper : lev < 3 ∧ adr % 4096 ≠ 0 := by tauto
      exact goes.trans ((if_neg reserved).trans (if_pos upper))
  · have reserved : ¬(e / 2 ^ 50 ≠ 0 ∨ e / 2 % 32 ≠ 0) := by tauto
    have upper : ¬(lev < 3 ∧ adr % 4096 ≠ 0) := by tauto
    exact (next table level).trans ((if_neg reserved).trans (if_neg upper))

end Level

/-- Settles O28: an address by its walk and the leaf that this ends at, a level by the entry that it uses. -/
theorem translationByTheTables : Obligations.TranslationByTheTables := ⟨translationOfAnAddress, oneLevelOfAWalk⟩

/-! ## The checks of an access -/

theorem State.check_misaligned {s : State} {part ctx team size : Nat} {sp : Space} {a : W64} {need : Perm} {ordered : Bool}
    (h : a.toNat % size ≠ 0) : s.check part ctx team sp a size need ordered = .fail .alignment 0 := if_pos h

theorem State.check_aligned_global {s : State} {part ctx team size : Nat} {a : W64} {need : Perm} {ordered : Bool}
    (h : a.toNat % size = 0) : s.check part ctx team .global a size need ordered = match s.translate part ctx a need with
      | .fail c d => .fail c d
      | .poison l => .poison l
      | .ok dev e => if ordered && e.toNat / 16 % 4 == 2 then .fail .orderingKind 0
        else .ok (.hbm dev (e.toNat / 2 ^ 50) (part * 128 + ctx)) := by
  rw [State.check, if_neg (not_not.mpr h)]
  simp only [kindOf_eq, slotOf_eq]
  rfl

theorem accessChecks : AccessChecks := by
  intro s part ctx team size a need ordered chk
  refine ⟨fun h _ => State.check_misaligned h, fun h => ⟨fun c d ht => ?_, fun dev e ht => ⟨fun ord kind => ?_, fun free => ?_⟩,
    fun t ht => ⟨fun p hw => ?_, fun hw => ?_⟩, fun p hd => ?_, fun hd => ?_⟩⟩
  · exact (State.check_aligned_global h).trans (by rw [ht])
  · exact (State.check_aligned_global h).trans (by simp [ht, ord, kind])
  · have allowed : ¬(ordered && e.toNat / 16 % 4 == 2) = true := by
      obtain off | kind := free <;> simp [*]
    exact (State.check_aligned_global h).trans (by rw [ht]; exact if_neg allowed)
  · simp [chk, State.check, h, ht, hw]
  · simp [chk, State.check, h, ht, hw]
  · simp [chk, State.check, h, hd]
  · simp [chk, State.check, h, hd]

/-- A slice range lies in an allocation of a team that is not spilled (R34, R35). -/
theorem Team.holdsSlice_iff (t : Team) (core off size : Nat) : t.holdsSlice core off size = true ↔
    (core = t.core ∧ t.spilled = none ∨ t.pair = true ∧ core = t.core + 1 ∧ t.spilledOdd = none) ∧
      t.sliceOff ≤ off ∧ off + size ≤ t.sliceOff + t.sliceLen := by
  simp only [Team.holdsSlice, Bool.and_eq_true, Bool.or_eq_true, beq_iff_eq, decide_eq_true_eq, Option.isNone_iff_eq_none,
    and_assoc]

/-- A distributed address is one of a core of the partition, in an allocation of a team of the same world (R35). -/
theorem State.distributed_eq {s : State} {p : Partition} (ctx a size : Nat) (hp : s.part? p.num = some p) :
    let core := a / 2 ^ 21 % 2 ^ 8
    let off := a % 2 ^ 21
    s.distributed p.num ctx a size =
      if a < 2 ^ 29 ∧ p.clus.getLsbD (core / 8) = true ∧ ∃ u ∈ s.teams, u.part = p.num ∧ u.ctx = ctx ∧
        (core = u.core ∧ u.spilled = none ∨ u.pair = true ∧ core = u.core + 1 ∧ u.spilledOdd = none) ∧
        u.sliceOff ≤ off ∧ off + size ≤ u.sliceOff + u.sliceLen then some (core * 2097152 + off) else none := by
  intro core off
  have core_eq : bits a 28 21 = core := bits_eq ..
  have off_eq : bits a 20 0 = off := by rw [bits_eq]; simp [off]
  have small : core < 256 := Nat.mod_lt _ (by decide)
  simp only [State.distributed, core_eq, off_eq, hp, Partition.holdsCore, small, decide_true, Bool.true_and, bitAt,
    Bool.and_eq_true, decide_eq_true_eq, List.any_eq_true, beq_iff_eq, Team.holdsSlice_iff, and_assoc]
  rw [Nat.mul_comm core]
  rfl

/-- Where a window offset lies (R34): on the team's core, on the second core of a pair, or nowhere. -/
theorem sliceWindowAndDistributedSpace : SliceWindowAndDistributedSpace := by
  intro t o n hn hlen
  have window : t.window o n = if o + n ≤ t.sliceLen then some (t.core * 2097152 + t.sliceOff + o)
      else if t.pair = true ∧ t.sliceLen ≤ o ∧ o + n ≤ 2 * t.sliceLen then
        some ((t.core + 1) * 2097152 + t.sliceOff + (o - t.sliceLen))
      else none := by
    simp only [Team.window, sliceSize, Bool.and_eq_true, decide_eq_true_eq, and_assoc, Nat.mul_comm]
  refine ⟨fun h => ?_, fun pair low high => ?_, fun single h => ?_, fun _ low high => ?_, fun h => ?_, fun s p ctx a hp => ?_⟩
  · rw [window, if_pos h]
  · rw [window, if_neg (by omega), if_pos ⟨pair, low, high⟩]
  · rw [window, if_neg (by omega), if_neg (by simp [single])]
  · rw [window, if_neg (by omega), if_neg (by omega)]
  · rw [window, if_neg (by omega), if_neg (by omega)]
  · intro core off own
    have space : s.distributed p.num ctx a n = if own then some (core * 2097152 + off) else none := State.distributed_eq ctx a n hp
    exact ⟨fun h => space.trans (if_pos h), fun h => space.trans (if_neg h)⟩

/-- Settles O29: alignment, then the checks of the space; and the two spaces of the slices. -/
theorem checksInOrder : Obligations.ChecksInOrder := ⟨accessChecks, sliceWindowAndDistributedSpace⟩

end Sys2Proof.Machine
end

section
/-!
Fences: which of a group's stay, and what those hold back.
-/

namespace Sys2Proof.Machine

open Sys2Proof Sys2Proof.Claims

variable {s : State} {g : Group} {i : Instr} {op : DOp} {f : FenceOp}

/-- A fence of a group is open while its earlier set is not complete (R54). -/
theorem State.mem_openFences : f ∈ s.openFences g ↔ f ∈ g.fences ∧ s.outstanding g f = true := by
  rw [State.openFences, List.mem_filter]

/-- An instruction is held back exactly by an open fence that has its operation in its later set (R54). -/
theorem State.fenced_iff (hc : s.captured g i = some op) : s.fenced g i = true ↔
    ∃ f, (f ∈ g.fences ∧ s.outstanding g f = true) ∧ s.laterOf g op f = true := by
  simp only [State.fenced, hc, List.any_eq_true, State.mem_openFences]

/-- Every fence orders an operation that reaches more than global space (R45, R55). -/
theorem State.orders_of_not_globalOnly (part ctx : Nat) (h : op.globalOnly = none) : s.orders f part ctx op = true := by
  simp [State.orders, State.unordered, h]

theorem onPath_self_or_all {p q : Nat} (h : p = q ∨ p = 7) : onPath p q = true := by
  obtain rfl | rfl := h <;> simp [onPath]

/-- An operation on path T alone is no copy. -/
theorem DOp.copyRanges_of_path_T (h : op.paths = [0]) : op.copyRanges = [] := by
  cases op with
  | engine o fpm xpc => cases o <;> simp [DOp.paths, EngOp.paths] at h <;> split at h <;> simp at h
  | _ => rfl

/-- A slice or distributed access, on path T, is of the later set of a fence with that second path (R54, R55). -/
theorem State.laterOf_path_T (hg : op.globalOnly = none) (hp : op.paths = [0]) (h2 : f.second = 0 ∨ f.second = 7) :
    s.laterOf g op f = true := by
  simp [State.laterOf, State.orders_of_not_globalOnly _ _ hg, hp, onPath_self_or_all h2, State.piecewise,
    DOp.copyRanges_of_path_T hp]

/-- A remote instruction one of whose ranks is at a device within the scope is of the later set of a fence with second path F
(R54, R159). -/
theorem State.laterOf_path_F {o : PktOp} {items : List RemoteItem} {dst n : Nat} {ret : Bool}
    (h2 : f.second = 3 ∨ f.second = 7) {x : RemoteItem} (hx : x ∈ items) {t : RankEntry}
    (ht : s.rankOf g.part g.ctx g.lid x.2.1.toNat = some t) (scope : f.scope = 6 ∨ t.dev = Config.ownDevice) :
    s.laterOf g (.remote o items dst n ret) f = true := by
  have reached : (s.farDevices g (.remote o items dst n ret)).any f.reaches = true := by
    refine List.any_eq_true.mpr ⟨t.dev, List.mem_filterMap.mpr ⟨x, hx, by rw [ht]; rfl⟩, ?_⟩
    simpa [FenceOp.reaches] using scope
  have orders : s.orders f g.part g.ctx (.remote o items dst n ret) = true := State.orders_of_not_globalOnly _ _ rfl
  simp [State.laterOf, orders, DOp.paths, onPath_self_or_all h2, reached]

/-- A group whose next instruction a fence holds back does not issue. -/
theorem State.issues_of_fenced (hf : s.fetch g = .instr i) (some : g.fences ≠ []) (held : s.fenced g i = true) :
    s.issues g = false := by
  simp [State.issues, State.ready, State.holds, hf, some, held]

/-- The fences that are kept: those of the group, the new one among them, that still wait for something (R54). -/
theorem fence_keeps (s : State) (g : Group) (e : Bool) (q p sc : BitVec 3) (hi : Issues (.fence e q p sc) s g) :
    let new : FenceOp := ⟨sc.toNat, p.toNat, q.toNat, s.tick⟩
    let l := s.openFences { g with fences := g.fences ++ [new] }
    exec (.fence e q p sc) s = .next (after s { g with fences := l } 1 (g.pc + lengthOf (.fence e q p sc))
      (endsRun (.fence e q p sc) { g with fences := l })) :=
  gives_of_issue (Laws.exec_fence ..) rfl hi

/-- Settles O31: the fences that stay open, and the later sets of the two paths. -/
theorem fencesComplete : Obligations.FencesComplete := by
  refine ⟨fun s g e q p sc hi => ⟨_, fence_keeps s g e q p sc hi, fun f => ?_⟩, fun s g i op f hf ho hc => ⟨fun hg hp h2 => ?_,
    fun o items dst n ret he h2 hx => ?_, fun held => ?_⟩, fun s g i => State.issues_of_fenced⟩
  · rw [State.mem_openFences, List.mem_append, List.mem_singleton]
  · exact (State.fenced_iff hc).mpr ⟨f, ⟨hf, ho⟩, State.laterOf_path_T hg hp h2⟩
  · obtain ⟨x, hm, t, ht, scope⟩ := hx
    subst he
    exact (State.fenced_iff hc).mpr ⟨f, ⟨hf, ho⟩, State.laterOf_path_F h2 hm ht scope⟩
  · obtain ⟨k, ⟨hk, open_⟩, -⟩ := (State.fenced_iff hc).mp held
    exact ⟨k, hk, open_⟩

end Sys2Proof.Machine
end

section
/-!
The fabric by itself: packets that arrive, acknowledgements, resends, and ports.
-/

namespace Sys2Proof.Machine

open Sys2Proof Sys2Proof.Claims

/-! ## Packets that arrive -/

/-- A packet older than the window of its filter is refused, and changes nothing (R59). -/
theorem State.receive_of_old {s : State} {p : Packet} {f : Filter} {n : BitVec 32} (hf : s.filter? p.srcDev p.srcWorld = some f)
    (he : f.epoch = p.epoch) (hn : f.newest = some n) (low : 2 ^ 31 ≤ (p.seq - n).toNat)
    (high : (p.seq - n).toNat ≤ 2 ^ 32 - 4096) : (s.receive p).1 = s := by
  have old : (decide (2 ^ 31 ≤ (p.seq - n).toNat) && decide ((p.seq - n).toNat ≤ 2 ^ 32 - 4096)) = true := by
    rw [decide_eq_true low, decide_eq_true high]
    rfl
  simp only [State.receive, hf, he, beq_self_eq_true, if_true, hn, old]

section Arrives

variable {s : State} {p : Packet}

/-- A packet of another device enters by a port of the target partition that is up (R337). -/
theorem State.remoteArrive_of_other (ht : p.tgtDev = Config.ownDevice) (hs : p.srcDev ≠ Config.ownDevice) :
    s.remoteArrive p = if s.outPort p.tgtPart < 32 then (s.receive p).1 else s := by
  simp [State.remoteArrive, ht, hs, State.reachable]

/-- A packet of this device itself that is on its way is received, and its answers travel back (R59, R163). -/
theorem State.remoteArrive_of_own {r : FabReq} (ht : p.tgtDev = Config.ownDevice) (hs : p.srcDev = Config.ownDevice)
    (hr : s.fabric.reqs.find? (fun r => r.pkt.srcWorld == p.srcWorld && r.pkt.tgtDev == p.tgtDev && r.pkt.seq == p.seq &&
      s.fabric.outbox.contains r.id) = some r) :
    let w := { s with fabric := { s.fabric with outbox := s.fabric.outbox.filter fun i => i != r.id } }
    let u := (w.receive r.pkt).1
    s.remoteArrive p = { u with fabric := { u.fabric with replies := u.fabric.replies ++ [⟨r.id, (w.receive r.pkt).2⟩] } } := by
  simp only [State.remoteArrive, ht, hs, ne_eq, not_true_eq_false, if_false]
  rw [ht] at hr
  rw [hr]

end Arrives

/-! ## Acknowledgements -/

/-- The last answers of an instruction: its request is gone, and its result returns under the generation of the request (R164). -/
theorem State.takeAnswers_last {s : State} {r : FabReq} {as : List PktAnswer} {x : Sent} {g : Group} {p : Pend} {op : PktOp}
    {items : List RemoteItem} {dst n : Nat} {ret : Bool}
    (hx : s.fabric.sent.find? (fun y => y.uid == r.uid && y.since == r.since && y.idx == r.idx % 32) = some x)
    (last : ∀ q ∈ s.fabric.reqs, q.id ≠ r.id → ¬(q.uid = r.uid ∧ q.since = r.since ∧ q.idx % 32 = r.idx % 32))
    (hg : s.group? r.uid = some g) (hp : g.pendAt r.since r.idx = some p) (ho : p.op = .remote op items dst n ret) :
    let t := s.takeAnswers r as
    t.fabric.reqs = s.fabric.reqs.filter (fun q => q.id != r.id) ∧ t.groups = s.groups ∧
      t.returns = s.returns ++ [⟨r.uid, r.gen, r.idx, r.part, r.core,
        (remoteResult r.idx items dst n ret { x with answers := x.answers ++ as }).norm⟩] := by
  have none_left : (s.fabric.reqs.filter fun q => q.id != r.id).any
      (fun q => q.uid == r.uid && q.since == r.since && q.idx % 32 == r.idx % 32) = false := by
    rw [List.any_eq_false]
    intro q hq
    obtain ⟨mem, other⟩ := List.mem_filter.mp hq
    simpa [and_assoc] using last q mem (by simpa using other)
  have sent : s.fabric.sent.find? (fun y => y.of r.uid r.since r.idx) = some x := hx
  rw [State.group?] at hg
  simp only [State.takeAnswers, sent, none_left, Bool.false_eq_true, if_false, State.group?, hg, Option.bind_some, hp, ho]
  split <;> exact ⟨rfl, rfl, rfl⟩

/-- An acknowledgement that answers every thread completes its request, the last one of its instruction (R164). -/
theorem State.remoteAck_last {s : State} {r : FabReq} {as : List PktAnswer} {x : Sent} {g : Group} {p : Pend} {op : PktOp}
    {items : List RemoteItem} {dst n : Nat} {ret : Bool} (hr : s.fabric.reqs.find? (fun q => q.id == r.id) = some r)
    (hd : r.pkt.tgtDev ≠ Config.ownDevice) (hport : r.port < 32) (hc : r.copy = none)
    (has : as.map (·.t) = r.pkt.threads.map (·.t))
    (hx : s.fabric.sent.find? (fun y => y.uid == r.uid && y.since == r.since && y.idx == r.idx % 32) = some x)
    (last : ∀ q ∈ s.fabric.reqs, q.id ≠ r.id → ¬(q.uid = r.uid ∧ q.since = r.since ∧ q.idx % 32 = r.idx % 32))
    (hg : s.group? r.uid = some g) (hp : g.pendAt r.since r.idx = some p) (ho : p.op = .remote op items dst n ret) :
    let t := s.remoteAck r.id as
    (∀ q, q ∈ t.fabric.reqs ↔ q ∈ s.fabric.reqs ∧ q.id ≠ r.id) ∧ t.groups = s.groups ∧
      t.returns = s.returns ++ [⟨r.uid, r.gen, r.idx, r.part, r.core,
        (remoteResult r.idx items dst n ret { x with answers := x.answers ++ as }).norm⟩] := by
  have ack : s.remoteAck r.id as = (s.settleRemote r as).takeAnswers r as := by
    simp [State.remoteAck, hr, hd, hport, has, State.answer, hc]
  intro t
  obtain ⟨reqs, groups, returns⟩ := State.takeAnswers_last (s := s.settleRemote r as) (as := as) hx last hg hp ho
  rw [← ack] at reqs groups returns
  refine ⟨fun q => ?_, groups, returns⟩
  rw [reqs, List.mem_filter, bne_iff_ne]
  rfl

/-! ## Resends -/

@[simp] theorem State.updPort_fabric (s : State) (k : Nat) (f : Port → Port) : (s.updPort k f).fabric = s.fabric := by
  unfold State.updPort
  split <;> rfl

theorem State.updPort_port_same {s : State} {k : Nat} {q : Port} (f : Port → Port) (hq : s.pkg.ports[k]? = some q) :
    (s.updPort k f).pkg.ports[k]? = some (f q) := by
  obtain ⟨hk, rfl⟩ := List.getElem?_eq_some_iff.mp hq
  simp [State.updPort, hk]

theorem State.updPort_port_other {s : State} {j k : Nat} (f : Port → Port) (h : j ≠ k) :
    (s.updPort k f).pkg.ports[j]? = s.pkg.ports[j]? := by
  unfold State.updPort
  split
  · simp [List.getElem?_set_ne (Ne.symm h)]
  · rfl

section SendAgain

variable (s : State) (r : FabReq) (counted : Bool)

/-- The requests after one is sent again, under its number and through the port that it now leaves by (R60, R337). -/
theorem State.sendAgain_reqs : (s.sendAgain r counted).fabric.reqs = s.fabric.reqs.map fun q =>
    if q.id == r.id then
      { r with resends := if counted then r.resends + 1 else r.resends, port := s.portFor r.part r.pkt.tgtDev }
    else q := by
  rw [State.sendAgain, State.updPort_fabric]

/-- The port of a resend counts it. -/
theorem State.sendAgain_port_same {q : Port} (hq : s.pkg.ports[s.portFor r.part r.pkt.tgtDev]? = some q) :
    (s.sendAgain r counted).pkg.ports[s.portFor r.part r.pkt.tgtDev]? = some { q with resends := q.resends + 1 } :=
  State.updPort_port_same _ hq

theorem State.sendAgain_port_other {k : Nat} (hk : k ≠ s.portFor r.part r.pkt.tgtDev) :
    (s.sendAgain r counted).pkg.ports[k]? = s.pkg.ports[k]? :=
  State.updPort_port_other _ hk

end SendAgain

theorem State.remoteResend_again {s : State} {r : FabReq} (hr : s.fabric.reqs.find? (fun q => q.id == r.id) = some r)
    (h : r.resends < 7) : s.remoteResend r.id = s.sendAgain r true := by
  simp [State.remoteResend, hr, h]

theorem State.remoteResend_fails {s : State} {r : FabReq} (hr : s.fabric.reqs.find? (fun q => q.id == r.id) = some r)
    (h : 7 ≤ r.resends) : s.remoteResend r.id = (s.updPort r.port fun p => { p with timeouts := p.timeouts + 1 }).answer r
      (r.pkt.threads.map fun th => ⟨th.t, some (Cause.fabricTimeout.code, 0), []⟩) := by
  simp only [State.remoteResend, hr, if_neg (Nat.not_lt.mpr h)]
  rfl

/-! ## Ports -/

/-- An error record leaves the fabric and the ports as they were. -/
theorem State.errPush_frame (s : State) (r : Cper) : (s.errPush r).fabric = s.fabric ∧ (s.errPush r).pkg.ports = s.pkg.ports := by
  unfold State.errPush
  dsimp only
  split
  · exact ⟨rfl, rfl⟩
  · split <;> exact ⟨rfl, rfl⟩

/-- A port that is down is not one that packets leave by. -/
theorem State.portFor_ne_of_down {s : State} {k : Nat} {q : Port} (hk : k < 32) (hq : s.pkg.ports[k]? = some q)
    (down : q.up = false) (part dev : Nat) : s.portFor part dev ≠ k := by
  unfold State.portFor State.outPort
  split
  · omega
  · cases hf : (List.range 32).find? _ with
    | none => exact fun h : 32 = k => Nat.lt_irrefl k (h ▸ hk)
    | some j =>
      intro (at_j : j = k)
      have up := List.find?_some hf
      simp [at_j, hq, down] at up

/-- While a port is down, the requests that are sent again leave by other ports: of those that leave by this one, only requests
that are still to be sent again remain, and the port stays as it is. -/
theorem State.foldl_sendAgain_of_down {k : Nat} {q : Port} (hk : k < 32) (down : q.up = false) :
    ∀ (rs : List FabReq) (s : State), s.pkg.ports[k]? = some q →
      (∀ x ∈ s.fabric.reqs, x.port = k → ∃ r ∈ rs, r.id = x.id) →
      let t := rs.foldl (fun s r => s.sendAgain r false) s
      t.pkg.ports[k]? = some q ∧ ∀ x ∈ t.fabric.reqs, x.port ≠ k
  | [], s, hq, left => ⟨hq, fun x hx at_k => by simpa using left x hx at_k⟩
  | r :: rs, s, hq, left => by
    have away := State.portFor_ne_of_down hk hq down r.part r.pkt.tgtDev
    refine State.foldl_sendAgain_of_down hk down rs (s.sendAgain r false)
      ((s.sendAgain_port_other r false (Ne.symm away)).trans hq) fun x hx at_k => ?_
    rw [State.sendAgain_reqs, List.mem_map] at hx
    obtain ⟨y, hy, rfl⟩ := hx
    by_cases same : y.id = r.id
    · simp only [beq_iff_eq.mpr same, if_true] at at_k
      exact absurd at_k away
    · simp only [beq_eq_false_iff_ne.mpr same, Bool.false_eq_true, if_false] at at_k ⊢
      obtain ⟨z, hz, hid⟩ := left y hy at_k
      exact ⟨z, (List.mem_cons.mp hz).resolve_left (by rintro rfl; exact same hid.symm), hid⟩

section Ports

variable {s : State} {k lanes : Nat} {p : Port} (hp : s.pkg.ports[k]? = some p)
include hp

/-- A port changed, with an error record of it. -/
theorem State.updPort_errPush (f : Port → Port) (r : Cper) :
    ((s.updPort k f).errPush r).pkg.ports[k]? = some (f p) ∧ ((s.updPort k f).errPush r).fabric = s.fabric := by
  obtain ⟨fabric, ports⟩ := (s.updPort k f).errPush_frame r
  rw [fabric, ports, State.updPort_fabric]
  exact ⟨State.updPort_port_same f hp, rfl⟩

/-- A port that goes down hands its requests to other ports (R337). -/
theorem State.portDown_all (hk : k < 32) (up : p.up = true) (some_lane : 0 < p.lanes) :
    (s.portDown k 0).pkg.ports[k]? = some { p with up := false, lanes := 0, flaps := min (p.flaps + 1) 65535 } ∧
      ∀ r ∈ (s.portDown k 0).fabric.reqs, r.port ≠ k := by
  let down := (s.updPort k fun p => { p with up := false, lanes := 0, flaps := sat16 (p.flaps + 1) }).errPush (Cper.plain 3 0 k)
  have goes : s.portDown k 0 =
      (down.fabric.reqs.filter fun r => r.port == k).foldl (fun s r => s.sendAgain r false) down := by
    simp [State.portDown, hp, up, Nat.ne_of_gt some_lane, down]
  obtain ⟨port, -⟩ := State.updPort_errPush hp
    (fun p => { p with up := false, lanes := 0, flaps := sat16 (p.flaps + 1) }) (Cper.plain 3 0 k)
  rw [goes]
  exact State.foldl_sendAgain_of_down hk rfl _ down port fun x hx at_k =>
    ⟨x, List.mem_filter.mpr ⟨hx, beq_iff_eq.mpr at_k⟩, rfl⟩

/-- A port that loses some of its lanes keeps its requests (R337). -/
theorem State.portDown_some (up : p.up = true) (some_lane : 0 < lanes) (fewer : lanes < p.lanes) :
    (s.portDown k lanes).pkg.ports[k]? = some { p with lanes := lanes } ∧ (s.portDown k lanes).fabric = s.fabric := by
  have loses : s.portDown k lanes = (s.updPort k fun p => { p with lanes := lanes }).errPush (Cper.plain 3 3 k) := by
    simp [State.portDown, hp, up, Nat.not_le.mpr fewer, Nat.ne_of_gt some_lane]
  rw [loses]
  exact State.updPort_errPush hp _ _

/-- A port that comes up (R337). -/
theorem State.portUp_of_down (down : p.up = false) (some_lane : 0 < lanes) (four : lanes ≤ 4) :
    (s.portUp k lanes).pkg.ports[k]? = some { p with up := true, lanes := lanes, flaps := min (p.flaps + 1) 65535 } ∧
      (s.portUp k lanes).fabric = s.fabric := by
  have comes : s.portUp k lanes = (s.updPort k fun p =>
      { p with up := true, lanes := lanes, flaps := sat16 (p.flaps + 1) }).errPush (Cper.plain 3 3 k) := by
    simp [State.portUp, hp, down, Nat.not_lt.mpr four, Nat.ne_of_gt some_lane]
  rw [comes]
  exact State.updPort_errPush hp _ _

end Ports

/-! ## The obligation -/

/-- Settles O48: each event of the fabric by the rule of the operation that it performs. -/
theorem fabricEvents : Obligations.FabricEvents := by
  unfold Obligations.FabricEvents
  refine ⟨?_, ?_, ?_, ?_, ?_, ?_⟩
  · intro s p f n hf he hn low high ht hs
    have arrives := State.remoteArrive_of_other (s := s) ht hs
    rw [State.receive_of_old hf he hn low high, ite_self] at arrives
    rw [Steps, Laws.exec_remoteRequest, execRemoteRequest, arrives]
  · intro s p ht hs
    rw [Steps, Laws.exec_remoteRequest, execRemoteRequest, State.remoteArrive_of_other ht hs]
  · intro s p r ht hs hr
    rw [Steps, Laws.exec_remoteRequest, execRemoteRequest, State.remoteArrive_of_own ht hs hr]
  · intro s r as x g p op items dst n ret hr hd hport hc has hx last hg hp ho
    exact ⟨_, Laws.exec_remoteAck _ _ _, State.remoteAck_last hr hd hport hc has hx last hg hp ho⟩
  · intro s r hr
    refine ⟨fun few => ⟨_, Laws.exec_remoteResend _ _, ?_⟩, fun seven => ?_⟩
    · rw [State.remoteResend_again hr few]
      refine ⟨?_, fun q hq => s.sendAgain_port_same r true hq, fun k hk => s.sendAgain_port_other r true hk⟩
      simp only [State.sendAgain_reqs, beq_iff_eq, if_true]
      rfl
    · rw [Steps, Laws.exec_remoteResend, execRemoteResend, State.remoteResend_fails hr seven]
  · intro s k lanes p hk hp
    refine ⟨?_, fun up some_lane fewer => ⟨_, Laws.exec_portDown _ _ _, State.portDown_some hp up some_lane fewer⟩,
      fun down some_lane four => ⟨_, Laws.exec_portUp _ _ _, State.portUp_of_down hp down some_lane four⟩⟩
    rintro up rfl some_lane
    exact ⟨_, Laws.exec_portDown _ _ _, State.portDown_all hp hk up some_lane⟩

end Sys2Proof.Machine
end

section
/-!
Remote instructions at their source: what each captures, and when the fabric engine takes it.
-/

namespace Sys2Proof.Machine

open Sys2Proof Sys2Proof.Claims

variable {i : Instr} {s : State} {g : Group}

/-- Operations with the same effect on the state in which they issue are issued alike. -/
theorem HandsIn.congr_act {s0 : State} {op : DOp} {cost : Nat} {act act' : State → State} (h : HandsIn i s0 s g op cost act)
    (same : ∀ ps, act (s.setGroup { g with pends := ps }) = act' (s.setGroup { g with pends := ps })) :
    HandsIn i s0 s g op cost act' := by
  unfold HandsIn at h ⊢
  simpa only [same] using h

/-- The items of a remote instruction that sends no data are those of the active threads, in order. -/
theorem Group.remoteItems_none (g : Group) (a b : Fld) :
    g.remoteItems a b none = (actives g).map fun t => (t, (g.v b).get t, g.pair a t, 0) := by
  rw [actives_eq]
  rfl

/-- The items of a remote instruction that sends `n` registers are those of the active threads, in order. -/
theorem Group.remoteItems_some (g : Group) (a b f : Fld) {n : Nat} (hn : n = 1 ∨ n = 2 ∨ n = 4) :
    g.remoteItems a b (some (f, n)) = (actives g).map fun t => (t, (g.v b).get t, g.pair a t, stored g f n t) := by
  rw [Group.remoteItems, actives_eq]
  exact List.map_congr_left fun t _ => by rw [← ofNat_wide_stored g f t n hn]

section RemoteInstr

variable {a b : Fld} {data : Option (Fld × Nat)} {op : Group → State → PktOp} {dst : Group → Nat} {n : Nat} {ret : Bool}
  {items : List RemoteItem} (hx : exec i s = remoteInstr i s a b data op dst n ret)
include hx

/-- A remote instruction with an active thread goes to the fabric engine. -/
theorem hands_of_remoteInstr (hitems : g.remoteItems a b data = items)
    (hop : ∀ ps, op g (s.setGroup { g with pends := ps }) = op g s) (ha : ∃ t, Active g t) :
    Hands i s g (.remote (op g s) items (dst g) n ret) (Claims.cycles g false) fun w =>
      w.remoteIssue g.uid (g.runIdx + 32 * g.tag) s.tick (op g s) items (dst g) n ret := by
  intro hi
  have live : g.active ≠ 0 := fun h => g.active_eq_zero_iff.mp h ha
  rw [← hitems, ← Group.vcost_eq]
  refine HandsIn.congr_act (handsIn_of_deferred hx (if_neg live) hi) fun ps => ?_
  rw [hop]
  rfl

/-- A remote instruction with no active thread issues nothing. -/
theorem gives_of_remoteInstr (ha : ¬∃ t, Active g t) : Gives i s g g 1 := by
  refine gives_of_issue hx ?_
  rw [if_pos (g.active_eq_zero_iff.mpr ha), Group.vcost_eq, cycles_of_inactive false ha]

end RemoteInstr

/-- R162, R163, R165, R167: `xsend`, `xget`, `xred` and `xapp` at their source. -/
theorem remoteInstructionsIssue : RemoteInstructionsIssue := by
  intro s g e d a b x nf fsp sp ret size op n items goes few
  have regs : n = 1 ∨ n = 2 ∨ n = 4 := by
    have : ∀ k : Fin 3, 2 ^ k.val = 1 ∨ 2 ^ k.val = 2 ∨ 2 ^ k.val = 4 := by decide
    exact this ⟨size.toNat, by omega⟩
  exact ⟨⟨hands_of_remoteInstr (Laws.exec_xsend ..) (g.remoteItems_some a b d regs) fun _ => rfl,
      gives_of_remoteInstr (Laws.exec_xsend ..)⟩,
    ⟨hands_of_remoteInstr (Laws.exec_xget ..) (g.remoteItems_none a b) fun _ => rfl,
      gives_of_remoteInstr (Laws.exec_xget ..)⟩,
    ⟨hands_of_remoteInstr (Laws.exec_xred ..) (g.remoteItems_some a b x regs) fun _ => rfl,
      gives_of_remoteInstr (Laws.exec_xred ..)⟩,
    ⟨hands_of_remoteInstr (Laws.exec_xapp ..) (g.remoteItems_some a b x regs) fun _ => rfl,
      gives_of_remoteInstr (Laws.exec_xapp ..)⟩⟩

end Sys2Proof.Machine
end

section
/-!
Remote operations at their target: single threads, appends, and the flags of whole sends.
-/

namespace Sys2Proof.Machine

open Sys2Proof Sys2Proof.Claims

/-! ## Single threads -/

/-- How a thread whose check fails is answered (R168, Table 10). -/
theorem refusedBy_eq (c : Cause) : refusedBy c =
    if c = .translation ∨ c = .protection then .refused .remoteRefused 3
    else if c = .orderingKind then .refused .orderingKind 0 else .refused .remoteRefused 4 := by
  cases c <;> rfl

/-- A request of another device needs a context that the partition has and a grant for its world (R295). -/
theorem State.granted_iff {s : State} {p : Packet} {q : Partition} (hq : s.part? p.tgtPart = some q)
    (hs : p.srcDev ≠ Config.ownDevice) (open' : s.foreignStop = false) :
    s.granted p = true ↔ (∃ c ∈ q.contexts, c.id = p.tgtCtx) ∧ ∃ x ∈ q.grants, x.valid = true ∧ x.dev = p.srcDev ∧
      (if x.anyCtx = true then x.world / 128 = p.srcWorld / 128 else x.world = p.srcWorld) := by
  have own : (p.srcDev == Config.ownDevice) = false := beq_eq_false_iff_ne.mpr hs
  have grant (x : Grant) : (if x.anyCtx then x.world / 128 == p.srcWorld / 128 else x.world == p.srcWorld) = true ↔
      (if x.anyCtx = true then x.world / 128 = p.srcWorld / 128 else x.world = p.srcWorld) := by
    split <;> exact beq_iff_eq
  simp [State.granted, hq, own, open', grant, and_assoc]

/-- R42, R165, R168, R295: one thread of a packet at its target. -/
theorem remoteThreadsAtTheirTarget : RemoteThreadsAtTheirTarget := by
  intro s p th size dist chk refused
  have refusing (c : Cause) : refusedBy c = refused c := refusedBy_eq c
  have space : chk = fun need => s.check p.tgtPart p.tgtCtx 0 (targetSpace dist) th.addr size need false := rfl
  refine ⟨?_, ?_, ?_, ?_, ?_, ?_, ?_, fun q hq hs open' => State.granted_iff hq hs open'⟩
  · intro f pl ho hc
    rw [space] at hc
    simp only [State.remoteThread, ho, hc, okAnswer]
  · intro f c x ho hc
    rw [space] at hc
    simp only [State.remoteThread, ho, hc, refusing]
  · intro pl ho hc good
    rw [space] at hc
    simp only [State.remoteThread, ho, hc, good, okAnswer]
  · intro pl l ho hc bad
    rw [space] at hc
    simp only [State.remoteThread, ho, hc, bad]
  · intro c x ho hc
    rw [space] at hc
    simp only [State.remoteThread, ho, hc, refusing]
  · intro pl op ho hop hc good old
    rw [space] at hc
    simp only [State.remoteThread, ho, hc, good, okAnswer]
    rcases hop with h | rfl
    · interval_cases op <;> rfl
    · rfl
  · intro c x op ho hc
    rw [space] at hc
    simp only [State.remoteThread, ho, hc, refusing]

/-! ## Appends -/

section CheckFlag

variable {s : State} {part ctx : Nat} {f : RemFlag}

theorem State.checkFlag_of_fail {c : Cause} {x : Nat}
    (h : s.check part ctx 0 (targetSpace f.dist) f.addr 8 .both true = .fail c x) : s.checkFlag part ctx f = .fail c x := by
  simp only [State.checkFlag, h]

theorem State.checkFlag_of_bad {pl : Place} {l : Nat}
    (h : s.check part ctx 0 (targetSpace f.dist) f.addr 8 .both true = .ok pl) (bad : s.badLine pl 8 = some l) :
    s.checkFlag part ctx f = .poison l := by
  simp only [State.checkFlag, h, bad]

theorem State.checkFlag_of_good {pl : Place}
    (h : s.check part ctx 0 (targetSpace f.dist) f.addr 8 .both true = .ok pl) (good : s.badLine pl 8 = none) :
    s.checkFlag part ctx f = .ok pl := by
  simp only [State.checkFlag, h, good]

end CheckFlag

/-- Word `k` of an append's descriptor: TAIL, capacity, base, and flag (R166). -/
def State.appendWord (s : State) (pl : Place) (k : Nat) : Nat := leNat (((s.readAt pl 32).drop (8 * k)).take 8)

/-- The fields of an append's descriptor are legal (R166). -/
def State.appendLegal (s : State) (pl : Place) (size : Nat) : Prop :=
  s.appendWord pl 1 % 2 ^ 32 ≤ 0xFFFFFFFE ∧ s.appendWord pl 1 / 2 ^ 32 = 0 ∧ s.appendWord pl 2 % size = 0 ∧
    s.appendWord pl 3 % 8 = 0

/-- What an append does once its descriptor and its flag have passed (R167): `flag` is the place of the flag, if it has one. -/
def State.appendRow (s : State) (part ctx size : Nat) (th : PktThread) (pl : Place) (flag : Option Place) : Remote :=
  let tail := s.appendWord pl 0
  let u := s.writeAt pl (leBytes 8 ((tail + 1) % 2 ^ 64))
  if s.appendWord pl 1 % 2 ^ 32 ≤ tail then .done u (okAnswer th.t (leBytes 4 0xFFFFFFFF))
  else match u.check part ctx 0 .global (BitVec.ofNat 64 (s.appendWord pl 2 + tail * size)) size .write false with
    | .fail c _ => .done u ⟨th.t, some ((remoteCause c).1.code, (remoteCause c).2), []⟩
    | .poison l => .spoilt u l
    | .ok row =>
      let w := u.writeAt row (th.data.take size)
      .done (flag.elim w w.bumpFlag) (okAnswer th.t (leBytes 4 tail))

/-- The check of the flag that an append's descriptor names, if it names one. -/
def State.appendFlag (s : State) (part ctx : Nat) (pl : Place) : Option Chk :=
  if s.appendWord pl 3 = 0 then none else some (s.checkFlag part ctx ⟨false, BitVec.ofNat 64 (s.appendWord pl 3)⟩)

/-- What an append with a legal descriptor does (R167), by the check of its flag. -/
def State.appendAfter (s : State) (part ctx size : Nat) (th : PktThread) (pl : Place) : Option Chk → Remote
  | some (.fail c _) => refusedBy c
  | some (.poison l) => .poison l
  | some (.ok fl) => s.appendRow part ctx size th pl (some fl)
  | none => s.appendRow part ctx size th pl none

theorem State.appendLegal_checks {s : State} {pl : Place} {size : Nat} (legal : s.appendLegal pl size) :
    ¬(decide (0xFFFFFFFE < s.appendWord pl 1 % 2 ^ 32) || decide (s.appendWord pl 1 / 2 ^ 32 ≠ 0) ||
      decide (s.appendWord pl 2 % size ≠ 0) || decide (s.appendWord pl 3 % 8 ≠ 0)) = true := by
  obtain ⟨cap, zeros, base, flag⟩ := legal
  simp only [Bool.or_eq_true, decide_eq_true_eq]
  omega

section Append

variable {s : State} {part ctx size : Nat} {th : PktThread} {pl : Place} (aligned : th.addr.toNat % 32 = 0)
  (hc : s.check part ctx 0 .global th.addr 16 .both false = .ok pl) (good : s.badLine pl 32 = none)
include aligned hc good

/-- An append with an illegal descriptor is refused (R166). -/
theorem State.remoteAppend_of_illegal (illegal : ¬s.appendLegal pl size) :
    s.remoteAppend part ctx size th = .refused .remoteRefused 6 := by
  have bad : (decide (0xFFFFFFFE < s.appendWord pl 1 % 2 ^ 32) || decide (s.appendWord pl 1 / 2 ^ 32 ≠ 0) ||
      decide (s.appendWord pl 2 % size ≠ 0) || decide (s.appendWord pl 3 % 8 ≠ 0)) = true := by
    simp only [Bool.or_eq_true, decide_eq_true_eq]
    unfold State.appendLegal at illegal
    omega
  simp only [State.remoteAppend, aligned, ne_eq, not_true_eq_false, if_false, hc, good]
  exact if_pos bad

/-- An append with a legal descriptor goes on with its flag (R166, R167). -/
theorem State.remoteAppend_of_legal (legal : s.appendLegal pl size) :
    s.remoteAppend part ctx size th = s.appendAfter part ctx size th pl (s.appendFlag part ctx pl) := by
  have checks := State.appendLegal_checks legal
  unfold State.appendWord at checks
  simp only [State.remoteAppend, aligned, ne_eq, not_true_eq_false, if_false, hc, good]
  rw [if_neg checks]
  rw [State.appendFlag, State.appendWord]
  by_cases hf : leNat (((s.readAt pl 32).drop (8 * 3)).take 8) = 0
  · rw [if_pos hf]
    rfl
  · rw [if_neg hf]
    cases s.checkFlag part ctx ⟨false, BitVec.ofNat 64 (leNat (((s.readAt pl 32).drop (8 * 3)).take 8))⟩ <;> rfl

end Append

section Row

variable {s : State} {part ctx size : Nat} {th : PktThread} {pl : Place} {flag : Option Place}

/-- A full table: TAIL alone goes up (R167). -/
theorem State.appendRow_of_full (full : s.appendWord pl 1 % 2 ^ 32 ≤ s.appendWord pl 0) :
    s.appendRow part ctx size th pl flag = .done (s.writeAt pl (leBytes 8 ((s.appendWord pl 0 + 1) % 2 ^ 64)))
      ⟨th.t, none, leBytes 4 0xFFFFFFFF⟩ :=
  if_pos full

/-- A row whose check fails leaves TAIL as it has become (R167). -/
theorem State.appendRow_of_fail (room : s.appendWord pl 0 < s.appendWord pl 1 % 2 ^ 32) {c : Cause} {x : Nat}
    (hr : (s.writeAt pl (leBytes 8 ((s.appendWord pl 0 + 1) % 2 ^ 64))).check part ctx 0 .global
      (BitVec.ofNat 64 (s.appendWord pl 2 + s.appendWord pl 0 * size)) size .write false = .fail c x) :
    s.appendRow part ctx size th pl flag = .done (s.writeAt pl (leBytes 8 ((s.appendWord pl 0 + 1) % 2 ^ 64)))
      ⟨th.t, some ((remoteCause c).1.code, (remoteCause c).2), []⟩ := by
  simp only [State.appendRow, if_neg (Nat.not_le.mpr room), hr]

/-- A row that is written, and the flag of its table (R167). -/
theorem State.appendRow_of_ok (room : s.appendWord pl 0 < s.appendWord pl 1 % 2 ^ 32) {row : Place}
    (hr : (s.writeAt pl (leBytes 8 ((s.appendWord pl 0 + 1) % 2 ^ 64))).check part ctx 0 .global
      (BitVec.ofNat 64 (s.appendWord pl 2 + s.appendWord pl 0 * size)) size .write false = .ok row) :
    let w := (s.writeAt pl (leBytes 8 ((s.appendWord pl 0 + 1) % 2 ^ 64))).writeAt row (th.data.take size)
    s.appendRow part ctx size th pl flag = .done (flag.elim w w.bumpFlag) ⟨th.t, none, leBytes 4 (s.appendWord pl 0)⟩ := by
  simp only [State.appendRow, if_neg (Nat.not_le.mpr room), hr, okAnswer]

end Row

/-- R166, R167, R168: an append at its target. -/
theorem appendsAtTheirTarget : AppendsAtTheirTarget := by
  intro s p th size ho out chk refused
  have refusing (c : Cause) : refusedBy c = refused c := refusedBy_eq c
  have appends : out = s.remoteAppend p.tgtPart p.tgtCtx size th := by
    simp only [out, State.remoteThread, ho]
  rw [appends]
  refine ⟨fun odd => if_pos odd, fun aligned => ⟨fun c x hc => ?_, ?_⟩⟩
  · change s.check p.tgtPart p.tgtCtx 0 .global th.addr 16 .both false = .fail c x at hc
    simp only [State.remoteAppend, aligned, ne_eq, not_true_eq_false, if_false, hc, refusing]
  intro pl hc good word tail cap legal flag u row
  have goes := fun ok : legal => State.remoteAppend_of_legal (th := th) aligned hc good ok
  have flagged (set : word 3 ≠ 0) : s.appendFlag p.tgtPart p.tgtCtx pl =
      some (s.checkFlag p.tgtPart p.tgtCtx ⟨false, BitVec.ofNat 64 (word 3)⟩) := if_neg set
  refine ⟨fun illegal => State.remoteAppend_of_illegal aligned hc good illegal, ?_, ?_, fun ok passes => ?_⟩
  · intro c x ok set hf
    rw [goes ok, flagged set, State.checkFlag_of_fail hf]
    exact refusing c
  · intro fl ok set hf bad
    obtain ⟨l, bad⟩ := Option.ne_none_iff_exists'.mp bad
    rw [goes ok, flagged set, State.checkFlag_of_bad hf bad]
    exact ⟨l, rfl⟩
  · obtain ⟨place, unset, set, rest⟩ : ∃ place, (word 3 = 0 → place = none) ∧
        (∀ fl, word 3 ≠ 0 → flag = .ok fl → place = some fl) ∧
        s.remoteAppend p.tgtPart p.tgtCtx size th = s.appendRow p.tgtPart p.tgtCtx size th pl place := by
      rw [goes ok]
      by_cases hw : word 3 = 0
      · refine ⟨none, fun _ => rfl, fun _ set => absurd hw set, ?_⟩
        rw [State.appendFlag, show s.appendWord pl 3 = 0 from hw]
        rfl
      · obtain ⟨fl, hf, fine⟩ := passes.resolve_left hw
        refine ⟨some fl, fun unset => absurd unset hw, fun fl' _ hf' => ?_, ?_⟩
        · injection hf.symm.trans hf' with same
          rw [same]
        · rw [flagged hw, State.checkFlag_of_good hf fine]
          rfl
    rw [rest]
    refine ⟨fun full => State.appendRow_of_full full, fun room c x hr => ⟨_, State.appendRow_of_fail room hr⟩,
      fun q room hr => ⟨fun hw => ?_, fun fl hw hf => ?_⟩⟩
    · rw [State.appendRow_of_ok room hr, unset hw]
      rfl
    · rw [State.appendRow_of_ok room hr, set fl hw hf]
      rfl

/-! ## Flags -/

/-- A filter with one entry, the only packet of a send with a flag: it is complete when each of its threads has been performed,
and its flag has not been counted. -/
theorem Filter.complete_of_single {f : Filter} {e : Executed} {size : Nat} {dist : Bool} {fl : RemFlag} (he : f.entries = [e])
    (ho : e.op = .send size dist (some fl)) (hl : e.last = some 1) :
    f.complete = if e.flagged = false ∧ e.performed = true then [e] else [] := by
  simp [Filter.complete, he, ho, hl, List.filter_cons]

theorem Executed.performed_iff (e : Executed) :
    e.performed = true ↔ ∀ t ∈ e.threads, ∃ a ∈ e.answers, a.t = t ∧ a.fail = none := by
  simp [Executed.performed]

/-- The flag of a send that is complete goes up (R58, R165). -/
theorem State.countFlags_of_complete {s : State} {f : Filter} {e : Executed} {size : Nat} {dist : Bool} {fl : RemFlag}
    {pl : Place} (he : f.entries = [e]) (ho : e.op = .send size dist (some fl)) (complete : f.complete = [e])
    (hk : s.checkFlag e.tgtPart e.tgtCtx fl = .ok pl) :
    s.countFlags f = (s.bumpFlag pl).setFilter { f with entries := [{ e with flagged := true }] } := by
  simp [State.countFlags, complete, he, ho, hk]

/-- Where nothing is complete, no flag goes up. -/
theorem State.countFlags_of_incomplete (s : State) {f : Filter} (incomplete : f.complete = []) :
    s.countFlags f = s.setFilter f := by
  simp [State.countFlags, incomplete]

/-- A packet that is not granted is refused (R295). -/
theorem State.remoteThreads_of_ungranted {s : State} {p : Packet} (th : PktThread) (refused : s.granted p = false) :
    s.remoteThreads p [th] = (s, [(⟨th.t, some (Cause.remoteRefused.code, 5), []⟩, false)]) := by
  simp [State.remoteThreads, refused]

/-- A thread of an `xsend` whose flag fails its check is refused as that check is (R165). -/
theorem State.remoteThreads_of_failFlag {s : State} {p : Packet} (th : PktThread) {size : Nat} {dist : Bool} {f : RemFlag}
    {c : Cause} {x : Nat} (granted : s.granted p = true) (ho : p.op = .send size dist (some f))
    (hk : s.checkFlag p.tgtPart p.tgtCtx f = .fail c x) :
    s.remoteThreads p [th] = (s, [(⟨th.t, some ((remoteCause c).1.code, (remoteCause c).2), []⟩, false)]) := by
  simp [State.remoteThreads, granted, ho, hk, refusedBy]

/-- A thread that consumes the error of a line, which is recorded (R344). -/
theorem State.remoteThreads_of_poison {s : State} {p : Packet} {th : PktThread} {l : Nat} (granted : s.granted p = true)
    (ho : ∀ size dist f, p.op ≠ .send size dist (some f)) (bad : s.remoteThread p th = .poison l) :
    s.remoteThreads p [th] = (s.lineError l none, [(⟨th.t, some (Cause.remoteRefused.code, 7), []⟩, false)]) := by
  cases hop : p.op with
  | send size dist fl =>
    cases fl with
    | none => simp [State.remoteThreads, granted, hop, bad]
    | some f => exact absurd hop (ho size dist f)
  | _ => simp [State.remoteThreads, granted, hop, bad]

/-- R58, R165, R168, R295, R344: grants, flags and consumed lines at the target. -/
theorem flagsAtTheirTarget : FlagsAtTheirTarget := by
  refine ⟨fun s p th refused => State.remoteThreads_of_ungranted th refused, ?_,
    fun s p th l granted ho bad => State.remoteThreads_of_poison granted ho bad, ?_⟩
  · intro s p th size dist f c x granted ho hc d
    have answered : remoteCause c = d := by
      cases c <;> rfl
    rw [State.remoteThreads_of_failFlag th granted ho (State.checkFlag_of_fail hc), answered]
  · intro s f e size dist fl pl he ho hl hc good all
    have performed : e.performed = true ↔ all := e.performed_iff
    have complete := Filter.complete_of_single he ho hl
    refine ⟨fun every fresh => ?_, fun out => ?_⟩
    · rw [if_pos ⟨fresh, performed.mpr every⟩] at complete
      exact State.countFlags_of_complete he ho complete (State.checkFlag_of_good hc good)
    · refine s.countFlags_of_incomplete (complete.trans (if_neg ?_))
      rintro ⟨fresh, every⟩
      exact out.elim (fun some' => some' (performed.mp every)) fun flagged => by simp [flagged] at fresh

end Sys2Proof.Machine
end

section
/-!
What a remote instruction returns.
-/

namespace Sys2Proof.Machine

open Sys2Proof Sys2Proof.Claims

/-! ## Threads refused at the source -/

/-- The mask of one thread. -/
theorem maskOf_singleton (t : Nat) : maskOf [t] = BitVec.ofNat 64 (2 ^ t) := by
  apply BitVec.eq_of_toNat_eq
  simp [maskOf, Nat.shiftLeft_eq]

/-- A result of an instruction that still waits, in a group that is not halted, goes on its way (R19). -/
theorem State.ret_of_waiting {s : State} {g : Group} {idx : Nat} (r : Result) (hg : s.group? g.uid = some g)
    (running : g.halt = .no) (waits : waitsIn g.issued idx = true) :
    s.ret g.uid idx r = { s with returns := s.returns ++ [⟨g.uid, g.gen, idx, g.part, g.core, r.norm⟩] } := by
  simp [State.ret, hg, running, waits]

/-- What is kept of an instruction all of whose threads the source refuses. -/
def refusedSent (uid since idx th : Nat) : Sent := ⟨uid, since, idx % 32, [th], [], []⟩

/-- The state that keeps it. -/
def State.keepRefused (s : State) (uid since idx th : Nat) : State :=
  { s with fabric := { s.fabric with
      sent := refusedSent uid since idx th :: s.fabric.sent.filter fun y => !y.of uid since idx } }

/-- A remote instruction of one thread whose rank is not valid sends no packet, and returns at once (R163). -/
theorem State.remoteIssue_of_noRank {s : State} {g : Group} {idx since dst n : Nat} {op : PktOp} {ret : Bool} {x : RemoteItem}
    (hg : s.group? g.uid = some g) (invalid : s.rankOf g.part g.ctx g.lid x.2.1.toNat = none)
    (first : ∀ y ∈ s.fabric.sent, ¬(y.uid = g.uid ∧ y.since = since ∧ y.idx = idx % 32)) :
    s.remoteIssue g.uid idx since op [x] dst n ret =
      (s.keepRefused g.uid since idx x.1).ret g.uid idx (remoteResult idx [x] dst n ret (refusedSent g.uid since idx x.1)) := by
  have unkept : s.fabric.sent.find? (fun y => y.of g.uid since idx) = none := by
    rw [List.find?_eq_none]
    intro y hy kept
    exact first y hy (by simpa [Sent.of, and_assoc] using kept)
  have bad : (s.rankEntry g x.2.1.toNat).isNone = true := by
    rw [State.rankEntry, invalid]
    rfl
  simp [State.remoteIssue, hg, bad, unkept, State.makePackets, sortNat, State.keepRefused, refusedSent]

/-! ## Answers -/

/-- The answer of a thread: that of the source, which refuses the threads whose rank is not valid, or that of its target. -/
def Sent.answerOf (x : Sent) (th : Nat) : Option PktAnswer :=
  ((x.refused.map fun t => (⟨t, some (Cause.remoteRefused.code, 2), []⟩ : PktAnswer)) ++ x.answers).find? fun a => a.t == th

/-- How a thread failed, if it did. -/
def Sent.failOf (x : Sent) (th : Nat) : Option (Nat × Nat) := (x.answerOf th).bind (·.fail)

theorem Sent.answerOf_t {x : Sent} {th : Nat} {a : PktAnswer} (h : x.answerOf th = some a) : a.t = th :=
  by simpa using List.find?_some h

theorem Sent.answerOf_of_refused {x : Sent} {th : Nat} (h : th ∈ x.refused) :
    x.answerOf th = some ⟨th, some (Cause.remoteRefused.code, 2), []⟩ := by
  obtain ⟨t, ht⟩ := Option.isSome_iff_exists.mp (List.find?_isSome (p := fun t => t == th).mpr ⟨th, h, beq_self_eq_true th⟩)
  have same : t = th := beq_iff_eq.mp (List.find?_some (p := fun t => t == th) ht)
  have found : (x.refused.find? fun t => t == th) = some th := same ▸ ht
  simp only [Sent.answerOf, List.find?_append, List.find?_map, Function.comp_def, found, Option.map_some, Option.some_or]

theorem Sent.answerOf_of_sent {x : Sent} {th : Nat} (h : th ∉ x.refused) :
    x.answerOf th = x.answers.find? fun a => a.t == th := by
  rw [Sent.answerOf, List.find?_append, List.find?_eq_none.mpr, Option.none_or]
  simp only [List.mem_map]
  rintro _ ⟨t, ht, rfl⟩ same
  exact h (beq_iff_eq.mp same ▸ ht)

theorem Sent.failOf_eq (x : Sent) (th : Nat) : x.failOf th =
    if th ∈ x.refused then some (Cause.remoteRefused.code, 2)
    else (x.answers.find? fun a => a.t == th).bind (·.fail) := by
  by_cases h : th ∈ x.refused
  · rw [if_pos h, Sent.failOf, Sent.answerOf_of_refused h]
    rfl
  · rw [if_neg h, Sent.failOf, Sent.answerOf_of_sent h]

/-- The answer of a thread that failed. -/
def Sent.failing (x : Sent) (th : Nat) : Option PktAnswer := (x.answerOf th).filter fun a => a.fail.isSome

theorem Sent.failing_eq_some {x : Sent} {th : Nat} {a : PktAnswer} :
    x.failing th = some a ↔ x.answerOf th = some a ∧ ∃ e, a.fail = some e := by
  rw [Sent.failing, Option.filter_eq_some_iff, Option.isSome_iff_exists]

theorem Sent.failing_eq_none {x : Sent} {th : Nat} : x.failing th = none ↔ x.failOf th = none := by
  rw [Sent.failing, Sent.failOf]
  cases x.answerOf th with
  | none => simp
  | some a => simp [Option.filter_some, Option.isSome_iff_ne_none]

theorem Sent.failOf_eq_some {x : Sent} {th : Nat} {e : Nat × Nat} :
    x.failOf th = some e ↔ ∃ a, x.failing th = some a ∧ a.fail = some e := by
  rw [Sent.failOf, Option.bind_eq_some_iff]
  constructor
  · rintro ⟨a, found, failed⟩
    exact ⟨a, Sent.failing_eq_some.mpr ⟨found, e, failed⟩, failed⟩
  · rintro ⟨a, found, failed⟩
    exact ⟨a, (Sent.failing_eq_some.mp found).1, failed⟩

/-! ## Results -/

section Results

variable {idx dst n : Nat} {items : List RemoteItem} {ret : Bool} {x : Sent}

/-- The answers of the failing threads, in the order of the threads. -/
theorem failing_answers : ((items.filterMap fun i => x.answerOf i.1).filter fun a => a.fail.isSome) =
    items.filterMap fun i => x.failing i.1 := by
  rw [List.filter_filterMap]
  rfl

/-- With no failing thread there is no failure (R164). -/
theorem remoteResult_fail_none (h : ∀ i ∈ items, x.failOf i.1 = none) : (remoteResult idx items dst n ret x).fail = none := by
  have none_fails : ((items.filterMap fun i => x.answerOf i.1).filter fun a => a.fail.isSome) = [] := by
    rw [failing_answers, List.filterMap_eq_nil_iff]
    exact fun i hi => Sent.failing_eq_none.mpr (h i hi)
  unfold Sent.answerOf at none_fails
  simp only [remoteResult, none_fails]

/-- The first failing thread gives cause, address and detail, all of them the mask, and all of them whether the failure can be
replayed (R168). -/
theorem remoteResult_fail_some {a : PktAnswer} {rest : List PktAnswer} {code d : Nat}
    (h : (items.filterMap fun i => x.failing i.1) = a :: rest) (ha : a.fail = some (code, d)) :
    (remoteResult idx items dst n ret x).fail = some
      { idx := idx, cause := answerCause code
        taddr := ((items.find? fun i => i.1 == a.t).map fun i => i.2.2.1).getD 0
        tmask := maskOf ((items.filterMap fun i => x.failing i.1).map (·.t)), detail := BitVec.ofNat 32 d
        replay := (items.filterMap fun i => x.failing i.1).all fun a => (answerCause (a.fail.getD (0, 0)).1).replayable } := by
  have fails := (failing_answers (x := x)).trans h
  unfold Sent.answerOf at fails
  simp only [remoteResult, fails, ha, h, Option.getD_some]
  cases items.find? fun i => i.1 == a.t <;> rfl

/-- The elements that a remote instruction writes are those of the threads that were performed. -/
theorem mem_remoteResult_elems {e : Nat × Nat × W32} : e ∈ (remoteResult idx items dst n ret x).elems ↔
    ret = true ∧ ∃ i ∈ items, ∃ a, x.answerOf i.1 = some a ∧ a.fail = none ∧ ∃ k < n,
      e = (dst + k, i.1, BitVec.ofNat 32 (leNat ((a.data.drop (4 * k)).take 4))) := by
  cases ret with
  | false => simp [remoteResult]
  | true =>
    simp only [remoteResult, if_true, List.mem_flatMap, List.mem_filter, List.mem_filterMap, List.mem_map, List.mem_range,
      Option.isNone_iff_eq_none, true_and]
    constructor
    · rintro ⟨a, ⟨⟨i, hi, found⟩, performed⟩, k, hk, rfl⟩
      exact ⟨i, hi, a, found, performed, k, hk, by rw [Sent.answerOf_t found]⟩
    · rintro ⟨i, hi, a, found, performed, k, hk, rfl⟩
      exact ⟨a, ⟨⟨i, hi, found⟩, performed⟩, k, hk, by rw [Sent.answerOf_t found]⟩

/-- The failure of a remote instruction whose first failing thread is `th` (R164, R168). -/
theorem remoteResult_fail_of_first {pre post : List RemoteItem} {th : Nat} {rank : W32} {addr : W64} {data : BitVec 128}
    {code d : Nat} (hitems : items = pre ++ (th, rank, addr, data) :: post) (before : ∀ i ∈ pre, x.failOf i.1 = none)
    (first : x.failOf th = some (code, d)) :
    (remoteResult idx items dst n ret x).fail = some
      { idx := idx, cause := answerCause code, taddr := addr
        tmask := maskOf ((items.filterMap fun i => x.failing i.1).map (·.t)), detail := BitVec.ofNat 32 d
        replay := (items.filterMap fun i => x.failing i.1).all fun a => (answerCause (a.fail.getD (0, 0)).1).replayable } := by
  obtain ⟨a, failing, ha⟩ := Sent.failOf_eq_some.mp first
  have named : a.t = th := Sent.answerOf_t (Sent.failing_eq_some.mp failing).1
  have nobody : (pre.filterMap fun i => x.failing i.1) = [] :=
    List.filterMap_eq_nil_iff.mpr fun i hi => Sent.failing_eq_none.mpr (before i hi)
  have head : (items.filterMap fun i => x.failing i.1) = a :: post.filterMap fun i => x.failing i.1 := by
    rw [hitems, List.filterMap_append, nobody, List.nil_append, List.filterMap_cons, failing]
  have other : pre.find? (fun i => i.1 == th) = none := by
    rw [List.find?_eq_none]
    intro i hi same
    have := before i hi
    rw [beq_iff_eq.mp same, first] at this
    cases this
  have at_addr : (items.find? fun i => i.1 == a.t) = some (th, rank, addr, data) := by
    rw [named, hitems, List.find?_append, other, Option.none_or, List.find?_cons_of_pos (by simp)]
  rw [remoteResult_fail_some head ha, at_addr]
  rfl

/-- The mask of the failing threads. -/
theorem getLsbD_failing {v : Nat} (hv : v < 64) :
    (maskOf ((items.filterMap fun i => x.failing i.1).map (·.t))).getLsbD v = true ↔
      ∃ i ∈ items, i.1 = v ∧ x.failOf v ≠ none := by
  simp only [getLsbD_maskOf _ v hv, List.mem_map, List.mem_filterMap, ne_eq, ← Sent.failing_eq_none]
  constructor
  · rintro ⟨a, ⟨i, hi, failing⟩, rfl⟩
    have named := Sent.answerOf_t (Sent.failing_eq_some.mp failing).1
    exact ⟨i, hi, named.symm, by simp [named, failing]⟩
  · rintro ⟨i, hi, rfl, failed⟩
    obtain ⟨a, failing⟩ := Option.ne_none_iff_exists'.mp failed
    exact ⟨a, ⟨i, hi, failing⟩, Sent.answerOf_t (Sent.failing_eq_some.mp failing).1⟩

/-- A failure can be replayed when every failing thread's cause can. -/
theorem all_failing_replayable :
    ((items.filterMap fun i => x.failing i.1).all fun a => (answerCause (a.fail.getD (0, 0)).1).replayable) = true ↔
      ∀ i ∈ items, ∀ code e, x.failOf i.1 = some (code, e) → (answerCause code).replayable = true := by
  simp only [List.all_eq_true, List.mem_filterMap, Sent.failOf_eq_some]
  constructor
  · rintro every i hi code e ⟨a, failing, ha⟩
    simpa [ha] using every a ⟨i, hi, failing⟩
  · rintro every a ⟨i, hi, failing⟩
    obtain ⟨-, e, ha⟩ := Sent.failing_eq_some.mp failing
    simpa [ha] using every i hi e.1 e.2 ⟨a, failing, ha⟩

end Results

/-- The code of a cause that an answer can carry names it. -/
theorem answerCause_code {c : Cause} (hc : c = .remoteRefused ∨ c = .orderingKind ∨ c = .fabricTimeout) :
    answerCause c.code = c := by
  rcases hc with rfl | rfl | rfl <;> rfl

/-- The result of an instruction of one thread that the source refuses. -/
theorem remoteResult_refusedSent (uid since idx dst n : Nat) (ret : Bool) (x : RemoteItem) :
    (remoteResult idx [x] dst n ret (refusedSent uid since idx x.1)).norm = Result.failed
      ⟨idx % 32, .remoteRefused, x.2.2.1, BitVec.ofNat 64 (2 ^ x.1), 2, Cause.remoteRefused.replayable⟩ := by
  have own : answerCause Cause.remoteRefused.code = .remoteRefused := answerCause_code (.inl rfl)
  rw [← maskOf_singleton]
  cases ret <;> simp [remoteResult, refusedSent, own, Result.norm, Result.failed, Result.empty]

/-- R163, R164, R168: what a remote instruction returns. -/
theorem remoteReturns : RemoteReturns := by
  refine ⟨?_, ?_⟩
  · rintro s g idx since dst n op _ ret x hg running waits rfl invalid first hx t
    have issued : t = _ := State.remoteIssue_of_noRank hg invalid first
    have kept : (s.keepRefused g.uid since idx x.1).group? g.uid = some g := hg
    rw [issued, State.ret_of_waiting _ kept running waits, remoteResult_refusedSent]
    exact ⟨rfl, rfl⟩
  · intro idx dst n items ret x _ _ r answer fails
    have fails_eq (th : Nat) : fails th = x.failOf th := (x.failOf_eq th).symm
    simp only [fails_eq]
    refine ⟨?_, remoteResult_fail_none, ?_, ?_⟩
    · intro pre post th rank a data c d hitems before first hc
      refine ⟨_, remoteResult_fail_of_first hitems before first, rfl, answerCause_code hc, rfl, rfl,
        fun v hv => getLsbD_failing hv, all_failing_replayable⟩
    · intro i hi a sent answered performed hret k hk
      exact mem_remoteResult_elems.mpr ⟨hret, i, hi, a, (Sent.answerOf_of_sent sent).trans answered, performed, k, hk, rfl⟩
    · intro i hi failed k w written
      obtain ⟨-, j, -, a, found, performed, k', -, same⟩ := mem_remoteResult_elems.mp written
      have named : i.1 = j.1 := congrArg (·.2.1) same
      refine failed ?_
      rw [named, Sent.failOf, found]
      exact performed

/-- Settles O32: the issue of remote instructions, their threads, appends and flags at the target, and their returns, each by
the lemmas of the operation that performs it. -/
theorem remoteInstructionResults : Obligations.RemoteInstructionResults :=
  ⟨remoteInstructionsIssue, remoteThreadsAtTheirTarget, appendsAtTheirTarget, flagsAtTheirTarget, remoteReturns⟩

end Sys2Proof.Machine
end

section
/-!
An unpack into a slice memory that is not in its canonical form: a byte that it writes as 0 does not hide the byte before it.
-/

namespace Sys2Proof.Machine

open Sys2Proof Sys2Proof.Claims

/-! ## A machine whose slice memory is out of order -/

/-- An unpack of one row of FP4 elements without scales, from the slice window to offset 128 of it. -/
def zerosUnpack : Unpack := ⟨128, 0, 0, true, 1, 0, 4⟩

/-- A team with a window of 512 bytes on core 0. -/
def windowTeam : Team := Team.fresh 0 0 0 0 0 0 false 0 512 1

/-- The unpack as the copy engine holds it. -/
def zerosEntry : EngEntry := ⟨.cunpack 128 0 0 true 1 0 4 0, 0, 0, 0, 0, 0, 0, 0, 0, 0, .w16, true, 0, MmDone.start, none, [], []⟩

/-- The machine: its slice memory lists address 1000 before address 128, so that it is not canonical (`Memory.wf`). -/
def disorderedMachine : State := { State.reset with teams := [windowTeam], slices := [(1000, 1), (128, 5)] }

/-- The first two bytes of an unpack's destination after it. -/
def firstElementAfter (o : Copied) : Option Nat :=
  match o with
  | .done u _ _ => some (leNat (u.slices.readN 128 2))
  | .poison _ => none

/-- The model: the unpack writes zeros, and the old byte stays to be read. -/
theorem firstElementAfter_unpackRun : firstElementAfter (disorderedMachine.unpackRun zerosEntry zerosUnpack) = some 5 := by
  decide +kernel

/-- The places that the unpack's row reads. -/
def rowPlaces : List (Place × Nat) := [(.slice 0, 64)]

theorem side_zerosUnpack : disorderedMachine.side zerosEntry 1 .read 0 64 = .ok rowPlaces := by
  decide

theorem badIn_rowPlaces : disorderedMachine.badIn rowPlaces = none := by
  decide

theorem leNat_readRange_rowPlaces : leNat (disorderedMachine.readRange rowPlaces) = 0 := by
  decide +kernel

/-- The window of the team is the start of core 0's slice. -/
theorem window_windowTeam {o size : Nat} (h : o + size ≤ 512) : windowTeam.window o size = some o := by
  rw [Team.window, if_pos (show o + size ≤ windowTeam.sliceLen from h)]
  simp [windowTeam, Team.fresh]

/-- The element 0 of FP4 has the value 0. -/
theorem isElement_fp4_zero {v : Rat} (h : IsElement 4 0 v) : v = 0 := by
  simpa [IsElement, widthOf] using h

theorem valueOf_bf16_maxMag_nonneg : 0 ≤ valueOf bf16 bf16.maxMag := by
  decide +kernel

theorem valueOf_bf16_five_ne_zero : valueOf bf16 5 ≠ 0 := by
  decide +kernel

/-- The element 0 of FP4 unpacks to a BF16 number of value 0 (R119). -/
theorem valueOf_of_isUnpacked_zero {y : Nat} {event : Bool} (h : IsUnpacked 4 0 none y event) : valueOf bf16 y = 0 := by
  obtain ⟨-, -, finite⟩ := h
  obtain ⟨v, element, -, small⟩ := finite (by decide) (by decide) (by decide)
  obtain rfl := isElement_fp4_zero element
  obtain ⟨-, -, exact', -⟩ := small (by simpa using valueOf_bf16_maxMag_nonneg)
  exact exact' (.inl ⟨0, by simp⟩)

/-- Refutes O44: an unpack of a row of FP4 zeros in a machine whose slice memory lists address 1000 before address 128. The
statement asks that the destination then holds the unpacked values, and 0 unpacks to 0; but it does not ask, as the statements
about memories do, that the slice memory is canonical (`Memory.wf`, which every step keeps), and in this one the write of a 0 to
address 128 stops at the entry of address 1000 and leaves the 5 that stands behind it. -/
theorem not_copyAndBufferEvents : ¬ Obligations.CopyAndBufferEvents := by
  rintro ⟨-, unpacked, -⟩
  have reads (r : Nat) (hr : r < 1) : disorderedMachine.side zerosEntry 1 .read (0 + r * 64) 64 = .ok rowPlaces ∧
      disorderedMachine.badIn rowPlaces = none := by
    obtain rfl := Nat.lt_one_iff.mp hr
    exact ⟨side_zerosUnpack, badIn_rowPlaces⟩
  have writes (k : Nat) (hk : k < 16 * 1) : windowTeam.window (128 + 16 * k) 16 = some (128 + 16 * k) :=
    window_windowTeam (by omega)
  have apart (k : Nat) : rangesMeet rowPlaces [(.slice (128 + 16 * k), 16)] = false := by
    simp only [rangesMeet, rowPlaces, placesMeet, List.any_cons, List.any_nil, Bool.or_false, Bool.and_eq_false_iff,
      decide_eq_false_iff_not]
    omega
  obtain ⟨u, Y, V, run, values⟩ := unpacked disorderedMachine zerosEntry windowTeam zerosUnpack (fun _ => rowPlaces)
    (fun _ _ => []) (fun k => 128 + 16 * k) rfl (by decide) (by decide) (by decide) rfl rfl (fun some' => absurd rfl some')
    reads (fun some' => absurd rfl some') writes (fun k l _ _ => by omega)
    (fun k _ _ _ _ _ => ⟨apart k, fun some' => absurd rfl some'⟩)
  obtain ⟨element, a, place, bytes⟩ := values 0 0 (by decide) (by decide)
  have zero : valueOf bf16 (Y 0 0) = 0 := by
    refine valueOf_of_isUnpacked_zero (event := V 0 0) ?_
    simpa [leNat_readRange_rowPlaces, zerosUnpack] using element
  have at_dst : a = 128 := by
    injection place.symm.trans (window_windowTeam (o := 128) (size := 2) (by decide))
  have five : leNat (u.slices.readN 128 2) = 5 := by
    have after := firstElementAfter_unpackRun
    rw [run] at after
    injection after
  rw [at_dst, five] at bytes
  exact valueOf_bf16_five_ne_zero (bytes ▸ zero)

end Sys2Proof.Machine
end

section
/-!
A word is its fields put together, and the words that encode an instruction decode to it, as table words too.
-/

namespace Sys2Proof.Laws

open Sys2Proof

/-! ## A word from its parts -/

/-- A field of a word as a number. -/
theorem toNat_field (w : W32) (k n : Nat) : (w.extractLsb' k n).toNat = w.toNat / 2 ^ k % 2 ^ n := by
  rw [BitVec.extractLsb'_toNat, Nat.shiftRight_eq_div_pow]

/-- A bit of a word as a number. -/
theorem toNat_getLsbD (w : W32) (k : Nat) : (w.getLsbD k).toNat = w.toNat / 2 ^ k % 2 := by
  rw [BitVec.getLsbD, Nat.toNat_testBit]

theorem wordOfBytes_fields (w : W32) :
    wordOfBytes (w.extractLsb' 0 8) (w.extractLsb' 8 8) (w.extractLsb' 16 8) (w.extractLsb' 24 8) = w := by
  apply BitVec.eq_of_toNat_eq
  refine (toNat_app _ _).trans ?_
  simp only [toNat_app, toNat_field]
  omega

/-- A word of form T is its fields put together. -/
theorem packT_fields (w : W32) {c : BitVec 3} (hc : (w.extractLsb' 27 3).toNat = c.toNat) :
    packT (w.getLsbD 31) (w.getLsbD 30) c (w.extractLsb' 21 6) (w.extractLsb' 14 7) (w.extractLsb' 7 7)
      (w.extractLsb' 0 7) = w := by
  rw [toNat_field] at hc
  apply BitVec.eq_of_toNat_eq
  simp only [packT_toNat, toNat_getLsbD, toNat_field]
  omega

/-- A word of form I or M is its fields put together. -/
theorem packI_fields (w : W32) {c : BitVec 3} (hc : (w.extractLsb' 27 3).toNat = c.toNat) :
    packI (w.getLsbD 31) (w.getLsbD 30) c (w.extractLsb' 23 4) (w.extractLsb' 16 7) (w.extractLsb' 9 7)
      (w.extractLsb' 0 9) = w := by
  rw [toNat_field] at hc
  apply BitVec.eq_of_toNat_eq
  simp only [packI_toNat, toNat_getLsbD, toNat_field]
  omega

/-- A word of form B is its fields put together, where it has no once mark. -/
theorem packB_fields (w : W32) (hc : (w.extractLsb' 27 3).toNat = 6) (hu : w.getLsbD 30 = false) :
    packB (w.getLsbD 31) (w.extractLsb' 23 4) (w.extractLsb' 16 7) (w.extractLsb' 0 16) = w := by
  have once : w.toNat / 2 ^ 30 % 2 = 0 := by
    rw [← toNat_getLsbD, hu]
    rfl
  rw [toNat_field] at hc
  apply BitVec.eq_of_toNat_eq
  simp only [packB_toNat, toNat_getLsbD, toNat_field]
  omega

/-! ## Table words -/

theorem bytesOfWord_eq (w : W32) :
    bytesOfWord w = [w.extractLsb' 0 8, w.extractLsb' 8 8, w.extractLsb' 16 8, w.extractLsb' 24 8] := rfl

theorem decodeBytes_oneWord {w : W32} {i : Instr} {two : Bool} (h2 : hasSecond w = false) (hd : decode w 0 = .ok (i, two))
    (rest : List Byte) : decodeBytes (bytesOfWord w ++ rest) = .ok (i, rest) := by
  simp only [bytesOfWord_eq, List.cons_append, List.nil_append, decodeBytes, wordOfBytes_fields, h2, hd, Bool.false_eq_true,
    if_false]

theorem decodeBytes_twoWords {w w2 : W32} {i : Instr} {two : Bool} (h2 : hasSecond w = true)
    (hd : decode w w2 = .ok (i, two)) (rest : List Byte) :
    decodeBytes (bytesOfWord w ++ (bytesOfWord w2 ++ rest)) = .ok (i, rest) := by
  simp only [bytesOfWord_eq, List.cons_append, List.nil_append, decodeBytes, wordOfBytes_fields, h2, hd, if_true]

/-- The bits of a word that is an instruction are read as it. -/
theorem decodeTableWord_oneWord {w : W32} {i : Instr} {two : Bool} (h2 : hasSecond w = false)
    (hd : decode w 0 = .ok (i, two)) : decodeTableWord 32 w.toNat = some i := by
  have low : BitVec.ofNat 32 (w.toNat % 2 ^ 32) = w := by
    rw [Nat.mod_eq_of_lt w.isLt, BitVec.ofNat_toNat, BitVec.setWidth_eq]
  simp only [decodeTableWord, low, decodeBytes_oneWord h2 hd]

/-- The bits of two words that are an instruction, the second above the first, are read as it. -/
theorem decodeTableWord_twoWords {w w2 : W32} {i : Instr} {two : Bool} (h2 : hasSecond w = true)
    (hd : decode w w2 = .ok (i, two)) : decodeTableWord 64 (w.toNat + 2 ^ 32 * w2.toNat) = some i := by
  have hw := w.isLt
  have hw2 := w2.isLt
  have all : (w.toNat + 2 ^ 32 * w2.toNat) % 2 ^ 64 = w.toNat + 2 ^ 32 * w2.toNat := Nat.mod_eq_of_lt (by omega)
  have low : BitVec.ofNat 32 (w.toNat + 2 ^ 32 * w2.toNat) = w := by
    apply BitVec.eq_of_toNat_eq
    rw [BitVec.toNat_ofNat]
    omega
  have high : BitVec.ofNat 32 ((w.toNat + 2 ^ 32 * w2.toNat) / 2 ^ 32) = w2 := by
    apply BitVec.eq_of_toNat_eq
    rw [BitVec.toNat_ofNat]
    omega
  simp only [decodeTableWord, all, low, high]
  rw [← List.append_nil (bytesOfWord w2), decodeBytes_twoWords h2 hd]

theorem decodeTableWord_of_decode {w1 : W32} {w2 : Option W32} {i : Instr} {two : Bool} (h2 : hasSecond w1 = w2.isSome)
    (hd : decode w1 (w2.getD 0) = .ok (i, two)) :
    decodeTableWord (if w2.isSome then 64 else 32) (w1.toNat + 2 ^ 32 * (w2.getD 0).toNat) = some i := by
  cases w2 with
  | none => exact decodeTableWord_oneWord h2 hd
  | some w2 => exact decodeTableWord_twoWords h2 hd

/-! ## Decoding after encoding -/

/-- The round trip of every instruction, from that of each row of the opcode table; a step of the device has no word. -/
theorem roundTrip (i : Instr) : RoundTrip.Statement i := by
  cases i with
  | vadd => exact RoundTrip.vadd _ _ _ _ _
  | vsub => exact RoundTrip.vsub _ _ _ _ _
  | vmul => exact RoundTrip.vmul _ _ _ _ _
  | vmulhiI => exact RoundTrip.vmulhiI _ _ _ _ _
  | vmulhiN => exact RoundTrip.vmulhiN _ _ _ _ _
  | vmac => exact RoundTrip.vmac _ _ _ _ _
  | vand => exact RoundTrip.vand _ _ _ _ _
  | vor => exact RoundTrip.vor _ _ _ _ _
  | vxor => exact RoundTrip.vxor _ _ _ _ _
  | vandn => exact RoundTrip.vandn _ _ _ _ _
  | vshl => exact RoundTrip.vshl _ _ _ _ _
  | vshrN => exact RoundTrip.vshrN _ _ _ _ _
  | vshrI => exact RoundTrip.vshrI _ _ _ _ _
  | vrotl => exact RoundTrip.vrotl _ _ _ _ _
  | vfshl => exact RoundTrip.vfshl _ _ _ _ _
  | vfshr => exact RoundTrip.vfshr _ _ _ _ _
  | vminI => exact RoundTrip.vminI _ _ _ _ _
  | vmaxI => exact RoundTrip.vmaxI _ _ _ _ _
  | vminN => exact RoundTrip.vminN _ _ _ _ _
  | vmaxN => exact RoundTrip.vmaxN _ _ _ _ _
  | vpopc => exact RoundTrip.vpopc _ _ _ _
  | vclz => exact RoundTrip.vclz _ _ _ _
  | vbrev => exact RoundTrip.vbrev _ _ _ _
  | vceq => exact RoundTrip.vceq _ _ _ _
  | vcne => exact RoundTrip.vcne _ _ _ _
  | vcltI => exact RoundTrip.vcltI _ _ _ _
  | vcleI => exact RoundTrip.vcleI _ _ _ _
  | vcltN => exact RoundTrip.vcltN _ _ _ _
  | vcleN => exact RoundTrip.vcleN _ _ _ _
  | vsel => exact RoundTrip.vsel _ _ _ _ _
  | vmov => exact RoundTrip.vmov _ _ _ _
  | vaddW => exact RoundTrip.vaddW _ _ _ _ _
  | vsubW => exact RoundTrip.vsubW _ _ _ _ _
  | vshlW => exact RoundTrip.vshlW _ _ _ _ _
  | vshrWN => exact RoundTrip.vshrWN _ _ _ _ _
  | vshrWI => exact RoundTrip.vshrWI _ _ _ _ _
  | vceqW => exact RoundTrip.vceqW _ _ _ _
  | vcltWI => exact RoundTrip.vcltWI _ _ _ _
  | vcltWN => exact RoundTrip.vcltWN _ _ _ _
  | vmulW => exact RoundTrip.vmulW _ _ _ _ _
  | vtid => exact RoundTrip.vtid _ _
  | vxsh => exact RoundTrip.vxsh _ _ _ _
  | vxshu => exact RoundTrip.vxshu _ _ _ _
  | vscanAdd => exact RoundTrip.vscanAdd _ _ _
  | vredAdd => exact RoundTrip.vredAdd _ _ _
  | vmatchr => exact RoundTrip.vmatchr _ _ _ _
  | vredmaxiI => exact RoundTrip.vredmaxiI _ _ _
  | vredminiI => exact RoundTrip.vredminiI _ _ _
  | vaddmod => exact RoundTrip.vaddmod _ _ _ _ _
  | vsubmod => exact RoundTrip.vsubmod _ _ _ _ _
  | vmulmod => exact RoundTrip.vmulmod _ _ _ _ _
  | vmacmod => exact RoundTrip.vmacmod _ _ _ _ _
  | vshape => exact RoundTrip.vshape _ _ _
  | vgen => exact RoundTrip.vgen _ _ _
  | vlop3 => exact RoundTrip.vlop3 _ _ _ _ _ _ _
  | mqld => exact RoundTrip.mqld _ _ _
  | vfadd => exact RoundTrip.vfadd _ _ _ _ _
  | vfsub => exact RoundTrip.vfsub _ _ _ _ _
  | vfmul => exact RoundTrip.vfmul _ _ _ _ _
  | vffma => exact RoundTrip.vffma _ _ _ _ _
  | vfmin => exact RoundTrip.vfmin _ _ _ _ _
  | vfmax => exact RoundTrip.vfmax _ _ _ _ _
  | vfminn => exact RoundTrip.vfminn _ _ _ _ _
  | vfmaxn => exact RoundTrip.vfmaxn _ _ _ _ _
  | vfabs => exact RoundTrip.vfabs _ _ _ _
  | vfneg => exact RoundTrip.vfneg _ _ _ _
  | vfceq => exact RoundTrip.vfceq _ _ _ _
  | vfclt => exact RoundTrip.vfclt _ _ _ _
  | vfcle => exact RoundTrip.vfcle _ _ _ _
  | vfcun => exact RoundTrip.vfcun _ _ _ _
  | vfrcp => exact RoundTrip.vfrcp _ _ _ _
  | vfrsq => exact RoundTrip.vfrsq _ _ _ _
  | vfsqrt => exact RoundTrip.vfsqrt _ _ _ _
  | vfdiv => exact RoundTrip.vfdiv _ _ _ _ _
  | vfexp2 => exact RoundTrip.vfexp2 _ _ _ _
  | vflog2 => exact RoundTrip.vflog2 _ _ _ _
  | vfaddX => exact RoundTrip.vfaddX _ _ _ _ _
  | vfsubX => exact RoundTrip.vfsubX _ _ _ _ _
  | vfmulX => exact RoundTrip.vfmulX _ _ _ _ _
  | vdwadd => exact RoundTrip.vdwadd _ _ _ _ _
  | vdwsub => exact RoundTrip.vdwsub _ _ _ _ _
  | vdwmul => exact RoundTrip.vdwmul _ _ _ _ _
  | vdwmulf => exact RoundTrip.vdwmulf _ _ _ _ _
  | vdwren => exact RoundTrip.vdwren _ _ _ _
  | vfredAdd => exact RoundTrip.vfredAdd _ _ _
  | vfredX => exact RoundTrip.vfredX _ _ _
  | vfredmaxi => exact RoundTrip.vfredmaxi _ _ _
  | vfredmini => exact RoundTrip.vfredmini _ _ _
  | vfscanAdd => exact RoundTrip.vfscanAdd _ _ _
  | vhaddBf => exact RoundTrip.vhaddBf _ _ _ _ _
  | vhmulBf => exact RoundTrip.vhmulBf _ _ _ _ _
  | vhfmaBf => exact RoundTrip.vhfmaBf _ _ _ _ _
  | vhaddH => exact RoundTrip.vhaddH _ _ _ _ _
  | vhmulH => exact RoundTrip.vhmulH _ _ _ _ _
  | vhfmaH => exact RoundTrip.vhfmaH _ _ _ _ _
  | vhdotBf => exact RoundTrip.vhdotBf _ _ _ _ _
  | vcvt => exact RoundTrip.vcvt _ _ _ _ _
  | vfclass => exact RoundTrip.vfclass _ _ _ _
  | vfscale => exact RoundTrip.vfscale _ _ _ _ _
  | vsaddS16 => exact RoundTrip.vsaddS16 _ _ _ _
  | vssubS16 => exact RoundTrip.vssubS16 _ _ _ _
  | vsaddS32 => exact RoundTrip.vsaddS32 _ _ _ _
  | vssubS32 => exact RoundTrip.vssubS32 _ _ _ _
  | vsaddpS16 => exact RoundTrip.vsaddpS16 _ _ _ _
  | vsaddpS32 => exact RoundTrip.vsaddpS32 _ _ _ _
  | vsmulpS16 => exact RoundTrip.vsmulpS16 _ _ _ _
  | vsmulpS32 => exact RoundTrip.vsmulpS32 _ _ _ _
  | vsmulS16 => exact RoundTrip.vsmulS16 _ _ _ _
  | vsmulS32 => exact RoundTrip.vsmulS32 _ _ _ _
  | vstruncS16 => exact RoundTrip.vstruncS16 _ _ _ _
  | vstruncS32 => exact RoundTrip.vstruncS32 _ _ _ _
  | vsltzS16 => exact RoundTrip.vsltzS16 _ _ _
  | vsltzS32 => exact RoundTrip.vsltzS32 _ _ _
  | vsb2aS16 => exact RoundTrip.vsb2aS16 _ _ _
  | vsb2aS32 => exact RoundTrip.vsb2aS32 _ _ _
  | vsxorB => exact RoundTrip.vsxorB _ _ _ _
  | vsandB => exact RoundTrip.vsandB _ _ _ _
  | vsopenS16 => exact RoundTrip.vsopenS16 _ _ _
  | vsopenS32 => exact RoundTrip.vsopenS32 _ _ _
  | vsredS16 => exact RoundTrip.vsredS16 _ _ _
  | vsredS32 => exact RoundTrip.vsredS32 _ _ _
  | cbind => exact RoundTrip.cbind _ _ _
  | csend => exact RoundTrip.csend _ _ _ _
  | crecv => exact RoundTrip.crecv _ _ _ _
  | cchoose => exact RoundTrip.cchoose _ _ _ _
  | cdeleg => exact RoundTrip.cdeleg _ _ _
  | cstate => exact RoundTrip.cstate _ _ _
  | cabort => exact RoundTrip.cabort _ _
  | tlevel => exact RoundTrip.tlevel _ _ _
  | tfillSend => exact RoundTrip.tfillSend _ _ _ _ _ _
  | tfillAccept => exact RoundTrip.tfillAccept _ _ _ _ _
  | tburn => exact RoundTrip.tburn _ _ _ _
  | xopen => exact RoundTrip.xopen _ _ _ _ _ _ _
  | sadd => exact RoundTrip.sadd _ _ _ _
  | ssub => exact RoundTrip.ssub _ _ _ _
  | smul => exact RoundTrip.smul _ _ _ _
  | smulhiN => exact RoundTrip.smulhiN _ _ _ _
  | sand => exact RoundTrip.sand _ _ _ _
  | sor => exact RoundTrip.sor _ _ _ _
  | sxor => exact RoundTrip.sxor _ _ _ _
  | sandn => exact RoundTrip.sandn _ _ _ _
  | sshl => exact RoundTrip.sshl _ _ _ _
  | sshrN => exact RoundTrip.sshrN _ _ _ _
  | sshrI => exact RoundTrip.sshrI _ _ _ _
  | sceq => exact RoundTrip.sceq _ _ _ _
  | scltI => exact RoundTrip.scltI _ _ _ _
  | scltN => exact RoundTrip.scltN _ _ _ _
  | sminI => exact RoundTrip.sminI _ _ _ _
  | smaxI => exact RoundTrip.smaxI _ _ _ _
  | smov => exact RoundTrip.smov _ _ _
  | spopc => exact RoundTrip.spopc _ _ _
  | sclz => exact RoundTrip.sclz _ _ _
  | sctz => exact RoundTrip.sctz _ _ _
  | sfirst => exact RoundTrip.sfirst _ _ _
  | vaddi => exact RoundTrip.vaddi _ _ _ _ _
  | vmuli => exact RoundTrip.vmuli _ _ _ _ _
  | vandi => exact RoundTrip.vandi _ _ _ _ _
  | vshli => exact RoundTrip.vshli _ _ _ _ _
  | vshriN => exact RoundTrip.vshriN _ _ _ _ _
  | vshriI => exact RoundTrip.vshriI _ _ _ _ _
  | vceqi => exact RoundTrip.vceqi _ _ _ _
  | vcltiI => exact RoundTrip.vcltiI _ _ _ _
  | saddi => exact RoundTrip.saddi _ _ _ _
  | sandi => exact RoundTrip.sandi _ _ _ _
  | sori => exact RoundTrip.sori _ _ _ _
  | sshli => exact RoundTrip.sshli _ _ _ _
  | sshriN => exact RoundTrip.sshriN _ _ _ _
  | sceqi => exact RoundTrip.sceqi _ _ _ _
  | scltiI => exact RoundTrip.scltiI _ _ _ _
  | smovi => exact RoundTrip.smovi _ _ _
  | sli => exact RoundTrip.sli _ _ _
  | vli => exact RoundTrip.vli _ _ _ _
  | ldg => exact RoundTrip.ldg _ _ _ _ _
  | stg => exact RoundTrip.stg _ _ _ _ _
  | ldgW => exact RoundTrip.ldgW _ _ _ _ _
  | stgW => exact RoundTrip.stgW _ _ _ _ _
  | ldgQ => exact RoundTrip.ldgQ _ _ _ _ _
  | stgQ => exact RoundTrip.stgQ _ _ _ _ _
  | lds => exact RoundTrip.lds _ _ _ _ _
  | sts => exact RoundTrip.sts _ _ _ _ _
  | ldsW => exact RoundTrip.ldsW _ _ _ _ _
  | stsW => exact RoundTrip.stsW _ _ _ _ _
  | ldsQ => exact RoundTrip.ldsQ _ _ _ _ _
  | stsQ => exact RoundTrip.stsQ _ _ _ _ _
  | sld => exact RoundTrip.sld _ _ _ _
  | sst => exact RoundTrip.sst _ _ _ _
  | slds => exact RoundTrip.slds _ _ _ _
  | ssts => exact RoundTrip.ssts _ _ _ _
  | ldgX => exact RoundTrip.ldgX _ _ _ _ _ _ _ _
  | stgX => exact RoundTrip.stgX _ _ _ _ _ _ _
  | ldsX => exact RoundTrip.ldsX _ _ _ _ _ _ _ _
  | stsX => exact RoundTrip.stsX _ _ _ _ _ _ _
  | ldd => exact RoundTrip.ldd _ _ _ _ _
  | std => exact RoundTrip.std _ _ _ _ _
  | atom => exact RoundTrip.atom _ _ _ _ _ _ _ _ _ _ _
  | atoms => exact RoundTrip.atoms _ _ _ _ _ _ _ _ _ _ _
  | atomd => exact RoundTrip.atomd _ _ _ _ _ _ _ _ _ _ _
  | fence => exact RoundTrip.fence _ _ _ _
  | xsend => exact RoundTrip.xsend _ _ _ _ _ _ _ _ _
  | xget => exact RoundTrip.xget _ _ _ _ _ _
  | xred => exact RoundTrip.xred _ _ _ _ _ _ _ _ _
  | xapp => exact RoundTrip.xapp _ _ _ _ _ _ _
  | mmloop => exact RoundTrip.mmloop _ _ _ _ _ _ _ _ _ _
  | cpy => exact RoundTrip.cpy _ _ _ _ _ _ _
  | cunpack => exact RoundTrip.cunpack _ _ _ _ _ _ _ _ _
  | cbinit => exact RoundTrip.cbinit _ _ _ _
  | cbpush => exact RoundTrip.cbpush _ _ _ _ _
  | cbpop => exact RoundTrip.cbpop _ _ _
  | cbfree => exact RoundTrip.cbfree _ _
  | abarInit => exact RoundTrip.abarInit _ _ _
  | abarArrive => exact RoundTrip.abarArrive _ _
  | abarWait => exact RoundTrip.abarWait _ _ _
  | launch => exact RoundTrip.launch _ _ _
  | evcfg => exact RoundTrip.evcfg _ _ _ _ _
  | br => exact RoundTrip.br _ _
  | bz => exact RoundTrip.bz _ _ _
  | bnz => exact RoundTrip.bnz _ _ _
  | bmz => exact RoundTrip.bmz _ _ _
  | bmnz => exact RoundTrip.bmnz _ _ _
  | call => exact RoundTrip.call _ _ _
  | jr => exact RoundTrip.jr _ _
  | loop => exact RoundTrip.loop _ _ _
  | trap => exact RoundTrip.trap _ _
  | wbase => exact RoundTrip.wbase _ _
  | bar => exact RoundTrip.bar _ _
  | exit => exact RoundTrip.exit _
  | yield => exact RoundTrip.yield _
  | sys => exact RoundTrip.sys _ _ _
  | rtrap => exact RoundTrip.rtrap _
  | _ => rfl

/-- Settles O57: the round trip of the instruction, and a table word holds the bits of its words. -/
theorem decodeAfterEncode : Obligations.DecodeAfterEncode := by
  intro i hw hf
  have trip := roundTrip i
  rw [RoundTrip.Statement, if_pos hw] at trip
  obtain ⟨w1, w2, he, ht, h2, hd⟩ := trip hf
  rw [← ht] at h2 hd
  exact ⟨w1, w2, he, hd, h2, decodeTableWord_of_decode h2 (hd 0)⟩

end Sys2Proof.Laws
end

section
/-!
No bit of a word is lost: what each row of the decoder reads, and what it refuses unless it is 0, is all of the word.
-/

namespace Sys2Proof.Laws

open Sys2Proof

/-! ## What decoding gives -/

/-- What decoding gives is no instruction, or one of a group, of legal form, whose words are `w1` and, where it
has two, `w2`. -/
def ReadBack (w1 w2 : W32) (r : Decoded) : Prop :=
  ∀ (i : Instr) (two : Bool), r = .ok (i, two) →
    i.isWord = true ∧ i.form = true ∧ encode i = some (w1, if two then some w2 else none)

section ReadBack

variable {w1 w2 : W32} {i : Instr} {r : Decoded}

@[simp] theorem readBack_error (x : Reject) : ReadBack w1 w2 (.error x) := fun _ _ h => nomatch h

theorem readBack_ok {two : Bool} : ReadBack w1 w2 (.ok (i, two)) ↔
    i.isWord = true ∧ i.form = true ∧ encode i = some (w1, if two then some w2 else none) := by
  constructor
  · exact fun h => h i two rfl
  · rintro h _ _ ⟨⟩
    exact h

/-- Of a check that decoding makes, only what passes it counts. -/
theorem readBack_ite {c : Prop} [Decidable c] (x : Reject) :
    ReadBack w1 w2 (if c then r else .error x) ↔ (c → ReadBack w1 w2 r) := by
  by_cases h : c <;> simp [h]

@[simp] theorem readBack_one :
    ReadBack w1 w2 (one i) ↔ (i.form = true → i.isWord = true ∧ encode i = some (w1, none)) := by
  rw [one, readBack_ite, readBack_ok]
  exact ⟨fun h hf => ⟨(h hf).1, (h hf).2.2⟩, fun h hf => ⟨(h hf).1, hf, (h hf).2⟩⟩

@[simp] theorem readBack_two :
    ReadBack w1 w2 (two i) ↔ (i.form = true → i.isWord = true ∧ encode i = some (w1, some w2)) := by
  rw [two, readBack_ite, readBack_ok]
  exact ⟨fun h hf => ⟨(h hf).1, (h hf).2.2⟩, fun h hf => ⟨(h hf).1, hf, (h hf).2⟩⟩

@[simp] theorem readBack_noOnce (u : Bool) : ReadBack w1 w2 (noOnce u r) ↔ (u = false → ReadBack w1 w2 r) := by
  cases u <;> simp [noOnce]

@[simp] theorem readBack_zf (f : Fld) : ReadBack w1 w2 (zf f r) ↔ (f = 0 → ReadBack w1 w2 r) := by
  rw [zf, readBack_ite, beq_iff_eq]

@[simp] theorem readBack_zb (n : Nat) : ReadBack w1 w2 (zb n r) ↔ (n = 0 → ReadBack w1 w2 r) := by
  rw [zb, readBack_ite, beq_iff_eq]

end ReadBack

/-! ## The rows of each form -/

/-- A field is the literal of its number. -/
theorem exists_eq_ofNat {n : Nat} (x : BitVec n) : ∃ k, x.toNat = k ∧ x = BitVec.ofNat n k :=
  ⟨_, rfl, by simp⟩

/-- Words of form T: a row refuses the once mark and the fields that it does not use unless they are 0, as `encode` writes them,
and every other field is one of its instruction. -/
theorem readBack_formT (e u : Bool) (op : BitVec 6) (d a b : Fld) (w2 : W32) :
    ReadBack (packT e u 0 op d a b) w2 (decodeC0 e u op d a b) ∧
    ReadBack (packT e u 1 op d a b) w2 (decodeC1 e u op d a b) ∧
    ReadBack (packT e u 2 op d a b) w2 (decodeC2 e u op d a b) ∧
    ReadBack (packT e u 3 op d a b) w2 (decodeC3 e u op d a b) := by
  obtain ⟨k, hk, rfl⟩ := exists_eq_ofNat op
  simp only [decodeC0, decodeC1, decodeC2, decodeC3, hk]
  refine ⟨?_, ?_, ?_, ?_⟩ <;> split
  all_goals simp only [readBack_one, readBack_noOnce, readBack_zf, readBack_error]
  all_goals
    intros
    subst_vars
    exact ⟨rfl, rfl⟩

/-- Words of form I or M, in the same way. -/
theorem readBack_formI (e u : Bool) (op : BitVec 4) (d a : Fld) (i : BitVec 9) (w2 : W32) :
    ReadBack (packI e u 4 op d a i) w2 (decodeC4 e u op d a i) ∧
    ReadBack (packI e u 5 op d a i) w2 (decodeC5 e u op d a i) := by
  obtain ⟨k, hk, rfl⟩ := exists_eq_ofNat op
  simp only [decodeC4, decodeC5, hk]
  refine ⟨?_, ?_⟩ <;> split
  all_goals simp only [readBack_one, readBack_noOnce, readBack_zf, readBack_error]
  all_goals
    intros
    subst_vars
    exact ⟨rfl, rfl⟩

/-- An immediate narrower than the offset of a branch, where the bits of the offset above it are 0. -/
theorem setWidth_setWidth_of_div {t : BitVec 16} (n : Nat) (hn : n ≤ 16) (h : t.toNat / 2 ^ n = 0) :
    (t.setWidth n).setWidth 16 = t := by
  apply BitVec.eq_of_toNat_eq
  have small : t.toNat < 2 ^ n := (Nat.div_eq_zero_iff_lt (Nat.two_pow_pos n)).mp h
  rw [BitVec.toNat_setWidth_of_le hn, BitVec.toNat_setWidth, Nat.mod_eq_of_lt small]

theorem eq_zero_of_div_one {t : BitVec 16} (h : t.toNat / 1 = 0) : t = 0 :=
  BitVec.eq_of_toNat_eq (t.toNat.div_one.symm.trans h)

/-- The offset of a branch is told by its value. -/
theorem encode_offset {i : Instr} {e : Bool} {op : BitVec 4} {c : Fld} {v t : BitVec 16}
    (he : encode i = some (packB e op c v, none)) (hv : v = t) : encode i = some (packB e op c t, none) := hv ▸ he

/-- Words of form B, which have no once mark: an offset is kept, a narrower immediate has zeros above it (R69). -/
theorem readBack_formB (e u : Bool) (op : BitVec 4) (c : Fld) (t : BitVec 16) (w1 w2 : W32)
    (h : u = false → packB e op c t = w1) : ReadBack w1 w2 (decodeC6 e u op c t) := by
  obtain ⟨k, hk, rfl⟩ := exists_eq_ofNat op
  unfold decodeC6
  rw [hk]
  split
  all_goals simp only [readBack_one, readBack_noOnce, readBack_zf, readBack_zb, readBack_error]
  all_goals
    intro once
    rw [← h once]
  case h_1 =>
    rintro rfl -
    exact ⟨rfl, rfl⟩
  case h_2 | h_3 | h_4 | h_5 | h_6 | h_8 => exact fun _ => ⟨rfl, rfl⟩
  case h_7 => exact fun none _ => ⟨rfl, encode_offset rfl (eq_zero_of_div_one none).symm⟩
  case h_12 | h_13 | h_15 =>
    rintro rfl none -
    exact ⟨rfl, encode_offset rfl (eq_zero_of_div_one none).symm⟩
  case h_9 =>
    rintro rfl high -
    exact ⟨rfl, encode_offset rfl (setWidth_setWidth_of_div 8 (by decide) high)⟩
  case h_10 =>
    rintro rfl high -
    exact ⟨rfl, encode_offset rfl (setWidth_setWidth_of_div 5 (by decide) high)⟩
  case h_11 =>
    rintro rfl high -
    exact ⟨rfl, encode_offset rfl (setWidth_setWidth_of_div 4 (by decide) high)⟩
  case h_14 => exact fun high _ => ⟨rfl, encode_offset rfl (setWidth_setWidth_of_div 8 (by decide) high)⟩

/-- The second word is told by its number. -/
theorem encode_second {i : Instr} {w v w2 : W32} (he : encode i = some (w, some v)) (hv : v.toNat = w2.toNat) :
    encode i = some (w, some w2) := by
  rw [he, BitVec.eq_of_toNat_eq hv]

/-- Words of form X: the fields of the second word, and the bits that are 0, are all of its bits. The rows of `abar` and `tfill`
(0x19 and 0x1D) split once more, by the field that tells their instructions apart. -/
theorem readBack_formX (e u : Bool) (op : BitVec 6) (d a b : Fld) (w2 : W32) :
    ReadBack (packT e u 7 op d a b) w2 (decodeC7 e u op d a b w2) := by
  obtain ⟨k, hk, rfl⟩ := exists_eq_ofNat op
  unfold decodeC7
  rw [hk]
  split
  case h_2 | h_3 =>
    simp only [readBack_two, readBack_noOnce, readBack_zf]
    intros
    subst_vars
    exact ⟨rfl, rfl⟩
  case' h_25 =>
    generalize sub : (w2.extractLsb' 5 2).toNat = n
    rw [toNat_field] at sub
    split
  case' h_29 =>
    have kind := toNat_getLsbD w2 11
    cases accepts : w2.getLsbD 11
    all_goals
      simp only [accepts, Bool.toNat_false, Bool.toNat_true] at kind
      simp only [Bool.false_eq_true, if_false, if_true]
  all_goals simp only [readBack_two, readBack_noOnce, readBack_zf, readBack_zb, readBack_error, toNat_field]
  all_goals
    intros
    subst_vars
    refine ⟨rfl, encode_second rfl ((toNat_app _ _).trans ?_)⟩
    simp only [toNat_app, BitVec.toNat_ofBool, BitVec.toNat_ofNat, toNat_field, toNat_getLsbD]
    omega

/-! ## The class of a word -/

theorem readBack_of_packT {w1 w2 : W32} {r : Decoded} (c : BitVec 3) (hc : (w1.extractLsb' 27 3).toNat = c.toNat)
    (h : ReadBack (packT (w1.getLsbD 31) (w1.getLsbD 30) c (w1.extractLsb' 21 6) (w1.extractLsb' 14 7)
      (w1.extractLsb' 7 7) (w1.extractLsb' 0 7)) w2 r) : ReadBack w1 w2 r := by
  rwa [packT_fields w1 hc] at h

theorem readBack_of_packI {w1 w2 : W32} {r : Decoded} (c : BitVec 3) (hc : (w1.extractLsb' 27 3).toNat = c.toNat)
    (h : ReadBack (packI (w1.getLsbD 31) (w1.getLsbD 30) c (w1.extractLsb' 23 4) (w1.extractLsb' 16 7)
      (w1.extractLsb' 9 7) (w1.extractLsb' 0 9)) w2 r) : ReadBack w1 w2 r := by
  rwa [packI_fields w1 hc] at h

theorem eq_seven_of_ne {k : Nat} (h : k < 2 ^ 3) (h0 : k ≠ 0) (h1 : k ≠ 1) (h2 : k ≠ 2) (h3 : k ≠ 3) (h4 : k ≠ 4)
    (h5 : k ≠ 5) (h6 : k ≠ 6) : k = 7 := by omega

/-- By the class of the word, whose form says how its fields lie in it (R62). -/
theorem readBack_decode (w1 w2 : W32) : ReadBack w1 w2 (decode w1 w2) := by
  obtain ⟨t0, t1, t2, t3⟩ := readBack_formT (w1.getLsbD 31) (w1.getLsbD 30) (w1.extractLsb' 21 6) (w1.extractLsb' 14 7)
    (w1.extractLsb' 7 7) (w1.extractLsb' 0 7) w2
  obtain ⟨i4, i5⟩ := readBack_formI (w1.getLsbD 31) (w1.getLsbD 30) (w1.extractLsb' 23 4) (w1.extractLsb' 16 7)
    (w1.extractLsb' 9 7) (w1.extractLsb' 0 9) w2
  unfold decode
  split
  · exact readBack_error _
  · dsimp only
    split
    next cls => exact readBack_of_packT 0 cls t0
    next cls => exact readBack_of_packT 1 cls t1
    next cls => exact readBack_of_packT 2 cls t2
    next cls => exact readBack_of_packT 3 cls t3
    next cls => exact readBack_of_packI 4 cls i4
    next cls => exact readBack_of_packI 5 cls i5
    next cls => exact readBack_formB _ _ _ _ _ _ _ (packB_fields w1 cls)
    next n0 n1 n2 n3 n4 n5 n6 =>
      have cls := eq_seven_of_ne (w1.extractLsb' 27 3).isLt n0 n1 n2 n3 n4 n5 n6
      exact readBack_of_packT 7 cls (readBack_formX _ _ _ _ _ _ _)

/-- Settles O58: each row of the decoder keeps every bit of its form, or lets it be 0 only, and `encode` writes the same row. -/
theorem encodeAfterDecode : Obligations.EncodeAfterDecode :=
  fun w1 w2 i two h => readBack_decode w1 w2 i two h

/-- Settles O55: the decoder run on each of the words. -/
theorem wordsOfTheManualDecode : Obligations.WordsOfTheManualDecode :=
  ⟨rfl, rfl, rfl, rfl, rfl, rfl, rfl, rfl, rfl, rfl, rfl, rfl, rfl, rfl, rfl, rfl, rfl, rfl⟩

end Sys2Proof.Laws
end

section
/-!
Global accesses, by the forms of their instructions.
-/

namespace Sys2Proof.Machine

open Sys2Proof Sys2Proof.Claims

/-! ## What a global access captures -/

section Captured

variable (g : Group) (u : Bool) (d a b : Fld)

theorem loadG_eq (off : W64) (size n : Nat) (ext : Ext) :
    g.loadG u d a off size n ext = loadOp g u .global size n ext d (gaddr g a off) := by
  rw [Group.loadG, g.accessing_eq]
  rfl

theorem storeG_eq (off : W64) (size n : Nat) (hn : n = 1 ∨ n = 2 ∨ n = 4) :
    g.storeG u d a off size n = storeOp g u .global size n d (gaddr g a off) := by
  rw [Group.storeG, Group.storeItems, g.accessing_eq, storeOp]
  simp only [ofNat_wide_stored g d _ n hn]
  rfl

theorem loadG_scaled {k : Nat} (f : BitVec k) (m size n : Nat) (ext : Ext) :
    g.loadG u d a (scaled f m) size n ext = loadOp g u .global size n ext d (gaddr g a (off64 f m)) := by
  rw [loadG_eq, scaled_eq]

theorem storeG_scaled {k : Nat} (f : BitVec k) (m size n : Nat) (hn : n = 1 ∨ n = 2 ∨ n = 4) :
    g.storeG u d a (scaled f m) size n = storeOp g u .global size n d (gaddr g a (off64 f m)) := by
  rw [storeG_eq g u d a _ size n hn, scaled_eq]

theorem loadG_narrow (s : State) (o : BitVec 16) (sign half : Bool) :
    g.loadG u d a (g.narrowOff s b o) (narrowSize half) 1 (narrowExt sign) =
      loadOp g u .global (Claims.narrow half) 1 (extend sign) d (gaddr g a (g.readS (s.cyc g) b + off64 o 1)) := by
  rw [narrowOff_eq, loadG_eq]
  rfl

theorem storeG_narrow (s : State) (o : BitVec 16) (half : Bool) :
    g.storeG u d a (g.narrowOff s b o) (narrowSize half) 1 =
      storeOp g u .global (Claims.narrow half) 1 d (gaddr g a (g.readS (s.cyc g) b + off64 o 1)) := by
  rw [narrowOff_eq, storeG_eq (hn := by decide)]
  rfl

theorem atomOp_global (o : BitVec 11) (sc : BitVec 3) (ord : BitVec 2) (ret w : Bool) (op : BitVec 4) :
    g.atomOp .global u d b (g.globalAddr a (scaled o (atomSize w))) sc ord ret w op =
      atomicOp g u .global d b (gaddr g a (off64 o (width w))) sc ord ret w op := by
  rw [atomOp_eq, scaled_eq]
  rfl

end Captured

/-! ## The forms of global accesses -/

section Forms

variable {i : Instr} {s : State} {g : Group}

/-- A body that hands its operation on wherever a thread is active, and does nothing for one cycle elsewhere (R12). -/
theorem hands_or_gives_of_body {op : DOp} {cost : Nat} {act : State → State} {body : Group → State → Done}
    (hx : exec i s = issue i s body) (idle : g.active = 0 → body g s = .seq s g 1)
    (busy : g.active ≠ 0 → body g s = deferred i g s op cost act) :
    ((∃ t, Active g t) → Hands i s g op cost act) ∧ ((¬∃ t, Active g t) → Gives i s g g 1) :=
  ⟨fun ha => handsIn_of_deferred hx (busy fun h => g.active_eq_zero_iff.mp h ha),
    fun hn => gives_of_issue hx (idle (g.active_eq_zero_iff.mpr hn))⟩

theorem global_of_globalAccess {u returns : Bool} {strided : Group → Bool} {op : Group → DOp} {dop : DOp}
    (hx : exec i s = globalAccess i s u returns strided op) (hop : op g = dop) :
    Global i s g u (strided g) returns dop := by
  subst hop
  refine hands_or_gives_of_body hx (fun idle => ?_) (fun busy => ?_)
  · have one := cycles_of_inactive u (g.active_eq_zero_iff.mp idle)
    simp only [if_pos idle, Group.vcost_eq, one]
  · simp only [if_neg busy, Group.vcost_eq]
    rfl

end Forms

/-- `sld` runs once for the group, unless no thread is active (R12, R151). -/
theorem hands_or_gives_sld (s : State) (g : Group) (e : Bool) (d a : Fld) (f : BitVec 9) :
    let op := DOp.sload (g.readS (s.cyc g) a + off64 f 8) d
    ((∃ t, Active g t) →
      Hands (.sld e d a f) s g op 1 fun w => w.access g.uid (g.runIdx + 32 * g.tag) false true op) ∧
    ((¬∃ t, Active g t) → Gives (.sld e d a f) s g g 1) := by
  rw [← scaled_eq]
  exact hands_or_gives_of_body (Laws.exec_sld ..) (fun idle => if_pos idle) (fun busy => if_neg busy)

/-- `sst` acts whatever the mask is. -/
theorem hands_sst (s : State) (g : Group) (e : Bool) (d a : Fld) (f : BitVec 9) :
    let op := DOp.sstore (g.readS (s.cyc g) a + off64 f 8) (g.readS (s.cyc g) d)
    Hands (.sst e d a f) s g op 1 fun w => w.access g.uid (g.runIdx + 32 * g.tag) false false op := by
  rw [← scaled_eq]
  exact handsIn_of_deferred (Laws.exec_sst ..) rfl

/-- Settles O22: each instruction is the form of its accesses, with the operation that it captures. -/
theorem globalAccessInstructionsIssue : Obligations.GlobalAccessInstructionsIssue := by
  intro s g e u d a b f o f11 sign half ret w sc ord op st r ld sto
  obtain ⟨sldHands, sldIdle⟩ := hands_or_gives_sld s g e d a f
  exact ⟨global_of_globalAccess (Laws.exec_ldg ..) (loadG_scaled ..),
    global_of_globalAccess (Laws.exec_stg ..) (storeG_scaled (hn := by decide) ..),
    global_of_globalAccess (Laws.exec_ldgW ..) (loadG_scaled ..),
    global_of_globalAccess (Laws.exec_stgW ..) (storeG_scaled (hn := by decide) ..),
    global_of_globalAccess (Laws.exec_ldgQ ..) (loadG_scaled ..),
    global_of_globalAccess (Laws.exec_stgQ ..) (storeG_scaled (hn := by decide) ..),
    global_of_globalAccess (Laws.exec_ldgX ..) (loadG_narrow ..),
    global_of_globalAccess (Laws.exec_stgX ..) (storeG_narrow ..),
    global_of_globalAccess (Laws.exec_atom ..) (atomOp_global ..), sldHands, sldIdle, hands_sst s g e d a f⟩

end Sys2Proof.Machine
end

section
/-!
Scalar results and branches: the values of Table 1 of R75 in the words of the spec, and how a branch ends its run.
-/

namespace Sys2Proof.Machine

open Sys2Proof Sys2Proof.Claims

/-! ## Values of the scalar instructions -/

theorem shl64_eq (a n : W64) : shl64 a n = a <<< n.toNat := by
  unfold shl64
  split
  · rfl
  · exact (BitVec.shiftLeft_eq_zero (by omega)).symm

theorem shr64_eq (a n : W64) : shr64 a n = a >>> n.toNat := by
  unfold shr64
  split
  · rfl
  · exact (BitVec.ushiftRight_eq_zero (by omega)).symm

/-- A sign fill by 64 or more leaves the sign in every bit. -/
theorem sar64_eq (a n : W64) : sar64 a n = a.sshiftRight n.toNat := by
  unfold sar64
  split
  · rfl
  next far =>
    cases sign : a.msb
    · rw [BitVec.sshiftRight_eq_of_msb_false sign, BitVec.ushiftRight_eq_zero (by omega)]
      rfl
    · rw [BitVec.sshiftRight_eq_of_msb_true sign, BitVec.ushiftRight_eq_zero (by omega)]
      rfl

theorem min64_eq (a b : W64) : (if b.slt a then b else a) = if a.toInt ≤ b.toInt then a else b := by
  simp only [BitVec.slt_eq_decide, decide_eq_true_eq, ← not_le, ite_not]

/-- Of two equal operands either one is the greater. -/
theorem max64_eq (a b : W64) : (if a.slt b then b else a) = if a.toInt ≤ b.toInt then b else a := by
  simp only [BitVec.slt_eq_decide, decide_eq_true_eq]
  obtain h | h | h := lt_trichotomy a.toInt b.toInt
  · rw [if_pos h, if_pos h.le]
  · rw [BitVec.eq_of_toInt_eq h, ite_self, ite_self]
  · rw [if_neg h.not_gt, if_neg h.not_ge]

/-! ## The scalar instructions -/

theorem scalarRegisterResults : ScalarRegisterResults := by
  intro s g e d a b r
  exact ⟨gives_of_scalarInstr (Laws.exec_sadd ..) rfl, gives_of_scalarInstr (Laws.exec_ssub ..) rfl,
    gives_of_scalarInstr (Laws.exec_smul ..) rfl, gives_of_scalarInstr (Laws.exec_smulhiN ..) rfl,
    gives_of_scalarInstr (Laws.exec_sand ..) rfl, gives_of_scalarInstr (Laws.exec_sor ..) rfl,
    gives_of_scalarInstr (Laws.exec_sxor ..) rfl, gives_of_scalarInstr (Laws.exec_sandn ..) rfl,
    gives_of_scalarInstr (Laws.exec_sshl ..) (shl64_eq ..), gives_of_scalarInstr (Laws.exec_sshrN ..) (shr64_eq ..),
    gives_of_scalarInstr (Laws.exec_sshrI ..) (sar64_eq ..), gives_of_scalarInstr (Laws.exec_sceq ..) rfl,
    gives_of_scalarInstr (Laws.exec_scltI ..) (congrArg ones BitVec.slt_eq_decide),
    gives_of_scalarInstr (Laws.exec_scltN ..) (congrArg ones BitVec.ult_eq_decide),
    gives_of_scalarInstr (Laws.exec_sminI ..) (min64_eq ..), gives_of_scalarInstr (Laws.exec_smaxI ..) (max64_eq ..),
    gives_of_scalarInstr (Laws.exec_smov ..) rfl,
    ⟨_, isPopcount_popc 64 _, gives_of_scalarInstr (Laws.exec_spopc ..) rfl⟩,
    ⟨_, isClz_clz 64 _, gives_of_scalarInstr (Laws.exec_sclz ..) rfl⟩,
    ⟨_, isCtz_ctz 64 _, gives_of_scalarInstr (Laws.exec_sctz ..) rfl⟩,
    gives_of_scalarInstr (Laws.exec_sfirst ..) rfl⟩

theorem scalarImmediateResults : ScalarImmediateResults := by
  intro s g e d a i k r
  exact ⟨gives_of_scalarInstr (Laws.exec_saddi ..) rfl, gives_of_scalarInstr (Laws.exec_sandi ..) rfl,
    gives_of_scalarInstr (Laws.exec_sori ..) rfl, gives_of_scalarInstr (Laws.exec_sshli ..) rfl,
    gives_of_scalarInstr (Laws.exec_sshriN ..) rfl, gives_of_scalarInstr (Laws.exec_sceqi ..) rfl,
    gives_of_scalarInstr (Laws.exec_scltiI ..) (congrArg ones BitVec.slt_eq_decide),
    gives_of_scalarInstr (Laws.exec_smovi ..) rfl, gives_of_scalarInstr (Laws.exec_sli ..) rfl⟩

/-- Settles O1: an instruction writes the value that the model computes, which is that of its row. -/
theorem scalarResults : Obligations.ScalarResults := ⟨scalarRegisterResults, scalarImmediateResults⟩

/-! ## Branches -/

/-- The offset of a branch word counts words of four bytes (R69). -/
theorem branchTarget_eq (pc : W64) (t : BitVec 16) : branchTarget pc t = pc + BitVec.ofInt 64 (4 * t.toInt) := by
  rw [branchTarget, BitVec.ofInt_mul]
  rfl

theorem retire_jump_after (i : Instr) (s0 s : State) (g0 h : Group) (cost : Nat) (pc : W64) :
    retire i s0 g0 (.jump s h cost pc) = after s h cost pc (some .fall) := by
  rw [retire_jump, after_eq]

section Branch

variable {i : Instr} {s : State} {g : Group}

/-- An instruction whose body jumps ends its run, which goes on at the place that the body says (R13, R78). -/
theorem jumps_of_issue {h : Group} {cost : Nat} {pc : W64} {body : Group → State → Done} (hx : exec i s = issue i s body)
    (hb : body g s = .jump s h cost pc) (hi : Issues i s g) : exec i s = .next (after s h cost pc (some .fall)) := by
  rw [hx, issue_of_issues hi, hb, retire_jump_after]

/-- A branch is taken exactly where its test says so. -/
theorem branches_of_branchInstr {t : BitVec 16} {test : (Fld → W64) → Group → Bool} {p : Prop}
    (hx : exec i s = branchInstr i s t test) (hp : test (g.readS (s.cyc g)) g = true ↔ p) :
    (p → Issues i s g → exec i s = .next (after s g 1 (g.pc + BitVec.ofInt 64 (4 * t.toInt)) (some .fall))) ∧
      (¬p → Gives i s g g 1) := by
  refine ⟨fun taken => ?_, fun passed => gives_of_issue hx (if_neg (mt hp.mp passed))⟩
  rw [← branchTarget_eq]
  exact jumps_of_issue hx (if_pos (hp.mpr taken))

end Branch

/-- Two words share no bit exactly when their meet is 0. -/
theorem and_eq_zero_iff (a b : W64) : a &&& b = 0 ↔ ∀ k, k < 64 → ¬(a.getLsbD k = true ∧ b.getLsbD k = true) := by
  constructor
  · intro none k _ both
    have bit : (a &&& b).getLsbD k = true := by rw [BitVec.getLsbD_and, both.1, both.2, Bool.and_self]
    simp [none] at bit
  · intro none
    apply BitVec.eq_of_getLsbD_eq
    intro k hk
    simpa using none k hk

/-- Settles O36: the tests of the branches, and how each of the others ends its run. -/
theorem branchResults : Obligations.BranchResults := by
  intro s g e c t v target taken branch
  have to_target : branchTarget g.pc t = target := branchTarget_eq g.pc t
  refine ⟨(branches_of_branchInstr (Laws.exec_br ..) Iff.rfl).1 rfl, branches_of_branchInstr (Laws.exec_bz ..) beq_iff_eq,
    branches_of_branchInstr (Laws.exec_bnz ..) bne_iff_ne,
    branches_of_branchInstr (Laws.exec_bmz ..) (beq_iff_eq.trans (and_eq_zero_iff ..)),
    branches_of_branchInstr (Laws.exec_bmnz ..) ?_,
    jumps_of_issue (Laws.exec_call ..) (by rw [to_target]),
    fun aligned => jumps_of_issue (Laws.exec_jr ..) (if_neg (not_not.mpr aligned)),
    fun odd => traps_of_issue (Laws.exec_jr ..) (if_pos odd),
    fun more => jumps_of_issue (Laws.exec_loop ..) ?_, fun last => gives_of_issue (Laws.exec_loop ..) ?_⟩
  · rw [bne_iff_ne, ne_eq, and_eq_zero_iff]
    push Not
    rfl
  · rw [← to_target]
    exact if_pos (sub_ne_zero.mpr more)
  · have none_left : v - 1 = 0 := sub_eq_zero.mpr last
    exact (if_neg (not_not.mpr none_left)).trans (by rw [none_left])

end Sys2Proof.Machine
end

section
/-!
A `launch` of a replay, behind a remote send of the same replay that is still in flight (R29, R83, R92).
-/

namespace Sys2Proof.Machine

open Sys2Proof

/-! ## What a replay holds back -/

/-- A `launch` of a replay waits while a packet of an instruction before it in the same replay is in flight. -/
theorem State.replayedBefore_of_inFlight {s : State} {g : Group} {w : Pend} {r : FabReq} (hr : r ∈ s.fabric.reqs)
    (mine : r.uid = g.uid) (same : r.since = w.since) (before : r.idx % 32 < w.idx % 32) : s.replayedBefore g w = true := by
  rw [State.replayedBefore, Bool.or_eq_true, List.any_eq_true]
  exact .inl ⟨r, hr, by simp [mine, same, before]⟩

/-- A `launch` that an earlier instruction of its replay holds back stays where it is. -/
theorem State.launchAccept_of_replayedBefore {s : State} {g : Group} {w : Pend} {uid ticket q : Nat} {addr : W64}
    (hg : s.group? uid = some g) (hw : (g.issued.find? fun p => p.idx == ticket) = some w)
    (held : s.replayedBefore g w = true) : s.launchAccept uid ticket q addr = s := by
  have stays : s.launchHeld g ticket = true := by simp only [State.launchHeld, hw, held, Bool.or_true]
  simp only [State.launchAccept, hg, stays, Bool.or_true, if_true]
  split <;> rfl

/-! ## A machine in the middle of a replay -/

/-- The `launch`, at run index 3 of a replay that began at step 9; its record is at address 0, its queue is queue 0. -/
def replayedLaunch : Pend := ⟨3, .launch 0 0, (0, 0), .waiting, 9, 0, []⟩

/-- The group whose replay it is. -/
def replayingGroup : Group :=
  { Group.fresh 1 windowTeam 0 0 0 .w16 32 0 0 [] 1 0 1 0 0 with stat := .endRun, runEnd := .replay, pends := [replayedLaunch] }

/-- A send of four bytes to another device. -/
def sendPacket : Packet :=
  ⟨Config.ownDevice, 0, 1, 0, Config.ownDevice + 1, 0, 0, .send 4 false none, [⟨0, 0, [0, 0, 0, 0]⟩], some 1⟩

/-- The send of run index 0 of the same replay, in flight. -/
def replayedSend : FabReq where
  id := 0
  uid := 1
  part := 0
  lid := 0
  core := 0
  gen := 0
  idx := 0
  rank := 0
  pkt := sendPacket
  resends := 0
  port := 0
  copy := none
  since := 9

/-- The machine: one partition, whose context 0 has no page tables, the group, and the send. -/
def replayingMachine : State :=
  { State.reset with
    parts := [Partition.fresh 0 1 1 0 8 1], teams := [windowTeam], groups := [replayingGroup]
    fabric := { Fabric.reset with reqs := [replayedSend] } }

theorem group_replayingMachine : replayingMachine.group? 1 = some replayingGroup := rfl

/-- No access that the group issued before the step of the replay is outstanding. -/
theorem outstanding_replayingMachine : replayingMachine.outstanding replayingGroup ⟨6, 7, 7, 9⟩ = false := by
  decide +kernel

/-- The record's address does not translate. -/
theorem readCtx_replayingMachine : replayingMachine.readCtx 0 0 0 128 = .fail .translation 0x100 0 := by
  decide +kernel

/-- The model: the `launch` waits for the send. -/
theorem launchRecordAccept_replayingMachine : exec (.launchRecordAccept 1) replayingMachine = .next replayingMachine := by
  have held : replayingMachine.replayedBefore replayingGroup replayedLaunch = true :=
    State.replayedBefore_of_inFlight (r := replayedSend) (List.mem_singleton.mpr rfl) rfl rfl (by decide)
  rw [Laws.exec_launchRecordAccept, execLaunchRecordAccept]
  exact congrArg _ (State.launchAccept_of_replayedBefore (ticket := 3) (q := 0) (addr := 0) group_replayingMachine rfl held)

/-- Every instruction that a group of the machine has issued has returned. -/
def State.allReturned (s : State) : Bool := s.groups.all fun g => g.pends.all Pend.isDone

theorem allReturned_replayingMachine : replayingMachine.allReturned = false := rfl

theorem allReturned_finish (r : Result) : (replayingMachine.finish 1 3 r).allReturned = true := rfl

/-- Refutes O45: a `launch` of a replay whose queue has room, while a send of a lower run index of the same replay is in flight.
`RecordsAccepted` lets it go on once no access is outstanding that the group issued at an earlier step, so that its record, which
cannot be read, fails it. All instructions of a replay are issued at one step and stay in the order of their run indices (R29, R83):
the model holds the `launch` back until the send is answered. The statement fixes what the group itself has issued, but not what
the fabric engine holds of the same replay. -/
theorem not_launchQueueEvents : ¬ Obligations.LaunchQueueEvents := by
  rintro ⟨records, -, -⟩
  obtain ⟨-, launches, -⟩ := records replayingMachine (Partition.fresh 0 1 1 0 8 1) 0 0 rfl (by decide)
  obtain ⟨-, goes⟩ := launches replayingGroup replayedLaunch 0 group_replayingMachine rfl rfl rfl rfl
  obtain ⟨fails, -⟩ := goes (by decide) rfl outstanding_replayingMachine
  have stays := launchRecordAccept_replayingMachine.symm.trans (fails _ _ _ readCtx_replayingMachine)
  injection stays with same
  have returned := congrArg State.allReturned same
  rw [allReturned_replayingMachine] at returned
  exact Bool.false_ne_true (returned.trans (allReturned_finish _))

end Sys2Proof.Machine
end

section
/-!
Vector instructions with an immediate, the compares, and the 64-bit pairs.
-/

namespace Sys2Proof.Machine

open Sys2Proof Sys2Proof.Claims

/-! ## Immediates -/

/-- A shift by an extended immediate is one by the immediate: a negative one is far out, and so is its field (R101). -/
theorem shiftLeft_vimm (x : W32) (i : BitVec 9) : x <<< (vimm i).toNat = x <<< i.toNat := by
  by_cases small : i.toNat < 32
  · rw [toNat_vimm small]
  have far : 32 ≤ (vimm i).toNat := by
    rw [vimm, BitVec.toNat_signExtend, BitVec.toNat_setWidth]
    split <;> omega
  rw [BitVec.shiftLeft_eq_zero far, BitVec.shiftLeft_eq_zero (by omega)]

/-- `vli` writes its word in each thread, in shape U whatever the mark. -/
theorem writes_vli {s : State} {g : Group} (e u : Bool) (d : Fld) (k : W32) :
    Writes (.vli e u d k) s g u d True (fun _ => k) :=
  fun hi => ⟨.u k, gives_of_vecInstr (Laws.exec_vli ..) rfl hi,
    fun _ => ⟨fun _ _ => rfl, fun _ => rfl, fun notU => (notU trivial).elim⟩, fun _ _ _ => rfl⟩

theorem vectorImmediateResults : VectorImmediateResults := by
  intro s g e u d a i k x u1
  refine ⟨writesShaped_of_shaped (Laws.exec_vaddi ..) rfl rfl rowOf_vadd,
    writesShaped_of_shaped (Laws.exec_vmuli ..) rfl rfl rowOf_vmul,
    writes_of_vec1 (Laws.exec_vandi ..) fun _ => rfl, ?_,
    writes_of_vec1 (Laws.exec_vshriN ..) fun _ => rfl,
    writes_of_vec1 (Laws.exec_vshriI ..) fun _ => rfl, writes_vli e u d k⟩
  have shifts : WritesShaped (.vshli e u d a i) s g u d (fun t => x t <<< (vimm i).toNat) :=
    writesShaped_of_shaped (Laws.exec_vshli ..) rfl (funext₂ shl32_eq) rowOf_vshl
  simpa only [shiftLeft_vimm] using shifts

/-! ## Compares -/

/-- A compare writes the bits of the active threads that pass its test. -/
theorem writesMask_of_maskInstr {i : Instr} {s : State} {g : Group} {d : Fld} {p : Group → Nat → Bool} {cond : Nat → Prop}
    (hx : exec i s = maskInstr i s d p) (hp : ∀ t, p g t = true ↔ cond t) : WritesMask i s g d cond := by
  refine fun hi => ⟨_, fun t ht => ?_, gives_of_issue hx (by rw [Group.vcost_eq]) hi⟩
  rw [getLsbD_maskOf _ t ht, List.mem_filter, g.mem_active_threads, hp]

theorem vectorCompareResults : VectorCompareResults := by
  intro s g e d a b i x y
  exact ⟨writesMask_of_maskInstr (Laws.exec_vceq ..) fun _ => beq_iff_eq,
    writesMask_of_maskInstr (Laws.exec_vcne ..) fun _ => bne_iff_ne,
    writesMask_of_maskInstr (Laws.exec_vcltI ..) fun _ => BitVec.slt_iff_toInt_lt,
    writesMask_of_maskInstr (Laws.exec_vcleI ..) fun _ => BitVec.sle_iff_toInt_le,
    writesMask_of_maskInstr (Laws.exec_vcltN ..) fun _ => BitVec.ult_iff_toNat_lt,
    writesMask_of_maskInstr (Laws.exec_vcleN ..) fun _ => BitVec.ule_iff_toNat_le,
    writesMask_of_maskInstr (Laws.exec_vceqW ..) fun _ => beq_iff_eq,
    writesMask_of_maskInstr (Laws.exec_vcltWI ..) fun _ => BitVec.slt_iff_toInt_lt,
    writesMask_of_maskInstr (Laws.exec_vcltWN ..) fun _ => BitVec.ult_iff_toNat_lt,
    writesMask_of_maskInstr (Laws.exec_vceqi ..) fun _ => beq_iff_eq,
    writesMask_of_maskInstr (Laws.exec_vcltiI ..) fun _ => BitVec.slt_iff_toInt_lt⟩

/-- Settles O7: an immediate is a source of shape U, and a compare's mask holds the active threads that pass its test. -/
theorem vectorImmediateAndCompareResults : Obligations.VectorImmediateAndCompareResults :=
  ⟨vectorImmediateResults, vectorCompareResults⟩

/-! ## 64-bit pairs -/

/-- A pair of its own two halves. -/
theorem pair64_halves (w : W64) : pair64 (w.setWidth 32) ((w >>> 32).setWidth 32) = w := by
  apply BitVec.eq_of_toNat_eq
  rw [pair64, toNat_append32, BitVec.toNat_setWidth, BitVec.toNat_setWidth, BitVec.toNat_ushiftRight,
    Nat.shiftRight_eq_div_pow]
  omega

/-- A pair whose members are both U is the same in every thread. -/
theorem Group.pair_of_pairU {g : Group} {f : Fld} (h : g.pairU f = true) (t v : Nat) : g.pair f t = g.pair f v := by
  obtain ⟨low, high⟩ := (Bool.and_eq_true ..).to_iff.mp h
  exact congrArg₂ pair64 (VReg.get_of_isU low t v) (VReg.get_of_isU high t v)

section Pairs

variable {i : Instr} {s : State} {g : Group} {once : Bool} {d a b : Fld}

/-- A pair instruction writes its two registers at its cost (R8, R100). -/
theorem gives_of_pairInstr {allU : Group → Bool} {f : Group → Nat → W64}
    (hx : exec i s = pairInstr i s once d allU f fun g => g.vcost once) :
    Gives i s g (g.setPair d (g.mapV once (allU g) fun t => (f g t).setWidth 32)
      (g.mapV once (allU g) fun t => (f g t >>> 32).setWidth 32)) (Claims.cycles g once) :=
  gives_of_issue hx (by simp only [Group.vcost_eq])

/-- A pair instruction writes the two halves of its function's value, in the shape that its sources give. -/
theorem writesPair_of_pairInstr {uni : Prop} {val : Nat → W64} {allU : Group → Bool} {f : Group → Nat → W64}
    (hx : exec i s = pairInstr i s once d allU f fun g => g.vcost once) (hu : uni ↔ allU g = true)
    (same : allU g = true → ∀ x y, f g x = f g y) (hf : ∀ t, f g t = val t) : WritesPair i s g once d uni val := by
  obtain rfl : f g = val := funext hf
  intro hi
  refine ⟨_, _, gives_of_pairInstr hx hi, ?_, ?_⟩
  · rintro rfl
    refine ⟨fun t ht => ?_, fun h => ?_, fun h => ?_⟩
    · rw [g.mapV_get _ _ t ht fun h x y => by rw [same h x y], g.mapV_get _ _ t ht fun h x y => by rw [same h x y],
        pair64_halves]
    · rw [hu.mp h]
      exact ⟨rfl, rfl⟩
    · rw [Bool.eq_false_iff.mpr (mt hu.mpr h)]
      exact ⟨rfl, rfl, rfl, rfl⟩
  · rintro rfl l hl
    exact ⟨_, _, Group.mapV_once hl, Group.mapV_once hl, pair64_halves _⟩

/-- An instruction of two pairs. -/
theorem writesPair_of_pair2 {f : W64 → W64 → W64} (hx : exec i s = pair2 i s once d a b f) :
    WritesPair i s g once d
      (((g.v a).isU = true ∧ (g.v1 a).isU = true) ∧ (g.v b).isU = true ∧ (g.v1 b).isU = true)
      (fun t => f (g.pair a t) (g.pair b t)) := by
  refine writesPair_of_pairInstr hx (by simp only [Group.pairU, Bool.and_eq_true]) (fun hu x y => ?_) fun _ => rfl
  obtain ⟨ha, hb⟩ := (Bool.and_eq_true ..).to_iff.mp hu
  rw [Group.pair_of_pairU ha x y, Group.pair_of_pairU hb x y]

/-- A shift of a pair by an element, whose amount is the element's own number (R100). -/
theorem writesPair_of_pairShift {f : W64 → W64 → W64} {h : W64 → Nat → W64} (hx : exec i s = pairShift i s once d a b f)
    (hf : ∀ w n, f w n = h w n.toNat) :
    WritesPair i s g once d (((g.v a).isU = true ∧ (g.v1 a).isU = true) ∧ (g.v b).isU = true)
      (fun t => h (g.pair a t) ((g.v b).get t).toNat) := by
  refine writesPair_of_pairInstr hx (by simp only [Group.pairU, Bool.and_eq_true]) (fun hu x y => ?_) fun t => ?_
  · obtain ⟨ha, hb⟩ := (Bool.and_eq_true ..).to_iff.mp hu
    rw [Group.pair_of_pairU ha x y, VReg.get_of_isU hb x y]
  · rw [hf, BitVec.toNat_setWidth_of_le (by decide)]

end Pairs

/-- Settles O8: an instruction is one of two pairs, or a shift of a pair by an element. -/
theorem vectorPairResults : Obligations.VectorPairResults := by
  intro s g e u d a b p q n pu u2 us
  exact ⟨writesPair_of_pair2 (Laws.exec_vaddW ..), writesPair_of_pair2 (Laws.exec_vsubW ..),
    writesPair_of_pair2 (Laws.exec_vmulW ..), writesPair_of_pairShift (Laws.exec_vshlW ..) shl64_eq,
    writesPair_of_pairShift (Laws.exec_vshrWN ..) shr64_eq, writesPair_of_pairShift (Laws.exec_vshrWI ..) sar64_eq⟩

end Sys2Proof.Machine
end

section
/-!
Modular arithmetic, and the table of moduli.
-/

namespace Sys2Proof.Machine

open Sys2Proof Sys2Proof.Claims

/-- The modulus of a group is the entry of its team's table that `mq` selects (R109). -/
theorem State.modulus_of_team {s : State} {g : Group} {tm : Team} (ht : s.team? g.team = some tm) (hq : g.mq < tm.mod.length) :
    s.modulus g = (tm.mod.getD g.mq 0).toNat := by
  simp only [State.modulus, ht, List.getD_eq_getElem?_getD, List.getElem?_eq_getElem hq, Option.getD_some]

theorem Group.elemN_of_isU {g : Group} {f : Fld} (h : (g.v f).isU = true) (t v : Nat) : g.elemN f t = g.elemN f v :=
  congrArg BitVec.toNat (VReg.get_of_isU h t v)

theorem modulusOk_iff (v : W64) : modulusOk v = true ↔ 2 ^ 30 < v.toNat ∧ v.toNat < 2 ^ 31 ∧ v.toNat % 2 = 1 := by
  simp only [modulusOk, Bool.and_eq_true, decide_eq_true_eq, beq_iff_eq]
  tauto

section Modular

variable {i : Instr} {s : State} {g : Group} {once : Bool} {d a b : Fld} {q : Nat}

/-- A modular instruction of two sources. -/
theorem writes_of_mod2 {f : Nat → Nat → Nat → Nat} (hq : s.modulus g = q)
    (hx : exec i s = modInstr i s once d (fun g => (g.v a).isU && (g.v b).isU) fun g t q =>
      f (g.elemN a t) (g.elemN b t) q) :
    Writes i s g once d ((g.v a).isU = true ∧ (g.v b).isU = true)
      (fun t => BitVec.ofNat 32 (f ((g.v a).get t).toNat ((g.v b).get t).toNat q)) := by
  subst hq
  refine writes_of_mapV hx rfl (Bool.and_eq_true ..).symm.to_iff (fun hu x y => ?_) fun _ => rfl
  obtain ⟨ha, hb⟩ := (Bool.and_eq_true ..).to_iff.mp hu
  simp only [Group.elemN_of_isU ha x y, Group.elemN_of_isU hb x y]

/-- A modular instruction of two sources and the prior destination. -/
theorem writes_of_mod3 {f : Nat → Nat → Nat → Nat → Nat} (hq : s.modulus g = q)
    (hx : exec i s = modInstr i s once d (fun g => (g.v d).isU && (g.v a).isU && (g.v b).isU) fun g t q =>
      f (g.elemN d t) (g.elemN a t) (g.elemN b t) q) :
    Writes i s g once d ((g.v d).isU = true ∧ (g.v a).isU = true ∧ (g.v b).isU = true)
      (fun t => BitVec.ofNat 32 (f ((g.v d).get t).toNat ((g.v a).get t).toNat ((g.v b).get t).toNat q)) := by
  subst hq
  have all : ((g.v d).isU = true ∧ (g.v a).isU = true ∧ (g.v b).isU = true) ↔
      ((g.v d).isU && (g.v a).isU && (g.v b).isU) = true := by
    rw [Bool.and_eq_true, Bool.and_eq_true, and_assoc]
  refine writes_of_mapV hx rfl all (fun hu x y => ?_) fun _ => rfl
  obtain ⟨hd, ha, hb⟩ := all.mpr hu
  simp only [Group.elemN_of_isU hd x y, Group.elemN_of_isU ha x y, Group.elemN_of_isU hb x y]

/-- An instruction whose body goes on leaves the state and the group that the body says. -/
theorem exec_of_issue_seq {body : Group → State → Done} {s' : State} {h : Group} {cost : Nat}
    (hx : exec i s = issue i s body) (hb : body g s = .seq s' h cost) (hi : Issues i s g) :
    exec i s = .next (after s' h cost (h.pc + lengthOf i) (endsRun i h)) := by
  rw [hx, issue_of_issues hi, hb, retire_seq_after]

/-- `mqld` stores a value that passes its check in the entry that it names (R110). -/
theorem exec_mqld_of_ok {tm : Team} (e : Bool) (n : BitVec 3) (ht : s.team? g.team = some tm)
    (ok : modulusOk (g.readS (s.cyc g) a) = true) (hi : Issues (.mqld e a n) s g) :
    exec (.mqld e a n) s = .next (after
      (s.setTeam { tm with mod := tm.mod.set n.toNat ((g.readS (s.cyc g) a).setWidth 32) }) g 1
      (g.pc + lengthOf (.mqld e a n)) (endsRun (.mqld e a n) g)) :=
  exec_of_issue_seq (Laws.exec_mqld ..) (by simp only [ok, ht, Bool.not_true, Bool.false_eq_true, if_false]) hi

/-- Any other value is an illegal operand (R110). -/
theorem traps_mqld (e : Bool) (n : BitVec 3) (bad : modulusOk (g.readS (s.cyc g) a) = false) :
    Traps (.mqld e a n) s g .illegalOperand 0 :=
  traps_of_issue (Laws.exec_mqld ..) (by simp only [bad, Bool.not_false, if_true])

end Modular

/-- Settles O10: residues modulo the entry that `mq` selects, and the check of `mqld`. -/
theorem modularResults : Obligations.ModularResults := by
  intro s g tm e u d a b n team length selected q x y z u2 u3 m
  have modulus : s.modulus g = q := State.modulus_of_team team (length ▸ selected)
  refine ⟨writes_of_mod2 (f := fun x y q => (x + y) % q) modulus (Laws.exec_vaddmod ..),
    writes_of_mod2 (f := fun x y q => (((x : Int) - (y : Int)) % (q : Int)).toNat) modulus (Laws.exec_vsubmod ..),
    writes_of_mod2 (f := fun x y q => (x * y) % q) modulus (Laws.exec_vmulmod ..),
    writes_of_mod3 (f := fun z x y q => (z + x * y) % q) modulus (Laws.exec_vmacmod ..),
    fun ok => exec_mqld_of_ok e n team ((modulusOk_iff m).mpr ok),
    fun bad => traps_mqld e n (Bool.eq_false_iff.mpr (mt (modulusOk_iff m).mp bad))⟩

end Sys2Proof.Machine
end

section
/-!
Shapes read and set, and the instructions that combine the elements of several threads.
-/

namespace Sys2Proof.Machine

open Sys2Proof Sys2Proof.Claims

/-! ## No thread active (R12) -/

theorem Group.actives_eq_nil_iff (g : Group) : actives g = [] ↔ g.active = 0 := by
  rw [actives_eq, g.active_eq_zero_iff, List.eq_nil_iff_forall_not_mem]
  simp only [g.mem_active_threads, not_exists]

theorem Group.setV_inactive {g : Group} (none : g.active = 0) (d : Fld) (v : VReg) : g.setV d v = g := by
  rw [Group.setV, none, Group.writeReg_zero]

theorem Group.setPair_inactive {g : Group} (none : g.active = 0) (d : Fld) (lo hi : VReg) : g.setPair d lo hi = g := by
  simp only [Group.setPair, none, Group.writeReg_zero]

/-! ## Shapes (R103, R104) -/

theorem shapeWord_u (x : W32) : shapeWord (.u x) = BitVec.ofNat 64 (x.toNat * 2 ^ 32) := by
  apply BitVec.eq_of_toNat_eq
  rw [shapeWord, toNat_append32, BitVec.toNat_ofNat, BitVec.toNat_ofNat]
  omega

theorem shapeWord_a (x st : W32) : shapeWord (.a x st) = BitVec.ofNat 64 (st.toNat * 2 ^ 32 + 1) := by
  apply BitVec.eq_of_toNat_eq
  rw [shapeWord, toNat_append32, BitVec.toNat_ofNat, BitVec.toNat_ofNat]
  omega

/-- The group after `vgen`: its destination has shape G whatever the mask. -/
def Group.generalised (g : Group) (d a : Fld) : Group :=
  if g.active = 0 then { g with
    vregs := g.vregs.set (g.reg d) (.g ((g.v d).toList g.width.n))
    poison := poisonAfter g.poison (g.v d) (g.reg d) g.width.n 0 }
  else g.setV d (.g ((g.v a).toList g.width.n))

section Shapes

variable {s : State} {g : Group} {d a : Fld}

theorem gives_vshape (e : Bool) : Gives (.vshape e d a) s g (g.writeS d (shapeWord (g.v a))) 1 :=
  gives_of_issue (Laws.exec_vshape ..) rfl

theorem gives_vgen (e : Bool) : Gives (.vgen e d a) s g (g.generalised d a) (Claims.cycles g false) :=
  gives_of_issue (Laws.exec_vgen ..) (by rw [Group.vcost_eq, Group.generalised])

theorem VReg.get_g_toList (v : VReg) {n t : Nat} (ht : t < n) : (VReg.g (v.toList n)).get t = v.get t :=
  get_g_range v.get ht

/-- A register written under some mask has shape G when what is written has it (R24). -/
theorem Group.v_setV_g (hr : g.wb + d.toNat < g.vregs.length) (some : ∃ t, Active g t) (xs : List W32) :
    ∃ ys, (g.setV d (.g xs)).v d = .g ys := by
  obtain ⟨-, written⟩ := vectorWriteByMask g d (.g xs) hr
  obtain ⟨-, -, all, part, -⟩ := written some
  by_cases full : ∀ t, t < g.width.n → Active g t
  · exact ⟨xs, all full⟩
  · exact part full

/-- `vgen` leaves its destination in shape G, with the source's elements in the active threads and its own in the others. -/
theorem Group.v_generalised (hr : g.wb + d.toNat < g.vregs.length) :
    (∃ xs, (g.generalised d a).v d = .g xs) ∧ ∀ t, t < g.width.n → ((g.generalised d a).v d).get t =
      if g.exm.getLsbD t && g.lvm.getLsbD t then (g.v a).get t else (g.v d).get t := by
  by_cases none : g.active = 0
  · have own : (g.generalised d a).v d = .g ((g.v d).toList g.width.n) := by
      rw [Group.generalised, if_pos none]
      exact getD_set_self _ _ _ _ hr
    refine ⟨⟨_, own⟩, fun t ht => ?_⟩
    have out : (g.exm.getLsbD t && g.lvm.getLsbD t) = false := by
      rw [← g.getLsbD_active_of_lt ht, none]
      exact BitVec.getLsbD_zero
    rw [own, out, VReg.get_g_toList _ ht, if_neg Bool.false_ne_true]
  · have some : ∃ t, Active g t := not_not.mp (mt g.active_eq_zero_iff.mpr none)
    have set : g.generalised d a = g.setV d (.g ((g.v a).toList g.width.n)) := if_neg none
    rw [set]
    refine ⟨Group.v_setV_g hr some _, fun t ht => ?_⟩
    obtain ⟨-, written⟩ := vectorWriteByMask g d (.g ((g.v a).toList g.width.n)) hr
    obtain ⟨elements, -⟩ := written some
    rw [elements t ht, VReg.get_g_toList _ ht]

end Shapes

/-! ## Sums over threads -/

theorem sumOver_eq (v : VReg) (ts : List Nat) : sumOver v ts = (ts.map v.get).sum := by
  rw [List.sum_eq_foldl, List.foldl_map]
  rfl

section PerThread

variable {i : Instr} {s : State} {g : Group} {d : Fld}

/-- An instruction that writes a value for each thread leaves shape G. -/
theorem writes_of_perThread {val : Nat → W32} {body : Group → State → VReg} (hx : exec i s = vecInstr i s false d body)
    (hb : body g s = .g ((List.range g.width.n).map val)) : Writes i s g false d False val :=
  writes_of_mapV (allU := false) hx hb (by simp) (fun h => nomatch h) fun _ => rfl

theorem writes_of_crossInstr {f : Group → Nat → W32} {val : Nat → W32} (hx : exec i s = crossInstr i s d f)
    (hf : ∀ t, f g t = val t) : Writes i s g false d False val :=
  writes_of_perThread (hx.trans (by rw [crossInstr])) (by rw [funext hf])

/-- With no active thread it leaves the group as it is (R12). -/
theorem gives_of_crossInstr_inactive {f : Group → Nat → W32} (hx : exec i s = crossInstr i s d f) (none : g.active = 0) :
    Gives i s g g (Claims.cycles g false) := by
  have gives := gives_of_vecInstr (g := g) (hx.trans (by rw [crossInstr])) rfl
  rwa [Group.setV_inactive none] at gives

end PerThread

/-! ## The lowest of some threads -/

theorem pairwise_threads (m : W64) (n : Nat) : (threads m n).Pairwise (· < ·) := List.pairwise_lt_range.filter _

/-- The head of an ascending list is its lowest member. -/
theorem head?_eq_some_iff_of_pairwise {l : List Nat} (asc : l.Pairwise (· < ·)) (t : Nat) :
    l.head? = some t ↔ t ∈ l ∧ ∀ w ∈ l, t ≤ w := by
  cases l with
  | nil => simp
  | cons a l =>
    rw [List.head?_cons, Option.some_inj]
    obtain ⟨above, -⟩ := List.pairwise_cons.mp asc
    constructor
    · rintro rfl
      exact ⟨List.mem_cons_self, List.forall_mem_cons.mpr ⟨le_rfl, fun w hw => (above w hw).le⟩⟩
    · rintro ⟨mem, least⟩
      obtain rfl | later := List.mem_cons.mp mem
      · rfl
      · exact absurd (least a List.mem_cons_self) (above t later).not_ge

/-- A thread leads its class of equal key when no lower active thread has its key (R107). -/
theorem Group.leads_iff (g : Group) (a : Fld) (t : Nat) :
    t ∈ (g.ts.filter fun t => (g.sameKey a t).head? == some t) ↔
      t ∈ g.ts ∧ ∀ w ∈ g.ts, (g.v a).get w = (g.v a).get t → t ≤ w := by
  have asc : (g.sameKey a t).Pairwise (· < ·) := (pairwise_threads ..).filter _
  rw [List.mem_filter, beq_iff_eq, head?_eq_some_iff_of_pairwise asc]
  simp only [Group.sameKey, List.mem_filter, beq_iff_eq, and_imp]
  tauto

/-! ## Class sums (R107) -/

/-- What `vmatchr` writes: in each thread the sum over the active threads of its key. -/
def Group.classSums (g : Group) (a b : Fld) : VReg :=
  .g ((List.range g.width.n).map fun t => sumOver (g.v b) (g.sameKey a t))

/-- The mask of the lowest thread of each class. -/
def Group.leaders (g : Group) (a : Fld) : W64 := maskOf (g.ts.filter fun t => (g.sameKey a t).head? == some t)

/-- With no active thread `vmatchr` leaves its destination and `sm`. -/
theorem gives_vmatchr {s : State} {g : Group} (e : Bool) (d a b : Fld) : Gives (.vmatchr e d a b) s g
    (if g.active = 0 then g else { g.setV d (g.classSums a b) with sm := g.leaders a }) (Claims.cycles g false) :=
  gives_of_issue (Laws.exec_vmatchr ..) (by rw [Group.vcost_eq]; rfl)

/-! ## The thread of the greatest or least element (R108) -/

/-- Thread `w` holds the best element of some threads, and no lower one of them holds it too. -/
def FirstBest (v : VReg) (rank : W32 → Int) (w : Nat) (ts : List Nat) : Prop :=
  w ∈ ts ∧ ∀ u ∈ ts, rank (v.get u) ≤ rank (v.get w) ∧ (u < w → rank (v.get u) < rank (v.get w))

section Best

variable {v : VReg} {beats : W32 → W32 → Bool} {rank : W32 → Int} {w : Nat}
  (hb : ∀ x y, beats x y = true ↔ rank y < rank x)
include hb

/-- A search that stands at the best thread stays there, and one that stands at a worse thread reaches it. -/
theorem foldl_beats_eq {ts : List Nat} (asc : ts.Pairwise (· < ·)) :
    ∀ c, (c = w ∧ ∀ u ∈ ts, rank (v.get u) ≤ rank (v.get w)) ∨
      (rank (v.get c) < rank (v.get w) ∧ FirstBest v rank w ts) →
      ts.foldl (fun c u => if beats (v.get u) (v.get c) then u else c) c = w := by
  induction ts with
  | nil =>
    rintro c (⟨rfl, -⟩ | ⟨-, mem, -⟩)
    · rfl
    · exact absurd mem List.not_mem_nil
  | cons u ts ih =>
    obtain ⟨above, asc⟩ := List.pairwise_cons.mp asc
    intro c standing
    rw [List.foldl_cons]
    refine ih asc _ ?_
    obtain ⟨rfl, most⟩ | ⟨worse, mem, best⟩ := standing
    · obtain ⟨most_u, most⟩ := List.forall_mem_cons.mp most
      have stays : ¬beats (v.get u) (v.get c) = true := mt (hb ..).mp most_u.not_gt
      exact .inl ⟨if_neg stays, most⟩
    · obtain ⟨⟨-, first⟩, rest⟩ := List.forall_mem_cons.mp best
      obtain rfl | later := List.mem_cons.mp mem
      · exact .inl ⟨if_pos ((hb ..).mpr worse), fun t ht => (rest t ht).1⟩
      · refine .inr ⟨?_, later, rest⟩
        split
        · exact first (above w later)
        · exact worse

/-- The search of a reduction ends at the first of the best threads. -/
theorem bestThread_eq {ts : List Nat} (asc : ts.Pairwise (· < ·)) (best : FirstBest v rank w ts) :
    bestThread v beats ts = w := by
  obtain ⟨mem, best⟩ := best
  cases ts with
  | nil => exact absurd mem List.not_mem_nil
  | cons t ts =>
    obtain ⟨above, asc⟩ := List.pairwise_cons.mp asc
    obtain ⟨⟨-, first⟩, rest⟩ := List.forall_mem_cons.mp best
    refine foldl_beats_eq hb asc t ?_
    obtain rfl | later := List.mem_cons.mp mem
    · exact .inl ⟨rfl, fun u hu => (rest u hu).1⟩
    · exact .inr ⟨first (above w later), later, rest⟩

end Best

section Reductions

variable {i : Instr} {s : State} {g : Group} {d a : Fld} {beats : W32 → W32 → Bool}

/-- A reduction to a value and a thread writes the pair of both in each thread, at its cost. -/
theorem gives_of_redPair {w : Nat} (hx : exec i s = redPair i s d a beats) (hw : bestThread (g.v a) beats g.ts = w) :
    Gives i s g (g.setPair d (.g (List.replicate g.width.n ((g.v a).get w)))
      (.g (List.replicate g.width.n (BitVec.ofNat 32 w)))) (Claims.cycles g false) := by
  subst hw
  exact gives_of_issue hx (by rw [Group.vcost_eq])

/-- It writes the best element with the lowest active thread that holds it. -/
theorem gives_of_redPair_best {rank : W32 → Int} (injective : Function.Injective rank)
    (hb : ∀ x y, beats x y = true ↔ rank y < rank x) (hx : exec i s = redPair i s d a beats) {w : Nat} (hw : w ∈ actives g)
    (best : ∀ v ∈ actives g, rank ((g.v a).get v) ≤ rank ((g.v a).get w))
    (lowest : ∀ v ∈ actives g, (g.v a).get v = (g.v a).get w → w ≤ v) :
    Gives i s g (g.setPair d (.g (List.replicate g.width.n ((g.v a).get w)))
      (.g (List.replicate g.width.n (BitVec.ofNat 32 w)))) (Claims.cycles g false) := by
  rw [actives_eq] at hw best lowest
  refine gives_of_redPair hx (bestThread_eq hb (pairwise_threads ..) ⟨hw, fun u hu => ⟨best u hu, fun below => ?_⟩⟩)
  exact (best u hu).lt_of_ne fun same => (lowest u hu (injective same)).not_gt below

/-- With no active thread it leaves the group as it is. -/
theorem gives_of_redPair_inactive (hx : exec i s = redPair i s d a beats) (none : g.active = 0) :
    Gives i s g g (Claims.cycles g false) := by
  have gives := gives_of_redPair (g := g) hx rfl
  rwa [Group.setPair_inactive none] at gives

end Reductions

/-- Settles O9: each instruction by what it reads of the active threads, and nothing written with none of them. -/
theorem crossThreadResults : Obligations.CrossThreadResults := by
  intro s g e d a b x act sumOf same
  have act_eq : act = g.ts := actives_eq g
  have sums (v : VReg) (ts : List Nat) : sumOver v ts = sumOf v.get ts := sumOver_eq v ts
  have inactive : act = [] → g.active = 0 := g.actives_eq_nil_iff.mp
  have value : Function.Injective (BitVec.toInt (n := 32)) := fun _ _ => BitVec.eq_of_toInt_eq
  have negated : Function.Injective fun y : W32 => -y.toInt := neg_injective.comp value
  refine ⟨?_, fun hi => ⟨g.generalised d a, gives_vgen e hi, Group.v_generalised⟩,
    writes_of_crossInstr (Laws.exec_vxsh ..) fun _ => rfl, writes_of_perThread (Laws.exec_vxshu ..) ?_,
    writes_of_crossInstr (Laws.exec_vscanAdd ..) fun t => ?_, writes_of_crossInstr (Laws.exec_vredAdd ..) fun t => ?_,
    fun hi => ⟨g.classSums a b, g.leaders a, _, gives_vmatchr e d a b hi, fun none => if_pos (inactive none),
      fun some => if_neg (mt g.actives_eq_nil_iff.mpr some), fun t ht => ?_, fun t ht => ?_⟩,
    fun w hw most first => gives_of_redPair_best value (fun _ _ => BitVec.slt_iff_toInt_lt)
      (Laws.exec_vredmaxiI ..) hw most first,
    fun w hw least first => gives_of_redPair_best negated (fun _ _ => BitVec.slt_iff_toInt_lt.trans neg_lt_neg_iff.symm)
      (Laws.exec_vredminiI ..) hw (fun v hv => neg_le_neg (least v hv)) first,
    fun none => ⟨gives_of_crossInstr_inactive (Laws.exec_vredAdd ..) (inactive none),
      gives_of_crossInstr_inactive (Laws.exec_vscanAdd ..) (inactive none),
      gives_of_redPair_inactive (Laws.exec_vredmaxiI ..) (inactive none),
      gives_of_redPair_inactive (Laws.exec_vredminiI ..) (inactive none)⟩⟩
  · have word := gives_vshape (s := s) (g := g) (d := d) (a := a) e
    cases shape : g.v a with
    | u v => rwa [shape, shapeWord_u] at word
    | a v st => rwa [shape, shapeWord_a] at word
    | g xs => rwa [shape] at word
  · simp only [x, apply_ite]
  · simp only [sums, act_eq, x]
  · simp only [sums, act_eq, x]
  · rw [Group.classSums, get_g_range _ ht, sums]
    simp only [same, act_eq, Group.sameKey, x]
  · rw [Group.leaders, getLsbD_maskOf _ t ht, g.leads_iff, act_eq]

end Sys2Proof.Machine
end

section
/-!
What two parties compute from the words of an exchange: shares of the product, the conjunction and the bit.
-/

namespace Sys2Proof.Machine

open Sys2Proof Sys2Proof.Claims

/-! ## Residues modulo 2^k -/

/-- A difference of the gate is the difference in the ring of residues. -/
theorem cast_subMod (k a b : Nat) : ((subMod k a b : Nat) : ZMod (2 ^ k)) = a - b := by
  have room : b % 2 ^ k ≤ a % 2 ^ k + 2 ^ k := (Nat.mod_lt _ (Nat.two_pow_pos k)).le.trans (Nat.le_add_left ..)
  rw [subMod, kmod, ZMod.natCast_mod, Nat.cast_sub room, Nat.cast_add, ZMod.natCast_mod, ZMod.natCast_mod,
    ZMod.natCast_self, add_zero]

/-- The halves of a triple are valid modulo 2^k. -/
theorem cast_triple {k : Nat} {t0 t1 : Triple}
    (valid : (t0.a.toNat + t1.a.toNat) * (t0.b.toNat + t1.b.toNat) % 2 ^ k = (t0.c.toNat + t1.c.toNat) % 2 ^ k) :
    ((t0.a.toNat : ZMod (2 ^ k)) + t1.a.toNat) * (t0.b.toNat + t1.b.toNat) = t0.c.toNat + t1.c.toNat := by
  exact_mod_cast (ZMod.natCast_eq_natCast_iff' ..).mpr valid

/-- D or E of two parties is the sum of their words. -/
theorem cast_combine_smul (k u v : Nat) : ((combine .smul k [u, v] : Nat) : ZMod (2 ^ k)) = u + v := by
  rw [combine, kmod, ZMod.natCast_mod, List.sum_pair, Nat.cast_add]
  exact nofun

theorem cast_combine_sb2a (k u v : Nat) : ((combine .sb2a k [u, v] : Nat) : ZMod (2 ^ k)) = u + v := by
  rw [combine, kmod, ZMod.natCast_mod, List.sum_pair, Nat.cast_add]
  exact nofun

/-! ## Products -/

/-- What the two parties add up to from D and E: the product of the sums that the triple masks. -/
theorem shares_of_product {R : Type} [CommRing R] {a0 a1 b0 b1 c0 c1 x y : R} (valid : (a0 + a1) * (b0 + b1) = c0 + c1) :
    let d := x - (a0 + a1)
    let e := y - (b0 + b1)
    (c0 + d * b0 + e * a0 + d * e) + (c1 + d * b1 + e * a1 + 0) = x * y := by
  intro d e
  simp only [d, e]
  linear_combination -valid

theorem cast_shareResult_smul (k party : Nat) (x : W32) (t : Triple) (d e : Nat) :
    ((shareResult .smul k party x t d e : Nat) : ZMod (2 ^ k)) =
      t.c.toNat + d * t.b.toNat + e * t.a.toNat + (if party = 0 then (d : ZMod (2 ^ k)) * e else 0) := by
  simp only [shareResult, kmod, ZMod.natCast_mod]
  push_cast
  rfl

/-- `vsb2a` takes twice a share of the product from the party's bit (R226). -/
theorem cast_shareResult_sb2a (k party : Nat) (x : W32) (t : Triple) (d e : Nat) :
    ((shareResult .sb2a k party x t d e : Nat) : ZMod (2 ^ k)) =
      ((x.toNat % 2 : Nat) : ZMod (2 ^ k)) - 2 * (shareResult .smul k party x t d e : Nat) := by
  simp only [shareResult, cast_subMod, Nat.cast_mul, Nat.cast_ofNat]

/-- R223: the results of `vsmul` are shares of the product. -/
theorem sharedProduct {k : Nat} (x0 x1 y0 y1 : W32) {t0 t1 : Triple}
    (valid : (t0.a.toNat + t1.a.toNat) * (t0.b.toNat + t1.b.toNat) % 2 ^ k = (t0.c.toNat + t1.c.toNat) % 2 ^ k) :
    let w0 := maskedWords .smul k 0 x0 y0 t0
    let w1 := maskedWords .smul k 1 x1 y1 t1
    let dd := combine .smul k [w0.1, w1.1]
    let ee := combine .smul k [w0.2, w1.2]
    (shareResult .smul k 0 x0 t0 dd ee + shareResult .smul k 1 x1 t1 dd ee) % 2 ^ k =
      (x0.toNat + x1.toNat) * (y0.toNat + y1.toNat) % 2 ^ k := by
  intro w0 w1 dd ee
  have d : (dd : ZMod (2 ^ k)) = (x0.toNat + x1.toNat) - (t0.a.toNat + t1.a.toNat) := by
    rw [cast_combine_smul]
    simp only [w0, w1, maskedWords, cast_subMod]
    ring
  have e : (ee : ZMod (2 ^ k)) = (y0.toNat + y1.toNat) - (t0.b.toNat + t1.b.toNat) := by
    rw [cast_combine_smul]
    simp only [w0, w1, maskedWords, cast_subMod]
    ring
  refine (ZMod.natCast_eq_natCast_iff' ..).mp ?_
  push_cast
  rw [cast_shareResult_smul, cast_shareResult_smul, d, e, if_pos rfl, if_neg one_ne_zero]
  exact shares_of_product (cast_triple valid)

/-- The XOR of two bits is their sum but for twice their product. -/
theorem cast_bit_xor {R : Type} [CommRing R] (x y : Nat) : (((x % 2 + y % 2) % 2 : Nat) : R) =
    ((x % 2 : Nat) : R) + ((y % 2 : Nat) : R) - 2 * (((x % 2 : Nat) : R) * ((y % 2 : Nat) : R)) := by
  obtain hx | hx := Nat.mod_two_eq_zero_or_one x <;> obtain hy | hy := Nat.mod_two_eq_zero_or_one y <;>
    norm_num [hx, hy]

/-- R226: the results of `vsb2a` are shares of the bit whose XOR the inputs hold. -/
theorem sharedBitIsConverted : SharedBitIsConverted := by
  intro k x0 x1 t0 t1 width valid w0 w1 dd ee
  have d : (dd : ZMod (2 ^ k)) = ((x0.toNat % 2 : Nat) : ZMod (2 ^ k)) - (t0.a.toNat + t1.a.toNat) := by
    rw [cast_combine_sb2a]
    simp only [w0, w1, maskedWords, if_true, if_neg one_ne_zero, cast_subMod, Nat.cast_zero]
    ring
  have e : (ee : ZMod (2 ^ k)) = ((x1.toNat % 2 : Nat) : ZMod (2 ^ k)) - (t0.b.toNat + t1.b.toNat) := by
    rw [cast_combine_sb2a]
    simp only [w0, w1, maskedWords, if_true, if_neg one_ne_zero, cast_subMod, Nat.cast_zero]
    ring
  have product := shares_of_product (x := ((x0.toNat % 2 : Nat) : ZMod (2 ^ k))) (y := ((x1.toNat % 2 : Nat) : ZMod (2 ^ k)))
    (cast_triple valid)
  have small : (x0.toNat % 2 + x1.toNat % 2) % 2 < 2 ^ k :=
    (Nat.mod_lt _ two_pos).trans_le (Nat.le_self_pow (by omega) 2)
  rw [← Nat.mod_eq_of_lt small]
  refine (ZMod.natCast_eq_natCast_iff' ..).mp ?_
  rw [cast_bit_xor, Nat.cast_add, cast_shareResult_sb2a, cast_shareResult_sb2a, cast_shareResult_smul,
    cast_shareResult_smul, d, e, if_pos rfl, if_neg one_ne_zero]
  linear_combination -2 * product

/-! ## The conjunction -/

/-- R224: the results of `vsand.b` XOR to the AND. -/
theorem sharedConjunction (x0 x1 y0 y1 : W32) {t0 t1 : Triple} (valid : (t0.a ^^^ t1.a) &&& (t0.b ^^^ t1.b) = t0.c ^^^ t1.c) :
    let w0 := maskedWords .sandB 32 0 x0 y0 t0
    let w1 := maskedWords .sandB 32 1 x1 y1 t1
    let dd := combine .sandB 32 [w0.1, w1.1]
    let ee := combine .sandB 32 [w0.2, w1.2]
    shareResult .sandB 32 0 x0 t0 dd ee ^^^ shareResult .sandB 32 1 x1 t1 dd ee =
      ((x0 ^^^ x1) &&& (y0 ^^^ y1)).toNat := by
  intro w0 w1 dd ee
  have d : dd = (x0 ^^^ t0.a ^^^ (x1 ^^^ t1.a)).toNat := by
    simp only [dd, w0, w1, combine, maskedWords, List.foldl_cons, List.foldl_nil, Nat.zero_xor, BitVec.toNat_xor]
  have e : ee = (y0 ^^^ t0.b ^^^ (y1 ^^^ t1.b)).toNat := by
    simp only [ee, w0, w1, combine, maskedWords, List.foldl_cons, List.foldl_nil, Nat.zero_xor, BitVec.toNat_xor]
  simp only [shareResult, d, e, if_pos, if_neg one_ne_zero, ← BitVec.toNat_xor, ← BitVec.toNat_and]
  refine congrArg BitVec.toNat (BitVec.eq_of_getLsbD_eq fun i hi => ?_)
  have bit := congrArg (·.getLsbD i) valid
  simp only [BitVec.getLsbD_xor, BitVec.getLsbD_and] at bit ⊢
  generalize x0.getLsbD i = p0, x1.getLsbD i = p1, y0.getLsbD i = q0, y1.getLsbD i = q1 at *
  revert bit
  generalize t0.a.getLsbD i = a0, t1.a.getLsbD i = a1, t0.b.getLsbD i = b0, t1.b.getLsbD i = b1
  generalize t0.c.getLsbD i = c0, t1.c.getLsbD i = c1
  revert p0 p1 q0 q1 a0 a1 b0 b1 c0 c1
  decide

/-- Settles O19: what the masked words hide cancels against the triple. -/
theorem sharedResultsAreShares : Obligations.SharedResultsAreShares :=
  ⟨fun x0 x1 y0 y1 _ _ => ⟨fun _ _ valid => sharedProduct x0 x1 y0 y1 valid,
    fun valid => sharedConjunction x0 x1 y0 y1 valid⟩, sharedBitIsConverted⟩

end Sys2Proof.Machine
end

section
/-!
The flags and the events that the elements of an instruction raise.
-/

namespace Sys2Proof.Machine

open Sys2Proof Sys2Proof.Claims

/-- Counting events adds them to their class of the partition's sums (R130). -/
theorem State.countEvents_sums {s : State} {part : Nat} {p : Partition} (hp : s.part? part = some p) (core k n : Nat) :
    ∃ q, (s.countEvents part core k n).1.part? part = some q ∧
      q.evsum = p.evsum.set k (p.evsum.getD k 0 + BitVec.ofNat 64 n) := by
  simp only [State.countEvents, hp]
  split
  next none =>
    refine ⟨p, hp, ?_⟩
    rw [none, show (BitVec.ofNat 64 0 : W64) = 0 from rfl, add_zero]
    apply List.ext_getElem?
    intro j
    rw [List.getElem?_set]
    split
    next same =>
      subst same
      split
      next inside => rw [List.getD_eq_getElem?_getD, List.getElem?_eq_getElem inside, Option.getD_some]
      next outside => rw [List.getElem?_eq_none (not_lt.mp outside)]
    next => rfl
  next => exact ⟨_, State.part?_setPart_of_num hp rfl, rfl⟩

/-- So do an instruction's events, whatever action a crossing asks for (R89). -/
theorem Group.addEvents_sums {s : State} {g : Group} {p : Partition} (hp : s.part? g.part = some p) (k n : Nat) :
    ∃ q, (g.addEvents s k n).1.part? g.part = some q ∧
      q.evsum = p.evsum.set k (p.evsum.getD k 0 + BitVec.ofNat 64 n) := by
  obtain ⟨q, hq, sum⟩ := State.countEvents_sums hp g.core k n
  simp only [Group.addEvents]
  split
  next =>
    unfold Group.crossing
    split
    next => exact ⟨q, hq, sum⟩
    next =>
      obtain ⟨r, hr, same⟩ := (ReportsOnly.reportList ..).sums q hq
      exact ⟨r, hr, same.trans sum⟩
    next => exact ⟨q, hq, sum⟩
  next => exact ⟨q, hq, sum⟩

theorem getD_set_eq_ite (l : List W64) (j k : Nat) (v : W64) :
    (l.set j v).getD k 0 = if j = k ∧ k < l.length then v else l.getD k 0 := by
  simp only [List.getD_eq_getElem?_getD, List.getElem?_set]
  by_cases same : j = k
  · subst same
    by_cases inside : j < l.length <;> simp [inside]
  · simp [same]

/-- The events of different classes, one after another, are added each to its own class. -/
theorem Group.foldl_addEvents_sums (num : Nat → Nat) {ks : List Nat} (once : ks.Nodup) {s : State} {g : Group} {p : Partition}
    (hp : s.part? g.part = some p) (classes : ∀ k ∈ ks, k < p.evsum.length) :
    ∃ q, (ks.foldl (fun (r : State × Group) k => Group.addEvents r.2 r.1 k (num k)) (s, g)).1.part? g.part = some q ∧
      ∀ k, q.evsum.getD k 0 = p.evsum.getD k 0 + if k ∈ ks then BitVec.ofNat 64 (num k) else 0 := by
  induction ks generalizing s g p with
  | nil => exact ⟨p, hp, fun k => by simp⟩
  | cons j ks ih =>
    obtain ⟨out, once⟩ := List.nodup_cons.mp once
    obtain ⟨-, -, group⟩ := g.addEvents_frame s j (num j)
    have part : (g.addEvents s j (num j)).2.part = g.part := by rw [group]
    obtain ⟨q, hq, sum⟩ := Group.addEvents_sums hp j (num j)
    have length : q.evsum.length = p.evsum.length := by rw [sum, List.length_set]
    obtain ⟨r, hr, sums⟩ := ih once (part ▸ hq) fun k hk => length ▸ classes k (List.mem_cons_of_mem _ hk)
    refine ⟨r, part ▸ hr, fun k => ?_⟩
    rw [sums k, sum, getD_set_eq_ite]
    by_cases same : j = k
    · subst same
      rw [if_pos ⟨rfl, classes j List.mem_cons_self⟩, if_neg out, if_pos List.mem_cons_self, add_zero]
    · rw [if_neg fun h => same h.1]
      simp only [List.mem_cons, Ne.symm same, false_or]

theorem fpmAction_eq (fpm : W64) (k : Nat) : fpmAction fpm k = fpm.toNat / 2 ^ (2 * k + 32) % 4 := by
  rw [fpmAction, bits_eq, show 2 * k + 33 + 1 - (2 * k + 32) = 2 by omega, show 2 ^ 2 = 4 from rfl]

/-- Settles O16: flags are set once, then the five classes are counted in turn. -/
theorem floatFlagsAndEvents : Obligations.FloatFlagsAndEvents := by
  intro s g p fls hp length r
  obtain ⟨events, counts, -⟩ := g.raise_frame s fls
  let flagged := { g with fpf := g.fpf ||| BitVec.ofNat 64 (fls.foldl Flags.join Flags.zero).toNat }
  let num := fun k => (fls.filter fun x => x.event k).length
  obtain ⟨-, -, group⟩ := Group.foldl_addEvents_frame num (List.range 5) s flagged
  obtain ⟨q, hq, sums⟩ := Group.foldl_addEvents_sums num List.nodup_range (g := flagged) hp fun k hk => by
    rw [length]
    exact (List.mem_range.mp hk).trans (show 5 < 8 by decide)
  refine ⟨congrArg Group.fpf group, ⟨q, hq, fun k hk => ?_⟩, fun none => ?_⟩
  · rw [sums k, if_pos (List.mem_range.mpr hk)]
  · have counted := counts fun k hk => by
      rw [fpmAction_eq]
      exact none k hk
    exact ⟨counted.hbm, by rw [events.frame]⟩

end Sys2Proof.Machine
end

section
/-!
The forms of the floating-point instructions: what they write, in which shape, and which flags they raise.
-/

namespace Sys2Proof.Machine

open Sys2Proof Sys2Proof.Claims

theorem RMode.ofBits_mod (n : Nat) : RMode.ofBits (n % 4) = RMode.ofBits n := by
  rw [RMode.ofBits, Nat.mod_mod, RMode.ofBits]

theorem Group.rm_eq (g : Group) : g.rm = RMode.ofBits (g.fpm.toNat % 4) := (RMode.ofBits_mod _).symm

theorem Group.computing_eq (g : Group) (once : Bool) : g.computing once = Claims.computing g once := by
  rw [Group.computing, Claims.computing, actives_eq, List.take_one]
  rfl

@[simp] theorem Group.pcost_eq (g : Group) (once : Bool) : g.pcost once = Claims.pairCycles g once := by
  rw [Group.pcost, Claims.pairCycles, g.countMask_active]

/-- The sign bit of an element inverted. -/
theorem flipSign_toNat (x : W32) : flipSign x.toNat = (x.toNat + 2 ^ 31) % 2 ^ 32 := by
  have small := x.isLt
  rw [flipSign, Fmt.neg, show fp32.sign = 31 from rfl, Nat.testBit_eq_decide_div_mod_eq]
  split
  next set =>
    rw [decide_eq_true_eq] at set
    omega
  next clear =>
    rw [decide_eq_true_eq] at clear
    omega

theorem Group.el_of_isU {g : Group} {f : Fld} (h : (g.v f).isU = true) (t v : Nat) : g.el f t = g.el f v :=
  congrArg BitVec.toNat (VReg.get_of_isU h t v)

theorem Group.el1_of_isU {g : Group} {f : Fld} (h : (g.v1 f).isU = true) (t v : Nat) : g.el1 f t = g.el1 f v :=
  congrArg BitVec.toNat (VReg.get_of_isU h t v)

/-- Under a result of each thread and none of shape A, the register is the one that `Floats` describes. -/
theorem Group.mapV_describes (g : Group) {once allU : Bool} {uni : Prop} {f : Nat → W32} (hu : uni ↔ allU = true)
    (same : allU = true → ∀ x y, f x = f y) :
    (once = false → (∀ t, t < g.width.n → (g.mapV once allU f).get t = f t) ∧ (uni → (g.mapV once allU f).isU = true) ∧
      (¬uni → (g.mapV once allU f).isU = false ∧ (g.mapV once allU f).isA = false)) ∧
    (once = true → ∀ l, IsLowest g l → g.mapV once allU f = .u (f l)) := by
  constructor
  · rintro rfl
    obtain ⟨isU, isA⟩ := g.mapV_shape allU f
    exact ⟨fun t ht => g.mapV_get allU f t ht same, fun h => isU.trans (hu.mp h),
      fun h => ⟨isU.trans (by simpa using mt hu.mpr h), isA⟩⟩
  · rintro rfl l hl
    exact Group.mapV_once hl

/-! ## Raising flags -/

/-- The body of an instruction that raises the flags `fl` of its elements, then makes `f` of its group (R123). -/
def raising (fl : Group → List Flags) (f : Group → Group → Group) (cost : Group → Nat) (g : Group) (s : State) : Done :=
  .seq (g.raise s (fl g)).1 (f g (g.raise s (fl g)).2) (cost g)

theorem exec_of_raising {i : Instr} {s : State} {g : Group} {fl : Group → List Flags} {f : Group → Group → Group}
    {cost : Group → Nat} (hx : exec i s = issue i s (raising fl f cost)) (hi : Issues i s g) :
    exec i s = .next (after (g.raise s (fl g)).1 (f g (g.raise s (fl g)).2) (cost g)
      ((f g (g.raise s (fl g)).2).pc + lengthOf i) (endsRun i (f g (g.raise s (fl g)).2))) := by
  rw [hx, issue_of_issues hi, raising, retire_seq_after]

theorem floatVec_eq (i : Instr) (s : State) (once : Bool) (d : Fld) (srcU : Group → Bool) (f : Group → Nat → Elem) :
    floatVec i s once d srcU f = issue i s (raising (fun g => (g.computing once).flatMap fun t => (f g t).fl)
      (fun g h => h.setV d (g.mapV once (srcU g) fun t => (f g t).lo)) fun g => g.vcost once) := by
  rw [floatVec]
  refine congrArg (issue i s) (funext₂ fun g s => ?_)
  simp only [raising]

theorem floatPair_eq (i : Instr) (s : State) (once : Bool) (d : Fld) (srcU : Group → Bool) (f : Group → Nat → Elem) :
    floatPair i s once d srcU f = issue i s (raising (fun g => (g.computing once).flatMap fun t => (f g t).fl)
      (fun g h => h.setPair d (g.mapV once (srcU g) fun t => (f g t).lo) (g.mapV once (srcU g) fun t => (f g t).hi))
      fun g => g.pcost once) := by
  rw [floatPair]
  refine congrArg (issue i s) (funext₂ fun g s => ?_)
  simp only [raising]

theorem order_eq (x : Nat) : order x = if fp32.neg x then -(fp32.mag x : Int) else fp32.mag x := rfl

/-- A compare raises NV, then writes the mask of the threads that pass its test. -/
theorem floatCmp_eq (i : Instr) (s : State) (d a b : Fld) (cond : Int → Int → Bool) (onNan quietNv : Bool) :
    let nan := fun (g : Group) t => fp32.isNan (g.el a t) || fp32.isNan (g.el b t)
    floatCmp i s d a b cond onNan quietNv = issue i s (raising
      (fun g => g.ts.map fun t =>
        { Flags.zero with nv := fp32.isSig (g.el a t) || fp32.isSig (g.el b t) || (quietNv && nan g t) })
      (fun g h => h.writeS d (maskOf (g.ts.filter fun t =>
        if nan g t then onNan else cond (order (g.el a t)) (order (g.el b t)))))
      fun g => g.vcost false) := by
  intro nan
  rw [floatCmp]
  refine congrArg (issue i s) (funext₂ fun g s => ?_)
  simp only [raising, nan, Group.ts, order_eq]

section Forms

variable {i : Instr} {s : State} {g : Group} {once : Bool} {d a b : Fld}

/-- An instruction of one result per thread. -/
theorem floats_of_floatVec {uni : Prop} {val : Nat → W32} {fl : Nat → List Flags} {srcU : Group → Bool}
    {f : Group → Nat → Elem} (hx : exec i s = floatVec i s once d srcU f) (hu : uni ↔ srcU g = true)
    (same : srcU g = true → ∀ x y, f g x = f g y) (hval : ∀ t, (f g t).lo = val t) (hfl : ∀ t, (f g t).fl = fl t) :
    Floats i s g once d uni val fl := by
  obtain rfl : (fun t => (f g t).lo) = val := funext hval
  obtain rfl : (fun t => (f g t).fl) = fl := funext hfl
  intro hi
  refine ⟨g.mapV once (srcU g) fun t => (f g t).lo, ?_, g.mapV_describes hu fun h x y => by rw [same h x y]⟩
  rw [← Group.computing_eq, ← Group.vcost_eq]
  have executes := exec_of_raising (hx.trans (floatVec_eq ..)) hi
  exact executes

/-- An exact-pair or double-word instruction. -/
theorem floatPairs_of_floatPair {uni : Prop} {srcU : Group → Bool} {f : Group → Nat → Pair} {val : Nat → Pair}
    (hx : exec i s = floatPair i s once d srcU fun g t => (f g t).elem) (hu : uni ↔ srcU g = true)
    (same : srcU g = true → ∀ x y, f g x = f g y) (hval : ∀ t, f g t = val t) : FloatPairs i s g once d uni val := by
  obtain rfl : f g = val := funext hval
  intro hi
  obtain ⟨thread, lowestThread⟩ := g.mapV_describes (once := once) (f := fun t => (f g t).elem.lo) hu
    fun h x y => by rw [same h x y]
  obtain ⟨thread', lowestThread'⟩ := g.mapV_describes (once := once) (f := fun t => (f g t).elem.hi) hu
    fun h x y => by rw [same h x y]
  refine ⟨g.mapV once (srcU g) fun t => (f g t).elem.lo, g.mapV once (srcU g) fun t => (f g t).elem.hi, ?_, fun each => ?_,
    fun one l hl => ⟨lowestThread one l hl, lowestThread' one l hl⟩⟩
  · have flags : ((Claims.computing g once).map fun t => (f g t).fl) =
        (g.computing once).flatMap fun t => (f g t).elem.fl := by
      rw [Group.computing_eq]
      exact List.map_eq_flatMap ..
    rw [flags, ← Group.pcost_eq]
    have executes := exec_of_raising (hx.trans (floatPair_eq ..)) hi
    exact executes
  · obtain ⟨value, isU, notU⟩ := thread each
    obtain ⟨value', isU', notU'⟩ := thread' each
    refine ⟨fun t ht => ⟨value t ht, value' t ht⟩, fun h => ⟨isU h, isU' h⟩, fun h => ?_⟩
    obtain ⟨hiU, hiA⟩ := notU h
    obtain ⟨loU, loA⟩ := notU' h
    exact ⟨hiU, hiA, loU, loA⟩

/-- An instruction of one FP32 source. -/
theorem float1_of_float1 {f : RMode → Nat → FRes} (hx : exec i s = float1 i s once d a f) :
    Float1 i s g once d ((g.v a).isU = true) (fun t => f (RMode.ofBits (g.fpm.toNat % 4)) ((g.v a).get t).toNat) := by
  rw [← Group.rm_eq]
  rw [float1] at hx
  exact floats_of_floatVec hx Iff.rfl (fun hu x y => by rw [Group.el_of_isU hu x y]) (fun _ => rfl) fun _ => rfl

/-- An instruction of two FP32 sources. -/
theorem float1_of_float2 {f : RMode → Nat → Nat → FRes} (hx : exec i s = float2 i s once d a b f) :
    Float1 i s g once d ((g.v a).isU = true ∧ (g.v b).isU = true)
      (fun t => f (RMode.ofBits (g.fpm.toNat % 4)) ((g.v a).get t).toNat ((g.v b).get t).toNat) := by
  rw [← Group.rm_eq]
  rw [float2] at hx
  refine floats_of_floatVec hx (Bool.and_eq_true ..).symm.to_iff (fun hu x y => ?_) (fun _ => rfl) fun _ => rfl
  obtain ⟨ha, hb⟩ := (Bool.and_eq_true ..).to_iff.mp hu
  rw [Group.el_of_isU ha x y, Group.el_of_isU hb x y]

/-- All of three sources have shape U. -/
theorem isU3_iff : ((g.v d).isU = true ∧ (g.v a).isU = true ∧ (g.v b).isU = true) ↔
    ((g.v d).isU && (g.v a).isU && (g.v b).isU) = true := by
  rw [Bool.and_eq_true, Bool.and_eq_true, and_assoc]

/-- An instruction of two FP32 sources and the prior destination. -/
theorem float1_of_float3 {f : RMode → Nat → Nat → Nat → FRes} (hx : exec i s = float3 i s once d a b f) :
    Float1 i s g once d ((g.v d).isU = true ∧ (g.v a).isU = true ∧ (g.v b).isU = true)
      (fun t => f (RMode.ofBits (g.fpm.toNat % 4)) ((g.v d).get t).toNat ((g.v a).get t).toNat ((g.v b).get t).toNat) := by
  rw [← Group.rm_eq]
  rw [float3] at hx
  refine floats_of_floatVec hx isU3_iff (fun hu x y => ?_) (fun _ => rfl) fun _ => rfl
  obtain ⟨hd, ha, hb⟩ := isU3_iff.mpr hu
  rw [Group.el_of_isU hd x y, Group.el_of_isU ha x y, Group.el_of_isU hb x y]

/-- What a packed instruction writes and raises, from the results of the two halves of each thread. -/
def TwoHalves (i : Instr) (s : State) (g : Group) (once : Bool) (d : Fld) (uni : Prop) (f : Nat → FRes × FRes) : Prop :=
  Floats i s g once d uni (fun t => BitVec.ofNat 32 ((f t).1.x + 2 ^ 16 * (f t).2.x)) fun t => [(f t).1.fl, (f t).2.fl]

theorem packed_lo (r0 r1 : FRes) : (packed r0 r1).lo = BitVec.ofNat 32 (r0.x + 2 ^ 16 * r1.x) := by
  rw [packed, mul_comm]

/-- A packed instruction of two sources. -/
theorem twoHalves_of_pack2 {f : RMode → Nat → Nat → FRes} (hx : exec i s = pack2 i s once d a b f) :
    TwoHalves i s g once d ((g.v a).isU = true ∧ (g.v b).isU = true) (fun t =>
      (f (RMode.ofBits (g.fpm.toNat % 4)) (((g.v a).get t).toNat % 2 ^ 16) (((g.v b).get t).toNat % 2 ^ 16),
        f (RMode.ofBits (g.fpm.toNat % 4)) (((g.v a).get t).toNat / 2 ^ 16) (((g.v b).get t).toNat / 2 ^ 16))) := by
  rw [← Group.rm_eq]
  rw [pack2] at hx
  refine floats_of_floatVec hx (Bool.and_eq_true ..).symm.to_iff (fun hu x y => ?_) (fun _ => packed_lo ..) fun _ => rfl
  obtain ⟨ha, hb⟩ := (Bool.and_eq_true ..).to_iff.mp hu
  rw [Group.el_of_isU ha x y, Group.el_of_isU hb x y]

/-- A packed instruction of two sources and the prior destination. -/
theorem twoHalves_of_pack3 {f : RMode → Nat → Nat → Nat → FRes} (hx : exec i s = pack3 i s once d a b f) :
    TwoHalves i s g once d ((g.v d).isU = true ∧ (g.v a).isU = true ∧ (g.v b).isU = true) (fun t =>
      (f (RMode.ofBits (g.fpm.toNat % 4)) (((g.v d).get t).toNat % 2 ^ 16) (((g.v a).get t).toNat % 2 ^ 16)
          (((g.v b).get t).toNat % 2 ^ 16),
        f (RMode.ofBits (g.fpm.toNat % 4)) (((g.v d).get t).toNat / 2 ^ 16) (((g.v a).get t).toNat / 2 ^ 16)
          (((g.v b).get t).toNat / 2 ^ 16))) := by
  rw [← Group.rm_eq]
  rw [pack3] at hx
  refine floats_of_floatVec hx isU3_iff (fun hu x y => ?_) (fun _ => packed_lo ..) fun _ => rfl
  obtain ⟨hd, ha, hb⟩ := isU3_iff.mpr hu
  rw [Group.el_of_isU hd x y, Group.el_of_isU ha x y, Group.el_of_isU hb x y]

/-- A compare writes the bits of the active threads that pass its test, and raises NV where it should. -/
theorem floatMask_of_floatCmp {cond : Int → Int → Bool} {onNan quietNv : Bool} {passes : Nat → Prop} {nv : Nat → Bool}
    (hx : exec i s = floatCmp i s d a b cond onNan quietNv)
    (hp : ∀ t, (if fp32.isNan (g.el a t) || fp32.isNan (g.el b t) then onNan
      else cond (order (g.el a t)) (order (g.el b t))) = true ↔ passes t)
    (hn : ∀ t, (fp32.isSig (g.el a t) || fp32.isSig (g.el b t) ||
      (quietNv && (fp32.isNan (g.el a t) || fp32.isNan (g.el b t)))) = nv t) : FloatMask i s g d passes nv := by
  intro hi
  refine ⟨maskOf ((actives g).filter fun t => if fp32.isNan (g.el a t) || fp32.isNan (g.el b t) then onNan
    else cond (order (g.el a t)) (order (g.el b t))), fun t ht => ?_, ?_⟩
  · rw [getLsbD_maskOf _ t ht, List.mem_filter, actives_eq, g.mem_active_threads, hp]
  · have executes := exec_of_raising (hx.trans (floatCmp_eq ..)) hi
    simp only [hn, Group.vcost_eq, Group.ts, ← actives_eq] at executes
    exact executes

end Forms

/-! ## Packed halves and conversions -/

theorem bits_selector (sel : Fld) : bits sel.toNat 6 2 = sel.toNat / 4 := by
  rw [bits_eq]
  exact Nat.mod_eq_of_lt (by omega)

/-- Settles O14: an instruction is one of two halves, of three sources, or a conversion by its selector. -/
theorem packedAndConversionResults : Obligations.PackedAndConversionResults := by
  intro s g e u d a b sel x y z lo hi rm u2 u3 two
  refine ⟨twoHalves_of_pack2 (Laws.exec_vhaddBf ..), twoHalves_of_pack2 (Laws.exec_vhmulBf ..),
    twoHalves_of_pack3 (Laws.exec_vhfmaBf ..), twoHalves_of_pack2 (Laws.exec_vhaddH ..),
    twoHalves_of_pack2 (Laws.exec_vhmulH ..), twoHalves_of_pack3 (Laws.exec_vhfmaH ..),
    float1_of_float3 (Laws.exec_vhdotBf ..), ?_⟩
  have converts := float1_of_float1 (g := g) (Laws.exec_vcvt e u d a sel s)
  rw [bits_selector, ← RMode.ofBits_mod] at converts
  exact converts

/-! ## Compares, exact pairs and double words -/

/-- A signalling NaN is a NaN. -/
theorem isSig_or_isNan (x y : Nat) :
    (fp32.isSig x || fp32.isSig y || (fp32.isNan x || fp32.isNan y)) = (fp32.isNan x || fp32.isNan y) := by
  rw [Fmt.isSig, Fmt.isSig]
  cases fp32.isNan x <;> cases fp32.isNan y <;> simp

theorem floatCompareResults : FloatCompareResults := by
  intro s g e d a b x y nan sig
  have number {cond : Int → Int → Bool} {holds : Int → Int → Prop} (hc : ∀ p q, cond p q = true ↔ holds p q) (t : Nat) :
      (if nan t then false else cond (order (x t)) (order (y t))) = true ↔
        nan t = false ∧ holds (order (x t)) (order (y t)) := by
    rw [← hc]
    cases nan t <;> simp
  have soft (t : Nat) : (sig t || (false && nan t)) = sig t := by
    rw [Bool.false_and, Bool.or_false]
  have loud (t : Nat) : (sig t || (true && nan t)) = nan t := isSig_or_isNan ..
  refine ⟨floatMask_of_floatCmp (Laws.exec_vfceq ..) (number fun _ _ => beq_iff_eq) soft,
    floatMask_of_floatCmp (Laws.exec_vfclt ..) (number fun _ _ => decide_eq_true_iff) loud,
    floatMask_of_floatCmp (Laws.exec_vfcle ..) (number fun _ _ => decide_eq_true_iff) loud,
    floatMask_of_floatCmp (Laws.exec_vfcun ..) (fun t => ?_) soft⟩
  change (if nan t then true else false) = true ↔ nan t = true
  cases nan t <;> simp

theorem Group.pairU_iff (g : Group) (f : Fld) : ((g.v f).isU = true ∧ (g.v1 f).isU = true) ↔ g.pairU f = true :=
  (Bool.and_eq_true ..).symm.to_iff

section Pairs

variable {i : Instr} {s : State} {g : Group} {once : Bool} {d a b : Fld} {uni : Prop} {val : Nat → Pair}

/-- A pair instruction of two elements. -/
theorem floatPairs_of_elements {f : Nat → Nat → Pair}
    (hx : exec i s = floatPair i s once d (fun g => (g.v a).isU && (g.v b).isU) fun g t => (f (g.el a t) (g.el b t)).elem)
    (hval : ∀ t, f (g.el a t) (g.el b t) = val t) :
    FloatPairs i s g once d ((g.v a).isU = true ∧ (g.v b).isU = true) val := by
  refine floatPairs_of_floatPair (f := fun g t => f (g.el a t) (g.el b t)) hx (Bool.and_eq_true ..).symm.to_iff
    (fun hu x y => ?_) hval
  obtain ⟨ha, hb⟩ := (Bool.and_eq_true ..).to_iff.mp hu
  simp only [Group.el_of_isU ha x y, Group.el_of_isU hb x y]

/-- A pair instruction of two double words. -/
theorem floatPairs_of_doubleWords {f : Nat → Nat → Nat → Nat → Pair}
    (hx : exec i s = floatPair i s once d (fun g => g.pairU a && g.pairU b) fun g t =>
      (f (g.el a t) (g.el1 a t) (g.el b t) (g.el1 b t)).elem)
    (hval : ∀ t, f (g.el a t) (g.el1 a t) (g.el b t) (g.el1 b t) = val t) :
    FloatPairs i s g once d
      (((g.v a).isU = true ∧ (g.v1 a).isU = true) ∧ (g.v b).isU = true ∧ (g.v1 b).isU = true) val := by
  rw [g.pairU_iff, g.pairU_iff, ← Bool.and_eq_true]
  refine floatPairs_of_floatPair (f := fun g t => f (g.el a t) (g.el1 a t) (g.el b t) (g.el1 b t)) hx Iff.rfl
    (fun hu x y => ?_) hval
  obtain ⟨ha, hb⟩ := (Bool.and_eq_true ..).to_iff.mp hu
  obtain ⟨ha, ha1⟩ := (g.pairU_iff a).mpr ha
  obtain ⟨hb, hb1⟩ := (g.pairU_iff b).mpr hb
  simp only [Group.el_of_isU ha x y, Group.el1_of_isU ha1 x y, Group.el_of_isU hb x y, Group.el1_of_isU hb1 x y]

end Pairs

theorem floatPairResults : FloatPairResults := by
  intro s g e u d a b x x1 y y1 neg v2 p1 p2
  refine ⟨floatPairs_of_elements (f := twoSum) (Laws.exec_vfaddX ..) fun _ => rfl,
    floatPairs_of_elements (f := fun x y => twoSum x (flipSign y)) (Laws.exec_vfsubX ..) fun _ => congrArg _ (flipSign_toNat _),
    floatPairs_of_elements (f := twoProd) (Laws.exec_vfmulX ..) fun _ => rfl,
    floatPairs_of_doubleWords (f := dwAdd) (Laws.exec_vdwadd ..) fun _ => rfl,
    floatPairs_of_doubleWords (f := fun xh xl yh yl => dwAdd xh xl (flipSign yh) (flipSign yl)) (Laws.exec_vdwsub ..)
      fun _ => congrArg₂ _ (flipSign_toNat _) (flipSign_toNat _),
    floatPairs_of_doubleWords (f := dwMul) (Laws.exec_vdwmul ..) fun _ => rfl, ?_, ?_⟩
  · refine floatPairs_of_floatPair (f := fun g t => dwMulF (g.el a t) (g.el1 a t) (g.el b t)) (Laws.exec_vdwmulf ..) ?_
      (fun hu t v => ?_) fun _ => rfl
    · rw [Bool.and_eq_true, ← g.pairU_iff]
    · obtain ⟨ha, hb⟩ := (Bool.and_eq_true ..).to_iff.mp hu
      obtain ⟨ha, ha1⟩ := (g.pairU_iff a).mpr ha
      simp only [Group.el_of_isU ha t v, Group.el1_of_isU ha1 t v, Group.el_of_isU hb t v]
  · refine floatPairs_of_floatPair (f := fun g t => dwRen (g.el a t) (g.el1 a t)) (Laws.exec_vdwren ..) (g.pairU_iff a)
      (fun hu t v => ?_) fun _ => rfl
    obtain ⟨ha, ha1⟩ := (g.pairU_iff a).mpr hu
    simp only [Group.el_of_isU ha t v, Group.el1_of_isU ha1 t v]

/-- Settles O12: a compare by its condition on numbers and on NaNs, a pair by its function of the members. -/
theorem floatCompareAndPairResults : Obligations.FloatCompareAndPairResults := ⟨floatCompareResults, floatPairResults⟩

end Sys2Proof.Machine
end

section
/-!
Rounding: the magnitudes of a format as real numbers, and where between two of them a rounded value stands.
-/

namespace Sys2Proof.Machine

open Sys2Proof Sys2Proof.Claims

/-! ## Formats -/

/-- A format without saturation: the magnitudes with the largest exponent are the infinity and the NaNs (R114, R116). -/
structure Fmt.Regular (f : Fmt) : Prop where
  sat : f.sat = false
  frac : 1 ≤ f.frac
  max : f.maxMag + 1 = f.infMag
  inf : f.infMag = (2 * f.bias + 1) * 2 ^ f.frac
  sign : f.infMag + 2 ^ f.frac = 2 ^ f.sign

theorem regular_fp32 : fp32.Regular := by constructor <;> decide
theorem regular_bf16 : bf16.Regular := by constructor <;> decide
theorem regular_fp16 : fp16.Regular := by constructor <;> decide
theorem regular_e5m2 : e5m2.Regular := by constructor <;> decide

/-! ## Magnitudes -/

/-- The number that a magnitude is, the range of exponents being unbounded above. -/
noncomputable def Fmt.level (f : Fmt) (k : Nat) : ℝ :=
  if k / 2 ^ f.frac = 0 then ((k % 2 ^ f.frac : Nat) : ℝ) * (2 : ℝ) ^ f.qmin
  else ((2 ^ f.frac + k % 2 ^ f.frac : Nat) : ℝ) * (2 : ℝ) ^ (f.qmin + (((k / 2 ^ f.frac : Nat) : Int) - 1))

/-- A magnitude of `n` units of a binade, the next binade's first magnitude included. -/
theorem Fmt.level_units (f : Fmt) {j n : Nat} (le : n ≤ 2 ^ (f.frac + 1)) (normal : j = 0 ∨ 2 ^ f.frac ≤ n) :
    f.level (j * 2 ^ f.frac + n) = n * (2 : ℝ) ^ (f.qmin + j) := by
  have pos : 0 < 2 ^ f.frac := Nat.two_pow_pos _
  have double : 2 ^ (f.frac + 1) = 2 ^ f.frac + 2 ^ f.frac := by ring
  obtain small | ⟨c, rfl⟩ : n < 2 ^ f.frac ∨ ∃ c, n = 2 ^ f.frac + c := by
    obtain h | h := lt_or_ge n (2 ^ f.frac)
    · exact .inl h
    · exact .inr ⟨n - 2 ^ f.frac, by omega⟩
  · obtain rfl : j = 0 := normal.resolve_right (by omega)
    rw [Fmt.level, Nat.zero_mul, Nat.zero_add, if_pos (Nat.div_eq_of_lt small), Nat.mod_eq_of_lt small, Nat.cast_zero, add_zero]
  · have split : j * 2 ^ f.frac + (2 ^ f.frac + c) = c + 2 ^ f.frac * (j + 1) := by ring
    have positive : c / 2 ^ f.frac + (j + 1) ≠ 0 := Nat.succ_ne_zero _
    rw [Fmt.level, split, Nat.add_mul_div_left _ _ pos, Nat.add_mul_mod_self_left, if_neg positive]
    obtain inside | rfl : c < 2 ^ f.frac ∨ c = 2 ^ f.frac := by omega
    · rw [Nat.div_eq_of_lt inside, Nat.mod_eq_of_lt inside]
      push_cast
      ring_nf
    · rw [Nat.div_self pos, Nat.mod_self]
      rw [show (f.qmin + (((1 + (j + 1) : Nat) : Int) - 1)) = f.qmin + j + 1 by push_cast; ring, zpow_add_one₀ two_ne_zero]
      push_cast
      ring

/-- The magnitude `k` in units of its binade. -/
theorem Fmt.units_of (f : Fmt) (k : Nat) : ∃ j n, k = j * 2 ^ f.frac + n ∧ n < 2 ^ (f.frac + 1) ∧ (j = 0 ∨ 2 ^ f.frac ≤ n) := by
  have pos : 0 < 2 ^ f.frac := Nat.two_pow_pos _
  have double : 2 ^ (f.frac + 1) = 2 ^ f.frac + 2 ^ f.frac := by ring
  have whole := Nat.div_add_mod' k (2 ^ f.frac)
  have rest := Nat.mod_lt k pos
  obtain h | ⟨j, h⟩ : k / 2 ^ f.frac = 0 ∨ ∃ j, k / 2 ^ f.frac = j + 1 := by
    cases k / 2 ^ f.frac with
    | zero => exact .inl rfl
    | succ j => exact .inr ⟨j, rfl⟩
  · exact ⟨0, k, by ring, by rw [h] at whole; omega, .inl rfl⟩
  · refine ⟨j, 2 ^ f.frac + k % 2 ^ f.frac, ?_, by omega, .inr (by omega)⟩
    rw [h] at whole
    linarith

theorem Fmt.level_zero (f : Fmt) : f.level 0 = 0 := by
  have zero := f.level_units (j := 0) (n := 0) (by positivity) (.inl rfl)
  simpa using zero

theorem Fmt.level_strictMono (f : Fmt) : StrictMono f.level := by
  refine strictMono_nat_of_lt_succ fun k => ?_
  obtain ⟨j, n, rfl, below, normal⟩ := f.units_of k
  rw [f.level_units below.le normal, add_assoc, f.level_units below (normal.imp_right (by omega))]
  have unit : (0 : ℝ) < 2 ^ (f.qmin + j) := by positivity
  push_cast
  linarith

theorem Fmt.level_nonneg (f : Fmt) (k : Nat) : 0 ≤ f.level k :=
  f.level_zero ▸ f.level_strictMono.monotone (Nat.zero_le k)

/-- The infinity's magnitude would be the first power of two beyond the range. -/
theorem Fmt.Regular.level_inf {f : Fmt} (hf : f.Regular) : f.level f.infMag = (2 : ℝ) ^ ((f.bias : Int) + 1) := by
  have units := f.level_units (j := 2 * f.bias) (n := 2 ^ f.frac) (Nat.pow_le_pow_right two_pos (Nat.le_succ _)) (.inr le_rfl)
  rw [hf.inf, Nat.add_one_mul, units, Nat.cast_pow, Nat.cast_ofNat, ← zpow_natCast, ← zpow_add₀ two_ne_zero, Fmt.qmin]
  congr 1
  push_cast
  ring

/-! ## Between two magnitudes -/

/-- Whether a value `y` from `lo` on and below `hi`, of which `lo` has the number `k`, is rounded up to `hi`. -/
def RoundsUp (md : RMode) (neg : Bool) (k : Nat) (lo y hi : ℝ) : Prop :=
  match md with
  | .rne => lo + hi < 2 * y ∨ lo + hi = 2 * y ∧ k % 2 = 1
  | .rz => False
  | .ru => neg = false ∧ lo ≠ y
  | .rd => neg = true ∧ lo ≠ y

theorem RoundsUp.scale (md : RMode) (neg : Bool) (k : Nat) (lo y hi : ℝ) {c : ℝ} (hc : 0 < c) :
    RoundsUp md neg k (lo * c) (y * c) (hi * c) ↔ RoundsUp md neg k lo y hi := by
  have sum : lo * c + hi * c = (lo + hi) * c := by ring
  have twice : 2 * (y * c) = 2 * y * c := by ring
  cases md with
  | rne => simp only [RoundsUp, sum, twice, mul_lt_mul_iff_of_pos_right hc, mul_left_inj' hc.ne']
  | rz => rfl
  | ru => simp only [RoundsUp, ne_eq, mul_left_inj' hc.ne']
  | rd => simp only [RoundsUp, ne_eq, mul_left_inj' hc.ne']

theorem RoundsUp.congr_parity {md : RMode} {neg : Bool} {k n : Nat} {lo y hi : ℝ} (h : k % 2 = n % 2) :
    RoundsUp md neg k lo y hi ↔ RoundsUp md neg n lo y hi := by
  cases md <;> simp only [RoundsUp, h]

/-- What is not above its lower neighbour is not rounded up. -/
theorem RoundsUp.ne {md : RMode} {neg : Bool} {k : Nat} {lo y hi : ℝ} (up : RoundsUp md neg k lo y hi) (lt : lo < hi) :
    lo ≠ y := by
  rintro rfl
  cases md with
  | rne =>
    obtain above | ⟨tie, -⟩ := up <;> linarith
  | rz => exact up
  | ru => exact up.2 rfl
  | rd => exact up.2 rfl

/-! ## Units -/

/-- `m · 2^e` stands for `y`: it is `y`, or its lowest bit says that `y` lies somewhere between its two neighbours, beside `p`
bits or more above that bit. -/
def StandsFor (p m : Nat) (e : Int) (y : ℝ) : Prop :=
  y = m * (2 : ℝ) ^ e ∨
    (m % 2 = 1 ∧ 2 ^ p ≤ m ∧ ((m : ℝ) - 1) * (2 : ℝ) ^ e < y ∧ y < ((m : ℝ) + 1) * (2 : ℝ) ^ e)

/-- A number of some units, rounded to an integer: the integer below, and whether it goes up. -/
def RoundedUnits (md : RMode) (neg : Bool) (t : ℝ) (r : Nat × Bool) : Prop :=
  ∃ (n : Nat) (up : Bool), (n : ℝ) ≤ t ∧ t < n + 1 ∧ (up = true ↔ RoundsUp md neg n n t (n + 1)) ∧
    r.1 = n + b2n up ∧ (r.2 = true ↔ (n : ℝ) ≠ t)

/-- `m` in units of `2^-s` marks `t`: it is `t`, or it is odd and `t` lies between its two neighbours. -/
def Marks (m s : Nat) (t : ℝ) : Prop :=
  t * 2 ^ s = m ∨ (m % 2 = 1 ∧ 2 ≤ s ∧ (m : ℝ) - 1 < t * 2 ^ s ∧ t * 2 ^ s < (m : ℝ) + 1)

/-- `m · 2^-s` rounded to an integer, and whether it was inexact: `roundUnits` below the unit. -/
def roundShift (md : RMode) (neg : Bool) (m s : Nat) : Nat × Bool :=
  let n := m / 2 ^ s
  let r := m % 2 ^ s
  let up := match md with
    | .rne => 2 ^ s < 2 * r || (2 * r == 2 ^ s && n % 2 == 1)
    | .rz => false
    | .ru => !neg && r != 0
    | .rd => neg && r != 0
  (n + b2n up, r != 0)

theorem roundUnits_of_le {q e : Int} (md : RMode) (neg : Bool) (m : Nat) (h : q ≤ e) :
    roundUnits md neg m e q = (m * 2 ^ (e - q).toNat, false) := if_pos h

theorem roundUnits_of_lt {q e : Int} (md : RMode) (neg : Bool) (m : Nat) (h : e < q) :
    roundUnits md neg m e q = if m.log2 + 2 < (q - e).toNat then roundShift md neg (if m = 0 then 0 else 1) 2
      else roundShift md neg m (q - e).toNat := by
  rw [roundUnits, if_neg (not_le.mpr h)]
  by_cases far : m.log2 + 2 < (q - e).toNat
  · simp only [if_pos far]
    rfl
  · simp only [if_neg far]
    rfl

/-- Where the rest `w` of a marked number stands beside nothing, the unit and its half: as the rest `r` of the mark does. -/
theorem Marks.rest {r s : Nat} {w : ℝ} (small : r < 2 ^ s)
    (h : w = r ∨ (r % 2 = 1 ∧ 2 ≤ s ∧ (r : ℝ) - 1 < w ∧ w < (r : ℝ) + 1)) :
    (0 ≤ w ∧ w < 2 ^ s) ∧ (r ≠ 0 ↔ 0 ≠ w) ∧ (2 ^ s < 2 * r ↔ (2 : ℝ) ^ s < 2 * w) ∧ (2 * r = 2 ^ s ↔ (2 : ℝ) ^ s = 2 * w) := by
  obtain rfl | ⟨odd, two, below, above⟩ := h
  · refine ⟨⟨by positivity, by exact_mod_cast small⟩, ?_, by exact_mod_cast Iff.rfl, ?_⟩
    · rw [ne_comm (a := (0 : ℝ)), Ne, Ne, Nat.cast_eq_zero]
    · rw [eq_comm]
      exact_mod_cast Iff.rfl
  · obtain ⟨k, rfl⟩ := Nat.exists_eq_add_of_le two
    obtain ⟨c, rfl⟩ : ∃ c, r = 2 * c + 1 := ⟨r / 2, by omega⟩
    rw [pow_add] at small
    have four : (2 : ℝ) ^ (2 + k) = 4 * ((2 ^ k : Nat) : ℝ) := by
      push_cast
      ring
    have fourN : 2 ^ (2 + k) = 4 * 2 ^ k := by ring
    rw [four, fourN]
    generalize 2 ^ k = h at small ⊢
    push_cast at below above
    have half : 4 * h < 2 * (2 * c + 1) ∧ h ≤ c ∨ 2 * (2 * c + 1) < 4 * h ∧ c + 1 ≤ h := by omega
    have top : (c : ℝ) + 1 ≤ 2 * h := by exact_mod_cast (show c + 1 ≤ 2 * h by omega)
    have positive : 0 < w := by
      have : (0 : ℝ) ≤ c := Nat.cast_nonneg c
      linarith
    refine ⟨⟨positive.le, by linarith⟩, iff_of_true (by omega) positive.ne, ?_⟩
    obtain ⟨more, le⟩ | ⟨less, le⟩ := half
    · have leR : (h : ℝ) ≤ c := by exact_mod_cast le
      exact ⟨iff_of_true more (by linarith), iff_of_false (by omega) fun tie => by linarith⟩
    · have leR : (c : ℝ) + 1 ≤ h := by exact_mod_cast le
      exact ⟨iff_of_false (by omega) (by linarith), iff_of_false (by omega) fun tie => by linarith⟩

/-- Where `t` stands beside the integer below the number that marks it, and beside the middle above it. -/
theorem Marks.place {m s : Nat} {t : ℝ} (h : Marks m s t) :
    (((m / 2 ^ s : Nat) : ℝ) ≤ t ∧ t < ((m / 2 ^ s : Nat) : ℝ) + 1) ∧ (m % 2 ^ s ≠ 0 ↔ ((m / 2 ^ s : Nat) : ℝ) ≠ t) ∧
    (2 ^ s < 2 * (m % 2 ^ s) ↔ ((m / 2 ^ s : Nat) : ℝ) + (((m / 2 ^ s : Nat) : ℝ) + 1) < 2 * t) ∧
    (2 * (m % 2 ^ s) = 2 ^ s ↔ ((m / 2 ^ s : Nat) : ℝ) + (((m / 2 ^ s : Nat) : ℝ) + 1) = 2 * t) := by
  have unit : (0 : ℝ) < 2 ^ s := by positivity
  have whole : (2 : ℝ) ^ s * ((m / 2 ^ s : Nat) : ℝ) + ((m % 2 ^ s : Nat) : ℝ) = m := by exact_mod_cast Nat.div_add_mod m (2 ^ s)
  have parity (two : 2 ≤ s) : m % 2 ^ s % 2 = m % 2 := Nat.mod_mod_of_dvd _ (dvd_pow_self 2 (by omega))
  obtain ⟨⟨nonneg, lt⟩, zero, more, tie⟩ := Marks.rest (w := t * 2 ^ s - 2 ^ s * ((m / 2 ^ s : Nat) : ℝ))
    (Nat.mod_lt m (Nat.two_pow_pos s)) (h.imp (fun exact => by rw [exact]; linarith)
      fun ⟨odd, two, below, above⟩ => ⟨(parity two).trans odd, two, by linarith, by linarith⟩)
  generalize ((m / 2 ^ s : Nat) : ℝ) = n at *
  rw [zero, more, tie]
  refine ⟨⟨?_, ?_⟩, ?_, ?_, ?_⟩
  · exact le_of_mul_le_mul_left (by linarith) unit
  · exact lt_of_mul_lt_mul_left (a := (2 : ℝ) ^ s) (by linarith) unit.le
  · refine not_congr ?_
    rw [← mul_right_inj' unit.ne' (b := n)]
    exact ⟨fun h => by linarith, fun h => by linarith⟩
  · rw [← mul_lt_mul_iff_right₀ unit (b := n + (n + 1))]
    exact ⟨fun h => by linarith, fun h => by linarith⟩
  · rw [← mul_right_inj' unit.ne' (b := n + (n + 1))]
    exact ⟨fun h => by linarith, fun h => by linarith⟩

theorem Marks.roundShift (md : RMode) (neg : Bool) {m s : Nat} {t : ℝ} (h : Marks m s t) :
    RoundedUnits md neg t (roundShift md neg m s) := by
  obtain ⟨⟨below, above⟩, whole, high, middle⟩ := h.place
  refine ⟨m / 2 ^ s, _, below, above, ?_, rfl, ?_⟩
  · cases md with
    | rne => simp only [RoundsUp, Bool.or_eq_true, Bool.and_eq_true, decide_eq_true_eq, beq_iff_eq, high, middle]
    | rz => simp only [RoundsUp, Bool.false_eq_true]
    | ru => simp only [RoundsUp, Bool.and_eq_true, Bool.not_eq_true', bne_iff_ne, whole]
    | rd => simp only [RoundsUp, Bool.and_eq_true, bne_iff_ne, whole]
  · rw [← whole]
    exact bne_iff_ne

/-- Far below the unit one bit marks a number as well as all of them. -/
theorem Marks.collapse {m s : Nat} {t : ℝ} (h : Marks m s t) (far : m.log2 + 2 < s) : Marks (if m = 0 then 0 else 1) 2 t := by
  obtain ⟨k, rfl⟩ := Nat.exists_eq_add_of_le' (show 2 ≤ s by omega)
  have unit : (0 : ℝ) < 2 ^ k := by positivity
  rw [Marks, pow_add] at h
  split
  next zero =>
    subst zero
    obtain exact | ⟨odd, -⟩ := h
    · refine .inl ?_
      have : t * 2 ^ 2 * 2 ^ k = 0 := by linarith [exact, Nat.cast_zero (R := ℝ)]
      simpa [unit.ne'] using this
    · exact absurd odd (by decide)
  next pos =>
    have inside : m + 1 ≤ 2 ^ k := (Nat.lt_log2_self (n := m)).trans_le (Nat.pow_le_pow_right two_pos (by omega))
    have insideR : (m : ℝ) + 1 ≤ 2 ^ k := by exact_mod_cast inside
    have posR : (1 : ℝ) ≤ m := by exact_mod_cast Nat.one_le_iff_ne_zero.mpr pos
    have between : 0 < t * 2 ^ 2 * 2 ^ k ∧ t * 2 ^ 2 * 2 ^ k < 1 * 2 ^ k := by
      obtain exact | ⟨-, -, below, above⟩ := h
      · exact ⟨by linarith, by linarith⟩
      · exact ⟨by linarith, by linarith⟩
    have low : 0 < t * 2 ^ 2 := pos_of_mul_pos_left between.1 unit.le
    have high : t * 2 ^ 2 < 1 := lt_of_mul_lt_mul_right between.2 unit.le
    exact .inr ⟨rfl, le_rfl, by norm_num at low ⊢; linarith, by norm_num at high ⊢; linarith⟩

/-- An integer is not rounded. -/
theorem roundedUnits_natCast (md : RMode) (neg : Bool) (n : Nat) : RoundedUnits md neg (n : ℝ) (n, false) :=
  ⟨n, false, le_rfl, lt_add_one _, iff_of_false Bool.false_ne_true fun up => up.ne (lt_add_one _) rfl, rfl,
    iff_of_false Bool.false_ne_true fun h => h rfl⟩

/-- `roundUnits` rounds what its operand stands for to an integer of units. -/
theorem roundUnits_rounds (md : RMode) (neg : Bool) {m : Nat} {e q : Int} {y : ℝ}
    (h : y = m * (2 : ℝ) ^ e ∨
      (m % 2 = 1 ∧ e + 2 ≤ q ∧ ((m : ℝ) - 1) * (2 : ℝ) ^ e < y ∧ y < ((m : ℝ) + 1) * (2 : ℝ) ^ e)) :
    RoundedUnits md neg (y / (2 : ℝ) ^ q) (roundUnits md neg m e q) := by
  have unit : (0 : ℝ) < (2 : ℝ) ^ e := by positivity
  obtain le | lt := le_or_gt q e
  · rw [roundUnits_of_le md neg m le]
    have exact : y = m * (2 : ℝ) ^ e := h.resolve_right fun ⟨_, far, _⟩ => by omega
    have value : y / (2 : ℝ) ^ q = ((m * 2 ^ (e - q).toNat : Nat) : ℝ) := by
      rw [exact, mul_div_assoc, ← zpow_sub₀ two_ne_zero]
      push_cast
      rw [← zpow_natCast, Int.toNat_of_nonneg (by omega)]
    rw [value]
    exact roundedUnits_natCast ..
  · have marks : Marks m (q - e).toNat (y / (2 : ℝ) ^ q) := by
      have scaled : y / (2 : ℝ) ^ q * 2 ^ (q - e).toNat = y / (2 : ℝ) ^ e := by
        rw [← zpow_natCast, Int.toNat_of_nonneg (by omega), zpow_sub₀ two_ne_zero]
        field_simp
      rw [Marks, scaled, div_eq_iff unit.ne', lt_div_iff₀ unit, div_lt_iff₀ unit]
      exact h.imp_right fun ⟨odd, far, between⟩ => ⟨odd, by omega, between⟩
    rw [roundUnits_of_lt md neg m lt]
    split
    next far => exact (marks.collapse far).roundShift md neg
    next => exact marks.roundShift md neg

/-! ## Rounding a magnitude -/

/-- What an overflow gives (R124). -/
def Fmt.overflow (f : Fmt) (md : RMode) (neg : Bool) : Nat × Flags :=
  (f.overflowMag md neg, { Flags.zero with ovf := true, nx := true })

/-- `r` is the number `y` rounded to a magnitude of a format: `y` stands from some magnitude on and below the next, and the mode
chooses one of the two, which overflows beyond the largest finite one (R122 to R124). -/
def Fmt.RoundsMag (f : Fmt) (md : RMode) (neg : Bool) (y : ℝ) (r : Nat × Flags) : Prop :=
  ∃ (k : Nat) (up : Bool), f.level k ≤ y ∧ y < f.level (k + 1) ∧
    (up = true ↔ RoundsUp md neg k (f.level k) y (f.level (k + 1))) ∧
    (f.maxMag < k + b2n up → r = f.overflow md neg) ∧
    (k + b2n up ≤ f.maxMag → r.1 = k + b2n up ∧ r.2.ovf = false ∧ (r.2.nx = true ↔ f.level k ≠ y))

/-- The power of two below what an operand stands for. -/
theorem StandsFor.range {p m : Nat} {e : Int} {y : ℝ} (h : StandsFor p m e y) (two : 2 ≤ p) (pos : m ≠ 0) :
    (2 : ℝ) ^ ((m.log2 : Int) + e) ≤ y ∧ y < (2 : ℝ) ^ ((m.log2 : Int) + e + 1) := by
  have unit : (0 : ℝ) < (2 : ℝ) ^ e := by positivity
  have low : 2 ^ m.log2 ≤ m := Nat.log2_self_le pos
  have high : m + 1 ≤ 2 ^ (m.log2 + 1) := Nat.lt_log2_self
  have lowR : (2 : ℝ) ^ m.log2 ≤ m := by exact_mod_cast low
  have highR : (m : ℝ) + 1 ≤ 2 ^ (m.log2 + 1) := by exact_mod_cast high
  rw [add_right_comm, zpow_add₀ two_ne_zero, zpow_add₀ two_ne_zero (_ + 1), zpow_natCast,
    show ((m.log2 : Int) + 1) = ((m.log2 + 1 : Nat) : Int) by push_cast; rfl, zpow_natCast]
  obtain rfl | ⟨odd, large, below, above⟩ := h
  · exact ⟨mul_le_mul_of_nonneg_right lowR unit.le, mul_lt_mul_of_pos_right (by linarith) unit⟩
  · have even : 2 ^ m.log2 + 1 ≤ m := by
      have exponent : m.log2 ≠ 0 := by
        intro zero
        have bound := Nat.lt_log2_self (n := m)
        have four : 2 ^ 2 ≤ 2 ^ p := Nat.pow_le_pow_right two_pos two
        rw [zero] at bound
        omega
      have : 2 ^ m.log2 % 2 = 0 := Nat.mod_eq_zero_of_dvd (dvd_pow_self 2 exponent)
      omega
    have evenR : (2 : ℝ) ^ m.log2 ≤ (m : ℝ) - 1 := by
      have : (2 : ℝ) ^ m.log2 + 1 ≤ m := by exact_mod_cast even
      linarith
    exact ⟨(mul_le_mul_of_nonneg_right evenR unit.le).trans below.le,
      above.trans_le (mul_le_mul_of_nonneg_right highR unit.le)⟩

theorem Fmt.roundMag_zero (f : Fmt) (md : RMode) (neg : Bool) (e : Int) : f.roundMag md neg 0 e = (0, Flags.zero) := if_pos rfl

/-- The unit in which a number of exponent `top` is rounded. -/
def Fmt.unit (f : Fmt) (top : Int) : Int := max (top - f.frac) f.qmin

theorem Fmt.unit_eq (f : Fmt) (top : Int) : ∃ j : Nat, f.unit top = f.qmin + j ∧
    (top - f.frac ≤ f.unit top) ∧ (j = 0 ∨ f.unit top = top - f.frac) := by
  obtain le | le := le_total (top - f.frac) f.qmin
  · exact ⟨0, by rw [Fmt.unit, max_eq_right le, Nat.cast_zero, add_zero], le_max_left .., .inl rfl⟩
  · refine ⟨(top - f.frac - f.qmin).toNat, ?_, le_max_left .., .inr (max_eq_left le)⟩
    rw [Fmt.unit, max_eq_left le]
    omega

/-- A positive magnitude is rounded in its unit, and overflows by its exponent or by what it rounds to. -/
theorem Fmt.roundMag_of_pos (f : Fmt) (md : RMode) (neg : Bool) {m : Nat} (e : Int) (pos : m ≠ 0) :
    let q := f.unit ((m.log2 : Int) + e)
    let n := roundUnits md neg m e q
    let mag := (q - f.qmin).toNat * 2 ^ f.frac + n.1
    ∃ fl : Flags, fl.ovf = false ∧ fl.nx = n.2 ∧
      f.roundMag md neg m e = if (f.bias : Int) + 1 < (m.log2 : Int) + e then f.overflow md neg
        else if f.maxMag < mag then f.overflow md neg else (mag, fl) := by
  intro q n mag
  let top : Int := (m.log2 : Int) + e
  let tiny := decide (top < 1 - f.bias) &&
    !(top == 1 - f.bias - 1 && (roundUnits md neg m e (top - f.frac)).1 == 2 ^ (f.frac + 1))
  refine ⟨{ Flags.zero with uf := n.2 && tiny, nx := n.2 }, rfl, rfl, ?_⟩
  rw [Fmt.roundMag, if_neg pos]
  rfl

/-- The integer part of a number in its unit fills the fraction, but for the numbers below the least normal one. -/
theorem Fmt.units_fill (f : Fmt) {top q : Int} {j n : Nat} {y : ℝ} (low : (2 : ℝ) ^ top ≤ y) (high : y < (2 : ℝ) ^ (top + 1))
    (room : top - f.frac ≤ q) (normal : j = 0 ∨ q = top - f.frac) (below : n * (2 : ℝ) ^ q ≤ y)
    (above : y < (n + 1) * (2 : ℝ) ^ q) : n < 2 ^ (f.frac + 1) ∧ (j = 0 ∨ 2 ^ f.frac ≤ n) := by
  have unit : (0 : ℝ) < (2 : ℝ) ^ q := by positivity
  have units (k : Nat) : ((2 ^ k : Nat) : ℝ) * (2 : ℝ) ^ q = (2 : ℝ) ^ (k + q) := by
    rw [zpow_add₀ two_ne_zero, zpow_natCast, Nat.cast_pow, Nat.cast_ofNat]
  constructor
  · have less : (n : ℝ) * (2 : ℝ) ^ q < ((2 ^ (f.frac + 1) : Nat) : ℝ) * (2 : ℝ) ^ q := by
      refine below.trans_lt (high.trans_le ?_)
      rw [units]
      exact zpow_le_zpow_right₀ one_le_two (by push_cast; omega)
    exact_mod_cast lt_of_mul_lt_mul_right less unit.le
  · refine normal.imp_right fun exponent => ?_
    have less : ((2 ^ f.frac : Nat) : ℝ) * (2 : ℝ) ^ q < ((n + 1 : Nat) : ℝ) * (2 : ℝ) ^ q := by
      rw [units, Nat.cast_add_one, exponent, add_sub_cancel, ← exponent]
      exact low.trans_lt above
    exact Nat.lt_succ_iff.mp (by exact_mod_cast lt_of_mul_lt_mul_right less unit.le)

/-- A number beyond the range of exponents stands beyond the largest finite magnitude. -/
theorem Fmt.Regular.maxMag_lt {f : Fmt} (hf : f.Regular) {top : Int} {k : Nat} {y : ℝ} (low : (2 : ℝ) ^ top ≤ y)
    (above : y < f.level (k + 1)) (far : (f.bias : Int) + 1 < top) : f.maxMag < k := by
  have beyond : f.level f.infMag < f.level (k + 1) := by
    rw [hf.level_inf]
    exact (zpow_lt_zpow_right₀ one_lt_two far).trans_le (low.trans above.le)
  have := f.level_strictMono.lt_iff_lt.mp beyond
  have := hf.max
  omega

theorem Fmt.Regular.roundMag_rounds {f : Fmt} (hf : f.Regular) (md : RMode) (neg : Bool) {m : Nat} {e : Int} {y : ℝ}
    (h : StandsFor (f.frac + 2) m e y) : f.RoundsMag md neg y (f.roundMag md neg m e) := by
  by_cases pos : m = 0
  · subst pos
    obtain rfl : y = 0 := by
      obtain zero | ⟨odd, -⟩ := h
      · rw [zero, Nat.cast_zero, zero_mul]
      · exact absurd odd (by decide)
    have above : 0 < f.level 1 := f.level_zero ▸ f.level_strictMono zero_lt_one
    rw [f.roundMag_zero]
    refine ⟨0, false, f.level_zero.le, above, iff_of_false Bool.false_ne_true fun up => ?_, fun lt => ?_, fun _ => ?_⟩
    · exact up.ne (f.level_strictMono (Nat.lt_succ_self 0)) f.level_zero
    · exact absurd lt (Nat.not_lt_zero _)
    · exact ⟨rfl, rfl, iff_of_false Bool.false_ne_true fun ne => ne f.level_zero⟩
  · obtain ⟨low, high⟩ := h.range (by omega) pos
    obtain ⟨fl, noOvf, nx, rounded⟩ := f.roundMag_of_pos md neg e pos
    obtain ⟨j, hj, room, normal⟩ := f.unit_eq ((m.log2 : Int) + e)
    rw [rounded]
    generalize f.unit ((m.log2 : Int) + e) = q at *
    obtain ⟨n, up, below, above, rule, value, inexact⟩ := roundUnits_rounds md neg (q := q)
      (h.imp_right fun ⟨odd, large, between⟩ => ⟨odd, by have := (Nat.le_log2 pos).mpr large; omega, between⟩)
    have unit : (0 : ℝ) < (2 : ℝ) ^ q := by positivity
    rw [le_div_iff₀ unit] at below
    rw [div_lt_iff₀ unit] at above
    rw [← RoundsUp.scale _ _ _ _ _ _ unit, div_mul_cancel₀ _ unit.ne'] at rule
    rw [ne_eq, eq_div_iff unit.ne'] at inexact
    obtain ⟨fits, leads⟩ := f.units_fill low high room normal below above
    have lo : f.level (j * 2 ^ f.frac + n) = n * (2 : ℝ) ^ q := by rw [f.level_units fits.le leads, hj]
    have hi : f.level (j * 2 ^ f.frac + n + 1) = (n + 1) * (2 : ℝ) ^ q := by
      rw [add_assoc, f.level_units fits (leads.imp_right (by omega)), hj, Nat.cast_add_one]
    have parity : n % 2 = (j * 2 ^ f.frac + n) % 2 := by
      have even : 2 ∣ j * 2 ^ f.frac := (dvd_pow_self 2 (Nat.one_le_iff_ne_zero.mp hf.frac)).mul_left j
      omega
    have mag : (q - f.qmin).toNat * 2 ^ f.frac + (roundUnits md neg m e q).1 = j * 2 ^ f.frac + n + b2n up := by
      rw [value, hj, add_sub_cancel_left, Int.toNat_natCast, add_assoc]
    rw [mag]
    refine ⟨j * 2 ^ f.frac + n, up, lo ▸ below, hi ▸ above, ?_, fun beyond => ?_, fun inside => ?_⟩
    · rw [rule, lo, hi, RoundsUp.congr_parity parity]
    · rw [if_pos beyond, ite_self]
    · have near : ¬(f.bias : Int) + 1 < (m.log2 : Int) + e := fun far =>
        absurd (hf.maxMag_lt low (hi ▸ above) far) (by omega)
      rw [if_neg near, if_neg (not_lt.mpr inside), nx, lo]
      exact ⟨rfl, noOvf, inexact⟩

end Sys2Proof.Machine
end

section
/-!
Rounding of signed values, and the operations on finite values that round the exact result.
-/

namespace Sys2Proof.Machine

open Sys2Proof Sys2Proof.Claims

/-! ## The magnitude delivered -/

section Delivered

variable {f : Fmt} {md : RMode} {neg : Bool} {y : ℝ} {r : Nat × Flags}

theorem Fmt.RoundsMag.nonneg (h : f.RoundsMag md neg y r) : 0 ≤ y := by
  obtain ⟨k, up, below, -⟩ := h
  exact (f.level_nonneg k).trans below

/-- A result that overflows stands for a number beyond the largest finite one. -/
theorem Fmt.RoundsMag.beyond (h : f.RoundsMag md neg y r) (ovf : r.2.ovf = true) : f.level f.maxMag < y := by
  obtain ⟨k, up, below, above, rule, -, inside⟩ := h
  have far : f.maxMag < k + b2n up := by
    by_contra near
    obtain ⟨-, no, -⟩ := inside (not_lt.mp near)
    exact Bool.false_ne_true (no.symm.trans ovf)
  cases up with
  | false => exact (f.level_strictMono far).trans_le below
  | true =>
    have strict : f.level k < y := below.lt_of_ne ((rule.mp rfl).ne (f.level_strictMono (Nat.lt_succ_self k)))
    exact (f.level_strictMono.monotone (Nat.lt_succ_iff.mp far)).trans_lt strict

/-- Any other is one of the two magnitudes beside the number, the upper one where the mode says so, and inexact exactly when it
differs. -/
theorem Fmt.RoundsMag.inside (h : f.RoundsMag md neg y r) (no : r.2.ovf = false) :
    r.1 ≤ f.maxMag ∧ (r.2.nx = true ↔ f.level r.1 ≠ y) ∧
    ((f.level r.1 ≤ y ∧ y < f.level (r.1 + 1) ∧ ¬RoundsUp md neg r.1 (f.level r.1) y (f.level (r.1 + 1))) ∨
      ∃ k, r.1 = k + 1 ∧ f.level k < y ∧ y < f.level r.1 ∧ RoundsUp md neg k (f.level k) y (f.level r.1)) := by
  obtain ⟨k, up, below, above, rule, beyond, inside⟩ := h
  have near : k + b2n up ≤ f.maxMag := by
    by_contra far
    rw [beyond (not_le.mp far)] at no
    exact Bool.false_ne_true no.symm
  obtain ⟨value, -, inexact⟩ := inside near
  rw [value, inexact]
  cases up with
  | false => exact ⟨near, Iff.rfl, .inl ⟨below, above, fun up => Bool.false_ne_true (rule.mpr up)⟩⟩
  | true =>
    have up := rule.mp rfl
    have strict := up.ne (f.level_strictMono (Nat.lt_succ_self k))
    exact ⟨near, iff_of_true strict above.ne', .inr ⟨k, rfl, below.lt_of_ne strict, above, up⟩⟩

/-- A mode that never goes up delivers the greatest magnitude that does not exceed the number. -/
theorem Fmt.RoundsMag.towardZero (h : f.RoundsMag md neg y r) (no : r.2.ovf = false)
    (down : ∀ k lo hi, ¬RoundsUp md neg k lo y hi) : f.level r.1 ≤ y ∧ y < f.level (r.1 + 1) := by
  obtain ⟨-, -, ⟨below, above, -⟩ | ⟨k, -, -, -, up⟩⟩ := h.inside no
  · exact ⟨below, above⟩
  · exact (down _ _ _ up).elim

/-- A mode that goes up from whatever is not exact delivers the least magnitude that is not below the number. -/
theorem Fmt.RoundsMag.awayFromZero (h : f.RoundsMag md neg y r) (no : r.2.ovf = false)
    (up : ∀ k lo hi, lo ≠ y → RoundsUp md neg k lo y hi) : y ≤ f.level r.1 ∧ ∀ i < r.1, f.level i < y := by
  obtain ⟨-, -, ⟨below, -, exact⟩ | ⟨k, value, below, above, -⟩⟩ := h.inside no
  · have same : f.level r.1 = y := not_not.mp fun ne => exact (up _ _ _ ne)
    exact ⟨same.ge, fun i hi => same ▸ f.level_strictMono hi⟩
  · exact ⟨above.le, fun i hi => (f.level_strictMono.monotone (show i ≤ k by omega)).trans_lt below⟩

/-- To nearest no other magnitude is closer, and none is equally close to one that is odd. -/
theorem Fmt.RoundsMag.nearest (h : f.RoundsMag .rne neg y r) (no : r.2.ovf = false) (i : Nat) (other : i ≠ r.1) :
    |f.level r.1 - y| < |f.level i - y| ∨ (|f.level r.1 - y| = |f.level i - y| ∧ r.1 % 2 = 0) := by
  have far {i k : Nat} (h : i ≤ k) : f.level i ≤ f.level k := f.level_strictMono.monotone h
  obtain ⟨-, -, ⟨below, above, rule⟩ | ⟨k, value, below, above, rule⟩⟩ := h.inside no
  · rw [abs_of_nonpos (by linarith : f.level r.1 - y ≤ 0)]
    have half : 2 * y < f.level r.1 + f.level (r.1 + 1) ∨
        (2 * y = f.level r.1 + f.level (r.1 + 1) ∧ r.1 % 2 = 0) := by
      simp only [RoundsUp, not_or, not_lt, not_and] at rule
      obtain lt | eq := rule.1.lt_or_eq
      · exact .inl lt
      · exact .inr ⟨eq, by have := rule.2 eq.symm; omega⟩
    obtain lt | gt := other.lt_or_gt
    · have := f.level_strictMono lt
      rw [abs_of_neg (by linarith)]
      exact .inl (by linarith)
    · have := far (Nat.succ_le_of_lt gt)
      rw [abs_of_pos (by linarith)]
      obtain lt | ⟨eq, even⟩ := half
      · exact .inl (by linarith)
      · obtain lt | same := this.lt_or_eq
        · exact .inl (by linarith)
        · exact .inr ⟨by linarith, even⟩
  · rw [abs_of_pos (by linarith)]
    obtain lt | gt := other.lt_or_gt
    · have := far (show i ≤ k by omega)
      rw [abs_of_neg (by linarith)]
      obtain lt | ⟨eq, odd⟩ := rule
      · exact .inl (by linarith)
      · obtain lt | same := this.lt_or_eq
        · exact .inl (by linarith)
        · exact .inr ⟨by linarith, by omega⟩
    · have := f.level_strictMono gt
      rw [abs_of_pos (by linarith)]
      exact .inl (by linarith)

end Delivered

/-! ## Magnitudes as rational numbers -/

section Regular

variable {f : Fmt} (hf : f.Regular)
include hf

/-- A bit pattern is finite when its magnitude is at most the largest finite one. -/
theorem Fmt.Regular.val_eq (k : Nat) : f.val k = if f.infMag < f.mag k then .nan else if f.mag k = f.infMag then .inf (f.neg k)
    else if f.mag k / 2 ^ f.frac = 0 then .fin (f.neg k) (f.mag k % 2 ^ f.frac) f.qmin
    else .fin (f.neg k) (2 ^ f.frac + f.mag k % 2 ^ f.frac) (f.qmin + (((f.mag k / 2 ^ f.frac : Nat) : Int) - 1)) := by
  simp only [Fmt.val, Fmt.isNan, hf.sat, Bool.false_eq_true, if_false, decide_eq_true_eq, Bool.not_false, Bool.true_and,
    beq_iff_eq]

theorem Fmt.Regular.isFin_iff (k : Nat) : (f.val k).isFin = true ↔ f.mag k ≤ f.maxMag := by
  have max := hf.max
  rw [hf.val_eq]
  split_ifs <;> simp only [FVal.isFin, true_iff, Bool.false_eq_true, false_iff] <;> omega

/-- A finite bit pattern is its sign and its magnitude's number. -/
theorem Fmt.Regular.val_fin {k : Nat} (fin : f.mag k ≤ f.maxMag) :
    ∃ m e, f.val k = .fin (f.neg k) m e ∧ f.level (f.mag k) = m * (2 : ℝ) ^ e := by
  have max := hf.max
  rw [hf.val_eq, if_neg (by omega), if_neg (by omega), Fmt.level]
  split
  · exact ⟨_, _, rfl, rfl⟩
  · exact ⟨_, _, rfl, rfl⟩

theorem Fmt.Regular.cast_magnitude {k : Nat} (fin : f.mag k ≤ f.maxMag) :
    ((magnitude (f.val k) : Rat) : ℝ) = f.level (f.mag k) := by
  obtain ⟨m, e, val, level⟩ := hf.val_fin fin
  rw [val, level, magnitude]
  push_cast
  rfl

theorem Fmt.Regular.cast_valueOf {k : Nat} (fin : f.mag k ≤ f.maxMag) :
    ((valueOf f k : Rat) : ℝ) = if f.neg k = true then -f.level (f.mag k) else f.level (f.mag k) := by
  rw [valueOf, ← hf.cast_magnitude fin]
  split
  · push_cast
    rfl
  · rfl

theorem Fmt.Regular.lt_sign {k : Nat} (fin : k ≤ f.infMag) : k < 2 ^ f.sign :=
  hf.sign ▸ (Nat.lt_add_of_pos_right (Nat.two_pow_pos _)).trans_le' fin

theorem Fmt.Regular.mag_of_le {k : Nat} (fin : k ≤ f.infMag) : f.mag k = k := Nat.mod_eq_of_lt (hf.lt_sign fin)

theorem Fmt.Regular.cast_magOf {k : Nat} (fin : k ≤ f.maxMag) : ((magOf f k : Rat) : ℝ) = f.level k := by
  have max := hf.max
  have mag := hf.mag_of_le (fin.trans (by omega : f.maxMag ≤ f.infMag))
  rw [magOf, hf.cast_magnitude (mag.symm ▸ fin), mag]

/-! ## Packed results -/

theorem Fmt.Regular.mag_pack (neg : Bool) {k : Nat} (fin : k ≤ f.infMag) : f.mag (f.pack neg k) = k := by
  rw [Fmt.mag, Fmt.pack, add_comm, mul_comm, Nat.add_mul_mod_self_left]
  exact hf.mag_of_le fin

theorem Fmt.Regular.neg_pack (neg : Bool) {k : Nat} (fin : k ≤ f.infMag) : f.neg (f.pack neg k) = neg := by
  rw [Fmt.neg, Fmt.pack, mul_comm, Nat.testBit_two_pow_mul_add _ (hf.lt_sign fin), if_neg (lt_irrefl _), Nat.sub_self]
  cases neg <;> rfl

theorem Fmt.Regular.pack_parity (neg : Bool) (k : Nat) : f.pack neg k % 2 = k % 2 := by
  have wide : f.sign ≠ 0 := by
    intro zero
    have := hf.sign
    have := Nat.two_pow_pos f.frac
    have := hf.max
    rw [zero] at *
    omega
  have even : 2 ∣ b2n neg * 2 ^ f.sign := (dvd_pow_self 2 wide).mul_left _
  rw [Fmt.pack]
  omega

end Regular

/-! ## The magnitudes delivered, as the statements have them -/

theorem regular_of_mem {f : Fmt} (hf : f ∈ [fp32, bf16, fp16, e5m2]) : f.Regular := by
  simp only [List.mem_cons, List.not_mem_nil, or_false] at hf
  obtain rfl | rfl | rfl | rfl := hf
  · exact regular_fp32
  · exact regular_bf16
  · exact regular_fp16
  · exact regular_e5m2

/-- An operand stands for its own value. -/
theorem standsFor_self (p m : Nat) (e : Int) : StandsFor p m e (((m : Rat) * (2 : Rat) ^ e : Rat) : ℝ) := by
  refine .inl ?_
  push_cast
  rfl

theorem Fmt.Regular.nx_iff {f : Fmt} (hf : f.Regular) {md : RMode} {neg : Bool} {x : Rat} {r : Nat × Flags}
    (h : f.RoundsMag md neg x r) (no : r.2.ovf = false) : r.1 ≤ f.maxMag ∧ (r.2.nx = true ↔ magOf f r.1 ≠ x) := by
  obtain ⟨fin, nx, -⟩ := h.inside no
  rw [nx, ← hf.cast_magOf fin, ne_eq, Rat.cast_inj]
  exact ⟨fin, Iff.rfl⟩

/-- The bracket of a number from below, among rational numbers. -/
theorem Fmt.Regular.below {f : Fmt} (hf : f.Regular) {k : Nat} {x : Rat} (fin : k ≤ f.maxMag)
    (h : f.level k ≤ x ∧ (x : ℝ) < f.level (k + 1)) : magOf f k ≤ x ∧ (k < f.maxMag → x < magOf f (k + 1)) := by
  obtain ⟨below, above⟩ := h
  rw [← hf.cast_magOf fin] at below
  refine ⟨Rat.cast_le.mp below, fun lt => ?_⟩
  rw [← hf.cast_magOf lt] at above
  exact Rat.cast_lt.mp above

theorem Fmt.Regular.above {f : Fmt} (hf : f.Regular) {k : Nat} {x : Rat} (fin : k ≤ f.maxMag)
    (h : (x : ℝ) ≤ f.level k ∧ ∀ i < k, f.level i < x) : x ≤ magOf f k ∧ (0 < k → magOf f (k - 1) < x) := by
  obtain ⟨above, below⟩ := h
  rw [← hf.cast_magOf fin] at above
  refine ⟨Rat.cast_le.mp above, fun pos => ?_⟩
  have before := below (k - 1) (by omega)
  rw [← hf.cast_magOf (by omega)] at before
  exact Rat.cast_lt.mp before

theorem roundingTowardZeroBrackets : RoundingTowardZeroBrackets := by
  intro f mem neg m e r x no
  have hf := regular_of_mem mem
  have rounds : f.RoundsMag .rz neg (x : ℝ) r := hf.roundMag_rounds _ _ (standsFor_self ..)
  obtain ⟨fin, nx⟩ := hf.nx_iff rounds no
  obtain ⟨below, above⟩ := hf.below fin (rounds.towardZero no fun _ _ _ => id)
  exact ⟨fin, below, above, nx⟩

theorem roundingToNearestIsNearest : RoundingToNearestIsNearest := by
  intro f mem neg m e r x no
  have hf := regular_of_mem mem
  have rounds : f.RoundsMag .rne neg (x : ℝ) r := hf.roundMag_rounds _ _ (standsFor_self ..)
  obtain ⟨fin, nx⟩ := hf.nx_iff rounds no
  refine ⟨fin, nx, fun k le other => ?_⟩
  have nearest := rounds.nearest no k other
  rw [← hf.cast_magOf fin, ← hf.cast_magOf le] at nearest
  exact_mod_cast nearest

theorem directedRoundingBrackets : DirectedRoundingBrackets := by
  intro f mem md neg m e mode r x no
  have hf := regular_of_mem mem
  have rounds : f.RoundsMag md neg (x : ℝ) r := hf.roundMag_rounds _ _ (standsFor_self ..)
  obtain ⟨fin, nx⟩ := hf.nx_iff rounds no
  refine ⟨fin, nx, fun toward => ?_, fun away => ?_⟩
  · refine hf.below fin (rounds.towardZero no fun k lo hi up => ?_)
    obtain rfl | rfl := mode
    · exact absurd (toward.symm.trans up.1) (by decide)
    · exact absurd (toward.symm.trans up.1) (by decide)
  · refine hf.above fin (rounds.awayFromZero no fun k lo hi ne => ?_)
    obtain rfl | rfl := mode
    · exact ⟨away, ne⟩
    · exact ⟨away, ne⟩

/-! ## Signed values -/

theorem Fmt.Regular.cast_pack {f : Fmt} (hf : f.Regular) (neg : Bool) {k : Nat} (fin : k ≤ f.maxMag) :
    ((valueOf f (f.pack neg k) : Rat) : ℝ) = if neg = true then -f.level k else f.level k := by
  have max := hf.max
  have inf : k ≤ f.infMag := by omega
  have mag := hf.mag_pack neg inf
  rw [hf.cast_valueOf (mag.symm ▸ fin), mag, hf.neg_pack neg inf]

/-- A signed number `w` of some magnitude stands beside a positive one as that magnitude does, or lies on the other side of 0. -/
theorem level_le_of_le {f : Fmt} {i k : Nat} {w y : ℝ} (hw : w = f.level i ∨ w = -f.level i) (above : y < f.level (k + 1))
    (h : w ≤ y) : w ≤ f.level k := by
  obtain rfl | rfl := hw
  · exact f.level_strictMono.monotone (Nat.lt_succ_iff.mp (f.level_strictMono.lt_iff_lt.mp (h.trans_lt above)))
  · linarith [f.level_nonneg i, f.level_nonneg k]

theorem level_le_of_ge {f : Fmt} {i k : Nat} {w y : ℝ} (hw : w = f.level i ∨ w = -f.level i) (nonneg : 0 ≤ y)
    (below : ∀ j < k, f.level j < y) (h : y ≤ w) : f.level k ≤ w := by
  obtain rfl | rfl := hw
  · exact f.level_strictMono.monotone (not_lt.mp fun lt => (below i lt).not_ge h)
  · have zero : k = 0 := by
      by_contra pos
      have := below 0 (Nat.pos_of_ne_zero pos)
      linarith [f.level_nonneg i, f.level_zero]
    rw [zero, f.level_zero]
    exact nonneg.trans h

theorem Fmt.RoundsMag.nearest_signed {f : Fmt} {neg : Bool} {i : Nat} {w y : ℝ} {r : Nat × Flags}
    (h : f.RoundsMag .rne neg y r) (no : r.2.ovf = false) (hw : w = f.level i ∨ w = -f.level i) :
    w = f.level r.1 ∨ |f.level r.1 - y| < |w - y| ∨ (|f.level r.1 - y| = |w - y| ∧ r.1 % 2 = 0) := by
  have nonneg := h.nonneg
  have level := f.level_nonneg i
  by_cases same : i = r.1
  · subst same
    obtain rfl | rfl := hw
    · exact .inl rfl
    · by_cases zero : f.level r.1 = 0
      · exact .inl (by rw [zero, neg_zero])
      · have pos : 0 < f.level r.1 := level.lt_of_ne (Ne.symm zero)
        have yPos : 0 < y := by
          refine nonneg.lt_of_ne fun none => ?_
          have first : (0 : Nat) ≠ r.1 := fun h => zero (h ▸ f.level_zero)
          have nearest := h.nearest no 0 first
          rw [f.level_zero, ← none, sub_zero, sub_zero, abs_zero, abs_of_pos pos] at nearest
          obtain lt | ⟨eq, -⟩ := nearest <;> linarith
        refine .inr (.inl ?_)
        rw [abs_of_neg (by linarith : -f.level r.1 - y < 0), abs_lt]
        constructor <;> linarith
  · have nearest := h.nearest no i same
    obtain rfl | rfl := hw
    · exact .inr nearest
    · have farther : |f.level i - y| ≤ |-f.level i - y| := by
        rw [abs_of_nonpos (by linarith : -f.level i - y ≤ 0), abs_le]
        constructor <;> linarith
      obtain lt | ⟨eq, even⟩ := nearest
      · exact .inr (.inl (lt.trans_le farther))
      · obtain lt | tie := farther.lt_or_eq
        · exact .inr (.inl (eq ▸ lt))
        · exact .inr (.inr ⟨eq.trans tie, even⟩)

/-- The results of a mode for a magnitude and for its sign. -/
theorem RoundsUp.never {md : RMode} {neg : Bool} (h : md = .rz ∨ md = .ru ∧ neg = true ∨ md = .rd ∧ neg = false) (k : Nat)
    (lo y hi : ℝ) : ¬RoundsUp md neg k lo y hi := by
  obtain rfl | ⟨rfl, rfl⟩ | ⟨rfl, rfl⟩ := h
  · exact id
  · exact fun up => Bool.false_ne_true up.1.symm
  · exact fun up => Bool.false_ne_true up.1

theorem RoundsUp.always {md : RMode} {neg : Bool} (h : md = .ru ∧ neg = false ∨ md = .rd ∧ neg = true) (k : Nat)
    (lo y hi : ℝ) (ne : lo ≠ y) : RoundsUp md neg k lo y hi := by
  obtain ⟨rfl, rfl⟩ | ⟨rfl, rfl⟩ := h
  · exact ⟨rfl, ne⟩
  · exact ⟨rfl, ne⟩

/-- A result `z` for `x` that the number `v` does not beat in a mode: `v` is not nearer, or does not lie between them; an even
result wins ties (R122). -/
def Unbeaten (md : RMode) (even : Prop) (z x v : ℝ) : Prop :=
  match md with
  | .rne => v = z ∨ |z - x| < |v - x| ∨ (|z - x| = |v - x| ∧ even)
  | .rz => |z| ≤ |x| ∧ (|v| ≤ |x| → |v| ≤ |z|)
  | .ru => x ≤ z ∧ (x ≤ v → z ≤ v)
  | .rd => z ≤ x ∧ (v ≤ x → v ≤ z)

/-- No signed number of some magnitude is a better result than the one of the magnitude delivered: none is nearer, or lies between
it and the exact number. -/
theorem Fmt.RoundsMag.best {f : Fmt} {md : RMode} {neg : Bool} {i : Nat} {v y : ℝ} {r : Nat × Flags}
    (h : f.RoundsMag md neg y r) (no : r.2.ovf = false) (hv : v = f.level i ∨ v = -f.level i) :
    let x := if neg = true then -y else y
    let z := if neg = true then -f.level r.1 else f.level r.1
    Unbeaten md (r.1 % 2 = 0) z x v := by
  have nonneg := h.nonneg
  have level := f.level_nonneg r.1
  have opposite : -v = f.level i ∨ -v = -f.level i := by
    rw [neg_inj, neg_eq_iff_eq_neg]
    exact hv.symm
  have size (a : ℝ) (ha : 0 ≤ a) : |if neg = true then -a else a| = a := by
    cases neg
    · exact abs_of_nonneg ha
    · exact (abs_neg a).trans (abs_of_nonneg ha)
  cases md with
  | rne =>
    cases neg with
    | false => exact h.nearest_signed no hv
    | true =>
      have nearest := h.nearest_signed no opposite
      have flip (a : ℝ) : |-a - -y| = |a - y| := by rw [neg_sub_neg, abs_sub_comm]
      simp only [Unbeaten, if_true]
      rw [flip, ← neg_neg v, flip, neg_inj]
      exact nearest
  | rz =>
    obtain ⟨below, above⟩ := h.towardZero no (RoundsUp.never (.inl rfl) · · y)
    simp only [Unbeaten, size _ nonneg, size _ level]
    refine ⟨below, fun le => level_le_of_le (i := i) (.inl ?_) above le⟩
    obtain rfl | rfl := hv
    · exact abs_of_nonneg (f.level_nonneg i)
    · rw [abs_neg, abs_of_nonneg (f.level_nonneg i)]
  | ru =>
    cases neg with
    | false =>
      obtain ⟨above, below⟩ := h.awayFromZero no (RoundsUp.always (.inl ⟨rfl, rfl⟩) · · y)
      exact ⟨above, level_le_of_ge hv nonneg below⟩
    | true =>
      obtain ⟨below, above⟩ := h.towardZero no (RoundsUp.never (.inr (.inl ⟨rfl, rfl⟩)) · · y)
      exact ⟨neg_le_neg below, fun le => neg_le.mp (level_le_of_le opposite above (neg_le.mp le))⟩
  | rd =>
    cases neg with
    | false =>
      obtain ⟨below, above⟩ := h.towardZero no (RoundsUp.never (.inr (.inr ⟨rfl, rfl⟩)) · · y)
      exact ⟨below, level_le_of_le hv above⟩
    | true =>
      obtain ⟨above, below⟩ := h.awayFromZero no (RoundsUp.always (.inr ⟨rfl, rfl⟩) · · y)
      exact ⟨neg_le_neg above, fun le => le_neg.mp (level_le_of_ge opposite nonneg below (le_neg.mp le))⟩

/-- A number rounded by its sign and its magnitude is rounded as IEEE 754 says. -/
theorem Fmt.Regular.roundsTo {f : Fmt} (hf : f.Regular) {md : RMode} {neg : Bool} {x y : ℝ} {r : Nat × Flags}
    (h : f.RoundsMag md neg y r) (hx : x = if neg = true then -y else y) : RoundsTo f md x ⟨f.pack neg r.1, r.2⟩ := by
  have nonneg := h.nonneg
  have size : |x| = y := by
    rw [hx]
    split
    · rw [abs_neg, abs_of_nonneg nonneg]
    · exact abs_of_nonneg nonneg
  refine ⟨fun ovf => ?_, fun no => ?_⟩
  · have max : ((valueOf f f.maxMag : Rat) : ℝ) = f.level f.maxMag := by
      have pack := hf.cast_pack false le_rfl
      rwa [Fmt.pack, b2n, if_neg Bool.false_ne_true, Nat.zero_mul, Nat.zero_add] at pack
    simp only [max, size]
    exact h.beyond ovf
  obtain ⟨fin, nx, -⟩ := h.inside no
  have inf : r.1 ≤ f.infMag := fin.trans (hf.max ▸ Nat.le_succ _)
  have value := hf.cast_pack neg fin
  have level := f.level_nonneg r.1
  refine ⟨(hf.isFin_iff _).mpr ((hf.mag_pack neg inf).symm ▸ fin), ?_, fun pos => ?_, fun lt => ?_, fun k hk => ?_⟩
  · simp only [nx, value, hx]
    cases neg with
    | false => exact Iff.rfl
    | true => exact (neg_inj (a := f.level r.1)).not.symm
  · rw [hf.neg_pack neg inf]
    cases neg with
    | false => rfl
    | true => linarith [hx.trans (if_pos rfl)]
  · rw [hf.neg_pack neg inf]
    cases neg with
    | false => linarith [hx.trans (if_neg Bool.false_ne_true)]
    | true => rfl
  · have signed := hf.cast_valueOf ((hf.isFin_iff k).mp hk)
    have hv : ((valueOf f k : Rat) : ℝ) = f.level (f.mag k) ∨ ((valueOf f k : Rat) : ℝ) = -f.level (f.mag k) := by
      rw [signed]
      split
      · exact .inr rfl
      · exact .inl rfl
    have best := h.best no hv
    simp only [value, hx, hf.pack_parity]
    cases md <;> exact best

end Sys2Proof.Machine
end

section
/-!
The operations on finite values round the exact result.
-/

namespace Sys2Proof.Machine

open Sys2Proof Sys2Proof.Claims

/-! ## Values as real numbers -/

/-- The number that a finite value is. -/
noncomputable def realOf : FVal → ℝ
  | .fin n m e => ((signed n m : Int) : ℝ) * (2 : ℝ) ^ e
  | _ => 0

theorem realOf_fin (n : Bool) (m : Nat) (e : Int) :
    realOf (.fin n m e) = if n = true then -(m * (2 : ℝ) ^ e) else m * (2 : ℝ) ^ e := by
  cases n with
  | false => simp [realOf, signed]
  | true => simp [realOf, signed]

/-- A finite value with its sign, its mantissa and its exponent. -/
theorem FVal.eq_fin_of_isFin {u : FVal} (h : u.isFin = true) : ∃ n m e, u = .fin n m e := by
  cases u with
  | fin n m e => exact ⟨n, m, e, rfl⟩
  | nan | inf _ => exact absurd h Bool.false_ne_true

section Regular

variable {f : Fmt} (hf : f.Regular)
include hf

/-- A finite bit pattern's value is its number, of a mantissa that fits its format. -/
theorem Fmt.Regular.val_real {k : Nat} (hk : (f.val k).isFin = true) :
    ∃ m e, f.val k = .fin (f.neg k) m e ∧ realOf (f.val k) = ((valueOf f k : Rat) : ℝ) ∧ (m = 0 ↔ f.mag k = 0) ∧
      m < 2 ^ (f.frac + 1) := by
  have fin := (hf.isFin_iff k).mp hk
  obtain ⟨m, e, val, level, fits⟩ : ∃ m e, f.val k = .fin (f.neg k) m e ∧ f.level (f.mag k) = m * (2 : ℝ) ^ e ∧
      m < 2 ^ (f.frac + 1) := by
    have max := hf.max
    have pos := Nat.two_pow_pos f.frac
    have double : 2 ^ (f.frac + 1) = 2 ^ f.frac + 2 ^ f.frac := by ring
    have small := Nat.mod_lt (f.mag k) pos
    rw [hf.val_eq, if_neg (by omega), if_neg (by omega), Fmt.level]
    split
    · exact ⟨_, _, rfl, rfl, by omega⟩
    · exact ⟨_, _, rfl, rfl, by omega⟩
  have unit : (2 : ℝ) ^ e ≠ 0 := by positivity
  refine ⟨m, e, val, ?_, ?_, fits⟩
  · rw [val, realOf_fin, hf.cast_valueOf fin, level]
  · rw [← f.level_strictMono.injective.eq_iff (a := f.mag k), f.level_zero, level, mul_eq_zero, or_iff_left unit,
      Nat.cast_eq_zero]

/-- A value that an operand stands for, rounded by its sign and its magnitude. -/
theorem Fmt.Regular.roundsTo_standsFor {md : RMode} {neg : Bool} {m : Nat} {e : Int} {x y : ℝ}
    (h : StandsFor (f.frac + 2) m e y) (hx : x = if neg = true then -y else y) :
    RoundsTo f md x (f.round md (.fin neg m e)) := hf.roundsTo (hf.roundMag_rounds md neg h) hx

/-- A finite value is rounded as IEEE 754 says. -/
theorem Fmt.Regular.roundsTo_round (md : RMode) {u : FVal} (h : u.isFin = true) : RoundsTo f md (realOf u) (f.round md u) := by
  obtain ⟨n, m, e, rfl⟩ := FVal.eq_fin_of_isFin h
  exact hf.roundsTo_standsFor (.inl rfl) (realOf_fin n m e)

end Regular

/-! ## Exact arithmetic -/

theorem FVal.negate_real {u : FVal} (h : u.isFin = true) : u.negate.isFin = true ∧ realOf u.negate = -realOf u := by
  obtain ⟨n, m, e, rfl⟩ := FVal.eq_fin_of_isFin h
  refine ⟨rfl, ?_⟩
  cases n <;> simp [FVal.negate, realOf, signed]

/-- An exact product is the product. -/
theorem FVal.mul_real {u v : FVal} (hu : u.isFin = true) (hv : v.isFin = true) :
    (u.mul v).isFin = true ∧ realOf (u.mul v) = realOf u * realOf v := by
  obtain ⟨n, m, e, rfl⟩ := FVal.eq_fin_of_isFin hu
  obtain ⟨k, m', e', rfl⟩ := FVal.eq_fin_of_isFin hv
  refine ⟨rfl, ?_⟩
  have sign : signed (n != k) (m * m') = signed n m * signed k m' := by
    cases n <;> cases k <;> simp [signed]
  rw [FVal.mul, realOf, realOf, realOf, sign, zpow_add₀ two_ne_zero]
  push_cast
  ring

/-- The sum of two mantissas in the lower of their units. -/
def alignedSum (n : Bool) (m : Nat) (e : Int) (k : Bool) (m' : Nat) (e' : Int) : Int :=
  signed n m * 2 ^ (e - min e e').toNat + signed k m' * 2 ^ (e' - min e e').toNat

theorem alignedSum_real (n : Bool) (m : Nat) (e : Int) (k : Bool) (m' : Nat) (e' : Int) :
    ((alignedSum n m e k m' e' : Int) : ℝ) * (2 : ℝ) ^ min e e' = realOf (.fin n m e) + realOf (.fin k m' e') := by
  have shift {d : Int} (h : min e e' ≤ d) : (2 : ℝ) ^ (d - min e e').toNat * (2 : ℝ) ^ min e e' = (2 : ℝ) ^ d := by
    rw [← zpow_natCast, Int.toNat_of_nonneg (by omega), ← zpow_add₀ two_ne_zero, sub_add_cancel]
  rw [alignedSum, realOf, realOf, ← shift (min_le_left e e'), ← shift (min_le_right e e')]
  push_cast
  ring

theorem FVal.add_fin (md : RMode) (n : Bool) (m : Nat) (e : Int) (k : Bool) (m' : Nat) (e' : Int) :
    FVal.add md (.fin n m e) (.fin k m' e') =
      if alignedSum n m e k m' e' = 0 then .fin (if m = 0 && m' = 0 && n == k then n else md == .rd) 0 (min e e')
      else .fin (decide (alignedSum n m e k m' e' < 0)) (alignedSum n m e k m' e').natAbs (min e e') := rfl

theorem signed_natAbs (x : Int) : signed (decide (x < 0)) x.natAbs = x := by
  rw [signed]
  split
  next h =>
    have := of_decide_eq_true h
    omega
  next h =>
    have := of_decide_eq_false (Bool.eq_false_iff.mpr h)
    omega

/-- An exact sum is the sum. -/
theorem FVal.add_real (md : RMode) {u v : FVal} (hu : u.isFin = true) (hv : v.isFin = true) :
    (u.add md v).isFin = true ∧ realOf (u.add md v) = realOf u + realOf v := by
  obtain ⟨n, m, e, rfl⟩ := FVal.eq_fin_of_isFin hu
  obtain ⟨k, m', e', rfl⟩ := FVal.eq_fin_of_isFin hv
  rw [FVal.add_fin, ← alignedSum_real]
  split
  next zero => exact ⟨rfl, by simp [zero, realOf, signed]⟩
  next => exact ⟨rfl, by rw [realOf, signed_natAbs]⟩

/-! ## Sums and products of bit patterns -/

theorem Fmt.isNan_of_isFin {f : Fmt} {k : Nat} (h : (f.val k).isFin = true) : f.isNan k = false := by
  by_contra nan
  rw [Bool.not_eq_false] at nan
  rw [Fmt.val, if_pos nan] at h
  exact Bool.false_ne_true h

/-- Finite operands are not propagated. -/
theorem Fmt.propagate_of_isFin {f : Fmt} {xs : List Nat} (h : ∀ x ∈ xs, (f.val x).isFin = true) : f.propagate xs = none := by
  rw [Fmt.propagate, List.find?_eq_none.mpr fun x hx => by simp [Fmt.isNan_of_isFin (h x hx)], Option.map_none]

section Operations

variable {f : Fmt} (hf : f.Regular) (md : RMode) {a b d : Nat} (ha : (f.val a).isFin = true) (hb : (f.val b).isFin = true)

theorem Fmt.add_of_isFin (ha : (f.val a).isFin = true) (hb : (f.val b).isFin = true) :
    f.add md a b = f.round md ((f.val a).add md (f.val b)) := by
  rw [Fmt.add, Fmt.propagate_of_isFin (by simp [ha, hb]), Option.getD_none]

include hf ha hb

theorem Fmt.Regular.add_roundsTo :
    RoundsTo f md (((valueOf f a : Rat) : ℝ) + ((valueOf f b : Rat) : ℝ)) (f.add md a b) := by
  obtain ⟨-, -, -, va, -⟩ := hf.val_real ha
  obtain ⟨-, -, -, vb, -⟩ := hf.val_real hb
  obtain ⟨fin, sum⟩ := FVal.add_real md ha hb
  rw [← va, ← vb, ← sum, Fmt.add_of_isFin md ha hb]
  exact hf.roundsTo_round md fin

theorem Fmt.Regular.sub_roundsTo :
    RoundsTo f md (((valueOf f a : Rat) : ℝ) - ((valueOf f b : Rat) : ℝ)) (f.sub md a b) := by
  obtain ⟨-, -, -, va, -⟩ := hf.val_real ha
  obtain ⟨-, -, -, vb, -⟩ := hf.val_real hb
  obtain ⟨finB, negated⟩ := FVal.negate_real hb
  obtain ⟨fin, sum⟩ := FVal.add_real md ha finB
  rw [← va, ← vb, sub_eq_add_neg, ← negated, ← sum, Fmt.sub, Fmt.propagate_of_isFin (by simp [ha, hb]), Option.getD_none]
  exact hf.roundsTo_round md fin

theorem Fmt.Regular.mul_roundsTo :
    RoundsTo f md (((valueOf f a : Rat) : ℝ) * ((valueOf f b : Rat) : ℝ)) (f.mul md a b) := by
  obtain ⟨-, -, -, va, -⟩ := hf.val_real ha
  obtain ⟨-, -, -, vb, -⟩ := hf.val_real hb
  obtain ⟨fin, product⟩ := FVal.mul_real ha hb
  rw [← va, ← vb, ← product, Fmt.mul, Fmt.propagate_of_isFin (by simp [ha, hb]), Option.getD_none]
  exact hf.roundsTo_round md fin

theorem Fmt.Regular.fma_roundsTo (hd : (f.val d).isFin = true) :
    RoundsTo f md (((valueOf f d : Rat) : ℝ) + ((valueOf f a : Rat) : ℝ) * ((valueOf f b : Rat) : ℝ)) (f.fma md d a b) := by
  obtain ⟨-, -, -, va, -⟩ := hf.val_real ha
  obtain ⟨-, -, -, vb, -⟩ := hf.val_real hb
  obtain ⟨-, -, -, vd, -⟩ := hf.val_real hd
  obtain ⟨finP, product⟩ := FVal.mul_real ha hb
  obtain ⟨fin, sum⟩ := FVal.add_real md hd finP
  rw [← va, ← vb, ← vd, ← product, ← sum, Fmt.fma, Fmt.propagate_of_isFin (by simp [ha, hb, hd]), Option.getD_none]
  exact hf.roundsTo_round md fin

/-- The sign of a sum that is exactly 0 (R121). -/
theorem Fmt.Regular.add_zero_sign (zero : valueOf f a + valueOf f b = 0) : f.neg (f.add md a b).x =
    if f.mag a = 0 ∧ f.neg a = f.neg b then f.neg a else decide (md = .rd) := by
  obtain ⟨m, e, val, va, none, -⟩ := hf.val_real ha
  obtain ⟨m', e', val', vb, none', -⟩ := hf.val_real hb
  have unit : (2 : ℝ) ^ min e e' ≠ 0 := by positivity
  have total : alignedSum (f.neg a) m e (f.neg b) m' e' = 0 := by
    have sum := alignedSum_real (f.neg a) m e (f.neg b) m' e'
    rw [← val, ← val', va, vb] at sum
    have zeroR : ((valueOf f a : Rat) : ℝ) + ((valueOf f b : Rat) : ℝ) = 0 := by exact_mod_cast zero
    rw [zeroR, mul_eq_zero, or_iff_left unit] at sum
    exact_mod_cast sum
  have both : m = 0 → m' = 0 := by
    rintro rfl
    have rest : signed (f.neg b) m' = 0 := by
      have power : (2 : Int) ^ (e' - min e e').toNat ≠ 0 := by positivity
      rw [alignedSum, show signed (f.neg a) 0 = 0 by simp [signed], zero_mul, zero_add, mul_eq_zero, or_iff_left power] at total
      exact total
    rw [signed] at rest
    split at rest <;> omega
  rw [Fmt.add_of_isFin md ha hb, val, val', FVal.add_fin, if_pos total, Fmt.round, f.roundMag_zero]
  have sign (s : Bool) : f.neg (f.pack s 0) = s := hf.neg_pack s (Nat.zero_le _)
  rw [sign]
  have same : (decide (m = 0) && decide (m' = 0) && f.neg a == f.neg b) = true ↔ f.mag a = 0 ∧ f.neg a = f.neg b := by
    rw [← none, Bool.and_eq_true, Bool.and_eq_true, decide_eq_true_eq, decide_eq_true_eq, beq_iff_eq]
    exact ⟨fun h => ⟨h.1.1, h.2⟩, fun h => ⟨⟨h.1, both h.1⟩, h.2⟩⟩
  simp only [same]
  cases md <;> rfl

end Operations

/-! ## Quotients and square roots -/

/-- The integer part of a number, with a lowest bit that says whether something remains, stands for the number. -/
theorem standsFor_floor {p Q : Nat} {e : Int} {z y : ℝ} {rest : Bool} (below : (Q : ℝ) ≤ z) (above : z < Q + 1)
    (remains : rest = true ↔ (Q : ℝ) ≠ z) (large : rest = true → 2 ^ p ≤ 2 * Q + 1) (hy : y = 2 * z * (2 : ℝ) ^ e) :
    StandsFor p (2 * Q + b2n rest) e y := by
  subst hy
  have unit : (0 : ℝ) < (2 : ℝ) ^ e := by positivity
  cases rest with
  | false =>
    have same : (Q : ℝ) = z := not_not.mp fun ne => Bool.false_ne_true (remains.mpr ne)
    refine .inl ?_
    rw [← same, b2n, if_neg Bool.false_ne_true]
    push_cast
    ring
  | true =>
    have strict := below.lt_of_ne (remains.mp rfl)
    refine .inr ⟨by rw [b2n, if_pos rfl]; omega, large rfl, ?_, ?_⟩
    · refine mul_lt_mul_of_pos_right ?_ unit
      rw [b2n, if_pos rfl]
      push_cast
      linarith
    · refine mul_lt_mul_of_pos_right ?_ unit
      rw [b2n, if_pos rfl]
      push_cast
      linarith

/-- The square root search ends at the integer square root. -/
theorem isqrt_spec (x : Nat) : ∀ (n r : Nat), r * r ≤ x → x < (r + 2 ^ n) * (r + 2 ^ n) →
    isqrt x n r * isqrt x n r ≤ x ∧ x < (isqrt x n r + 1) * (isqrt x n r + 1)
  | 0, r, low, high => ⟨low, high⟩
  | n + 1, r, low, high => by
    rw [isqrt]
    split
    next fits =>
      refine isqrt_spec x n _ fits ?_
      rwa [add_assoc, ← two_mul, ← pow_succ']
    next more => exact isqrt_spec x n r low (not_le.mp more)

/-- Of a number below 4^n, the root and what remains of the number, as real numbers. -/
theorem isqrt_sqrt {x n : Nat} (small : x < 2 ^ n * 2 ^ n) :
    (isqrt x n 0 : ℝ) ≤ Real.sqrt x ∧ Real.sqrt x < isqrt x n 0 + 1 ∧
      ((isqrt x n 0 * isqrt x n 0 != x) = true ↔ (isqrt x n 0 : ℝ) ≠ Real.sqrt x) := by
  obtain ⟨low, high⟩ := isqrt_spec x n 0 (Nat.zero_le x) (by rwa [Nat.zero_add])
  generalize isqrt x n 0 = r at *
  have lowR : (r : ℝ) * r ≤ x := by exact_mod_cast low
  have highR : (x : ℝ) < ((r : ℝ) + 1) * (r + 1) := by exact_mod_cast high
  have pos : (0 : ℝ) ≤ r := Nat.cast_nonneg r
  refine ⟨Real.le_sqrt_of_sq_le (by rwa [sq]), (Real.sqrt_lt' (by linarith)).mpr (by rwa [sq]), ?_⟩
  rw [bne_iff_ne, ne_eq, ne_eq, eq_comm (a := (r : ℝ)), Real.sqrt_eq_iff_mul_self_eq (Nat.cast_nonneg x) pos]
  rw [eq_comm (a := (x : ℝ))]
  exact not_congr (by exact_mod_cast Iff.rfl)

/-- The integer part of a quotient, and what remains, as real numbers. -/
theorem div_floor (a : Nat) {b : Nat} (pos : b ≠ 0) :
    ((a / b : Nat) : ℝ) ≤ a / b ∧ (a : ℝ) / b < ((a / b : Nat) : ℝ) + 1 ∧
      ((a % b != 0) = true ↔ ((a / b : Nat) : ℝ) ≠ a / b) := by
  have posR : (0 : ℝ) < b := by exact_mod_cast Nat.pos_of_ne_zero pos
  have whole : ((a / b : Nat) : ℝ) * b + ((a % b : Nat) : ℝ) = a := by exact_mod_cast Nat.div_add_mod' a b
  have rest : ((a % b : Nat) : ℝ) < b := by exact_mod_cast Nat.mod_lt _ (Nat.pos_of_ne_zero pos)
  have nonneg : (0 : ℝ) ≤ ((a % b : Nat) : ℝ) := Nat.cast_nonneg _
  refine ⟨?_, ?_, ?_⟩
  · rw [le_div_iff₀ posR]
    linarith
  · rw [div_lt_iff₀ posR]
    linarith
  · rw [bne_iff_ne, ne_eq, ne_eq, eq_div_iff posR.ne']
    refine not_congr ⟨fun zero => ?_, fun eq => ?_⟩
    · rw [zero, Nat.cast_zero, add_zero] at whole
      exact whole
    · exact_mod_cast (show ((a % b : Nat) : ℝ) = 0 by linarith)

/-- The quotient of two mantissas of FP32 stands for the exact one. -/
theorem standsFor_quotient {m m' : Nat} (e e' : Int) (pos : m' ≠ 0) (fits : m' < 2 ^ 24) :
    StandsFor 25 (quotient m e m' e').1 (quotient m e m' e').2 (m * (2 : ℝ) ^ e / (m' * (2 : ℝ) ^ e')) := by
  obtain ⟨below, above, remains⟩ := div_floor (m * 2 ^ 64) pos
  refine standsFor_floor below above remains (fun some => ?_) ?_
  · have nonzero : m ≠ 0 := by
      rintro rfl
      simp at some
    have : 2 ^ 40 ≤ m * 2 ^ 64 / m' := by
      rw [Nat.le_div_iff_mul_le (Nat.pos_of_ne_zero pos)]
      omega
    omega
  · have power : (2 : ℝ) ^ (e - e' - 65) * 2 ^ 65 = (2 : ℝ) ^ e / (2 : ℝ) ^ e' := by
      rw [← zpow_sub₀ two_ne_zero, ← zpow_natCast, ← zpow_add₀ two_ne_zero]
      congr 1
      push_cast
      ring
    have split : m * (2 : ℝ) ^ e / (m' * (2 : ℝ) ^ e') = m / m' * ((2 : ℝ) ^ e / (2 : ℝ) ^ e') := by ring
    rw [split, ← power, quotient]
    push_cast
    ring

/-- The square root of a mantissa of FP32 stands for the exact one. -/
theorem standsFor_rootOf {m : Nat} (e : Int) (fits : m < 2 ^ 24) :
    StandsFor 25 (rootOf m e).1 (rootOf m e).2 (Real.sqrt (m * (2 : ℝ) ^ e)) := by
  obtain ⟨n, c, small, value, root⟩ : ∃ (n : Nat) (c : Int), n < 2 ^ 25 ∧ (m : ℝ) * (2 : ℝ) ^ e = n * ((2 : ℝ) ^ c * (2 : ℝ) ^ c) ∧
      rootOf m e = (2 * isqrt (n * 2 ^ 64) 64 0 + b2n (isqrt (n * 2 ^ 64) 64 0 * isqrt (n * 2 ^ 64) 64 0 != n * 2 ^ 64),
        c - 33) := by
    simp only [rootOf]
    by_cases even : e % 2 = 0
    · refine ⟨m, e / 2, by omega, ?_, by rw [if_pos even]⟩
      rw [← zpow_add₀ two_ne_zero]
      congr 2
      omega
    · refine ⟨2 * m, (e - 1) / 2, by omega, ?_, by rw [if_neg even]⟩
      have split : (2 : ℝ) ^ e = (2 : ℝ) ^ ((e - 1) / 2) * (2 : ℝ) ^ ((e - 1) / 2) * 2 := by
        rw [← zpow_add₀ two_ne_zero, ← zpow_add_one₀ two_ne_zero]
        congr 1
        omega
      rw [split]
      push_cast
      ring
  rw [root, value]
  obtain ⟨below, above, remains⟩ := isqrt_sqrt (x := n * 2 ^ 64) (n := 64) (by omega)
  have widened : Real.sqrt ((n * 2 ^ 64 : Nat) : ℝ) = Real.sqrt n * 2 ^ 32 := by
    have square : ((n * 2 ^ 64 : Nat) : ℝ) = n * (2 ^ 32 * 2 ^ 32) := by
      push_cast
      ring
    rw [square, Real.sqrt_mul (Nat.cast_nonneg n), Real.sqrt_mul_self (by positivity)]
  rw [widened] at below above remains
  refine standsFor_floor below above remains (fun some => ?_) ?_
  · have nonzero : 1 ≤ n := by
      rw [Nat.one_le_iff_ne_zero]
      rintro rfl
      refine remains.mp some (le_antisymm below ?_)
      rw [Nat.cast_zero, Real.sqrt_zero, zero_mul]
      exact Nat.cast_nonneg _
    have one : 1 ≤ Real.sqrt n := Real.one_le_sqrt.mpr (by exact_mod_cast nonzero)
    generalize isqrt (n * 2 ^ 64) 64 0 = r at *
    have large : ((2 ^ 32 : Nat) : ℝ) < ((r + 1 : Nat) : ℝ) := by
      push_cast
      linarith
    have := Nat.cast_lt.mp large
    omega
  · have power : (2 : ℝ) ^ (c - 33) * 2 ^ 33 = (2 : ℝ) ^ c := by
      rw [← zpow_natCast, ← zpow_add₀ two_ne_zero]
      congr 1
      push_cast
      ring
    rw [Real.sqrt_mul (Nat.cast_nonneg n), Real.sqrt_mul_self (by positivity), ← power]
    ring

theorem fp32_div_roundsTo (md : RMode) {a b : Nat} (ha : (fp32.val a).isFin = true) (hb : (fp32.val b).isFin = true)
    (nonzero : valueOf fp32 b ≠ 0) :
    RoundsTo fp32 md (((valueOf fp32 a : Rat) : ℝ) / ((valueOf fp32 b : Rat) : ℝ)) (fp32.div md a b) := by
  obtain ⟨m, e, val, va, -, -⟩ := regular_fp32.val_real ha
  obtain ⟨m', e', val', vb, -, fits⟩ := regular_fp32.val_real hb
  have pos : m' ≠ 0 := by
    rintro rfl
    rw [val', realOf_fin, Nat.cast_zero, zero_mul, neg_zero, ite_self] at vb
    exact nonzero (by exact_mod_cast vb.symm)
  have result : fp32.div md a b = fp32.round md (.fin (fp32.neg a != fp32.neg b) (quotient m e m' e').1 (quotient m e m' e').2) := by
    rw [Fmt.div, Fmt.propagate_of_isFin (by simp [ha, hb]), Option.getD_none, val, val']
    dsimp only
    rw [if_neg pos]
  rw [result, ← va, ← vb, val, val', realOf_fin, realOf_fin]
  refine regular_fp32.roundsTo_standsFor (standsFor_quotient e e' pos fits) ?_
  cases fp32.neg a <;> cases fp32.neg b <;> simp [neg_div, div_neg]

theorem fp32_sqrt_roundsTo (md : RMode) {a : Nat} (ha : (fp32.val a).isFin = true) (nonneg : 0 ≤ valueOf fp32 a) :
    RoundsTo fp32 md (Real.sqrt ((valueOf fp32 a : Rat) : ℝ)) (fp32.sqrt md a) := by
  obtain ⟨m, e, val, va, -, fits⟩ := regular_fp32.val_real ha
  have nonnegR : (0 : ℝ) ≤ ((valueOf fp32 a : Rat) : ℝ) := by exact_mod_cast nonneg
  rw [Fmt.sqrt, Fmt.propagate_of_isFin (by simp [ha]), Option.getD_none, ← va]
  rw [← va] at nonnegR
  rw [val] at nonnegR ⊢
  rw [realOf_fin] at nonnegR
  cases m with
  | zero =>
    have round := regular_fp32.roundsTo_round md (u := .fin (fp32.neg a) 0 e) rfl
    have zero : realOf (.fin (fp32.neg a) 0 e) = 0 := by
      rw [realOf_fin, Nat.cast_zero, zero_mul, neg_zero, ite_self]
    rw [zero, Real.sqrt_zero]
    rwa [zero] at round
  | succ m =>
    have pos : (0 : ℝ) < ((m + 1 : Nat) : ℝ) * (2 : ℝ) ^ e := by positivity
    have sign : fp32.neg a = false := by
      by_contra neg
      rw [Bool.not_eq_false] at neg
      rw [if_pos neg] at nonnegR
      linarith
    have stands := standsFor_rootOf e fits
    obtain ⟨root, hroot⟩ : ∃ root, rootOf (m + 1) e = root := ⟨_, rfl⟩
    rw [hroot] at stands
    rw [sign, realOf_fin, if_neg Bool.false_ne_true]
    obtain ⟨r, er⟩ := root
    simp only [hroot]
    exact regular_fp32.roundsTo_standsFor stands rfl

theorem operationsRoundTheExactValue : OperationsRoundTheExactValue := by
  refine ⟨fun f mem md a b d ha hb hd => ?_, fun md a b ha => ⟨fp32_div_roundsTo md ha, fp32_sqrt_roundsTo md ha⟩⟩
  have hf : f.Regular := regular_of_mem (by simp only [List.mem_cons, List.not_mem_nil, or_false] at mem ⊢; tauto)
  exact ⟨hf.add_roundsTo md ha hb, hf.sub_roundsTo md ha hb, hf.mul_roundsTo md ha hb, hf.fma_roundsTo md ha hb hd,
    hf.add_zero_sign md ha hb⟩

/-- Settles O15: a number stands between two magnitudes, of which the mode chooses one; an operation rounds a number that its
operand stands for. -/
theorem roundingIsCorrect : Obligations.RoundingIsCorrect :=
  ⟨roundingTowardZeroBrackets, roundingToNearestIsNearest, directedRoundingBrackets, operationsRoundTheExactValue⟩

end Sys2Proof.Machine
end

section
/-!
The FP32 element instructions: scaling, minima and maxima, signs and classes.
-/

namespace Sys2Proof.Machine

open Sys2Proof Sys2Proof.Claims

/-! ## NaNs -/

theorem or_two_pow_of_clear {x i : Nat} (clear : x.testBit i = false) : x ||| 2 ^ i = x + 2 ^ i := by
  have low : x % 2 ^ (i + 1) < 2 ^ i := by
    rw [Nat.testBit_eq_decide_div_mod_eq, decide_eq_false_iff_not] at clear
    have even : x / 2 ^ i % 2 = 0 := by omega
    rw [Nat.mod_pow_succ, even, Nat.mul_zero, Nat.add_zero]
    exact Nat.mod_lt _ (Nat.two_pow_pos i)
  have double : 2 ^ (i + 1) = 2 ^ i + 2 ^ i := by ring
  have whole : (x / 2 ^ (i + 1)) <<< (i + 1) + x % 2 ^ (i + 1) = x := by
    rw [Nat.shiftLeft_eq]
    exact Nat.div_add_mod' x _
  generalize x / 2 ^ (i + 1) = a, x % 2 ^ (i + 1) = l at low whole
  subst whole
  have bit : 2 ^ i ||| l = 2 ^ i + l := by
    have := Nat.two_pow_add_eq_or_of_lt low 1
    rw [Nat.mul_one] at this
    exact this.symm
  rw [Nat.shiftLeft_add_eq_or_of_lt (by omega : l < 2 ^ (i + 1)), Nat.or_assoc, Nat.or_comm l, bit,
    ← Nat.shiftLeft_add_eq_or_of_lt (by omega), ← Nat.shiftLeft_add_eq_or_of_lt (by omega)]
  omega

theorem or_two_pow_of_set {x i : Nat} (set : x.testBit i = true) : x ||| 2 ^ i = x := by
  apply Nat.eq_of_testBit_eq
  intro j
  rw [Nat.testBit_or, Nat.testBit_two_pow]
  by_cases same : i = j
  · subst same
    simp [set]
  · simp [same]

theorem isNaN_iff (x : Nat) : IsNaN x ↔ fp32.isNan x = true := (decide_eq_true_iff (p := 0x7F800000 < x % 2 ^ 31)).symm

theorem quieted_x (x : Nat) : (quieted x).x = fp32.quiet x := by
  rw [quieted, Fmt.quiet]
  split
  next set => exact or_two_pow_of_set set
  next clear => exact or_two_pow_of_clear (Bool.eq_false_iff.mpr clear)

/-- The result for one NaN operand. -/
theorem quieted_of_isNaN {x : Nat} (h : IsNaN x) : fp32.propagate [x] = some (quieted x) := by
  have nan := (isNaN_iff x).mp h
  have quiet := quieted_x x
  simp only [Fmt.propagate, List.find?_cons, nan, Option.map_some, List.any_cons, List.any_nil, Bool.or_false, Fmt.isSig,
    Bool.true_and, ← quiet]
  rfl

theorem propagate_of_not_isNaN {x : Nat} (h : ¬IsNaN x) : fp32.propagate [x] = none := by
  have nan := Bool.eq_false_iff.mpr (mt (isNaN_iff x).mpr h)
  simp only [Fmt.propagate, List.find?_cons, nan, List.find?_nil, Option.map_none]

/-! ## Minima and maxima -/

/-- The order of R135 is the model's rank. -/
theorem rank_lt_iff (x y : Nat) : fp32.rank x < fp32.rank y ↔ Below x y := by
  rw [Below, order_eq, order_eq, Fmt.rank, Fmt.rank]
  change _ ↔ _ ∨ _ ∧ fp32.neg x = true ∧ fp32.neg y = false
  cases fp32.neg x <;> cases fp32.neg y <;> simp <;> omega

theorem extremum_minmax (max num : Bool) (a b : Nat) : Extremum max num a b (fp32.minmax max num a b) := by
  rw [Extremum]
  simp only [isNaN_iff, quieted_x, Bool.not_eq_true, ← rank_lt_iff]
  cases ha : fp32.isNan a <;> cases hb : fp32.isNan b <;> simp only [Fmt.minmax, ha, hb]
  · refine ⟨nofun, nofun, nofun, nofun, fun _ _ => ⟨trivial, ?_⟩⟩
    cases max
    · exact ⟨fun lt => if_pos lt, fun ge => if_neg ge⟩
    · exact ⟨fun lt => if_pos lt, fun ge => if_neg ge⟩
  · refine ⟨nofun, fun _ _ number => ?_, nofun, fun _ _ number => ?_, nofun⟩
    · rw [number, if_neg Bool.false_ne_true]
    · rw [number, if_pos rfl]
  · refine ⟨fun _ number => ?_, nofun, fun _ _ number => ?_, nofun, nofun⟩
    · rw [number.resolve_right nofun, if_neg Bool.false_ne_true]
    · rw [number, if_pos rfl]
  · exact ⟨fun _ _ => trivial, nofun, nofun, nofun, nofun⟩

/-! ## Scaling -/

theorem sextNat_toNat (v : W32) : sextNat 32 v.toNat = v.toInt := by
  have small := v.isLt
  rw [sextNat, BitVec.toInt_eq_toNat_cond, Nat.mod_eq_of_lt small]
  split <;> split <;> omega

/-- A finite value returned as it is is the value rounded. -/
theorem Fmt.Regular.roundsTo_self {f : Fmt} (hf : f.Regular) (md : RMode) {k : Nat} (hk : (f.val k).isFin = true) :
    RoundsTo f md ((valueOf f k : Rat) : ℝ) ⟨k, Flags.zero⟩ := by
  have signed := hf.cast_valueOf ((hf.isFin_iff k).mp hk)
  have nonneg := f.level_nonneg (f.mag k)
  refine ⟨fun ovf => absurd ovf Bool.false_ne_true, fun _ => ⟨hk, iff_of_false Bool.false_ne_true fun ne => ne rfl,
    fun pos => ?_, fun neg => ?_, fun i _ => ?_⟩⟩
  · by_contra neg
    rw [Bool.not_eq_false] at neg
    rw [signed, if_pos neg] at pos
    linarith
  · by_contra pos
    rw [signed, if_neg pos] at neg
    linarith
  · cases md with
    | rne =>
      simp only [sub_self, abs_zero]
      by_cases same : ((valueOf f i : Rat) : ℝ) = ((valueOf f k : Rat) : ℝ)
      · exact .inl same
      · exact .inr (.inl (abs_pos.mpr (sub_ne_zero.mpr same)))
    | rz => exact ⟨le_rfl, id⟩
    | ru => exact ⟨le_rfl, id⟩
    | rd => exact ⟨le_rfl, id⟩

theorem isScaled_scale (md : RMode) (x : Nat) (n : Int) : IsScaled md x n (fp32.scale md x n) := by
  refine ⟨fun nan => ?_, fun special => ?_, fun finite => ?_⟩
  · rw [Fmt.scale, quieted_of_isNaN nan, Option.getD_some]
  · have number : ¬IsNaN x := by
      rw [IsNaN]
      omega
    rw [Fmt.scale, propagate_of_not_isNaN number, Option.getD_none]
    obtain zero | inf := special
    · have hx : (fp32.val x).isFin = true := (regular_fp32.isFin_iff x).mpr (zero.trans_le (Nat.zero_le _))
      obtain ⟨m, e, val, -, none, -⟩ := regular_fp32.val_real hx
      rw [val]
      exact if_pos (none.mpr zero)
    · have val : fp32.val x = .inf (fp32.neg x) := by
        rw [regular_fp32.val_eq, if_neg, if_pos]
        · exact inf
        · exact inf.not_gt
      rw [val]
  · have number : ¬IsNaN x := by
      rw [IsNaN]
      omega
    have hx : (fp32.val x).isFin = true := (regular_fp32.isFin_iff x).mpr (Nat.lt_succ_iff.mp finite)
    obtain ⟨m, e, val, vx, -, -⟩ := regular_fp32.val_real hx
    rw [Fmt.scale, propagate_of_not_isNaN number, Option.getD_none, val]
    dsimp only
    rw [val] at vx
    split
    next zero =>
      have none : ((valueOf fp32 x : Rat) : ℝ) = 0 := by
        rw [← vx, zero, realOf_fin, Nat.cast_zero, zero_mul, neg_zero, ite_self]
      have self := regular_fp32.roundsTo_self md hx
      rw [none] at self ⊢
      rwa [zero_mul]
    next =>
      have scaled : realOf (.fin (fp32.neg x) m (e + n)) = ((valueOf fp32 x : Rat) : ℝ) * (2 : ℝ) ^ n := by
        rw [← vx, realOf, realOf, zpow_add₀ two_ne_zero, mul_assoc]
      rw [← scaled]
      exact regular_fp32.roundsTo_round md rfl

/-! ## Classes -/

theorem fp32_level_normal : fp32.level 0x00800000 = (2 : ℝ) ^ (-126 : Int) := by
  have units := fp32.level_units (j := 0) (n := 2 ^ 23) (by decide) (.inl rfl)
  rw [show 0 * 2 ^ fp32.frac + 2 ^ 23 = 0x00800000 from rfl] at units
  rw [units, Nat.cast_pow, Nat.cast_ofNat, ← zpow_natCast, ← zpow_add₀ two_ne_zero]
  rfl

/-- NaNs and infinities have no number. -/
theorem fp32_valueOf_not_fin {x : Nat} (inf : ¬fp32.mag x ≤ fp32.maxMag) : valueOf fp32 x = 0 := by
  have none : magnitude (fp32.val x) = 0 := by
    have no := mt (regular_fp32.isFin_iff x).mp inf
    cases hv : fp32.val x with
    | nan => rfl
    | inf _ => rfl
    | fin _ _ _ => exact absurd (by rw [hv]; rfl) no
  rw [valueOf, none, neg_zero, ite_self]

/-- A value against 0 and the least normal one, by its sign and its magnitude. -/
theorem fp32_value_bounds (x : Nat) :
    let v := valueOf fp32 x
    let fin := fp32.mag x ≤ fp32.maxMag
    ((2 : Rat) ^ (-126 : Int) ≤ v ↔ fin ∧ fp32.neg x = false ∧ 0x00800000 ≤ fp32.mag x) ∧
    (0 < v ↔ fin ∧ fp32.neg x = false ∧ 0 < fp32.mag x) ∧
    (v ≤ -(2 : Rat) ^ (-126 : Int) ↔ fin ∧ fp32.neg x = true ∧ 0x00800000 ≤ fp32.mag x) ∧
    (v < 0 ↔ fin ∧ fp32.neg x = true ∧ 0 < fp32.mag x) := by
  intro v fin
  have least : (0 : Rat) < (2 : Rat) ^ (-126 : Int) := by positivity
  by_cases hf : fin
  · have value : (v : ℝ) = if fp32.neg x = true then -fp32.level (fp32.mag x) else fp32.level (fp32.mag x) :=
      regular_fp32.cast_valueOf hf
    have threshold : (((2 : Rat) ^ (-126 : Int) : Rat) : ℝ) = fp32.level 0x00800000 := by
      rw [fp32_level_normal]
      push_cast
      rfl
    have positive : 0 < fp32.level 0x00800000 := by
      rw [← threshold]
      exact_mod_cast least
    have nonneg := fp32.level_nonneg (fp32.mag x)
    have le := fp32.level_strictMono.le_iff_le (a := 0x00800000) (b := fp32.mag x)
    have lt := fp32.level_strictMono.lt_iff_lt (a := 0) (b := fp32.mag x)
    rw [fp32.level_zero] at lt
    rw [← le, ← lt, ← Rat.cast_le (K := ℝ), ← Rat.cast_lt (K := ℝ), ← Rat.cast_le (K := ℝ), ← Rat.cast_lt (K := ℝ),
      Rat.cast_neg, threshold, Rat.cast_zero, value]
    cases fp32.neg x with
    | false =>
      simp only [hf, true_and, Bool.false_eq_true, if_false, false_and, iff_false, not_le, not_lt]
      constructor <;> linarith
    | true =>
      simp only [hf, true_and, Bool.true_eq_false, if_true, false_and, iff_false, not_le, not_lt, neg_le_neg_iff,
        neg_lt_zero]
      refine ⟨?_, ?_, trivial⟩ <;> linarith
  · have zero : v = 0 := fp32_valueOf_not_fin hf
    simp only [hf, zero, false_and, iff_false, not_le, not_lt]
    exact ⟨least, le_rfl, neg_lt_zero.mpr least, le_rfl⟩

/-- An element's bits by its sign and its magnitude. -/
theorem fp32_bits {k : Nat} (small : k < 2 ^ 32) : k = b2n (fp32.neg k) * 2 ^ 31 + fp32.mag k := by
  rw [Fmt.neg, Fmt.mag, show fp32.sign = 31 from rfl, Nat.testBit_eq_decide_div_mod_eq, b2n]
  have := Nat.div_add_mod k (2 ^ 31)
  simp only [decide_eq_true_eq]
  split <;> omega

theorem isClass_classBit (x : W32) : IsClass x.toNat (classBit x.toNat) := by
  have pattern := fp32_bits x.isLt
  have bound : fp32.mag x.toNat < 2 ^ 31 := Nat.mod_lt _ (Nat.two_pow_pos 31)
  obtain ⟨normal, positive, negNormal, negative⟩ := fp32_value_bounds x.toNat
  have infMag : fp32.infMag = 0x7F800000 := rfl
  have maxMag : fp32.maxMag = 0x7F7FFFFF := rfl
  have nan : fp32.isNan x.toNat = true ↔ 0x7F800000 < fp32.mag x.toNat := decide_eq_true_iff
  simp only [IsClass, isNaN_iff, lt_iff_not_ge (b := (2 : Rat) ^ (-126 : Int)), lt_iff_not_ge (a := -(2 : Rat) ^ (-126 : Int)),
    normal, positive, negNormal, negative, classBit, Fmt.isSig, show fp32.frac - 1 = 22 from rfl, nan, infMag,
    maxMag, Bool.and_eq_true, Bool.not_eq_true']
  generalize fp32.mag x.toNat = g at *
  generalize fp32.neg x.toNat = s at *
  generalize x.toNat.testBit 22 = q at *
  obtain zero | ⟨pos, sub⟩ | ⟨norm, fin⟩ | inf | nan : g = 0 ∨ 0 < g ∧ g < 0x00800000 ∨
      0x00800000 ≤ g ∧ g < 0x7F800000 ∨ g = 0x7F800000 ∨ 0x7F800000 < g := by omega
  case inl =>
    cases s <;> simp [zero, b2n] at pattern ⊢ <;> omega
  case inr.inl =>
    have fin : g ≤ 0x7F7FFFFF := by omega
    cases s <;> simp [pos, pos.ne', sub, sub.not_ge, fin, (fin.trans_lt (by decide : _ < 0x7F800000)).ne,
      (fin.trans (by decide : _ ≤ 0x7F800000)).not_gt, b2n] at pattern ⊢ <;> omega
  case inr.inr.inl =>
    have pos : 0 < g := by omega
    cases s <;> simp [pos, pos.ne', norm, norm.not_gt, Nat.le_of_lt_succ fin, fin.ne, fin.le.not_gt, b2n] at pattern ⊢ <;>
      omega
  case inr.inr.inr.inl =>
    cases s <;> simp [inf, b2n] at pattern ⊢ <;> omega
  case inr.inr.inr.inr =>
    have beyond : ¬g ≤ 0x7F7FFFFF := by omega
    cases s <;> cases q <;> simp [nan, beyond, b2n] at pattern ⊢ <;> omega

/-! ## The element instructions -/

theorem floatElementResults : FloatElementResults := by
  intro s g e u d a b x y z rm u1 u2 u3
  refine ⟨float1_of_float2 (Laws.exec_vfadd ..), float1_of_float2 (Laws.exec_vfsub ..), float1_of_float2 (Laws.exec_vfmul ..),
    float1_of_float3 (Laws.exec_vffma ..), float1_of_float2 (Laws.exec_vfdiv ..), float1_of_float1 (Laws.exec_vfsqrt ..),
    ⟨fun t => fp32.scale rm (x t) (sextNat 32 (y t)), fun t => ?_,
      float1_of_float2 (f := fun md x n => fp32.scale md x (sextNat 32 n)) (Laws.exec_vfscale ..)⟩,
    ⟨_, fun t => extremum_minmax .., float1_of_float2 (f := fun _ => fp32.minmax false false) (Laws.exec_vfmin ..)⟩,
    ⟨_, fun t => extremum_minmax .., float1_of_float2 (f := fun _ => fp32.minmax true false) (Laws.exec_vfmax ..)⟩,
    ⟨_, fun t => extremum_minmax .., float1_of_float2 (f := fun _ => fp32.minmax false true) (Laws.exec_vfminn ..)⟩,
    ⟨_, fun t => extremum_minmax .., float1_of_float2 (f := fun _ => fp32.minmax true true) (Laws.exec_vfmaxn ..)⟩,
    float1_of_float1 (f := fun _ x => ⟨fp32.mag x, Flags.zero⟩) (Laws.exec_vfabs ..), ?_,
    ⟨fun t => classBit (x t), fun t => isClass_classBit _,
      float1_of_float1 (f := fun _ x => ⟨2 ^ classBit x, Flags.zero⟩) (Laws.exec_vfclass ..)⟩⟩
  · simp only [y, sextNat_toNat]
    exact isScaled_scale ..
  · have flips := float1_of_float1 (g := g) (f := fun _ x => ⟨flipSign x, Flags.zero⟩) (Laws.exec_vfneg e u d a s)
    simp only [flipSign_toNat] at flips
    exact flips

end Sys2Proof.Machine
end

section
/-!
The approximate functions: brackets of a number, the reciprocal and the reciprocal square root.
-/

namespace Sys2Proof.Machine

open Sys2Proof Sys2Proof.Claims

/-! ## Numbers of a format -/

section Regular

variable {f : Fmt} (hf : f.Regular)
include hf

/-- A short mantissa above the least exponent is a magnitude of the format, unless it overflows. -/
theorem Fmt.Regular.exists_level {m : Nat} {e : Int} (fits : m < 2 ^ (f.frac + 1)) (least : f.qmin ≤ e)
    (inside : (m : ℝ) * (2 : ℝ) ^ e < (2 : ℝ) ^ ((f.bias : Int) + 1)) :
    ∃ k, k ≤ f.maxMag ∧ f.level k = m * (2 : ℝ) ^ e := by
  have max := hf.max
  rw [← hf.level_inf] at inside
  suffices ∃ k, f.level k = m * (2 : ℝ) ^ e by
    obtain ⟨k, level⟩ := this
    refine ⟨k, ?_, level⟩
    rw [← level] at inside
    have := f.level_strictMono.lt_iff_lt.mp inside
    omega
  obtain ⟨j, rfl⟩ : ∃ j : Nat, e = f.qmin + j := ⟨(e - f.qmin).toNat, by omega⟩
  clear inside least
  induction j generalizing m with
  | zero => exact ⟨_, f.level_units (j := 0) fits.le (.inl rfl)⟩
  | succ j ih =>
    by_cases normal : 2 ^ f.frac ≤ m
    · exact ⟨_, f.level_units fits.le (.inr normal)⟩
    · have double : 2 ^ (f.frac + 1) = 2 ^ f.frac + 2 ^ f.frac := by ring
      obtain ⟨k, level⟩ := ih (m := 2 * m) (by omega)
      refine ⟨k, ?_⟩
      rw [level, Nat.cast_succ, ← add_assoc, zpow_add_one₀ two_ne_zero]
      push_cast
      ring

end Regular

/-- An odd mantissa that is too long is no magnitude of a format. -/
theorem Fmt.level_ne_of_odd (f : Fmt) {m : Nat} (e : Int) (odd : m % 2 = 1) (long : 2 ^ (f.frac + 1) ≤ m) (k : Nat) :
    f.level k ≠ m * (2 : ℝ) ^ e := by
  obtain ⟨j, n, rfl, fits, normal⟩ := f.units_of k
  rw [f.level_units fits.le normal]
  generalize f.qmin + (j : Int) = q
  intro same
  obtain le | lt := le_or_gt q e
  · obtain ⟨d, rfl⟩ : ∃ d : Nat, e = q + d := ⟨(e - q).toNat, by omega⟩
    have unit : (2 : ℝ) ^ q ≠ 0 := by positivity
    rw [zpow_add₀ two_ne_zero, mul_comm ((2 : ℝ) ^ q), ← mul_assoc, mul_left_inj' unit, zpow_natCast] at same
    have whole : n = m * 2 ^ d := by exact_mod_cast same
    have := Nat.le_mul_of_pos_right m (Nat.two_pow_pos d)
    omega
  · obtain ⟨d, rfl⟩ : ∃ d : Nat, q = e + (d + 1 : Nat) := ⟨(q - e).toNat - 1, by omega⟩
    have unit : (2 : ℝ) ^ e ≠ 0 := by positivity
    rw [zpow_add₀ two_ne_zero, mul_comm ((2 : ℝ) ^ e), ← mul_assoc, mul_left_inj' unit, zpow_natCast] at same
    have whole : n * 2 ^ (d + 1) = m := by exact_mod_cast same
    rw [pow_succ, ← mul_assoc] at whole
    omega

/-- A magnitude of the format is delivered as it is, and without a flag. -/
theorem Fmt.RoundsMag.exact {f : Fmt} {md : RMode} {neg : Bool} {k : Nat} {r : Nat × Flags}
    (h : f.RoundsMag md neg (f.level k) r) (fin : k ≤ f.maxMag) : r.1 = k ∧ r.2.ovf = false ∧ r.2.nx = false := by
  obtain ⟨i, up, below, above, rule, -, inside⟩ := h
  have le := f.level_strictMono.le_iff_le.mp below
  have lt := f.level_strictMono.lt_iff_lt.mp above
  obtain rfl : i = k := by omega
  have down : up = false := by
    by_contra up
    exact (rule.mp (Bool.eq_true_of_not_eq_false up)).ne (f.level_strictMono (Nat.lt_succ_self i)) rfl
  rw [down] at inside
  obtain ⟨value, no, nx⟩ := inside fin
  refine ⟨value, no, ?_⟩
  by_contra inexact
  exact nx.mp (Bool.eq_true_of_not_eq_false inexact) rfl

/-! ## Brackets -/

theorem bracket_eq (op : Nat) (input : W32) (neg : Bool) (m : Nat) (e : Int) :
    bracket op input neg m e = if (fp32.roundMag .rz neg m e).2.nx = true then
      ⟨fp32.pack neg ((fp32.roundMag .rz neg m e).1 + b2n (Config.approxUp op input)),
        { Flags.zero with nx := true, uf := decide ((fp32.roundMag .rz neg m e).1 + b2n (Config.approxUp op input) < 2 ^ 23) }⟩
      else ⟨fp32.pack neg (fp32.roundMag .rz neg m e).1, Flags.zero⟩ := by
  rw [bracket]
  generalize fp32.roundMag .rz neg m e = r
  obtain ⟨mag, fl⟩ := r
  dsimp only
  cases fl.nx <;> rfl

/-- What a bracket is built from: the magnitude below the number, which is finite like the next one. -/
theorem roundMag_rz_inside {neg : Bool} {m : Nat} {e : Int} {y : ℝ} (h : StandsFor 25 m e y)
    (inside : y < fp32.level fp32.maxMag) : ∃ k, (fp32.roundMag .rz neg m e).1 = k ∧ k + 1 ≤ fp32.maxMag ∧
      fp32.level k ≤ y ∧ y < fp32.level (k + 1) ∧ ((fp32.roundMag .rz neg m e).2.nx = true ↔ fp32.level k ≠ y) := by
  obtain ⟨k, up, below, above, rule, -, delivered⟩ := regular_fp32.roundMag_rounds .rz neg h
  have lt := fp32.level_strictMono.lt_iff_lt.mp (below.trans_lt inside)
  have down : up = false := Bool.eq_false_iff.mpr fun up => rule.mp up
  rw [down] at delivered
  obtain ⟨value, -, nx⟩ := delivered lt.le
  exact ⟨k, value, lt, below, above, nx⟩

/-- The magnitudes beside a number enclose no other: `w` is a signed number of the format. -/
theorem bracket_from_below {k i : Nat} {w y : ℝ} (hw : w = fp32.level i ∨ w = -fp32.level i) (above : y < fp32.level (k + 1))
    (h : fp32.level k < w) : y < w := by
  obtain rfl | rfl := hw
  · exact above.trans_le (fp32.level_strictMono.monotone (fp32.level_strictMono.lt_iff_lt.mp h))
  · linarith [fp32.level_nonneg i, fp32.level_nonneg k]

theorem bracket_from_above {k i : Nat} {w y : ℝ} (hw : w = fp32.level i ∨ w = -fp32.level i) (below : fp32.level k < y)
    (h : w < fp32.level (k + 1)) : w < y := by
  obtain rfl | rfl := hw
  · exact (fp32.level_strictMono.monotone (Nat.lt_succ_iff.mp (fp32.level_strictMono.lt_iff_lt.mp h))).trans_lt below
  · linarith [fp32.level_nonneg i, fp32.level_nonneg k]

/-- One of the two magnitudes beside a positive number encloses no signed number of the format between it and the number. -/
theorem bracket_beside {k i R : Nat} {w y : ℝ} (hR : R = k ∨ R = k + 1) (hw : w = fp32.level i ∨ w = -fp32.level i)
    (below : fp32.level k < y) (above : y < fp32.level (k + 1)) :
    (fp32.level R ≤ y → fp32.level R < w → y < w) ∧ (y ≤ fp32.level R → w < fp32.level R → w < y) := by
  obtain rfl | rfl := hR
  · exact ⟨fun _ => bracket_from_below hw above, fun no => absurd below no.not_gt⟩
  · exact ⟨fun no => absurd above no.not_gt, fun _ => bracket_from_above hw below⟩

/-- The same of a number and a magnitude with a sign. -/
theorem bracket_beside_signed {k R : Nat} {y v : ℝ} (neg : Bool) (hR : R = k ∨ R = k + 1)
    (hv : ∃ i, v = fp32.level i ∨ v = -fp32.level i) (below : fp32.level k < y) (above : y < fp32.level (k + 1)) :
    let x := if neg = true then -y else y
    let z := if neg = true then -fp32.level R else fp32.level R
    (z ≤ x → z < v → x < v) ∧ (x ≤ z → v < z → v < x) := by
  obtain ⟨i, hv⟩ := hv
  cases neg with
  | false => exact bracket_beside hR hv below above
  | true =>
    have opposite : -v = fp32.level i ∨ -v = -fp32.level i := by
      rw [neg_inj, neg_eq_iff_eq_neg]
      exact hv.symm
    obtain ⟨up, down⟩ := bracket_beside hR opposite below above
    exact ⟨fun le lt => neg_lt.mp (down (neg_le_neg_iff.mp le) (neg_lt.mp lt)),
      fun le lt => lt_neg.mp (up (neg_le_neg_iff.mp le) (lt_neg.mp lt))⟩

/-- A finite bit pattern's value is a magnitude's number, or its negation. -/
theorem Fmt.Regular.value_level {f : Fmt} (hf : f.Regular) {k : Nat} (hk : (f.val k).isFin = true) :
    ∃ i, ((valueOf f k : Rat) : ℝ) = f.level i ∨ ((valueOf f k : Rat) : ℝ) = -f.level i := by
  rw [hf.cast_valueOf ((hf.isFin_iff k).mp hk)]
  split
  · exact ⟨_, .inr rfl⟩
  · exact ⟨_, .inl rfl⟩

/-- The sign and the finiteness of a packed magnitude, beside the number that it stands for. -/
theorem packed_signs {neg : Bool} {R : Nat} {x y : ℝ} (fin : R ≤ fp32.maxMag) (nonneg : 0 ≤ y)
    (hx : x = if neg = true then -y else y) : (fp32.val (fp32.pack neg R)).isFin = true ∧
      (0 < x → fp32.neg (fp32.pack neg R) = false) ∧ (x < 0 → fp32.neg (fp32.pack neg R) = true) := by
  have inf : R ≤ fp32.infMag := fin.trans (by decide)
  rw [regular_fp32.isFin_iff, regular_fp32.mag_pack neg inf, regular_fp32.neg_pack neg inf, hx]
  cases neg with
  | false => exact ⟨fin, fun _ => rfl, fun neg => absurd neg (by simpa using nonneg)⟩
  | true => exact ⟨fin, fun pos => absurd pos (by simpa using nonneg), fun _ => rfl⟩

/-- A number strictly between two magnitudes is no number of the format. -/
theorem not_value_of_between {k : Nat} {neg : Bool} {x y : ℝ} (below : fp32.level k < y) (above : y < fp32.level (k + 1))
    (hx : x = if neg = true then -y else y) : ¬∃ i, (fp32.val i).isFin = true ∧ ((valueOf fp32 i : Rat) : ℝ) = x := by
  rintro ⟨i, hi, same⟩
  obtain ⟨j, number⟩ := regular_fp32.value_level hi
  have level : y = fp32.level j ∨ y = -fp32.level j := by
    rw [same, hx] at number
    cases neg with
    | false => exact number
    | true => exact number.elim (fun h => .inr (neg_eq_iff_eq_neg.mp h)) fun h => .inl (neg_inj.mp h)
  exact absurd (bracket_from_below level above below) (lt_irrefl y)

/-- A bracket delivers a number of the format as it is, and else one of the two beside it (R139). -/
theorem bracket_approximates (op : Nat) (input : W32) {neg : Bool} {m : Nat} {e : Int} {x y : ℝ} (h : StandsFor 25 m e y)
    (inside : y < fp32.level fp32.maxMag) (hx : x = if neg = true then -y else y) :
    Approximates x (bracket op input neg m e) := by
  obtain ⟨k, value, next, below, above, nx⟩ := roundMag_rz_inside (neg := neg) h inside
  have nonneg : 0 ≤ y := (fp32.level_nonneg k).trans below
  rw [bracket_eq, value]
  split
  next inexact =>
    have strict := below.lt_of_ne (nx.mp inexact)
    obtain ⟨R, hR, beside⟩ : ∃ R, k + b2n (Config.approxUp op input) = R ∧ (R = k ∨ R = k + 1) := by
      refine ⟨_, rfl, ?_⟩
      cases Config.approxUp op input
      · exact .inl rfl
      · exact .inr rfl
    have fin : R ≤ fp32.maxMag := by omega
    have mag : fp32.pack neg R % 2 ^ 31 = R := regular_fp32.mag_pack neg (fin.trans (by decide))
    obtain ⟨finite, pos, negative⟩ := packed_signs fin nonneg hx
    have none := not_value_of_between strict above hx
    rw [hR]
    refine ⟨⟨finite, pos, negative, fun i hi => ?_⟩, fun some => absurd some none, fun _ => ?_⟩
    · simp only [regular_fp32.cast_pack neg fin, hx]
      exact bracket_beside_signed neg beside (regular_fp32.value_level hi) strict above
    · simp only [Claims.inexact, mag]
  next exact =>
    have same : fp32.level k = y := not_not.mp (mt nx.mpr exact)
    have fin : k ≤ fp32.maxMag := by omega
    obtain ⟨finite, pos, negative⟩ := packed_signs fin nonneg hx
    have packed : ((valueOf fp32 (fp32.pack neg k) : Rat) : ℝ) = x := by rw [regular_fp32.cast_pack neg fin, same, hx]
    refine ⟨⟨finite, pos, negative, fun i _ => ?_⟩, fun _ => rfl, fun none => absurd ⟨_, finite, packed⟩ none⟩
    simp only [packed]
    exact ⟨fun _ lt => lt, fun _ lt => lt⟩

/-! ## Operands -/

/-- An element with a number is finite, and propagates nothing. -/
theorem approx_operand {k : Nat} (some : ((valueOf fp32 k : Rat) : ℝ) ≠ 0) : ∃ m e,
    fp32.val k = .fin (fp32.neg k) m e ∧ m ≠ 0 ∧ m < 2 ^ 24 ∧ (-149 : Int) ≤ e ∧ fp32.propagate [k] = none ∧
    |((valueOf fp32 k : Rat) : ℝ)| = m * (2 : ℝ) ^ e ∧ |((valueOf fp32 k : Rat) : ℝ)| = fp32.level (fp32.mag k) ∧
    ((valueOf fp32 k : Rat) : ℝ) = if fp32.neg k = true then -(m * (2 : ℝ) ^ e) else m * (2 : ℝ) ^ e := by
  have fin : fp32.mag k ≤ fp32.maxMag := by
    by_contra inf
    exact some (by rw [fp32_valueOf_not_fin inf, Rat.cast_zero])
  have hk := (regular_fp32.isFin_iff k).mpr fin
  obtain ⟨m, e, val, value, none, fits⟩ := regular_fp32.val_real hk
  rw [val, realOf_fin] at value
  have number : ¬IsNaN k := by
    rw [IsNaN]
    exact (fin.trans (by decide : fp32.maxMag ≤ 0x7F800000)).not_gt
  have size : |((valueOf fp32 k : Rat) : ℝ)| = m * (2 : ℝ) ^ e := by
    have nonneg : (0 : ℝ) ≤ m * (2 : ℝ) ^ e := by positivity
    rw [← value]
    split
    · rw [abs_neg, abs_of_nonneg nonneg]
    · exact abs_of_nonneg nonneg
  have level : |((valueOf fp32 k : Rat) : ℝ)| = fp32.level (fp32.mag k) := by
    rw [regular_fp32.cast_valueOf fin]
    split
    · rw [abs_neg, abs_of_nonneg (fp32.level_nonneg _)]
    · exact abs_of_nonneg (fp32.level_nonneg _)
  refine ⟨m, e, val, ?_, fits, ?_, propagate_of_not_isNaN number, size, level, value.symm⟩
  · rintro rfl
    rw [Nat.cast_zero, zero_mul, abs_eq_zero] at size
    exact some size
  · have shape := regular_fp32.val_eq k
    rw [val] at shape
    split_ifs at shape with h1 h2 h3
    · simp only [FVal.fin.injEq] at shape
      rw [shape.2.2]
      decide
    · simp only [FVal.fin.injEq] at shape
      rw [shape.2.2, show fp32.qmin = -149 from rfl]
      have : 1 ≤ fp32.mag k / 2 ^ fp32.frac := Nat.one_le_iff_ne_zero.mpr h3
      omega

theorem zero_operand {k : Nat} (h : k % 2 ^ 31 = 0) : (∃ e, fp32.val k = .fin (fp32.neg k) 0 e) ∧ fp32.propagate [k] = none := by
  have hk : (fp32.val k).isFin = true := (regular_fp32.isFin_iff k).mpr (h.trans_le (Nat.zero_le _))
  obtain ⟨m, e, val, -, none, -⟩ := regular_fp32.val_real hk
  refine ⟨⟨e, by rw [val, none.mpr h]⟩, propagate_of_not_isNaN ?_⟩
  rw [IsNaN, h]
  decide

theorem inf_operand {k : Nat} (h : k % 2 ^ 31 = 0x7F800000) : fp32.val k = .inf (fp32.neg k) ∧ fp32.propagate [k] = none := by
  refine ⟨?_, propagate_of_not_isNaN ?_⟩
  · rw [regular_fp32.val_eq, if_neg, if_pos]
    · exact h
    · exact h.not_gt
  · rw [IsNaN, h]
    decide

/-- A magnitude of FP32 in units of its binade. -/
theorem fp32_level_eq {k : Nat} (j n : Nat) (hk : k = j * 2 ^ 23 + n) (le : n ≤ 2 ^ 24) (normal : j = 0 ∨ 2 ^ 23 ≤ n) :
    fp32.level k = n * (2 : ℝ) ^ (-149 + (j : Int)) := by
  subst hk
  exact fp32.level_units le normal

/-! ## The reciprocal -/

theorem approxRcp_of_fin {a : W32} {n : Bool} {m : Nat} {e : Int} (val : fp32.val a.toNat = .fin n m e)
    (number : fp32.propagate [a.toNat] = none) (pos : m ≠ 0) :
    approxRcp a = if fp32.mag a.toNat ≤ 0x00200000 then ovfInf n
      else bracket 0 a n (quotient 1 0 m e).1 (quotient 1 0 m e).2 := by
  obtain ⟨q, hq⟩ : ∃ q, quotient 1 0 m e = q := ⟨_, rfl⟩
  simp only [approxRcp, number, Option.getD_none, val, if_neg pos, hq]

/-- Up to 2^-128 the reciprocal overflows, and beyond it does not. -/
theorem reciprocal_inside {k : Nat} (large : 0x00200000 < k) : 1 / fp32.level k < fp32.level fp32.maxMag := by
  have least := fp32.level_strictMono.monotone (Nat.succ_le_of_lt large)
  have low : fp32.level (0x00200000 + 1) = 2097153 * (2 : ℝ) ^ (-149 : Int) :=
    (fp32_level_eq 0 0x00200001 rfl (by decide) (.inl rfl)).trans (by norm_num)
  have top : fp32.level fp32.maxMag = 16777215 * (2 : ℝ) ^ (104 : Int) :=
    (fp32_level_eq 253 0xFFFFFF rfl (by decide) (.inr (by decide))).trans (by norm_num)
  have product : 1 < fp32.level (0x00200000 + 1) * fp32.level fp32.maxMag := by
    rw [low, top]
    norm_num
  have pos : 0 < fp32.level (0x00200000 + 1) := by
    rw [low]
    positivity
  rw [div_lt_iff₀ (pos.trans_le least), mul_comm]
  exact product.trans_le (mul_le_mul_of_nonneg_right least (fp32.level_nonneg _))

theorem fp32_level_tiny : fp32.level 0x00200000 = (2 : ℝ) ^ (-128 : Int) :=
  (fp32_level_eq 0 0x00200000 rfl (by decide) (.inl rfl)).trans (by norm_num)

theorem isReciprocal_approxRcp (a : W32) : IsReciprocal a (approxRcp a) := by
  refine ⟨fun nan => ?_, fun zero => ?_, fun inf => ?_, fun pos small => ?_, fun large => ?_⟩
  · rw [approxRcp, quieted_of_isNaN nan, Option.getD_some]
  · obtain ⟨⟨e, val⟩, number⟩ := zero_operand zero
    simp only [approxRcp, number, Option.getD_none, val, if_true]
    change dzInf (a.getLsbD 31) = _
    cases a.getLsbD 31 <;> rfl
  · obtain ⟨val, number⟩ := inf_operand inf
    simp only [approxRcp, number, Option.getD_none, val]
    change FRes.mk (fp32.pack (a.getLsbD 31) 0) _ = _
    cases a.getLsbD 31 <;> rfl
  · obtain ⟨m, e, val, nonzero, -, -, number, -, level, -⟩ := approx_operand (abs_pos.mp pos)
    have tiny : fp32.mag a.toNat ≤ 0x00200000 := by
      rw [← fp32.level_strictMono.le_iff_le, ← level, fp32_level_tiny]
      exact small
    rw [approxRcp_of_fin val number nonzero, if_pos tiny]
    change ovfInf (a.getLsbD 31) = _
    cases a.getLsbD 31 <;> rfl
  · have pos : (0 : ℝ) < |((valueOf fp32 a.toNat : Rat) : ℝ)| := (by positivity : (0 : ℝ) < (2 : ℝ) ^ (-128 : Int)).trans large
    obtain ⟨m, e, val, nonzero, fits, -, number, size, level, value⟩ := approx_operand (abs_pos.mp pos)
    have normal : 0x00200000 < fp32.mag a.toNat := by
      rw [← fp32.level_strictMono.lt_iff_lt, ← level, fp32_level_tiny]
      exact large
    rw [approxRcp_of_fin val number nonzero, if_neg normal.not_ge]
    have stands := standsFor_quotient (m := 1) 0 e nonzero fits
    rw [Nat.cast_one, zpow_zero, one_mul, ← size] at stands
    refine bracket_approximates 0 a stands (level ▸ reciprocal_inside normal) ?_
    rw [size, value]
    split
    · rw [div_neg]
    · rfl

/-! ## The reciprocal square root -/

/-- A mantissa of an even exponent. -/
def evened (m : Nat) (e : Int) : Nat × Int := if e % 2 = 0 then (m, e) else (2 * m, e - 1)

theorem evened_spec (m : Nat) (e : Int) : ∃ (n : Nat) (c : Int), evened m e = (n, 2 * c) ∧ n ≤ 2 * m ∧ (m ≠ 0 → n ≠ 0) ∧
    (m : ℝ) * (2 : ℝ) ^ e = n * ((2 : ℝ) ^ c * (2 : ℝ) ^ c) := by
  rw [evened]
  split
  next even =>
    obtain ⟨c, rfl⟩ : ∃ c, e = 2 * c := ⟨e / 2, by omega⟩
    exact ⟨m, c, rfl, by omega, id, by rw [← zpow_add₀ two_ne_zero, two_mul]⟩
  next odd =>
    obtain ⟨c, rfl⟩ : ∃ c, e = 2 * c + 1 := ⟨e / 2, by omega⟩
    refine ⟨2 * m, c, by rw [add_sub_cancel_right], le_rfl, by omega, ?_⟩
    rw [← zpow_add₀ two_ne_zero, ← two_mul, zpow_add_one₀ two_ne_zero]
    push_cast
    ring

/-- The root that `vfrsq` computes, with its lowest bit. -/
def rsqRoot (n : Nat) : Nat :=
  2 * isqrt (2 ^ 120 / n) 61 0 + b2n (isqrt (2 ^ 120 / n) 61 0 * isqrt (2 ^ 120 / n) 61 0 * n != 2 ^ 120)

theorem approxRsq_of_fin {a : W32} {m n : Nat} {e c : Int} (val : fp32.val a.toNat = .fin false m e)
    (number : fp32.propagate [a.toNat] = none) (pos : m ≠ 0) (even : evened m e = (n, 2 * c)) :
    approxRsq a = bracket 1 a false (rsqRoot n) (-c - 61) := by
  rw [evened] at even
  rw [approxRsq, number, Option.getD_none, val]
  simp only [if_neg pos, even]
  rw [if_neg Bool.false_ne_true, Int.mul_ediv_cancel_left c two_ne_zero, rsqRoot]

/-- It stands for the reciprocal of the square root. -/
theorem standsFor_rsqRoot {n : Nat} (c : Int) (pos : n ≠ 0) (fits : n < 2 ^ 26) :
    StandsFor 25 (rsqRoot n) (-c - 61) (1 / Real.sqrt (n * ((2 : ℝ) ^ c * (2 : ℝ) ^ c))) := by
  have posR : (0 : ℝ) < n := by exact_mod_cast Nat.pos_of_ne_zero pos
  have one : (1 : ℝ) ≤ n := by exact_mod_cast Nat.one_le_iff_ne_zero.mpr pos
  obtain ⟨low, high⟩ := isqrt_spec (2 ^ 120 / n) 61 0 (Nat.zero_le _) ((Nat.div_le_self ..).trans_lt (by norm_num))
  rw [rsqRoot]
  generalize isqrt (2 ^ 120 / n) 61 0 = r at low high ⊢
  rw [Nat.le_div_iff_mul_le (Nat.pos_of_ne_zero pos)] at low
  rw [Nat.div_lt_iff_lt_mul (Nat.pos_of_ne_zero pos)] at high
  have lowR : (r : ℝ) * r * n ≤ 2 ^ 120 := by exact_mod_cast low
  have highR : (2 : ℝ) ^ 120 < ((r : ℝ) + 1) * (r + 1) * n := by exact_mod_cast high
  have nonneg : (0 : ℝ) ≤ r := Nat.cast_nonneg r
  have value : 1 / Real.sqrt (n * ((2 : ℝ) ^ c * (2 : ℝ) ^ c)) = 2 * Real.sqrt (2 ^ 120 / n) * (2 : ℝ) ^ (-c - 61) := by
    have power : (2 : ℝ) ^ (-c - 61) = ((2 : ℝ) ^ c)⁻¹ * (2 ^ 61)⁻¹ := by
      rw [zpow_sub₀ two_ne_zero, zpow_neg]
      rfl
    have root : Real.sqrt (2 ^ 120 / n) = 2 ^ 60 / Real.sqrt n := by
      rw [Real.sqrt_div (by positivity), show (2 : ℝ) ^ 120 = 2 ^ 60 * 2 ^ 60 by norm_num, Real.sqrt_mul_self (by positivity)]
    have sqrtPos : 0 < Real.sqrt n := Real.sqrt_pos.mpr posR
    rw [Real.sqrt_mul posR.le, Real.sqrt_mul_self (by positivity), power, root]
    field_simp
  refine standsFor_floor (z := Real.sqrt (2 ^ 120 / n)) ?_ ?_ ?_ (fun _ => ?_) value
  · refine Real.le_sqrt_of_sq_le ?_
    rw [le_div_iff₀ posR, sq]
    exact lowR
  · rw [Real.sqrt_lt' (by linarith), div_lt_iff₀ posR, sq]
    exact highR
  · rw [bne_iff_ne, ne_eq, ne_eq, eq_comm (a := (r : ℝ)), Real.sqrt_eq_iff_mul_self_eq (by positivity) nonneg, div_eq_iff posR.ne',
      eq_comm (a := (2 : ℝ) ^ 120)]
    exact not_congr (by exact_mod_cast Iff.rfl)
  · by_contra small
    have bound : r + 1 ≤ 2 ^ 24 := by omega
    have square : (r + 1) * (r + 1) ≤ 2 ^ 24 * 2 ^ 24 := Nat.mul_le_mul bound bound
    have product : (r + 1) * (r + 1) * n ≤ 2 ^ 24 * 2 ^ 24 * 2 ^ 26 := Nat.mul_le_mul square fits.le
    exact absurd (high.trans_le product) (by norm_num)

/-- The reciprocal square root never overflows. -/
theorem rsq_inside {k : Nat} (pos : 0 < k) : 1 / Real.sqrt (fp32.level k) < fp32.level fp32.maxMag := by
  have least := fp32.level_strictMono.monotone (Nat.succ_le_of_lt pos)
  have low : fp32.level (0 + 1) = (2 : ℝ) ^ (-149 : Int) :=
    (fp32_level_eq 0 1 rfl (by decide) (.inl rfl)).trans (by norm_num)
  have top : fp32.level fp32.maxMag = 16777215 * (2 : ℝ) ^ (104 : Int) :=
    (fp32_level_eq 253 0xFFFFFF rfl (by decide) (.inr (by decide))).trans (by norm_num)
  have root : (2 : ℝ) ^ (-75 : Int) ≤ Real.sqrt (fp32.level k) := by
    refine Real.le_sqrt_of_sq_le (le_trans ?_ least)
    rw [low]
    norm_num
  have positive : (0 : ℝ) < (2 : ℝ) ^ (-75 : Int) := by positivity
  calc 1 / Real.sqrt (fp32.level k) ≤ 1 / (2 : ℝ) ^ (-75 : Int) := one_div_le_one_div_of_le positive root
    _ < fp32.level fp32.maxMag := by
      rw [top]
      norm_num

theorem isRootReciprocal_approxRsq (a : W32) : IsRootReciprocal a (approxRsq a) := by
  refine ⟨fun nan => ?_, ?_, ?_, ?_, fun bad => ?_, fun pos => ?_⟩
  · rw [approxRsq, quieted_of_isNaN nan, Option.getD_some]
  · rintro rfl
    rfl
  · rintro rfl
    rfl
  · rintro rfl
    rfl
  · obtain rfl | neg := bad
    · rfl
    · obtain ⟨m, e, val, nonzero, -, -, number, -, -, value⟩ := approx_operand neg.ne
      have sign : fp32.neg a.toNat = true := by
        by_contra no
        rw [if_neg no] at value
        have : (0 : ℝ) ≤ m * (2 : ℝ) ^ e := by positivity
        linarith
      simp only [approxRsq, number, Option.getD_none, val, if_neg nonzero, sign, if_true]
      rfl
  · obtain ⟨m, e, val, nonzero, fits, -, number, size, level, value⟩ := approx_operand pos.ne'
    have sign : fp32.neg a.toNat = false := by
      by_contra no
      rw [if_pos (Bool.eq_true_of_not_eq_false no)] at value
      have : (0 : ℝ) ≤ m * (2 : ℝ) ^ e := by positivity
      linarith
    rw [sign] at val
    obtain ⟨n, c, even, bound, nonzero', split⟩ := evened_spec m e
    rw [approxRsq_of_fin val number nonzero even]
    have stands := standsFor_rsqRoot c (nonzero' nonzero) (by omega)
    rw [← split, ← size, abs_of_pos pos] at stands
    rw [abs_of_pos pos] at level
    have magPos : 0 < fp32.mag a.toNat := by
      rw [← fp32.level_strictMono.lt_iff_lt, fp32.level_zero, ← level]
      exact pos
    exact bracket_approximates 1 a stands (level ▸ rsq_inside magPos) rfl

end Sys2Proof.Machine
end

section
/-!
The approximate functions: the power of two.
-/

namespace Sys2Proof.Machine

open Sys2Proof Sys2Proof.Claims

/-! ## Numbers from below -/

/-- The number `c` of units of 1/P is `G`, rounded down with a relative error of at most `ε`. -/
def NearBelow (P ε G c : ℝ) : Prop := G * (1 - ε) * P ≤ c ∧ c ≤ G * P

section NearBelow

variable {P ε η g G c d r : ℝ} (hP : 0 < P) (hε : 0 ≤ ε) (hε' : ε ≤ 1) (hg : 1 ≤ g)
include hP hε hε' hg

/-- The root of a number, rounded down. -/
theorem NearBelow.sqrt (h : NearBelow P ε g c) (below : r ≤ Real.sqrt (c * P)) (above : Real.sqrt (c * P) < r + 1) :
    NearBelow P (ε + 1 / P) (Real.sqrt g) r := by
  obtain ⟨low, high⟩ := h
  have one : 1 ≤ Real.sqrt g := Real.one_le_sqrt.mpr hg
  have exact : Real.sqrt (g * P * P) = Real.sqrt g * P := by
    rw [mul_assoc, Real.sqrt_mul (by linarith), Real.sqrt_mul_self hP.le]
  have root : 1 - ε ≤ Real.sqrt (1 - ε) := by
    refine Real.le_sqrt_of_sq_le ?_
    nlinarith
  constructor
  · have lower : Real.sqrt g * (1 - ε) * P ≤ Real.sqrt (c * P) := by
      calc Real.sqrt g * (1 - ε) * P ≤ Real.sqrt g * Real.sqrt (1 - ε) * P := by gcongr
        _ = Real.sqrt (g * (1 - ε) * P * P) := by
          rw [mul_assoc (g * (1 - ε)), Real.sqrt_mul (mul_nonneg (by linarith) (by linarith)), Real.sqrt_mul_self hP.le,
            Real.sqrt_mul (by linarith)]
        _ ≤ Real.sqrt (c * P) := by gcongr
    have split : Real.sqrt g * (1 - (ε + 1 / P)) * P = Real.sqrt g * (1 - ε) * P - Real.sqrt g := by
      field_simp
      ring
    linarith
  · exact below.trans ((Real.sqrt_le_sqrt (mul_le_mul_of_nonneg_right high hP.le)).trans exact.le)

/-- The product of two numbers, rounded down. -/
theorem NearBelow.mul (hη : 0 ≤ η) (hη' : η ≤ 1) (hG : 1 ≤ G) (h : NearBelow P ε g c) (k : NearBelow P η G d)
    (below : r ≤ d * c / P) (above : d * c / P < r + 1) : NearBelow P (η + ε + 1 / P) (G * g) r := by
  obtain ⟨low, high⟩ := h
  obtain ⟨low', high'⟩ := k
  have one : 1 ≤ G * g := one_le_mul_of_one_le_of_one_le hG hg
  have nonneg : 0 ≤ g * (1 - ε) * P := mul_nonneg (mul_nonneg (by linarith) (by linarith)) hP.le
  have nonneg' : 0 ≤ G * (1 - η) * P := mul_nonneg (mul_nonneg (by linarith) (by linarith)) hP.le
  rw [le_div_iff₀ hP] at below
  rw [div_lt_iff₀ hP] at above
  constructor
  · have product : G * (1 - η) * P * (g * (1 - ε) * P) ≤ d * c := mul_le_mul low' low nonneg (nonneg'.trans low')
    have errors : (1 - η - ε) ≤ (1 - η) * (1 - ε) := by nlinarith [mul_nonneg hη hε]
    have scaled : G * g * (1 - η - ε) * P ≤ G * g * ((1 - η) * (1 - ε)) * P := by gcongr
    have whole : G * g * ((1 - η) * (1 - ε)) * P * P < (r + 1) * P := by
      refine lt_of_le_of_lt (le_of_eq_of_le ?_ product) above
      ring
    have less := lt_of_mul_lt_mul_right whole hP.le
    have split : G * g * (1 - (η + ε + 1 / P)) * P = G * g * (1 - η - ε) * P - G * g := by
      field_simp
      ring
    linarith
  · have product : d * c ≤ G * P * (g * P) := mul_le_mul high' high (nonneg.trans low) (nonneg'.trans (low'.trans high'))
    refine le_of_mul_le_mul_right (below.trans (product.trans_eq ?_)) hP
    ring

end NearBelow

theorem NearBelow.mono {P ε η G c : ℝ} (hP : 0 < P) (hG : 0 ≤ G) (le : ε ≤ η) (h : NearBelow P ε G c) : NearBelow P η G c := by
  refine ⟨le_trans ?_ h.1, h.2⟩
  gcongr

/-- The units in which 2^x is computed. -/
noncomputable def exp2Unit : ℝ := ((2 ^ approxPrec : Nat) : ℝ)

theorem exp2Unit_eq : exp2Unit = 2 ^ 192 := by
  rw [exp2Unit, approxPrec]
  norm_num

theorem exp2Unit_pos : 0 < exp2Unit := Nat.cast_pos.mpr (Nat.two_pow_pos _)

theorem isqrt_near {c : Nat} {ε g : ℝ} (hε : 0 ≤ ε) (hε' : ε ≤ 1) (hg : 1 ≤ g) (hg' : g ≤ 2)
    (h : NearBelow exp2Unit ε g c) :
    NearBelow exp2Unit (ε + 1 / exp2Unit) (Real.sqrt g) (isqrt (c * 2 ^ approxPrec) (approxPrec + 1) 0 : Nat) := by
  have small : c ≤ 2 * 2 ^ approxPrec := by
    have bound : (c : ℝ) ≤ ((2 * 2 ^ approxPrec : Nat) : ℝ) := by
      rw [Nat.cast_mul, Nat.cast_ofNat]
      exact h.2.trans (mul_le_mul_of_nonneg_right hg' exp2Unit_pos.le)
    exact_mod_cast bound
  have fits : c * 2 ^ approxPrec < 2 ^ (approxPrec + 1) * 2 ^ (approxPrec + 1) := by
    have pos := Nat.two_pow_pos approxPrec
    rw [pow_succ]
    generalize 2 ^ approxPrec = p at *
    nlinarith
  obtain ⟨below, above, -⟩ := isqrt_sqrt fits
  rw [Nat.cast_mul] at below above
  exact h.sqrt exp2Unit_pos hε hε' hg below above

/-- A power of `g` by the bits of an exponent: its highest bit takes a root of `g`. -/
theorem rpow_bits {g : ℝ} (hg : 1 ≤ g) (f n : Nat) : g ^ (((f % 2 ^ (n + 1) : Nat) : ℝ) / 2 ^ (n + 1)) =
    (if f.testBit n = true then Real.sqrt g else 1) * Real.sqrt g ^ (((f % 2 ^ n : Nat) : ℝ) / 2 ^ n) := by
  have pos : 0 < g := by linarith
  have two : (0 : ℝ) < 2 ^ n := by positivity
  have half (x : ℝ) : g ^ (x / 2 ^ (n + 1)) = Real.sqrt g ^ (x / 2 ^ n) := by
    rw [Real.sqrt_eq_rpow, ← Real.rpow_mul pos.le, pow_succ]
    congr 1
    field_simp
  rw [half, Nat.mod_pow_succ, Nat.testBit_eq_decide_div_mod_eq]
  have rootPos : 0 < Real.sqrt g := Real.sqrt_pos.mpr pos
  obtain zero | one := Nat.mod_two_eq_zero_or_one (f / 2 ^ n)
  · simp [zero]
  · rw [one, Nat.mul_one, Nat.cast_add, add_div, Real.rpow_add rootPos, Nat.cast_pow, Nat.cast_ofNat, div_self two.ne',
      Real.rpow_one, if_pos (decide_eq_true rfl), mul_comm]

theorem product_near {acc c : Nat} {ε η g G : ℝ} (hε : 0 ≤ ε) (hε' : ε ≤ 1) (hg : 1 ≤ g) (hη : 0 ≤ η) (hη' : η ≤ 1)
    (hG : 1 ≤ G) (h : NearBelow exp2Unit ε g c) (k : NearBelow exp2Unit η G acc) :
    NearBelow exp2Unit (η + ε + 1 / exp2Unit) (G * g) (acc * c / 2 ^ approxPrec : Nat) := by
  obtain ⟨below, above, -⟩ := div_floor (acc * c) (Nat.two_pow_pos approxPrec).ne'
  rw [Nat.cast_mul] at below above
  exact h.mul exp2Unit_pos hε hε' hg hη hη' hG k below above

/-- The error of a power by `n` further bits: each adds the errors of one root and of one product. -/
noncomputable def exp2Error (n : Nat) (ε η : ℝ) : ℝ := η + n * (ε + (n + 1) * (1 / exp2Unit))

theorem exp2Error_succ (n : Nat) (ε η : ℝ) :
    exp2Error n (ε + 1 / exp2Unit) (η + (ε + 1 / exp2Unit) + 1 / exp2Unit) ≤ exp2Error (n + 1) ε η := by
  have each : 0 < 1 / exp2Unit := one_div_pos.mpr exp2Unit_pos
  have count : (0 : ℝ) ≤ n := Nat.cast_nonneg n
  simp only [exp2Error]
  push_cast
  nlinarith

theorem exp2Error_mono {n : Nat} {ε η θ : ℝ} (le : η ≤ θ) : exp2Error n ε η ≤ exp2Error n ε θ := by
  simp only [exp2Error]
  linarith

theorem le_exp2Error {n : Nat} {ε η : ℝ} (hε : 0 ≤ ε) : η ≤ exp2Error n ε η := by
  have := exp2Unit_pos
  rw [exp2Error]
  exact le_add_of_nonneg_right (by positivity)

theorem le_exp2Error_succ {n : Nat} {ε η : ℝ} (hε : 0 ≤ ε) (hη : 0 ≤ η) : ε + 1 / exp2Unit ≤ exp2Error (n + 1) ε η := by
  have each : 0 < 1 / exp2Unit := one_div_pos.mpr exp2Unit_pos
  exact le_trans (by linarith) ((le_exp2Error (by linarith)).trans (exp2Error_succ ..))

/-- The power that `exp2Bits` computes from the root `c` of a number `g`, on a number `G`. -/
theorem exp2Bits_near (f : Nat) : ∀ (n c acc : Nat) (g G ε η : ℝ), 1 ≤ g → g ≤ 2 → 1 ≤ G → 0 ≤ ε → 0 ≤ η →
    exp2Error n ε η ≤ 1 → NearBelow exp2Unit ε g c → NearBelow exp2Unit η G acc →
    NearBelow exp2Unit (exp2Error n ε η) (G * g ^ (((f % 2 ^ n : Nat) : ℝ) / 2 ^ n)) (exp2Bits f n c acc : Nat)
  | 0, c, acc, g, G, ε, η, _, _, _, _, _, _, _, hacc => by
    simpa [exp2Bits, exp2Error, Nat.mod_one] using hacc
  | n + 1, c, acc, g, G, ε, η, hg, hg', hG, hε, hη, bound, hc, hacc => by
    have each : 0 < 1 / exp2Unit := one_div_pos.mpr exp2Unit_pos
    have small : ε + 1 / exp2Unit ≤ 1 := (le_exp2Error_succ hε hη).trans bound
    have small' : η ≤ 1 := (le_exp2Error hε).trans bound
    have root := isqrt_near hε (by linarith) hg hg' hc
    have rootOne : 1 ≤ Real.sqrt g := Real.one_le_sqrt.mpr hg
    have rootTwo : Real.sqrt g ≤ 2 := Real.sqrt_le_iff.mpr ⟨zero_le_two, by linarith⟩
    have less := exp2Error_succ n ε η
    rw [exp2Bits, rpow_bits hg]
    generalize isqrt (c * 2 ^ approxPrec) (approxPrec + 1) 0 = c' at root ⊢
    have power : (0 : ℝ) ≤ Real.sqrt g ^ (((f % 2 ^ n : Nat) : ℝ) / 2 ^ n) := by positivity
    split
    next =>
      rw [← mul_assoc]
      have product := product_near (by linarith) small rootOne hη small' hG root hacc
      have next := exp2Bits_near f n c' _ _ _ _ _ rootOne rootTwo (one_le_mul_of_one_le_of_one_le hG rootOne) (by linarith)
        (by linarith) (less.trans bound) root product
      exact next.mono exp2Unit_pos (by positivity) less
    next =>
      have fewer : exp2Error n (ε + 1 / exp2Unit) η ≤ exp2Error (n + 1) ε η := (exp2Error_mono (by linarith)).trans less
      have next := exp2Bits_near f n c' acc _ _ _ _ rootOne rootTwo hG (by linarith) hη (fewer.trans bound) root hacc
      rw [one_mul]
      exact next.mono exp2Unit_pos (by positivity) fewer

/-- 2^x for a fraction `f` of 150 bits. -/
theorem exp2Bits_fraction {f : Nat} (fits : f < 2 ^ 150) :
    NearBelow exp2Unit (1 / 2 ^ 101) ((2 : ℝ) ^ ((f : ℝ) / 2 ^ 150)) (exp2Bits f 150 (2 * 2 ^ approxPrec) (2 ^ approxPrec) : Nat) := by
  have error : exp2Error 150 0 0 ≤ 1 / 2 ^ 101 := by
    rw [exp2Error, exp2Unit, approxPrec]
    norm_num
  have two : NearBelow exp2Unit 0 2 ((2 * 2 ^ approxPrec : Nat) : ℝ) := by
    rw [NearBelow, exp2Unit]
    push_cast
    constructor <;> linarith
  have one : NearBelow exp2Unit 0 1 ((2 ^ approxPrec : Nat) : ℝ) := by
    rw [NearBelow, exp2Unit]
    constructor <;> linarith
  have near := exp2Bits_near f 150 _ _ 2 1 0 0 one_le_two le_rfl le_rfl le_rfl le_rfl (error.trans (by norm_num)) two one
  rw [Nat.mod_eq_of_lt fits, one_mul] at near
  exact near.mono exp2Unit_pos (by positivity) error

/-! ## The operand -/

/-- The operand of `vfexp2` in units of 2^-150. -/
def exp2Arg (n : Bool) (m : Nat) (e : Int) : Int := signed n (m * 2 ^ (e + 150).toNat)

theorem exp2Arg_real {n : Bool} {m : Nat} {e : Int} (least : -149 ≤ e) :
    ((exp2Arg n m e : Int) : ℝ) = realOf (.fin n m e) * 2 ^ 150 := by
  have power : (2 : ℝ) ^ (e + 150).toNat = (2 : ℝ) ^ e * 2 ^ 150 := by
    rw [← zpow_natCast, Int.toNat_of_nonneg (by omega), zpow_add₀ two_ne_zero]
    rfl
  cases n <;> simp [exp2Arg, realOf, signed, power, mul_assoc]

/-- The result of `vfexp2` for an operand of `j` units of 2^-150. -/
def exp2Of (a : W32) (j : Int) : FRes :=
  if (j % 2 ^ 150).toNat = 0 then bracket 2 a false 1 (j / 2 ^ 150)
  else bracket 2 a false (2 * exp2Bits (j % 2 ^ 150).toNat 150 (2 * 2 ^ approxPrec) (2 ^ approxPrec) + 1)
    (j / 2 ^ 150 - (approxPrec : Int) - 1)

theorem approxExp2_of_fin {a : W32} {n : Bool} {m : Nat} {e : Int} (val : fp32.val a.toNat = .fin n m e)
    (number : fp32.propagate [a.toNat] = none) (pos : m ≠ 0) : approxExp2 a =
      if (!n && 0x43000000 ≤ fp32.mag a.toNat) = true then ovfInf false
      else if (n && 0x43800000 ≤ fp32.mag a.toNat) = true then bracket 2 a false 1 (-1000)
      else exp2Of a (exp2Arg n m e) := by
  rw [approxExp2, number, Option.getD_none, val]
  simp only [if_neg pos]
  rw [exp2Of, exp2Arg]

/-- An operand of whole units and a fraction. -/
theorem exp2_split (j : Int) : (j : ℝ) / 2 ^ 150 = ((j / 2 ^ 150 : Int) : ℝ) + (((j % 2 ^ 150).toNat : Nat) : ℝ) / 2 ^ 150 := by
  have whole : (2 : Int) ^ 150 * (j / 2 ^ 150) + (((j % 2 ^ 150).toNat : Nat) : Int) = j := by
    rw [Int.toNat_of_nonneg (Int.emod_nonneg _ (by norm_num))]
    exact Int.mul_ediv_add_emod j (2 ^ 150)
  have wholeR : (2 : ℝ) ^ 150 * ((j / 2 ^ 150 : Int) : ℝ) + (((j % 2 ^ 150).toNat : Nat) : ℝ) = j := by exact_mod_cast whole
  rw [← wholeR]
  field_simp

/-- A number below the least magnitude gives 0 or that magnitude, tiny and inexact. -/
theorem bracket_of_tiny (op : Nat) (a : W32) {m : Nat} {e : Int} {y : ℝ} (h : StandsFor 25 m e y) (pos : 0 < y)
    (tiny : y < (2 : ℝ) ^ (-149 : Int)) : (bracket op a false m e).x ≤ 1 ∧
      (bracket op a false m e).fl = { Flags.zero with nx := true, uf := true } := by
  have one : fp32.level 1 = (2 : ℝ) ^ (-149 : Int) := (fp32_level_eq 0 1 rfl (by decide) (.inl rfl)).trans (by norm_num)
  rw [← one] at tiny
  have inside : y < fp32.level fp32.maxMag := tiny.trans_le (fp32.level_strictMono.monotone (by decide))
  obtain ⟨k, value, -, below, -, nx⟩ := roundMag_rz_inside (neg := false) h inside
  obtain rfl : k = 0 := Nat.lt_one_iff.mp (fp32.level_strictMono.lt_iff_lt.mp (below.trans_lt tiny))
  have inexact := nx.mpr (fp32.level_zero.trans_ne pos.ne)
  rw [bracket_eq, if_pos inexact, value]
  cases Config.approxUp op a <;> exact ⟨by decide, rfl⟩

/-- A bracket delivers a magnitude of the format as it is. -/
theorem bracket_exact (op : Nat) (input : W32) {neg : Bool} {m k : Nat} {e : Int} (h : StandsFor 25 m e (fp32.level k))
    (fin : k ≤ fp32.maxMag) : bracket op input neg m e = ⟨fp32.pack neg k, Flags.zero⟩ := by
  obtain ⟨value, -, nx⟩ := (regular_fp32.roundMag_rounds .rz neg h).exact fin
  rw [bracket_eq, value, if_neg (by simp [nx])]

theorem fp32_level_maxMag : fp32.level fp32.maxMag = 16777215 * (2 : ℝ) ^ (104 : Int) :=
  (fp32_level_eq 253 0xFFFFFF rfl (by decide) (.inr (by decide))).trans (by norm_num)

theorem fp32_pack_pos (k : Nat) : fp32.pack false k = k := by
  simp [Fmt.pack, b2n]

/-- A power of two that FP32 holds. -/
theorem fp32_power {n : Int} (least : -149 ≤ n) (most : n ≤ 127) : ∃ k, k ≤ fp32.maxMag ∧ fp32.level k = (2 : ℝ) ^ n := by
  have inside : ((1 : Nat) : ℝ) * (2 : ℝ) ^ n < (2 : ℝ) ^ ((fp32.bias : Int) + 1) := by
    rw [Nat.cast_one, one_mul]
    exact zpow_lt_zpow_right₀ one_lt_two (by rw [show fp32.bias = 127 from rfl]; omega)
  simpa using regular_fp32.exists_level (m := 1) (by decide) least inside

/-- Which way `approxExp2` takes, by the value of its operand. -/
theorem approxExp2_of_value {a : W32} (some : ((valueOf fp32 a.toNat : Rat) : ℝ) ≠ 0) :
    let v := ((valueOf fp32 a.toNat : Rat) : ℝ)
    (128 ≤ v → approxExp2 a = ovfInf false) ∧ (v ≤ -256 → approxExp2 a = bracket 2 a false 1 (-1000)) ∧
      (-256 < v → v < 128 → ∃ j : Int, (j : ℝ) / 2 ^ 150 = v ∧ approxExp2 a = exp2Of a j) := by
  obtain ⟨m, e, val, nonzero, -, least, number, size, level, value⟩ := approx_operand some
  have arg : ((exp2Arg (fp32.neg a.toNat) m e : Int) : ℝ) / 2 ^ 150 = ((valueOf fp32 a.toNat : Rat) : ℝ) := by
    rw [exp2Arg_real least, realOf_fin, ← value]
    field_simp
  have big : fp32.level 0x43000000 = 128 := (fp32_level_eq 133 (2 ^ 23) rfl (by decide) (.inr le_rfl)).trans (by norm_num)
  have small : fp32.level 0x43800000 = 256 := (fp32_level_eq 134 (2 ^ 23) rfl (by decide) (.inr le_rfl)).trans (by norm_num)
  have huge : 0x43000000 ≤ fp32.mag a.toNat ↔ 128 ≤ |((valueOf fp32 a.toNat : Rat) : ℝ)| := by
    rw [level, ← big, fp32.level_strictMono.le_iff_le]
  have tiny : 0x43800000 ≤ fp32.mag a.toNat ↔ 256 ≤ |((valueOf fp32 a.toNat : Rat) : ℝ)| := by
    rw [level, ← small, fp32.level_strictMono.le_iff_le]
  have nonneg : (0 : ℝ) ≤ m * (2 : ℝ) ^ e := by positivity
  have shape := approxExp2_of_fin val number nonzero
  generalize exp2Arg (fp32.neg a.toNat) m e = j at arg shape
  generalize ((valueOf fp32 a.toNat : Rat) : ℝ) = v at *
  simp only [Bool.and_eq_true, Bool.not_eq_true', decide_eq_true_eq, huge, tiny] at shape
  cases sign : fp32.neg a.toNat with
  | false =>
    rw [if_neg (by simp [sign])] at value
    rw [sign, abs_of_nonneg (value ▸ nonneg)] at shape
    refine ⟨fun le => ?_, fun le => by linarith, fun _ lt => ⟨j, arg, ?_⟩⟩
    · rw [shape, if_pos ⟨rfl, le⟩]
    · rw [shape, if_neg fun h => lt.not_ge h.2, if_neg fun h => Bool.false_ne_true h.1]
  | true =>
    rw [if_pos sign] at value
    rw [sign, abs_of_nonpos (by linarith)] at shape
    refine ⟨fun le => by linarith, fun le => ?_, fun gt _ => ⟨j, arg, ?_⟩⟩
    · rw [shape, if_neg fun h => Bool.false_ne_true h.1.symm, if_pos ⟨rfl, by linarith⟩]
    · rw [shape, if_neg fun h => Bool.false_ne_true h.1.symm, if_neg fun h => by linarith [h.2]]

/-- A whole power. -/
theorem exp2Of_whole (a : W32) {j n : Int} (h : (j : ℝ) / 2 ^ 150 = n) : exp2Of a j = bracket 2 a false 1 n := by
  have same : j = n * 2 ^ 150 := by
    rw [div_eq_iff (by positivity)] at h
    exact_mod_cast h
  rw [exp2Of, same, Int.mul_emod_left, Int.mul_ediv_cancel n (by norm_num)]
  exact if_pos rfl

/-- An operand with a fraction `f`: the way that `exp2Of` takes. -/
theorem exp2Of_split (a : W32) {j : Int} {v : ℝ} (h : (j : ℝ) / 2 ^ 150 = v) (fraction : ¬∃ n : Int, v = n) :
    ∃ (f : Nat) (w : Int), f ≠ 0 ∧ f < 2 ^ 150 ∧ v = w + (f : ℝ) / 2 ^ 150 ∧
      exp2Of a j = bracket 2 a false (2 * exp2Bits f 150 (2 * 2 ^ approxPrec) (2 ^ approxPrec) + 1) (w - 193) := by
  have split := exp2_split j
  rw [h] at split
  have fits : (j % 2 ^ 150).toNat < 2 ^ 150 := by
    have := Int.emod_lt_of_pos j (b := 2 ^ 150) (by norm_num)
    omega
  have nonzero : (j % 2 ^ 150).toNat ≠ 0 := by
    intro zero
    rw [zero, Nat.cast_zero, zero_div, add_zero] at split
    exact fraction ⟨_, split⟩
  refine ⟨_, _, nonzero, fits, split, ?_⟩
  rw [exp2Of, if_neg nonzero]
  congr 1
  rw [approxPrec]
  ring

/-- A power of a fraction: an odd mantissa of 192 to 194 bits, which differs little from the power. -/
theorem exp2Of_fraction (a : W32) {j : Int} {v : ℝ} (h : (j : ℝ) / 2 ^ 150 = v) (fraction : ¬∃ n : Int, v = n) :
    ∃ (R : Nat) (w : Int), exp2Of a j = bracket 2 a false (2 * R + 1) (w - 193) ∧ 2 ^ 191 ≤ R ∧ R < 2 ^ 193 ∧ (w : ℝ) < v ∧
      |((2 * R + 1 : Nat) : ℝ) * (2 : ℝ) ^ (w - 193) - (2 : ℝ) ^ v| ≤ (2 : ℝ) ^ v / 2 ^ 100 := by
  obtain ⟨f, w, nonzero, fits, split, shape⟩ := exp2Of_split a h fraction
  obtain ⟨low, high⟩ := exp2Bits_fraction fits
  generalize exp2Bits f 150 (2 * 2 ^ approxPrec) (2 ^ approxPrec) = R at shape low high
  have part : (0 : ℝ) < (f : ℝ) / 2 ^ 150 := by
    have : (0 : ℝ) < f := by exact_mod_cast Nat.pos_of_ne_zero nonzero
    positivity
  have part' : (f : ℝ) / 2 ^ 150 < 1 := by
    rw [div_lt_one (by positivity)]
    exact_mod_cast fits
  have least : (1 : ℝ) ≤ (2 : ℝ) ^ ((f : ℝ) / 2 ^ 150) := Real.one_le_rpow one_le_two part.le
  have most : (2 : ℝ) ^ ((f : ℝ) / 2 ^ 150) < 2 := by
    simpa using Real.rpow_lt_rpow_of_exponent_lt one_lt_two part'
  have power : (2 : ℝ) ^ v = (2 : ℝ) ^ w * (2 : ℝ) ^ ((f : ℝ) / 2 ^ 150) := by
    rw [split, Real.rpow_add two_pos, Real.rpow_intCast]
  generalize (2 : ℝ) ^ ((f : ℝ) / 2 ^ 150) = G at *
  rw [exp2Unit_eq] at low high
  refine ⟨R, w, shape, ?_, ?_, by linarith, ?_⟩
  · have : (2 : ℝ) ^ 191 ≤ R := by nlinarith
    exact_mod_cast this
  · have : (R : ℝ) < 2 ^ 193 := by nlinarith
    exact_mod_cast this
  · have pos : (0 : ℝ) < (2 : ℝ) ^ w := by positivity
    have scaled : ((2 * R + 1 : Nat) : ℝ) * (2 : ℝ) ^ (w - 193) = (2 : ℝ) ^ w * ((2 * R + 1) / 2 ^ 193) := by
      rw [zpow_sub₀ two_ne_zero]
      push_cast
      rw [show ((2 : ℝ) ^ (193 : Int)) = 2 ^ 193 from rfl]
      ring
    have near : |(2 * R + 1) / 2 ^ 193 - G| ≤ G / 2 ^ 100 := by
      rw [abs_le]
      constructor <;> nlinarith
    rw [scaled, power, ← mul_sub, abs_mul, abs_of_pos pos, mul_div_assoc]
    exact mul_le_mul_of_nonneg_left near pos.le

/-- Below 128 no power of an element overflows, by far. -/
theorem exp2_inside {k : Nat} (below : ((valueOf fp32 k : Rat) : ℝ) < 128) :
    (2 : ℝ) ^ ((valueOf fp32 k : Rat) : ℝ) ≤ 2 ^ 128 * (1 - 1 / 2 ^ 18) := by
  have top : fp32.level 0x42FFFFFF = 128 - 1 / 2 ^ 17 :=
    (fp32_level_eq 132 0xFFFFFF rfl (by decide) (.inr (by decide))).trans (by norm_num)
  have big : fp32.level 0x43000000 = 128 := (fp32_level_eq 133 (2 ^ 23) rfl (by decide) (.inr le_rfl)).trans (by norm_num)
  have bound : ((valueOf fp32 k : Rat) : ℝ) ≤ 128 - 1 / 2 ^ 17 := by
    by_cases fin : fp32.mag k ≤ fp32.maxMag
    · obtain ⟨i, value | value⟩ := regular_fp32.value_level ((regular_fp32.isFin_iff k).mpr fin)
      · rw [value, ← big] at below
        rw [value, ← top]
        exact fp32.level_strictMono.monotone (Nat.le_of_lt_succ (fp32.level_strictMono.lt_iff_lt.mp below))
      · have := fp32.level_nonneg i
        norm_num
        linarith
    · rw [fp32_valueOf_not_fin fin]
      norm_num
  have root : (2 : ℝ) ^ (-(1 / 2 ^ 17) : ℝ) ≤ 1 - 1 / 2 ^ 18 := by
    have half := rpow_one_add_le_one_add_mul_self (s := -1 / 2) (by norm_num) (p := 1 / 2 ^ 17) (by norm_num) (by norm_num)
    rw [Real.rpow_neg zero_le_two, ← Real.inv_rpow zero_le_two]
    norm_num at half ⊢
    exact half
  calc (2 : ℝ) ^ ((valueOf fp32 k : Rat) : ℝ) ≤ (2 : ℝ) ^ ((128 : ℝ) + -(1 / 2 ^ 17)) :=
        Real.rpow_le_rpow_of_exponent_le one_le_two (by linarith)
    _ = 2 ^ 128 * (2 : ℝ) ^ (-(1 / 2 ^ 17) : ℝ) := by
      rw [Real.rpow_add two_pos]
      congr 1
      exact_mod_cast Real.rpow_natCast 2 128
    _ ≤ _ := mul_le_mul_of_nonneg_left root (by positivity)

/-- 2^a where a is whole and the power is a number of FP32. -/
theorem approxExp2_whole {a : W32} {n : Int} (least : -149 ≤ n) (most : n ≤ 127) (some : n ≠ 0)
    (value : ((valueOf fp32 a.toNat : Rat) : ℝ) = n) : ∃ k, k ≤ fp32.maxMag ∧ fp32.level k = (2 : ℝ) ^ n ∧
      approxExp2 a = ⟨k, Flags.zero⟩ := by
  have nonzero : ((valueOf fp32 a.toNat : Rat) : ℝ) ≠ 0 := by
    rw [value]
    exact_mod_cast some
  have low : (-149 : ℝ) ≤ n := by exact_mod_cast least
  have high : (n : ℝ) ≤ 127 := by exact_mod_cast most
  obtain ⟨-, -, way⟩ := approxExp2_of_value nonzero
  obtain ⟨j, arg, result⟩ := way (by linarith) (by linarith)
  obtain ⟨k, fin, level⟩ := fp32_power least most
  refine ⟨k, fin, level, ?_⟩
  rw [result, exp2Of_whole a (arg.trans value), bracket_exact 2 a (.inl _) fin, fp32_pack_pos]
  rw [level, Nat.cast_one, one_mul]

theorem bracket_of_tiny_power (a : W32) {n : Int} (less : n < -149) : (bracket 2 a false 1 n).x ≤ 1 ∧
    (bracket 2 a false 1 n).fl = { Flags.zero with nx := true, uf := true } := by
  refine bracket_of_tiny 2 a (.inl rfl) (by positivity) ?_
  rw [Nat.cast_one, one_mul]
  exact zpow_lt_zpow_right₀ one_lt_two less

/-- Below -149, 2^a is tiny. -/
theorem approxExp2_tiny {a : W32} (low : ((valueOf fp32 a.toNat : Rat) : ℝ) < -149) :
    (approxExp2 a).x ≤ 1 ∧ (approxExp2 a).fl = { Flags.zero with nx := true, uf := true } := by
  obtain ⟨-, tiny, way⟩ := approxExp2_of_value (a := a) (by linarith)
  by_cases huge : ((valueOf fp32 a.toNat : Rat) : ℝ) ≤ -256
  · rw [tiny huge]
    exact bracket_of_tiny_power a (by decide)
  · obtain ⟨j, arg, result⟩ := way (not_le.mp huge) (by linarith)
    rw [result]
    by_cases whole : ∃ n : Int, ((valueOf fp32 a.toNat : Rat) : ℝ) = n
    · obtain ⟨n, value⟩ := whole
      have less : n < -149 := by
        rw [value] at low
        exact_mod_cast low
      rw [exp2Of_whole a (arg.trans value)]
      exact bracket_of_tiny_power a less
    · obtain ⟨R, w, shape, -, small, below, -⟩ := exp2Of_fraction a arg whole
      rw [shape]
      refine bracket_of_tiny 2 a (.inl rfl) (by positivity) ?_
      have less : w < -149 := by exact_mod_cast below.trans low
      have mantissa : ((2 * R + 1 : Nat) : ℝ) < (2 : ℝ) ^ (194 : Int) := by
        have : 2 * R + 1 < 2 ^ 194 := by omega
        exact_mod_cast this
      calc ((2 * R + 1 : Nat) : ℝ) * (2 : ℝ) ^ (w - 193) < (2 : ℝ) ^ (194 : Int) * (2 : ℝ) ^ (w - 193) := by gcongr
        _ = (2 : ℝ) ^ (w + 1) := by
          rw [← zpow_add₀ two_ne_zero]
          congr 1
          ring
        _ ≤ _ := zpow_le_zpow_right₀ one_le_two (by omega)

/-- No number of a format is an odd mantissa that is too long. -/
theorem not_value_of_odd {m : Nat} {e : Int} {x : ℝ} (odd : m % 2 = 1) (long : 2 ^ 24 ≤ m)
    (hx : x = m * (2 : ℝ) ^ e ∨ x = -(m * (2 : ℝ) ^ e)) :
    ¬∃ i, (fp32.val i).isFin = true ∧ ((valueOf fp32 i : Rat) : ℝ) = x := by
  rintro ⟨i, fin, rfl⟩
  obtain ⟨k, value⟩ := regular_fp32.value_level fin
  have none := fp32.level_ne_of_odd e odd long k
  have pos : 0 < (m : ℝ) * (2 : ℝ) ^ e := by
    have : (0 : ℝ) < m := by exact_mod_cast (by omega : 0 < m)
    positivity
  have level := fp32.level_nonneg k
  obtain same | same := hx <;> obtain number | number := value <;> rw [number] at same
  · exact none same
  · linarith
  · linarith
  · exact none (neg_inj.mp same)

theorem approxExp2_fraction {a : W32} (low : -149 < ((valueOf fp32 a.toNat : Rat) : ℝ))
    (high : ((valueOf fp32 a.toNat : Rat) : ℝ) < 128) (fraction : ¬∃ n : Int, ((valueOf fp32 a.toNat : Rat) : ℝ) = n) :
    (approxExp2 a).fl = inexact (approxExp2 a) ∧
      ∃ z : ℝ, |z - (2 : ℝ) ^ ((valueOf fp32 a.toNat : Rat) : ℝ)| ≤ (2 : ℝ) ^ ((valueOf fp32 a.toNat : Rat) : ℝ) / 2 ^ 100 ∧
        Brackets z (approxExp2 a) := by
  have nonzero : ((valueOf fp32 a.toNat : Rat) : ℝ) ≠ 0 := fun zero => fraction ⟨0, by simpa using zero⟩
  obtain ⟨-, -, way⟩ := approxExp2_of_value nonzero
  obtain ⟨j, arg, result⟩ := way (by linarith) high
  obtain ⟨R, w, shape, large, -, -, near⟩ := exp2Of_fraction a arg fraction
  have bound := exp2_inside high
  have inside : ((2 * R + 1 : Nat) : ℝ) * (2 : ℝ) ^ (w - 193) < fp32.level fp32.maxMag := by
    have upper := (abs_le.mp near).2
    rw [fp32_level_maxMag]
    norm_num at upper bound ⊢
    linarith
  obtain ⟨brackets, -, flags⟩ := bracket_approximates 2 a (neg := false) (.inl rfl) inside rfl
  rw [result, shape]
  exact ⟨flags (not_value_of_odd (by omega) (by omega) (.inl rfl)), _, near, brackets⟩

theorem isExp2_approxExp2 (a : W32) : IsExp2 a (approxExp2 a) := by
  refine ⟨fun nan => ?_, fun zero => ?_, ?_, ?_, fun huge => ?_, approxExp2_tiny, fun n least most some value => ?_,
    approxExp2_fraction⟩
  · rw [approxExp2, quieted_of_isNaN nan, Option.getD_some]
  · obtain ⟨⟨e, val⟩, number⟩ := zero_operand zero
    simp only [approxExp2, number, Option.getD_none, val, if_true]
  · rintro rfl
    rfl
  · rintro rfl
    rfl
  · rw [(approxExp2_of_value (by linarith)).1 huge]
    rfl
  · obtain ⟨k, fin, level, result⟩ := approxExp2_whole least most some value
    have small : k < 2 ^ 31 := fin.trans_lt (by decide)
    have mag : fp32.mag k = k := Nat.mod_eq_of_lt small
    have sign : fp32.neg k = false := Nat.testBit_lt_two_pow small
    rw [result, value, Real.rpow_intCast, ← level, regular_fp32.cast_valueOf (mag.trans_le fin), mag, sign]
    exact ⟨small, if_neg Bool.false_ne_true, rfl⟩

end Sys2Proof.Machine
end

section
/-!
The approximate functions: the logarithm.
-/

namespace Sys2Proof.Machine

open Sys2Proof Sys2Proof.Claims

/-! ## The bits of a logarithm -/

theorem le_logb_one_add {x : ℝ} (nonneg : 0 ≤ x) (one : x ≤ 1) : x ≤ Real.logb 2 (1 + x) := by
  rw [Real.le_logb_iff_rpow_le one_lt_two (by linarith)]
  have bernoulli := rpow_one_add_le_one_add_mul_self (s := 1) (by norm_num) nonneg one
  norm_num at bernoulli
  exact bernoulli

theorem logb_one_sub_le {x : ℝ} (nonneg : 0 ≤ x) (one : x < 1) : Real.logb 2 (1 - x) ≤ -x := by
  have ln := Real.log_two_lt_d9
  have ln' := (Real.log_pos one_lt_two)
  have bound := Real.log_le_sub_one_of_pos (x := 1 - x) (by linarith)
  rw [Real.logb, div_le_iff₀ ln']
  nlinarith

/-- A number of at least one that grows by `d` has a logarithm that grows by at most `2·d`. -/
theorem logb_add_le {x d : ℝ} (one : 1 ≤ x) (nonneg : 0 ≤ d) : Real.logb 2 (x + d) ≤ Real.logb 2 x + 2 * d := by
  have pos : 0 < x := by linarith
  have split : x + d = x * (1 + d / x) := by field_simp
  have part : 0 ≤ d / x := by positivity
  have less : d / x ≤ d := div_le_self nonneg one
  have bound := Real.log_le_sub_one_of_pos (x := 1 + d / x) (by linarith)
  have ln := Real.log_two_gt_d9
  rw [split, Real.logb_mul pos.ne' (by linarith), add_le_add_iff_left, Real.logb, div_le_iff₀ (Real.log_pos one_lt_two)]
  nlinarith

/-- `r` is a number of units of 1/P, rounded down. -/
def FloorOf (P : ℝ) (r : Nat) (x : ℝ) : Prop := (r : ℝ) / P ≤ x ∧ x < r / P + 1 / P

/-- The logarithm of a number that is rounded down. -/
theorem FloorOf.logb {P x : ℝ} {r : Nat} (h : FloorOf P r x) (hP : 0 < P) (one : P ≤ r) :
    Real.logb 2 (r / P) ≤ Real.logb 2 x ∧ Real.logb 2 x ≤ Real.logb 2 (r / P) + 2 / P := by
  obtain ⟨low, high⟩ := h
  have least : 1 ≤ (r : ℝ) / P := (one_le_div hP).mpr one
  have pos : 0 < (r : ℝ) / P := by linarith
  refine ⟨Real.logb_le_logb_of_le one_lt_two pos low, ?_⟩
  calc Real.logb 2 x ≤ Real.logb 2 (r / P + 1 / P) := Real.logb_le_logb_of_le one_lt_two (by linarith) high.le
    _ ≤ Real.logb 2 (r / P) + 2 * (1 / P) := logb_add_le least (by positivity)
    _ = _ := by ring

theorem floorOf_div {P : ℝ} (hP : 0 < P) (a : Nat) {b : Nat} (pos : b ≠ 0) : FloorOf P (a / b) ((a : ℝ) / b / P) := by
  obtain ⟨low, high, -⟩ := div_floor a pos
  rw [FloorOf, ← add_div]
  exact ⟨by gcongr, by gcongr⟩

/-- The logarithm of a fraction in units of 2^-192. -/
noncomputable def log2Of (y : Nat) : ℝ := Real.logb 2 (y / exp2Unit)

/-- One step of `log2Bits`: the square of `y`, halved where it reaches 2, loses little. -/
theorem log2_square {y : Nat} (low : 2 ^ approxPrec ≤ y) (high : y < 2 ^ (approxPrec + 1)) :
    let z := y * y / 2 ^ approxPrec
    (2 ^ (approxPrec + 1) ≤ z → 2 ^ approxPrec ≤ z / 2 ∧ z / 2 < 2 ^ (approxPrec + 1) ∧
      log2Of (z / 2) + 1 ≤ 2 * log2Of y ∧ 2 * log2Of y ≤ log2Of (z / 2) + 1 + 4 / exp2Unit) ∧
    (z < 2 ^ (approxPrec + 1) → 2 ^ approxPrec ≤ z ∧ log2Of z ≤ 2 * log2Of y ∧
      2 * log2Of y ≤ log2Of z + 4 / exp2Unit) := by
  have hP := exp2Unit_pos
  have unit : ((2 ^ approxPrec : Nat) : ℝ) = exp2Unit := rfl
  have pos := Nat.two_pow_pos approxPrec
  have lowR : exp2Unit ≤ y := by rw [← unit]; exact_mod_cast low
  have yPos : (0 : ℝ) < y := by linarith
  have square : 2 * log2Of y = Real.logb 2 ((y : ℝ) * y / exp2Unit / exp2Unit) := by
    rw [log2Of, div_div, mul_div_mul_comm, Real.logb_mul (by positivity) (by positivity), two_mul]
  have floor := floorOf_div hP (y * y) pos.ne'
  rw [unit, Nat.cast_mul] at floor
  have least : 2 ^ approxPrec ≤ y * y / 2 ^ approxPrec := by
    rw [Nat.le_div_iff_mul_le pos]
    exact Nat.mul_le_mul low low
  have most : y * y / 2 ^ approxPrec < 2 * 2 ^ (approxPrec + 1) := by
    rw [Nat.div_lt_iff_lt_mul pos]
    rw [pow_succ] at high ⊢
    generalize 2 ^ approxPrec = p at *
    nlinarith
  have each : 0 < 1 / exp2Unit := one_div_pos.mpr hP
  intro z
  have leastR : exp2Unit ≤ z := by rw [← unit]; exact_mod_cast least
  obtain ⟨below, above⟩ := floor.logb hP leastR
  refine ⟨fun reached => ?_, fun _ => ⟨least, by rw [square]; exact below, ?_⟩⟩
  · have half : 2 ^ approxPrec ≤ z / 2 := by
      rw [pow_succ] at reached
      omega
    have halfR : exp2Unit ≤ (z / 2 : Nat) := by rw [← unit]; exact_mod_cast half
    obtain ⟨below', above'⟩ := (floorOf_div hP z two_ne_zero).logb hP halfR
    have zPos : (0 : ℝ) < z := by linarith
    have halved : Real.logb 2 ((z : ℝ) / (2 : Nat) / exp2Unit) = Real.logb 2 (z / exp2Unit) - 1 := by
      rw [div_right_comm, Real.logb_div (by positivity) (by norm_num), Nat.cast_ofNat, Real.logb_self_eq_one one_lt_two]
    have sum : 4 / exp2Unit = 2 / exp2Unit + 2 / exp2Unit := by ring
    refine ⟨half, by omega, ?_, ?_⟩ <;> rw [square, log2Of] <;> linarith
  · have sum : 4 / exp2Unit = 2 / exp2Unit + 2 / exp2Unit := by ring
    have : 0 < 2 / exp2Unit := by positivity
    rw [square, log2Of]
    linarith

/-- The logarithm of a fraction lies from 0 to 1. -/
theorem log2Of_range {y : Nat} (low : 2 ^ approxPrec ≤ y) (high : y < 2 ^ (approxPrec + 1)) : 0 ≤ log2Of y ∧ log2Of y ≤ 1 := by
  have hP := exp2Unit_pos
  have unit : ((2 ^ approxPrec : Nat) : ℝ) = exp2Unit := rfl
  have lowR : 1 ≤ (y : ℝ) / exp2Unit := by
    rw [one_le_div hP, ← unit]
    exact_mod_cast low
  have highR : (y : ℝ) / exp2Unit ≤ 2 := by
    rw [div_le_iff₀ hP, ← unit]
    rw [pow_succ'] at high
    exact_mod_cast high.le
  refine ⟨Real.logb_nonneg one_lt_two lowR, ?_⟩
  rw [log2Of, ← Real.logb_self_eq_one one_lt_two]
  exact Real.logb_le_logb_of_le one_lt_two (by linarith) highR

/-- The bits `b` of a logarithm `x`, to within one in the last place and a little more. -/
def Log2Bits (n b : Nat) (x : ℝ) : Prop := (b : ℝ) / 2 ^ n ≤ x ∧ x ≤ ((b : ℝ) + 1) / 2 ^ n + 4 / exp2Unit

/-- A bit more of a logarithm: the bit `d` of twice the logarithm, and the bits of what remains. -/
theorem Log2Bits.cons {n d b : Nat} {x y : ℝ} (h : Log2Bits n b y) (low : y + d ≤ 2 * x) (high : 2 * x ≤ y + d + 4 / exp2Unit) :
    Log2Bits (n + 1) (d * 2 ^ n + b) x := by
  obtain ⟨least, most⟩ := h
  have power : (2 : ℝ) ^ (n + 1) = 2 * 2 ^ n := pow_succ' 2 n
  have halves (c : ℝ) : (d * 2 ^ n + c) / 2 ^ (n + 1) = (d + c / 2 ^ n) / 2 := by
    rw [power]
    field_simp
  rw [Log2Bits, Nat.cast_add, Nat.cast_mul, Nat.cast_pow, Nat.cast_ofNat, add_assoc, halves, halves]
  constructor <;> linarith

/-- `log2Bits` gives the first bits of a logarithm. -/
theorem log2Bits_near : ∀ (n y acc : Nat), 2 ^ approxPrec ≤ y → y < 2 ^ (approxPrec + 1) →
    ∃ b, log2Bits n y acc = acc * 2 ^ n + b ∧ b < 2 ^ n ∧ Log2Bits n b (log2Of y)
  | 0, y, acc, low, high => by
    obtain ⟨least, most⟩ := log2Of_range low high
    have error : 0 < 4 / exp2Unit := div_pos four_pos exp2Unit_pos
    refine ⟨0, by simp [log2Bits], Nat.one_pos, by simpa using least, ?_⟩
    norm_num
    linarith
  | n + 1, y, acc, low, high => by
    obtain ⟨reached, short⟩ := log2_square low high
    rw [log2Bits]
    split
    next h =>
      obtain ⟨low', high', below, above⟩ := reached h
      obtain ⟨b, value, fits, near⟩ := log2Bits_near n _ (2 * acc + 1) low' high'
      refine ⟨1 * 2 ^ n + b, by rw [value, pow_succ]; ring, by rw [pow_succ]; omega, near.cons ?_ ?_⟩
      · rwa [Nat.cast_one]
      · rwa [Nat.cast_one]
    next h =>
      obtain ⟨low', below, above⟩ := short (not_le.mp h)
      obtain ⟨b, value, fits, near⟩ := log2Bits_near n _ (2 * acc) low' (not_le.mp h)
      refine ⟨0 * 2 ^ n + b, by rw [value, pow_succ]; ring, by rw [pow_succ]; omega, near.cons ?_ ?_⟩
      · rwa [Nat.cast_zero, add_zero]
      · rwa [Nat.cast_zero, add_zero]

/-! ## The logarithm of an element -/

/-- The result of `vflog2` for the bits `l` of the logarithm of a mantissa. -/
def log2Result (a : W32) (top : Int) (l : Nat) : FRes :=
  if 0 ≤ top then bracket 3 a false (2 * (top.natAbs * 2 ^ 80 + l) + 1) (-81)
  else bracket 3 a true (2 * (top.natAbs * 2 ^ 80 - l - 1) + 1) (-81)

theorem approxLog2_of_fin {a : W32} {m : Nat} {e : Int} (val : fp32.val a.toNat = .fin false m e)
    (number : fp32.propagate [a.toNat] = none) (pos : m ≠ 0) :
    (m = 2 ^ m.log2 → approxLog2 a =
      fp32.round .rne (.fin (decide ((m.log2 : Int) + e < 0)) ((m.log2 : Int) + e).natAbs 0)) ∧
    (m ≠ 2 ^ m.log2 → approxLog2 a =
      log2Result a ((m.log2 : Int) + e) (log2Bits 80 (m * 2 ^ (approxPrec - m.log2)) 0)) := by
  rw [approxLog2, number, Option.getD_none, val]
  simp only [if_neg pos]
  constructor <;> intro h
  · rw [if_neg Bool.false_ne_true, if_pos h]
  · rw [if_neg Bool.false_ne_true, if_neg h, log2Result]

/-- The flags of a magnitude that is delivered as it is. -/
theorem Fmt.roundMag_flags_of_exact (f : Fmt) (md : RMode) (neg : Bool) (m : Nat) (e : Int)
    (inside : (f.roundMag md neg m e).2.ovf = false) (exact : (f.roundMag md neg m e).2.nx = false) :
    (f.roundMag md neg m e).2 = Flags.zero := by
  simp only [Fmt.roundMag] at *
  split_ifs at * with h1 h2 h3
  · rfl
  · dsimp only at exact ⊢
    rw [exact]
    rfl

/-- A short whole number is delivered as it is. -/
theorem fp32_round_whole {n : Int} (short : n.natAbs < 2 ^ 24) (md : RMode) :
    let r := fp32.round md (.fin (decide (n < 0)) n.natAbs 0)
    fp32.neg r.x = decide (n < 0) ∧ ((valueOf fp32 r.x : Rat) : ℝ) = n ∧ r.fl = Flags.zero := by
  have inside : (n.natAbs : ℝ) * (2 : ℝ) ^ (0 : Int) < (2 : ℝ) ^ ((fp32.bias : Int) + 1) := by
    have : (n.natAbs : ℝ) < 2 ^ 24 := by exact_mod_cast short
    rw [zpow_zero, mul_one]
    exact this.trans (by norm_num [show fp32.bias = 127 from rfl])
  obtain ⟨k, fin, level⟩ := regular_fp32.exists_level (m := n.natAbs) (e := 0) short (by decide) inside
  have rounded := regular_fp32.roundMag_rounds md (decide (n < 0)) (m := n.natAbs) (e := 0) (.inl level)
  obtain ⟨value, no, nx⟩ := rounded.exact fin
  have flags := fp32.roundMag_flags_of_exact md _ _ _ no nx
  intro r
  have shape : r = ⟨fp32.pack (decide (n < 0)) k, Flags.zero⟩ := by
    rw [← value, ← flags]
    rfl
  rw [shape]
  refine ⟨regular_fp32.neg_pack _ (fin.trans (by decide)), ?_, rfl⟩
  rw [regular_fp32.cast_pack _ fin, level, zpow_zero, mul_one]
  split
  next neg =>
    have : ((n.natAbs : Nat) : Int) = -n := by
      have := of_decide_eq_true neg
      omega
    rw [← Int.cast_natCast, this, Int.cast_neg, neg_neg]
  next pos =>
    have : ((n.natAbs : Nat) : Int) = n := by
      have := of_decide_eq_false (Bool.eq_false_of_not_eq_true pos)
      omega
    rw [← Int.cast_natCast, this]

/-- The flags of a bracket of a normal number. -/
theorem bracket_flags_of_normal (op : Nat) (a : W32) {neg : Bool} {m : Nat} {e : Int} {y : ℝ} (h : StandsFor 25 m e y)
    (normal : (2 : ℝ) ^ (-126 : Int) ≤ y) (inside : y < fp32.level fp32.maxMag) (ne : ∀ k, fp32.level k ≠ y) :
    (bracket op a neg m e).fl = { Flags.zero with nx := true } := by
  obtain ⟨k, value, -, -, above, nx⟩ := roundMag_rz_inside (neg := neg) h inside
  have least : fp32.level (2 ^ 23) = (2 : ℝ) ^ (-126 : Int) :=
    (fp32_level_eq 0 (2 ^ 23) (by norm_num) (by decide) (.inl rfl)).trans (by norm_num)
  rw [← least] at normal
  have large := fp32.level_strictMono.lt_iff_lt.mp (normal.trans_lt above)
  have no : ¬k + b2n (Config.approxUp op a) < 2 ^ 23 := by omega
  rw [bracket_eq, if_pos (nx.mpr (ne k)), value]
  simp only [decide_eq_false no, Flags.zero]

/-- A mantissa that is no power of two, as a fraction from 1 to 2: it is neither close to 1 nor to 2. -/
theorem log2Of_mantissa {m : Nat} (fits : m < 2 ^ 24) (pos : m ≠ 0) (some : m ≠ 2 ^ m.log2) :
    let y := m * 2 ^ (approxPrec - m.log2)
    2 ^ approxPrec ≤ y ∧ y < 2 ^ (approxPrec + 1) ∧ (m.log2 : ℝ) + log2Of y = Real.logb 2 m ∧
      1 / 2 ^ 23 ≤ log2Of y ∧ log2Of y ≤ 1 - 1 / 2 ^ 24 := by
  intro y
  have low : 2 ^ m.log2 ≤ m := Nat.log2_self_le pos
  have high : m < 2 ^ (m.log2 + 1) := Nat.lt_log2_self
  have short : m.log2 < 24 := (Nat.pow_lt_pow_iff_right one_lt_two).mp (low.trans_lt fits)
  have P : 2 ^ approxPrec = 2 ^ m.log2 * 2 ^ (approxPrec - m.log2) := by
    rw [← pow_add]
    congr 1
    have : approxPrec = 192 := rfl
    omega
  have unit : exp2Unit = 2 ^ m.log2 * 2 ^ (approxPrec - m.log2) := by
    rw [exp2Unit, P]
    push_cast
    rfl
  have part : (y : ℝ) / exp2Unit = m / 2 ^ m.log2 := by
    rw [unit, Nat.cast_mul, Nat.cast_pow, Nat.cast_ofNat]
    exact mul_div_mul_right _ _ (pow_pos (zero_lt_two' ℝ) _).ne'
  have posR : (0 : ℝ) < m := by exact_mod_cast Nat.pos_of_ne_zero pos
  have power : (2 : ℝ) ^ m.log2 ≤ 2 ^ 23 := pow_le_pow_right₀ one_le_two (by omega)
  have powerPos : (0 : ℝ) < 2 ^ m.log2 := by positivity
  have positive := Nat.two_pow_pos (approxPrec - m.log2)
  refine ⟨?_, ?_, ?_, ?_, ?_⟩
  · rw [P]
    exact Nat.mul_le_mul_right _ low
  · rw [pow_succ, P, mul_right_comm, ← pow_succ]
    exact Nat.mul_lt_mul_of_pos_right high positive
  · rw [log2Of, part, Real.logb_div posR.ne' powerPos.ne', Real.logb_pow, Real.logb_self_eq_one one_lt_two]
    ring
  · rw [log2Of, part]
    refine (le_logb_one_add (by positivity) (by norm_num)).trans (Real.logb_le_logb_of_le one_lt_two (by positivity) ?_)
    have next : (2 : ℝ) ^ m.log2 + 1 ≤ m := by exact_mod_cast lt_of_le_of_ne low some.symm
    rw [le_div_iff₀ powerPos]
    linarith
  · have next : (m : ℝ) + 1 ≤ 2 * 2 ^ m.log2 := by
      rw [pow_succ'] at high
      exact_mod_cast high
    have below := logb_one_sub_le (x := 1 / 2 ^ 24) (by norm_num) (by norm_num)
    have two : Real.logb 2 (2 * (1 - 1 / 2 ^ 24)) = 1 + Real.logb 2 (1 - 1 / 2 ^ 24) := by
      rw [Real.logb_mul two_ne_zero (by norm_num), Real.logb_self_eq_one one_lt_two]
    rw [log2Of, part]
    have bound : (m : ℝ) / 2 ^ m.log2 ≤ 2 * (1 - 1 / 2 ^ 24) := by
      rw [div_le_iff₀ powerPos]
      linarith
    have := Real.logb_le_logb_of_le one_lt_two (by positivity) bound
    linarith

/-- What `log2Result` brackets: an odd mantissa of 25 bits and more, in the middle between two numbers of 80 fraction bits. -/
theorem log2Result_eq (a : W32) {top : Int} {l : Nat} (range : top.natAbs ≤ 149) (low : 2 ^ 24 ≤ l) (high : l + 2 ^ 24 ≤ 2 ^ 80) :
    ∃ (neg : Bool) (M : Nat), log2Result a top l = bracket 3 a neg M (-81) ∧ M % 2 = 1 ∧ 2 ^ 24 ≤ M ∧ M < 2 ^ 89 ∧
      (top : ℝ) + ((l : ℝ) + 1 / 2) / 2 ^ 80 =
        if neg = true then -((M : ℝ) * (2 : ℝ) ^ (-81 : Int)) else M * (2 : ℝ) ^ (-81 : Int) := by
  rw [log2Result]
  split
  next nonneg =>
    refine ⟨false, _, rfl, by omega, by omega, by omega, ?_⟩
    have size : ((top.natAbs : Nat) : ℝ) = top := by
      rw [← Int.cast_natCast, Int.natAbs_of_nonneg nonneg]
    rw [if_neg Bool.false_ne_true]
    push_cast
    rw [size]
    norm_num
    ring
  next negative =>
    refine ⟨true, _, rfl, by omega, by omega, by omega, ?_⟩
    have size : ((top.natAbs : Nat) : ℝ) = -top := by
      rw [← Int.cast_natCast, Int.ofNat_natAbs_of_nonpos (by omega), Int.cast_neg]
    have parts : l + 1 ≤ top.natAbs * 2 ^ 80 := by omega
    have rest : ((top.natAbs * 2 ^ 80 - (l + 1) : Nat) : ℝ) = -top * 2 ^ 80 - (l + 1) := by
      rw [Nat.cast_sub parts, Nat.cast_mul, size]
      push_cast
      norm_num
    rw [if_pos rfl, Nat.sub_sub, Nat.cast_add, Nat.cast_mul, rest]
    push_cast
    norm_num
    ring

/-- The logarithm of an element that is no power of two is inexact, and brackets a number that differs little from it. -/
theorem log2Result_near (a : W32) {top : Int} {l : Nat} {x : ℝ} (range : top.natAbs ≤ 149) (low : 2 ^ 24 ≤ l)
    (high : l + 2 ^ 24 ≤ 2 ^ 80) (bits : Log2Bits 80 l x) :
    (log2Result a top l).fl = { Flags.zero with nx := true } ∧
      ∃ z : ℝ, |z - (top + x)| ≤ 1 / 2 ^ 70 ∧ Brackets z (log2Result a top l) := by
  obtain ⟨below, above⟩ := bits
  obtain ⟨neg, M, shape, odd, long, short, value⟩ := log2Result_eq a range low high
  have near : |top + ((l : ℝ) + 1 / 2) / 2 ^ 80 - (top + x)| ≤ 1 / 2 ^ 70 := by
    rw [exp2Unit_eq] at above
    rw [add_sub_add_left_eq_sub, abs_le]
    constructor <;> linarith
  have longR : (2 : ℝ) ^ 24 ≤ M := by exact_mod_cast long
  have shortR : (M : ℝ) < 2 ^ 89 := by exact_mod_cast short
  have normal : (2 : ℝ) ^ (-126 : Int) ≤ M * (2 : ℝ) ^ (-81 : Int) := by
    norm_num
    linarith
  have inside : (M : ℝ) * (2 : ℝ) ^ (-81 : Int) < fp32.level fp32.maxMag := by
    rw [fp32_level_maxMag]
    norm_num
    linarith
  rw [shape]
  exact ⟨bracket_flags_of_normal 3 a (.inl rfl) normal inside fun k => fp32.level_ne_of_odd _ odd long k, _, near,
    (bracket_approximates 3 a (.inl rfl) inside value).1⟩

/-- The numbers of FP32 lie below 2^128. -/
theorem fp32_value_lt (k : Nat) : ((valueOf fp32 k : Rat) : ℝ) < (2 : ℝ) ^ (128 : Int) := by
  have pos : (0 : ℝ) < (2 : ℝ) ^ (128 : Int) := by positivity
  by_cases fin : fp32.mag k ≤ fp32.maxMag
  · have less := fp32.level_strictMono (fin.trans_lt (Nat.lt_succ_self fp32.maxMag))
    rw [show fp32.maxMag.succ = fp32.infMag from rfl, regular_fp32.level_inf] at less
    rw [regular_fp32.cast_valueOf fin]
    split
    · linarith [fp32.level_nonneg (fp32.mag k)]
    · exact less
  · rwa [fp32_valueOf_not_fin fin, Rat.cast_zero]

/-- The exponent of a positive element. -/
theorem log2_range {m : Nat} {e : Int} (pos : m ≠ 0) (least : -149 ≤ e)
    (inside : (m : ℝ) * (2 : ℝ) ^ e < (2 : ℝ) ^ (128 : Int)) : ((m.log2 : Int) + e).natAbs ≤ 149 := by
  have low : (2 : ℝ) ^ m.log2 ≤ m := by exact_mod_cast Nat.log2_self_le pos
  have power : (2 : ℝ) ^ ((m.log2 : Int) + e) < (2 : ℝ) ^ (128 : Int) := by
    rw [zpow_add₀ two_ne_zero, zpow_natCast]
    exact (mul_le_mul_of_nonneg_right low (by positivity)).trans_lt inside
  have := (zpow_lt_zpow_iff_right₀ one_lt_two).mp power
  omega

/-- A mantissa and an exponent that are a power of two. -/
theorem power_of_two_of_mantissa {m : Nat} {e n : Int} (pos : m ≠ 0) (power : (m : ℝ) * (2 : ℝ) ^ e = (2 : ℝ) ^ n) :
    m = 2 ^ m.log2 ∧ (m.log2 : Int) + e = n := by
  have unit : (2 : ℝ) ^ e ≠ 0 := by positivity
  have mantissa : (m : ℝ) = (2 : ℝ) ^ (n - e) := by rw [zpow_sub₀ two_ne_zero, ← power, mul_div_cancel_right₀ _ unit]
  have le : 0 ≤ n - e := by
    by_contra negative
    have less : (2 : ℝ) ^ (n - e) < (2 : ℝ) ^ (0 : Int) := zpow_lt_zpow_right₀ one_lt_two (not_le.mp negative)
    rw [zpow_zero, ← mantissa] at less
    exact pos (Nat.lt_one_iff.mp (by exact_mod_cast less))
  obtain ⟨d, exponent⟩ := Int.eq_ofNat_of_zero_le le
  have two : m = 2 ^ d := by
    rw [exponent, zpow_natCast] at mantissa
    exact_mod_cast mantissa
  rw [two, Nat.log2_two_pow]
  exact ⟨rfl, by omega⟩

/-- The bits of the logarithm of a mantissa that is no power of two: neither few nor close to 1. -/
theorem log2Bits_mantissa {m : Nat} (fits : m < 2 ^ 24) (pos : m ≠ 0) (some : m ≠ 2 ^ m.log2) :
    ∃ l, log2Bits 80 (m * 2 ^ (approxPrec - m.log2)) 0 = l ∧ 2 ^ 24 ≤ l ∧ l + 2 ^ 24 ≤ 2 ^ 80 ∧
      Log2Bits 80 l (log2Of (m * 2 ^ (approxPrec - m.log2))) ∧
      (m.log2 : ℝ) + log2Of (m * 2 ^ (approxPrec - m.log2)) = Real.logb 2 m := by
  obtain ⟨low, high, log, away, away'⟩ := log2Of_mantissa fits pos some
  obtain ⟨l, bits, -, below, above⟩ := log2Bits_near 80 _ 0 low high
  rw [Nat.zero_mul, Nat.zero_add] at bits
  refine ⟨l, bits, ?_, ?_, ⟨below, above⟩, log⟩
  · have : (2 : ℝ) ^ 24 ≤ l := by
      rw [exp2Unit_eq] at above
      linarith
    exact_mod_cast this
  · have : (l : ℝ) + 2 ^ 24 ≤ 2 ^ 80 := by linarith
    exact_mod_cast this

/-- The logarithm of a positive element. -/
theorem approxLog2_of_pos {a : W32} (pos : 0 < ((valueOf fp32 a.toNat : Rat) : ℝ)) :
    (∀ n : Int, ((valueOf fp32 a.toNat : Rat) : ℝ) = (2 : ℝ) ^ n → fp32.neg (approxLog2 a).x = decide (n < 0) ∧
      ((valueOf fp32 (approxLog2 a).x : Rat) : ℝ) = n ∧ (approxLog2 a).fl = Flags.zero) ∧
    ((¬∃ n : Int, ((valueOf fp32 a.toNat : Rat) : ℝ) = (2 : ℝ) ^ n) → (approxLog2 a).fl = { Flags.zero with nx := true } ∧
      ∃ z : ℝ, |z - Real.logb 2 ((valueOf fp32 a.toNat : Rat) : ℝ)| ≤ 1 / 2 ^ 70 ∧ Brackets z (approxLog2 a)) := by
  obtain ⟨m, e, val, nonzero, fits, least, number, size, level, value⟩ := approx_operand pos.ne'
  rw [abs_of_pos pos] at size
  have sign : fp32.neg a.toNat = false := by
    by_contra no
    rw [if_pos (Bool.eq_true_of_not_eq_false no)] at value
    linarith
  rw [sign] at val
  obtain ⟨whole, part⟩ := approxLog2_of_fin val number nonzero
  have short : ((m.log2 : Int) + e).natAbs ≤ 149 := log2_range nonzero least (size ▸ fp32_value_lt a.toNat)
  constructor
  · intro n power
    rw [size] at power
    obtain ⟨two, exponent⟩ := power_of_two_of_mantissa nonzero power
    rw [exponent] at whole short
    rw [whole two]
    exact fp32_round_whole (by omega) .rne
  · intro fraction
    have some : m ≠ 2 ^ m.log2 := by
      intro two
      refine fraction ⟨m.log2 + e, ?_⟩
      have twoR : (m : ℝ) = 2 ^ m.log2 := by exact_mod_cast two
      rw [size, zpow_add₀ two_ne_zero, zpow_natCast, ← twoR]
    obtain ⟨l, bits, lower, upper, near, log⟩ := log2Bits_mantissa fits nonzero some
    have total : Real.logb 2 ((valueOf fp32 a.toNat : Rat) : ℝ) =
        (((m.log2 : Int) + e : Int) : ℝ) + log2Of (m * 2 ^ (approxPrec - m.log2)) := by
      have posR : (m : ℝ) ≠ 0 := by exact_mod_cast nonzero
      rw [size, Real.logb_mul posR (by positivity), ← Real.rpow_intCast, Real.logb_rpow two_pos (by norm_num), ← log]
      push_cast
      ring
    rw [part some, bits, total]
    exact log2Result_near a short lower upper near

theorem isLog2_approxLog2 (a : W32) : IsLog2 a (approxLog2 a) := by
  refine ⟨fun nan => ?_, fun zero => ?_, ?_, fun bad => ?_, fun n power => ?_, fun pos => (approxLog2_of_pos pos).2⟩
  · rw [approxLog2, quieted_of_isNaN nan, Option.getD_some]
  · obtain ⟨⟨e, val⟩, number⟩ := zero_operand zero
    simp only [approxLog2, number, Option.getD_none, val, if_true]
    rfl
  · rintro rfl
    rfl
  · obtain rfl | negative := bad
    · rfl
    · obtain ⟨m, e, val, nonzero, -, -, number, -, -, value⟩ := approx_operand negative.ne
      have sign : fp32.neg a.toNat = true := by
        by_contra no
        rw [if_neg no] at value
        have : (0 : ℝ) ≤ m * (2 : ℝ) ^ e := by positivity
        linarith
      simp only [approxLog2, number, Option.getD_none, val, if_neg nonzero, sign, if_true]
      rfl
  · exact (approxLog2_of_pos (power ▸ by positivity)).1 n power

/-- R139: the approximate functions. -/
theorem approximateResults : ApproximateResults :=
  ⟨approxRcp, approxRsq, approxExp2, approxLog2,
    fun a => ⟨isReciprocal_approxRcp a, isRootReciprocal_approxRsq a, isExp2_approxExp2 a, isLog2_approxLog2 a⟩,
    fun s g e u d a => by
      have approx (f : W32 → FRes) (t : Nat) : f (BitVec.ofNat 32 ((g.v a).get t).toNat) = f ((g.v a).get t) := by
        rw [BitVec.ofNat_toNat, BitVec.setWidth_eq]
      have rcp := float1_of_float1 (g := g) (f := fun _ x => approxRcp (BitVec.ofNat 32 x)) (Laws.exec_vfrcp e u d a s)
      have rsq := float1_of_float1 (g := g) (f := fun _ x => approxRsq (BitVec.ofNat 32 x)) (Laws.exec_vfrsq e u d a s)
      have exp2 := float1_of_float1 (g := g) (f := fun _ x => approxExp2 (BitVec.ofNat 32 x)) (Laws.exec_vfexp2 e u d a s)
      have log2 := float1_of_float1 (g := g) (f := fun _ x => approxLog2 (BitVec.ofNat 32 x)) (Laws.exec_vflog2 e u d a s)
      simp only [approx] at rcp rsq exp2 log2
      exact ⟨rcp, rsq, exp2, log2⟩⟩

/-- Settles O11: sums, products, quotients and roots are those of the entries, and the approximate functions deliver the numbers
that bracket the exact result, or one that differs little from it. -/
theorem floatResults : Obligations.FloatResults := ⟨floatElementResults, approximateResults⟩

end Sys2Proof.Machine
end

section
/-!
A matrix loop on a slice memory that is not in its canonical form: a word that it writes as 0 does not hide the byte before it.
-/

namespace Sys2Proof.Machine

open Sys2Proof Sys2Proof.Claims

/-! ## A slice memory that is out of order -/

/-- A zero written below the first address of a memory's list leaves the list as it is. -/
theorem Memory.writeN_zeros_below (c : Host.Cell) (m : Memory) : ∀ (n a : Nat), a + n ≤ c.1 →
    Memory.writeN (c :: m) a (List.replicate n unlistedByte) = c :: m
  | 0, _, _ => rfl
  | n + 1, a, below => by
    have front : Memory.write (c :: m) a unlistedByte = c :: m := by
      rw [Memory.write, if_pos (by omega), if_pos rfl]
    rw [List.replicate_succ, Memory.writeN, front]
    exact Memory.writeN_zeros_below c m n (a + 1) (by omega)

/-- A loop in ring-32 of one step that clears its accumulator, with no A elements but zeros. -/
def zerosLoop : Matrix := ⟨[], 0, 256, 1, 2, 0, true⟩

/-- A team with a window of 4096 bytes on core 0. -/
def loopTeam : Team := Team.fresh 0 0 0 0 0 0 false 0 4096 1

/-- The machine: its slice memory lists address 8192 before address 0, so that it is not canonical (`Memory.wf`). -/
def disorderedSlices : State := { State.reset with slices := [(8192, 1), (0, 5)] }

/-! ## The loop changes nothing -/

/-- A ring update by products with 0 of an accumulator that is 0. -/
theorem Matrix.update_of_zeros {x : Matrix} (ring : x.mode ≠ 0) {steps : List (List Nat × List Nat)}
    (zeros : ∀ p ∈ steps, ∀ v ∈ p.1, v = 0) : x.update steps 0 = (0, false, false) := by
  have products (as bs : List Nat) (h : ∀ v ∈ as, v = 0) : ((as.zip bs).map fun p => p.1 * p.2).sum = 0 := by
    refine List.sum_eq_zero fun v hv => ?_
    obtain ⟨p, mem, rfl⟩ := List.mem_map.mp hv
    rw [h p.1 (List.of_mem_zip mem).1, Nat.zero_mul]
  have total : (steps.map fun p => ((p.1.zip p.2).map fun q => q.1 * q.2).sum).sum = 0 := by
    refine List.sum_eq_zero fun v hv => ?_
    obtain ⟨p, mem, rfl⟩ := List.mem_map.mp hv
    exact products p.1 p.2 (zeros p mem)
  rw [Matrix.update, if_neg ring]
  simp only [total, Nat.zero_mod, Nat.add_zero]

theorem zerosLoop_a (m j i : Nat) : zerosLoop.a m j i = 0 := by simp [Matrix.a, zerosLoop]

theorem elemA_zerosLoop (m j i : Nat) : elemA zerosLoop m j i = 0 := by simp [elemA, zerosLoop]

theorem elem_zerosLoop (tiles : List (Nat × List Byte)) (m n : Nat) {a : Nat} (below : a + 4 ≤ 8192) {o : MmOut}
    (same : o.slices = disorderedSlices.slices) :
    (zerosLoop.elem tiles 0 m n a o).slices = disorderedSlices.slices := by
  have updates (f : Nat × List Byte → List Nat) :
      zerosLoop.update (tiles.map fun t => ((List.range zerosLoop.k).map (zerosLoop.a m t.1), f t)) 0 = (0, false, false) := by
    refine Matrix.update_of_zeros (by decide) fun p hp v hv => ?_
    obtain ⟨t, -, rfl⟩ := List.mem_map.mp hp
    obtain ⟨i, -, rfl⟩ := List.mem_map.mp hv
    exact zerosLoop_a m t.1 i
  simp only [Matrix.elem, same, show (zerosLoop.z && 0 == 0) = true from rfl, if_true, updates]
  exact Memory.writeN_zeros_below _ _ 4 a below

/-- The window of the team is the start of core 0's slice. -/
theorem window_loopTeam {o size : Nat} (h : o + size ≤ 4096) : loopTeam.window o size = some o := by
  rw [Team.window, if_pos (show o + size ≤ loopTeam.sliceLen from h)]
  simp [loopTeam, Team.fresh]

/-- A row of the accumulator, updated in the first group of steps: it writes zeros before the entry that stands first. -/
theorem row_zerosLoop (tiles : List (Nat × List Byte)) {r : Nat} (hr : r < 4) {o : MmOut}
    (same : o.slices = disorderedSlices.slices) : (zerosLoop.row loopTeam tiles 0 o r).slices = disorderedSlices.slices := by
  have place : loopTeam.window (zerosLoop.rowAt r) 64 = some (zerosLoop.rowAt r) :=
    window_loopTeam (by simp only [Matrix.rowAt, zerosLoop]; omega)
  have kept : ∀ (l : List Nat) (o : MmOut), (∀ i ∈ l, i < 16) → o.slices = disorderedSlices.slices →
      (l.foldl (fun o i => zerosLoop.elem tiles 0 (r / 4) (16 * (r % 4) + i) (zerosLoop.rowAt r + 4 * i) o) o).slices =
        disorderedSlices.slices := by
    intro l
    induction l with
    | nil => exact fun _ _ same => same
    | cons i l ih =>
      intro o inside same
      have least := inside i (.head _)
      refine ih _ (fun j hj => inside j (.tail _ hj)) (elem_zerosLoop tiles _ _ ?_ same)
      simp only [Matrix.rowAt, zerosLoop]
      omega
  rw [Matrix.row, place]
  exact kept _ o (fun i hi => List.mem_range.mp hi) same

theorem grants_zerosLoop : ∀ (n : Nat) (d : MmDone),
    (zerosLoop.grants loopTeam 1 n (disorderedSlices.slices, d)).1 = disorderedSlices.slices
  | 0, _ => rfl
  | n + 1, d => by
    rw [Matrix.grants]
    split
    next => rfl
    next more =>
      have few : d.grants < 4 := not_le.mp more
      have first : d.grants / (4 * 1) = 0 := Nat.div_eq_of_lt few
      have row : d.grants % (4 * 1) < 4 := Nat.mod_lt _ (by decide)
      simp only [first]
      rw [row_zerosLoop _ row rfl]
      exact grants_zerosLoop n _

/-- A loop whose operands fit, and that meets no line with an error, leaves what all its grants leave. -/
theorem Matrix.slices_of_run {x : Matrix} {s : State} {t : Team} {w : Nat} {d : MmDone} {o : MmOut} {f : Option (Cause × W64)}
    (fits : x.misfit t w = none) (clean : x.meets s t w (x.total w) d = none) (h : x.run s t w d = .done o f) :
    o.slices = (x.grants t w (x.total w) (s.slices, d)).1 := by
  rw [Matrix.run, fits] at h
  dsimp only at h
  rw [clean] at h
  injection h with outcome
  rw [← outcome]

/-- The model: the loop writes zeros, and the old byte stays to be read. -/
theorem run_zerosLoop {o : MmOut} {f : Option (Cause × W64)}
    (h : zerosLoop.run disorderedSlices loopTeam 1 MmDone.start = .done o f) : o.slices = disorderedSlices.slices := by
  have fits : zerosLoop.misfit loopTeam 1 = none := by decide
  have clean : zerosLoop.meets disorderedSlices loopTeam 1 (zerosLoop.total 1) MmDone.start = none := if_pos rfl
  exact (Matrix.slices_of_run fits clean h).trans (grants_zerosLoop (zerosLoop.total 1) MmDone.start)

theorem laidOut_zerosLoop : LaidOut loopTeam 1 zerosLoop := by
  refine ⟨rfl, rfl, by decide, by decide, by decide, fun q hq => ?_, fun j q hj hq => ?_, fun q r a b hq hr ha hb => ?_,
    fun j _ _ _ _ hj less => ?_⟩
  · rw [window_loopTeam (by simp only [zerosLoop]; omega)]
    exact Option.some_ne_none _
  · rw [window_loopTeam (by simp only [zerosLoop]; omega)]
    exact Option.some_ne_none _
  · rw [window_loopTeam (by simp only [zerosLoop]; omega)] at ha hb
    cases ha
    cases hb
    omega
  · exact absurd less (by simp only [zerosLoop]; omega)

/-- Refutes O43: a loop in ring-32 that clears its accumulator and multiplies by zeros, on a machine whose slice memory lists
address 8192 before address 0. The statement asks that the accumulator then holds 0; but it does not ask, as the statements about
memories do, that the slice memory is canonical (`Memory.wf`, which every step keeps), and in this one the write of a 0 to address 0
stops at the entry of address 8192 and leaves the 5 that stands behind it. -/
theorem not_engineQueueEvents : ¬ Obligations.EngineQueueEvents := by
  rintro ⟨-, -, values⟩
  obtain ⟨o, S, run, -, -, words⟩ := values disorderedSlices loopTeam 1 zerosLoop rfl laidOut_zerosLoop Nat.one_pos
  have word := words 0 0 Nat.one_pos (by decide)
  have zeros (k : Nat) : ((List.range zerosLoop.nk).map fun j =>
      ((List.range k).map fun i => elemA zerosLoop 0 j i * elemB disorderedSlices loopTeam zerosLoop j i 0).sum).sum = 0 := by
    simp [elemA_zerosLoop]
  have place : loopTeam.window (zerosLoop.c + 256 * 0 + 4 * 0) 4 = some 0 := window_loopTeam (by decide)
  have five : windowNat o.slices loopTeam (zerosLoop.c + 256 * 0 + 4 * 0) 4 = 5 := by
    rw [windowNat, place, run_zerosLoop run]
    decide
  have zero : windowNat o.slices loopTeam (zerosLoop.c + 256 * 0 + 4 * 0) 4 = 0 := by
    refine word.trans ?_
    rw [if_neg (by decide), if_neg (by decide)]
    simp only [zeros, show zerosLoop.z = true from rfl, if_true, Nat.add_zero, Nat.zero_mod]
  rw [five] at zero
  exact absurd zero (by decide)

end Sys2Proof.Machine
end

section
/-!
The floating-point reductions and the scan: sums in thread order, and the extreme element with its thread.
-/

namespace Sys2Proof.Machine

open Sys2Proof Sys2Proof.Claims

/-! ## No flags raised -/

theorem State.countEvents_zero (s : State) (part core k : Nat) : s.countEvents part core k 0 = (s, false) := by
  rw [State.countEvents]
  split
  next => rfl
  next => exact if_pos rfl

theorem Group.addEvents_zero (g : Group) (s : State) (k : Nat) : g.addEvents s k 0 = (s, g) := by
  simp only [Group.addEvents, State.countEvents_zero, Bool.false_eq_true, if_false]

/-- An instruction none of whose elements raises a flag leaves `fpf` and the events as they are (R123, R129). -/
theorem Group.raise_nil (g : Group) (s : State) : g.raise s [] = (s, g) := by
  have flags : ({ g with fpf := g.fpf ||| BitVec.ofNat 64 (List.foldl Flags.join Flags.zero []).toNat } : Group) = g := by
    have none : BitVec.ofNat 64 (List.foldl Flags.join Flags.zero []).toNat = (0#64 : W64) := rfl
    rw [none, BitVec.or_zero]
  have counts (ks : List Nat) : ks.foldl (fun (r : State × Group) k =>
      Group.addEvents r.2 r.1 k (List.filter (fun x : Flags => x.event k) []).length) (s, g) = (s, g) := by
    induction ks with
    | nil => rfl
    | cons k ks ih => rwa [List.foldl_cons, List.filter_nil, List.length_nil, Group.addEvents_zero]
  rw [Group.raise, flags]
  exact counts (List.range 5)

/-- An instruction without flags, whose effect leaves its group as it is, changes nothing (R12). -/
theorem gives_of_raising_nil {i : Instr} {s : State} {g : Group} {fl : Group → List Flags} {f : Group → Group → Group}
    {cost : Group → Nat} (hx : exec i s = issue i s (raising fl f cost)) (none : fl g = []) (same : f g g = g) :
    Gives i s g g (cost g) :=
  gives_of_issue hx (by rw [raising, none, Group.raise_nil, same])

/-! ## Sums in thread order (R142) -/

theorem Group.pairwise_actives (g : Group) : (actives g).Pairwise (· < ·) := actives_eq g ▸ pairwise_threads ..

/-- One value in every thread. -/
def Group.splat (g : Group) (n : Nat) : VReg := .g (List.replicate g.width.n (BitVec.ofNat 32 n))

/-- The first element of a sum: a signalling NaN is quieted. -/
def sumStart (x : Nat) : Nat := if fp32.isSig x then fp32.quiet x else x

/-- The running sums over the active threads, from the first element. -/
theorem Group.sums_of_cons {g : Group} {t : Nat} {ts : List Nat} (h : actives g = t :: ts) (a : Fld) :
    g.sums a = ((runSum g.rm (sumStart (g.el a t)) (ts.map (g.el a))).1,
      (if fp32.isSig (g.el a t) then [Flags.invalid] else []) ++
        (runSum g.rm (sumStart (g.el a t)) (ts.map (g.el a))).2) := by
  rw [Group.sums, ← actives_eq, h, List.map_cons, sumStart]
  dsimp only
  split
  next => rfl
  next => rw [List.nil_append]

theorem Group.sums_of_nil {g : Group} (none : actives g = []) (a : Fld) : g.sums a = ([], []) := by
  rw [Group.sums, ← actives_eq, none, List.map_nil]

theorem length_runSum (md : RMode) (acc : Nat) (xs : List Nat) : (runSum md acc xs).1.length = xs.length + 1 := by
  induction xs generalizing acc with
  | nil => rfl
  | cons x xs ih => rw [runSum, List.length_cons, ih, List.length_cons]

/-- In a list of threads that are all different, each with a value, the value of the k-th is found by its thread. -/
theorem find?_zip_of_nodup {ts ys : List Nat} (nodup : ts.Nodup) {k t y : Nat} (ht : ts[k]? = some t) (hy : ys[k]? = some y) :
    (ts.zip ys).find? (fun p => p.1 == t) = some (t, y) := by
  induction ts generalizing ys k with
  | nil => exact nomatch ht
  | cons u ts ih =>
    obtain ⟨out, nodup⟩ := List.nodup_cons.mp nodup
    cases ys with
    | nil => exact nomatch hy
    | cons v ys =>
      rw [List.zip_cons_cons, List.find?_cons]
      cases k with
      | zero =>
        cases ht
        cases hy
        rw [beq_self_eq_true]
      | succ k =>
        have other : (u == t) = false := beq_false_of_ne fun same => out (same ▸ List.mem_of_getElem? ht)
        rw [other]
        exact ih nodup ht hy

/-- What `vfscan.add` writes: in each active thread the sum up to it. -/
def Group.runningSums (g : Group) (a : Fld) : VReg :=
  .g ((List.range g.width.n).map fun t => BitVec.ofNat 32
    (((((actives g).zip (g.sums a).1).find? fun p => p.1 == t).map Prod.snd).getD 0))

theorem Group.runningSums_get {g : Group} {a : Fld} {k t : Nat} (same : (g.sums a).1.length = (actives g).length)
    (ht : (actives g)[k]? = some t) : (g.runningSums a).get t = BitVec.ofNat 32 ((g.sums a).1.getD k 0) := by
  have inside : t < g.width.n := List.mem_range.mp (List.mem_of_mem_filter (List.mem_of_getElem? ht))
  have below : k < (g.sums a).1.length := by
    obtain ⟨lt, -⟩ := List.getElem?_eq_some_iff.mp ht
    omega
  have nodup : (actives g).Nodup := g.pairwise_actives.imp Nat.ne_of_lt
  rw [Group.runningSums, get_g_range _ inside, find?_zip_of_nodup nodup ht (List.getElem?_eq_getElem below),
    List.getD_eq_getElem?_getD, List.getElem?_eq_getElem below]
  rfl

/-- The double-word sum over the active threads, with its flags. -/
def Group.doubleSum (g : Group) (a : Fld) : Pair × List Flags :=
  match (actives g).map fun t => (g.el a t, g.el1 a t) with
  | [] => (⟨0, 0, Flags.zero⟩, [])
  | x :: xs =>
    let z := runDw (dwRen x.1 x.2) xs
    (z.1, (dwRen x.1 x.2).fl :: z.2)

theorem Group.doubleSum_of_cons {g : Group} {t : Nat} {ts : List Nat} (h : actives g = t :: ts) (a : Fld) :
    let p := dwRen (g.el a t) (g.el1 a t)
    let z := runDw p (ts.map fun w => (g.el a w, g.el1 a w))
    g.doubleSum a = (z.1, p.fl :: z.2) := by
  intro p z
  rw [Group.doubleSum, h, List.map_cons]

theorem Group.doubleSum_of_nil {g : Group} (none : actives g = []) (a : Fld) :
    g.doubleSum a = (⟨0, 0, Flags.zero⟩, []) := by
  rw [Group.doubleSum, none, List.map_nil]

theorem exec_vfredAdd_eq (e : Bool) (d a : Fld) (s : State) : exec (.vfredAdd e d a) s = issue (.vfredAdd e d a) s
    (raising (fun g => (g.sums a).2) (fun g h => h.setV d (g.splat ((g.sums a).1.getLastD 0))) fun g => g.vcost false) := by
  rw [Laws.exec_vfredAdd, execVfredAdd]
  refine congrArg (issue _ s) (funext₂ fun g s => ?_)
  simp only [raising, Group.splat]

theorem exec_vfscanAdd_eq (e : Bool) (d a : Fld) (s : State) : exec (.vfscanAdd e d a) s = issue (.vfscanAdd e d a) s
    (raising (fun g => (g.sums a).2) (fun g h => h.setV d (g.runningSums a)) fun g => g.vcost false) := by
  rw [Laws.exec_vfscanAdd, execVfscanAdd]
  refine congrArg (issue _ s) (funext₂ fun g s => ?_)
  simp only [raising, Group.runningSums, ← actives_eq]
  congr
  funext t
  cases ((actives g).zip (g.sums a).1).find? fun p => p.1 == t <;> rfl

theorem exec_vfredX_eq (e : Bool) (d a : Fld) (s : State) : exec (.vfredX e d a) s = issue (.vfredX e d a) s
    (raising (fun g => (g.doubleSum a).2)
      (fun g h => h.setPair d (g.splat (g.doubleSum a).1.hi) (g.splat (g.doubleSum a).1.lo)) fun g => g.pcost false) := by
  rw [Laws.exec_vfredX, execVfredX]
  refine congrArg (issue _ s) (funext₂ fun g s => ?_)
  rw [← actives_eq]
  unfold raising Group.doubleSum
  beta_reduce
  cases (actives g).map fun t => (g.el a t, g.el1 a t) <;> simp only [Group.splat]

section Sums

variable {s : State} {g : Group} {d a : Fld} {ys : List Nat} {fl : List Flags}

/-- `vfred.add` writes the last running sum to every active thread. -/
theorem exec_vfredAdd_of_sums {e : Bool} (sums : g.sums a = (ys, fl)) (hi : Issues (.vfredAdd e d a) s g) :
    let r := g.raise s fl
    let h := r.2.setV d (g.splat (ys.getLastD 0))
    exec (.vfredAdd e d a) s = .next (after r.1 h (Claims.cycles g false) (h.pc + lengthOf (.vfredAdd e d a))
      (endsRun (.vfredAdd e d a) h)) := by
  have executes := exec_of_raising (exec_vfredAdd_eq ..) hi
  simp only [sums, Group.vcost_eq] at executes
  exact executes

/-- `vfscan.add` writes each running sum to its thread. -/
theorem exec_vfscanAdd_of_sums {e : Bool} (sums : g.sums a = (ys, fl)) (hi : Issues (.vfscanAdd e d a) s g) :
    let r := g.raise s fl
    let h := r.2.setV d (g.runningSums a)
    exec (.vfscanAdd e d a) s = .next (after r.1 h (Claims.cycles g false) (h.pc + lengthOf (.vfscanAdd e d a))
      (endsRun (.vfscanAdd e d a) h)) := by
  have executes := exec_of_raising (exec_vfscanAdd_eq ..) hi
  simp only [sums, Group.vcost_eq] at executes
  exact executes

/-- `vfred.x` writes the double-word sum to every active thread. -/
theorem exec_vfredX_of_doubleSum {e : Bool} {z : Pair} (sum : g.doubleSum a = (z, fl)) (hi : Issues (.vfredX e d a) s g) :
    let r := g.raise s fl
    let h := r.2.setPair d (g.splat z.hi) (g.splat z.lo)
    exec (.vfredX e d a) s = .next (after r.1 h (Claims.pairCycles g false) (h.pc + lengthOf (.vfredX e d a))
      (endsRun (.vfredX e d a) h)) := by
  have executes := exec_of_raising (exec_vfredX_eq ..) hi
  simp only [sum, Group.pcost_eq] at executes
  exact executes

/-- With no active thread a sum writes and raises nothing. -/
theorem gives_sums_inactive (e : Bool) (none : actives g = []) :
    Gives (.vfredAdd e d a) s g g (Claims.cycles g false) ∧ Gives (.vfscanAdd e d a) s g g (Claims.cycles g false) ∧
      Gives (.vfredX e d a) s g g (Claims.pairCycles g false) := by
  have inactive := g.actives_eq_nil_iff.mp none
  have single : (g.sums a).2 = [] := by rw [Group.sums_of_nil none]
  have double : (g.doubleSum a).2 = [] := by rw [Group.doubleSum_of_nil none]
  rw [← Group.vcost_eq, ← Group.pcost_eq]
  exact ⟨gives_of_raising_nil (exec_vfredAdd_eq ..) single (Group.setV_inactive inactive ..),
    gives_of_raising_nil (exec_vfscanAdd_eq ..) single (Group.setV_inactive inactive ..),
    gives_of_raising_nil (exec_vfredX_eq ..) double (Group.setPair_inactive inactive ..)⟩

end Sums

/-! ## The extreme element (R143) -/

/-- The order in which the greatest element, or the least one, stands last. -/
def favour (max : Bool) (x : W32) : Int := if max then fp32.rank x.toNat else -fp32.rank x.toNat

theorem rank_injective : Function.Injective fun x : W32 => fp32.rank x.toNat := by
  intro x y same
  have lx := x.isLt
  have ly := y.isLt
  apply BitVec.eq_of_toNat_eq
  simp only [Fmt.rank, Fmt.neg, Fmt.mag, show fp32.sign = 31 from rfl, Nat.testBit_eq_decide_div_mod_eq,
    decide_eq_true_eq] at same
  split at same <;> split at same <;> omega

theorem favour_injective (max : Bool) : Function.Injective (favour max) := by
  cases max with
  | true => exact rank_injective
  | false => exact neg_injective.comp rank_injective

/-- What a search for the extreme element takes for the better one. -/
def betters (max : Bool) (x y : W32) : Bool := decide (favour max y < favour max x)

theorem betters_iff (max : Bool) (x y : W32) : betters max x y = true ↔ favour max y < favour max x := decide_eq_true_iff

/-- The comparison of R143, for the greatest element and for the least. -/
theorem extreme_compare_iff (max : Bool) (x y : W32) :
    (if max then fp32.rank y.toNat < fp32.rank x.toNat else fp32.rank x.toNat < fp32.rank y.toNat) ↔
      betters max x y = true := by
  rw [betters_iff]
  cases max with
  | true => exact Iff.rfl
  | false => exact neg_lt_neg_iff.symm

/-- The search over elements with their threads is the one over threads. -/
theorem extreme_map {ts : List Nat} (some : ts ≠ []) (g : Group) (a : Fld) (max : Bool) :
    extreme max (ts.map fun t => (g.el a t, t)) =
      (g.el a (bestThread (g.v a) (betters max) ts), bestThread (g.v a) (betters max) ts) := by
  cases ts with
  | nil => exact absurd rfl some
  | cons t ts =>
    simp only [List.map_cons, extreme, List.foldl_map, bestThread]
    refine List.foldl_hom (fun t => (g.el a t, t)) fun c u => ?_
    dsimp only
    by_cases better : betters max ((g.v a).get u) ((g.v a).get c) = true
    · rw [if_pos better]
      exact if_pos ((extreme_compare_iff ..).mpr better)
    · rw [if_neg better]
      exact if_neg (mt (extreme_compare_iff ..).mp better)

/-- What `vfredmaxi` or `vfredmini` finds: the lowest NaN quieted, or the extreme element, and its thread. -/
def Group.extremeElement (g : Group) (a : Fld) (max : Bool) : Nat × Nat :=
  match ((actives g).map fun t => (g.el a t, t)).find? fun x => fp32.isNan x.1 with
  | some x => (fp32.quiet x.1, x.2)
  | none => extreme max ((actives g).map fun t => (g.el a t, t))

/-- NV, once, when an active element is a signalling NaN. -/
def Group.signals (g : Group) (a : Fld) : List Flags :=
  if (actives g).any fun t => fp32.isSig (g.el a t) then [Flags.invalid] else []

theorem floatArg_eq (i : Instr) (s : State) (d a : Fld) (max : Bool) : floatArg i s d a max = issue i s
    (raising (fun g => g.signals a)
      (fun g h => h.setPair d (g.splat (g.extremeElement a max).1) (g.splat (g.extremeElement a max).2))
      fun g => g.vcost false) := by
  rw [floatArg]
  refine congrArg (issue i s) (funext₂ fun g s => ?_)
  dsimp only
  rw [← actives_eq, List.any_map]
  rfl

section Extreme

variable {i : Instr} {s : State} {g : Group} {d a : Fld} {max : Bool} {w : Nat}

/-- The lowest NaN is found first. -/
theorem Group.extremeElement_of_nan (hw : w ∈ actives g) (nan : fp32.isNan (g.el a w) = true)
    (lowest : ∀ t ∈ actives g, fp32.isNan (g.el a t) = true → w ≤ t) :
    g.extremeElement a max = (fp32.quiet (g.el a w), w) := by
  have head : ((actives g).filter fun t => fp32.isNan (g.el a t)).head? = some w := by
    rw [head?_eq_some_iff_of_pairwise (g.pairwise_actives.filter _)]
    simp only [List.mem_filter, and_imp]
    exact ⟨⟨hw, nan⟩, lowest⟩
  have found : ((actives g).map fun t => (g.el a t, t)).find? (fun x => fp32.isNan x.1) = some (g.el a w, w) := by
    rw [List.find?_map, ← List.head?_filter]
    exact congrArg (Option.map fun t => (g.el a t, t)) head
  rw [Group.extremeElement, found]

/-- Without a NaN, the first of the best elements is found. -/
theorem Group.extremeElement_of_numbers (numbers : ∀ t ∈ actives g, fp32.isNan (g.el a t) = false)
    (best : FirstBest (g.v a) (favour max) w (actives g)) : g.extremeElement a max = (g.el a w, w) := by
  have none : ((actives g).map fun t => (g.el a t, t)).find? (fun x => fp32.isNan x.1) = none := by
    rw [List.find?_map, Option.map_eq_none_iff, List.find?_eq_none]
    exact fun t ht => Bool.eq_false_iff.mp (numbers t ht)
  rw [Group.extremeElement, none]
  dsimp only
  rw [extreme_map (List.ne_nil_of_mem best.1), bestThread_eq (betters_iff max) g.pairwise_actives best]

/-- Thread `w` is the one that R143 names: the lowest with a NaN, or the lowest with the extreme element. -/
def Group.HoldsExtreme (g : Group) (a : Fld) (max : Bool) (w : Nat) : Prop :=
  (fp32.isNan (g.el a w) = true ∧ ∀ t ∈ actives g, fp32.isNan (g.el a t) = true → w ≤ t) ∨
    (∀ t ∈ actives g, fp32.isNan (g.el a t) = false) ∧
      (∀ t ∈ actives g, favour max ((g.v a).get t) ≤ favour max ((g.v a).get w)) ∧
      ∀ t ∈ actives g, g.el a t = g.el a w → w ≤ t

theorem Group.extremeElement_of_holds (hw : w ∈ actives g) (holds : g.HoldsExtreme a max w) :
    g.extremeElement a max = (if fp32.isNan (g.el a w) then fp32.quiet (g.el a w) else g.el a w, w) := by
  obtain ⟨nan, lowest⟩ | ⟨numbers, most, lowest⟩ := holds
  · rw [if_pos nan]
    exact Group.extremeElement_of_nan hw nan lowest
  · rw [if_neg (Bool.eq_false_iff.mp (numbers w hw))]
    refine Group.extremeElement_of_numbers numbers ⟨hw, fun t ht => ⟨most t ht, fun below => ?_⟩⟩
    refine (most t ht).lt_of_ne fun same => ?_
    exact (lowest t ht (congrArg BitVec.toNat (favour_injective max same))).not_gt below

/-- The pair of the extreme element and its thread is written to every active thread, and NV is raised once. -/
theorem exec_of_floatArg (hx : exec i s = floatArg i s d a max) (hw : w ∈ actives g) (holds : g.HoldsExtreme a max w)
    (hi : Issues i s g) :
    let r := g.raise s (if (actives g).any fun t => fp32.isSig (g.el a t) then [Flags.invalid] else [])
    let h := r.2.setPair d (g.splat (if fp32.isNan (g.el a w) then fp32.quiet (g.el a w) else g.el a w)) (g.splat w)
    exec i s = .next (after r.1 h (Claims.cycles g false) (h.pc + lengthOf i) (endsRun i h)) := by
  have found := Group.extremeElement_of_holds hw holds
  have executes := exec_of_raising (hx.trans (floatArg_eq ..)) hi
  simp only [found, Group.vcost_eq, Group.signals] at executes
  exact executes

/-- With no active thread there is nothing to raise and nothing to write. -/
theorem gives_of_floatArg_inactive (hx : exec i s = floatArg i s d a max) (none : actives g = []) :
    Gives i s g g (Claims.cycles g false) := by
  rw [← Group.vcost_eq]
  refine gives_of_raising_nil (hx.trans (floatArg_eq ..)) ?_ (Group.setPair_inactive (g.actives_eq_nil_iff.mp none) ..)
  rw [Group.signals, none]
  rfl

end Extreme

/-! ## The obligation -/

/-- Settles O13: sums run from the first active thread, and a search ends at the lowest thread of the extreme element. -/
theorem floatReductionResults : Obligations.FloatReductionResults := by
  intro s g e d a x x1 all sum
  refine ⟨?_, ?_, fun none => ?_⟩
  · intro t ts act first ys fl r
    have sums : g.sums a = (ys, fl) := by
      rw [Group.sums_of_cons act, Group.rm_eq]
      rfl
    have length : (g.sums a).1.length = (actives g).length := by
      rw [Group.sums_of_cons act, length_runSum, List.length_map, act, List.length_cons]
    refine ⟨exec_vfredAdd_of_sums sums, fun hi => ⟨g.runningSums a, exec_vfscanAdd_of_sums sums hi, fun k w at_k => ?_⟩,
      exec_vfredX_of_doubleSum (Group.doubleSum_of_cons act a)⟩
    rw [← act] at at_k
    rw [Group.runningSums_get length at_k, sums]
  · intro w hw nv r h nanFirst noNan
    refine ⟨fun holds => exec_of_floatArg (max := true) (Laws.exec_vfredmaxi ..) hw holds, fun holds => ?_⟩
    refine exec_of_floatArg (max := false) (Laws.exec_vfredmini ..) hw (holds.imp_right ?_)
    rintro ⟨numbers, least, lowest⟩
    exact ⟨numbers, fun t ht => neg_le_neg (least t ht), lowest⟩
  · obtain ⟨single, scan, double⟩ := gives_sums_inactive (s := s) (d := d) (a := a) e none
    exact ⟨single, scan, double, gives_of_floatArg_inactive (Laws.exec_vfredmaxi ..) none,
      gives_of_floatArg_inactive (Laws.exec_vfredmini ..) none⟩

end Sys2Proof.Machine
end

section
/-!
What an atomic does with the location of its first item (R156, R157).
-/

namespace Sys2Proof.Machine

open Sys2Proof Sys2Proof.Claims

/-! ## The value that an operation makes -/

/-- The two's complement value of the low bits is the signed reading of those bits, as long as there is a sign bit. -/
theorem sextNat_eq_toInt {n : Nat} (hn : 0 < n) (v : Nat) : sextNat n v = (BitVec.ofNat n v).toInt := by
  have double : 2 ^ n = 2 * 2 ^ (n - 1) := by rw [← pow_succ', Nat.sub_add_cancel hn]
  rw [sextNat, BitVec.toInt_eq_toNat_cond, BitVec.toNat_ofNat, double]
  split <;> split <;> omega

/-! ## The first item -/

theorem atomSize_eq_width (w : Bool) : atomSize w = width w := rfl

section FirstItem

variable (s : State) (g : Group) (sp : Space) (w : Bool) (op : AOp) (ordered : Bool) (th : Nat) (a x e : W64)
  (rest : List (Nat × W64 × W64 × W64))

/-- An atomic whose first item fails its check goes on from the same state, with that failure before the others. -/
theorem State.atomAll_fail (c : Cause) (d : Nat)
    (hc : s.check g.part g.ctx g.team sp a (width w) op.perm ordered = .fail c d) :
    s.atomAll g sp w op ordered ((th, a, x, e) :: rest) =
      { s.atomAll g sp w op ordered rest with
        fails := ⟨th, c, a, d⟩ :: (s.atomAll g sp w op ordered rest).fails } := by
  rw [State.atomAll, atomSize_eq_width, hc]

/-- What an atomic makes of the bytes at a place (R156, Table 4): `load` only reads them. -/
def State.atomAt (p : Place) : State :=
  let n := 8 * width w
  if op = .load then s
  else s.writeAt p (leBytes (width w)
    (op.result n (leNat (s.readAt p (width w))) (x.toNat % 2 ^ n) (e.toNat % 2 ^ n)))

/-- An atomic whose first item passes its check, and does not consume an error of the line, goes on from the state in which that
item's location holds its new value, with the old value before those of the others. -/
theorem State.atomAll_ok (p : Place) (hc : s.check g.part g.ctx g.team sp a (width w) op.perm ordered = .ok p)
    (good : op = .store ∨ s.badLine p (width w) = none) :
    s.atomAll g sp w op ordered ((th, a, x, e) :: rest) =
      let r := (s.atomAt w op x e p).atomAll g sp w op ordered rest
      { r with
        olds := (th, leNat (s.readAt p (width w))) :: r.olds
        places := (p.addr, width w) :: r.places } := by
  have clean : (if op = .store then none else s.badLine p (width w)) = none := by
    split
    · rfl
    · exact good.resolve_left ‹_›
  rw [State.atomAll, atomSize_eq_width, hc]
  simp only [clean]
  rfl

end FirstItem

/-! ## The obligation -/

/-- Settles O26: the first item by its check; the value it writes is that of the model's Table 4, whose signed comparisons read the
operands as two's complement. -/
theorem atomicsUpdateMemory : Obligations.AtomicsUpdateMemory := by
  intro s g sp w op ordered th a x e rest n chk out
  refine ⟨fun c d hc => ?_, fun p hc good => ?_⟩
  · simp only [out, State.atomAll_fail s g sp w op ordered th a x e rest c d hc]
    exact ⟨trivial, trivial, List.mem_cons_self⟩
  · intro old xv ev sgn
    have bits : 0 < n := by cases w <;> decide
    have signed : sextNat n = sgn := funext (sextNat_eq_toInt bits)
    refine ⟨op.result n old xv ev, ?_, ?_, ?_, ?_, ?_, ?_, ?_, ?_, ?_, ?_, ?_, ?_, ?state⟩
    case state =>
      simp only [out, State.atomAll_ok s g sp w op ordered th a x e rest p hc good]
      exact ⟨rfl, List.mem_cons_self⟩
    all_goals
      rintro rfl
      simp only [AOp.result, signed]

end Sys2Proof.Machine
end

section
/-!
A load of the slice window into `fpm`: the wait of the load crosses a threshold, for which the value that it has just loaded asks an
interrupt (R89, R129, R151).
-/

namespace Sys2Proof.Machine

open Sys2Proof Sys2Proof.Claims

/-! ## A machine that loads `fpm` -/

/-- The group: its `fpm` is 0, which asks for nothing, and so is `s0`, the address that it loads from. -/
def fpmLoadingGroup : Group := { Group.fresh 1 windowTeam 0 0 0 .w16 32 0 0 [] 1 0 1 0 0 with stat := .running }

/-- Its partition: a report ring of 64 entries at byte 0, and a threshold of one event of class 6. -/
def thresholdPart : Partition :=
  { Partition.fresh 0 1 1 0 8 1 with ringLog := 6, evlim := [0, 0, 0, 0, 0, 0, 1, 0] }

/-- The machine: the next request of the group's lane has waited a cycle, and the eight bytes at slice address 0 are a value of `fpm`
whose action for class 6 is an interrupt. -/
def fpmLoadingMachine : State :=
  { State.reset with
    parts := [thresholdPart], teams := [windowTeam], groups := [fpmLoadingGroup], cur := some 1
    cores := [{ Core.fresh 0 with laneWaits := [(0, 1)] }], slices := [(5, 0x20)] }

/-- `slds` from the address in `s0` into `fpm`. -/
def fpmLoad : Instr := .slds false 77 0 0

/-- The type of the first entry of the report ring after a step. -/
def firstReportType (o : Host.Outcome State Fault Refusal) : Option Byte :=
  match o with
  | .next t => some (t.hbm.read (thresholdPart.base + 7))
  | _ => none

theorem issues_fpmLoad : Issues fpmLoad fpmLoadingMachine fpmLoadingGroup := by decide +kernel

/-- The load meets no error. -/
theorem readThread_fpmLoadingMachine :
    fpmLoadingMachine.readThread fpmLoadingGroup .slice 8 0 (fpmLoadingGroup.scalarSlice fpmLoadingMachine 0 0) =
      .bytes [0, 0, 0, 0, 0, 0x20, 0, 0] (.slice 0) := by
  decide +kernel

/-- The model: an entry of type 11, EVENT, is in the ring, where no entry was before. -/
theorem firstReportType_fpmLoad :
    firstReportType (exec fpmLoad fpmLoadingMachine) = some 11 ∧ firstReportType (.next fpmLoadingMachine) = some 0 := by
  rw [fpmLoad, Laws.exec_slds]
  decide +kernel

/-- Refutes O30: an `slds` into `fpm` whose wait for its bank crosses the threshold of class 6. `LoadsFrame` asks of the `fpm` that the
group has before the load whether a crossing is reported, and that `fpm` asks for no interrupt. The model writes the loaded value
before it counts the wait, and the value asks for an interrupt: the report is in HBM after the step. -/
theorem not_accessFrames : ¬ Obligations.AccessFrames := by
  rintro ⟨-, loads⟩
  obtain ⟨t, step⟩ : ∃ t, exec fpmLoad fpmLoadingMachine = .next t :=
    ⟨_, (Laws.exec_slds ..).trans (issue_of_issues issues_fpmLoad)⟩
  obtain ⟨-, -, -, -, -, -, -, -, -, slds, -⟩ :=
    loads fpmLoadingMachine t fpmLoadingGroup false false 77 0 0 0 0 false false
  obtain ⟨-, quiet⟩ := slds issues_fpmLoad step fun l bad => by
    rw [← scalarSlice_eq, readThread_fpmLoadingMachine] at bad
    cases bad
  obtain ⟨hbm, -⟩ := quiet (by decide)
  obtain ⟨reported, unreported⟩ := firstReportType_fpmLoad
  rw [step, firstReportType, hbm] at reported
  exact absurd (reported.symm.trans unreported) (by decide)

end Sys2Proof.Machine
end

section
/-!
Engines: room for an operation and its acceptance (R171), and the instructions that hand an operation to an engine.
-/

namespace Sys2Proof.Machine

open Sys2Proof Sys2Proof.Claims

/-! ## Room (R171) -/

theorem State.freeCopy_eq_some_iff (s : State) (core k : Nat) :
    (s.core core).freeCopy = some k ↔ LowestCopySlot s core k := by
  simp only [Core.freeCopy, List.find?_range_eq_some, List.mem_range, LowestCopySlot]
  simp [and_left_comm]

theorem State.freeCopy_isSome_iff (s : State) (core : Nat) :
    (s.core core).freeCopy.isSome = true ↔ ∃ k, k < 64 ∧ ∀ e ∈ (s.core core).copies, e.1 ≠ k := by
  simp [Core.freeCopy, List.find?_isSome]

/-- No group of the core waits for what the operation needs. -/
theorem State.queuesFor_eq_false_iff (s : State) (core : Nat) (op : EngOp) : s.queuesFor core op = false ↔
    ∀ h ∈ s.groups, h.core = core → ∀ p ∈ h.issued, p.st = .waiting → ∀ o f x, p.op = .engine o f x →
      o.isMatrix ≠ op.isMatrix := by
  simp only [State.queuesFor, Group.queuesFor, List.any_eq_false, Bool.and_eq_true, beq_iff_eq, not_and]
  refine forall₃_congr fun h _ _ => ?_
  rw [Bool.not_eq_true, List.any_eq_false]
  refine forall₂_congr fun p _ => ?_
  rw [Bool.and_eq_true, beq_iff_eq, not_and]
  refine forall_congr' fun _ => ?_
  cases p.op <;> simp

theorem hasRoom_iff (s : State) (core : Nat) (op : EngOp) :
    HasRoom s core op ↔ ((s.core core).roomFor op && !s.queuesFor core op) = true := by
  rw [Bool.and_eq_true, Bool.not_eq_true', s.queuesFor_eq_false_iff, HasRoom, Core.roomFor]
  refine and_congr_left fun _ => ?_
  cases op.isMatrix with
  | true => simp
  | false => simp [State.freeCopy_isSome_iff]

/-- With room for an operation of the copy engine there is a lowest free slot. -/
theorem exists_lowestCopySlot {s : State} {core : Nat} {op : EngOp} (matrix : op.isMatrix = false)
    (room : HasRoom s core op) : ∃ k, LowestCopySlot s core k ∧ ∀ e, s.takeCopy core e = inCopySlot s core e k := by
  obtain ⟨free, -⟩ := room
  rw [matrix, if_neg Bool.false_ne_true, ← s.freeCopy_isSome_iff] at free
  obtain ⟨k, hk⟩ := Option.isSome_iff_exists.mp free
  exact ⟨k, (s.freeCopy_eq_some_iff core k).mp hk, fun e => by simp only [State.takeCopy, hk, inCopySlot, Option.getD_some]⟩

/-! ## Acceptance (R171) -/

theorem State.assignSlot_of_buf {s : State} {team i : Nat} {t : Team} {c : CBuf} (ht : s.team? team = some t)
    (hc : t.buf i = some c) : s.assignSlot team i =
      (s.setTeam { t with bufs := t.bufs.set i (some { c with nextAssign := (c.nextAssign + 1) % c.slots.length }) },
        some c.nextAssign) := by
  rw [Team.buf] at hc
  simp only [State.assignSlot, ht, hc]

theorem State.acceptEngine_arrives {s : State} {core : Nat} {e : EngEntry} {dst src len : W64} {dsp ssp ab : Nat}
    (op : e.op = .cpy dst src len dsp ssp ab) (empty : len = 0) (fits : copyMisfit dst src len dsp ssp = none) :
    s.acceptEngine core e = s.countArrival e.team ab none [] := by
  simp only [State.acceptEngine, op]
  exact if_pos (by rw [fits, decide_eq_true empty]; rfl)

theorem State.acceptEngine_copies {s : State} {core : Nat} {e : EngEntry} {dst src len : W64} {dsp ssp ab : Nat}
    (op : e.op = .cpy dst src len dsp ssp ab) (moves : len ≠ 0 ∨ copyMisfit dst src len dsp ssp ≠ none) :
    s.acceptEngine core e = s.takeCopy core e := by
  simp only [State.acceptEngine, op]
  refine if_neg fun h => ?_
  simp only [Bool.and_eq_true, decide_eq_true_eq, Option.isNone_iff_eq_none] at h
  exact moves.elim (· h.1) (· h.2)

/-! ## Operations handed to an engine -/

section HandOver

variable {i : Instr} {s : State} {g : Group} {op : EngOp}

theorem handOver_of_room (room : HasRoom (s.setGroup g) g.core op) :
    handOver i g s op = .seq ((s.setGroup g).acceptEngine g.core (entryOf s g op)) g 1 :=
  if_pos ((hasRoom_iff ..).mp room)

theorem handOver_of_no_room (full : ¬HasRoom (s.setGroup g) g.core op) :
    handOver i g s op = .seq (s.setGroup g) (g.addPend i (.engine op g.fpm g.runPc) s) 1 :=
  if_neg (mt (hasRoom_iff ..).mpr full)

/-- An instruction whose body hands an operation to an engine and then leaves a latch. -/
theorem engineIn_of_handOver {s0 : State} {latch : Option (List (List W32))} {takes : State → State → Prop}
    {body : Group → State → Done} (hx : exec i s0 = issue i s0 body)
    (hb : body g s0 = (handOver i g s op).mapGroup fun h => { h with latch := latch })
    (accepts : HasRoom (s.setGroup g) g.core op →
      takes (s.setGroup g) ((s.setGroup g).acceptEngine g.core (entryOf s g op)))
    (hi : Issues i s0 g) : EngineIn i s0 s g latch op takes := by
  refine ⟨fun room => ⟨_, accepts room, ?_⟩, fun full => ?_⟩
  · rw [hx, issue_of_issues hi, hb, handOver_of_room room]
    exact congrArg _ (retire_seq_after ..)
  · rw [hx, issue_of_issues hi, hb, handOver_of_no_room full]
    exact congrArg _ (retire_seq_after ..)

/-- An instruction whose body only hands an operation to an engine. -/
theorem engine_of_handOver {takes : State → State → Prop} {body : Group → State → Done}
    (hx : exec i s = issue i s body) (hb : body g s = handOver i g s op)
    (accepts : HasRoom (s.setGroup g) g.core op →
      takes (s.setGroup g) ((s.setGroup g).acceptEngine g.core (entryOf s g op)))
    (hi : Issues i s g) : Engine i s g op takes := by
  refine engineIn_of_handOver hx (hb.trans ?_) accepts hi
  by_cases room : HasRoom (s.setGroup g) g.core op
  · rw [handOver_of_room room]
    rfl
  · rw [handOver_of_no_room room]
    rfl

end HandOver

/-! ## Asynchronous barriers that are not initialised (R174) -/

theorem abarUninit_eq_false_iff (s : State) (g : Group) (n : BitVec 5) :
    s.abarUninit g n.toNat = false ↔ BarrierSet s g n := by
  rw [State.abarUninit, BarrierSet]
  cases s.team? g.team <;> simp

theorem abarUninit_of_not_barrierSet {s : State} {g : Group} {n : BitVec 5} (h : ¬BarrierSet s g n) :
    s.abarUninit g n.toNat = true := by
  rwa [← abarUninit_eq_false_iff, Bool.not_eq_false] at h

/-! ## `mmloop` (R180, R181) -/

theorem latchTaken_iff (s : State) (g : Group) : s.latchTaken g = true ↔
    ∃ h ∈ s.groups, h.uid ≠ g.uid ∧ h.core = g.core ∧ h.lane / 16 = g.lane / 16 ∧ h.latch ≠ none := by
  simp [State.latchTaken, Option.isSome_iff_ne_none, and_assoc]

/-- The operation that an `mmloop` hands to the matrix engine, with its A operand. -/
def mmloopOp (s : State) (g : Group) (d b : Fld) (binc : BitVec 11) (ab : BitVec 5) (z : Bool) (mode : BitVec 2)
    (nk : BitVec 3) (regs : List (List W32)) : EngOp :=
  .mmloop regs (g.readS (s.cyc g) d) (g.readS (s.cyc g) b) (nk.toNat + 1) mode.toNat binc.toNat z ab.toNat

theorem mmloopOp_updPart (s : State) (n : Nat) (f : Partition → Partition) :
    mmloopOp (s.updPart n f) = mmloopOp s := by
  funext g d b binc ab z mode nk regs
  simp only [mmloopOp, State.cyc, State.core, State.updPart_cores]

theorem entryOf_updPart (s : State) (n : Nat) (f : Partition → Partition) : entryOf (s.updPart n f) = entryOf s := by
  funext g op
  simp only [entryOf, State.updPart_tick]

/-- `t` is `w` with the operation at the end of the matrix queue of its core. -/
def JoinsQueue (s : State) (g : Group) (op : EngOp) (w t : State) : Prop :=
  t = w.setCore { w.core g.core with matrix := (w.core g.core).matrix ++ [entryOf s g op] }

/-- Under a full mask and with an initialised barrier an `mmloop` does not trap before it looks at the latch. -/
theorem mmloop_guards {s : State} {g : Group} {ab : BitVec 5} (full : ∀ t, t < g.width.n → Active g t)
    (set : BarrierSet s g ab) (x y z : Done) :
    (if g.active ≠ g.width.full then x else if s.abarUninit g ab.toNat then y else z) = z := by
  rw [if_neg (not_not.mpr (g.active_eq_full_iff.mpr full)), (abarUninit_eq_false_iff ..).mpr set, if_neg Bool.false_ne_true]

section Mmloop

variable {s : State} {g : Group} (e : Bool) (d a b : Fld) (binc : BitVec 11) {ab : BitVec 5} (z : Bool) {reuse : Bool}
  (mode : BitVec 2) (nk : BitVec 3)

theorem traps_mmloop_maskPartial (h : ¬∀ t, t < g.width.n → Active g t) :
    Traps (.mmloop e d a b binc ab z reuse mode nk) s g .maskPartial 0 :=
  traps_of_issue (Laws.exec_mmloop ..) (if_pos (mt g.active_eq_full_iff.mp h))

/-- A latch of another size than the loop's (R181, Table 6). -/
theorem traps_mmloop_latch (full : ∀ t, t < g.width.n → Active g t) (set : BarrierSet s g ab) {l : List (List W32)}
    (latched : g.latch = some l) (size : l.length ≠ 8 * (nk.toNat + 1)) :
    Traps (.mmloop e d a b binc ab z reuse mode nk) s g .illegalOperand 0 := by
  refine traps_of_issue (Laws.exec_mmloop ..) ((mmloop_guards full set ..).trans ?_)
  simp only [latched]
  exact if_pos size

theorem traps_mmloop_barrier (full : ∀ t, t < g.width.n → Active g t) (h : ¬BarrierSet s g ab) :
    Traps (.mmloop e d a b binc ab z reuse mode nk) s g .illegalOperand 0 :=
  traps_of_issue (Laws.exec_mmloop ..)
    ((if_neg (not_not.mpr (g.active_eq_full_iff.mpr full))).trans (if_pos (abarUninit_of_not_barrierSet h)))

/-- `mmloop` of a group that holds a latch of its size takes A from there (R181, Table 6). -/
theorem engineIn_mmloop_latched (full : ∀ t, t < g.width.n → Active g t) (set : BarrierSet s g ab) {l : List (List W32)}
    (latched : g.latch = some l) (size : l.length = 8 * (nk.toNat + 1))
    (hi : Issues (.mmloop e d a b binc ab z reuse mode nk) s g) :
    EngineIn (.mmloop e d a b binc ab z reuse mode nk) s s g (if reuse then some l else none)
      (mmloopOp s g d b binc ab z mode nk l) (JoinsQueue s g (mmloopOp s g d b binc ab z mode nk l)) := by
  refine engineIn_of_handOver (Laws.exec_mmloop ..) ((mmloop_guards full set ..).trans ?_) (fun _ => rfl) hi
  simp only [latched]
  exact if_neg (not_not.mpr size)

/-- `mmloop` of a group without a latch takes A from its registers (R181, Table 6). REUSE latches them, unless
another group of the subcore holds the latch: then the partition counts a bypass. -/
theorem engineIn_mmloop_registers (full : ∀ t, t < g.width.n → Active g t) (set : BarrierSet s g ab)
    (unlatched : g.latch = none) (hi : Issues (.mmloop e d a b binc ab z reuse mode nk) s g) :
    let op := mmloopOp s g d b binc ab z mode nk (g.slab a (8 * (nk.toNat + 1)))
    EngineIn (.mmloop e d a b binc ab z reuse mode nk) s
      (if reuse && s.latchTaken g then s.updPart g.part fun p => { p with latchbyp := p.latchbyp + 1 } else s) g
      (if reuse && !s.latchTaken g then some (g.slab a (8 * (nk.toNat + 1))) else none) op (JoinsQueue s g op) := by
  intro op
  refine engineIn_of_handOver (Laws.exec_mmloop ..) ((mmloop_guards full set ..).trans ?_) (fun _ => ?_) hi
  · simp only [unlatched]
    cases reuse with
    | false => rfl
    | true =>
      cases taken : s.latchTaken g with
      | false => rfl
      | true => simp only [op, ← mmloopOp_updPart s g.part fun p => { p with latchbyp := p.latchbyp + 1 }]; rfl
  · cases reuse && s.latchTaken g with
    | false => rfl
    | true => simp only [JoinsQueue, ← entryOf_updPart s g.part fun p => { p with latchbyp := p.latchbyp + 1 }]; rfl

end Mmloop

/-! ## The copy engine (R185, R188) -/

section Copies

variable {s : State} {g : Group} (e : Bool) (d a b : Fld) {ab : BitVec 5}

/-- `t` is `w` with the operation in the lowest copy slot that was free. -/
def TakesSlot (s : State) (g : Group) (op : EngOp) (w t : State) : Prop :=
  ∃ k, LowestCopySlot w g.core k ∧ t = inCopySlot w g.core (entryOf s g op) k

theorem takesSlot_takeCopy {op : EngOp} (matrix : op.isMatrix = false) (room : HasRoom (s.setGroup g) g.core op) :
    TakesSlot s g op (s.setGroup g) ((s.setGroup g).takeCopy g.core (entryOf s g op)) := by
  obtain ⟨k, lowest, takes⟩ := exists_lowestCopySlot matrix room
  exact ⟨k, lowest, takes _⟩

/-- The operation of a `cpy`. -/
def cpyOp (s : State) (g : Group) (d a b : Fld) (dsp ssp : BitVec 2) (ab : BitVec 5) : EngOp :=
  .cpy (g.readS (s.cyc g) d) (g.readS (s.cyc g) a) (g.readS (s.cyc g) b) dsp.toNat ssp.toNat ab.toNat

/-- The operation of a `cunpack`. -/
def cunpackOp (s : State) (g : Group) (d a b : Fld) (slice : Bool) (rows gran : BitVec 2) (ty : BitVec 3) (ab : BitVec 5) :
    EngOp :=
  .cunpack (g.readS (s.cyc g) d) (g.readS (s.cyc g) a) (g.readS (s.cyc g) b) slice (32 * (rows.toNat + 1)) gran.toNat
    ty.toNat ab.toNat

theorem traps_cpy (dsp ssp : BitVec 2) (unset : ¬BarrierSet s g ab) :
    Traps (.cpy e d a b dsp ssp ab) s g .illegalOperand 0 :=
  traps_of_issue (Laws.exec_cpy ..) (if_pos (abarUninit_of_not_barrierSet unset))

theorem traps_cunpack (slice : Bool) (rows gran : BitVec 2) (ty : BitVec 3) (unset : ¬BarrierSet s g ab) :
    Traps (.cunpack e d a b slice rows gran ty ab) s g .illegalOperand 0 :=
  traps_of_issue (Laws.exec_cunpack ..) (if_pos (abarUninit_of_not_barrierSet unset))

/-- A `cpy` whose barrier is initialised goes to the copy engine. -/
theorem engine_cpy (dsp ssp : BitVec 2) {takes : State → State → Prop} (set : BarrierSet s g ab)
    (accepts : HasRoom (s.setGroup g) g.core (cpyOp s g d a b dsp ssp ab) → takes (s.setGroup g)
      ((s.setGroup g).acceptEngine g.core (entryOf s g (cpyOp s g d a b dsp ssp ab))))
    (hi : Issues (.cpy e d a b dsp ssp ab) s g) :
    Engine (.cpy e d a b dsp ssp ab) s g (cpyOp s g d a b dsp ssp ab) takes :=
  engine_of_handOver (Laws.exec_cpy ..) (if_neg (Bool.not_eq_true _ ▸ (abarUninit_eq_false_iff ..).mpr set)) accepts hi

theorem engine_cunpack (slice : Bool) (rows gran : BitVec 2) (ty : BitVec 3) (set : BarrierSet s g ab)
    (hi : Issues (.cunpack e d a b slice rows gran ty ab) s g) :
    Engine (.cunpack e d a b slice rows gran ty ab) s g (cunpackOp s g d a b slice rows gran ty ab)
      (TakesSlot s g (cunpackOp s g d a b slice rows gran ty ab)) :=
  engine_of_handOver (Laws.exec_cunpack ..) (if_neg (Bool.not_eq_true _ ▸ (abarUninit_eq_false_iff ..).mpr set))
    (takesSlot_takeCopy rfl) hi

end Copies

/-- Settles O33: Table 6 of R181 by the latch and REUSE, and a copy by its length. -/
theorem engineInstructionsIssue : Obligations.EngineInstructionsIssue := by
  intro s g e d a b binc ab z reuse ssl mode dsp ssp rows gran nk ty r mm cp un cpOp unOp mmOp queued copied regs
  refine ⟨traps_mmloop_maskPartial e d a b binc z mode nk, traps_mmloop_barrier e d a b binc z mode nk, fun full set => ?_,
    fun unset => ⟨traps_cpy e d a b dsp ssp unset, traps_cunpack e d a b ssl rows gran ty unset⟩, fun set => ?_⟩
  · refine ⟨fun l latched size => traps_mmloop_latch e d a b binc z mode nk full set latched size,
      fun l latched size hi => engineIn_mmloop_latched e d a b binc z mode nk full set latched size hi,
      fun unlatched drop hi => ?_, fun unlatched keep hi others => ?_, fun unlatched keep hi other => ?_⟩
    · subst drop
      rw [Engine, unlatched]
      exact engineIn_mmloop_registers e d a b binc z mode nk full set unlatched hi
    · subst keep
      have free : s.latchTaken g = false := by
        rw [← Bool.not_eq_true, latchTaken_iff]
        rintro ⟨h, hh, uid, core, lane, held⟩
        exact held (others h hh uid core lane)
      have goes := engineIn_mmloop_registers e d a b binc z mode nk full set unlatched hi
      rw [free] at goes
      exact goes
    · subst keep
      have goes := engineIn_mmloop_registers e d a b binc z mode nk full set unlatched hi
      rw [(latchTaken_iff s g).mpr other] at goes
      exact goes
  · refine ⟨fun moves => engine_cpy e d a b dsp ssp set fun room => ?_,
      fun empty fits => engine_cpy e d a b dsp ssp set fun _ => State.acceptEngine_arrives rfl empty fits,
      engine_cunpack e d a b ssl rows gran ty set⟩
    rw [State.acceptEngine_copies rfl moves]
    exact takesSlot_takeCopy rfl room

end Sys2Proof.Machine
end

section
/-!
Asynchronous barriers (R174 to R176): the instructions, and one arrival.
-/

namespace Sys2Proof.Machine

open Sys2Proof Sys2Proof.Claims

/-! ## The instructions (R175) -/

/-- From `s` the instruction makes the rest of the machine `u`, its group as it was, at one cycle, and the run goes on. -/
def GoesTo (i : Instr) (s : State) (g : Group) (u : State) : Prop :=
  Issues i s g → exec i s = .next (after u g 1 (g.pc + lengthOf i) (endsRun i g))

theorem goesTo_of_issue {i : Instr} {s u : State} {g : Group} {body : Group → State → Done}
    (hx : exec i s = issue i s body) (hb : body g s = .seq u g 1) : GoesTo i s g u := by
  intro hi
  rw [hx, issue_of_issues hi, hb, retire_seq_after]

theorem traps_abarInit {s : State} {g : Group} (e : Bool) (a : Fld) (n : BitVec 5)
    (bad : (g.readS (s.cyc g) a).toNat = 0 ∨ 65535 < (g.readS (s.cyc g) a).toNat) :
    Traps (.abarInit e a n) s g .illegalOperand 0 :=
  traps_of_issue (Laws.exec_abarInit ..) (if_pos (by simpa using bad))

section Barrier

variable {s : State} {g : Group} {t : Team} (team : s.team? g.team = some t) (e : Bool) (a : Fld) (n : BitVec 5)

include team

theorem setAbar_of_team (k : Nat) (f : Abar → Abar) :
    s.setAbar g k f = s.setTeam { t with abars := t.abars.set k (f (t.abar k)) } := by
  rw [State.setAbar, team]

theorem abarUninit_of_team (k : Nat) : s.abarUninit g k = decide ((t.abar k).expected = 0) := by
  rw [State.abarUninit, team]

theorem goesTo_abarInit {v : Nat} (value : (g.readS (s.cyc g) a).toNat = v) (low : 1 ≤ v) (high : v ≤ 65535) :
    let b := t.abar n.toNat
    let u := s.setTeam { t with
      abars := t.abars.set n.toNat ⟨v, v, false, false, 0, 0, true, b.arrivals, [], b.missed ++ b.crossed⟩ }
    GoesTo (.abarInit e a n) s g (u.wakeWaits ((u.groups.filter fun h => h.team == g.team).map (·.uid))) := by
  refine goesTo_of_issue (Laws.exec_abarInit ..) ?_
  have valid : ¬(decide (v = 0) || decide (65535 < v)) = true := by simp; omega
  simp only [value, if_neg valid, setAbar_of_team team]
  rfl

theorem goesTo_abarArrive (init : (t.abar n.toNat).expected ≠ 0) : GoesTo (.abarArrive e n) s g (s.setTeam { t with
    abars := t.abars.set n.toNat { t.abar n.toNat with arrivals := (t.abar n.toNat).arrivals + 1 } }) := by
  refine goesTo_of_issue (Laws.exec_abarArrive ..) ?_
  rw [abarUninit_of_team team, decide_eq_false init, setAbar_of_team team]
  rfl

theorem exec_abarWait_eq (init : (t.abar n.toNat).expected ≠ 0) (hi : Issues (.abarWait e a n) s g) :
    exec (.abarWait e a n) s = .next (after s g 1 (g.pc + lengthOf (.abarWait e a n))
      (some (.abarWait n.toNat ((g.readS (s.cyc g) a).toNat % 2 == 1)))) := by
  refine ends_of_issue (Laws.exec_abarWait ..) ?_ hi
  have parity : (g.readS (s.cyc g) a).getLsbD 0 = ((g.readS (s.cyc g) a).toNat % 2 == 1) := by
    rw [BitVec.getLsbD, Nat.testBit_zero, Bool.beq_eq_decide_eq]
  rw [abarUninit_of_team team, decide_eq_false init, parity]
  rfl

theorem traps_abarArrive (unset : (t.abar n.toNat).expected = 0) : Traps (.abarArrive e n) s g .illegalOperand 0 :=
  traps_of_issue (Laws.exec_abarArrive ..) (if_pos (by rw [abarUninit_of_team team, decide_eq_true unset]))

theorem traps_abarWait (unset : (t.abar n.toNat).expected = 0) : Traps (.abarWait e a n) s g .illegalOperand 0 :=
  traps_of_issue (Laws.exec_abarWait ..) (if_pos (by rw [abarUninit_of_team team, decide_eq_true unset]))

end Barrier

theorem asyncBarrierInstructions : AsyncBarrierInstructions := by
  intro s g t e a n team v b put goes
  exact ⟨fun low high => goesTo_abarInit team e a n rfl low high, traps_abarInit e a n,
    fun init => ⟨goesTo_abarArrive team e n init, exec_abarWait_eq team e a n init⟩,
    fun unset => ⟨traps_abarArrive team e n unset, traps_abarWait team e a n unset⟩⟩

/-! ## One arrival (R174, R176) -/

/-- A barrier as an arrival finds it: the first of a phase clears what the phase before left. -/
def Abar.opened (b : Abar) : Abar :=
  if b.fresh then
    { b with failed := false, detail := 0, taddr := 0, fresh := false, missed := b.missed ++ b.crossed, crossed := [] }
  else b

/-- A barrier with the failure of an arrival in its record. -/
def Abar.recorded (b : Abar) : Option (Nat × W64) → Abar
  | none => b
  | some (d, x) =>
    if b.failed then { b with detail := if b.detail.toNat % 256 < 255 then b.detail + 1 else b.detail }
    else { b with failed := true, detail := BitVec.ofNat 32 (d + 1), taddr := x }

/-- A barrier with its pending arrivals counted down: the last one of a phase completes it. -/
def Abar.counted (b : Abar) : Abar :=
  if b.pending ≤ 1 then { b with phase := !b.phase, pending := b.expected, fresh := true }
  else { b with pending := b.pending - 1 }

/-- An arrival opens the phase, records its failure and is counted. -/
theorem Abar.arrive_eq (b : Abar) (fail : Option (Nat × W64)) (cross : List Crossing) :
    b.arrive fail cross =
      Abar.counted { b.opened.recorded fail with crossed := (b.opened.recorded fail).crossed ++ cross } := by
  cases fail <;> rfl

/-- What the count of a barrier is made of stays as it was when a phase is opened and a failure recorded. -/
theorem Abar.recorded_opened_count (b : Abar) (fail : Option (Nat × W64)) :
    (b.opened.recorded fail).pending = b.pending ∧ (b.opened.recorded fail).expected = b.expected ∧
      (b.opened.recorded fail).phase = b.phase := by
  have opened : b.opened.pending = b.pending ∧ b.opened.expected = b.expected ∧ b.opened.phase = b.phase := by
    unfold Abar.opened
    split <;> exact ⟨rfl, rfl, rfl⟩
  cases fail with
  | none => exact opened
  | some f =>
    rw [Abar.recorded]
    split <;> exact opened

/-- An arrival's record is that of its failure: to count it changes nothing there. -/
theorem Abar.arrive_record (b : Abar) (fail : Option (Nat × W64)) (cross : List Crossing) :
    (b.arrive fail cross).failed = (b.opened.recorded fail).failed ∧
      (b.arrive fail cross).detail = (b.opened.recorded fail).detail ∧
      (b.arrive fail cross).taddr = (b.opened.recorded fail).taddr := by
  rw [Abar.arrive_eq, Abar.counted]
  split <;> exact ⟨rfl, rfl, rfl⟩

theorem Abar.arrive_expected (b : Abar) (fail : Option (Nat × W64)) (cross : List Crossing) :
    (b.arrive fail cross).expected = b.expected := by
  obtain ⟨-, expected, -⟩ := b.recorded_opened_count fail
  rw [Abar.arrive_eq, Abar.counted]
  split <;> exact expected

theorem Abar.arrive_of_more {b : Abar} (more : 2 ≤ b.pending) (fail : Option (Nat × W64)) (cross : List Crossing) :
    (b.arrive fail cross).pending = b.pending - 1 ∧ (b.arrive fail cross).phase = b.phase := by
  obtain ⟨pending, -, phase⟩ := b.recorded_opened_count fail
  rw [Abar.arrive_eq, Abar.counted, if_neg (by simp only [pending]; omega)]
  exact ⟨congrArg (· - 1) pending, phase⟩

theorem Abar.arrive_of_last {b : Abar} (last : b.pending ≤ 1) (fail : Option (Nat × W64)) (cross : List Crossing) :
    (b.arrive fail cross).pending = b.expected ∧ (b.arrive fail cross).phase = !b.phase ∧
      (b.arrive fail cross).fresh = true := by
  obtain ⟨pending, expected, phase⟩ := b.recorded_opened_count fail
  rw [Abar.arrive_eq, Abar.counted, if_pos (by simpa only [pending] using last)]
  exact ⟨expected, congrArg (!·) phase, rfl⟩

theorem Abar.opened_failed_eq_false {b : Abar} (h : b.fresh = true ∨ b.failed = false) : b.opened.failed = false := by
  unfold Abar.opened
  split
  · rfl
  · next stale => exact h.resolve_left stale

theorem Abar.opened_of_stale {b : Abar} (stale : b.fresh = false) : b.opened = b := by
  rw [Abar.opened, stale, if_neg Bool.false_ne_true]

theorem Abar.opened_of_fresh {b : Abar} (fresh : b.fresh = true) :
    b.opened.failed = false ∧ b.opened.detail = 0 ∧ b.opened.taddr = 0 := by
  rw [Abar.opened, if_pos fresh]
  exact ⟨rfl, rfl, rfl⟩

theorem oneArrivalOnABarrier : OneArrivalOnABarrier := by
  intro b fail c
  obtain ⟨failed, detail, taddr⟩ := b.arrive_record fail []
  refine ⟨fun more => Abar.arrive_of_more more fail [], fun last => Abar.arrive_of_last last fail [],
    b.arrive_expected fail [], ?_⟩
  simp only [c, failed, detail, taddr]
  refine ⟨?_, ?_, ?_, ?_⟩
  · rintro rfl fresh
    exact Abar.opened_of_fresh fresh
  · rintro rfl stale
    rw [Abar.opened_of_stale stale]
    exact ⟨rfl, rfl, rfl⟩
  · rintro d x rfl first
    rw [Abar.recorded, Abar.opened_failed_eq_false first]
    exact ⟨rfl, rfl, rfl⟩
  · rintro d x rfl stale before
    rw [Abar.opened_of_stale stale, Abar.recorded, if_pos before]
    exact ⟨before, rfl, rfl⟩

/-- Settles O35: each form of `abar` by its check, and an arrival as the phase opened, the failure recorded and the count. -/
theorem asyncBarrierResults : Obligations.AsyncBarrierResults := ⟨asyncBarrierInstructions, oneArrivalOnABarrier⟩

end Sys2Proof.Machine
end

section
/-!
Circular buffers (R191 to R196): the instructions, and the slot that a `cbfree` gives back.
-/

namespace Sys2Proof.Machine

open Sys2Proof Sys2Proof.Claims

/-! ## Geometries (R193) -/

/-- A base and a geometry give slots of 1 to 1024 units of 64 bytes that lie in the window of a team. -/
def ValidGeometry (t : Team) (base geo : W64) : Prop :=
  1 ≤ geo.toNat % 2 ^ 16 ∧ geo.toNat % 2 ^ 16 ≤ 1024 ∧ geo.toNat < 2 ^ 24 ∧ base.toNat % 64 = 0 ∧
    base.toNat + (geo.toNat / 2 ^ 16 % 2 ^ 8 + 1) * (geo.toNat % 2 ^ 16) * 64 ≤
      if t.pair then 2 * t.sliceLen else t.sliceLen

/-- The buffer of a base and a geometry, every slot free. -/
def freshBuf (base geo : W64) : CBuf :=
  ⟨base.toNat, geo.toNat % 2 ^ 16, List.replicate (geo.toNat / 2 ^ 16 % 2 ^ 8 + 1) .free, 0, 0, 0, [], []⟩

theorem bits_63_24_ne_zero_iff (geo : W64) : bits geo.toNat 63 24 ≠ 0 ↔ 2 ^ 24 ≤ geo.toNat := by
  rw [bits_top geo.isLt (by decide)]
  omega

theorem not_validGeometry_iff (t : Team) (base geo : W64) : ¬ValidGeometry t base geo ↔
    (((geo.toNat % 2 ^ 16 = 0 ∨ 1024 < geo.toNat % 2 ^ 16) ∨ 2 ^ 24 ≤ geo.toNat) ∨ base.toNat % 64 ≠ 0) ∨
      (if t.pair then 2 * t.sliceLen else t.sliceLen) <
        base.toNat + (geo.toNat / 2 ^ 16 % 2 ^ 8 + 1) * (geo.toNat % 2 ^ 16) * 64 := by
  rw [ValidGeometry]
  omega

/-- The checks of `initBuf` are those of the geometry, on the fields of its word. -/
theorem initBuf_eq (t : Team) (base geo : W64) [Decidable (ValidGeometry t base geo)] :
    initBuf t base geo = if ValidGeometry t base geo then some (freshBuf base geo) else none := by
  have size : bits geo.toNat 15 0 = geo.toNat % 2 ^ 16 := by rw [bits_eq, Nat.pow_zero, Nat.div_one]
  have slots : bits geo.toNat 23 16 = geo.toNat / 2 ^ 16 % 2 ^ 8 := bits_eq ..
  unfold initBuf
  by_cases valid : ValidGeometry t base geo
  · rw [if_pos valid]
    simp only [size, slots]
    refine if_neg ?_
    simpa only [size, slots, Bool.or_eq_true, decide_eq_true_eq, bits_63_24_ne_zero_iff, ← not_validGeometry_iff, not_not]
  · rw [if_neg valid]
    refine if_pos ?_
    simpa only [size, slots, Bool.or_eq_true, decide_eq_true_eq, bits_63_24_ne_zero_iff, ← not_validGeometry_iff]

theorem initBuf_of_valid {t : Team} {base geo : W64} (valid : ValidGeometry t base geo) :
    initBuf t base geo = some (freshBuf base geo) := by
  classical rw [initBuf_eq, if_pos valid]

theorem initBuf_of_invalid {t : Team} {base geo : W64} (invalid : ¬ValidGeometry t base geo) :
    initBuf t base geo = none := by
  classical rw [initBuf_eq, if_neg invalid]

/-! ## The slot given back (R191, R196) -/

section Slots

variable {c : CBuf}

/-- The popped slots of a buffer. -/
def CBuf.poppedSlots (c : CBuf) : List Nat := (List.range c.slots.length).filter fun k => c.slots.getD k .free == .popped

theorem CBuf.mem_poppedSlots {k : Nat} : k ∈ c.poppedSlots ↔ c.slots[k]? = some .popped := by
  rw [poppedSlots, List.mem_filter, List.mem_range, beq_iff_eq, List.getD_eq_getElem?_getD]
  constructor
  · rintro ⟨inside, popped⟩
    rw [List.getElem?_eq_getElem inside] at popped ⊢
    exact congrArg some popped
  · intro popped
    obtain ⟨inside, -⟩ := List.getElem?_eq_some_iff.mp popped
    exact ⟨inside, by rw [popped]; rfl⟩

/-- The model's search is that for the popped slot of least age. -/
theorem CBuf.oldestPopped_eq_argmin (c : CBuf) : c.oldestPopped = c.poppedSlots.argmin c.age := by
  rw [CBuf.oldestPopped, List.argmin, CBuf.poppedSlots]
  congr 1
  funext best k
  cases best <;> rfl

theorem CBuf.oldestPopped_eq_none (unpopped : ∀ x ∈ c.slots, x ≠ .popped) : c.oldestPopped = none := by
  rw [CBuf.oldestPopped_eq_argmin, List.argmin_eq_none, List.eq_nil_iff_forall_not_mem]
  exact fun k hk => unpopped _ (List.mem_of_getElem? (CBuf.mem_poppedSlots.mp hk)) rfl

theorem CBuf.oldestPopped_eq_some {k : Nat} (popped : c.slots[k]? = some .popped)
    (least : ∀ j, c.slots[j]? = some .popped → j ≠ k → c.age k < c.age j) : c.oldestPopped = some k := by
  rw [CBuf.oldestPopped_eq_argmin, List.argmin_eq_some_iff]
  have other {j : Nat} (hj : j ∈ c.poppedSlots) (ne : j ≠ k) : c.age k < c.age j := least j (CBuf.mem_poppedSlots.mp hj) ne
  refine ⟨CBuf.mem_poppedSlots.mpr popped, fun j hj => ?_, fun j hj old => ?_⟩
  · obtain rfl | ne := eq_or_ne j k
    · exact le_rfl
    · exact (other hj ne).le
  · obtain rfl | ne := eq_or_ne j k
    · exact le_rfl
    · exact absurd (other hj ne) old.not_gt

/-- A slot given back where none stands before it: the oldest one moves on past it, and a later one is kept ahead. -/
theorem CBuf.giveBack_of_ahead_nil (none : c.ahead = []) (k : Nat) : c.giveBack k =
    if k = c.oldest then { c with slots := c.slots.set k .freeing, oldest := (k + 1) % c.slots.length }
    else { c with slots := c.slots.set k .freeing, ahead := [k] } := by
  by_cases first : k = c.oldest
  · subst first
    simp [CBuf.giveBack, CBuf.skipFreed, none]
  · simp [CBuf.giveBack, CBuf.skipFreed, none, first, Ne.symm first]

end Slots

/-! ## The instructions -/

/-- What holds up the release of a buffer: fills outstanding, bound pops, and slots that are popped or still being freed. -/
theorem inUse_iff (c : CBuf) (fills : Bool) : (fills || !c.bound.isEmpty || c.slots.any SlotSt.held) = true ↔
    fills = true ∨ c.bound ≠ [] ∨ ∃ x ∈ c.slots, x = .popped ∨ x = .freeing := by
  have held (x : SlotSt) : x.held = true ↔ x = .popped ∨ x = .freeing := by cases x <;> simp [SlotSt.held]
  simp only [Bool.or_eq_true, Bool.not_eq_true', List.isEmpty_eq_false_iff, List.any_eq_true, held, or_assoc]

/-- An accepted push takes the next slot of its ring and a copy slot. -/
theorem acceptEngine_push {s : State} {core i : Nat} {e : EngEntry} {src len : W64} {ssp : Nat} {slot : Option Nat}
    {t : Team} {c : CBuf} (op : e.op = .cbpush i src len ssp slot) (team : s.team? e.team = some t)
    (buf : t.buf i = some c) : s.acceptEngine core e =
      (s.setTeam (t.setBuf i (some { c with nextAssign := (c.nextAssign + 1) % c.slots.length }))).takeCopy core
        { e with op := .cbpush i src len ssp (some c.nextAssign) } := by
  simp only [State.acceptEngine, op, State.assignSlot_of_buf team buf]
  rfl

section Buffers

variable {s : State} {g : Group} {t : Team} (team : s.team? g.team = some t) (e : Bool) (d a b : Fld) (ssp : BitVec 2)
  (n : BitVec 5)

include team

/-- `cbinit` of a buffer that another team owns. -/
theorem traps_cbinit_taken (taken : s.bufTaken t g.core n.toNat = true) :
    Traps (.cbinit e a b n) s g .cbMisuse 2 := by
  refine traps_of_issue (Laws.exec_cbinit ..) ?_
  simp only [team, if_pos taken]
  rfl

section Cbinit

variable (own : s.bufTaken t g.core n.toNat = false)

include own

theorem goesTo_cbinit (none : t.buf (t.bufIx g.core n.toNat) = none)
    (valid : ValidGeometry t (g.readS (s.cyc g) a) (g.readS (s.cyc g) b)) :
    GoesTo (.cbinit e a b n) s g (s.setTeam (t.setBuf (t.bufIx g.core n.toNat)
      (some (freshBuf (g.readS (s.cyc g) a) (g.readS (s.cyc g) b))))) := by
  refine goesTo_of_issue (Laws.exec_cbinit ..) ?_
  simp only [team, own, none, initBuf_of_valid valid]
  rfl

theorem traps_cbinit_geometry (none : t.buf (t.bufIx g.core n.toNat) = none)
    (invalid : ¬ValidGeometry t (g.readS (s.cyc g) a) (g.readS (s.cyc g) b)) :
    Traps (.cbinit e a b n) s g .cbMisuse 3 := by
  refine traps_of_issue (Laws.exec_cbinit ..) ?_
  simp only [team, own, none, initBuf_of_invalid invalid]
  rfl

variable {c : CBuf} (buf : t.buf (t.bufIx g.core n.toNat) = some c)

include buf

/-- Only geometry 0 is taken by a buffer that is initialised. -/
theorem traps_cbinit_again (geo : g.readS (s.cyc g) b ≠ 0) : Traps (.cbinit e a b n) s g .cbMisuse 2 := by
  refine traps_of_issue (Laws.exec_cbinit ..) ?_
  simp only [team, own, buf]
  exact if_pos geo

theorem traps_cbinit_inUse (geo : g.readS (s.cyc g) b = 0)
    (used : s.fillsOut t.uid g.core (t.bufIx g.core n.toNat) = true ∨ c.bound ≠ [] ∨
      ∃ x ∈ c.slots, x = .popped ∨ x = .freeing) : Traps (.cbinit e a b n) s g .cbMisuse 6 := by
  refine traps_of_issue (Laws.exec_cbinit ..) ?_
  simp only [team, own, buf, geo, Bool.false_eq_true, if_false, ne_eq, not_true_eq_false]
  exact if_pos ((inUse_iff ..).mpr used)

theorem goesTo_cbinit_release (geo : g.readS (s.cyc g) b = 0)
    (filled : s.fillsOut t.uid g.core (t.bufIx g.core n.toNat) = false) (bound : c.bound = [])
    (idle : ∀ x ∈ c.slots, x ≠ .popped ∧ x ≠ .freeing) :
    GoesTo (.cbinit e a b n) s g (s.setTeam (t.setBuf (t.bufIx g.core n.toNat) none)) := by
  refine goesTo_of_issue (Laws.exec_cbinit ..) ?_
  simp only [team, own, buf, geo, Bool.false_eq_true, if_false, ne_eq, not_true_eq_false]
  refine if_neg (mt (inUse_iff ..).mp ?_)
  rintro (fills | pops | ⟨x, hx, popped | freeing⟩)
  · exact Bool.false_ne_true (filled.symm.trans fills)
  · exact pops bound
  · exact (idle x hx).1 popped
  · exact (idle x hx).2 freeing

end Cbinit

/-- The misuse of a buffer that is not initialised. -/
theorem traps_of_no_buf (none : t.buf (t.bufIx g.core n.toNat) = none) :
    Traps (.cbpush e a b ssp n) s g .cbMisuse 1 ∧ Traps (.cbpop e d n) s g .cbMisuse 1 ∧
      Traps (.cbfree e n) s g .cbMisuse 1 := by
  refine ⟨traps_of_issue (Laws.exec_cbpush ..) ?_, traps_of_issue (Laws.exec_cbpop ..) ?_,
    traps_of_issue (Laws.exec_cbfree ..) ?_⟩ <;>
  · simp only [team, Option.bind_some, none, Option.map_none]
    rfl

section Initialised

variable {c : CBuf} (buf : t.buf (t.bufIx g.core n.toNat) = some c)

include buf

theorem traps_cbpush_length (bad : (g.readS (s.cyc g) b).toNat = 0 ∨ c.size * 64 < (g.readS (s.cyc g) b).toNat ∨
    (g.readS (s.cyc g) b).toNat % 4 ≠ 0) : Traps (.cbpush e a b ssp n) s g .cbMisuse 4 := by
  refine traps_of_issue (Laws.exec_cbpush ..) ?_
  simp only [team, Option.bind_some, buf, Option.map_some]
  refine if_pos ?_
  simpa [← BitVec.toNat_inj, or_assoc] using bad

/-- `cbpush` takes the next slot of the ring and the lowest free copy slot. -/
theorem engine_cbpush (nonempty : (g.readS (s.cyc g) b).toNat ≠ 0) (fits : (g.readS (s.cyc g) b).toNat ≤ c.size * 64)
    (words : (g.readS (s.cyc g) b).toNat % 4 = 0) (hi : Issues (.cbpush e a b ssp n) s g) :
    Engine (.cbpush e a b ssp n) s g
      (.cbpush (t.bufIx g.core n.toNat) (g.readS (s.cyc g) a) (g.readS (s.cyc g) b) ssp.toNat none) fun w u =>
        ∃ k, LowestCopySlot w g.core k ∧ u = inCopySlot (w.setTeam (t.setBuf (t.bufIx g.core n.toNat)
          (some { c with nextAssign := (c.nextAssign + 1) % c.slots.length }))) g.core
          (entryOf s g (.cbpush (t.bufIx g.core n.toNat) (g.readS (s.cyc g) a) (g.readS (s.cyc g) b) ssp.toNat
            (some c.nextAssign))) k := by
  refine engine_of_handOver (Laws.exec_cbpush ..) ?_ (fun room => ?_) hi
  · simp only [team, Option.bind_some, buf, Option.map_some]
    refine if_neg ?_
    simpa [← BitVec.toNat_inj, nonempty, words] using fits
  · have left : HasRoom ((s.setGroup g).setTeam (t.setBuf (t.bufIx g.core n.toNat)
        (some { c with nextAssign := (c.nextAssign + 1) % c.slots.length }))) g.core _ := room
    obtain ⟨k, lowest, takes⟩ := exists_lowestCopySlot rfl left
    exact ⟨k, lowest, (acceptEngine_push rfl team buf).trans (takes _)⟩

/-- `cbpop` binds the next slot to pop. -/
theorem handsIn_cbpop (hi : Issues (.cbpop e d n) s g) :
    HandsIn (.cbpop e d n) s (s.setTeam (t.setBuf (t.bufIx g.core n.toNat) (some { c with
      nextPop := (c.nextPop + 1) % c.slots.length
      bound := c.bound ++ [(c.nextPop, g.uid, g.ticket)] }))) g (.cbpop (t.bufIx g.core n.toNat) c.nextPop d) 1
      fun w => w.servePop t.uid (t.bufIx g.core n.toNat) c.nextPop := by
  refine handsIn_of_deferred (Laws.exec_cbpop ..) ?_ hi
  simp only [team, Option.bind_some, buf, Option.map_some]

theorem traps_cbfree (unpopped : ∀ x ∈ c.slots, x ≠ .popped) : Traps (.cbfree e n) s g .cbMisuse 5 := by
  refine traps_of_issue (Laws.exec_cbfree ..) ?_
  simp only [team, Option.bind_some, buf, Option.map_some, CBuf.oldestPopped_eq_none unpopped]
  rfl

theorem goesTo_cbfree {k : Nat} (oldest : c.oldestPopped = some k) :
    GoesTo (.cbfree e n) s g (s.setTeam (t.setBuf (t.bufIx g.core n.toNat) (some (c.giveBack k)))) := by
  refine goesTo_of_issue (Laws.exec_cbfree ..) ?_
  simp only [team, Option.bind_some, buf, Option.map_some, oldest]

end Initialised

end Buffers

/-- Settles O34: each instruction by the checks of its body, and the slot freed as the popped one of least age. -/
theorem circularBufferResults : Obligations.CircularBufferResults := by
  intro s g t e d a b ssp n team r i put goes mis size slots fits len
  refine ⟨traps_cbinit_taken team e a b n, fun own => ?_, traps_of_no_buf team e d a b ssp n, fun c buf => ?_⟩
  · exact ⟨goesTo_cbinit team e a b n own, traps_cbinit_geometry team e a b n own,
      fun c buf => traps_cbinit_again team e a b n own buf, fun c buf => goesTo_cbinit_release team e a b n own buf,
      fun c buf => traps_cbinit_inUse team e a b n own buf⟩
  · exact ⟨traps_cbpush_length team e a b ssp n buf, engine_cbpush team e a b ssp n buf, handsIn_cbpop team e d n buf,
      traps_cbfree team e n buf, fun k popped least =>
        ⟨goesTo_cbfree team e n buf (CBuf.oldestPopped_eq_some popped least),
          fun none => CBuf.giveBack_of_ahead_nil none k⟩⟩

end Sys2Proof.Machine
end

section
/-!
The machine right after reset (R307, R308, R319, R330, R337).
-/

namespace Sys2Proof.Machine

open Sys2Proof Sys2Proof.Claims

/-- Every entry of a list of copies is the copy. -/
theorem exists_getElem?_replicate {α : Type} {P : α → Prop} {n k : Nat} {a : α} (hk : k < n) (holds : P a) :
    ∃ x, (List.replicate n a)[k]? = some x ∧ P x :=
  ⟨a, List.getElem?_replicate_of_lt hk, holds⟩

theorem getD_replicate {α : Type} {n k : Nat} (a d : α) (hk : k < n) : (List.replicate n a).getD k d = a := by
  rw [List.getD_eq_getElem?_getD, List.getElem?_replicate_of_lt hk, Option.getD_some]

/-- Settles O56: `State.reset` writes out each register's value, and memory lists nothing. -/
theorem stateRightAfterReset : Obligations.StateRightAfterReset := by
  refine ⟨rfl, rfl, rfl, rfl, fun a => ⟨rfl, rfl⟩, rfl, rfl, rfl, rfl, rfl, rfl, rfl, rfl, rfl, fun c hc => ?_, fun p hp => ?_,
    fun c hc => ?_⟩
  · exact ⟨getD_replicate 0 1 hc, getD_replicate 0 1 hc⟩
  · exact exists_getElem?_replicate hp ⟨rfl, rfl, rfl, rfl, rfl⟩
  · exact exists_getElem?_replicate hc ⟨rfl, rfl, rfl, rfl, rfl⟩

end Sys2Proof.Machine
end

section
/-!
The share instructions that need no gate (R200 to R202).
-/

namespace Sys2Proof.Machine

open Sys2Proof Sys2Proof.Claims

/-! ## The party of `crole0` -/

theorem Group.localParty_of_isParty {g : Group} {p : Nat} (h : IsParty g p) : g.localParty = some p := by
  obtain ⟨bound, rfl, below⟩ := h
  simp only [Group.localParty, bound, below, ne_eq, not_false_eq_true, decide_true, Bool.and_self, if_true]

theorem Group.localParty_of_no_party {g : Group} (h : ¬∃ p, IsParty g p) : g.localParty = none := by
  rw [Group.localParty, if_neg]
  rw [Bool.and_eq_true, decide_eq_true_eq, decide_eq_true_eq]
  exact fun ⟨bound, below⟩ => h ⟨_, bound, rfl, below⟩

/-! ## Values -/

theorem shareWord_eq (k n : Nat) : shareWord k n = BitVec.ofNat 32 (n % 2 ^ k) := rfl

/-- A residue may be taken of the operands first. -/
theorem shareWord_congr {k a b : Nat} (h : a % 2 ^ k = b % 2 ^ k) : shareWord k a = BitVec.ofNat 32 (b % 2 ^ k) := by
  rw [shareWord_eq, h]

/-- `vstrunc` at the second party takes the quotient of the negated share, and negates it (R202). -/
theorem truncShare_mod (k f p n : Nat) : truncShare k f p (n % 2 ^ k) % 2 ^ k =
    (if p = 0 then n % 2 ^ k / 2 ^ f else 2 ^ k - (2 ^ k - n % 2 ^ k) % 2 ^ k / 2 ^ f) % 2 ^ k := by
  rw [truncShare]
  split
  · rfl
  · split
    next zero => rw [zero, Nat.sub_zero, Nat.mod_self, Nat.zero_div, Nat.sub_zero, Nat.mod_self, Nat.zero_mod]
    next some =>
      rw [kmod, Nat.mod_mod, Nat.mod_eq_of_lt (a := 2 ^ k - n % 2 ^ k)]
      exact Nat.sub_lt (Nat.two_pow_pos k) (Nat.pos_of_ne_zero some)

/-- A difference modulo 2^k of residues. -/
theorem subMod_residues (k x y : Nat) :
    subMod k (x % 2 ^ k) (y % 2 ^ k) % 2 ^ k = (x % 2 ^ k + (2 ^ k - y % 2 ^ k)) % 2 ^ k := by
  rw [subMod, kmod, Nat.mod_mod, Nat.mod_mod, Nat.mod_mod, Nat.add_sub_assoc (Nat.mod_lt _ (Nat.two_pow_pos k)).le]

/-! ## The forms -/

section Forms

variable {i : Instr} {s : State} {g : Group} {k : Nat} {d a b f : Fld}

theorem writes_of_share2 {op val : Nat → Nat → Nat} (hx : exec i s = share2 i s k d a b op)
    (hv : ∀ x y, op (x % 2 ^ k) (y % 2 ^ k) % 2 ^ k = val x y % 2 ^ k) :
    Writes i s g false d ((g.v a).isU = true ∧ (g.v b).isU = true)
      (fun t => BitVec.ofNat 32 (val ((g.v a).get t).toNat ((g.v b).get t).toNat % 2 ^ k)) := by
  refine writes_of_mapV hx rfl (Bool.and_eq_true ..).symm.to_iff (fun hu x y => ?_) fun t => shareWord_congr (hv _ _)
  obtain ⟨ha, hb⟩ := (Bool.and_eq_true ..).to_iff.mp hu
  simp only [Group.share, VReg.get_of_isU ha x y, VReg.get_of_isU hb x y]

theorem writes_of_shareSum (hx : exec i s = shareSum i s k d a) : Writes i s g false d False
    (fun _ => BitVec.ofNat 32 (((actives g).map fun t => ((g.v a).get t).toNat % 2 ^ k).sum % 2 ^ k)) :=
  writes_of_crossInstr (hx.trans (by rw [shareSum])) fun _ => by rw [shareWord_eq, Group.ts, ← actives_eq]; rfl

/-- A body that writes an element-wise result for the issuing group. -/
theorem writes_of_issue {uni : Prop} {val h : Nat → W32} {allU : Bool} {body : Group → State → Done}
    (hx : exec i s = issue i s body) (hb : body g s = .seq s (g.setV d (g.mapV false allU h)) (g.vcost false))
    (hu : uni ↔ allU = true) (same : allU = true → ∀ x y, h x = h y) (hv : ∀ t, h t = val t) :
    Writes i s g false d uni val := by
  intro hi
  have writes : exec i s = vecInstr i s false d fun _ _ => g.mapV false allU h := by
    rw [hx, issue_of_issues hi, hb, vecInstr, issue_of_issues hi]
  exact writes_of_mapV writes rfl hu same hv hi

/-- A public value is added at party 0 only. -/
theorem writes_of_shareAddPublic {p : Nat} (party : IsParty g p) (hx : exec i s = shareAddPublic i s k d a b) :
    Writes i s g false d ((g.v a).isU = true ∧ (g.v b).isU = true) (fun t => BitVec.ofNat 32
      ((if p = 0 then ((g.v a).get t).toNat + ((g.v b).get t).toNat else ((g.v a).get t).toNat) % 2 ^ k)) := by
  refine writes_of_issue (h := fun t => shareWord k (if p = 0 then g.share k a t + g.share k b t else g.share k a t)) hx ?_
    (Bool.and_eq_true ..).symm.to_iff (fun hu x y => ?_) fun t => ?_
  · simp only [Group.localParty_of_isParty party]
  · obtain ⟨ha, hb⟩ := (Bool.and_eq_true ..).to_iff.mp hu
    simp only [Group.share, VReg.get_of_isU ha x y, VReg.get_of_isU hb x y]
  · refine shareWord_congr ?_
    split
    · exact (Nat.add_mod ..).symm
    · exact Nat.mod_mod ..

theorem writes_of_shareTrunc {p : Nat} (party : IsParty g p) (two : roleNp (g.crole.getD 0 0) = 2)
    (hx : exec i s = shareTrunc i s k d a f) : Writes i s g false d ((g.v a).isU = true) (fun t => BitVec.ofNat 32
      ((if p = 0 then ((g.v a).get t).toNat % 2 ^ k / 2 ^ f.toNat
        else 2 ^ k - (2 ^ k - ((g.v a).get t).toNat % 2 ^ k) % 2 ^ k / 2 ^ f.toNat) % 2 ^ k)) := by
  refine writes_of_issue hx ?_ Iff.rfl (fun hu x y => ?_) fun t => shareWord_congr (truncShare_mod ..)
  · simp only [Group.localParty_of_isParty party, two]
    rfl
  · rw [VReg.get_of_isU hu x y]

/-! ## Failures (R200) -/

theorem Group.shareFail_of_active (some : ∃ t, Active g t) (reason : Nat) : g.shareFail reason = g.failNow .outOfTurn
    (gateDetail (roleConv (g.crole.getD 0 0)) 0 (roleNum (g.crole.getD 0 0)) 0 reason) (activeMask g) 0 :=
  if_neg fun none => g.active_eq_zero_iff.mp none some

theorem Group.shareFail_inactive (none : g.active = 0) (reason : Nat) : g.shareFail reason = g := if_pos none

/-- An instruction that fails in every active thread. -/
theorem failsNow_of_shareFail {reason : Nat} {body : Group → State → Done} (some : ∃ t, Active g t)
    (hx : exec i s = issue i s body) (hb : body g s = .seq s (g.shareFail reason) (g.vcost false)) :
    FailsNow i s g .outOfTurn (gateDetail (roleConv (g.crole.getD 0 0)) 0 (roleNum (g.crole.getD 0 0)) 0 reason)
      (activeMask g) 0 (Claims.cycles g false) :=
  failsNow_of_issue hx (by rw [hb, Group.shareFail_of_active some, Group.vcost_eq])

theorem failsNow_of_shareAddPublic (none : ¬∃ p, IsParty g p) (some : ∃ t, Active g t)
    (hx : exec i s = shareAddPublic i s k d a b) : FailsNow i s g .outOfTurn
      (gateDetail (roleConv (g.crole.getD 0 0)) 0 (roleNum (g.crole.getD 0 0)) 0 3) (activeMask g) 0 (Claims.cycles g false) :=
  failsNow_of_shareFail some hx (by simp only [Group.localParty_of_no_party none])

theorem failsNow_of_shareTrunc (none : ¬∃ p, IsParty g p) (some : ∃ t, Active g t)
    (hx : exec i s = shareTrunc i s k d a f) : FailsNow i s g .outOfTurn
      (gateDetail (roleConv (g.crole.getD 0 0)) 0 (roleNum (g.crole.getD 0 0)) 0 3) (activeMask g) 0 (Claims.cycles g false) :=
  failsNow_of_shareFail some hx (by simp only [Group.localParty_of_no_party none])

/-- `vstrunc` is defined for two parties (R202). -/
theorem failsNow_of_shareTrunc_parties {p : Nat} (party : IsParty g p) (many : 2 < roleNp (g.crole.getD 0 0))
    (some : ∃ t, Active g t) (hx : exec i s = shareTrunc i s k d a f) : FailsNow i s g .outOfTurn
      (gateDetail (roleConv (g.crole.getD 0 0)) 0 p 0 8) (activeMask g) 0 (Claims.cycles g false) := by
  have named := party
  obtain ⟨-, rfl, -⟩ := named
  exact failsNow_of_shareFail some hx (by simp only [Group.localParty_of_isParty party, if_pos many])

/-! ## No thread active (R12) -/

theorem gives_of_shareAddPublic_inactive (none : g.active = 0) (hx : exec i s = shareAddPublic i s k d a b) :
    Gives i s g g (Claims.cycles g false) := by
  refine gives_of_issue hx ?_
  cases g.localParty with
  | none => simp only [Group.shareFail_inactive none, Group.vcost_eq]
  | some p => simp only [Group.setV_inactive none, Group.vcost_eq]

theorem gives_of_shareTrunc_inactive (none : g.active = 0) (hx : exec i s = shareTrunc i s k d a f) :
    Gives i s g g (Claims.cycles g false) := by
  refine gives_of_issue hx ?_
  cases g.localParty with
  | none => simp only [Group.shareFail_inactive none, Group.vcost_eq]
  | some p => simp only [Group.shareFail_inactive none, Group.setV_inactive none, Group.vcost_eq, ite_self]

theorem gives_of_shareSum_inactive (none : g.active = 0) (hx : exec i s = shareSum i s k d a) :
    Gives i s g g (Claims.cycles g false) :=
  gives_of_crossInstr_inactive (hx.trans (by rw [shareSum])) none

end Forms

/-- Settles O17: each instruction by its form; residues may be taken of the operands first. -/
theorem localShareResults : Obligations.LocalShareResults := by
  intro s g e d a b f x y m u1 u2 sub addp trunc total
  refine ⟨?_, ?_, ?_, ?_, ?_, ?_, ?_, ?_, ?_, fun p party => ⟨?_, ?_, fun two => ⟨fun _ => ?_, fun _ => ?_⟩⟩,
    fun p party many some => ⟨?_, ?_⟩, fun idle => ?_, fun none some => ⟨?_, ?_, ?_, ?_⟩⟩
  · exact writes_of_share2 (Laws.exec_vsaddS16 ..) fun x y => (Nat.add_mod ..).symm
  · exact writes_of_share2 (Laws.exec_vsaddS32 ..) fun x y => (Nat.add_mod ..).symm
  · exact writes_of_share2 (val := fun p q => sub 16 p q) (Laws.exec_vssubS16 ..) fun x y => subMod_residues ..
  · exact writes_of_share2 (val := fun p q => sub 32 p q) (Laws.exec_vssubS32 ..) fun x y => subMod_residues ..
  · exact writes_of_share2 (Laws.exec_vsmulpS16 ..) fun x y => (Nat.mul_mod ..).symm
  · exact writes_of_share2 (Laws.exec_vsmulpS32 ..) fun x y => (Nat.mul_mod ..).symm
  · exact writes_of_vec2 (Laws.exec_vsxorB ..) fun _ _ => rfl
  · exact writes_of_shareSum (Laws.exec_vsredS16 ..)
  · exact writes_of_shareSum (Laws.exec_vsredS32 ..)
  · exact writes_of_shareAddPublic party (Laws.exec_vsaddpS16 ..)
  · exact writes_of_shareAddPublic party (Laws.exec_vsaddpS32 ..)
  · exact writes_of_shareTrunc party two (Laws.exec_vstruncS16 ..)
  · exact writes_of_shareTrunc party two (Laws.exec_vstruncS32 ..)
  · exact failsNow_of_shareTrunc_parties party many some (Laws.exec_vstruncS16 ..)
  · exact failsNow_of_shareTrunc_parties party many some (Laws.exec_vstruncS32 ..)
  · have none := g.active_eq_zero_iff.mpr idle
    exact ⟨gives_of_shareSum_inactive none (Laws.exec_vsredS16 ..), gives_of_shareSum_inactive none (Laws.exec_vsredS32 ..),
      gives_of_shareAddPublic_inactive none (Laws.exec_vsaddpS16 ..),
      gives_of_shareAddPublic_inactive none (Laws.exec_vsaddpS32 ..),
      gives_of_shareTrunc_inactive none (Laws.exec_vstruncS16 ..), gives_of_shareTrunc_inactive none (Laws.exec_vstruncS32 ..)⟩
  · exact failsNow_of_shareAddPublic none some (Laws.exec_vsaddpS16 ..)
  · exact failsNow_of_shareAddPublic none some (Laws.exec_vsaddpS32 ..)
  · exact failsNow_of_shareTrunc none some (Laws.exec_vstruncS16 ..)
  · exact failsNow_of_shareTrunc none some (Laws.exec_vstruncS32 ..)

end Sys2Proof.Machine
end

section
/-!
Lookups at the gate, and what an instruction that arrives there meets (R198, R232).
-/

namespace Sys2Proof.Machine

open Sys2Proof Sys2Proof.Claims

/-! ## Conversations found and replaced -/

theorem State.num_of_conv? {s : State} {n : Nat} {c : Conv} (h : s.conv? n = some c) : c.num = n := by
  simpa using List.find?_some h

theorem State.uid_of_group? {s : State} {u : Nat} {g : Group} (h : s.group? u = some g) : g.uid = u := by
  simpa using List.find?_some h

@[simp] theorem State.group?_setConv (s : State) (c : Conv) (u : Nat) : (s.setConv c).group? u = s.group? u := rfl

/-- The conversation that takes the place of one is found in it. -/
theorem State.conv?_setConv_self {s : State} {c : Conv} (d : Conv) (h : s.conv? d.num = some c) :
    (s.setConv d).conv? d.num = some d := by
  have same : ((fun x : Conv => x.num == d.num) ∘ fun x => if x.num == d.num then d else x) = fun x => x.num == d.num := by
    funext x
    by_cases hx : x.num = d.num <;> simp [hx]
  rw [State.conv?] at h
  have num : c.num = d.num := by simpa using List.find?_some h
  simp only [State.conv?, State.setConv, List.find?_map, same, h, Option.map_some, num, beq_self_eq_true, if_true]

/-- Of two conversations of one number that are set, the later stays. -/
@[simp] theorem State.setConv_setConv (s : State) {c d : Conv} (h : d.num = c.num) : (s.setConv c).setConv d = s.setConv d := by
  have last : ((fun x : Conv => if x.num == d.num then d else x) ∘ fun x => if x.num == c.num then c else x) =
      fun x => if x.num == d.num then d else x := by
    funext x
    by_cases hx : x.num = c.num <;> simp [hx, h]
  simp only [State.setConv, List.map_map, last]

/-- Of two groups of one number that are set, the later stays. -/
theorem State.setGroup_setGroup (s : State) {g h : Group} (same : h.uid = g.uid) :
    (s.setGroup g).setGroup h = s.setGroup h := by
  have last : ((fun x : Group => if x.uid == h.uid then h else x) ∘ fun x => if x.uid == g.uid then g else x) =
      fun x => if x.uid == h.uid then h else x := by
    funext x
    by_cases hx : x.uid = g.uid <;> simp [hx, same]
  simp only [State.setGroup, List.map_map, last]

/-! ## Role registers -/

theorem roleConv_eq (v : W64) : roleConv v = v.toNat / 2 ^ 20 % 2 ^ 12 := bits_eq ..

theorem roleNum_eq (v : W64) : roleNum v = v.toNat % 4 := by
  rw [roleNum, bits_eq, pow_zero, Nat.div_one]
  rfl

theorem roleNum_lt (v : W64) : roleNum v < 4 := by
  rw [roleNum_eq]
  exact Nat.mod_lt _ (by decide)

theorem Group.world_eq (g : Group) : g.world = g.part * 128 + g.ctx := rfl

/-- The role of an arriving instruction is what its register names, unless it is a `cbind`. -/
theorem Delayed.role_of_reg {s : State} {g : Group} {reg idx since : Nat} {op : DOp} (names : op.roleReg = some reg)
    (hg : s.group? g.uid = some g) (steps : ∀ h, op ≠ .cbind reg h) : (⟨g.uid, idx, op, since⟩ : Delayed).role s =
      if g.gateRole.getD reg 0 = 0 then none
      else some (roleConv (g.gateRole.getD reg 0), roleNum (g.gateRole.getD reg 0)) := by
  have own : s.roleAt g.uid reg = if g.gateRole.getD reg 0 = 0 then none
      else some (roleConv (g.gateRole.getD reg 0), roleNum (g.gateRole.getD reg 0)) := by
    simp only [State.roleAt, hg]
  rw [← own, Delayed.role]
  split
  next r h bind =>
    obtain rfl : op = .cbind r h := bind
    obtain rfl : r = reg := Option.some_inj.mp names
    exact absurd rfl (steps h)
  next => rw [names, Option.bind_some]

/-! ## Arrivals -/

section Arrives

variable {s : State} {g : Group} {reg idx : Nat} {op : DOp} (names : op.roleReg = some reg)
  (hg : s.group? g.uid = some g)

include names hg

/-- An instruction that names a role register waits behind those of its group and of its role. -/
theorem Delayed.behind_iff (steps : ∀ h, op ≠ .cbind reg h) (since : Nat) :
    (⟨g.uid, idx, op, since⟩ : Delayed).behind s s.pkg.waits = true ↔ ∃ d ∈ s.pkg.waits, StandsBefore s g reg d := by
  rw [Delayed.behind, List.any_eq_true]
  refine exists_congr fun d => and_congr_right fun _ => ?_
  rw [Delayed.role_of_reg names hg steps, StandsBefore, Bool.or_eq_true, beq_iff_eq, Bool.and_eq_true, beq_iff_eq]
  generalize g.gateRole.getD reg 0 = v
  refine or_congr_right ?_
  by_cases unbound : v = 0 <;> cases d.role s <;> simp [unbound]

theorem State.gateArrive_of_behind (behind : (⟨g.uid, idx, op, s.tick⟩ : Delayed).behind s s.pkg.waits = true) :
    s.gateArrive g.uid idx op = gateWaits s g idx op := by
  simp only [State.gateArrive, names, hg, behind, Option.isNone_some, Bool.or_self, Bool.false_eq_true, if_false, if_true]
  rfl

theorem State.gateArrive_of_first (first : (⟨g.uid, idx, op, s.tick⟩ : Delayed).behind s s.pkg.waits = false) :
    s.gateArrive g.uid idx op = (s.process g.uid idx s.tick op).getD (gateWaits s g idx op) := by
  simp only [State.gateArrive, names, hg, first, Option.isNone_some, Bool.or_self, Bool.false_eq_true, if_false]
  rfl

/-- An instruction that stands behind none is processed when it arrives. -/
theorem State.gateArrive_eq (steps : ∀ h, op ≠ .cbind reg h) (free : ∀ d ∈ s.pkg.waits, ¬StandsBefore s g reg d) :
    s.gateArrive g.uid idx op = (s.process g.uid idx s.tick op).getD (gateWaits s g idx op) := by
  refine State.gateArrive_of_first names hg ?_
  rw [← Bool.not_eq_true, Delayed.behind_iff names hg steps]
  exact fun ⟨d, hd, stands⟩ => free d hd stands

end Arrives

end Sys2Proof.Machine
end

section
/-!
`cbind` at the gate (R208, R209).
-/

namespace Sys2Proof.Machine

open Sys2Proof Sys2Proof.Claims

section Binding

variable {s : State} {g : Group} {idx reg : Nat} {h : W64}

/-- `cbind` names no role, and waits behind no instruction of another group. -/
theorem State.gateArrive_cbind (hg : s.group? g.uid = some g) (free : ∀ d ∈ s.pkg.waits, d.uid ≠ g.uid) :
    s.gateArrive g.uid idx (.cbind reg h) = s.gateBind g idx reg h := by
  have first : (⟨g.uid, idx, .cbind reg h, s.tick⟩ : Delayed).behind s s.pkg.waits = false := by
    rw [Delayed.behind, List.any_eq_false]
    intro d hd
    have nobody : (⟨g.uid, idx, .cbind reg h, s.tick⟩ : Delayed).role s = none := rfl
    rw [nobody]
    cases d.role s <;> simp [free d hd]
  rw [State.gateArrive_of_first rfl hg first, State.process, hg]
  rfl

/-- The register is bound, as the gate has it and counts it. -/
theorem State.setBound_setGateRole (hg : s.group? g.uid = some g) (v : W64) (cn : Nat) :
    (s.setGateRole g.uid reg v).setBound g.uid reg cn =
      s.setGroup { g with gateRole := g.gateRole.set reg v, bound := g.bound.set reg (some cn) } := by
  have set : (s.setGateRole g.uid reg v).group? g.uid = some { g with gateRole := g.gateRole.set reg v } := by
    rw [State.setGateRole, hg]
    exact s.group?_setGroup_self _ g hg
  rw [State.setBound, set, State.setGateRole, hg]
  exact State.setGroup_setGroup s rfl

theorem toNat_roleValue {np chor conv role : Nat} (hn : np - 1 < 4) (hc : chor < 2 ^ 8) (hv : conv < 2 ^ 12) (hr : role < 4) :
    (roleValue np chor conv role).toNat = 2 ^ 63 + (np - 1) * 2 ^ 40 + chor * 2 ^ 32 + conv * 2 ^ 20 + role := by
  rw [roleValue, BitVec.toNat_ofNat]
  refine Nat.mod_eq_of_lt ?_
  omega

/-- The upper half of a handle is the ticket (R209). -/
theorem ticket_eq_iff (t : BitVec 32) : t = (h >>> 32).setWidth 32 ↔ t.toNat = h.toNat / 2 ^ 32 := by
  have top : ((h >>> 32).setWidth 32 : BitVec 32).toNat = h.toNat / 2 ^ 32 := by
    rw [BitVec.toNat_setWidth, BitVec.toNat_ushiftRight, Nat.shiftRight_eq_div_pow]
    omega
  rw [← BitVec.toNat_inj, top]

/-- A role is not the caller's when it is not in use, or another world holds it. -/
theorem not_held_eq (used : Bool) (a b : Nat) : (!used || decide (a ≠ b)) = !decide (used = true ∧ a = b) := by
  cases used <;> simp

end Binding

/-- Settles O21: the checks of `gateBind` in their order. -/
theorem bindingARole : Obligations.BindingARole := by
  intro s g idx reg h hg free role answer refuse
  have named : roleConv h = h.toNat / 2 ^ 20 % 2 ^ 12 := roleConv_eq h
  have number : roleNum h = role := roleNum_eq h
  rw [State.gateArrive_cbind hg free, ← named]
  refine ⟨fun none => ?_, fun c conv => ?_⟩
  · simp only [State.gateBind, none]
    rfl
  · intro ro mine
    have refused : (!(c.role role).used || decide ((c.role role).world ≠ g.world)) = !decide mine := by
      rw [g.world_eq, Nat.mul_comm]
      exact not_held_eq ..
    have reserved : bits h.toNat 19 2 = h.toNat / 4 % 2 ^ 18 := bits_eq ..
    simp only [State.gateBind, conv, number]
    refine ⟨fun live aborted => ?_, fun destroyed => ?_, fun live going other => ?_, fun live going own ticket => ?_,
      fun live going own ticket bad => ?_, fun live going own ticket good hn hc hv => ?_⟩
    · rw [live, aborted]
      rfl
    · rw [destroyed]
      rfl
    · rw [live, going, refused, decide_eq_false other]
      rfl
    · rw [live, going, refused, decide_eq_true own, if_pos (mt (ticket_eq_iff _).mp ticket)]
      rfl
    · rw [live, going, refused, decide_eq_true own, if_neg (not_not.mpr ((ticket_eq_iff _).mpr ticket)), reserved,
        if_pos bad]
      rfl
    · refine ⟨_, toNat_roleValue hn hc hv (Nat.mod_lt _ (by decide)), ?_⟩
      rw [live, going, refused, decide_eq_true own, if_neg (not_not.mpr ((ticket_eq_iff _).mpr ticket)), reserved,
        if_neg (not_not.mpr good), State.setBound_setGateRole hg]
      rfl

end Sys2Proof.Machine
end

section
/-!
A gate share instruction that differs from a record whose other part is of a group that is gone (R19, R228).
-/

namespace Sys2Proof.Machine

open Sys2Proof Sys2Proof.Claims

/-! ## A machine whose exchange has outlived a group -/

/-- A group of world 0, with `crole0` bound to role 0 of conversation 1. -/
def joiningGroup : Group :=
  { Group.fresh 1 (Team.fresh 2 0 0 0 0 0 false 0 0 1) 0 0 0 .w16 32 0 0 [] 1 0 1 0 0 with
    gateRole := [roleValue 2 0 1 0, 0, 0, 0] }

/-- A part of group 9, which no state holds. -/
def orphanedPart : Sys2Proof.Machine.Part := ⟨1, 9, 0, .smul, 32, [], 0, some [], [], 0, false, false, 0⟩

/-- An exchange of five threads that only that part has joined. -/
def orphanedExchange : Exchange := ⟨0, 12, none, 5, 32, [], [orphanedPart], 0⟩

/-- A conversation of two parties with that exchange. -/
def orphanedConv : Conv :=
  let p : Party := ⟨[], [], 0, 0, none, none, none, 0, 0, []⟩
  let r : Role := ⟨true, 0, 0, [], [], []⟩
  ⟨1, false, false, 0, 0, [r, r], [p, p], [orphanedExchange], 1, []⟩

def orphanedMachine : State :=
  { State.reset with
    groups := [joiningGroup], teams := [Team.fresh 2 0 0 0 0 0 false 0 0 1]
    pkg := { Package.reset with convs := [orphanedConv] } }

theorem inTurn_orphanedMachine : InTurn orphanedMachine joiningGroup 0 orphanedConv 0 :=
  ⟨⟨rfl, nofun, by decide, by decide, by decide +kernel⟩, rfl, rfl⟩

/-- The model: each of the two instructions is sent a return, that of the group that is gone to be dropped. -/
theorem returns_orphanedMachine :
    ((orphanedMachine.gateArrive 1 0 (.gate .smul 32 [] 0)).returns.map fun r => r.uid) = [9, 1] := by
  decide +kernel

/-- Refutes O18: a `vsmul` with no thread that meets the record of an exchange of five, whose other part belongs to a group that is
gone. The statement has the other instruction fail as one of a group that is there, which sends no return to one that is not; the
model sends it a return that will be dropped (R19). -/
theorem not_gateShareInstructionsIssue : ¬ Obligations.GateShareInstructionsIssue := by
  rintro ⟨-, -, joins⟩
  obtain ⟨-, differs⟩ := joins orphanedMachine joiningGroup orphanedConv orphanedExchange 0 0 32 0 .smul [] [] inTurn_orphanedMachine
    rfl (by decide) rfl (by decide) rfl (by decide)
  obtain ⟨-, mismatch⟩ := differs rfl (by decide) rfl
  have fails := mismatch orphanedPart 2 rfl rfl rfl (.inr (.inl ⟨by decide, by decide, rfl⟩))
  have returns := returns_orphanedMachine
  rw [show orphanedMachine.gateArrive 1 0 (.gate .smul 32 [] 0) = _ from fails] at returns
  exact absurd returns (by decide +kernel)

end Sys2Proof.Machine
end

section
/-!
What the gate changes of a conversation leaves memory and its translation as they are.
-/

namespace Sys2Proof.Machine

open Sys2Proof

theorem State.walkFrom_setConv (s : State) (d : Conv) (p : Partition) (ctx va : Nat) (ls : List (Nat × Nat × Nat)) (table : Nat) :
    (s.setConv d).walkFrom p ctx va ls table = s.walkFrom p ctx va ls table := by
  induction ls generalizing table with
  | nil => rfl
  | cons l ls ih =>
    obtain ⟨lev, hi, lo⟩ := l
    simp only [State.walkFrom, ih]
    rfl

theorem State.translate_setConv (s : State) (d : Conv) (part ctx : Nat) (va : W64) (need : Perm) :
    (s.setConv d).translate part ctx va need = s.translate part ctx va need := by
  have leaf (p : Partition) (x : Ctx) (v : Nat) : (s.setConv d).leafFor p x v = s.leafFor p x v := by
    cases root : x.root <;> simp only [State.leafFor, root, State.walkFrom_setConv]
  simp only [State.translate, leaf]
  rfl

theorem State.globalRange_setConv (s : State) (d : Conv) (part ctx : Nat) (need : Perm) (a n fuel : Nat) :
    (s.setConv d).globalRange part ctx need a n fuel = s.globalRange part ctx need a n fuel := by
  induction fuel generalizing a n with
  | zero => rfl
  | succ fuel ih => simp only [State.globalRange, ih, State.translate_setConv]

/-- The pieces of a range are told by memory and the partition, not by the conversations. -/
@[simp] theorem State.range_setConv (s : State) (d : Conv) (part ctx team : Nat) (slice : Bool) (need : Perm) (a n : Nat) :
    (s.setConv d).range part ctx team slice need a n = s.range part ctx team slice need a n := by
  cases slice with
  | true => rfl
  | false => exact s.globalRange_setConv ..

end Sys2Proof.Machine
end

section
/-!
Role registers resolved at the gate, and the steps `csend` and `cchoose` (R198, R206, R208, R210, R212).
-/

namespace Sys2Proof.Machine

open Sys2Proof Sys2Proof.Claims

/-! ## A role register resolved -/

theorem State.barred_eq_none {s : State} {g : Group} {idx role : Nat} {c : Conv} {op : DOp} (going : c.aborted = false)
    (party : op.lacksParty c role = false) (held : (c.role role).world = g.part * 128 + g.ctx) :
    s.barred g idx c role op = none := by
  simp only [State.barred, going, party, g.world_eq, held, Bool.false_eq_true, if_false, ne_eq, not_true_eq_false]

theorem State.resolve_eq_ok {s : State} {g : Group} {idx reg : Nat} {c : Conv} {op : DOp}
    (bound : g.gateRole.getD reg 0 ≠ 0) (conv : s.conv? (roleConv (g.gateRole.getD reg 0)) = some c)
    (going : c.aborted = false) (party : op.lacksParty c (roleNum (g.gateRole.getD reg 0)) = false)
    (held : (c.role (roleNum (g.gateRole.getD reg 0))).world = g.part * 128 + g.ctx) :
    s.resolve g idx reg op = .ok c (roleNum (g.gateRole.getD reg 0)) := by
  simp only [State.resolve, bound, conv, State.barred_eq_none going party held, if_false]

/-- A step of a role in its turn, once its register is resolved. -/
theorem State.process_csend {s : State} {g : Group} {idx since reg kind role : Nat} {payload : W64} {choose : Bool} {c : Conv}
    (hg : s.group? g.uid = some g) (resolved : s.resolve g idx reg (.csend reg kind payload choose) = .ok c role) :
    s.process g.uid idx since (.csend reg kind payload choose) = s.gateSend c role g.uid idx kind payload choose := by
  simp only [State.process, hg, DOp.roleReg, Option.getD_some, resolved, State.takeStep]

/-! ## Table entries (R204) -/

theorem bitAt_entryMask (e : BitVec 16) (r : Nat) :
    bitAt (entryMask e) r = (decide (r < 4) && e.toNat.testBit (8 + r)) := by
  rw [bitAt, entryMask, bits, Nat.testBit_mod_two_pow, Nat.testBit_shiftRight]

theorem entryNext_eq (e : BitVec 16) : entryNext e = e.toNat % 64 := by
  rw [entryNext, bits_eq, pow_zero, Nat.div_one]
  rfl

theorem entryMask_eq (e : BitVec 16) : entryMask e = e.toNat / 256 % 16 := bits_eq ..

/-- The roles of a recipient mask. -/
theorem filter_entryMask (e : BitVec 16) :
    (List.range 4).filter (bitAt (entryMask e)) = (List.range 4).filter fun r => e.toNat.testBit (8 + r) := by
  refine List.filter_congr fun r hr => ?_
  rw [bitAt_entryMask, decide_eq_true (List.mem_range.mp hr), Bool.true_and]

/-! ## A send -/

section Send

variable {s : State} {c : Conv} {role uid idx kind : Nat} {payload : W64} {choose : Bool} {e : BitVec 16}

/-- A recipient's delivery queue is full. -/
theorem Conv.full_iff : c.full (entryMask e) = true ↔
    ∃ r, (r < 4 ∧ e.toNat.testBit (8 + r) = true ∧ (c.role r).used = true) ∧ 16 ≤ (c.role r).queue.length := by
  simp only [Conv.full, List.any_eq_true, List.mem_range, Bool.and_eq_true, bitAt_entryMask, decide_eq_true_eq]
  exact exists_congr fun r => by tauto

/-- What a message adds to the role that `r` numbers. -/
theorem Conv.deliver_getElem? {m : Msg} {r : Nat} {o : Role} (at_r : c.roles[r]? = some o) :
    (c.deliver (entryMask e) m).roles[r]? = some (if r < 4 ∧ e.toNat.testBit (8 + r) = true ∧ o.used = true
      then { o with queue := o.queue ++ [m] } else o) := by
  simp only [Conv.deliver, List.getElem?_mapIdx, at_r, Option.map_some, bitAt_entryMask, Bool.and_eq_true, decide_eq_true_eq,
    and_assoc]

variable (below : kind < 12) (choice : s.choiceKind c kind = choose) (permitted : s.permitted c role kind = some e)

include below choice permitted

theorem State.gateSend_full (full : c.full (entryMask e) = true) : s.gateSend c role uid idx kind payload choose = none := by
  simp only [State.gateSend, if_neg below.not_ge, choice, bne_self_eq_false, Bool.false_eq_true, if_false, permitted, full,
    if_true]

/-- An accepted send: its message joins the recipients' queues, the state advances, and their receives are served. -/
theorem State.gateSend_accepted (room : c.full (entryMask e) = false) :
    let m : Msg := ⟨kind, if choose then BitVec.ofNat 64 (payload.toNat % 2 ^ 60) else payload⟩
    ∃ x : Conv, x = { c with roles := x.roles, state := e.toNat % 64 } ∧ x.roles.length = c.roles.length ∧
      (∀ (r : Nat) (o : Role), c.roles[r]? = some o → x.roles[r]? = some (if r < 4 ∧ e.toNat.testBit (8 + r) = true ∧ o.used = true
        then { o with queue := o.queue ++ [m] } else o)) ∧
      s.gateSend c role uid idx kind payload choose = some
        (((s.setConv x).serveRoles c.num ((List.range 4).filter fun r => e.toNat.testBit (8 + r))).ret uid idx
          Result.empty) := by
  intro m
  refine ⟨{ c.deliver (entryMask e) m with state := entryNext e }, ?_, List.length_mapIdx,
    fun r o => Conv.deliver_getElem?, ?_⟩
  · rw [entryNext_eq]
    rfl
  · rw [← filter_entryMask]
    simp only [State.gateSend, if_neg below.not_ge, choice, bne_self_eq_false, Bool.false_eq_true, if_false, permitted, room]
    rfl

end Send

end Sys2Proof.Machine
end

section
/-!
What happens at the gate by itself: a send that waited is accepted, and a part of an exchange completes (R207, R210, R222, R227).
-/

namespace Sys2Proof.Machine

open Sys2Proof Sys2Proof.Claims

/-! ## The first send that waits -/

theorem State.firstWaits_cons {s : State} {d : Delayed} {rest : List Delayed} (waits : s.pkg.waits = d :: rest) :
    ∃ xs, s.firstWaits = ([], d) :: xs := by
  rw [State.firstWaits, waits, List.inits_cons, List.zip_cons_cons, List.filter_cons_of_pos (by rfl)]
  exact ⟨_, rfl⟩

/-- The instruction that has waited longest stands behind none. -/
theorem State.acceptStep_head {s : State} {d : Delayed} {rest : List Delayed} {cn role : Nat} (waits : s.pkg.waits = d :: rest)
    (own : d.role s = some (cn, role)) :
    s.acceptStep cn role = State.process { s with pkg := { s.pkg with waits := rest } } d.uid d.idx d.since d.op := by
  obtain ⟨xs, first⟩ := s.firstWaits_cons waits
  have found : s.firstWaits.find? (fun x => (x.2.role s).all fun r => r == (cn, role)) = some ([], d) := by
    rw [first, List.find?_cons_of_pos]
    simp [own]
  rw [State.acceptStep, found]
  simp only [waits, List.nil_append, List.length_nil, Nat.zero_add, List.drop_one, List.tail_cons]

/-! ## A part that completes -/

/-- A conversation after a party's part of an exchange is finished: the exchange closes with its last part. -/
def Conv.completed (c : Conv) (x : Exchange) (pt : Sys2Proof.Machine.Part) : Conv :=
  let others := x.parts.filter fun p => p.party != pt.party
  if others.all fun p => p.finished then { c with exchanges := c.exchanges.filter fun y => y.num != x.num }
  else c.setExchange { x with parts := others ++ [{ pt with finished := true }] }

theorem Exchange.part?_spec {x : Exchange} {party : Nat} {pt : Sys2Proof.Machine.Part} (h : x.part? party = some pt) :
    pt.party = party ∧ pt.withdrawn = false := by
  simpa using List.find?_some h

theorem Exchange.part?_setPart_self (x : Exchange) {pt : Sys2Proof.Machine.Part} (stays : pt.withdrawn = false) :
    (x.setPart pt).part? pt.party = some pt := by
  have gone : (x.parts.filter fun p => p.party != pt.party).find? (fun p => p.party == pt.party && !p.withdrawn) = none := by
    simp +contextual [List.find?_eq_none]
  rw [Exchange.part?, Exchange.setPart, List.find?_append, gone]
  simp [stays]

theorem Exchange.part?_setPart_other (x : Exchange) {pt : Sys2Proof.Machine.Part} {p : Nat} (other : p ≠ pt.party) :
    (x.setPart pt).part? p = x.part? p := by
  have kept (a : Sys2Proof.Machine.Part) : decide ((a.party != pt.party) = true ∧ (a.party == p && !a.withdrawn) = true) =
      (a.party == p && !a.withdrawn) := by
    by_cases ha : a.party = p <;> simp [ha, other]
  have not_own : [pt].find? (fun a => a.party == p && !a.withdrawn) = none := by simp [Ne.symm other]
  rw [Exchange.part?, Exchange.setPart, List.find?_append, List.find?_filter, funext kept, not_own, Option.or_none,
    Exchange.part?]

theorem Exchange.allJoined_iff {x : Exchange} {np : Nat} :
    x.allJoined np = true ↔ ∀ p, p < np → ∃ q, x.part? p = some q ∧ q.joined = true := by
  simp only [Exchange.allJoined, List.all_eq_true, List.mem_range]
  refine forall₂_congr fun p _ => ?_
  cases x.part? p <;> simp

/-- A part of the exchange that is finished has still joined. -/
theorem Exchange.allJoined_setPart {x : Exchange} {np : Nat} {pt : Sys2Proof.Machine.Part} (all : x.allJoined np = true)
    (joined : pt.joined = true) : (x.setPart { pt with finished := true }).allJoined np = true := by
  rw [Exchange.allJoined_iff] at all ⊢
  intro p hp
  have stays : pt.withdrawn = false := by
    rw [Part.joined, Bool.and_eq_true, Bool.not_eq_true'] at joined
    exact joined.1
  by_cases own : p = pt.party
  · subst own
    exact ⟨_, x.part?_setPart_self (pt := { pt with finished := true }) stays, joined⟩
  · rw [x.part?_setPart_other (pt := { pt with finished := true }) own]
    exact all p hp

section Complete

variable {s : State} {cn ex party : Nat} {c : Conv} {x : Exchange} {pt : Sys2Proof.Machine.Part} (conv : s.conv? cn = some c)
  (found : c.exchanges.find? (fun x => x.num == ex) = some x) (part : x.part? party = some pt)
  (ready : c.partReady x pt = true)

include conv found part ready

theorem State.completePart_eq : s.completePart cn ex party = (s.setConv (c.completed x pt)).finishPart c x pt := by
  obtain rfl : x.num = ex := by simpa using List.find?_some found
  have all : (x.setPart { pt with finished := true }).allJoined c.np = true := by
    simp only [Conv.partReady, Bool.and_eq_true] at ready
    obtain ⟨⟨⟨⟨-, joined⟩, all⟩, -⟩, -⟩ := ready
    exact Exchange.allJoined_setPart all joined
  have closes : ((x.setPart { pt with finished := true }).parts.all fun p => p.finished) =
      (x.parts.filter fun p => p.party != pt.party).all fun p => p.finished := by
    simp only [Exchange.setPart, List.all_append, List.all_cons, List.all_nil, Bool.and_true]
  simp only [State.completePart, conv, found, part, ready, Bool.not_true, Bool.false_eq_true, if_false, all, Bool.true_and,
    closes]
  rfl

end Complete

/-- A part's group that is there is sent the part's result. -/
theorem State.partRet_of_group? {s : State} {g : Group} {pt : Sys2Proof.Machine.Part} (hg : s.group? pt.uid = some g)
    (r : Result) : s.partRet pt r = s.ret pt.uid pt.idx r := by
  rw [State.partRet, hg]
  rfl

/-- An exchange that no `xopen` began gives its elements, and writes nothing. -/
theorem State.finishPart_elems {s : State} {c : Conv} {x : Exchange} {pt : Sys2Proof.Machine.Part} {g : Group}
    (hg : s.group? pt.uid = some g) (words : ∀ a b l u v, pt.op ≠ .xopen a b l u v) :
    s.finishPart c x pt = s.ret pt.uid pt.idx { Result.empty with elems := x.elems c.num c.np pt.party pt } := by
  rw [State.finishPart]
  split
  next h => exact absurd h (words _ _ _ _ _)
  next => exact State.partRet_of_group? hg _

/-- R198, R207, R210, R222. -/
theorem gateStepsComplete : GateStepsComplete := by
  refine ⟨?_, ?_⟩
  · intro s cn role kind reg uid idx since c g v payload choose rest e conv _ going waits hg hv bound names number held below
      choice permitted room w m
    subst hv names number
    obtain rfl := s.uid_of_group? hg
    have own : (⟨g.uid, idx, .csend reg kind payload choose, since⟩ : Delayed).role s =
        some (roleConv (g.gateRole.getD reg 0), roleNum (g.gateRole.getD reg 0)) := by
      rw [Delayed.role_of_reg rfl hg (by nofun), if_neg bound]
    have spare : c.full (entryMask e) = false := by
      rw [← Bool.not_eq_true, Conv.full_iff]
      rintro ⟨r, ⟨hr, gets, used⟩, full⟩
      exact absurd (room r hr gets used) full.not_gt
    have resolved : w.resolve g idx reg (.csend reg kind payload choose) = .ok c (roleNum (g.gateRole.getD reg 0)) :=
      State.resolve_eq_ok bound conv going rfl held
    obtain ⟨x, state, length, roles, sends⟩ := State.gateSend_accepted (s := w) (uid := g.uid) (idx := idx) (payload := payload)
      below choice permitted spare
    refine ⟨x, state, length, roles, ?_⟩
    rw [Laws.exec_gateSendAccept, execGateSendAccept, State.acceptStep_head waits own,
      State.process_csend (s := w) hg resolved, sends, s.num_of_conv? conv]
    rfl
  · intro s cn ex party c x pt g conv found part ready hg words done others res
    obtain ⟨rfl, -⟩ := Exchange.part?_spec part
    obtain rfl := s.num_of_conv? conv
    obtain rfl : x.num = ex := by simpa using List.find?_some found
    have step : exec (.gateExchangeComplete c.num x.num pt.party) s =
        .next ((s.setConv (c.completed x pt)).ret pt.uid pt.idx res) := by
      rw [Laws.exec_gateExchangeComplete, execGateExchangeComplete, State.completePart_eq conv found part ready,
        State.finishPart_elems (s := s.setConv _) hg words]
    rw [step, Conv.completed]
    refine ⟨fun ⟨p, hp, unfinished⟩ => ?_, fun all => ?_⟩
    · rw [if_neg]
      rw [List.all_eq_true]
      exact fun all => Bool.false_ne_true (unfinished.symm.trans (all p hp))
    · rw [if_pos (List.all_eq_true.mpr all)]

end Sys2Proof.Machine
end

section
/-!
The tile that an exchange opens (R227): its elements, and where it is written.
-/

namespace Sys2Proof.Machine

open Sys2Proof Sys2Proof.Claims

/-! ## Elements of a byte string -/

/-- The value of `w` bytes of a string, from byte `w * i` on. -/
def elemAt (w i : Nat) (bs : List Byte) : Nat := leNat ((bs.drop (w * i)).take w)

theorem elemAt_zero (w : Nat) (bs : List Byte) : elemAt w 0 bs = leNat (bs.take w) := by
  rw [elemAt, Nat.mul_zero, List.drop_zero]

theorem elemAt_succ {w : Nat} {xs : List Byte} (full : xs.length = w) (i : Nat) (bs : List Byte) :
    elemAt w (i + 1) (xs ++ bs) = elemAt w i bs := by
  rw [elemAt, elemAt, Nat.mul_succ, Nat.add_comm, ← List.drop_drop, ← full, List.drop_left]

theorem elemsOf_16_cons (a b : Byte) (rest : List Byte) :
    elemsOf 16 (a :: b :: rest) = (a.toNat + 256 * b.toNat) :: elemsOf 16 rest := by
  match rest with
  | [] => rfl
  | [c] => rfl
  | c :: d :: rest => rw [elemsOf, if_pos rfl]

theorem elemsOf_16 (i : Nat) (bs : List Byte) (within : 2 * i + 2 ≤ bs.length) : (elemsOf 16 bs).getD i 0 = elemAt 2 i bs := by
  induction i generalizing bs with
  | zero =>
    obtain ⟨a, b, rest, rfl⟩ : ∃ a b rest, bs = a :: b :: rest := by
      match bs, within with
      | a :: b :: rest, _ => exact ⟨a, b, rest, rfl⟩
    rw [elemsOf_16_cons, List.getD_cons_zero]
    rfl
  | succ i ih =>
    obtain ⟨a, b, rest, rfl⟩ : ∃ a b rest, bs = a :: b :: rest := by
      match bs, within with
      | a :: b :: rest, _ => exact ⟨a, b, rest, rfl⟩
    have next := ih rest (by simp only [List.length_cons] at within; omega)
    rw [elemsOf_16_cons, List.getD_cons_succ, next]
    exact (elemAt_succ (xs := [a, b]) rfl i rest).symm

theorem elemsOf_32 (i : Nat) (bs : List Byte) (within : 4 * i + 4 ≤ bs.length) : (elemsOf 32 bs).getD i 0 = elemAt 4 i bs := by
  induction i generalizing bs with
  | zero =>
    obtain ⟨a, b, c, d, rest, rfl⟩ : ∃ a b c d rest, bs = a :: b :: c :: d :: rest := by
      match bs, within with
      | a :: b :: c :: d :: rest, _ => exact ⟨a, b, c, d, rest, rfl⟩
    simp [elemsOf, elemAt]
  | succ i ih =>
    obtain ⟨a, b, c, d, rest, rfl⟩ : ∃ a b c d rest, bs = a :: b :: c :: d :: rest := by
      match bs, within with
      | a :: b :: c :: d :: rest, _ => exact ⟨a, b, c, d, rest, rfl⟩
    have next := ih rest (by simp only [List.length_cons] at within; omega)
    rw [elemsOf, if_neg (by decide), List.getD_cons_succ, next]
    exact (elemAt_succ (xs := [a, b, c, d]) rfl i rest).symm

/-- The elements of a byte string are its values of k bits. -/
theorem getD_elemsOf {k i : Nat} {bs : List Byte} (type : k = 16 ∨ k = 32) (within : k / 8 * i + k / 8 ≤ bs.length) :
    (elemsOf k bs).getD i 0 = elemAt (k / 8) i bs := by
  rcases type with rfl | rfl
  · exact elemsOf_16 i bs within
  · exact elemsOf_32 i bs within

/-- Of values laid out one after the other, each is read back. -/
theorem elemAt_flatMap {w : Nat} (f : Nat → Nat) (small : ∀ j, f j < 2 ^ (8 * w)) (l : List Nat) {i j : Nat} (at_i : l[i]? = some j) :
    elemAt w i (l.flatMap fun j => leBytes w (f j)) = f j := by
  induction l generalizing i with
  | nil => cases at_i
  | cons x l ih =>
    rw [List.flatMap_cons]
    cases i with
    | zero =>
      obtain rfl : x = j := by simpa using at_i
      rw [elemAt_zero, List.take_left' (leBytes_length ..), leNat_leBytes, Nat.mod_eq_of_lt (small x)]
    | succ i =>
      rw [elemAt_succ (leBytes_length ..)]
      exact ih (by simpa using at_i)

theorem length_flatMap_leBytes (w : Nat) (f : Nat → Nat) (l : List Nat) :
    (l.flatMap fun j => leBytes w (f j)).length = w * l.length := by
  rw [List.length_flatMap]
  simp [Nat.mul_comm]

/-! ## The tile -/

/-- What party `p` of an exchange has read. -/
def Exchange.bytesOf (x : Exchange) (p : Nat) : List Byte := ((x.part? p).map (·.bytes)).getD []

theorem Exchange.receivesAll_iff {x : Exchange} {np q : Nat} : x.receivesAll np q = true ↔
    ∀ p, p < np → p ≠ q → (x.recips.getD p 0).testBit q = true := by
  simp only [Exchange.receivesAll, Exchange.sends, bitAt, List.all_eq_true, List.mem_range, Bool.or_eq_true, beq_iff_eq,
    Bool.and_eq_true, bne_iff_ne]
  exact forall₂_congr fun p _ => by tauto

/-- Every party has a part, so that none is left out of the sums. -/
theorem Exchange.parts_getD {x : Exchange} {np : Nat} (all : x.allJoined np = true) (k i : Nat) :
    ((List.range np).filterMap x.part?).map (fun p => (elemsOf k p.bytes).getD i 0) =
      (List.range np).map fun p => (elemsOf k (x.bytesOf p)).getD i 0 := by
  rw [Exchange.allJoined_iff] at all
  rw [List.map_filterMap]
  refine List.filterMap_eq_map_iff_forall_eq_some.mpr fun p hp => ?_
  obtain ⟨q, part, -⟩ := all p (List.mem_range.mp hp)
  simp [Exchange.bytesOf, part]

section Tile

variable {x : Exchange} {np q : Nat} {pt : Sys2Proof.Machine.Part} {dst src len : W64} {dsl ssl : Bool}
  (op : pt.op = .xopen dst src len dsl ssl) (type : pt.k = 16 ∨ pt.k = 32) (rows : len.toNat % 64 = 0)
  (all : x.allJoined np = true) (lengths : ∀ p q, p < np → x.part? p = some q → q.bytes.length = len.toNat)

/-- The elements of the opened tile (R227): the sums of those of all parties. -/
def Exchange.tileElem (x : Exchange) (np k i : Nat) : Nat :=
  ((List.range np).map fun p => elemAt (k / 8) i (x.bytesOf p)).sum % 2 ^ k

include op type rows all lengths in
theorem Exchange.tile_of_receivesAll (opens : x.receivesAll np q = true) : ∃ bs, x.tile np q pt = some bs ∧
    bs.length = len.toNat ∧ ∀ i, pt.k / 8 * i < len.toNat → elemAt (pt.k / 8) i bs = x.tileElem np pt.k i := by
  have words : pt.nwords = len.toNat / (pt.k / 8) := by rw [Part.nwords, op]
  have exact_ : pt.k / 8 * (len.toNat / (pt.k / 8)) = len.toNat := by
    rcases type with h | h <;> rw [h] <;> omega
  let sums := fun i => ((List.range np).map fun p => (elemsOf pt.k (x.bytesOf p)).getD i 0).sum % kmod pt.k
  refine ⟨(List.range pt.nwords).flatMap fun i => leBytes (pt.k / 8) (sums i), ?_, ?_, fun i hi => ?_⟩
  · rw [Exchange.tile, if_pos opens]
    simp only [List.map_map, Function.comp_def, Exchange.parts_getD all]
    rfl
  · rw [length_flatMap_leBytes, List.length_range, words, exact_]
  · have small (j : Nat) : sums j < 2 ^ (8 * (pt.k / 8)) := by
      have mod : kmod pt.k = 2 ^ (8 * (pt.k / 8)) := by rcases type with h | h <;> rw [h] <;> rfl
      rw [← mod]
      exact Nat.mod_lt _ (Nat.two_pow_pos _)
    have below : i < pt.nwords := by
      rw [words]
      rcases type with h | h <;> rw [h] at hi ⊢ <;> omega
    rw [elemAt_flatMap sums small _ (List.getElem?_range below)]
    refine congrArg (fun l : List Nat => l.sum % 2 ^ pt.k) (List.map_congr_left fun p hp => ?_)
    refine getD_elemsOf type ?_
    obtain ⟨part, own, -⟩ := Exchange.allJoined_iff.mp all p (List.mem_range.mp hp)
    rw [Exchange.bytesOf, own, Option.map_some, Option.getD_some, lengths p part (List.mem_range.mp hp) own]
    rcases type with h | h <;> rw [h] at hi ⊢ <;> omega

end Tile

/-! ## The part completes -/

/-- R222, R227. -/
theorem openedTilesAreWritten : OpenedTilesAreWritten := by
  intro s cn ex party c x pt g dst src len dsl ssl conv found part ready hg op type rows lengths completes others left opens elem
  obtain ⟨rfl, -⟩ := Exchange.part?_spec part
  obtain rfl := s.num_of_conv? conv
  obtain rfl : x.num = ex := by simpa using List.find?_some found
  have all : x.allJoined c.np = true := by
    simp only [Conv.partReady, Bool.and_eq_true] at ready
    obtain ⟨⟨⟨-, all⟩, -⟩, -⟩ := ready
    exact all
  have step : exec (.gateExchangeComplete c.num x.num pt.party) s = .next (left.finishPart c x pt) := by
    rw [Laws.exec_gateExchangeComplete, execGateExchangeComplete, State.completePart_eq conv found part ready]
    rfl
  have group : left.group? pt.uid = some g := hg
  have none : x.elems c.num c.np pt.party pt = [] := by simp only [Exchange.elems, op]
  simp only [completes, step, State.finishPart, op, none]
  refine ⟨fun opened => ?_, fun closed => ?_⟩
  · obtain ⟨bs, tile, length, elems⟩ :=
      Exchange.tile_of_receivesAll op type rows all lengths (Exchange.receivesAll_iff.mpr opened)
    refine ⟨bs, length, elems, fun pls places => ?_, fun cause d a fails => ?_⟩
    · simp only [tile, group, length, left, State.range_setConv, places]
      rfl
    · simp only [tile, group, length, left, State.range_setConv, fails]
      rfl
  · have tile : x.tile c.np pt.party pt = Option.none := if_neg (mt Exchange.receivesAll_iff.mp closed)
    simp only [tile]
    rw [State.partRet_of_group? group]
    rfl

/-- Settles O47: the send that waited longest is served as one that arrives, and a part that completes is sent what it has. -/
theorem gateEvents : Obligations.GateEvents := ⟨gateStepsComplete, openedTilesAreWritten⟩

end Sys2Proof.Machine
end

section
/-!
Conversation instructions as they issue: what they capture, and `tlevel` (R198, R209 to R215, R218 to R220).
-/

namespace Sys2Proof.Machine

open Sys2Proof Sys2Proof.Claims

section Captured

variable {i : Instr} {s : State} {g : Group}

/-- A conversation instruction hands its captured operation to the gate. -/
theorem hands_of_convInstr {op : (Fld → W64) → DOp} (hx : exec i s = convInstr i s op) :
    Hands i s g (op (g.readS (s.cyc g))) 1 fun s =>
      s.gateArrive g.uid (g.runIdx + 32 * g.tag) (op (g.readS (s.cyc g))) :=
  handsIn_of_deferred (hx.trans (by rw [convInstr])) rfl

theorem tileLen_iff (n : W64) : tileLen n = true ↔ n.toNat % 64 = 0 ∧ 64 ≤ n.toNat ∧ n.toNat ≤ 1048576 := by
  simp [tileLen, and_assoc]

end Captured

/-! ## `tfill` -/

/-- The operands of `tfill` with dir send are a tile's, or a count and an address of triples (R218). -/
def DealFits (q : BitVec 2) (len adr : Nat) : Prop :=
  (q = 2 ∧ len % 64 = 0 ∧ 64 ≤ len ∧ len ≤ 1048576 ∧ adr % 64 = 0) ∨ (q ≠ 2 ∧ 1 ≤ len ∧ len ≤ 4096 ∧ adr % 16 = 0)

section Tfill

variable {s : State} {g : Group} (e : Bool) (d a b : Fld) (q dst : BitVec 2)

theorem dealFits_iff (a b : W64) : (if q = 2 then tileLen b && a.toNat % 64 == 0
    else decide (1 ≤ b.toNat) && decide (b.toNat ≤ 4096) && a.toNat % 16 == 0) = true ↔ DealFits q b.toNat a.toNat := by
  rw [DealFits]
  split
  · simp only [Bool.and_eq_true, tileLen_iff, beq_iff_eq]
    tauto
  · simp only [Bool.and_eq_true, decide_eq_true_eq, beq_iff_eq]
    tauto

theorem hands_tfillSend (fits : DealFits q (g.readS (s.cyc g) b).toNat (g.readS (s.cyc g) a).toNat) :
    let op := DOp.tsend (d.toNat - 80) q.toNat (g.readS (s.cyc g) a) (g.readS (s.cyc g) b) dst.toNat
    Hands (.tfillSend e d a b q dst) s g op 1 fun s => s.gateArrive g.uid (g.runIdx + 32 * g.tag) op := by
  refine handsIn_of_deferred (Laws.exec_tfillSend ..) ?_
  refine if_neg ?_
  rw [Bool.not_eq_true', Bool.not_eq_false]
  exact (dealFits_iff ..).mpr fits

theorem failsNow_tfillSend (unfit : ¬DealFits q (g.readS (s.cyc g) b).toNat (g.readS (s.cyc g) a).toNat) :
    FailsNow (.tfillSend e d a b q dst) s g .alignment 0 0 (g.readS (s.cyc g) a) 1 := by
  refine failsNow_of_issue (Laws.exec_tfillSend ..) (if_pos ?_)
  rw [Bool.not_eq_true', ← Bool.not_eq_true]
  exact mt (dealFits_iff ..).mp unfit

theorem hands_tfillAccept (aligned : q = 2 → (g.readS (s.cyc g) a).toNat % 64 = 0) :
    let op := DOp.taccept (d.toNat - 80) q.toNat (g.readS (s.cyc g) a) (g.readS (s.cyc g) b)
    Hands (.tfillAccept e d a b q) s g op 1 fun s => s.gateArrive g.uid (g.runIdx + 32 * g.tag) op := by
  refine handsIn_of_deferred (Laws.exec_tfillAccept ..) (if_neg ?_)
  simpa using aligned

theorem failsNow_tfillAccept (bad : q = 2 ∧ (g.readS (s.cyc g) a).toNat % 64 ≠ 0) :
    FailsNow (.tfillAccept e d a b q) s g .alignment 2 0 (g.readS (s.cyc g) a) 1 :=
  failsNow_of_issue (Laws.exec_tfillAccept ..) (if_pos (by simpa using bad))

end Tfill

/-! ## `tlevel` -/

/-- What `tlevel` reads through a value of a role register (R219). -/
def State.levels (s : State) (v : W64) : Nat :=
  match if v = 0 then none else s.conv? (roleConv v) with
  | some c =>
    if c.aborted || c.np ≤ roleNum v then 0
    else (c.party (roleNum v)).arith.length + (c.party (roleNum v)).bools.length * 2 ^ 32
  | none => 0

section Tlevel

variable {s : State} {g : Group} {v : W64} {c : Conv}

theorem gives_tlevel (e : Bool) (d a : Fld) : Gives (.tlevel e d a) s g
    (g.writeS d (BitVec.ofNat 64 (s.levels (g.crole.getD (a.toNat - 80) 0)))) 1 :=
  gives_of_issue (Laws.exec_tlevel ..) rfl

theorem State.levels_zero : s.levels 0 = 0 := rfl

theorem State.levels_of_no_conv (none : s.conv? (roleConv v) = none) : s.levels v = 0 := by
  rw [State.levels, none, ite_self]

theorem State.levels_of_none_live (conv : s.conv? (roleConv v) = some c) (out : c.aborted = true ∨ c.parties.length ≤ roleNum v) :
    s.levels v = 0 := by
  have zero : (c.aborted || decide (c.np ≤ roleNum v)) = true := by
    rwa [Bool.or_eq_true, decide_eq_true_eq]
  rw [State.levels, conv]
  split
  next x found =>
    obtain rfl : x = c := by
      split at found
      · cases found
      · exact (Option.some_inj.mp found).symm
    exact if_pos zero
  next => rfl

theorem State.levels_of_live (bound : v ≠ 0) (conv : s.conv? (roleConv v) = some c) (going : c.aborted = false)
    (party : roleNum v < c.parties.length) :
    s.levels v = (c.party (roleNum v)).arith.length + 2 ^ 32 * (c.party (roleNum v)).bools.length := by
  have live : (c.aborted || decide (c.np ≤ roleNum v)) = false := by
    rw [going, Bool.false_or, decide_eq_false_iff_not]
    exact party.not_ge
  rw [State.levels, if_neg bound, conv, Nat.mul_comm]
  exact if_neg (Bool.not_eq_true _ ▸ live)

end Tlevel

/-- R198, R209 to R215, R218 to R220. -/
theorem conversationInstructionsAreCaptured : ConversationInstructionsAreCaptured := by
  intro s g e d a b k q dst r reg goes v len adr
  refine ⟨hands_of_convInstr (Laws.exec_cbind ..), hands_of_convInstr (Laws.exec_csend ..),
    hands_of_convInstr (Laws.exec_crecv ..), hands_of_convInstr (Laws.exec_cchoose ..), hands_of_convInstr (Laws.exec_cdeleg ..),
    hands_of_convInstr (Laws.exec_cstate ..), hands_of_convInstr (Laws.exec_cabort ..), hands_of_convInstr (Laws.exec_tburn ..),
    hands_tfillSend e d a b q dst, failsNow_tfillSend e d a b q dst, hands_tfillAccept e d a b q, failsNow_tfillAccept e d a b q,
    fun unbound => ?_, fun none => ?_, fun c conv out => ?_, fun c bound conv going party => ?_⟩
  · have gives := gives_tlevel (s := s) (g := g) e d a
    rwa [show g.crole.getD (a.toNat - 80) 0 = 0 from unbound] at gives
  · have gives := gives_tlevel (s := s) (g := g) e d a
    rwa [State.levels_of_no_conv none] at gives
  · have gives := gives_tlevel (s := s) (g := g) e d a
    rwa [State.levels_of_none_live conv out] at gives
  · have gives := gives_tlevel (s := s) (g := g) e d a
    rwa [State.levels_of_live bound conv going party] at gives

end Sys2Proof.Machine
end

section
/-!
The order at the gate, the checks of a role register, and the messages of a conversation (R198, R206, R208, R210 to R212, R231, R232).
-/

namespace Sys2Proof.Machine

open Sys2Proof Sys2Proof.Claims

/-- R198, R232. -/
theorem gateKeepsTheOrder : GateKeepsTheOrder := by
  rintro s g reg idx op names hg ⟨d, hd, before⟩
  refine State.gateArrive_of_behind names hg ?_
  rcases before with own | ⟨steps, stands⟩
  · rw [Delayed.behind, List.any_eq_true]
    exact ⟨d, hd, by simp [own]⟩
  · exact (Delayed.behind_iff names hg steps s.tick).mpr ⟨d, hd, stands⟩

/-! ## Checks that fail -/

/-- An instruction whose register does not resolve is over with the failure. -/
theorem State.process_of_failed {s t : State} {g : Group} {idx reg since : Nat} {op : DOp} (hg : s.group? g.uid = some g)
    (names : op.roleReg = some reg) (steps : ∀ h, op ≠ .cbind reg h) (reads : ∀ d, op ≠ .cstate reg d)
    (failed : s.resolve g idx reg op = .failed t) : s.process g.uid idx since op = some t := by
  simp only [State.process, hg]
  split
  next r h =>
    obtain rfl : r = reg := Option.some_inj.mp names
    exact absurd rfl (steps h)
  next r d =>
    obtain rfl : r = reg := Option.some_inj.mp names
    exact absurd rfl (reads d)
  next => rw [names, Option.getD_some, failed]

theorem DOp.lacksParty_iff {op : DOp} {reg : Nat} (names : op.roleReg = some reg) (c : Conv) (role : Nat) :
    op.lacksParty c role = true ↔
      ((∃ q a n, op = .taccept reg q a n) ∨ (∃ q n, op = .tburn reg q n) ∨ ∃ o k is d, op = .gate o k is d) ∧
          c.parties.length ≤ role ∨
        ∃ q a n dst, op = .tsend reg q a n dst ∧ c.parties.length ≤ dst := by
  unfold DOp.lacksParty
  split
  next r q a n =>
    obtain rfl : r = reg := Option.some_inj.mp names
    rw [decide_eq_true_eq]
    simp [Conv.np]
  next r q n =>
    obtain rfl : r = reg := Option.some_inj.mp names
    rw [decide_eq_true_eq]
    simp [Conv.np]
  next o k is d =>
    rw [decide_eq_true_eq]
    simp [Conv.np]
  next r q a n dst =>
    obtain rfl : r = reg := Option.some_inj.mp names
    rw [decide_eq_true_eq]
    simp [Conv.np]
  next accepts burns gates sends =>
    refine iff_of_false Bool.false_ne_true ?_
    rintro (⟨⟨q, a, n, rfl⟩ | ⟨q, n, rfl⟩ | ⟨o, k, is, d, rfl⟩, -⟩ | ⟨q, a, n, dst, rfl, -⟩)
    · exact accepts _ _ _ _ rfl
    · exact burns _ _ _ rfl
    · exact gates _ _ _ _ rfl
    · exact sends _ _ _ _ _ rfl

/-- R198, R199, R208, R231. -/
theorem roleRegistersAreChecked : RoleRegistersAreChecked := by
  intro s g reg idx op names steps reads hg free v fails
  have arrives {t : State} (failed : s.resolve g idx reg op = .failed t) : s.gateArrive g.uid idx op = t := by
    rw [State.gateArrive_eq names hg steps free, State.process_of_failed hg names steps reads failed, Option.getD_some]
  have barred {c : Conv} {t : State} (bound : v ≠ 0) (conv : s.conv? (roleConv v) = some c)
      (bars : s.barred g idx c (roleNum v) op = some t) : s.gateArrive g.uid idx op = t :=
    arrives (by simp only [State.resolve, show g.gateRole.getD reg 0 = v from rfl, bound, conv, bars, if_false])
  refine ⟨fun unbound => arrives ?_, fun bound none => arrives ?_, fun c bound conv => ?_⟩
  · simp only [State.resolve, show g.gateRole.getD reg 0 = 0 from unbound, if_true]
  · simp only [State.resolve, show g.gateRole.getD reg 0 = v from rfl, bound, none, if_false]
  · intro needs noParty
    have lacks : op.lacksParty c (roleNum v) = true ↔ noParty := DOp.lacksParty_iff names c _
    refine ⟨fun aborted => barred bound conv ?_, fun going lacking => barred bound conv ?_,
      fun going stands lost => barred bound conv ?_⟩
    · simp only [State.barred, aborted, if_true]
    · simp only [State.barred, going, lacks.mpr lacking, Bool.false_eq_true, if_false, if_true]
    · simp only [State.barred, going, Bool.false_eq_true, if_false, mt lacks.mp stands, g.world_eq]
      exact if_pos lost

/-! ## In turn -/

section Turn

variable {s : State} {g : Group} {c : Conv} {reg role idx : Nat} {op : DOp} (turn : InTurn s g reg c role)

include turn

theorem InTurn.group : s.group? g.uid = some g := by
  obtain ⟨⟨hg, -⟩, -⟩ := turn
  exact hg

theorem InTurn.conv : s.conv? c.num = some c := by
  obtain ⟨⟨-, -, -, -, conv⟩, -⟩ := turn
  rwa [s.num_of_conv? conv]

theorem InTurn.role_lt : role < 4 := by
  obtain ⟨⟨-, -, -, rfl, -⟩, -⟩ := turn
  exact roleNum_lt _

theorem InTurn.resolve (party : op.lacksParty c role = false) : s.resolve g idx reg op = .ok c role := by
  obtain ⟨⟨-, -, bound, rfl, conv⟩, going, held⟩ := turn
  exact State.resolve_eq_ok bound conv going party held

/-- An instruction in turn is processed when it arrives. -/
theorem InTurn.arrives (names : op.roleReg = some reg) (steps : ∀ h, op ≠ .cbind reg h) :
    s.gateArrive g.uid idx op = (s.process g.uid idx s.tick op).getD (gateWaits s g idx op) := by
  obtain ⟨⟨hg, free, -⟩, -⟩ := turn
  exact State.gateArrive_eq names hg steps free

end Turn

/-! ## Messages -/

theorem Conv.role_of_getElem? {c : Conv} {r : Nat} {o : Role} (at_r : c.roles[r]? = some o) : c.role r = o := by
  rw [Conv.role, List.getD_eq_getElem?_getD, at_r, Option.getD_some]

/-- R206, R208, R210, R212. -/
theorem sendsAtTheGate : SendsAtTheGate := by
  intro s g c reg role kind idx payload choose op arrives fails turn
  have step : arrives = (s.gateSend c role g.uid idx kind payload choose).getD (gateWaits s g idx op) := by
    rw [← State.process_csend (InTurn.group turn) (InTurn.resolve turn rfl)]
    exact InTurn.arrives turn rfl (by nofun)
  rw [step]
  refine ⟨fun above => ?_, fun below differs => ?_, fun below choice refused => ?_, fun e below choice permitted => ?_⟩
  · rw [State.gateSend, if_pos above]
    rfl
  · rw [State.gateSend, if_neg below.not_ge, if_pos (bne_iff_ne.mpr differs)]
    rfl
  · simp only [State.gateSend, if_neg below.not_ge, choice, bne_self_eq_false, Bool.false_eq_true, if_false, refused]
    rfl
  · intro gets m
    refine ⟨fun full => ?_, fun room => ?_⟩
    · rw [State.gateSend_full below choice permitted (Conv.full_iff.mpr full)]
      rfl
    · have spare : c.full (entryMask e) = false := by
        rw [← Bool.not_eq_true, Conv.full_iff]
        rintro ⟨r, gets_r, full⟩
        exact absurd (room r gets_r) full.not_gt
      obtain ⟨x, state, length, roles, sends⟩ :=
        State.gateSend_accepted (uid := g.uid) (idx := idx) (payload := payload) below choice permitted spare
      refine ⟨x, state, length, fun r o at_r => ?_, by rw [sends, Option.getD_some]⟩
      simp only [gets, Conv.role_of_getElem? at_r]
      exact roles r o at_r

end Sys2Proof.Machine
end

section
/-!
Receives, delegations and reads of the state at the gate (R208, R211, R213, R214, R231).
-/

namespace Sys2Proof.Machine

open Sys2Proof Sys2Proof.Claims

/-! ## Receives -/

/-- The receive that a run waits for names its destination. -/
theorem State.recvDest_of_pending {s : State} {g : Group} {idx reg kind : Nat} {d : Fld} (hg : s.group? g.uid = some g)
    (pending : Pending g idx (.crecv reg kind d)) : s.recvDest g.uid idx = some d := by
  obtain ⟨unyielded, ps, p, pends, rfl, op, others⟩ := pending
  simp only [State.recvDest, hg, unyielded, pends, List.append_nil, List.findSome?_append, List.findSome?_cons, if_true, op]
  rw [List.findSome?_eq_none_iff.mpr fun x hx => if_neg (others x hx), Option.none_or]

section Receive

variable {s : State} {c : Conv} {role kind : Nat}

theorem State.takes_iff (m : Msg) :
    s.takes c kind m = true ↔ m.kind = kind ∨ s.choiceKind c kind = true ∧ s.choiceKind c m.kind = true := by
  simp [State.takes]

/-- A role out of the list of roles has an empty delivery queue. -/
theorem Conv.role_lt_of_queue {before rest : List Msg} {m : Msg} (queue : (c.role role).queue = before ++ m :: rest) :
    role < c.roles.length := by
  by_contra out
  rw [Conv.role, List.getD_eq_getElem?_getD, List.getElem?_eq_none (not_lt.mp out)] at queue
  simp at queue

theorem Conv.role_setRole (h : role < c.roles.length) (x : Role) : (c.setRole role x).role role = x := by
  simp [Conv.role, Conv.setRole, List.getD_eq_getElem?_getD, h]

theorem Conv.setRole_setRole (x y : Role) : (c.setRole role x).setRole role y = c.setRole role y := by
  simp [Conv.setRole]

/-- The delivery queue of a role does not change with its receives. -/
theorem Conv.queue_setRole (ws : List (Nat × Nat × Nat)) :
    ((c.setRole role { c.role role with recvs := ws }).role role).queue = (c.role role).queue := by
  by_cases h : role < c.roles.length
  · rw [Conv.role_setRole h]
  · simp [Conv.role, Conv.setRole, List.getD_eq_getElem?_getD, h]

variable {uid idx : Nat} (conv : s.conv? c.num = some c)

include conv

/-- A receive for which no message is there goes on waiting. -/
theorem State.serveRecvs_waits (none : ∀ m ∈ (c.role role).queue, ¬s.takes c kind m = true) :
    s.serveRecvs c.num role [(uid, idx, kind)] = s := by
  simp only [State.serveRecvs, conv, List.find?_eq_none.mpr none]

/-- A receive takes the oldest message that it may, and returns its value. -/
theorem State.serveRecvs_takes {before rest : List Msg} {m : Msg} {d : Fld} (queue : (c.role role).queue = before ++ m :: rest)
    (skipped : ∀ x ∈ before, ¬s.takes c kind x = true) (taken : s.takes c kind m = true)
    (dest : s.recvDest uid idx = some d) : s.serveRecvs c.num role [(uid, idx, kind)] =
      (s.setConv (c.setRole role { c.role role with
        queue := before ++ rest, recvs := (c.role role).recvs.erase (uid, idx, kind) })).ret uid idx
          (Result.scalar d (s.received c kind m)) := by
  have found : (c.role role).queue.find? (s.takes c kind) = some m := by
    rw [queue, List.find?_append, List.find?_eq_none.mpr skipped, List.find?_cons_of_pos taken, Option.none_or]
  have left : (c.role role).queue.eraseP (s.takes c kind) = before ++ rest := by
    rw [queue, List.eraseP_append_right _ skipped, List.eraseP_cons_of_pos taken]
  have dest' (x : Conv) : (s.setConv x).recvDest uid idx = some d := dest
  simp only [State.serveRecvs, conv, found, left, dest']
  rfl

end Receive

/-- R208, R211. -/
theorem receivesAtTheGate : ReceivesAtTheGate := by
  intro s g c reg role kind idx d turn idle pending arrives takes with_
  have conv := InTurn.conv turn
  have group := InTurn.group turn
  have step : arrives = s.gateRecv c role g.uid idx kind := by
    have process : s.process g.uid idx s.tick (.crecv reg kind d) = some (s.gateRecv c role g.uid idx kind) := by
      simp only [State.process, InTurn.group turn, DOp.roleReg, Option.getD_some,
        InTurn.resolve turn (op := .crecv reg kind d) rfl]
    exact (InTurn.arrives turn rfl (by nofun)).trans (by rw [process, Option.getD_some])
  rw [step]
  let c1 := c.setRole role { c.role role with recvs := [(g.uid, idx, kind)] }
  have conv1 : (s.setConv c1).conv? c1.num = some c1 := State.conv?_setConv_self (d := c1) conv
  have receives (below : kind < 12) : s.gateRecv c role g.uid idx kind =
      (s.setConv c1).serveRecvs c1.num role [(g.uid, idx, kind)] := by
    rw [State.gateRecv, if_neg below.not_ge]
    simp only [idle, List.nil_append]
    rfl
  refine ⟨fun above => if_pos above, fun below none => ?_, fun before m rest below queue skipped taken => ?_⟩
  · rw [receives below, State.serveRecvs_waits conv1]
    · rfl
    · rw [Conv.queue_setRole]
      exact fun m hm => mt (State.takes_iff m).mp (none m hm)
  · have own : c1.role role = { c.role role with recvs := [(g.uid, idx, kind)] } :=
      Conv.role_setRole (Conv.role_lt_of_queue queue) _
    have queue1 : (c1.role role).queue = before ++ m :: rest := by
      rw [own]
      exact queue
    rw [receives below, State.serveRecvs_takes conv1 queue1 (fun x hx => mt (State.takes_iff x).mp (skipped x hx))
      ((State.takes_iff m).mpr taken) (State.recvDest_of_pending (s := s.setConv c1) group pending), own,
      State.setConv_setConv, Conv.setRole_setRole, List.erase_cons_head]
    · rfl
    · rfl

/-! ## Delegations -/

theorem not_permitted_iff (v : W64) (permits : List (Nat × Nat)) :
    (bits v.toNat 31 12 ≠ 0 || !permits.contains (Config.ownDevice, bits v.toNat 11 0)) = true ↔
      ¬(v.toNat / 2 ^ 12 % 2 ^ 20 = 0 ∧ (Config.ownDevice, v.toNat % 2 ^ 12) ∈ permits) := by
  rw [bits_eq, bits_eq, pow_zero, Nat.div_one, Bool.or_eq_true, decide_eq_true_eq, Bool.not_eq_true', ← Bool.not_eq_true,
    List.contains_iff_mem, not_and_or]

/-- A role is a party of an exchange that it has not finished (R213). -/
def Conv.Busy (c : Conv) (role : Nat) : Prop := ∃ x ∈ c.exchanges, ∃ p, x.part? role = some p ∧ p.finished = false

/-- The conversation's state allows delegation (R213). -/
def State.delegable (s : State) (c : Conv) : Bool := ((s.choreo? c.choreo).map fun ch => ch.deleg.getD c.state false).getD false

theorem State.delegable_iff {s : State} {c : Conv} :
    s.delegable c = true ↔ ∃ ch, s.choreo? c.choreo = some ch ∧ ch.deleg.getD c.state false = true := by
  rw [State.delegable]
  cases s.choreo? c.choreo <;> simp

/-- A conversation with a role handed on to a world with a ticket, and with the receives that still wait for it. -/
def Conv.handedOn (c : Conv) (role target : Nat) (ticket : BitVec 32) (ws : List (Nat × Nat × Nat)) : Conv :=
  c.setRole role { c.role role with world := target, ticket := ticket, recvs := ws }

/-- A role handed on: its register is unbound, and the instruction returns. -/
def State.unbinds (s : State) (uid idx reg : Nat) : State :=
  (s.setGateRole uid reg 0).ret uid idx { Result.empty with roles := [(reg, 0)] }

/-- A party for which no accept waits keeps its place. -/
theorem Conv.setParty_accepts_nil {c d : Conv} {role : Nat} (same : d.parties = c.parties)
    (none : (c.party role).accepts = []) : d.setParty role { c.party role with accepts := [] } = d := by
  have own : ({ c.party role with accepts := [] } : Party) = d.party role := by
    rw [← none, Conv.party, Conv.party, same]
  have set : d.parties.set role (d.party role) = d.parties := by
    refine List.ext_getElem? fun k => ?_
    rw [List.getElem?_set]
    split
    next here => subst here; split <;> simp_all [Conv.party, List.getD_eq_getElem?_getD]
    next => rfl
  rw [own, Conv.setParty, set]

section Delegates

variable {s : State} {c : Conv} {role uid idx reg : Nat} {v : W64}

theorem State.gateDeleg_unnamed
    (bad : ¬(v.toNat / 2 ^ 12 % 2 ^ 20 = 0 ∧ (Config.ownDevice, v.toNat % 2 ^ 12) ∈ c.permits)) :
    s.gateDeleg c role uid idx reg v = s.convFail c role 0 uid idx .outOfTurn 5 :=
  if_pos ((not_permitted_iff v c.permits).mpr bad)

variable (good : v.toNat / 2 ^ 12 % 2 ^ 20 = 0 ∧ (Config.ownDevice, v.toNat % 2 ^ 12) ∈ c.permits)

include good

theorem State.gateDeleg_busy (busy : c.Busy role) :
    s.gateDeleg c role uid idx reg v = s.convFail c role 0 uid idx .outOfTurn 9 := by
  obtain ⟨x, hx, p, part, unfinished⟩ := busy
  refine (if_neg (mt (not_permitted_iff v c.permits).mp (not_not.mpr good))).trans (if_pos ?_)
  exact List.any_eq_true.mpr ⟨x, hx, by simp [part, unfinished]⟩

variable (free : ¬c.Busy role)

include free

theorem State.gateDeleg_free : s.gateDeleg c role uid idx reg v =
    if s.delegable c = false then s.convFail c role 0 uid idx .outOfTurn 5
    else if v.toNat % 2 ^ 12 = (c.role role).world then
      (s.setConv (c.handedOn role (v.toNat % 2 ^ 12) (BitVec.ofNat 32 (v.toNat / 2 ^ 32)) (c.role role).recvs)).unbinds uid idx reg
    else
      let c1 := c.handedOn role (v.toNat % 2 ^ 12) (BitVec.ofNat 32 (v.toNat / 2 ^ 32)) []
      let waits := (c.role role).recvs ++ (c.party role).accepts.map fun w => (w.1, w.2.1, 0)
      (waits.foldl (fun s w => s.convFail c role w.2.2 w.1 w.2.1 .outOfTurn 6)
        (s.setConv (c1.setParty role { c.party role with accepts := [] }))).unbinds uid idx reg := by
  have target : bits v.toNat 11 0 = v.toNat % 2 ^ 12 := by rw [bits_eq, pow_zero, Nat.div_one]
  have ticket : bits v.toNat 63 32 = v.toNat / 2 ^ 32 := bits_top v.isLt (by decide)
  simp only [State.gateDeleg]
  rw [if_neg (mt (not_permitted_iff v c.permits).mp (not_not.mpr good)), List.any_eq_false.mpr, if_neg Bool.false_ne_true]
  · simp only [target, ticket, State.delegable]
    obtain none | ⟨ch, choreo⟩ := Option.eq_none_or_eq_some (s.choreo? c.choreo)
    · simp only [none]
      rfl
    · simp only [choreo, Option.map_some, Option.getD_some]
      obtain opened | closed := Bool.eq_false_or_eq_true (ch.deleg.getD c.state false)
      · simp only [opened]
        by_cases stays : v.toNat % 2 ^ 12 = (c.role role).world
        · simp only [stays, ne_eq, not_true_eq_false, if_true, if_false]
          rfl
        · simp only [stays, ne_eq, not_false_eq_true, if_true, if_false, List.map_id']
          rfl
      · simp only [closed]
        rfl
  · intro x hx
    cases part : x.part? role with
    | none => simp
    | some p =>
      have done : p.finished ≠ false := fun unfinished => free ⟨x, hx, p, part, unfinished⟩
      simpa using done

end Delegates

/-- R213. -/
theorem delegationAtTheGate : DelegationAtTheGate := by
  intro s g c reg role idx v turn arrives fails target names busy allowed
  have step : arrives = s.gateDeleg c role g.uid idx reg v := by
    have process : s.process g.uid idx s.tick (.cdeleg reg v) = some (s.gateDeleg c role g.uid idx reg v) := by
      simp only [State.process, InTurn.group turn, DOp.roleReg, Option.getD_some,
        InTurn.resolve turn (op := .cdeleg reg v) rfl, State.takeStep]
    exact (InTurn.arrives turn rfl (by nofun)).trans (by rw [process, Option.getD_some])
  rw [step]
  refine ⟨State.gateDeleg_unnamed, State.gateDeleg_busy, fun good free closed => ?_, fun good free opened => ?_⟩
  · rw [State.gateDeleg_free good free, if_pos (by rw [← Bool.not_eq_true, State.delegable_iff]; exact closed)]
    rfl
  · intro ro given done
    rw [State.gateDeleg_free good free, if_neg (by rw [Bool.not_eq_false, State.delegable_iff]; exact opened)]
    refine ⟨fun stays => if_pos stays, fun moves accepts => ?_⟩
    let c1 := c.handedOn role target (BitVec.ofNat 32 (v.toNat / 2 ^ 32)) []
    have kept : c1.setParty role { c.party role with accepts := [] } = c1 := Conv.setParty_accepts_nil rfl accepts
    refine ⟨fun idle => ?_, fun u i k waits => ?_⟩
    · refine (if_neg moves).trans ?_
      simp only [show (c.role role).recvs = [] from idle, accepts, List.map_nil, List.append_nil, List.foldl_nil]
      exact congrArg (fun d => (s.setConv d).unbinds g.uid idx reg) kept
    · refine (if_neg moves).trans ?_
      simp only [show (c.role role).recvs = _ from waits, accepts, List.map_nil, List.append_nil, List.foldl_cons, List.foldl_nil]
      exact congrArg (fun d => ((s.setConv d).convFail c role k u i .outOfTurn 6).unbinds g.uid idx reg) kept

/-! ## Reads of the state -/

theorem Party.headIdx_of_cons {p : Party} {q : Nat} {t : Triple} {ts : List Triple} (queue : p.queue q = t :: ts) :
    p.headIdx q = t.idx := by
  simp only [Party.headIdx, queue]

theorem Party.headIdx_of_nil {p : Party} {q : Nat} (queue : p.queue q = []) (inbox : p.inbox q = none) :
    p.headIdx q = p.next q := by
  simp only [Party.headIdx, queue, inbox, Option.bind_none]

/-- R214, R231. -/
theorem stateReadAtTheGate : StateReadAtTheGate := by
  intro s g c reg role idx d arrives v fails
  have step (hg : s.group? g.uid = some g) (free : ∀ d ∈ s.pkg.waits, ¬StandsBefore s g reg d) :
      arrives = s.gateState g idx reg d := by
    have process : s.process g.uid idx s.tick (.cstate reg d) = some (s.gateState g idx reg d) := by
      simp only [State.process, hg]
    exact (State.gateArrive_eq rfl hg (by nofun) free).trans (by rw [process, Option.getD_some])
  refine ⟨fun hg free gone => ?_, fun ⟨hg, free, bound, named, conv⟩ other => ?_, fun ⟨hg, free, bound, named, conv⟩ own => ?_⟩
  · rw [step hg free, State.gateState]
    rcases gone with unbound | none
    · rw [if_pos unbound]
    · rw [show s.conv? (roleConv (g.gateRole.getD reg 0)) = Option.none from none, ite_self]
  · rw [step hg free, State.gateState]
    simp only [if_neg bound, conv, ← named]
    exact if_pos other
  · rw [step hg free, State.gateState]
    simp only [if_neg bound, conv, ← named, g.world_eq, own, ne_eq, not_true_eq_false, if_false, Conv.np]
    refine ⟨fun out => ?_, fun party aborted => ?_, fun t ts party going queue => ?_, fun party going queue inbox => ?_⟩
    · rw [if_pos out]
    · rw [if_neg party.not_ge, aborted]
      rfl
    · rw [if_neg party.not_ge, going, Party.headIdx_of_cons (q := 0) queue]
      rfl
    · rw [if_neg party.not_ge, going, Party.headIdx_of_nil (q := 0) queue inbox]
      rfl

end Sys2Proof.Machine
end

section
/-!
What the gate answers changes no conversation, and what an abort does (R215, R230).
-/

namespace Sys2Proof.Machine

open Sys2Proof Sys2Proof.Claims

/-! ## Answers -/

/-- From `s` to `t` returns are added, groups get results, and memory is written; groups that are not halted stay as they were. -/
structure AnswersOnly (s t : State) : Prop where
  frame : t = { s with
    hbm := t.hbm, slices := t.slices, lines := t.lines, sliceErrs := t.sliceErrs, groups := t.groups, returns := t.returns
    moves := t.moves }
  running : ∀ u h, s.group? u = some h → h.halt = .no → t.group? u = some h
  groups : ∀ g ∈ t.groups, ∃ h ∈ s.groups, h.uid = g.uid ∧ h.part = g.part ∧ h.lid = g.lid
  returns : ∃ l, t.returns = s.returns ++ l

namespace AnswersOnly

variable {s t u : State}

/-- Neither groups nor returns change. -/
theorem of_frame (frame : t = { s with
    hbm := t.hbm, slices := t.slices, lines := t.lines, sliceErrs := t.sliceErrs, moves := t.moves }) : AnswersOnly s t := by
  have groups : t.groups = s.groups := by rw [frame]
  have returns : t.returns = s.returns := by rw [frame]
  refine ⟨?_, fun u h hg _ => ?_, fun g hg => ⟨g, groups ▸ hg, rfl, rfl, rfl⟩, [], by rw [returns, List.append_nil]⟩
  · rw [groups, returns]
    exact frame
  · rw [State.group?, groups]
    exact hg

theorem refl (s : State) : AnswersOnly s s := of_frame rfl

theorem trans (h : AnswersOnly s t) (k : AnswersOnly t u) : AnswersOnly s u := by
  obtain ⟨l, hl⟩ := h.returns
  obtain ⟨m, hm⟩ := k.returns
  refine ⟨k.frame.trans (congrArg (fun x : State => { x with
      hbm := u.hbm, slices := u.slices, lines := u.lines, sliceErrs := u.sliceErrs, groups := u.groups, returns := u.returns
      moves := u.moves }) h.frame),
    fun n x hx runs => k.running n x (h.running n x hx runs) runs, fun g hg => ?_, l ++ m, by rw [hm, hl, List.append_assoc]⟩
  obtain ⟨x, hx, uid, part, lid⟩ := k.groups g hg
  obtain ⟨y, hy, uid', part', lid'⟩ := h.groups x hx
  exact ⟨y, hy, uid'.trans uid, part'.trans part, lid'.trans lid⟩

theorem pkg (h : AnswersOnly s t) : t.pkg = s.pkg := by rw [h.frame]

theorem conv? (h : AnswersOnly s t) (n : Nat) : t.conv? n = s.conv? n := by rw [State.conv?, State.conv?, h.pkg]

theorem foldl {α : Type} {f : State → α → State} (step : ∀ s a, AnswersOnly s (f s a)) (l : List α) (s : State) :
    AnswersOnly s (l.foldl f s) := by
  induction l generalizing s with
  | nil => exact refl s
  | cons a l ih => exact (step s a).trans (ih _)

theorem ret (s : State) (uid idx : Nat) (r : Result) : AnswersOnly s (s.ret uid idx r) := by
  unfold State.ret
  split
  next => exact refl s
  next g hg =>
    split
    next halted =>
      rw [State.finish_of_group? hg]
      refine ⟨rfl, fun u h hu runs => ?_, fun x hx => ?_, [], (List.append_nil _).symm⟩
      · have other : u ≠ g.uid := by
          rintro rfl
          rw [s.uid_of_group? hg, hg] at hu
          cases hu
          simp [runs] at halted
        exact (s.group?_setGroup_other (g.returned idx r) u other).trans hu
      · obtain ⟨y, hy, rfl⟩ := List.mem_map.mp hx
        split
        · exact ⟨g, List.mem_of_find?_eq_some hg, rfl, rfl, rfl⟩
        · exact ⟨y, hy, rfl, rfl, rfl⟩
    next => exact ⟨rfl, fun _ _ hu _ => hu, fun x hx => ⟨x, hx, rfl, rfl, rfl⟩, _, rfl⟩

theorem gateFail (s : State) (uid idx : Nat) (c : Cause) (detail : W32) (mask : W64) (first : Nat) :
    AnswersOnly s (s.gateFail uid idx c detail mask first) := ret ..

theorem partRet (s : State) (pt : Sys2Proof.Machine.Part) (r : Result) : AnswersOnly s (s.partRet pt r) := by
  unfold State.partRet
  split
  next => exact ⟨rfl, fun _ _ hu _ => hu, fun x hx => ⟨x, hx, rfl, rfl, rfl⟩, _, rfl⟩
  next => exact ret ..

theorem writeAt (s : State) (pl : Place) (bs : List Byte) : AnswersOnly s (s.writeAt pl bs) := by
  cases pl with
  | hbm dev slot world =>
    rw [State.writeAt, State.writeLines_frame]
    exact of_frame rfl
  | slice a => exact of_frame rfl

theorem writeRange (s : State) (pls : List (Place × Nat)) (bs : List Byte) : AnswersOnly s (s.writeRange pls bs) := by
  induction pls generalizing s bs with
  | nil => exact refl s
  | cons x pls ih => exact (writeAt s x.1 _).trans (ih _ _)

theorem finishPart (s : State) (c : Conv) (x : Exchange) (pt : Sys2Proof.Machine.Part) :
    AnswersOnly s (s.finishPart c x pt) := by
  unfold State.finishPart
  split
  next =>
    split
    next =>
      split
      · exact (writeRange ..).trans (ret ..)
      · exact ret ..
      · exact of_frame rfl
    next => exact partRet ..
  next => exact partRet ..

theorem abortPart (c : Conv) (gone : List Nat) (x : Exchange) (a : Aborted) (pt : Sys2Proof.Machine.Part) :
    AnswersOnly a.s (abortPart c gone x a pt).s := by
  simp only [Machine.abortPart]
  split
  · exact refl _
  · split
    · exact finishPart ..
    · exact partRet ..

theorem abortParts (c : Conv) (gone : List Nat) (x : Exchange) (pts : List Sys2Proof.Machine.Part) (a : Aborted) :
    AnswersOnly a.s (pts.foldl (Machine.abortPart c gone x) a).s := by
  induction pts generalizing a with
  | nil => exact refl _
  | cons pt pts ih => exact (abortPart c gone x a pt).trans (ih _)

theorem abortExchanges (c : Conv) (gone : List Nat) (xs : List Exchange) (a : Aborted) :
    AnswersOnly a.s (xs.foldl (fun a x => x.parts.foldl (Machine.abortPart c gone x) a) a).s := by
  induction xs generalizing a with
  | nil => exact refl _
  | cons x xs ih => exact (abortParts c gone x x.parts a).trans (ih _)

end AnswersOnly

/-- Reports to partitions change no conversation. -/
theorem State.conv?_abortLists (s : State) (y : Why) (acs : List AbortedConv) (ws : List Nat) (n : Nat) :
    (s.abortLists y acs ws).conv? n = s.conv? n := by
  induction ws generalizing s with
  | nil => rfl
  | cons w ws ih =>
    have reported := (ReportsOnly.reportList s (w / 128)
      (y.head w :: byType ((acs.flatMap fun a => a.entries w) ++ s.touched w (acs.flatMap (·.hit))))).frame
    rw [State.abortLists, ih, reported]
    rfl

/-! ## The abort of a conversation -/

/-- An aborted conversation holds nothing (R230). -/
def Conv.emptied (c : Conv) : Conv := { c with
  aborted := true, exchanges := []
  roles := c.roles.map fun r => { r with queue := [], recvs := [] }
  parties := c.parties.map fun p => { p with
    arith := [], bools := [], inA := none, inB := none, inT := none, accepts := [] } }

/-- What waits at a conversation at its abort: role or party, group, index, kind and threads (R230). -/
def State.abortWaits (s : State) (c : Conv) (fails : List Delayed) : List (Nat × Nat × Nat × Nat × W64) :=
  (List.range 4).flatMap (fun r => (c.role r).recvs.map fun w => (r, w.1, w.2.1, w.2.2, (0 : W64)))
    ++ (fails.map fun d => (((d.role s).map (·.2)).getD 0, d.uid, d.idx, stepKind d.op, d.op.gateThreads))
    ++ (List.range c.np).flatMap fun p => (c.party p).accepts.map fun w => (p, w.1, w.2.1, 0, 0)

/-- One of them fails with the abort. -/
def State.abortFail (c : Conv) (s : State) (w : Nat × Nat × Nat × Nat × W64) : State :=
  s.gateFail w.2.1 w.2.2.1 .convAborted (gateDetail c.num c.state w.1 w.2.2.2.1 0) w.2.2.2.2 0

/-- The state in which every part of the conversation's exchanges is decided, and everything that waits has failed. -/
def State.abortAnswers (s : State) (c : Conv) (gone : List Nat) (fails : List Delayed) : State :=
  (s.abortWaits c fails).foldl (State.abortFail c)
    (c.exchanges.foldl (fun a x => x.parts.foldl (abortPart c gone x) a) (⟨s, [], [], []⟩ : Aborted)).s

/-- The return that an abort sends to a group that is not halted. -/
theorem State.returns_abortFail {s : State} (c : Conv) (w : Nat × Nat × Nat × Nat × W64) {h : Group}
    (hg : s.group? w.2.1 = some h) (runs : h.halt = .no) :
    ∃ y ∈ (State.abortFail c s w).returns, y.uid = w.2.1 ∧ (waitsIn h.issued w.2.2.1 = true → y.gen = h.gen) ∧
      y.idx = w.2.2.1 ∧ y.res = Result.failed ⟨w.2.2.1 % 32, .convAborted, 0, w.2.2.2.2,
        gateDetail c.num c.state w.1 w.2.2.2.1 0, Cause.convAborted.replayable⟩ := by
  simp only [State.abortFail, State.gateFail, State.ret, hg, runs, ne_eq, not_true_eq_false, decide_false, Bool.false_and,
    Bool.false_eq_true, if_false]
  exact ⟨_, List.mem_append_right _ (List.mem_singleton_self _), rfl, fun waits => if_pos waits, rfl, rfl⟩

section Aborts

variable {s : State} {c : Conv} (conv : s.conv? c.num = some c) (going : c.aborted = false)

theorem State.abortAnswers_only (c : Conv) (gone : List Nat) (fails : List Delayed) :
    AnswersOnly s (s.abortAnswers c gone fails) :=
  (AnswersOnly.abortExchanges c gone c.exchanges ⟨s, [], [], []⟩).trans
    (AnswersOnly.foldl (fun _ _ => AnswersOnly.gateFail ..) _ _)

include conv going

/-- What an abort leaves: the answers, the conversation emptied, and what goes on waiting. -/
theorem State.abortConv_s (gone : List Nat) :
    let split := s.splitWaits c.num [] s.pkg.waits
    let t := (s.abortAnswers c gone split.1).setConv c.emptied
    ∃ pool, (s.abortConv c.num gone).s = { t with pkg := { t.pkg with tilePool := pool, waits := split.2 } } := by
  simp only [State.abortConv, conv, going]
  exact ⟨_, rfl⟩

theorem State.conv?_abortConv (gone : List Nat) : (s.abortConv c.num gone).s.conv? c.num = some c.emptied := by
  obtain ⟨pool, after⟩ := State.abortConv_s conv going gone
  rw [after]
  have kept := (State.abortAnswers_only (s := s) c gone (s.splitWaits c.num [] s.pkg.waits).1).conv? c.num
  exact State.conv?_setConv_self c.emptied (kept.trans conv)

/-- Everything that waits at the conversation gets its failure. -/
theorem State.abortConv_returns (gone : List Nat) {h : Group} {w : Nat × Nat × Nat × Nat × W64}
    (waits : w ∈ s.abortWaits c (s.splitWaits c.num [] s.pkg.waits).1) (hg : s.group? w.2.1 = some h) (runs : h.halt = .no) :
    ∃ y ∈ (s.abortConv c.num gone).s.returns, y.uid = w.2.1 ∧ (waitsIn h.issued w.2.2.1 = true → y.gen = h.gen) ∧
      y.idx = w.2.2.1 ∧ y.res = Result.failed ⟨w.2.2.1 % 32, .convAborted, 0, w.2.2.2.2,
        gateDetail c.num c.state w.1 w.2.2.2.1 0, Cause.convAborted.replayable⟩ := by
  obtain ⟨pool, after⟩ := State.abortConv_s conv going gone
  obtain ⟨before, rest, split⟩ := List.append_of_mem waits
  let t := (c.exchanges.foldl (fun a x => x.parts.foldl (abortPart c gone x) a) (⟨s, [], [], []⟩ : Aborted)).s
  have earlier : AnswersOnly s (before.foldl (State.abortFail c) t) :=
    (AnswersOnly.abortExchanges c gone c.exchanges ⟨s, [], [], []⟩).trans
      (AnswersOnly.foldl (fun _ _ => AnswersOnly.gateFail ..) _ _)
  obtain ⟨y, hy, answer⟩ := State.returns_abortFail c w (earlier.running _ _ hg runs) runs
  obtain ⟨l, later⟩ := (AnswersOnly.foldl (f := State.abortFail c) (fun _ _ => AnswersOnly.gateFail ..) rest
    (State.abortFail c (before.foldl (State.abortFail c) t) w)).returns
  refine ⟨y, ?_, answer⟩
  have returned : (s.abortConv c.num gone).s.returns =
      (rest.foldl (State.abortFail c) (State.abortFail c (before.foldl (State.abortFail c) t) w)).returns := by
    rw [after, ← List.foldl_cons, ← List.foldl_append, ← split]
    rfl
  rw [returned, later]
  exact List.mem_append_left l hy

end Aborts

/-! ## What goes on waiting -/

theorem State.failsWith_eq_false {s : State} {cn : Nat} {d : Delayed} (kept : List Delayed)
    (stays : (∃ reg f, d.op = .cstate reg f) ∨ ∀ r, d.role s ≠ some (cn, r)) : s.failsWith cn kept d = false := by
  rcases stays with ⟨reg, f, op⟩ | other
  · simp only [State.failsWith, op, Bool.false_and]
  · have none : ((d.role s).any fun r => r.1 == cn) = false := by
      cases h : d.role s with
      | none => rfl
      | some r =>
        have ne : r.1 ≠ cn := fun same => other r.2 (same ▸ h)
        simpa using ne
    rw [State.failsWith, none, Bool.and_false, Bool.false_and]

/-- An instruction of the conversation fails when no other of its group goes on waiting before it. -/
theorem State.failsWith_eq_true {s : State} {cn r : Nat} {d : Delayed} {kept : List Delayed} (own : d.role s = some (cn, r))
    (step : ∀ reg f, d.op ≠ .cstate reg f) (alone : ∀ e ∈ kept, e.uid = d.uid → e = d) : s.failsWith cn kept d = true := by
  have names : ((d.role s).any fun r => r.1 == cn) = true := by simp [own]
  rw [State.failsWith, names, Bool.and_true, Bool.and_eq_true, Bool.not_eq_true', List.any_eq_false]
  refine ⟨?_, fun e he => ?_⟩
  · split
    next reg f op => exact absurd op (step reg f)
    next => rfl
  · by_cases same : e.uid = d.uid
    · obtain rfl := alone e he same
      cases op : e.op <;> simp
      simp [Delayed.role, op] at own
    · simp [same]

section Splits

variable {s : State} {cn : Nat} {d : Delayed}

/-- What goes on waiting was kept already, or waited. -/
theorem State.mem_kept_splitWaits {kept ds : List Delayed} :
    (d ∈ kept → d ∈ (s.splitWaits cn kept ds).2) ∧
    (d ∈ (s.splitWaits cn kept ds).2 → d ∈ kept ∨ d ∈ ds) := by
  induction ds generalizing kept with
  | nil => exact ⟨id, Or.inl⟩
  | cons e ds ih =>
    rw [State.splitWaits]
    split
    next => exact ⟨ih.1, fun h => (ih.2 h).imp_right (List.mem_cons_of_mem e)⟩
    next =>
      refine ⟨fun h => ih.1 (List.mem_append_left _ h), fun h => ?_⟩
      rcases ih.2 h with h | h
      · rcases List.mem_append.mp h with h | h
        · exact Or.inl h
        · exact Or.inr (List.mem_singleton.mp h ▸ List.mem_cons_self)
      · exact Or.inr (List.mem_cons_of_mem e h)

theorem State.mem_splitWaits_of_stays (stays : (∃ reg f, d.op = .cstate reg f) ∨ ∀ r, d.role s ≠ some (cn, r))
    {kept ds : List Delayed} (waits : d ∈ ds) : d ∈ (s.splitWaits cn kept ds).2 := by
  induction ds generalizing kept with
  | nil => exact absurd waits List.not_mem_nil
  | cons e ds ih =>
    rw [State.splitWaits]
    rcases List.mem_cons.mp waits with rfl | waits
    · rw [if_neg (by rw [State.failsWith_eq_false kept stays]; exact Bool.false_ne_true)]
      exact State.mem_kept_splitWaits.1 (List.mem_append_right _ (List.mem_singleton_self d))
    · split
      · exact ih waits
      · exact ih waits

/-- An instruction of the conversation that is the only one of its group fails, and waits no more. -/
theorem State.splitWaits_fails {r : Nat} (own : d.role s = some (cn, r)) (step : ∀ reg f, d.op ≠ .cstate reg f)
    {kept ds : List Delayed} (alone : ∀ e ∈ kept ++ ds, e.uid = d.uid → e = d) (fresh : d ∉ kept) :
    d ∉ (s.splitWaits cn kept ds).2 ∧ (d ∈ ds → d ∈ (s.splitWaits cn kept ds).1) := by
  induction ds generalizing kept with
  | nil => exact ⟨fresh, id⟩
  | cons e ds ih =>
    rw [State.splitWaits]
    have fewer : ∀ x ∈ kept ++ ds, x.uid = d.uid → x = d := fun x hx => alone x (by
      simp only [List.mem_append, List.mem_cons] at hx ⊢
      tauto)
    have moved : ∀ x ∈ kept ++ [e] ++ ds, x.uid = d.uid → x = d := by
      rw [List.append_assoc, List.singleton_append]
      exact alone
    split
    next =>
      obtain ⟨gone, fails⟩ := ih fewer fresh
      refine ⟨gone, fun waits => ?_⟩
      rcases List.mem_cons.mp waits with rfl | waits
      · exact List.mem_cons_self
      · exact List.mem_cons_of_mem e (fails waits)
    next goes =>
      have other : d ≠ e := by
        rintro rfl
        exact goes (State.failsWith_eq_true own step fun x hx => alone x (List.mem_append_left _ hx))
      have fresh' : d ∉ kept ++ [e] := by
        rw [List.mem_append, List.mem_singleton, not_or]
        exact ⟨fresh, other⟩
      obtain ⟨gone, fails⟩ := ih moved fresh'
      exact ⟨gone, fun waits => fails ((List.mem_cons.mp waits).resolve_left other)⟩

end Splits

theorem State.mem_abortWaits_recv {s : State} {c : Conv} {r uid idx k : Nat} (fails : List Delayed) (hr : r < 4)
    (waits : (uid, idx, k) ∈ (c.role r).recvs) : (r, uid, idx, k, 0) ∈ s.abortWaits c fails :=
  List.mem_append_left _ (List.mem_append_left _ (List.mem_flatMap.mpr
    ⟨r, List.mem_range.mpr hr, List.mem_map.mpr ⟨(uid, idx, k), waits, rfl⟩⟩))

theorem State.mem_abortWaits_fails {s : State} {c : Conv} {d : Delayed} {fails : List Delayed} {cn r : Nat}
    (own : d.role s = some (cn, r)) (mem : d ∈ fails) :
    (r, d.uid, d.idx, stepKind d.op, d.op.gateThreads) ∈ s.abortWaits c fails :=
  List.mem_append_left _ (List.mem_append_right _ (List.mem_map.mpr ⟨d, mem, by rw [own]; rfl⟩))

/-- R215, R230. -/
theorem abortAtTheGate : AbortAtTheGate := by
  refine ⟨?_, ?_, ?_, ?_⟩
  · intro s g c reg role idx turn
    have process : s.process g.uid idx s.tick (.cabort reg) = some ((s.abortBy c.num 3 g.world).ret g.uid idx Result.empty) := by
      simp only [State.process, InTurn.group turn, DOp.roleReg, Option.getD_some,
        InTurn.resolve turn (op := .cabort reg) rfl]
    exact (InTurn.arrives turn rfl (by nofun)).trans (by rw [process, Option.getD_some, g.world_eq])
  · intro s c cause world conv going
    simp only [State.abortBy, State.abortAll, conv]
    rw [State.conv?_abortLists]
    exact State.conv?_abortConv conv going []
  · intro s c gone h r idx k conv going hr waits hg runs
    exact State.abortConv_returns conv going gone (State.mem_abortWaits_recv _ hr waits) hg runs
  · intro s c gone conv going after
    obtain ⟨pool, eq⟩ := State.abortConv_s conv going gone
    have waiting : after.pkg.waits = (s.splitWaits c.num [] s.pkg.waits).2 := by
      rw [show after = _ from eq]
    refine ⟨fun d waits stays => ?_, fun d h r waits alone own step hg runs => ?_⟩
    · rw [waiting]
      exact State.mem_splitWaits_of_stays stays waits
    · obtain ⟨left, fails⟩ := State.splitWaits_fails own step (kept := []) alone List.not_mem_nil
      rw [waiting]
      refine ⟨left, ?_⟩
      obtain ⟨y, hy, uid, -, index, res⟩ :=
        State.abortConv_returns conv going gone (State.mem_abortWaits_fails own (fails waits)) hg runs
      exact ⟨y, hy, uid, index, res⟩

end Sys2Proof.Machine
end

section
/-!
What waits at a conversation for triples, tried again (R218, R229).
-/

namespace Sys2Proof.Machine

open Sys2Proof Sys2Proof.Claims

/-! ## Nothing waits -/

/-- At the conversation of a number, if there is one, nothing waits for triples. -/
def State.QuietAt (s : State) (cn : Nat) : Prop := ∀ c, s.conv? cn = some c → Quiet c

theorem State.quietAt_of_conv? {s : State} {cn : Nat} {c : Conv} (conv : s.conv? cn = some c) (quiet : Quiet c) :
    s.QuietAt cn := fun d hd => by
  obtain rfl : c = d := Option.some.inj (conv.symm.trans hd)
  exact quiet

theorem AnswersOnly.quietAt {s t : State} {cn : Nat} (h : AnswersOnly s t) (quiet : s.QuietAt cn) : t.QuietAt cn :=
  fun c hc => quiet c (h.conv? cn ▸ hc)

theorem Conv.accepts_of_quiet {c : Conv} (quiet : Quiet c) (p : Nat) : (c.party p).accepts = [] := by
  obtain ⟨-, accepts⟩ := quiet
  rw [Conv.party, List.getD_eq_getElem?_getD]
  cases h : c.parties[p]? with
  | none => rfl
  | some x => exact accepts x (List.mem_of_getElem? h)

theorem foldl_fixed {σ α : Type} {f : σ → α → σ} {s : σ} {l : List α} (fixed : ∀ a ∈ l, f s a = s) : l.foldl f s = s := by
  induction l with
  | nil => rfl
  | cons a l ih =>
    rw [List.foldl_cons, fixed a List.mem_cons_self]
    exact ih fun b hb => fixed b (List.mem_cons_of_mem a hb)

/-- Only one element of a list does something. -/
theorem foldl_one {σ α : Type} {f : σ → α → σ} {s t : σ} {l : List α} {x : α} (mem : x ∈ l) (once : l.Nodup)
    (before : ∀ a, a ≠ x → f s a = s) (hit : f s x = t) (after : ∀ a, a ≠ x → f t a = t) : l.foldl f s = t := by
  induction l with
  | nil => exact absurd mem List.not_mem_nil
  | cons a l ih =>
    obtain ⟨fresh, once⟩ := List.nodup_cons.mp once
    by_cases own : a = x
    · subst own
      rw [List.foldl_cons, hit]
      exact foldl_fixed fun b hb => after b fun same => fresh (same ▸ hb)
    · rw [List.foldl_cons, before a own]
      exact ih ((List.mem_cons.mp mem).resolve_left (Ne.symm own)) once

section Settles

variable {s : State} {cn : Nat} {c : Conv}

/-- No part waits when no exchange is open. -/
theorem State.feedAll_of_closed (closed : ∀ c, s.conv? cn = some c → c.exchanges = []) : s.feedAll cn = s := by
  have fed (p : Nat) : s.feed cn p = s := by
    rw [State.feed]
    split
    next => rfl
    next c conv => rw [closed c conv, List.map_nil, List.foldl_nil]
  rw [State.feedAll]
  split
  next => rfl
  next => exact foldl_fixed fun p _ => fed p

/-- A queue for which no accept of the party waits. -/
theorem State.tryAccept_of_none {p q : Nat}
    (none : ∀ c, s.conv? cn = some c → (c.party p).accepts.find? (fun a => a.2.2 == q) = none) : s.tryAccept cn p q = s := by
  rw [State.tryAccept]
  split
  next => rfl
  next c conv =>
    simp only [none c conv]
    split
    next found => exact absurd found (by nofun)
    next => rfl

theorem State.tryAccept_of_quiet (quiet : s.QuietAt cn) (p q : Nat) : s.tryAccept cn p q = s :=
  State.tryAccept_of_none fun c conv => by rw [Conv.accepts_of_quiet (quiet c conv), List.find?_nil]

theorem State.acceptAll_of_quiet (quiet : s.QuietAt cn) : s.acceptAll cn = s := by
  rw [State.acceptAll]
  split
  next => rfl
  next => exact foldl_fixed fun p _ => foldl_fixed fun q _ => State.tryAccept_of_quiet quiet p q

/-- A round that brings a state to one in which a further round does nothing is the last. -/
theorem State.settle_eq {t : State} (conv : s.conv? cn = some c) (round : (s.feedAll cn).acceptAll cn = t)
    (last : (t.feedAll cn).acceptAll cn = t) : s.settle cn = t := by
  have stays (n : Nat) : t.settleRounds cn n = t := by
    induction n with
    | zero => rfl
    | succ n ih => rw [State.settleRounds, last, ih]
  rw [State.settle, conv]
  exact (congrArg (State.settleRounds · cn _) round).trans (stays _)

theorem State.round_of_quiet (quiet : s.QuietAt cn) : (s.feedAll cn).acceptAll cn = s := by
  rw [State.feedAll_of_closed fun c conv => (quiet c conv).1, State.acceptAll_of_quiet quiet]

/-- Nothing happens at a conversation at which nothing waits. -/
theorem State.settle_of_quiet (quiet : s.QuietAt cn) : s.settle cn = s := by
  obtain none | ⟨c, conv⟩ := Option.eq_none_or_eq_some (s.conv? cn)
  · rw [State.settle, none]
  · exact State.settle_eq conv (State.round_of_quiet quiet) (State.round_of_quiet quiet)

/-- One accept waits at the conversation, and nothing else: that of the party `role` for the queue `q`. -/
structure OneAccept (s : State) (c : Conv) (role uid idx q : Nat) : Prop where
  conv : s.conv? c.num = some c
  closed : c.exchanges = []
  party : role < c.parties.length
  queue : q < 3
  own : (c.party role).accepts = [(uid, idx, q)]
  others : ∀ p, p ≠ role → (c.party p).accepts = []

/-- It alone is tried. -/
theorem OneAccept.settle {role uid idx q : Nat} {t : State} (one : OneAccept s c role uid idx q)
    (tried : s.tryAccept c.num role q = t) (then_ : t = s ∨ t.QuietAt c.num) : s.settle c.num = t := by
  have only {p r : Nat} (other : ¬(p = role ∧ r = q)) : s.tryAccept c.num p r = s := by
    refine State.tryAccept_of_none fun d conv => ?_
    obtain rfl : c = d := Option.some.inj (one.conv.symm.trans conv)
    by_cases own : p = role
    · subst own
      have ne : q ≠ r := fun same => other ⟨rfl, same.symm⟩
      simp [one.own, ne]
    · rw [one.others p own, List.find?_nil]
  have after {p r : Nat} (other : ¬(p = role ∧ r = q)) : t.tryAccept c.num p r = t := by
    rcases then_ with rfl | quiet
    · exact only other
    · exact State.tryAccept_of_quiet quiet p r
  have round : (s.feedAll c.num).acceptAll c.num = t := by
    rw [State.feedAll_of_closed fun d conv => by rw [← Option.some.inj (one.conv.symm.trans conv), one.closed],
      State.acceptAll, one.conv]
    refine foldl_one (List.mem_range.mpr one.party) List.nodup_range (fun p other => ?_) ?_ fun p other => ?_
    · exact foldl_fixed fun r _ => only fun h => other h.1
    · refine foldl_one (x := q) ?_ (by decide) (fun r other => only fun h => other h.2) tried
        fun r other => after fun h => other h.2
      have := one.queue
      simp only [List.mem_cons, List.not_mem_nil, or_false]
      omega
    · exact foldl_fixed fun r _ => after fun h => other h.1
  refine State.settle_eq one.conv round ?_
  rcases then_ with rfl | quiet
  · exact round
  · exact State.round_of_quiet quiet

end Settles

/-! ## The accept that waits -/

/-- The conversation with a party replaced. -/
theorem Conv.party_setParty_self {c : Conv} {p : Nat} (h : p < c.parties.length) (x : Party) : (c.setParty p x).party p = x := by
  simp [Conv.party, Conv.setParty, List.getD_eq_getElem?_getD, h]

theorem Conv.party_setParty_other {c : Conv} {p r : Nat} (other : r ≠ p) (x : Party) : (c.setParty p x).party r = c.party r := by
  simp [Conv.party, Conv.setParty, List.getD_eq_getElem?_getD, Ne.symm other]

theorem Conv.setParty_setParty (c : Conv) (p : Nat) (x y : Party) : (c.setParty p x).setParty p y = c.setParty p y := by
  simp [Conv.setParty]

/-- A conversation in which nothing waits stays so when a party is replaced by one for which no accept waits. -/
theorem Quiet.setParty {c : Conv} (quiet : Quiet c) (p : Nat) {x : Party} (none : x.accepts = []) :
    Quiet (c.setParty p x) :=
  ⟨quiet.1, fun y hy => (List.mem_or_eq_of_mem_set hy).elim (quiet.2 y) fun same => same ▸ none⟩

/-- The operands of the accept that a run waits for. -/
theorem findSome_accept {g : Group} {idx reg q : Nat} {addr len : W64} (pending : Pending g idx (.taccept reg q addr len)) :
    ((g.pends ++ (match g.yielded with | some y => y.pends | none => [])).findSome? fun p => if p.idx = idx then
      (match p.op with | .taccept _ _ a l => some (a, l) | _ => none) else none) = some (addr, len) := by
  obtain ⟨unyielded, ps, p, pends, rfl, op, others⟩ := pending
  simp only [unyielded, pends, List.append_nil, List.findSome?_append, List.findSome?_cons, if_true, op]
  rw [List.findSome?_eq_none_iff.mpr fun x hx => if_neg (others x hx), Option.none_or]

section Accepts

variable {s : State} {c : Conv} {g : Group} {role idx reg q : Nat} {addr len : W64} {b : Batch}

/-- A party whose waiting accept is over, with an inbox replaced. -/
def Party.accepted (p : Party) (q : Nat) : Party := { p.setInbox q none with accepts := [] }

theorem State.tryAccept_of_empty (one : OneAccept s c role g.uid idx q) (empty : (c.party role).inbox q = none) :
    s.tryAccept c.num role q = s := by
  simp only [State.tryAccept, one.conv, empty]

/-- The tile pool after a batch has left a tile inbox (R305). -/
def State.freedTile (s : State) (q n : Nat) : State :=
  if q = 2 then { s with pkg := { s.pkg with tilePool := s.pkg.tilePool - n } } else s

/-- An accept whose batch is there: it fails with one of another length, which is dropped; it takes triples when its queue has
room for them, and writes a tile to memory (R218). -/
theorem State.tryAccept_of_batch (one : OneAccept s c role g.uid idx q) (hg : s.group? g.uid = some g)
    (pending : Pending g idx (.taccept reg q addr len)) (batch : (c.party role).inbox q = some b) :
    let t := (s.setConv (c.setParty role ((c.party role).accepted q))).freedTile q b.len
    (len.toNat ≠ b.len → s.tryAccept c.num role q = t.convFail c role 0 g.uid idx .tripleMismatch 5) ∧
    (len.toNat = b.len → q ≠ 2 → s.tryAccept c.num role q =
      if (c.party role).cap q < ((c.party role).queue q).length + b.triples.length then s
      else (s.setConv (c.setParty role (((c.party role).accepted q).setQueue q ((c.party role).queue q ++ b.triples)))).ret
        g.uid idx Result.empty) ∧
    (∀ pls, len.toNat = b.len → q = 2 → s.range g.part g.ctx g.team false .write addr.toNat b.len = .ok pls →
      s.tryAccept c.num role q = (t.writeRange pls b.bytes).ret g.uid idx Result.empty) := by
  intro t
  have done : (c.party role).accepts.erase (g.uid, idx, q) = [] := by rw [one.own, List.erase_cons_head]
  have first : (c.party role).accepts.find? (fun a => a.2.2 == q) = some (g.uid, idx, q) := by
    rw [one.own, List.find?_cons_of_pos (by simp)]
  simp only [State.tryAccept, one.conv, batch, first, hg, done]
  split
  next none => exact absurd (none.symm.trans (findSome_accept pending)) (by nofun)
  next a l found =>
    obtain ⟨rfl, rfl⟩ := Prod.mk.inj (Option.some.inj (found.symm.trans (findSome_accept pending)))
    refine ⟨fun differs => if_pos differs, fun same words => ?_, fun pls same tile range => ?_⟩
    · rw [if_neg (not_not.mpr same), if_neg words]
      rfl
    · rw [if_neg (not_not.mpr same), if_pos tile, range]
      rfl

end Accepts

/-! ## Triples -/

theorem length_triplesOf (i n : Nat) (bs : List Byte) : (triplesOf i n bs).length = n := by
  induction n generalizing i bs with
  | zero => rfl
  | succ n ih => rw [triplesOf, List.length_cons, ih]

/-- The `k`th word of the `i`th triple of a deal's bytes (R218). -/
def tripleWord (bs : List Byte) (i k : Nat) : W32 := BitVec.ofNat 32 (leNat ((bs.drop (16 * i + 4 * k)).take 4))

theorem triplesOf_getElem? (first : Nat) {n i : Nat} (bs : List Byte) (hi : i < n) :
    (triplesOf first n bs)[i]? = some ⟨first + i, tripleWord bs i 0, tripleWord bs i 1, tripleWord bs i 2⟩ := by
  induction n generalizing first i bs with
  | zero => exact absurd hi (Nat.not_lt_zero i)
  | succ n ih =>
    cases i with
    | zero => rfl
    | succ i =>
      rw [triplesOf, List.getElem?_cons_succ, ih (first + 1) (bs.drop 16) (Nat.lt_of_succ_lt_succ hi)]
      have word (k : Nat) : tripleWord (bs.drop 16) i k = tripleWord bs (i + 1) k := by
        rw [tripleWord, List.drop_drop, tripleWord]
        congr 4
        omega
      rw [word, word, word, Nat.add_right_comm, Nat.add_assoc]

end Sys2Proof.Machine
end

section
/-!
Triples and tiles at the gate (R217, R218, R220, R305), and the conversation instructions.
-/

namespace Sys2Proof.Machine

open Sys2Proof Sys2Proof.Claims

/-! ## Deals -/

/-- A deal has to wait: for the recipient's inbox, or, of a tile, for the tile pool and the sends before it (R218, R305). -/
def State.dealWaits (s : State) (c : Conv) (q : Nat) (len : W64) (dst since : Nat) : Bool :=
  ((c.party dst).inbox q).isSome
    || (q == 2 && (decide (tilePoolSize < s.pkg.tilePool + len.toNat) || s.tilesBefore since))

/-- A conversation whose role dealt: the batch stands in the recipient's inbox, and the table's next state is taken. -/
def Conv.dealt (c : Conv) (dst q n : Nat) (b : Batch) (e : BitVec 16) : Conv :=
  { c.setParty dst (((c.party dst).setInbox q (some b)).advance q n) with state := e.toNat % 64 }

/-- A deal leaves a conversation at which nothing waits as quiet. -/
theorem Quiet.dealt {c : Conv} (quiet : Quiet c) (dst q n : Nat) (b : Batch) (e : BitVec 16) : Quiet (c.dealt dst q n b e) := by
  have kept : (((c.party dst).setInbox q (some b)).advance q n).accepts = (c.party dst).accepts := by
    unfold Party.advance Party.setInbox
    split_ifs <;> rfl
  exact Quiet.setParty quiet dst (kept.trans (Conv.accepts_of_quiet quiet dst))

theorem Conv.dealt_words {c : Conv} {dst q n : Nat} {b : Batch} {e : BitVec 16} (words : q < 2) : c.dealt dst q n b e =
    { c with state := e.toNat % 64, parties := c.parties.set dst (
        if q = 0 then { c.party dst with inA := some b, nextA := (c.party dst).nextA + n }
        else { c.party dst with inB := some b, nextB := (c.party dst).nextB + n }) } := by
  obtain rfl | rfl : q = 0 ∨ q = 1 := by omega
  · rfl
  · rfl

section Deals

variable {s : State} {g : Group} {c : Conv} {role idx q dst since : Nat} {addr len : W64} {e : BitVec 16}
  (hg : s.group? g.uid = some g) (there : dst < c.parties.length)

include there

theorem State.gateDeal_refused (refused : s.permitted c role 15 = none) :
    s.gateDeal c role g.uid idx q addr len dst since = .done (s.convFail c role 15 g.uid idx .outOfTurn 1) := by
  simp only [State.gateDeal, if_neg (show ¬c.np ≤ dst from there.not_ge), refused]

include hg

variable (permitted : s.permitted c role 15 = some e)

include permitted

theorem State.gateDeal_waits (waits : s.dealWaits c q len dst since = true) :
    s.gateDeal c role g.uid idx q addr len dst since = .waits := by
  simp only [State.gateDeal, if_neg (show ¬c.np ≤ dst from there.not_ge), permitted, hg]
  exact if_pos waits

variable (room : s.dealWaits c q len dst since = false)

include room

theorem State.gateDeal_fails {cause : Cause} {x : Nat} {a : W64} (range : s.range g.part g.ctx g.team false .read addr.toNat
      (if q = 2 then len.toNat else 16 * len.toNat) = .fail cause x a) :
    s.gateDeal c role g.uid idx q addr len dst since =
      .done (s.ret g.uid idx (Result.failed ⟨idx, cause, a, 0, BitVec.ofNat 32 x, cause.replayable⟩)) := by
  simp only [State.gateDeal, if_neg (show ¬c.np ≤ dst from there.not_ge), permitted, hg, range]
  exact if_neg (by rw [← State.dealWaits, room]; exact Bool.false_ne_true)

variable {pls : List (Place × Nat)} (range : s.range g.part g.ctx g.team false .read addr.toNat
  (if q = 2 then len.toNat else 16 * len.toNat) = .ok pls) (sound : s.badIn pls = none)

include range sound

theorem State.gateDeal_index (words : q ≠ 2) (above : 2 ^ 32 < (c.party dst).next q + len.toNat) :
    s.gateDeal c role g.uid idx q addr len dst since = .done (s.convFail c role 15 g.uid idx .tripleMismatch 4) := by
  have high : (decide (q ≠ 2) && decide (2 ^ 32 < (c.party dst).next q + len.toNat)) = true := by
    rw [decide_eq_true words, decide_eq_true above, Bool.and_self]
  simp only [State.gateDeal, if_neg (show ¬c.np ≤ dst from there.not_ge), permitted, hg, range, sound]
  exact (if_neg (by rw [← State.dealWaits, room]; exact Bool.false_ne_true)).trans (if_pos high)

theorem State.gateDeal_dealt (below : q = 2 ∨ (c.party dst).next q + len.toNat ≤ 2 ^ 32) :
    s.gateDeal c role g.uid idx q addr len dst since =
      let b : Batch := if q = 2 then ⟨[], s.readRange pls, len.toNat⟩
        else ⟨triplesOf ((c.party dst).next q) len.toNat (s.readRange pls), [], len.toNat⟩
      let t := s.setConv (c.dealt dst q (if q = 2 then 0 else len.toNat) b e)
      let t := if q = 2 then { t with pkg := { t.pkg with tilePool := t.pkg.tilePool + len.toNat } } else t
      .done ((t.ret g.uid idx Result.empty).settle c.num) := by
  have low : ¬(decide (q ≠ 2) && decide (2 ^ 32 < (c.party dst).next q + len.toNat)) = true := by
    rw [Bool.and_eq_true, decide_eq_true_eq, decide_eq_true_eq]
    omega
  simp only [State.gateDeal, if_neg (show ¬c.np ≤ dst from there.not_ge), permitted, hg, range, sound, entryNext_eq]
  exact (if_neg (by rw [← State.dealWaits, room]; exact Bool.false_ne_true)).trans (if_neg low)

end Deals

theorem Party.accepted_words {p : Party} {q : Nat} (none : p.accepts = []) (words : q < 2) :
    p.accepted q = if q = 0 then { p with inA := Option.none } else { p with inB := Option.none } := by
  obtain rfl | rfl : q = 0 ∨ q = 1 := by omega
  · rw [if_pos rfl, Party.accepted, ← none]
    rfl
  · rw [if_neg one_ne_zero, Party.accepted, ← none]
    rfl

/-- The accepts that wait do not matter to what an accept leaves. -/
theorem Party.accepted_accepts (p : Party) (q : Nat) (l : List (Nat × Nat × Nat)) :
    ({ p with accepts := l } : Party).accepted q = p.accepted q := by
  unfold Party.accepted Party.setInbox
  split_ifs <;> rfl

theorem Party.accepts_setQueue (p : Party) (q : Nat) (l : List Triple) : (p.setQueue q l).accepts = p.accepts := by
  unfold Party.setQueue
  split <;> rfl

section Arrivals

variable {s : State} {g : Group} {c : Conv} {reg role idx q dst : Nat} {addr len : W64}
  (turn : InTurn s g reg c role)

include turn

/-- The conversation is found as it has been set. -/
theorem InTurn.conv_set (d : Conv) (num : d.num = c.num) : (s.setConv d).conv? c.num = some d := by
  have conv := InTurn.conv turn
  rw [← num] at conv ⊢
  exact State.conv?_setConv_self d conv

/-- How a deal ends at the gate. -/
theorem State.gateArrive_tsend (there : dst < c.parties.length) :
    (∀ t, s.gateDeal c role g.uid idx q addr len dst s.tick = .done t → s.gateArrive g.uid idx (.tsend reg q addr len dst) = t) ∧
    (s.gateDeal c role g.uid idx q addr len dst s.tick = .waits →
      s.gateArrive g.uid idx (.tsend reg q addr len dst) = gateWaits s g idx (.tsend reg q addr len dst)) := by
  have party : DOp.lacksParty (.tsend reg q addr len dst) c role = false := decide_eq_false there.not_ge
  have process := (InTurn.arrives (idx := idx) turn (op := .tsend reg q addr len dst) rfl (by nofun))
  rw [process]
  refine ⟨fun t deals => ?_, fun waits => ?_⟩
  · simp only [State.process, InTurn.group turn, DOp.roleReg, Option.getD_some, InTurn.resolve turn party, State.takeStep,
      deals]
  · simp only [State.process, InTurn.group turn, DOp.roleReg, Option.getD_some, InTurn.resolve turn party, State.takeStep,
      waits, Option.getD_none]

/-- An accept joins those of its party, and what waits is tried. -/
theorem State.gateArrive_taccept (there : role < c.parties.length) :
    s.gateArrive g.uid idx (.taccept reg q addr len) = s.gateAccept c role g.uid idx q := by
  have party : DOp.lacksParty (.taccept reg q addr len) c role = false := decide_eq_false there.not_ge
  rw [InTurn.arrives (idx := idx) turn (op := .taccept reg q addr len) rfl (by nofun)]
  simp only [State.process, InTurn.group turn, DOp.roleReg, Option.getD_some, InTurn.resolve turn party]

theorem State.gateArrive_tburn {n : W64} (there : role < c.parties.length) :
    s.gateArrive g.uid idx (.tburn reg q n) = s.gateBurn c role g.uid idx q n := by
  have party : DOp.lacksParty (.tburn reg q n) c role = false := decide_eq_false there.not_ge
  rw [InTurn.arrives (idx := idx) turn (op := .tburn reg q n) rfl (by nofun)]
  simp only [State.process, InTurn.group turn, DOp.roleReg, Option.getD_some, InTurn.resolve turn party]

/-- The state in which the accept of a party is the only thing that waits at its conversation. -/
def Conv.accepting (c : Conv) (role uid idx q : Nat) : Conv :=
  c.setParty role { c.party role with accepts := [(uid, idx, q)] }

theorem InTurn.oneAccept (quiet : Quiet c) (there : role < c.parties.length) (queue : q < 3) :
    OneAccept (s.setConv (c.accepting role g.uid idx q)) (c.accepting role g.uid idx q) role g.uid idx q where
  conv := InTurn.conv_set turn _ rfl
  closed := quiet.1
  party := by
    rw [Conv.accepting, Conv.setParty, List.length_set]
    exact there
  queue := queue
  own := by rw [Conv.accepting, Conv.party_setParty_self there]
  others p other := by rw [Conv.accepting, Conv.party_setParty_other other, Conv.accepts_of_quiet quiet]

omit turn in
/-- What the conversation becomes when its one accept is over. -/
theorem State.setConv_accepted (there : role < c.parties.length) (x : Party → Party)
    (same : x { c.party role with accepts := [(g.uid, idx, q)] } = x (c.party role)) :
    (s.setConv (c.accepting role g.uid idx q)).setConv ((c.accepting role g.uid idx q).setParty role
      (x ((c.accepting role g.uid idx q).party role))) = s.setConv (c.setParty role (x (c.party role))) := by
  have own : (c.accepting role g.uid idx q).party role = { c.party role with accepts := [(g.uid, idx, q)] } :=
    Conv.party_setParty_self there _
  rw [own, same, State.setConv_setConv]
  · rw [Conv.accepting, Conv.setParty_setParty]
  · rfl

theorem State.gateArrive_taccept_quiet (quiet : Quiet c) (there : role < c.parties.length) :
    s.gateArrive g.uid idx (.taccept reg q addr len) = (s.setConv (c.accepting role g.uid idx q)).settle c.num := by
  rw [State.gateArrive_taccept turn there, State.gateAccept, Conv.accepts_of_quiet quiet]
  rfl

end Arrivals

/-- R217, R218, R220. -/
theorem triplesAtTheGate : TriplesAtTheGate := by
  refine ⟨?_, ?_, ?_⟩
  · intro s g c reg role idx q n turn there quiet pa left
    have set : pa.setQueue q ((pa.queue q).drop n.toNat) = left := by
      by_cases arith : q = 0 <;> simp only [Party.setQueue, Party.queue, left, arith, if_true, if_false]
    have none : left.accepts = [] := set ▸ (Party.accepts_setQueue ..).trans (Conv.accepts_of_quiet quiet role)
    rw [State.gateArrive_tburn turn there]
    simp only [State.gateBurn]
    rw [set]
    refine State.settle_of_quiet ((AnswersOnly.ret ..).quietAt ?_)
    exact State.quietAt_of_conv? (InTurn.conv_set turn (c.setParty role left) rfl) (Quiet.setParty quiet role none)
  · intro s g c reg role idx q dst addr len turn there below op arrives fails pa
    have hg := InTurn.group turn
    obtain ⟨done, waits⟩ := State.gateArrive_tsend (idx := idx) (q := q) (addr := addr) (len := len) turn there
    have words : q ≠ 2 := below.ne
    refine ⟨fun refused => done _ (State.gateDeal_refused there refused), fun e permitted => ?_⟩
    have free (empty : pa.inbox q = none) : s.dealWaits c q len dst s.tick = false := by
      rw [State.dealWaits, empty, beq_false_of_ne words]
      rfl
    have bytes : (if q = 2 then len.toNat else 16 * len.toNat) = 16 * len.toNat := if_neg words
    refine ⟨fun full => waits (State.gateDeal_waits hg there permitted ?_), fun cause x a empty range => ?_,
      fun pls empty range sound => ⟨fun above => ?_, fun low quiet => ?_⟩⟩
    · rw [State.dealWaits, full, Bool.true_or]
    · exact done _ (State.gateDeal_fails hg there permitted (free empty) (by rwa [bytes]))
    · exact done _ (State.gateDeal_index hg there permitted (free empty) (by rwa [bytes]) sound words above)
    · refine ⟨⟨triplesOf (pa.next q) len.toNat (s.readRange pls), [], len.toNat⟩, rfl, rfl, length_triplesOf .., fun i hi =>
        triplesOf_getElem? _ _ hi, ?_⟩
      have dealt := done _ (State.gateDeal_dealt hg there permitted (free empty) (by rwa [bytes]) sound (Or.inr low))
      simp only [if_neg words] at dealt
      refine dealt.trans ?_
      rw [State.settle_of_quiet ((AnswersOnly.ret ..).quietAt (State.quietAt_of_conv? (InTurn.conv_set turn
        (c.dealt dst q _ _ e) rfl) (Quiet.dealt quiet dst q _ _ e))), Conv.dealt_words below]
  · intro s g c reg role idx q addr len turn there quiet below pending arrives pa becomes taken waits
    have words : q ≠ 2 := below.ne
    have one := InTurn.oneAccept (idx := idx) turn quiet there (below.trans (by decide : 2 < 3))
    have same : arrives = waits.settle c.num := State.gateArrive_taccept_quiet turn quiet there
    have own : (c.accepting role g.uid idx q).party role = { pa with accepts := [(g.uid, idx, q)] } :=
      Conv.party_setParty_self there _
    have inbox : ((c.accepting role g.uid idx q).party role).inbox q = pa.inbox q := by rw [own]; rfl
    rw [same]
    refine ⟨fun empty => ?_, fun b batch => ?_⟩
    · exact one.settle (State.tryAccept_of_empty one (inbox.trans empty)) (Or.inl rfl)
    · have hg : s.group? g.uid = some g := InTurn.group turn
      obtain ⟨differs, fits, -⟩ := State.tryAccept_of_batch (s := s.setConv (c.accepting role g.uid idx q)) one hg pending (inbox.trans batch)
      have quietAt (x : Party) (none : x.accepts = []) : (becomes x).QuietAt c.num :=
        State.quietAt_of_conv? (InTurn.conv_set turn (c.setParty role x) rfl) (Quiet.setParty quiet role none)
      have none : pa.accepts = [] := Conv.accepts_of_quiet quiet role
      have dropped : pa.accepted q = taken := Party.accepted_words none below
      have filled : (pa.accepted q).setQueue q (pa.queue q ++ b.triples) =
          if q = 0 then { taken with arith := pa.arith ++ b.triples } else { taken with bools := pa.bools ++ b.triples } := by
        rw [dropped]
        unfold Party.setQueue Party.queue
        split_ifs <;> rfl
      refine ⟨fun other => ?_, fun length full => ?_, fun length room => ?_⟩
      · have fails := differs other
        rw [State.freedTile, if_neg words,
          State.setConv_accepted there (fun p => p.accepted q) (Party.accepted_accepts ..), dropped] at fails
        exact one.settle fails (Or.inr ((AnswersOnly.gateFail ..).quietAt (quietAt taken (dropped ▸ rfl))))
      · refine one.settle ((fits length words).trans (if_pos ?_)) (Or.inl rfl)
        rw [own]
        exact full
      · have takes := (fits length words).trans (if_neg (by rw [own]; exact room.not_gt))
        rw [State.setConv_accepted there (fun p => (p.accepted q).setQueue q (p.queue q ++ b.triples))
          (congrArg (fun x => x.setQueue q (pa.queue q ++ b.triples)) (Party.accepted_accepts ..)), filled] at takes
        exact one.settle takes (Or.inr ((AnswersOnly.ret ..).quietAt (quietAt _ (filled ▸ Party.accepts_setQueue ..))))

end Sys2Proof.Machine
end

section
/-!
Tiles at the gate (R218, R305), and the conversation instructions as a whole.
-/

namespace Sys2Proof.Machine

open Sys2Proof Sys2Proof.Claims

/-- No send stands before another for the tile pool when no send of a tile waits (R305). -/
theorem State.tilesBefore_eq_false {s : State} (none : ∀ d ∈ s.pkg.waits, ∀ r a n p, d.op ≠ .tsend r 2 a n p) (since : Nat) :
    s.tilesBefore since = false := by
  rw [State.tilesBefore, List.any_eq_false]
  rintro ⟨before, d⟩ mem
  have waits : d ∈ s.pkg.waits := List.of_mem_zip (List.mem_of_mem_filter mem) |>.2
  rw [Bool.and_eq_true, not_and]
  intro _
  split
  next r q a n dst c op conv =>
    have words : q ≠ 2 := by
      rintro rfl
      exact none d waits _ _ _ _ op
    rw [beq_false_of_ne words, Bool.false_and]
    exact Bool.false_ne_true
  next => exact Bool.false_ne_true

/-- R218, R305. -/
theorem tilesAtTheGate : TilesAtTheGate := by
  refine ⟨?_, ?_⟩
  · intro s g c reg role idx dst addr len turn there first op arrives pa
    have hg := InTurn.group turn
    obtain ⟨done, waits⟩ := State.gateArrive_tsend (idx := idx) (q := 2) (addr := addr) (len := len) turn there
    refine ⟨fun refused => done _ (State.gateDeal_refused there refused), fun e permitted => ⟨fun full => ?_, fun empty room =>
      ⟨fun cause x a range => ?_, fun pls range sound quiet => ?_⟩⟩⟩
    · refine waits (State.gateDeal_waits hg there permitted ?_)
      simp only [State.dealWaits, State.tilesBefore_eq_false first, Bool.or_false, beq_self_eq_true, Bool.true_and,
        Bool.or_eq_true, decide_eq_true_eq]
      exact full.imp_left Option.isSome_iff_ne_none.mpr
    all_goals
      have free : s.dealWaits c 2 len dst s.tick = false := by
        have none : (c.party dst).inbox 2 = Option.none := empty
        rw [State.dealWaits, State.tilesBefore_eq_false first, none, decide_eq_false (show ¬tilePoolSize < _ from room.not_gt)]
        rfl
    · exact done _ (State.gateDeal_fails hg there permitted free range)
    · refine (done _ (State.gateDeal_dealt hg there permitted free range sound (Or.inl rfl))).trans ?_
      have found := InTurn.conv_set turn (c.dealt dst 2 0 ⟨[], s.readRange pls, len.toNat⟩ e) rfl
      exact State.settle_of_quiet ((AnswersOnly.ret ..).quietAt (State.quietAt_of_conv? found (Quiet.dealt quiet dst 2 _ _ e)))
  · intro s g c reg role idx addr len turn there quiet pending arrives pa taken
    have one := InTurn.oneAccept (idx := idx) turn quiet there (by decide : 2 < 3)
    have same : arrives = (s.setConv (c.accepting role g.uid idx 2)).settle c.num :=
      State.gateArrive_taccept_quiet turn quiet there
    have own : (c.accepting role g.uid idx 2).party role = { pa with accepts := [(g.uid, idx, 2)] } :=
      Conv.party_setParty_self there _
    have inbox : ((c.accepting role g.uid idx 2).party role).inbox 2 = pa.inT := by rw [own]; rfl
    rw [same]
    refine ⟨fun empty => ?_, fun b batch => ?_⟩
    · exact one.settle (State.tryAccept_of_empty one (inbox.trans empty)) (Or.inl rfl)
    · have hg : s.group? g.uid = some g := InTurn.group turn
      obtain ⟨differs, -, writes⟩ := State.tryAccept_of_batch (s := s.setConv (c.accepting role g.uid idx 2)) one hg pending
        (inbox.trans batch)
      have none : pa.accepts = [] := Conv.accepts_of_quiet quiet role
      have dropped : pa.accepted 2 = { pa with inT := Option.none } := by
        rw [Party.accepted, ← none]
        rfl
      have set := State.setConv_accepted (s := s) (g := g) (idx := idx) (q := 2) there (fun p => p.accepted 2)
        (Party.accepted_accepts ..)
      have becomes (n : Nat) : ((s.setConv (c.accepting role g.uid idx 2)).setConv ((c.accepting role g.uid idx 2).setParty role
          (((c.accepting role g.uid idx 2).party role).accepted 2))).freedTile 2 n = taken n := by
        rw [set, dropped]
        rfl
      have calm (n : Nat) : (taken n).QuietAt c.num := State.quietAt_of_conv?
        (InTurn.conv_set turn (c.setParty role { pa with inT := Option.none }) rfl) (Quiet.setParty quiet role none)
      rw [becomes] at differs writes
      refine ⟨fun other => ?_, fun pls length range => ?_⟩
      · exact one.settle (differs other) (Or.inr ((AnswersOnly.gateFail ..).quietAt (calm _)))
      · exact one.settle (writes pls length rfl ((State.range_setConv ..).trans range))
          (Or.inr (((AnswersOnly.writeRange ..).trans (AnswersOnly.ret ..)).quietAt (calm _)))

/-- Settles O20, one theorem for each of its parts. -/
theorem conversationInstructionsIssue : Obligations.ConversationInstructionsIssue :=
  ⟨conversationInstructionsAreCaptured, gateKeepsTheOrder, roleRegistersAreChecked, sendsAtTheGate, receivesAtTheGate,
    delegationAtTheGate, stateReadAtTheGate, abortAtTheGate, triplesAtTheGate, tilesAtTheGate⟩

end Sys2Proof.Machine
end

section
/-!
What a virtual function takes in stage 0 of a wake: nothing, since no partition is there yet (R308, Table 2; R328). The statements
O51 and O53 have a function take accesses whenever it is enabled, and its enabling outlives the sleep.
-/

namespace Sys2Proof.Machine

open Sys2Proof Sys2Proof.Claims

/-! ## Functions that are off -/

theorem Package.functionOn_of_waking {k : Package} {f : Nat} (waking : k.sleepSt = .waking) (virtual : f ≠ 0) :
    k.functionOn f = false := by
  simp [Package.functionOn, waking, virtual]

/-- A reset of a function that is off is discarded. -/
theorem exec_vfFlr_of_waking {s : State} (f : Nat) (waking : s.pkg.sleepSt = .waking) : exec (.vfFlr f) s = .next s := by
  rw [Laws.exec_vfFlr, execVfFlr]
  split
  next => rfl
  next virtual =>
    rw [State.resetFunction, Package.functionOn_of_waking waking virtual]
    rfl

/-- A message to a function that is off is not read. -/
theorem exec_channelMessage_of_waking {s : State} {ch : Nat} (bs : List Byte) (waking : s.pkg.sleepSt = .waking)
    (virtual : ch ≠ 0) : exec (.channelMessage ch bs) s = .next s := by
  rw [Laws.exec_channelMessage, execChannelMessage, State.channelMessage]
  split
  next => rfl
  next => rw [Package.functionOn_of_waking waking virtual]; rfl

/-! ## A machine that wakes -/

/-- A channel without a key, whose ring of two slots holds a message. -/
def ringingChannel : Channel := { Channel.reset with log := 1, head := 1 }

/-- The machine that wakes, with that channel for the function of partition 0. -/
def ringingMachine : State :=
  { wakingMachine with pkg := { wakingMachine.pkg with channels := wakingMachine.pkg.channels.set 1 ringingChannel } }

theorem functionsOn_ringingMachine : functionsOn ringingMachine.pkg 1 := functionsOn_wakingMachine

theorem channel_ringingMachine : ringingMachine.pkg.channels[1]? = some ringingChannel := rfl

/-- Refutes O51: a reset of the function of partition 0 in stage 0 of a wake. The statement has it clear the ring registers of the
function's channel; the model lets no function but PF0 take accesses before the wake has made the partitions again (R308). -/
theorem not_startEvents : ¬ Obligations.StartEvents := by
  intro claim
  obtain ⟨-, -, -, -, -, -, -, -, -, -, resets, -⟩ := claim ringingMachine 1 0
  have cleared := resets one_ne_zero functionsOn_ringingMachine Mailbox.reset ringingChannel rfl channel_ringingMachine
  have zero : channelLogAfter (exec (.vfFlr 1) ringingMachine) = some 0 := by
    rw [cleared]
    rfl
  rw [exec_vfFlr_of_waking 1 rfl] at zero
  exact absurd zero (by decide)

/-- The replies on the ring of channel 1 after a step. -/
def repliesAfter (o : Host.Outcome State Fault Refusal) : Option Nat :=
  match o with
  | .next t => t.pkg.channels[1]?.map (·.replies.length)
  | _ => none

/-- Refutes O53: a message on the ring of the function of partition 0 in stage 0 of a wake. The statement has it answered, since the
channel has no key; the model leaves it on the ring, since no function but PF0 takes accesses before the wake has made the
partitions again (R308). -/
theorem not_channelEvents : ¬ Obligations.ChannelEvents := by
  rintro ⟨decided, -⟩
  obtain ⟨d, t, ⟨unkeyed, -⟩, set, undelivered, -⟩ := decided ringingMachine 1 ringingChannel [] functionsOn_ringingMachine
    channel_ringingMachine (by decide) (by decide) (by decide) (by decide)
  have answered := unkeyed rfl
  have one : repliesAfter (exec (.channelMessage 1 []) ringingMachine) = some 1 := by
    rw [undelivered (by rw [answered]), set, answered]
    rfl
  rw [exec_channelMessage_of_waking [] rfl one_ne_zero] at one
  exact absurd one (by decide)

end Sys2Proof.Machine
end

section
/-!
A CORE_ADD where two partitions have one number: a command on the first puts it in the place of both (R288). No step of the model makes
such a state, but the statement O50 is of every state.
-/

namespace Sys2Proof.Machine

open Sys2Proof Sys2Proof.Claims

/-- A partition 0 that holds no cluster. -/
def bareTwin : Partition := Partition.fresh 0 0 1 0 0 0

/-- Another partition 0, which holds cluster 0. -/
def holdingTwin : Partition := Partition.fresh 0 1 2 0 0 0

/-- A machine in stage 2 with these two, in which cluster 0 is available. -/
def twinMachine : State :=
  { State.reset with
    parts := [bareTwin, holdingTwin], pkg := { Package.reset with powered := true, stage := 2, clavail := 1 } }

theorem commanded_twinMachine : Commanded twinMachine := ⟨rfl, by decide⟩

theorem part_twinMachine : twinMachine.part? 0 = some bareTwin := rfl

/-- The model: with its arrival the command replaces both partitions by the first, so that no partition holds the cluster. -/
theorem reply_coreAdd_twinMachine : (twinMachine.partCommand 0 (.coreAdd 1)).pkg.reply = .done := by
  decide +kernel

/-- Refutes O50: cluster 0, which the second partition 0 holds, is added to the first. The statement has the command refused, since
some partition holds the cluster; the model carries it out. -/
theorem not_managementCommands : ¬ Obligations.ManagementCommands := by
  rintro ⟨⟨-, commands, -⟩, -⟩
  obtain ⟨-, -, held, -⟩ := commands twinMachine bareTwin 0 0 1 0 commanded_twinMachine part_twinMachine rfl
  obtain ⟨t, step, -, refused⟩ := held ⟨holdingTwin, .tail _ (.head _), by decide⟩
  rw [Laws.exec_coreAdd, execCoreAdd] at step
  obtain rfl := Host.Outcome.next.inj step
  exact absurd (reply_coreAdd_twinMachine.symm.trans refused) (by decide)

end Sys2Proof.Machine
end

section
/-!
A service call of a control core, and what it returns (R287).
-/

namespace Sys2Proof.Machine

open Sys2Proof Sys2Proof.Claims

section Calls

variable {s : State} {p : Partition} {part cc : Nat}

theorem CanCall.part? (can : CanCall s p part cc) : s.part? part = some p := by
  obtain ⟨hp, -⟩ := can
  exact hp

theorem CanCall.num (can : CanCall s p part cc) : p.num = part := State.num_of_part? (CanCall.part? can)

variable {i : Instr} {c : Call} {f : Partition → CallEnd} (can : CanCall s p c.part c.cc) (step : exec i s = .next (s.service c f))

include can step

/-- A call that a control core may make ends as its table says. -/
theorem exec_of_canCall : exec i s = .next (s.endCall c (f p)) := by
  obtain ⟨hp, own, idle, awake⟩ := can
  have unheld : (s.pkg.heldCalls.any fun h => h.part == c.part && h.cc == c.cc) = false := by
    rw [List.any_eq_false]
    intro h hh
    simpa using idle h hh
  have goes : s.launchesStop = false := by rw [State.launchesStop, awake]; rfl
  rw [step, State.service, hp]
  simp only [own, unheld, goes, Bool.not_true, Bool.false_eq_true, if_false]

theorem answers_of_done {u : State} {v : W64} (ends : f p = .done u v) : Answers i s c.part c.cc 0 v u := by
  rw [Answers, exec_of_canCall can step, ends]
  rfl

theorem answers_of_pending {u : State} {v : W64} (ends : f p = .pending u v) : Answers i s c.part c.cc (-5) v u := by
  rw [Answers, exec_of_canCall can step, ends]
  rfl

theorem answers_of_refused {status : Int} {v : W64} (ends : f p = .refused status v) : Answers i s c.part c.cc status v s := by
  rw [Answers, exec_of_canCall can step, ends]
  rfl

theorem answers_of_poison {line : Nat} (ends : f p = .poison line) :
    Answers i s c.part c.cc (-2) 0 (s.lineError line none) := by
  rw [Answers, exec_of_canCall can step, ends]
  rfl

end Calls

theorem Partition.hasCtx_iff {p : Partition} {n : Nat} : p.hasCtx n = true ↔ ∃ c ∈ p.contexts, c.id = n := by
  simp [Partition.hasCtx]

/-- An address argument is refused when it is misaligned or its bytes do not lie below BOUND. -/
theorem Partition.argOk_iff {p : Partition} {a : W64} {n align : Nat} :
    p.argOk a n align = true ↔ a.toNat % align = 0 ∧ a.toNat + n ≤ p.bound := by
  simp [Partition.argOk]

theorem Partition.argOk_eq_false_iff {p : Partition} {a : W64} {n align : Nat} :
    p.argOk a n align = false ↔ a.toNat % align ≠ 0 ∨ p.bound < a.toNat + n := by
  rw [← Bool.not_eq_true, Partition.argOk_iff, not_and_or, not_le]


end Sys2Proof.Machine
end

section
/-!
What the end of a world leaves of the machine (R294, R297): partitions keep their contexts, and launches, groups and translations
only become fewer.
-/

namespace Sys2Proof.Machine

open Sys2Proof Sys2Proof.Claims

/-! ## Fewer launches -/

/-- From `p` to `q` a partition keeps its contexts, and its launches only become fewer. -/
def Partition.Fewer (p q : Partition) : Prop := q.contexts = p.contexts ∧ ∀ l ∈ q.launches, l ∈ p.launches

/-- From `s` to `t` partitions keep their contexts, and launches, groups (by number, partition and launch) and copies of page-table entries
only become fewer. -/
structure EndsOnly (s t : State) : Prop where
  parts : ∀ n p, s.part? n = some p → ∃ q, t.part? n = some q ∧ p.Fewer q
  groups : ∀ g ∈ t.groups, ∃ h ∈ s.groups, h.uid = g.uid ∧ h.part = g.part ∧ h.lid = g.lid
  tlb : ∀ e ∈ t.tlb, e ∈ s.tlb

namespace EndsOnly

variable {s t u : State}

theorem of_eq (parts : t.parts = s.parts) (groups : t.groups = s.groups) (tlb : t.tlb = s.tlb) : EndsOnly s t :=
  ⟨fun _ p hp => ⟨p, (State.part?_congr parts _).trans hp, rfl, fun _ hl => hl⟩, fun g hg => ⟨g, groups ▸ hg, rfl, rfl, rfl⟩,
    fun _ he => tlb ▸ he⟩

theorem refl (s : State) : EndsOnly s s := of_eq rfl rfl rfl

theorem trans (h : EndsOnly s t) (k : EndsOnly t u) : EndsOnly s u := by
  refine ⟨fun n p hp => ?_, fun g hg => ?_, fun e he => h.tlb e (k.tlb e he)⟩
  · obtain ⟨q, hq, ctx, fewer⟩ := h.parts n p hp
    obtain ⟨r, hr, ctx', fewer'⟩ := k.parts n q hq
    exact ⟨r, hr, ctx'.trans ctx, fun l hl => fewer l (fewer' l hl)⟩
  · obtain ⟨x, hx, uid, part, lid⟩ := k.groups g hg
    obtain ⟨y, hy, uid', part', lid'⟩ := h.groups x hx
    exact ⟨y, hy, uid'.trans uid, part'.trans part, lid'.trans lid⟩

theorem foldl {α : Type} {f : State → α → State} (step : ∀ s a, EndsOnly s (f s a)) (l : List α) (s : State) :
    EndsOnly s (l.foldl f s) := by
  induction l generalizing s with
  | nil => exact refl s
  | cons a l ih => exact (step s a).trans (ih _)

theorem ite {c : Bool} (yes : EndsOnly s t) (no : EndsOnly s u) : EndsOnly s (if c = true then t else u) := by
  cases c with
  | true => exact yes
  | false => exact no

/-- Groups of which there is none stay gone. -/
theorem no_group (h : EndsOnly s t) {P : Nat → Nat → Nat → Prop} (gone : ∀ g ∈ s.groups, ¬P g.uid g.part g.lid) :
    ∀ g ∈ t.groups, ¬P g.uid g.part g.lid := by
  intro g hg
  obtain ⟨x, hx, uid, part, lid⟩ := h.groups g hg
  rw [← uid, ← part, ← lid]
  exact gone x hx

/-! ### Partitions and reports -/

theorem setPart {n : Nat} {p q : Partition} (hp : s.part? n = some p) (num : q.num = p.num) (fewer : p.Fewer q) :
    EndsOnly s (s.setPart q) := by
  refine ⟨fun m r hr => ?_, fun g hg => ⟨g, hg, rfl, rfl, rfl⟩, fun _ he => he⟩
  by_cases own : m = n
  · subst own
    obtain rfl : p = r := Option.some.inj (hp.symm.trans hr)
    exact ⟨q, State.part?_setPart_of_num hp num, fewer⟩
  · have other : m ≠ q.num := fun same => own (same.trans (num.trans (State.num_of_part? hp)))
    exact ⟨r, (s.part?_setPart_other q m other).trans hr, rfl, fun _ hl => hl⟩

theorem updPart (s : State) (n : Nat) {f : Partition → Partition} (num : ∀ p, (f p).num = p.num) (fewer : ∀ p, Partition.Fewer p (f p)) :
    EndsOnly s (s.updPart n f) := by
  unfold State.updPart
  split
  next p hp => exact setPart hp (num p) (fewer p)
  next => exact refl s

/-- What the gate answers ends nothing. -/
theorem of_answers (h : AnswersOnly s t) : EndsOnly s t := by
  have parts : t.parts = s.parts := by rw [h.frame]
  have tlb : t.tlb = s.tlb := by rw [h.frame]
  exact ⟨fun _ p hp => ⟨p, (State.part?_congr parts _).trans hp, rfl, fun _ hl => hl⟩, h.groups, fun _ he => tlb ▸ he⟩

theorem writeAt (s : State) (pl : Place) (bs : List Byte) : EndsOnly s (s.writeAt pl bs) := of_answers (AnswersOnly.writeAt ..)

theorem ringWrite (s : State) (p : Partition) (r : Report) (last : Bool) : EndsOnly s (s.ringWrite p r last) := by
  have written (a : Nat) : EndsOnly s
      ((s.writePart p a r.toBytes).updPart p.num fun p => { p with ringHead := p.ringHead + 1 }) :=
    (writeAt ..).trans (updPart _ _ (fun _ => rfl) fun _ => ⟨rfl, fun _ hl => hl⟩)
  cases last with
  | true => exact (written _).trans (of_eq rfl rfl rfl)
  | false => exact written _

theorem ringPush (s : State) (part : Nat) (r : Report) (last : Bool) : EndsOnly s (s.ringPush part r last) := by
  unfold State.ringPush
  split
  next => exact refl s
  next p hp =>
    split
    · exact ringWrite ..
    · split
      · exact setPart hp rfl ⟨rfl, fun _ hl => hl⟩
      · exact setPart hp rfl ⟨rfl, fun _ hl => hl⟩

theorem pushEntries (s : State) (part list : Nat) (es : List Entry) : EndsOnly s (s.pushEntries part list es) := by
  induction es generalizing s with
  | nil => exact refl s
  | cons e es ih =>
    cases es with
    | nil => exact ringPush ..
    | cons _ _ => exact (ringPush ..).trans (ih _)

theorem reportList (s : State) (part : Nat) (es : List Entry) : EndsOnly s (s.reportList part es) := by
  unfold State.reportList
  split
  next => exact refl s
  next p hp =>
    split
    · exact refl s
    · exact (setPart (q := { p with listNum := p.listNum + 1 }) hp rfl ⟨rfl, fun _ hl => hl⟩).trans (pushEntries ..)

/-! ### Groups and teams that end -/

theorem genDrop (s : State) (part core : Nat) : EndsOnly s (s.genDrop part core) := by
  have counted : EndsOnly s (s.countEvents part core 7 1).1 := by
    unfold State.countEvents
    split
    next => exact refl s
    next p hp =>
      exact (setPart (q := { p with evsum := p.evsum.set 7 (p.evsum.getD 7 0 + BitVec.ofNat 64 1) }) hp rfl
        ⟨rfl, fun _ hl => hl⟩).trans (of_eq rfl rfl rfl)
  exact ite (counted.trans (reportList ..)) counted

theorem performLate (s : State) (uid : Nat) : EndsOnly s (s.performLate uid) := by
  unfold State.performLate
  split
  · exact (foldl (fun s l => writeAt s _ _) _ s).trans (of_eq rfl rfl rfl)
  · exact refl s

theorem performAll (s : State) : EndsOnly s s.performAll := foldl performLate _ s

theorem dropGroup (s : State) (uid : Nat) : EndsOnly s (s.dropGroup uid) :=
  ⟨fun _ p hp => ⟨p, hp, rfl, fun _ hl => hl⟩, fun g hg => ⟨g, List.mem_of_mem_filter hg, rfl, rfl, rfl⟩, fun _ he => he⟩

theorem removeGroup (s : State) (uid : Nat) : EndsOnly s (s.removeGroup uid) :=
  (((performLate s uid).trans (dropGroup _ uid)).trans (foldl (fun s (x : Nat × Nat) => genDrop s x.1 x.2) _ _)).trans (of_eq rfl rfl rfl)

theorem clearSlices (s : State) (a n : Nat) : EndsOnly s (s.clearSlices a n) := of_eq rfl rfl rfl

theorem removeTeam (s : State) (t : Team) : EndsOnly s (s.removeTeam t) := by
  have reported : EndsOnly s (s.reportUnacquired t).performAll :=
    (foldl (fun s c => reportList s t.part _) _ s).trans (performAll _)
  have even : EndsOnly s (if t.spilled.isSome then (s.reportUnacquired t).performAll
      else (s.reportUnacquired t).performAll.clearSlices (sliceSize * t.core + t.sliceOff) t.sliceLen) :=
    ite reported (reported.trans (clearSlices ..))
  exact (even.trans (ite (clearSlices ..) (refl _))).trans (of_eq rfl rfl rfl)

theorem settleBusy (s : State) (part : Nat) : EndsOnly s (s.settleBusy part) :=
  updPart s part (fun _ => rfl) fun _ => ⟨rfl, fun _ hl => hl⟩

/-! ### Launches and worlds that end -/

theorem removeGroups (gs : List Group) (s : State) : EndsOnly s (gs.foldl (fun s g => s.removeGroup g.uid) s) :=
  foldl (fun s (g : Group) => removeGroup s g.uid) gs s

theorem dropLaunch (s : State) (part lid : Nat) :
    EndsOnly s (s.updPart part fun p => { p with launches := p.launches.filter fun l => l.lid != lid }) :=
  updPart (f := fun p => { p with launches := p.launches.filter fun l => l.lid != lid }) s part (fun _ => rfl) fun p =>
    ⟨rfl, fun l hl => by exact List.mem_of_mem_filter hl⟩

/-- What follows the end of a launch's groups. -/
theorem removeLaunch_of_groups (s : State) (part lid : Nat) :
    EndsOnly ((s.groups.filter fun g => g.part == part && g.lid == lid).foldl (fun s g => s.removeGroup g.uid) s)
      (s.removeLaunch part lid) := by
  unfold State.removeLaunch
  refine EndsOnly.trans ?_ (settleBusy _ part)
  refine EndsOnly.trans ?_ (dropLaunch _ part lid)
  exact (foldl removeTeam _ _).trans (of_eq rfl rfl rfl)

theorem removeLaunch (s : State) (part lid : Nat) : EndsOnly s (s.removeLaunch part lid) :=
  (removeGroups _ s).trans (removeLaunch_of_groups s part lid)

theorem dropTlb (s : State) (w : Nat) : EndsOnly s (s.dropTlb w) :=
  ⟨fun _ p hp => ⟨p, hp, rfl, fun _ hl => hl⟩, fun g hg => ⟨g, hg, rfl, rfl, rfl⟩, fun _ he => List.mem_of_mem_filter he⟩

theorem abortConv (s : State) (cn : Nat) (gone : List Nat) : EndsOnly s (s.abortConv cn gone).s := by
  obtain none | ⟨c, conv⟩ := Option.eq_none_or_eq_some (s.conv? cn)
  · rw [State.abortConv, none]
    exact refl s
  · obtain aborted | going := Bool.eq_false_or_eq_true c.aborted
    · simp only [State.abortConv, conv, aborted, if_true]
      exact refl s
    · obtain rfl := s.num_of_conv? conv
      obtain ⟨pool, after⟩ := State.abortConv_s conv going gone
      rw [after]
      exact (of_answers (State.abortAnswers_only c gone (s.splitWaits c.num [] s.pkg.waits).1)).trans (of_eq rfl rfl rfl)

theorem abortAll (s : State) (gone cns : List Nat) : EndsOnly s (s.abortAll gone cns).1 := by
  induction cns generalizing s with
  | nil => exact refl s
  | cons cn cns ih =>
    rw [State.abortAll]
    split
    next => exact ih s
    next => exact (abortConv s cn gone).trans (ih _)

/-- After the worlds are ended, what terminates them only aborts conversations and opens lists. -/
theorem terminateWorlds (s : State) (ws : List Nat) (y : Why) :
    EndsOnly (s.endWorlds (sortNat ws.dedup)) (s.terminateWorlds ws y) := by
  have cast : EndsOnly (s.endWorlds (sortNat ws.dedup)) ((s.endWorlds (sortNat ws.dedup)).castWorlds (sortNat ws.dedup)) :=
    of_eq rfl rfl rfl
  let t := (s.endWorlds (sortNat ws.dedup)).castWorlds (sortNat ws.dedup)
  let cns := (t.pkg.convs.filter fun c => !c.aborted && c.worlds.any (sortNat ws.dedup).contains).map (·.num)
  exact (cast.trans (abortAll t (sortNat ws.dedup) cns)).trans (of_eq rfl rfl rfl)

end EndsOnly

/-! ## What a launch and a world leave -/

section Removed

variable {s : State} {part lid : Nat}

theorem State.removeGroup_gone (s : State) (uid : Nat) : ∀ g ∈ (s.removeGroup uid).groups, g.uid ≠ uid := by
  have dropped : ∀ g ∈ ((s.performLate uid).dropGroup uid).groups, ¬g.uid = uid := fun g hg => by
    simpa using List.of_mem_filter hg
  exact ((EndsOnly.foldl (fun s (x : Nat × Nat) => EndsOnly.genDrop s x.1 x.2) _ _).trans (EndsOnly.of_eq rfl rfl rfl)).no_group
    (P := fun u _ _ => u = uid) dropped

theorem State.removeGroups_gone (gs : List Group) (s : State) :
    ∀ h ∈ gs, ∀ g ∈ (gs.foldl (fun s g => s.removeGroup g.uid) s).groups, g.uid ≠ h.uid := by
  induction gs generalizing s with
  | nil => exact fun _ hh => absurd hh List.not_mem_nil
  | cons k gs ih =>
    intro h hh
    rcases List.mem_cons.mp hh with rfl | hh
    · exact (EndsOnly.removeGroups gs (s.removeGroup h.uid)).no_group (P := fun u _ _ => u = h.uid) (s.removeGroup_gone h.uid)
    · exact ih _ h hh

/-- No group of a launch outlives it. -/
theorem State.removeLaunch_groups (s : State) (part lid : Nat) :
    ∀ g ∈ (s.removeLaunch part lid).groups, ¬(g.part = part ∧ g.lid = lid) := by
  let gs := s.groups.filter fun g => g.part == part && g.lid == lid
  have gone : ∀ g ∈ (gs.foldl (fun s g => s.removeGroup g.uid) s).groups, ¬(g.part = part ∧ g.lid = lid) := by
    rintro g hg ⟨hp, hl⟩
    obtain ⟨h, hh, uid, part', lid'⟩ := (EndsOnly.removeGroups gs s).groups g hg
    have mine : h ∈ gs := List.mem_filter.mpr ⟨hh, by simp [part', lid', hp, hl]⟩
    exact s.removeGroups_gone gs h mine g hg uid.symm
  exact (EndsOnly.removeLaunch_of_groups s part lid).no_group (P := fun _ p l => p = part ∧ l = lid) gone

end Removed

end Sys2Proof.Machine
end

section
/-!
The end of a world: none of its launches, groups and translations is left (R294).
-/

namespace Sys2Proof.Machine

open Sys2Proof Sys2Proof.Claims

/-- No launch of this number is left in a partition, and no group of it. -/
def State.LaunchGone (s : State) (part lid : Nat) : Prop :=
  (∀ q, s.part? part = some q → ∀ l ∈ q.launches, l.lid ≠ lid) ∧ ∀ g ∈ s.groups, ¬(g.part = part ∧ g.lid = lid)

section Gone

variable {s t : State} {part lid : Nat} {p : Partition} (hp : s.part? part = some p)

include hp

theorem EndsOnly.part? (h : EndsOnly s t) : ∃ q, t.part? part = some q ∧ p.Fewer q := h.parts part p hp

/-- Launches of which there is none stay gone. -/
theorem EndsOnly.no_launch (h : EndsOnly s t) {P : Launch → Prop} (gone : ∀ l ∈ p.launches, ¬P l) {q : Partition}
    (hq : t.part? part = some q) : ∀ l ∈ q.launches, ¬P l := by
  intro l hl
  obtain ⟨r, hr, -, fewer⟩ := EndsOnly.part? hp h
  obtain rfl : r = q := Option.some.inj (hr.symm.trans hq)
  exact gone l (fewer l hl)

theorem EndsOnly.launchGone (h : EndsOnly s t) (gone : s.LaunchGone part lid) : t.LaunchGone part lid :=
  ⟨fun _ hq => EndsOnly.no_launch (P := fun l => l.lid = lid) hp h (gone.1 p hp) hq,
    h.no_group (P := fun _ a b => a = part ∧ b = lid) gone.2⟩

/-- A launch that is removed is gone. -/
theorem State.launchGone_removeLaunch : (s.removeLaunch part lid).LaunchGone part lid := by
  refine ⟨fun q hq => ?_, s.removeLaunch_groups part lid⟩
  obtain ⟨u, before, after⟩ : ∃ u, EndsOnly s u ∧ s.removeLaunch part lid =
      (u.updPart part fun p => { p with launches := p.launches.filter fun l => l.lid != lid }).settleBusy part := by
    refine ⟨_, ?_, rfl⟩
    exact ((EndsOnly.removeGroups _ s).trans (EndsOnly.foldl EndsOnly.removeTeam _ _)).trans (EndsOnly.of_eq rfl rfl rfl)
  obtain ⟨r, hr, -⟩ := EndsOnly.part? hp before
  have dropped := State.part?_setPart_of_num (q := { r with launches := r.launches.filter fun l => l.lid != lid }) hr rfl
  rw [after, State.updPart_of_part? hr] at hq
  exact EndsOnly.no_launch (P := fun l => l.lid = lid) dropped (EndsOnly.settleBusy _ part) (fun l hl => by
    simpa using List.of_mem_filter hl) hq

/-- So are launches that are removed one after another. -/
theorem State.launchGone_removeLaunches (ls : List Launch) : ∀ l ∈ ls,
    (ls.foldl (fun s l => s.removeLaunch part l.lid) s).LaunchGone part l.lid := by
  induction ls generalizing s p with
  | nil => exact fun _ hl => absurd hl List.not_mem_nil
  | cons k ls ih =>
    intro l hl
    obtain ⟨q, hq, -⟩ := EndsOnly.part? hp (EndsOnly.removeLaunch s part k.lid)
    rcases List.mem_cons.mp hl with rfl | hl
    · exact EndsOnly.launchGone hq (EndsOnly.foldl (fun s (l : Launch) => EndsOnly.removeLaunch s part l.lid) ls _)
        (State.launchGone_removeLaunch hp)
    · exact ih hq l hl

/-- A world that is ended leaves no launch, no group of one, and no copy of a page-table entry (R294). -/
theorem State.endWorlds_world {n : Nat} (ctx : n < 128) :
    EndsOnly s (s.endWorlds [worldId part n]) ∧
    (∀ l ∈ p.launches, l.ctx = n → (s.endWorlds [worldId part n]).LaunchGone part l.lid) ∧
    ∀ e ∈ (s.endWorlds [worldId part n]).tlb, ¬(e.part = part ∧ e.ctx = n) := by
  have div : worldId part n / 128 = part := by
    rw [worldId]
    omega
  have mod : worldId part n % 128 = n := by
    rw [worldId]
    omega
  have mine : s.launchesOf (worldId part n) = p.launches.filter fun l => l.ctx == n := by
    rw [State.launchesOf, div, hp, mod]
  have ended : s.endWorlds [worldId part n] =
      ((p.launches.filter fun l => l.ctx == n).foldl (fun s l => s.removeLaunch part l.lid) s).dropTlb (worldId part n) := by
    rw [State.endWorlds, mine, div]
    rfl
  have removed := EndsOnly.foldl (fun s (l : Launch) => EndsOnly.removeLaunch s part l.lid)
    (p.launches.filter fun l => l.ctx == n) s
  obtain ⟨q, hq, -⟩ := EndsOnly.part? hp removed
  rw [ended]
  refine ⟨removed.trans (EndsOnly.dropTlb _ _), fun l hl own => ?_, fun e he => ?_⟩
  · exact EndsOnly.launchGone hq (EndsOnly.dropTlb _ _)
      (State.launchGone_removeLaunches hp _ l (List.mem_filter.mpr ⟨hl, beq_iff_eq.mpr own⟩))
  · have other : worldId e.part e.ctx ≠ worldId part n := by simpa using List.of_mem_filter he
    rintro ⟨rfl, rfl⟩
    exact other rfl

/-- A context's end, as CTX_DESTROY performs it (R294). -/
theorem State.terminateWorlds_world {n : Nat} (ctx : n < 128) (y : Why) :
    let u := s.terminateWorlds [worldId part n] y
    ∃ q, u.part? part = some q ∧ q.contexts = p.contexts ∧ (∀ l ∈ q.launches, l.ctx ≠ n) ∧
      (∀ g ∈ u.groups, ∀ l ∈ p.launches, l.ctx = n → ¬(g.part = part ∧ g.lid = l.lid)) ∧
      ∀ e ∈ u.tlb, ¬(e.part = part ∧ e.ctx = n) := by
  intro u
  have one : sortNat [worldId part n].dedup = [worldId part n] := by simp [sortNat, insertNat]
  have after : EndsOnly (s.endWorlds [worldId part n]) u := one ▸ EndsOnly.terminateWorlds s [worldId part n] y
  obtain ⟨ends, gone, dropped⟩ := State.endWorlds_world hp ctx
  obtain ⟨r, hr, -⟩ := EndsOnly.part? hp ends
  obtain ⟨q, hq, contexts, fewer⟩ := EndsOnly.part? hp (ends.trans after)
  refine ⟨q, hq, contexts, fun l hl own => ?_, fun g hg l hl own => ?_, fun e he => dropped e (after.tlb e he)⟩
  · exact (EndsOnly.launchGone hr after (gone l (fewer l hl) own)).1 q hq l hl rfl
  · exact (EndsOnly.launchGone hr after (gone l hl own)).2 g hg

end Gone

end Sys2Proof.Machine
end

section
/-!
The calls on contexts and on trapped groups (R287, R294, R301).
-/

namespace Sys2Proof.Machine

open Sys2Proof Sys2Proof.Claims

/-! ## Contexts -/

section Contexts

variable {s : State} {p : Partition} {part cc : Nat} {a0 a1 : W64} (can : CanCall s p part cc)

include can

/-- CTX_CREATE. -/
theorem ctxCreate_answers :
    (a0.toNat = 0 ∨ 127 < a0.toNat → Answers (.ctxCreate part cc a0) s part cc (-2) 0 s) ∧
    (a0.toNat ≠ 0 → a0.toNat ≤ 127 → (∃ c ∈ p.contexts, c.id = a0.toNat) → Answers (.ctxCreate part cc a0) s part cc (-4) 0 s) ∧
    (a0.toNat ≠ 0 → a0.toNat ≤ 127 → ¬(∃ c ∈ p.contexts, c.id = a0.toNat) → Answers (.ctxCreate part cc a0) s part cc 0 0
      (s.setPart { p with contexts := p.contexts ++ [⟨a0.toNat, none⟩] })) := by
  let c : Call := ⟨part, cc, 0, a0, 0, 0⟩
  have range (low : a0.toNat ≠ 0) (high : a0.toNat ≤ 127) : ¬(decide (a0.toNat = 0) || decide (127 < a0.toNat)) = true := by
    simp [low, high]
  refine ⟨fun out => answers_of_refused (c := c) (f := s.ctxCreate c) can rfl ?_,
    fun low high has => answers_of_refused (c := c) (f := s.ctxCreate c) can rfl ?_,
    fun low high new => answers_of_done (c := c) (f := s.ctxCreate c) can rfl ?_⟩
  · exact if_pos (by simpa using out)
  · exact (if_neg (range low high)).trans (if_pos (Partition.hasCtx_iff.mpr has))
  · exact (if_neg (range low high)).trans (if_neg (mt Partition.hasCtx_iff.mp new))

/-- The checks of CTX_DESTROY (R294). -/
theorem ctxDestroy_refused :
    (2 ≤ a1.toNat → Answers (.ctxDestroy part cc a0 a1) s part cc (-1) 0 s) ∧
    (a1.toNat < 2 → a0.toNat = 0 ∨ ¬(∃ c ∈ p.contexts, c.id = a0.toNat) →
      Answers (.ctxDestroy part cc a0 a1) s part cc (-2) 0 s) ∧
    (a1 = 0 → a0.toNat ≠ 0 → (∃ c ∈ p.contexts, c.id = a0.toNat) → (∃ l ∈ p.launches, l.ctx = a0.toNat) →
      Answers (.ctxDestroy part cc a0 a1) s part cc (-4) 0 s) := by
  let c : Call := ⟨part, cc, 1, a0, a1, 0⟩
  refine ⟨fun reserved => answers_of_refused (c := c) (f := s.ctxDestroy c) can rfl ?_,
    fun bits none => answers_of_refused (c := c) (f := s.ctxDestroy c) can rfl ?_,
    fun bits low has ⟨l, hl, own⟩ => answers_of_refused (c := c) (f := s.ctxDestroy c) can rfl ?_⟩
  · exact if_pos (show a1.toNat / 2 ≠ 0 by omega)
  · refine (if_neg (show ¬a1.toNat / 2 ≠ 0 by omega)).trans (if_pos ?_)
    rw [← Partition.hasCtx_iff] at none
    simpa [c] using none
  · refine (if_neg (by simp [c, bits])).trans ((if_neg ?_).trans (if_pos ?_))
    · simp [c, low, Partition.hasCtx_iff.mpr has]
    · have some : (p.launches.any fun l => l.ctx == a0.toNat) = true := List.any_eq_true.mpr ⟨l, hl, beq_iff_eq.mpr own⟩
      simp [c, bits, some]

/-- CTX_DESTROY ends everything of the context's world (R294). -/
theorem ctxDestroy_done (bits : a1.toNat < 2) (low : a0.toNat ≠ 0) (has : ∃ c ∈ p.contexts, c.id = a0.toNat)
    (ctx : a0.toNat < 128) (free : a1 = 1 ∨ ∀ l ∈ p.launches, l.ctx ≠ a0.toNat) :
    ∃ u q, Answers (.ctxDestroy part cc a0 a1) s part cc 0 0 u ∧ u.part? part = some q ∧
      q.contexts = (p.contexts.filter fun c => c.id != a0.toNat) ∧ (∀ l ∈ q.launches, l.ctx ≠ a0.toNat) ∧
      (∀ g ∈ u.groups, ∀ l ∈ p.launches, l.ctx = a0.toNat → ¬(g.part = part ∧ g.lid = l.lid)) ∧
      ∀ e ∈ u.tlb, ¬(e.part = part ∧ e.ctx = a0.toNat) := by
  let c : Call := ⟨part, cc, 1, a0, a1, 0⟩
  obtain ⟨q, hq, contexts, launches, groups, tlb⟩ :=
    State.terminateWorlds_world (CanCall.part? can) ctx (Why.plain 7)
  have num := CanCall.num can
  let left : Partition := { q with contexts := q.contexts.filter fun x => x.id != a0.toNat }
  have known : ¬(decide (a0.toNat = 0) || !p.hasCtx a0.toNat) = true := by simp [low, Partition.hasCtx_iff.mpr has]
  have forced : ¬(!a1.getLsbD 0 && p.launches.any fun l => l.ctx == a0.toNat) = true := by
    rcases free with rfl | free
    · simp
    · rw [List.any_eq_false.mpr fun l hl => by simpa using free l hl, Bool.and_false]
      exact Bool.false_ne_true
  have ends : s.ctxDestroy c p = .done ((s.terminateWorlds [worldId part a0.toNat] (Why.plain 7)).setPart left) 0 := by
    rw [← State.updPart_of_part? hq fun p => { p with contexts := p.contexts.filter fun x => x.id != a0.toNat }, ← num]
    exact (if_neg (show ¬a1.toNat / 2 ≠ 0 by omega)).trans ((if_neg known).trans (if_neg forced))
  exact ⟨_, left, answers_of_done (c := c) (f := s.ctxDestroy c) can rfl ends, State.part?_setPart_of_num hq rfl,
    congrArg (List.filter _) contexts, launches, groups, tlb⟩

/-- CTX_ROOT. -/
theorem ctxRoot_answers :
    (¬(∃ c ∈ p.contexts, c.id = a0.toNat) ∨ a1.toNat % 4096 ≠ 0 ∨ p.bound ≤ a1.toNat →
      Answers (.ctxRoot part cc a0 a1) s part cc (-2) 0 s) ∧
    ((∃ c ∈ p.contexts, c.id = a0.toNat) → a1.toNat % 4096 = 0 → a1.toNat < p.bound →
      Answers (.ctxRoot part cc a0 a1) s part cc 0 0 (s.setPart { p with
        contexts := p.contexts.map fun c => if c.id = a0.toNat then { c with root := some a1.toNat } else c })) := by
  let c : Call := ⟨part, cc, 2, a0, a1, 0⟩
  refine ⟨fun bad => answers_of_refused (c := c) (f := s.ctxRoot c) can rfl (if_pos ?_),
    fun has aligned below => answers_of_done (c := c) (f := s.ctxRoot c) can rfl (if_neg ?_)⟩
  · rw [← Partition.hasCtx_iff] at bad
    simpa [c, or_assoc] using bad
  · simp [c, Partition.hasCtx_iff.mpr has, aligned, below]

end Contexts

/-! ## Trapped groups -/

section Resumes

variable {s : State} {p : Partition} {part cc : Nat} {a0 a1 a2 : W64} {g : Group} {l : Launch}
  (can : CanCall s p part cc) (low : a1.toNat < 2 ^ 29) (named : p.named a0.toNat = some l)
  (trapped : Trapped s part l.lid (a1.toNat % 2 ^ 24) (a1.toNat / 2 ^ 24) g) (placed : g.spilled = none)

include can low named trapped placed

/-- GROUP_RESUME of a trapped group whose rows are in place, by its mode (R301). -/
theorem groupResume_answers :
    (l.preempted = false → a2 = 0 → Answers (.groupResume part cc a0 a1 a2) s part cc 0 0
      (s.startReplay { g with halt := .no })) ∧
    (l.preempted = false → a2 = 1 → Answers (.groupResume part cc a0 a1 a2) s part cc 0 0 (s.setGroup { g with
      halt := .no, armed := false, pc := g.trap.resume, stat := .ready, readyTime := s.tick, pends := [], fails := [] })) ∧
    (l.preempted = true → a2 = 1 → Answers (.groupResume part cc a0 a1 a2) s part cc 0 0 ((s.setGroup { g with
      halt := .preempt, armed := false, pc := g.trap.resume, stat := .ready, pends := [], fails := [] }).settleBusy part)) ∧
    (a2 = 2 → Answers (.groupResume part cc a0 a1 a2) s part cc 0 0 ((s.exitGroup g).settleBusy part)) ∧
    (a2 = 3 → Answers (.groupResume part cc a0 a1 a2) s part cc (-2) 0 s) ∧
    (4 ≤ a2.toNat → Answers (.groupResume part cc a0 a1 a2) s part cc (-1) 0 s) := by
  let c : Call := ⟨part, cc, 3, a0, a1, a2⟩
  have num := CanCall.num can
  have gpart : g.part = part := by
    have found := List.find?_some trapped
    simp only [Bool.and_eq_true, beq_iff_eq] at found
    exact found.1.1.1.1.1
  have tix : bits a1.toNat 23 0 = a1.toNat % 2 ^ 24 := by rw [bits_eq, pow_zero, Nat.div_one]
  have gix : bits a1.toNat 28 24 = a1.toNat / 2 ^ 24 := by
    rw [bits_eq]
    omega
  have found : s.groups.find? (fun g => g.part == p.num && g.lid == l.lid && g.tix == bits a1.toNat 23 0 &&
      g.gix == bits a1.toNat 28 24 && g.halt == .trap && g.armed) = some g := by
    rw [tix, gix, num]
    exact trapped
  have resume (m : W64) (hm : a2 = m) (small : m.toNat ≤ 3) : ¬(decide (a1.toNat / 2 ^ 29 ≠ 0) || decide (3 < a2.toNat)) = true := by
    rw [hm, Nat.div_eq_of_lt low]
    simpa using small
  refine ⟨fun runs mode => answers_of_done (c := c) (f := s.groupResume c) can rfl ?_,
    fun runs mode => answers_of_done (c := c) (f := s.groupResume c) can rfl ?_,
    fun held mode => answers_of_done (c := c) (f := s.groupResume c) can rfl ?_,
    fun mode => answers_of_done (c := c) (f := s.groupResume c) can rfl ?_,
    fun mode => answers_of_refused (c := c) (f := s.groupResume c) can rfl ?_,
    fun above => answers_of_refused (c := c) (f := s.groupResume c) can rfl (if_pos ?_)⟩
  · simp only [State.groupResume, c]
    rw [if_neg (resume 0 mode (by decide))]
    simp only [named, found, mode, placed, runs]
    rfl
  · simp only [State.groupResume, c]
    rw [if_neg (resume 1 mode (by decide))]
    simp only [named, found, mode, placed, runs]
    rfl
  · simp only [State.groupResume, c]
    rw [if_neg (resume 1 mode (by decide))]
    simp only [named, found, mode, placed, held, ← gpart]
    simp [State.untrapped, Group.untrapHeld, Group.trapReturn, placed]
  · simp only [State.groupResume, c]
    rw [if_neg (resume 2 mode (by decide))]
    simp only [named, found, mode, placed, ← gpart]
    rfl
  · simp only [State.groupResume, c]
    rw [if_neg (resume 3 mode (by decide))]
    simp only [named, found, mode]
    rfl
  · simp [c, show 3 < a2.toNat from above]

end Resumes

/-- R287, R294, R301. -/
theorem contextCalls : ContextCalls := by
  intro s p part cc a0 a1 a2 can n has create destroy root
  obtain ⟨range, taken, new⟩ := ctxCreate_answers (a0 := a0) can
  obtain ⟨reserved, missing, busy⟩ := ctxDestroy_refused (a0 := a0) (a1 := a1) can
  obtain ⟨refused, rooted⟩ := ctxRoot_answers (a0 := a0) (a1 := a1) can
  exact ⟨range, taken, new, reserved, missing, busy, ctxDestroy_done can, refused, rooted,
    fun g l low named trapped placed => groupResume_answers can low named trapped placed⟩

end Sys2Proof.Machine
end

section
/-!
CONV_CREATE (R305).
-/

namespace Sys2Proof.Machine

open Sys2Proof Sys2Proof.Claims

/-- The first number of a range that satisfies a condition is the lowest. -/
theorem find?_range_eq_of_lowestFree {x n : Nat} {free : Nat → Prop} {q : Nat → Bool} (lowest : LowestFree x n free)
    (holds : ∀ y, q y = true ↔ free y) : (List.range n).find? q = some x := by
  obtain ⟨below, own, least⟩ := lowest
  rw [List.find?_range_eq_some]
  exact ⟨(holds x).mpr own, List.mem_range.mpr below, fun y hy => by
    rw [Bool.not_eq_true', ← Bool.not_eq_true, holds y]
    exact least y hy⟩

/-! ## A conversation that is created -/

theorem getD_map_range {α : Type} (f : Nat → α) {r n : Nat} (hr : r < n) (d : α) : ((List.range n).map f).getD r d = f r := by
  rw [List.getD_eq_getElem?_getD, List.getElem?_map, List.getElem?_range hr, Option.map_some, Option.getD_some]

section Created

variable {num : Nat} {bs : List Byte} {k : Choreo} {claimed : List (Nat × BitVec 32)} {r : Nat} (hr : r < 4)

include hr

theorem Conv.role_create : ((Conv.create num bs k claimed).role r).world = (descRole bs r).2 ∧
    ((Conv.create num bs k claimed).role r).queue = [] ∧ ((Conv.create num bs k claimed).role r).recvs = [] := by
  simp only [Conv.role, Conv.create, getD_map_range _ hr, and_self]

/-- The role of a call that claimed it once has its ticket. -/
theorem Conv.ticket_create {n : BitVec 32} (mem : (r, n) ∈ claimed) (only : ∀ m, (r, m) ∈ claimed → m = n) :
    ((Conv.create num bs k claimed).role r).ticket = n := by
  obtain unfound | ⟨x, found⟩ := Option.eq_none_or_eq_some (claimed.find? fun x => x.1 == r)
  · exact absurd (beq_self_eq_true r) (List.find?_eq_none.mp unfound _ mem)
  · have own : x.1 = r := by simpa using List.find?_some found
    have there := List.mem_of_find?_eq_some found
    simp only [Conv.role, Conv.create, getD_map_range _ hr, found]
    exact only x.2 (own ▸ there)

end Created

/-! ## Claims of roles -/

section Claims

variable {s : State} {p : Partition} {part cc : Nat} {a0 a1 a2 : W64} {bs : List Byte} {k : Choreo}
  (can : CanCall s p part cc)

/-- The roles that the mask of a call names, with its ticket (R305). -/
def claimedRoles (a1 a2 : W64) : List (Nat × BitVec 32) :=
  ((List.range 4).filter fun r => a2.toNat.testBit r).map fun r => (r, a1.setWidth 32)

/-- The claim of a call on a set in which no role of its mask is claimed. -/
theorem State.claim_eq {x : PendConv} (s : State) (part : Nat) (k : Choreo)
    (free : ∀ m ∈ claimedRoles a1 a2, ∀ y ∈ x.claimed, y.1 ≠ m.1) :
    s.claim part k x a2.toNat (a1.setWidth 32) =
      let all := x.claimed ++ claimedRoles a1 a2
      let others := s.pkg.pendConvs.filter fun y => y.num != x.num
      if all.length < k.roles then
        .pending (withPkg s { s.pkg with pendConvs := others ++ [{ x with claimed := all }] }) (BitVec.ofNat 64 x.num)
      else
        .done ((withPkg s { s.pkg with
            pendConvs := others
            convs := (s.pkg.convs.filter fun c => c.num != x.num) ++ [Conv.create x.num x.desc k all] }).measurePart part 2 x.desc)
          (BitVec.ofNat 64 x.num) := by
  have unclaimed : (((List.range 4).filter (bitAt a2.toNat)).any fun r => x.claimed.any fun y => y.1 == r) = false := by
    rw [List.any_eq_false]
    intro r hr
    rw [Bool.not_eq_true, List.any_eq_false]
    intro y hy
    simpa using free (r, a1.setWidth 32) (List.mem_map.mpr ⟨r, hr, rfl⟩) y hy
  simp only [State.claim, unclaimed, Bool.false_eq_true, if_false]
  rfl

theorem State.claim_taken {x : PendConv} (s : State) (part : Nat) (k : Choreo)
    (taken : ∃ m ∈ claimedRoles a1 a2, ∃ y ∈ x.claimed, y.1 = m.1) :
    s.claim part k x a2.toNat (a1.setWidth 32) = .refused (-4) 0 := by
  obtain ⟨m, hm, y, hy, same⟩ := taken
  obtain ⟨r, hr, rfl⟩ := List.mem_map.mp hm
  refine if_pos (List.any_eq_true.mpr ⟨r, hr, List.any_eq_true.mpr ⟨y, hy, ?_⟩⟩)
  simpa using same

variable {x : PendConv} (created : s.convCreate ⟨part, cc, 6, a0, a1, a2⟩ p = s.claim part k x a2.toNat (a1.setWidth 32))

/-- A call that claims roles of a set: the set goes on waiting, or its conversation is created (R305). -/
def ClaimAnswers (s : State) (p : Partition) (part cc : Nat) (a0 a1 a2 : W64) (bs : List Byte) (k : Choreo) (x : PendConv) : Prop :=
  let all := x.claimed ++ claimedRoles a1 a2
  let others := s.pkg.pendConvs.filter fun y => y.num != x.num
  let create := Instr.convCreate part cc a0 a1 a2
  (all.length < k.roles → Answers create s part cc (-5) (BitVec.ofNat 64 x.num)
    (withPkg s { s.pkg with pendConvs := others ++ [{ x with claimed := all }] })) ∧
  (k.roles ≤ all.length → ∃ (c : Conv) (u : State), c.num = x.num ∧ c.choreo = k.num ∧ c.state = k.init ∧
    c.aborted = false ∧ c.destroyed = false ∧ c.exchanges = [] ∧ c.parties.length = k.np ∧
    (∀ r, r < 4 → (c.role r).world = (descRole bs r).2 ∧ (c.role r).queue = [] ∧ (c.role r).recvs = [] ∧
      ∀ n, (r, n) ∈ all → (∀ m, (r, m) ∈ all → m = n) → (c.role r).ticket = n) ∧
    u.pkg.convs = (s.pkg.convs.filter fun y => y.num != x.num) ++ [c] ∧ u.pkg.pendConvs = others ∧
    u.part? part = some { p with pmreg := p.pmreg.set 2 (extendReg (p.pmreg.getD 2 0) bs) } ∧
    u.groups = s.groups ∧ u.hbm = s.hbm ∧ Answers create s part cc 0 (BitVec.ofNat 64 x.num) u)

include can created

theorem claimAnswers_of_free (desc : x.desc = bs) (free : ∀ m ∈ claimedRoles a1 a2, ∀ y ∈ x.claimed, y.1 ≠ m.1) :
    ClaimAnswers s p part cc a0 a1 a2 bs k x := by
  subst desc
  let c : Call := ⟨part, cc, 6, a0, a1, a2⟩
  have hp := CanCall.part? can
  have claims := created.trans (s.claim_eq part k free)
  refine ⟨fun fewer => answers_of_pending (c := c) (f := s.convCreate c) can rfl (claims.trans (if_pos fewer)), fun full => ?_⟩
  let d := Conv.create x.num x.desc k (x.claimed ++ claimedRoles a1 a2)
  let w := withPkg s { s.pkg with
    pendConvs := s.pkg.pendConvs.filter fun y => y.num != x.num
    convs := (s.pkg.convs.filter fun c => c.num != x.num) ++ [d] }
  let q : Partition := { p with pmreg := p.pmreg.set 2 (extendReg (p.pmreg.getD 2 0) x.desc) }
  have ends : s.convCreate c p = .done (w.setPart q) (BitVec.ofNat 64 x.num) := by
    rw [claims, if_neg full.not_gt, State.measurePart, State.updPart_of_part? (s := w) hp]
  refine ⟨d, w.setPart q, rfl, rfl, rfl, rfl, rfl, rfl, by simp [d, Conv.create], fun r hr => ?_, rfl, rfl,
    State.part?_setPart_of_num (s := w) hp rfl, rfl, rfl, answers_of_done (c := c) (f := s.convCreate c) can rfl ends⟩
  obtain ⟨world, queue, recvs⟩ := Conv.role_create (num := x.num) (bs := x.desc) (k := k)
    (claimed := x.claimed ++ claimedRoles a1 a2) hr
  exact ⟨world, queue, recvs, fun n mem only => Conv.ticket_create hr mem only⟩

end Claims

/-! ## The checks of a call -/

section Checks

variable {s : State} {p : Partition} {part cc : Nat} {a0 a1 a2 : W64} {bs : List Byte} {k : Choreo}

theorem unused_eq_false (bits : a1.toNat < 2 ^ 32) (mask : a2.toNat < 16) :
    (decide (a1.toNat / 2 ^ 32 ≠ 0) || decide (a2.toNat / 16 ≠ 0)) = false := by
  rw [Nat.div_eq_of_lt bits, Nat.div_eq_of_lt mask]
  rfl

/-- A call whose arguments are in range reads its description (R305). -/
theorem State.convCreate_of_args (bits : a1.toNat < 2 ^ 32) (mask : a2.toNat < 16) (aligned : a0.toNat % 64 = 0)
    (below : a0.toNat + 256 ≤ p.bound) (reads : s.readPart p a0 256 = .inl bs) :
    (s.choreo? (leNat (bs.take 1)) = none → s.convCreate ⟨part, cc, 6, a0, a1, a2⟩ p = .refused (-6) 0) ∧
    ∀ k, s.choreo? (leNat (bs.take 1)) = some k →
      (descOk bs k = false ∨ claimOk bs k p.num a2.toNat = false →
        s.convCreate ⟨part, cc, 6, a0, a1, a2⟩ p = .refused (-6) 0) ∧
      (descOk bs k = true → claimOk bs k p.num a2.toNat = true →
        (∀ x, s.pkg.pendConvs.find? (fun x => x.desc == bs) = some x →
          s.convCreate ⟨part, cc, 6, a0, a1, a2⟩ p = s.claim p.num k x a2.toNat (a1.setWidth 32)) ∧
        (s.pkg.pendConvs.find? (fun x => x.desc == bs) = none →
          let capA := ((List.range k.np).map fun r => (descCap bs r).1).sum
          let capB := ((List.range k.np).map fun r => (descCap bs r).2).sum
          ((List.range 4096).find? (fun n => !s.convTaken n) = none →
            s.convCreate ⟨part, cc, 6, a0, a1, a2⟩ p = .refused (-3) 0) ∧
          ∀ n, (List.range 4096).find? (fun n => !s.convTaken n) = some n →
            s.convCreate ⟨part, cc, 6, a0, a1, a2⟩ p =
              if 2 ^ 20 < s.storeUsed.1 + capA ∨ 2 ^ 20 < s.storeUsed.2 + capB then .refused (-3) 0
              else s.claim p.num k ⟨n, bs, [], capA, capB⟩ a2.toNat (a1.setWidth 32))) := by
  have args := unused_eq_false bits mask
  have address : p.argOk a0 256 64 = true := Partition.argOk_iff.mpr ⟨aligned, below⟩
  simp only [State.convCreate, args, address, reads, Bool.not_true, Bool.false_eq_true, if_false]
  refine ⟨fun none => ?_, fun k choreo => ⟨fun bad => ?_, fun ok mine => ⟨fun x found => ?_, fun new => ⟨fun full => ?_, fun n free => ?_⟩⟩⟩⟩
  · simp only [none]
  · simp only [choreo]
    refine if_pos ?_
    rcases bad with bad | bad <;> simp [bad]
  · simp only [choreo, ok, mine, found, Bool.not_true, Bool.or_self, Bool.false_eq_true, if_false]
  · simp only [choreo, ok, mine, new, full, Bool.not_true, Bool.or_self, Bool.false_eq_true, if_false]
  · simp only [choreo, ok, mine, new, free, Bool.not_true, Bool.or_self, Bool.false_eq_true, if_false, Bool.or_eq_true,
      decide_eq_true_eq]

end Checks

/-- R305. -/
theorem creationCalls : CreationCalls := by
  intro s p part cc a0 a1 a2 can create
  obtain rfl := CanCall.num can
  let c : Call := ⟨p.num, cc, 6, a0, a1, a2⟩
  have refused {status : Int} (ends : s.convCreate c p = .refused status 0) : Answers create s p.num cc status 0 s :=
    answers_of_refused (c := c) (f := s.convCreate c) can rfl ends
  refine ⟨fun reserved => refused (if_pos ?_), fun bits mask address => refused ((if_neg ?_).trans (if_pos ?_)),
    fun bs bits mask aligned below reads => ?_⟩
  · have high : a1.toNat / 2 ^ 32 ≠ 0 ∨ a2.toNat / 16 ≠ 0 := by omega
    simpa [c] using high
  · rw [unused_eq_false bits mask]
    exact Bool.false_ne_true
  · rw [Partition.argOk_eq_false_iff.mpr address]
    rfl
  · obtain ⟨missing, known⟩ := State.convCreate_of_args (s := s) (p := p) (part := p.num) (cc := cc) bits mask aligned below reads
    refine ⟨fun none => refused (missing none), fun k choreo => ?_⟩
    obtain ⟨bad, good⟩ := known k choreo
    refine ⟨fun why => refused (bad why), fun ok mine => ?_⟩
    obtain ⟨joins, begins⟩ := good ok mine
    intro mine capA capB claims
    refine ⟨fun x found => ⟨fun taken => ?_, fun free => ?_⟩, fun new => ?_⟩
    · exact refused ((joins x found).trans (s.claim_taken p.num k taken))
    · exact claimAnswers_of_free can (joins x found) (by simpa using List.find?_some found) free
    · have unfound : s.pkg.pendConvs.find? (fun x => x.desc == bs) = none :=
        List.find?_eq_none.mpr fun x hx => by simpa using new x hx
      obtain ⟨full, starts⟩ := begins unfound
      refine ⟨fun taken => refused (full ?_), fun n lowest => ⟨fun short => ?_, fun roomA roomB => ?_⟩⟩
      · exact List.find?_eq_none.mpr fun n hn => by simp [taken n (List.mem_range.mp hn)]
      all_goals
        have first := starts n (find?_range_eq_of_lowestFree lowest fun y => by simp)
      · exact refused (first.trans (if_pos short))
      · exact claimAnswers_of_free can (first.trans (if_neg (by omega))) rfl fun _ _ _ hy => absurd hy List.not_mem_nil

end Sys2Proof.Machine
end

section
/-!
The other calls on choreographies and conversations (R203, R204, R303, R306).
-/

namespace Sys2Proof.Machine

open Sys2Proof Sys2Proof.Claims

/-- A conversation that is destroyed: it stands until its number is taken again, and its choreography is unloaded if its partition
is gone and nothing uses it (R306, R288). -/
def State.releaseConv (s : State) (cn : Nat) : State :=
  (withPkg s { s.pkg with convs := s.pkg.convs.map fun y => if y.num == cn then { y with destroyed := true } else y }).dropChoreos

theorem State.conv?_releaseConv {s : State} {cn : Nat} {y : Conv} (conv : s.conv? cn = some y) :
    (s.releaseConv cn).conv? cn = some { y with destroyed := true } := by
  have same : ((fun c : Conv => c.num == cn) ∘ fun c => if c.num == cn then { c with destroyed := true } else c) =
      fun c => c.num == cn := by
    funext c
    by_cases h : c.num = cn <;> simp [h]
  have found : (s.releaseConv cn).conv? cn =
      (s.pkg.convs.map fun y => if y.num == cn then { y with destroyed := true } else y).find? fun c => c.num == cn := rfl
  rw [found, List.find?_map, same, show s.pkg.convs.find? (fun c => c.num == cn) = some y from conv, Option.map_some,
    if_pos (beq_iff_eq.mpr (s.num_of_conv? conv))]

section Choreographies

variable {s : State} {p : Partition} {part cc : Nat} {a0 : W64} (can : CanCall s p part cc)

include can

/-- CHOREO_LOAD. -/
theorem choreoLoad_answers (bs : List Byte) :
    (a0.toNat % 64 ≠ 0 ∨ p.bound < a0.toNat + 8320 → Answers (.choreoLoad part cc a0) s part cc (-2) 0 s) ∧
    (a0.toNat % 64 = 0 → a0.toNat + 8320 ≤ p.bound → s.readPart p a0 8320 = .inl bs →
      (∀ why, (Choreo.parse 0 part bs).refusal (choreoClean bs) = some why →
        Answers (.choreoLoad part cc a0) s part cc (-6) (BitVec.ofNat 64 why) s) ∧
      ((Choreo.parse 0 part bs).refusal (choreoClean bs) = none →
        ((∀ n, n < 256 → ∃ k ∈ s.pkg.choreos, k.num = n) → Answers (.choreoLoad part cc a0) s part cc (-3) 0 s) ∧
        ∀ n, LowestFree n 256 (fun n => ∀ k ∈ s.pkg.choreos, k.num ≠ n) →
          Answers (.choreoLoad part cc a0) s part cc 0 (BitVec.ofNat 64 n) (withPkg s { s.pkg with
            choreos := s.pkg.choreos ++ [Choreo.parse n part bs]
            mreg := s.pkg.mreg.set 5 (extendReg (s.pkg.mreg.getD 5 0) bs) }))) := by
  obtain rfl := CanCall.num can
  let c : Call := ⟨p.num, cc, 4, a0, 0, 0⟩
  have refused {status : Int} {v : W64} (ends : s.choreoLoad c p = .refused status v) :
      Answers (.choreoLoad p.num cc a0) s p.num cc status v s :=
    answers_of_refused (c := c) (f := s.choreoLoad c) can rfl ends
  refine ⟨fun address => refused ?_, fun aligned below reads => ⟨fun why bad => refused ?_, fun good =>
    ⟨fun full => refused ?_, fun n lowest => answers_of_done (c := c) (f := s.choreoLoad c) can rfl ?_⟩⟩⟩
  · exact if_pos (by rw [Partition.argOk_eq_false_iff.mpr address]; rfl)
  all_goals
    have ok : p.argOk a0 8320 64 = true := Partition.argOk_iff.mpr ⟨aligned, below⟩
  · simp only [State.choreoLoad, c, ok, reads, bad, Bool.not_true, Bool.false_eq_true, if_false]
  · have none : ((List.range 256).find? fun n => !s.pkg.choreos.any fun k => k.num == n) = Option.none :=
      List.find?_eq_none.mpr fun n hn => by simpa using full n (List.mem_range.mp hn)
    simp only [State.choreoLoad, c, ok, reads, good, none, Bool.not_true, Bool.false_eq_true, if_false]
  · have first : ((List.range 256).find? fun n => !s.pkg.choreos.any fun k => k.num == n) = some n :=
      find?_range_eq_of_lowestFree lowest fun y => by simp
    simp only [State.choreoLoad, c, ok, reads, good, first, Bool.not_true, Bool.false_eq_true, if_false]
    rfl

/-- CHOREO_UNLOAD. -/
theorem choreoUnload_answers :
    ((∀ k ∈ s.pkg.choreos, k.num ≠ a0.toNat) → Answers (.choreoUnload part cc a0) s part cc (-2) 0 s) ∧
    ∀ k, s.pkg.choreos.find? (fun k => k.num == a0.toNat) = some k →
      (s.choreoUsed k.num = true → Answers (.choreoUnload part cc a0) s part cc (-4) 0 s) ∧
      (s.choreoUsed k.num = false → k.part ≠ part ∨ k.orphan = true → Answers (.choreoUnload part cc a0) s part cc (-6) 0 s) ∧
      (s.choreoUsed k.num = false → k.part = part → k.orphan = false → Answers (.choreoUnload part cc a0) s part cc 0 0
        (withPkg s { s.pkg with choreos := s.pkg.choreos.filter fun x => x.num != k.num })) := by
  obtain rfl := CanCall.num can
  let c : Call := ⟨p.num, cc, 5, a0, 0, 0⟩
  have refused {status : Int} (ends : s.choreoUnload c p = .refused status 0) :
      Answers (.choreoUnload p.num cc a0) s p.num cc status 0 s :=
    answers_of_refused (c := c) (f := s.choreoUnload c) can rfl ends
  refine ⟨fun missing => refused ?_, fun k found => ⟨fun used => refused ?_, fun idle foreign => refused ?_, fun idle own live =>
    answers_of_done (c := c) (f := s.choreoUnload c) can rfl ?_⟩⟩
  · have none : (s.pkg.choreos.find? fun k => k.num == a0.toNat) = Option.none :=
      List.find?_eq_none.mpr fun k hk => by simpa using missing k hk
    simp only [State.choreoUnload, c, none]
  · simp only [State.choreoUnload, c, found, used, if_true]
  · simp only [State.choreoUnload, c, found, idle, Bool.false_eq_true, if_false]
    exact if_pos (by simpa using foreign)
  · simp only [State.choreoUnload, c, found, idle, own, live, ne_eq, not_true_eq_false, decide_false, Bool.or_self,
      Bool.false_eq_true, if_false]
    rfl

/-- CONV_DESTROY aborts the conversation, if it is not aborted, and releases it (R306). -/
theorem convDestroy_answers :
    (s.conv? a0.toNat = none → Answers (.convDestroy part cc a0) s part cc (-2) 0 s) ∧
    ∀ x, s.conv? a0.toNat = some x →
      (x.destroyed = true → Answers (.convDestroy part cc a0) s part cc (-2) 0 s) ∧
      (x.destroyed = false → (∀ w ∈ x.worlds, w / 128 ≠ part) → Answers (.convDestroy part cc a0) s part cc (-6) 0 s) ∧
      (x.destroyed = false → (∃ w ∈ x.worlds, w / 128 = part) → ∃ u y, Answers (.convDestroy part cc a0) s part cc 0 0 u ∧
        u.conv? a0.toNat = some y ∧ y.destroyed = true ∧ y.aborted = true) := by
  obtain rfl := CanCall.num can
  let c : Call := ⟨p.num, cc, 7, a0, 0, 0⟩
  have refused {status : Int} (ends : s.convDestroy c p = .refused status 0) :
      Answers (.convDestroy p.num cc a0) s p.num cc status 0 s :=
    answers_of_refused (c := c) (f := s.convDestroy c) can rfl ends
  refine ⟨fun none => refused ?_, fun x conv => ⟨fun gone => refused ?_, fun live foreign => refused ?_, fun live own => ?_⟩⟩
  · simp only [State.convDestroy, c, none]
  · simp only [State.convDestroy, c, conv, gone, if_true]
  · have none : (x.worlds.find? fun w => w / 128 == p.num) = Option.none :=
      List.find?_eq_none.mpr fun w hw => by simpa using foreign w hw
    simp only [State.convDestroy, c, conv, live, none, Bool.false_eq_true, if_false]
  · obtain ⟨w, world⟩ : ∃ w, (x.worlds.find? fun w => w / 128 == p.num) = some w := by
      rw [← Option.isSome_iff_exists, List.find?_isSome]
      obtain ⟨w, hw, mine⟩ := own
      exact ⟨w, hw, by simpa using mine⟩
    have named := s.num_of_conv? conv
    obtain ⟨y, abort, aborted⟩ : ∃ y, (if x.aborted then s else s.abortBy x.num 7 w).conv? a0.toNat = some y ∧ y.aborted = true := by
      obtain past | going := Bool.eq_false_or_eq_true x.aborted
      · rw [if_pos past]
        exact ⟨x, conv, past⟩
      · rw [if_neg (by rw [going]; exact Bool.false_ne_true), ← named]
        obtain ⟨-, empties, -⟩ := abortAtTheGate
        exact ⟨_, empties s x 7 w (named ▸ conv) going, rfl⟩
    have ends : s.convDestroy c p = .done ((if x.aborted then s else s.abortBy x.num 7 w).releaseConv x.num) 0 := by
      simp only [State.convDestroy, c, conv, live, world, Bool.false_eq_true, if_false]
      rfl
    exact ⟨_, { y with destroyed := true }, answers_of_done (c := c) (f := s.convDestroy c) can rfl ends,
      named ▸ State.conv?_releaseConv (named ▸ abort), rfl, aborted⟩

end Choreographies

/-- R203, R204, R303, R305, R306. -/
theorem conversationCalls : ConversationCalls := by
  refine ⟨fun s p part cc a0 bs can => ⟨choreoLoad_answers can bs, choreoUnload_answers can, convDestroy_answers can⟩,
    fun s n => ⟨s.dropPending n, ?_, rfl, rfl⟩⟩
  rw [Laws.exec_convCreateTimeout, execConvCreateTimeout]

end Sys2Proof.Machine
end

section
/-!
The calls on the channel key, measurement and tensor slots (R312, R318, R324, R325).
-/

namespace Sys2Proof.Machine

open Sys2Proof Sys2Proof.Claims

/-! ## Lines that are cast out -/

theorem State.lineCast_cached (s : State) (l : Line) : (s.lineCast l).cached = false := rfl

/-- A kind of line of which all are cast out is not cached. -/
theorem State.castLines_uncached (s : State) (q : Line → Bool) :
    ∀ l ∈ (s.castLines q).lines, l.cached = true → q l = false := by
  intro l hl cached
  obtain ⟨k, -, rfl⟩ := List.mem_map.mp (List.mem_of_mem_filter hl)
  by_cases cast : (k.cached && q k) = true
  · rw [if_pos cast, State.lineCast_cached] at cached
    exact absurd cached Bool.false_ne_true
  · rw [if_neg cast] at cached ⊢
    rwa [cached, Bool.true_and, Bool.not_eq_true] at cast

section Keys

variable {s : State} {p : Partition} {part cc : Nat} {a0 a1 a2 : W64} (can : CanCall s p part cc)

include can

/-- CHAN_KEY (R318). -/
theorem chanKey_answers (bs : List Byte) :
    (∀ x, a0.toNat + 36 ≤ p.bound → a1.toNat % 4096 = 0 → a1.toNat + 1 ≤ p.bound → 4 ≤ a2.toNat → a2.toNat ≤ 12 →
      s.readPart p a0 36 = .inl bs → s.pkg.channels[part + 1]? = some x →
      Answers (.chanKey part cc a0 a1 a2) s part cc 0 0
        ((withPkg s { s.pkg with channels := s.pkg.channels.set (part + 1) { x with
          key := bs.take 32, salt := bs.drop 32, keyed := true, next := 1, expired := false, inboxBase := a1,
          inboxLog := a2.toNat } }).writePart p a0.toNat (List.replicate 36 0))) ∧
    (a2.toNat < 4 ∨ 12 < a2.toNat ∨ p.bound < a0.toNat + 36 ∨ a1.toNat % 4096 ≠ 0 ∨ p.bound < a1.toNat + 1 →
      Answers (.chanKey part cc a0 a1 a2) s part cc (-2) 0 s) := by
  obtain rfl := CanCall.num can
  let c : Call := ⟨p.num, cc, 8, a0, a1, a2⟩
  have refused : (decide (a2.toNat < 4) || decide (12 < a2.toNat) || !p.argOk a0 36 1 || !p.argOk a1 1 4096) = true ↔
      a2.toNat < 4 ∨ 12 < a2.toNat ∨ p.bound < a0.toNat + 36 ∨ a1.toNat % 4096 ≠ 0 ∨ p.bound < a1.toNat + 1 := by
    simp only [Bool.or_eq_true, decide_eq_true_eq, Bool.not_eq_true', Partition.argOk_eq_false_iff, Nat.mod_one, ne_eq,
      not_true_eq_false, false_or, or_assoc]
  refine ⟨fun x source aligned below low high reads channel => answers_of_done (c := c) (f := s.chanKey c) can rfl ?_,
    fun bad => answers_of_refused (c := c) (f := s.chanKey c) can rfl (if_pos (refused.mpr bad))⟩
  refine (if_neg (mt refused.mp (by omega))).trans ?_
  simp only [c, reads, State.updChannel, channel]
  rfl

/-- MEAS_EXTEND (R312). -/
theorem measExtend_answers (bs : List Byte) :
    (a0.toNat + 48 ≤ p.bound → s.readPart p a0 48 = .inl bs → Answers (.measExtend part cc a0) s part cc 0 0
      (s.setPart { p with pmreg := p.pmreg.set 3 (extendReg (p.pmreg.getD 3 0) bs) })) ∧
    (p.bound < a0.toNat + 48 → Answers (.measExtend part cc a0) s part cc (-2) 0 s) := by
  obtain rfl := CanCall.num can
  let c : Call := ⟨p.num, cc, 9, a0, 0, 0⟩
  refine ⟨fun below reads => answers_of_done (c := c) (f := s.measExtend c) can rfl ?_,
    fun above => answers_of_refused (c := c) (f := s.measExtend c) can rfl (if_pos ?_)⟩
  · have ok : p.argOk a0 48 1 = true := Partition.argOk_iff.mpr ⟨Nat.mod_one _, below⟩
    simp only [State.measExtend, c, ok, reads, Bool.not_true, Bool.false_eq_true, if_false, State.measurePart,
      State.updPart_of_part? (CanCall.part? can)]
  · rw [Partition.argOk_eq_false_iff.mpr (.inr above)]
    rfl

end Keys

/-! ## Tensor slots -/

/-- The lowest tensor slot that is free. -/
theorem Package.freeTensor_eq_some {k : Package} {n : Nat}
    (lowest : LowestFree n 16384 fun n => n ≠ 0 ∧ ∀ t ∈ k.tensors, t.slot ≠ n) : k.freeTensor = some n := by
  obtain ⟨below, ⟨pos, own⟩, least⟩ := lowest
  obtain ⟨m, rfl⟩ := Nat.exists_eq_succ_of_ne_zero pos
  have first : (List.range 16383).find? ((fun n => !k.tensors.any fun t => t.slot == n) ∘ (· + 1)) = some m := by
    refine find?_range_eq_of_lowestFree (free := fun n => ∀ t ∈ k.tensors, t.slot ≠ n + 1)
      ⟨Nat.lt_of_succ_lt_succ below, own, fun y hy all => ?_⟩ fun y => by simp
    exact least (y + 1) (Nat.succ_lt_succ hy) ⟨y.succ_ne_zero, all⟩
  rw [Package.freeTensor, List.find?_map, first, Option.map_some]

theorem Package.freeTensor_eq_none {k : Package} (full : ∀ n, n ≠ 0 → n < 16384 → ∃ t ∈ k.tensors, t.slot = n) :
    k.freeTensor = none := by
  refine List.find?_eq_none.mpr fun n hn => ?_
  obtain ⟨m, hm, rfl⟩ := List.mem_map.mp hn
  simpa using full (m + 1) m.succ_ne_zero (Nat.succ_lt_succ (List.mem_range.mp hm))

/-- A tensor slot whose version is counted up, once its cached lines are written back and dropped (R325). -/
def State.bumped (s : State) (t : Tensor) : State :=
  withPkg (s.castSlot t.slot) { s.pkg with
    tensors := s.pkg.tensors.map fun x => if x.slot == t.slot then { x with version := x.version + 1 } else x }

section Tensors

variable {s : State} {p : Partition} {part cc : Nat} {a0 : W64} (can : CanCall s p part cc)

include can

/-- TENSOR_OPEN (R324). -/
theorem tensorOpen_answers :
    ((∀ n, n ≠ 0 → n < 16384 → ∃ t ∈ s.pkg.tensors, t.slot = n) ∨ 0xFFFFFFFF ≤ s.pkg.tensorCount →
      Answers (.tensorOpen part cc) s part cc (-3) 0 s) ∧
    (∀ n, LowestFree n 16384 (fun n => n ≠ 0 ∧ ∀ t ∈ s.pkg.tensors, t.slot ≠ n) → s.pkg.tensorCount < 0xFFFFFFFF →
      ∃ k1 k2 : BitVec 256, Answers (.tensorOpen part cc) s part cc 0 (BitVec.ofNat 64 n) (withPkg s { s.pkg with
        tensors := s.pkg.tensors ++ [⟨n, part, BitVec.ofNat 32 (s.pkg.tensorCount + 1), 0, k1, k2⟩]
        tensorCount := s.pkg.tensorCount + 1, keyDraws := s.pkg.keyDraws + 2 })) := by
  obtain rfl := CanCall.num can
  let c : Call := ⟨p.num, cc, 10, 0, 0, 0⟩
  refine ⟨fun full => answers_of_refused (c := c) (f := s.tensorOpen c) can rfl ?_, fun n lowest left =>
    ⟨Config.randomKey 0 s.pkg.keyDraws, Config.randomKey 0 (s.pkg.keyDraws + 1),
      answers_of_done (c := c) (f := s.tensorOpen c) can rfl ?_⟩⟩
  · unfold State.tensorOpen
    obtain none | ⟨n, free⟩ := Option.eq_none_or_eq_some s.pkg.freeTensor
    · rw [none]
    · rw [free]
      refine if_pos (full.resolve_left fun full => ?_)
      rw [Package.freeTensor_eq_none full] at free
      exact absurd free (by nofun)
  · unfold State.tensorOpen
    rw [Package.freeTensor_eq_some lowest]
    exact if_neg left.not_ge

/-- TENSOR_BUMP and TENSOR_CLOSE of a slot that the partition does not own. -/
theorem tensor_missing (none : ∀ t ∈ s.pkg.tensors, ¬(t.slot = a0.toNat ∧ t.part = part)) :
    Answers (.tensorBump part cc a0) s part cc (-2) 0 s ∧ Answers (.tensorClose part cc a0) s part cc (-2) 0 s := by
  obtain rfl := CanCall.num can
  have unfound : (s.pkg.tensors.find? fun t => t.slot == a0.toNat && t.part == p.num) = Option.none :=
    List.find?_eq_none.mpr fun t ht => by simpa using none t ht
  refine ⟨answers_of_refused (c := ⟨p.num, cc, 11, a0, 0, 0⟩) (f := s.tensorBump ⟨p.num, cc, 11, a0, 0, 0⟩) can rfl ?_,
    answers_of_refused (c := ⟨p.num, cc, 11, a0, 1, 0⟩) (f := s.tensorClose ⟨p.num, cc, 11, a0, 1, 0⟩) can rfl ?_⟩
  · simp only [State.tensorBump, State.tensorOf, unfound]
  · simp only [State.tensorClose, State.tensorOf, unfound]

variable {t : Tensor} (found : s.pkg.tensors.find? (fun t => t.slot == a0.toNat && t.part == part) = some t)

include found

/-- TENSOR_BUMP (R325). -/
theorem tensorBump_answers :
    (t.version = 0xFFFFFFFF → Answers (.tensorBump part cc a0) s part cc (-3) 0 s) ∧
    (t.version ≠ 0xFFFFFFFF → ∃ u, Answers (.tensorBump part cc a0) s part cc 0 0 u ∧ u.hbm = s.hbm ∧
      (∀ l ∈ u.lines, ¬(l.slot = a0.toNat ∧ l.cached = true)) ∧
      u.pkg.tensors = s.pkg.tensors.map fun x => if x.slot = t.slot then { x with version := x.version + 1 } else x) := by
  obtain rfl := CanCall.num can
  let c : Call := ⟨p.num, cc, 11, a0, 0, 0⟩
  have owned : s.tensorOf c p = some t := found
  have slot : t.slot = a0.toNat := by
    have both := List.find?_some found
    simp only [Bool.and_eq_true, beq_iff_eq] at both
    exact both.1
  refine ⟨fun last => answers_of_refused (c := c) (f := s.tensorBump c) can rfl ?_, fun more =>
    ⟨s.bumped t, answers_of_done (c := c) (f := s.tensorBump c) can rfl ?_, rfl, ?_, ?_⟩⟩
  · simp only [State.tensorBump, owned, last, if_true]
  · simp only [State.tensorBump, owned, more, if_false]
    rfl
  · rintro l hl ⟨own, cached⟩
    have other := s.castLines_uncached (fun l => l.slot == t.slot) l hl cached
    simp [own, slot] at other
  · simp only [State.bumped, withPkg, beq_iff_eq]

/-- TENSOR_CLOSE (R325). -/
theorem tensorClose_answers :
    (s.leafNames p t.slot = some .leaf → Answers (.tensorClose part cc a0) s part cc (-4) 0 s) ∧
    (∀ l, s.leafNames p t.slot = some (.poison l) →
      Answers (.tensorClose part cc a0) s part cc (-2) 0 (s.lineError l none)) ∧
    (s.leafNames p t.slot = none → Answers (.tensorClose part cc a0) s part cc 0 0
      (withPkg s { s.pkg with tensors := s.pkg.tensors.filter fun x => x.slot != t.slot })) := by
  obtain rfl := CanCall.num can
  let c : Call := ⟨p.num, cc, 11, a0, 1, 0⟩
  have owned : s.tensorOf c p = some t := found
  refine ⟨fun leaf => answers_of_refused (c := c) (f := s.tensorClose c) can rfl ?_,
    fun l poison => answers_of_poison (c := c) (f := s.tensorClose c) can rfl ?_,
    fun none => answers_of_done (c := c) (f := s.tensorClose c) can rfl ?_⟩
  · simp only [State.tensorClose, owned, leaf]
  · simp only [State.tensorClose, owned, poison]
  · simp only [State.tensorClose, owned, none]
    rfl

end Tensors

/-- R287, R312, R318, R324, R325. -/
theorem keyAndTensorCalls : KeyAndTensorCalls := by
  intro s p part cc a0 a1 a2 bs can
  obtain ⟨key, refused⟩ := chanKey_answers (a0 := a0) (a1 := a1) (a2 := a2) can bs
  obtain ⟨extend, above⟩ := measExtend_answers (a0 := a0) can bs
  obtain ⟨full, opens⟩ := tensorOpen_answers can
  refine ⟨key, refused, extend, above, full, opens, tensor_missing can, fun t found => ?_⟩
  obtain ⟨last, more⟩ := tensorBump_answers can found
  exact ⟨last, more, tensorClose_answers can found⟩

end Sys2Proof.Machine
end

section
/-!
Invalidations and the report ring (R292, R299), and a partition's service calls as a whole.
-/

namespace Sys2Proof.Machine

open Sys2Proof Sys2Proof.Claims

/-! ## Writes that are performed -/

/-- From `s` to `t` partitions and copies of page-table entries stay as they were. -/
def State.KeepsTables (s t : State) : Prop := t.parts = s.parts ∧ t.tlb = s.tlb

theorem State.KeepsTables.trans {s t u : State} (h : s.KeepsTables t) (k : t.KeepsTables u) : s.KeepsTables u :=
  ⟨k.1.trans h.1, k.2.trans h.2⟩

theorem State.KeepsTables.foldl {α : Type} {f : State → α → State} (step : ∀ s a, State.KeepsTables s (f s a)) (l : List α) (s : State) :
    s.KeepsTables (l.foldl f s) := by
  induction l generalizing s with
  | nil => exact ⟨rfl, rfl⟩
  | cons a l ih => exact (step s a).trans (ih _)

theorem State.keepsTables_writeAt (s : State) (pl : Place) (bs : List Byte) : s.KeepsTables (s.writeAt pl bs) := by
  rw [State.KeepsTables, (AnswersOnly.writeAt s pl bs).frame]
  exact ⟨rfl, rfl⟩

theorem State.keepsTables_performLate (s : State) (uid : Nat) : s.KeepsTables (s.performLate uid) := by
  unfold State.performLate
  split
  · exact (State.KeepsTables.foldl (fun s (l : LateStore) => s.keepsTables_writeAt l.place l.bytes) _ s).trans ⟨rfl, rfl⟩
  · exact ⟨rfl, rfl⟩

theorem State.keepsTables_performAll (s : State) : s.KeepsTables s.performAll :=
  State.KeepsTables.foldl State.keepsTables_performLate _ s

/-! ## Invalidations -/

theorem levelLow_le (level : Nat) : levelLow level ≤ 48 := by
  unfold levelLow
  split
  next l found =>
    have sizes : ∀ l ∈ walkLevels, l.2.2 ≤ 48 := by decide
    exact sizes l (List.mem_of_find?_eq_some found)
  next => decide

/-- The page of an invalidation as a leaf of a level has it (R292). -/
theorem bits_vpage (va : W64) {low : Nat} (h : low ≤ 48) : bits va.toNat 47 low = va.toNat % 2 ^ 48 / 2 ^ low := by
  rw [bits_eq, show 47 + 1 - low = 48 - low from rfl, ← Nat.mod_mul_right_div_self, ← pow_add, Nat.add_sub_cancel' h]

/-- A copy lies in the scope of an invalidation (R292). -/
theorem TlbEntry.inScope_iff {e : TlbEntry} {part scope ctx : Nat} {va : W64} : e.inScope part scope ctx va = true ↔
    e.part = part ∧ (scope = 0 → e.ctx = ctx ∧ e.vpage = va.toNat % 2 ^ 48 / 2 ^ levelLow e.level) ∧
      (scope = 1 → e.ctx = ctx) := by
  unfold TlbEntry.inScope
  rw [Bool.and_eq_true, beq_iff_eq, ← bits_vpage va (levelLow_le e.level)]
  refine and_congr_right fun _ => ?_
  split
  next => simp
  next => simp
  next zero one => simp [show scope ≠ 0 from zero, show scope ≠ 1 from one]

/-- The end of an invalidation (R292). -/
theorem tlbInvalidateDone_ends {s : State} {p : Partition} {part : Nat} (hp : s.part? part = some p) (busy : p.tlbBusy = true) :
    ∃ u, exec (.tlbInvalidateDone part) s = .next u ∧ u.part? part = some { p with tlbBusy := false } ∧
      ∀ e ∈ s.tlb, e ∈ u.tlb ↔ ¬(e.part = part ∧ (p.tlbCmd.1 = 0 → e.ctx = p.tlbCmd.2.1 ∧
        e.vpage = p.tlbCmd.2.2.toNat % 2 ^ 48 / 2 ^ levelLow e.level) ∧ (p.tlbCmd.1 = 1 → e.ctx = p.tlbCmd.2.1)) := by
  obtain ⟨parts, tlb⟩ := s.keepsTables_performAll
  let t : State := { s.performAll with
    tlb := s.performAll.tlb.filter fun e => !e.inScope part p.tlbCmd.1 p.tlbCmd.2.1 p.tlbCmd.2.2 }
  have step : exec (.tlbInvalidateDone part) s =
      .next ((t.setPart { p with tlbBusy := false }).releaseAbove { p with tlbBusy := false }) := by
    simp only [Laws.exec_tlbInvalidateDone, execTlbInvalidateDone, State.invalidated, hp, busy, Bool.not_true,
      Bool.false_eq_true, if_false]
    rfl
  refine ⟨_, step, State.part?_setPart_of_num (s := t) ((State.part?_congr parts part).trans hp) rfl, fun e he => ?_⟩
  have left : e ∈ t.tlb ↔ ¬e.inScope part p.tlbCmd.1 p.tlbCmd.2.1 p.tlbCmd.2.2 = true := by
    simp only [t, tlb, List.mem_filter, he, true_and, Bool.not_eq_true', Bool.not_eq_true]
  rw [← TlbEntry.inScope_iff]
  exact left

/-- R292, R299. -/
theorem invalidationsAndRings : InvalidationsAndRings := by
  intro s p part ctx v hp
  have starts (scope c : Nat) (idle : p.tlbBusy = false) :
      s.invalidate part scope c = s.setPart { p with tlbBusy := true, tlbCmd := (scope, c, p.tlbva) } := by
    rw [State.invalidate, State.updPart_of_part? hp, if_neg (by rw [idle]; exact Bool.false_ne_true)]
  refine ⟨fun idle => ⟨?_, ?_, ?_⟩, tlbInvalidateDone_ends hp, ?_, ?_, ?_⟩
  · rw [Laws.exec_tlbInvalidatePage, execTlbInvalidatePage, starts 0 ctx idle]
  · rw [Laws.exec_tlbInvalidateContext, execTlbInvalidateContext, starts 1 ctx idle]
  · rw [Laws.exec_tlbInvalidatePartition, execTlbInvalidatePartition, starts 2 0 idle]
  · rw [Laws.exec_ringConfigWrite, execRingConfigWrite, State.ringConfig, State.updPart_of_part? hp]
    rfl
  · rw [Laws.exec_ringConfigWrite, execRingConfigWrite, State.ringConfig, State.updPart_of_part? hp]
    rfl
  · rw [Laws.exec_ringtailWrite, execRingtailWrite, State.ringTailWrite, State.updPart_of_part? hp]
    rfl

/-- Settles O49, one theorem for each of its parts. -/
theorem serviceCalls : Obligations.ServiceCalls :=
  ⟨contextCalls, creationCalls, conversationCalls, keyAndTensorCalls, invalidationsAndRings⟩

end Sys2Proof.Machine
end
